-- ==== Sys2Proof/Word.lean ====
section
/-! DEFINITION. Sys2Proof/Word.lean: the word types and the sorted tables in which the state keeps indexed things. -/

namespace Sys2Proof

/-- A 64-bit scalar or control register (R13, R17). -/
abbrev Word := BitVec 64

/-- The smallest addressable unit. -/
abbrev Byte := BitVec 8

/-- A sorted list of key and value pairs; an unlisted key reads as the table's default. -/
abbrev Table (α : Type) := List (Nat × α)

end Sys2Proof
end

