-- ==== Sys2Proof/Machine/Float.lean ====
section
/-! DEFINITION. Sys2Proof/Machine/Float.lean: the number formats of R40-R62. A value is unpacked to an exact number
(sign, natural mantissa, power of two), results are computed exactly, or exactly but for a low bit that says whether the
rest is non-zero, and rounded once (R45). -/

namespace Sys2Proof.Machine

/-- A floating format (R42): widths, bias, and whether it is e4m3, which has no infinity and one NaN. -/
structure Fmt where
  bits : Nat
  mbits : Nat
  ebits : Nat
  bias : Nat
  e4m3 : Bool
deriving DecidableEq, Repr

def f32Fmt : Fmt := ⟨32, 23, 8, 127, false⟩
def bf16Fmt : Fmt := ⟨16, 7, 8, 127, false⟩
def f16Fmt : Fmt := ⟨16, 10, 5, 15, false⟩
def e5m2Fmt : Fmt := ⟨8, 2, 5, 15, false⟩
def e4m3Fmt : Fmt := ⟨8, 3, 4, 7, true⟩
def f64Fmt : Fmt := ⟨64, 52, 11, 1023, false⟩

/-- The rounding modes of R45. -/
inductive RMode where
  | rne | rtz | rup | rdn | rmm
deriving DecidableEq, Repr

/-- The mode of fcsr.RM (R21); 5-7 are trapped before any rounding. -/
def rmodeOf (rm : BitVec 3) : RMode :=
  match rm with
  | 1 => .rtz
  | 2 => .rup
  | 3 => .rdn
  | 4 => .rmm
  | _ => .rne

/-- An exact value: NaN (signalling or quiet), infinity, or (-1)^neg * m * 2^e. -/
inductive FV where
  | nan (sig : Bool)
  | inf (neg : Bool)
  | num (neg : Bool) (m : Nat) (e : Int)
deriving DecidableEq, Repr

/-! Flags in the order of fcsr (R21). -/

def fNV : BitVec 5 := 1
def fDZ : BitVec 5 := 2
def fOF : BitVec 5 := 4
def fUF : BitVec 5 := 8
def fNX : BitVec 5 := 16

/-- A flag if a condition holds. -/
def flagIf (c : Bool) (f : BitVec 5) : BitVec 5 := if c then f else 0

def FV.isNan : FV → Bool
  | .nan _ => true
  | _ => false
def FV.isSig : FV → Bool
  | .nan s => s
  | _ => false
def FV.isZero : FV → Bool
  | .num _ m _ => m == 0
  | _ => false
def FV.isInf : FV → Bool
  | .inf _ => true
  | _ => false
def FV.sign : FV → Bool
  | .nan _ => false
  | .inf n => n
  | .num n _ _ => n
def FV.flip : FV → FV
  | .nan s => .nan s
  | .inf n => .inf (!n)
  | .num n m e => .num (!n) m e
/-! ## Encodings (R42, R44) -/

def infEnc (f : Fmt) : Nat := (2 ^ f.ebits - 1) * 2 ^ f.mbits
def nanEnc (f : Fmt) : Nat := if f.e4m3 then 0x7F else infEnc f + 2 ^ (f.mbits - 1)
def maxEnc (f : Fmt) : Nat := if f.e4m3 then 0x7E else infEnc f - 1
def signed (f : Fmt) (neg : Bool) (n : Nat) : Nat := if neg then n + 2 ^ (f.bits - 1) else n

/-- The least quantum: that of the subnormals. -/
def qMin (f : Fmt) : Int := 1 - (f.bias : Int) - f.mbits

/-- The value an encoding stands for (R42-R44). An f64 NaN whose top mantissa bit is 0 signals, as R44 says of the narrower
formats (DESIGN CHOICE, log 110). -/
def unpack (f : Fmt) (n : Nat) : FV :=
  let neg := n / 2 ^ (f.bits - 1) % 2 == 1
  let ex := n / 2 ^ f.mbits % 2 ^ f.ebits
  let man := n % 2 ^ f.mbits
  if f.e4m3 && ex == 15 && man == 7 then .nan false
  else if !f.e4m3 && ex == 2 ^ f.ebits - 1 then
    if man == 0 then .inf neg else .nan (decide (16 ≤ f.bits) && decide (man < 2 ^ (f.mbits - 1)))
  else if ex == 0 then .num neg man (qMin f)
  else .num neg (man + 2 ^ f.mbits) (qMin f + ex - 1)

/-! ## Rounding (R45-R48) -/

/-- Round m * 2^e to a multiple of 2^q; whether the result differs. -/
def roundMag (mode : RMode) (neg : Bool) (m : Nat) (e q : Int) : Nat × Bool :=
  if q ≤ e then (m * 2 ^ (e - q).toNat, false)
  else
    let sh := (q - e).toNat
    let k := m / 2 ^ sh
    let r := m % 2 ^ sh
    let half := 2 ^ (sh - 1)
    let up : Bool :=
      match mode with
      | .rne => decide (half < r) || (r == half && k % 2 == 1)
      | .rtz => false
      | .rup => r != 0 && !neg
      | .rdn => r != 0 && neg
      | .rmm => decide (half ≤ r)
    (if up then k + 1 else k, r != 0)

/-- m * 2^e < n * 2^d. -/
def ltPow (m : Nat) (e : Int) (n : Nat) (d : Int) : Bool :=
  if e ≤ d then decide (m < n * 2 ^ (d - e).toNat) else decide (m * 2 ^ (e - d).toNat < n)

/-- R47: whether an overflow is delivered as an infinity. -/
def overflowToInf (mode : RMode) (neg : Bool) : Bool :=
  match mode with
  | .rne | .rmm => true
  | .rtz => false
  | .rup => !neg
  | .rdn => neg

/-- Whether a destination saturates (R48). -/
def saturates (f : Fmt) (sat : Bool) : Bool := f.e4m3 || (sat && f == e5m2Fmt)

/-- Round a non-zero number into a format: the encoding and the flags OF, UF, NX. -/
def roundFin (f : Fmt) (mode : RMode) (sat neg : Bool) (m : Nat) (e : Int) : Nat × BitVec 5 :=
  let lead := e + Nat.log2 m
  let qu := lead - f.mbits
  let u := roundMag mode neg m e qu
  let mx := maxEnc f % 2 ^ f.mbits + 2 ^ f.mbits
  let mxE := qMin f + maxEnc f / 2 ^ f.mbits - 1
  if ltPow mx mxE u.1 qu then
    (signed f neg (if !saturates f sat && overflowToInf mode neg then infEnc f else maxEnc f), fOF ||| fNX)
  else
    let q := max qu (qMin f)
    let d := roundMag mode neg m e q
    let tiny := ltPow u.1 qu (2 ^ f.mbits) (qMin f)
    (signed f neg ((q - qMin f).toNat * 2 ^ f.mbits + d.1), flagIf (tiny && d.2) fUF ||| flagIf d.2 fNX)

/-- Deliver a value in a format (R44-R48). -/
def deliver (f : Fmt) (mode : RMode) (sat : Bool) : FV → Nat × BitVec 5
  | .nan _ => (nanEnc f, 0)
  | .inf n => if saturates f sat then (signed f n (maxEnc f), fOF ||| fNX) else (signed f n (infEnc f), 0)
  | .num n m e => if m = 0 then (signed f n 0, 0) else roundFin f mode sat n m e

/-! ## Exact arithmetic (R46, R58) -/

/-- NV for a signalling NaN among the operands. -/
def sigNV (xs : List FV) : BitVec 5 := flagIf (xs.any FV.isSig) fNV

/-- Exact product. -/
def fvMul (a b : FV) : FV × BitVec 5 :=
  let s := a.sign != b.sign
  if a.isNan || b.isNan then (.nan false, sigNV [a, b])
  else if (a.isInf && b.isZero) || (a.isZero && b.isInf) then (.nan false, fNV)
  else if a.isInf || b.isInf then (.inf s, 0)
  else
    match a, b with
    | .num _ m e, .num _ n d => (.num s (m * n) (e + d), 0)
    | _, _ => (.nan false, 0)

/-- A signed integer times 2^e as a value; `neg0` is the sign of a zero. -/
def fvOfInt (neg0 : Bool) (z : Int) (e : Int) : FV := if z = 0 then .num neg0 0 0 else .num (decide (z < 0)) z.natAbs e

def toSigned (neg : Bool) (m : Nat) : Int := if neg then -(m : Int) else m

/-- Exact sum; zero signs per R45 (a sum of zeros of different signs is taken as an exact zero; log 10). -/
def fvAdd (mode : RMode) (a b : FV) : FV × BitVec 5 :=
  if a.isNan || b.isNan then (.nan false, sigNV [a, b])
  else
    match a, b with
    | .inf s, .inf t => if s == t then (.inf s, 0) else (.nan false, fNV)
    | .inf s, _ => (.inf s, 0)
    | _, .inf t => (.inf t, 0)
    | .num s m e, .num t n d =>
      if m = 0 ∧ n = 0 then (.num (if s == t then s else mode == .rdn) 0 0, 0)
      else
        let q := min e d
        (fvOfInt (mode == .rdn) (toSigned s (m * 2 ^ (e - q).toNat) + toSigned t (n * 2 ^ (d - q).toNat)) q, 0)
    | _, _ => (.nan false, 0)

/-- Exact a * b + c. NV for 0 times infinity even when c is a quiet NaN: R141 says so of fma and fms; that a lane FMA (R46)
does the same is a DESIGN CHOICE (log 107). -/
def fvFma (mode : RMode) (a b c : FV) : FV × BitVec 5 :=
  let p := fvMul a b
  let r := fvAdd mode p.1 c
  (r.1, p.2 ||| r.2 ||| sigNV [a, b, c])

/-- The integer square root by bits: n more bits of r to find. -/
def isqrtGo (x : Nat) : Nat → Nat → Nat
  | 0, r => r
  | n + 1, r => let r' := r + 2 ^ n; isqrtGo x n (if r' * r' ≤ x then r' else r)

/-- The integer square root. -/
def isqrt (x : Nat) : Nat := isqrtGo x (Nat.log2 x / 2 + 1) 0

/-- A quotient with a low bit for a remainder: enough bits for every format. -/
def ratio (neg : Bool) (m : Nat) (e : Int) (n : Nat) (d : Int) : FV :=
  let sh := 140 + Nat.log2 n - Nat.log2 m
  let q := m * 2 ^ sh / n
  .num neg (2 * q + (if m * 2 ^ sh % n = 0 then 0 else 1)) (e - d - sh - 1)

/-- Quotient (R46, R59). -/
def fvDiv (a b : FV) : FV × BitVec 5 :=
  let s := a.sign != b.sign
  if a.isNan || b.isNan then (.nan false, sigNV [a, b])
  else
    match a, b with
    | .inf _, .inf _ => (.nan false, fNV)
    | .inf _, _ => (.inf s, 0)
    | _, .inf _ => (.num s 0 0, 0)
    | .num _ m e, .num _ n d =>
      if n = 0 then (if m = 0 then (.nan false, fNV) else (.inf s, fDZ))
      else if m = 0 then (.num s 0 0, 0)
      else (ratio s m e n d, 0)
    | _, _ => (.nan false, 0)

/-- Square root (R59). -/
def fvSqrt (a : FV) : FV × BitVec 5 :=
  match a with
  | .nan s => (.nan false, flagIf s fNV)
  | .inf n => if n then (.nan false, fNV) else (.inf false, 0)
  | .num n m e =>
    if m = 0 then (.num n 0 0, 0)
    else if n then (.nan false, fNV)
    else
      let sh := 280 + (e % 2).toNat
      let x := m * 2 ^ sh
      let r := isqrt x
      (.num false (2 * r + (if r * r = x then 0 else 1)) ((e - sh) / 2 - 1), 0)

/-- Reciprocal (R59). -/
def fvRcp (a : FV) : FV × BitVec 5 := fvDiv (.num false 1 0) a

/-- Reciprocal square root (R59). -/
def fvRsq (a : FV) : FV × BitVec 5 :=
  match a with
  | .nan s => (.nan false, flagIf s fNV)
  | .inf n => if n then (.nan false, fNV) else (.num false 0 0, 0)
  | .num n m e =>
    if m = 0 then (.inf n, fDZ)
    else if n then (.nan false, fNV)
    else
      -- 1 / sqrt (m' * 2^e') with e' even
      let m' := if e % 2 = 0 then m else 2 * m
      let e' := if e % 2 = 0 then e else e - 1
      let k := 160 + Nat.log2 m' / 2
      let q := isqrt (2 ^ (2 * k) / m')
      (.num false (2 * q + (if q * q * m' = 2 ^ (2 * k) then 0 else 1)) (-(e' / 2) - k - 1), 0)

/-- The fraction bits of the series for vexp2 and vlog2. -/
def seriesBits : Nat := 256

/-- ln 2 times 2^256, truncated. -/
def ln2Fixed : Nat := 0xB17217F7D1CF79ABC9E3B39803F2F6AF40F343267298B62D8A0D175B8BAAFA2B

/-- The terms of exp t from k on, in fixed point; n terms. -/
def expSeries (t : Nat) : Nat → Nat → Nat → Nat
  | 0, _, _ => 0
  | n + 1, k, term => term + expSeries t n (k + 1) (term * t / 2 ^ seriesBits / k)

/-- The terms of atanh z from z^k / k on, in fixed point; n terms. -/
def atanhSeries (z2 : Nat) : Nat → Nat → Nat → Nat
  | 0, _, _ => 0
  | n + 1, k, pw => pw / k + atanhSeries z2 n (k + 2) (pw * z2 / 2 ^ seriesBits)

/-- 2^x (R59). A result that is no power of two is irrational: its low bit says that more follows. -/
def fvExp2 (a : FV) : FV × BitVec 5 :=
  match a with
  | .nan s => (.nan false, flagIf s fNV)
  | .inf n => if n then (.num false 0 0, 0) else (.inf false, 0)
  | .num n m e =>
    if m = 0 then (.num false 1 0, 0)
    else if ltPow m e 1 15 then
      let x : Int := toSigned n (if 0 ≤ e + seriesBits then m * 2 ^ (e + seriesBits).toNat else m)
      let i := x / 2 ^ seriesBits
      let fr := (x % 2 ^ seriesBits).toNat
      if fr = 0 then (.num false 1 i, 0)
      else
        let y := expSeries (fr * ln2Fixed / 2 ^ seriesBits) 80 1 (2 ^ seriesBits)
        (.num false (2 * y + 1) (i - seriesBits - 1), 0)
    else (.num false 1 (toSigned n 32768), 0)

/-- log2 x (R59). -/
def fvLog2 (a : FV) : FV × BitVec 5 :=
  match a with
  | .nan s => (.nan false, flagIf s fNV)
  | .inf n => if n then (.nan false, fNV) else (.inf false, 0)
  | .num n m e =>
    if m = 0 then (.inf true, fDZ)
    else if n then (.nan false, fNV)
    else
      let p := Nat.log2 m
      let lead := e + p
      if m = 2 ^ p then (fvOfInt false lead 0, 0)
      else
        let z := (m - 2 ^ p) * 2 ^ seriesBits / (m + 2 ^ p)
        let l := 2 * atanhSeries (z * z / 2 ^ seriesBits) 100 1 z * 2 ^ seriesBits / ln2Fixed
        let v : Int := lead * 2 ^ seriesBits + l
        if 0 ≤ v then (.num false (2 * v.toNat + 1) (-(seriesBits : Int) - 1), 0)
        else (.num true (2 * (-v).toNat - 1) (-(seriesBits : Int) - 1), 0)

/-! ## Order (R50, R142, R192) -/

/-- Less than, zeros equal; no NaN. -/
def fvLt (a b : FV) : Bool :=
  match a, b with
  | .inf s, .inf t => s && !t
  | .inf s, _ => s
  | _, .inf t => !t
  | .num s m e, .num t n d =>
    match s, t with
    | false, false => ltPow m e n d
    | true, true => ltPow n d m e
    | true, false => m != 0 || n != 0
    | false, true => false
  | _, _ => false

/-- Equal, zeros equal; no NaN. -/
def fvEq (a b : FV) : Bool := !a.isNan && !b.isNan && !fvLt a b && !fvLt b a

/-- Less than in the order of R50, with -0 below +0. -/
def fvLess (a b : FV) : Bool := fvLt a b || (a.isZero && b.isZero && a.sign && !b.sign)

/-- R50: minimum or maximum of two encodings of a format. -/
def minMaxEnc (f : Fmt) (isMax : Bool) (x y : Nat) : Nat × BitVec 5 :=
  let a := unpack f x
  let b := unpack f y
  let fl := sigNV [a, b]
  if a.isNan && b.isNan then (nanEnc f, fl)
  else if a.isNan then (y, fl)
  else if b.isNan then (x, fl)
  else if fvLess a b then (if isMax then y else x, fl)
  else (if isMax then x else y, fl)

/-! ## Conversions (R49) -/

/-- Round a value to an integer within a range (R49). -/
def toIntIn (mode : RMode) (lo hi : Int) : FV → Int × BitVec 5
  | .nan _ => (0, fNV)
  | .inf n => (if n then lo else hi, fNV)
  | .num n m e =>
    if ltPow m e 1 70 then
      let r := roundMag mode n m e 0
      let z := toSigned n r.1
      if z < lo then (lo, fNV) else if hi < z then (hi, fNV) else (z, flagIf r.2 fNX)
    else (if n then lo else hi, fNV)

/-- The class word of R142. -/
def classWord (f : Fmt) (n : Nat) : BitVec 64 :=
  let neg := n / 2 ^ (f.bits - 1) % 2
  let kindExp : Nat × Int :=
    match unpack f n with
    | .nan s => (if s then 5 else 4, 0)
    | .inf _ => (3, 0)
    | .num _ m e =>
      if m = 0 then (0, 0)
      else (if m < 2 ^ f.mbits then 1 else 2, e + Nat.log2 m)
  BitVec.ofNat 64 (kindExp.1 + 8 * neg) ||| (BitVec.ofInt 16 kindExp.2).setWidth 64 <<< 16

/-! ## Four-bit blocks (R51-R54) -/

/-- The value of a code, as a number of eighths: TYPE 0 INT4, 1 E2M1, 2 POW2, 3 HYB (R53). -/
def codeMag (typ c : Nat) : Nat :=
  match typ with
  | 0 => 8 * (if c < 8 then c else 16 - c)
  | 1 => [0, 4, 8, 12, 16, 24, 32, 48].getD (c % 8) 0
  | 2 => [0, 1, 2, 4, 8, 16, 32, 64].getD (c % 8) 0
  | _ => [0, 8, 16, 24, 32, 48, 64, 96].getD (c % 8) 0

/-- The value of a code without its scale. INT4 has no negative zero. -/
def codeVal (typ c : Nat) : FV := .num (decide (8 ≤ c)) (codeMag typ c) (-3)

/-- TYPE and E of a scale byte (R52). -/
def scaleType (b : Nat) : Nat := b / 64
def scaleE (b : Nat) : Nat := b % 64

/-- The value of a q4 element (R53). -/
def q4Val (scale c : Nat) : FV :=
  if scaleE scale = 63 then .nan false
  else
    match codeVal (scaleType scale) c with
    | .num n m e => .num n m (e + scaleE scale - 32)
    | x => x

/-! ## Block sums (R56, R200) -/

/-- The running state of a block sum: exact signed sum times 2^e, special values seen. -/
structure DotAcc where
  nan : Bool
  pinf : Bool
  ninf : Bool
  allneg0 : Bool
  sum : Int
  e : Int
  flags : BitVec 5
deriving DecidableEq, Repr

def DotAcc.zero : DotAcc := ⟨false, false, false, true, 0, 0, 0⟩

/-- One product of the loop of R56. -/
def dotStep (c : DotAcc) (a b : FV) : DotAcc :=
  let p := fvMul a b
  match p.1 with
  | .nan _ => { c with nan := true, flags := c.flags ||| p.2 }
  | .inf n => if n then { c with ninf := true } else { c with pinf := true }
  | .num n m e =>
    let q := min c.e e
    { c with
      sum := c.sum * 2 ^ (c.e - q).toNat + toSigned n (m * 2 ^ (e - q).toNat)
      e := q
      allneg0 := c.allneg0 && (m == 0 && n) }

/-- The value v of R56: the exact sum times 2^sc. With a quiet NaN operand, infinite products of both signs raise no NV (DESIGN
CHOICE, log 107). -/
def dotValue (c : DotAcc) (sc : Int) : FV × BitVec 5 :=
  if c.nan then (.nan false, c.flags)
  else if c.pinf && c.ninf then (.nan false, c.flags ||| fNV)
  else if c.pinf then (.inf false, c.flags)
  else if c.ninf then (.inf true, c.flags)
  else (fvOfInt c.allneg0 c.sum (c.e + sc), c.flags)

/-- Add a block's value to an accumulator and deliver (R56, R200). -/
def dotAdd (f : Fmt) (mode : RMode) (c v : FV) (fl : BitVec 5) : Nat × BitVec 5 :=
  let r := fvAdd mode c v
  let d := deliver f mode false r.1
  (d.1, fl ||| r.2 ||| d.2)

/-! ## The fixed tree (R60) -/

/-- Combine neighbours: one level of the tree. An absent partner passes the other through. -/
def treeLevel (f : Fmt) (mode : RMode) (sat : Bool) : List (Option Nat) → List (Option Nat) × BitVec 5
  | some x :: some y :: t =>
    let s := fvAdd mode (unpack f x) (unpack f y)
    let d := deliver f mode sat s.1
    let r := treeLevel f mode sat t
    (some d.1 :: r.1, s.2 ||| d.2 ||| r.2)
  | some x :: none :: t => let r := treeLevel f mode sat t; (some x :: r.1, r.2)
  | none :: y :: t => let r := treeLevel f mode sat t; (y :: r.1, r.2)
  | [x] => ([x], 0)
  | [] => ([], 0)

/-- The tree over a list, `fuel` levels deep (R60). -/
def treeSum (f : Fmt) (mode : RMode) (sat : Bool) : Nat → List (Option Nat) → Option Nat × BitVec 5
  | 0, xs => (xs.head?.join, 0)
  | n + 1, xs =>
    match xs with
    | [] => (none, 0)
    | [x] => (x, 0)
    | xs =>
      let l := treeLevel f mode sat xs
      let r := treeSum f mode sat n l.1
      (r.1, l.2 ||| r.2)

/-- A floating sum in the order of R60; the identity is +0; a NaN is delivered canonical (R44), with NV for a signalling
operand (R46). -/
def floatSum (f : Fmt) (mode : RMode) (sat : Bool) (xs : List (Option Nat)) : Nat × BitVec 5 :=
  let r := treeSum f mode sat (Nat.log2 xs.length + 2) xs
  let v := r.1.getD 0
  (if (unpack f v).isNan then nanEnc f else v, r.2 ||| sigNV ((xs.filterMap id).map (unpack f)))

end Sys2Proof.Machine
end

