-- ==== Sys2Proof/Config.lean ====
section
/-! DEFINITION. Sys2Proof/Config.lean: the free values. None has a body: nothing can be proved of their values.
Each but the last two is applied to the counter `free` of the state, which every taking of a free value advances. -/

namespace Sys2Proof.Config

/-- A word the spec leaves open: rnd (R133), cycle (R17), keys (R334), undefined registers (log 2). -/
opaque freeWord : Nat → BitVec 64

/-- A byte the spec leaves open: undefined memory, SRAM or pane bytes (R77, R221, R229, R292, R363; log 5). -/
opaque freeByte : Nat → Nat → BitVec 8

/-- A choice the spec leaves open (log 2). -/
opaque freeBool : Nat → Bool

/-- A choice that the spec leaves open, for an address (log 26). -/
opaque freeMark : Nat → Nat → Bool

/-- A byte of the transaction header that a CP or CO packet begins with: the packet's operation and SEQ, its destination, how many data bytes follow,
which byte. The layout belongs to the engines (R386; log 59). -/
opaque packetHeader : BitVec 32 → BitVec 16 → BitVec 64 → Nat → Nat → BitVec 8

/-- What an accepted packet asks the engine it is handed to: the writes (physical address, first data byte, count) of its data bytes. The
layout of the header belongs to the engines (R386; log 59). -/
opaque packetWrites : List (BitVec 1920) → List (Nat × Nat × Nat)

end Sys2Proof.Config
end

