-- ==== Sys2Proof/Syntax.lean ====
section
/-! DEFINITION. Sys2Proof/Syntax.lean: the instructions and the steps of the part as data, one constructor of `Instr`
per row of the spec's table of operations and events. Operand fields keep the widths of the encodings (R93).
Rows 270-389 of the table are steps of the part that no head encodes (R95 gives them no form); their arguments
name the unit they happen to and the data that comes from outside the part. -/

namespace Sys2Proof

/-- The fields of form V (R93): OPs 0x48, 0x49, 0x4A, 0x4C and 0x4D. `s` is S or imm5. -/
structure VOps where
  g : BitVec 2
  wd : BitVec 4
  wa : BitVec 4
  wb : BitVec 4
  t : BitVec 4
  m : BitVec 3
  n : Bool
  s : BitVec 5
  rm : BitVec 2
  sat : Bool
  sv : BitVec 2
deriving DecidableEq, Repr

/-- The fields of form VX (R93, R197): vidx. -/
structure VxOps where
  g : BitVec 2
  wd : BitVec 4
  start : BitVec 24
  step : BitVec 16
  t : BitVec 4
  m : BitVec 3
deriving DecidableEq, Repr

/-- The fields of form M (R93, R209): OP 0x50. `w` is Wd or Ws. -/
structure MOps where
  g : BitVec 2
  w : BitVec 4
  a : BitVec 3
  s : BitVec 5
  t : BitVec 4
  m : BitVec 3
  n : Bool
  wi : BitVec 4
deriving DecidableEq, Repr

/-- The fields of form E (R93, R224): OPs 0x58, 0x59 and 0x5E. -/
structure EOps where
  padj : BitVec 2
  kd : BitVec 4
  da : BitVec 3
  sa : BitVec 3
  c : BitVec 5
  af : Bool
  ka : BitVec 4
  dt : Bool
  opts : BitVec 22
deriving DecidableEq, Repr

/-- The operands of smine (R146): destination, count register, number of pointers, format, group, pointer slots. -/
structure SmineOps where
  d : BitVec 5
  c : BitVec 5
  n : BitVec 3
  t : BitVec 4
  g : BitVec 2
  p0 : BitVec 3
  p1 : BitVec 3
  p2 : BitVec 3
  p3 : BitVec 3
deriving DecidableEq, Repr

/-- A flit as it reaches the receiver (R384, R385): its 256 bytes, byte 0 lowest; the group of strands on which it was sent, its width and first
strand; the strands that carried noise while it passed. -/
structure Flit where
  bytes : BitVec 2048
  w : Nat
  b : Nat
  noise : BitVec 16
deriving DecidableEq, Repr

/-- What a remote member of a collective group sends for one granule (R235, R236): its rank, whether it agrees on
tag, kind, operator, format and count, whether it is failed or paused, and the encodings of its elements. -/
structure RemoteMember where
  rank : Nat
  agrees : Bool
  failed : Bool
  elems : List Nat
deriving DecidableEq, Repr

/-- The operating system image of boot step 4 (R376): load address, entry address and bytes. -/
structure OsImage where
  base : Nat
  entry : BitVec 64
  bytes : List (BitVec 8)
deriving DecidableEq, Repr

/-- The instructions (rows 0-269 of the table) and the steps of the part (rows 270-389). -/
inductive Instr where
  | nop  -- R121
  | brk  -- R122
  | ifence  -- R121
  | tend  -- R123
  | tyield  -- R121
  | rel  -- R121
  | echo  -- R121
  | claim  -- R124
  | eret  -- R125
  | trap (n : BitVec 6)  -- R122
  | sjoin (id : BitVec 6)  -- R30
  | j (imm : BitVec 32)  -- R127
  | jl (d : BitVec 5) (imm : BitVec 32)  -- R127
  | jr (a : BitVec 5)  -- R128
  | jlr (d a : BitVec 5)  -- R128
  | bEq (a b : BitVec 5) (off : BitVec 22)  -- R129
  | bNe (a b : BitVec 5) (off : BitVec 22)  -- R129
  | bLt (a b : BitVec 5) (off : BitVec 22)  -- R129
  | bGe (a b : BitVec 5) (off : BitVec 22)  -- R129
  | bLtu (a b : BitVec 5) (off : BitVec 22)  -- R129
  | bGeu (a b : BitVec 5) (off : BitVec 22)  -- R129
  | bany (c : BitVec 3) (a b : BitVec 5) (off : BitVec 22)  -- R130
  | ball (c : BitVec 3) (a b : BitVec 5) (off : BitVec 22)  -- R130
  | split (id c : BitVec 3) (a b : BitVec 5) (off : BitVec 22)  -- R28
  | getc (d : BitVec 5) (idx : BitVec 10)  -- R132
  | setc (d : BitVec 5) (idx : BitVec 10)  -- R132
  | rnd (d : BitVec 5)  -- R133
  | add (d a b : BitVec 5)  -- R134
  | sub (d a b : BitVec 5)  -- R134
  | mul (d a b : BitVec 5)  -- R134
  | mulh (d a b : BitVec 5)  -- R134
  | mulhu (d a b : BitVec 5)  -- R134
  | div (d a b : BitVec 5)  -- R135
  | divu (d a b : BitVec 5)  -- R135
  | rem (d a b : BitVec 5)  -- R135
  | remu (d a b : BitVec 5)  -- R135
  | and (d a b : BitVec 5)  -- R134
  | or (d a b : BitVec 5)  -- R134
  | xor (d a b : BitVec 5)  -- R134
  | andn (d a b : BitVec 5)  -- R134
  | sll (d a b : BitVec 5)  -- R134
  | srl (d a b : BitVec 5)  -- R134
  | sra (d a b : BitVec 5)  -- R134
  | rol (d a b : BitVec 5)  -- R134
  | ror (d a b : BitVec 5)  -- R134
  | slt (d a b : BitVec 5)  -- R134
  | sltu (d a b : BitVec 5)  -- R134
  | min (d a b : BitVec 5)  -- R134
  | max (d a b : BitVec 5)  -- R134
  | minu (d a b : BitVec 5)  -- R134
  | maxu (d a b : BitVec 5)  -- R134
  | fsl (d a b : BitVec 5)  -- R136
  | fsr (d a b : BitVec 5)  -- R136
  | csel (d a b : BitVec 5)  -- R136
  | clz (d a : BitVec 5)  -- R137
  | ctz (d a : BitVec 5)  -- R137
  | popc (d a : BitVec 5)  -- R137
  | sextB (d a : BitVec 5)  -- R137
  | sextH (d a : BitVec 5)  -- R137
  | sextW (d a : BitVec 5)  -- R137
  | zextB (d a : BitVec 5)  -- R137
  | zextH (d a : BitVec 5)  -- R137
  | zextW (d a : BitVec 5)  -- R137
  | bswap (d a : BitVec 5)  -- R137
  | addi (d a : BitVec 5) (imm : BitVec 22)  -- R138
  | andi (d a : BitVec 5) (imm : BitVec 22)  -- R138
  | ori (d a : BitVec 5) (imm : BitVec 22)  -- R138
  | xori (d a : BitVec 5) (imm : BitVec 22)  -- R138
  | slli (d a : BitVec 5) (imm : BitVec 22)  -- R138
  | srli (d a : BitVec 5) (imm : BitVec 22)  -- R138
  | srai (d a : BitVec 5) (imm : BitVec 22)  -- R138
  | slti (d a : BitVec 5) (imm : BitVec 22)  -- R138
  | sltiu (d a : BitVec 5) (imm : BitVec 22)  -- R138
  | li (d : BitVec 5) (imm : BitVec 32)  -- R139
  | lih (d : BitVec 5) (imm : BitVec 32)  -- R139
  | ldB (d a : BitVec 5) (imm : BitVec 22)  -- R152
  | ldBu (d a : BitVec 5) (imm : BitVec 22)  -- R152
  | ldH (d a : BitVec 5) (imm : BitVec 22)  -- R152
  | ldHu (d a : BitVec 5) (imm : BitVec 22)  -- R152
  | ldW (d a : BitVec 5) (imm : BitVec 22)  -- R152
  | ldWu (d a : BitVec 5) (imm : BitVec 22)  -- R152
  | ldD (d a : BitVec 5) (imm : BitVec 22)  -- R152
  | ldAcqW (d a : BitVec 5) (imm : BitVec 22)  -- R153
  | ldAcqD (d a : BitVec 5) (imm : BitVec 22)  -- R153
  | stB (d a : BitVec 5) (imm : BitVec 22)  -- R152
  | stH (d a : BitVec 5) (imm : BitVec 22)  -- R152
  | stW (d a : BitVec 5) (imm : BitVec 22)  -- R152
  | stD (d a : BitVec 5) (imm : BitVec 22)  -- R152
  | stRelW (d a : BitVec 5) (imm : BitVec 22)  -- R153
  | stRelD (d a : BitVec 5) (imm : BitVec 22)  -- R153
  | amoAdd (d a b : BitVec 5)  -- R155
  | amoAnd (d a b : BitVec 5)  -- R155
  | amoOr (d a b : BitVec 5)  -- R155
  | amoXor (d a b : BitVec 5)  -- R155
  | amoMin (d a b : BitVec 5)  -- R155
  | amoMax (d a b : BitVec 5)  -- R155
  | amoMinu (d a b : BitVec 5)  -- R155
  | amoMaxu (d a b : BitVec 5)  -- R155
  | amoSwap (d a b : BitVec 5)  -- R155
  | amoFadd (d a b : BitVec 5)  -- R155
  | amoCas (d a b : BitVec 5)  -- R155
  | push (a b : BitVec 5)  -- R154
  | pop (a b : BitVec 5)  -- R154
  | faddF32 (d a b : BitVec 5)  -- R141
  | fsubF32 (d a b : BitVec 5)  -- R141
  | fmulF32 (d a b : BitVec 5)  -- R141
  | fdivF32 (d a b : BitVec 5)  -- R141
  | fsqrtF32 (d a : BitVec 5)  -- R141
  | fminF32 (d a b : BitVec 5)  -- R141
  | fmaxF32 (d a b : BitVec 5)  -- R141
  | feqF32 (d a b : BitVec 5)  -- R142
  | fltF32 (d a b : BitVec 5)  -- R142
  | fleF32 (d a b : BitVec 5)  -- R142
  | fclassF32 (d a : BitVec 5)  -- R142
  | fnegF32 (d a : BitVec 5)  -- R141
  | fabsF32 (d a : BitVec 5)  -- R141
  | fmaF32 (d a b : BitVec 5)  -- R141
  | fmsF32 (d a b : BitVec 5)  -- R141
  | faddF64 (d a b : BitVec 5)  -- R141
  | fsubF64 (d a b : BitVec 5)  -- R141
  | fmulF64 (d a b : BitVec 5)  -- R141
  | fdivF64 (d a b : BitVec 5)  -- R141
  | fsqrtF64 (d a : BitVec 5)  -- R141
  | fminF64 (d a b : BitVec 5)  -- R141
  | fmaxF64 (d a b : BitVec 5)  -- R141
  | feqF64 (d a b : BitVec 5)  -- R142
  | fltF64 (d a b : BitVec 5)  -- R142
  | fleF64 (d a b : BitVec 5)  -- R142
  | fclassF64 (d a : BitVec 5)  -- R142
  | fnegF64 (d a : BitVec 5)  -- R141
  | fabsF64 (d a : BitVec 5)  -- R141
  | fmaF64 (d a b : BitVec 5)  -- R141
  | fmsF64 (d a b : BitVec 5)  -- R141
  | fcvtF32I64 (d a : BitVec 5)  -- R143
  | fcvtF32N64 (d a : BitVec 5)  -- R143
  | fcvtI64F32 (d a : BitVec 5)  -- R143
  | fcvtN64F32 (d a : BitVec 5)  -- R143
  | fcvtF64I64 (d a : BitVec 5)  -- R143
  | fcvtF64N64 (d a : BitVec 5)  -- R143
  | fcvtI64F64 (d a : BitVec 5)  -- R143
  | fcvtN64F64 (d a : BitVec 5)  -- R143
  | fcvtF64F32 (d a : BitVec 5)  -- R143
  | fcvtF32F64 (d a : BitVec 5)  -- R143
  | fcvtBf16F32 (d a : BitVec 5)  -- R143
  | fcvtF32Bf16 (d a : BitVec 5)  -- R143
  | amov (d a : BitVec 3)  -- R144
  | aset (d : BitVec 3) (a z : BitVec 5)  -- R144
  | aadd (d a : BitVec 3) (b : BitVec 5)  -- R144
  | amovs (d : BitVec 5) (a : BitVec 3)  -- R144
  | aaddi (d a : BitVec 3) (imm : BitVec 22)  -- R145
  | smine (o : SmineOps)  -- R147
  | act (n : BitVec 4) (a : BitVec 3)  -- R169
  | actz (n : BitVec 4)  -- R170
  | wb (n : BitVec 4)  -- R171
  | wbto (n : BitVec 4) (a : BitVec 3)  -- R169
  | pre (n : BitVec 4)  -- R172
  | rcopy (n : BitVec 4) (a : BitVec 3) (src : BitVec 5)  -- R173
  | rfsh (n : BitVec 4)  -- R174
  | shut (n k : BitVec 4)  -- R175
  | reopen (n k : BitVec 4)  -- R175
  | pstat (d : BitVec 5) (n : BitVec 4)  -- R176
  | rshufRot (wd : BitVec 4) (ws : BitVec 3) (k : BitVec 5)  -- R180
  | rshufXor (wd : BitVec 4) (ws : BitVec 3) (k : BitVec 5)  -- R180
  | rshufRev (wd : BitVec 4) (ws : BitVec 3)  -- R180
  | rshufBcast (wd : BitVec 4) (ws : BitVec 3) (k : BitVec 5)  -- R180
  | vadd (o : VOps)  -- R190
  | vsub (o : VOps)  -- R190
  | vmul (o : VOps)  -- R190
  | vfma (o : VOps)  -- R190
  | vfms (o : VOps)  -- R190
  | vfnma (o : VOps)  -- R190
  | vmin (o : VOps)  -- R190
  | vmax (o : VOps)  -- R190
  | vabs (o : VOps)  -- R190
  | vneg (o : VOps)  -- R190
  | vdiv (o : VOps)  -- R190
  | vsqrt (o : VOps)  -- R190
  | vrcp (o : VOps)  -- R59
  | vrsq (o : VOps)  -- R59
  | vexp2 (o : VOps)  -- R59
  | vlog2 (o : VOps)  -- R59
  | vmulh (o : VOps)  -- R191
  | vadds (o : VOps)  -- R191
  | vsubs (o : VOps)  -- R191
  | vand (o : VOps)  -- R191
  | vor (o : VOps)  -- R191
  | vxor (o : VOps)  -- R191
  | vnot (o : VOps)  -- R191
  | vandn (o : VOps)  -- R191
  | vsll (o : VOps)  -- R191
  | vsrl (o : VOps)  -- R191
  | vsra (o : VOps)  -- R191
  | vfsl (o : VOps)  -- R191
  | vfsr (o : VOps)  -- R191
  | vclz (o : VOps)  -- R191
  | vpopc (o : VOps)  -- R191
  | vcmpEq (o : VOps)  -- R192
  | vcmpNe (o : VOps)  -- R192
  | vcmpLt (o : VOps)  -- R192
  | vcmpLe (o : VOps)  -- R192
  | vcmpGt (o : VOps)  -- R192
  | vcmpGe (o : VOps)  -- R192
  | mand (o : VOps)  -- R193
  | mor (o : VOps)  -- R193
  | mxor (o : VOps)  -- R193
  | mnot (o : VOps)  -- R193
  | mpopc (o : VOps)  -- R193
  | mfirst (o : VOps)  -- R193
  | vsel (o : VOps)  -- R194
  | vmov (o : VOps)  -- R194
  | vbcast (o : VOps)  -- R194
  | vslideUp (o : VOps)  -- R195
  | vslideDn (o : VOps)  -- R195
  | vcompress (o : VOps)  -- R196
  | vidx (o : VxOps)  -- R197
  | vcvt (o : VOps)  -- R198
  | vwfma (o : VOps)  -- R199
  | vdot (o : VOps)  -- R200
  | vqenc (o : VOps)  -- R202
  | vqdec (o : VOps)  -- R203
  | vredSum (o : VOps)  -- R204
  | vredMax (o : VOps)  -- R204
  | vredMin (o : VOps)  -- R204
  | vredAnd (o : VOps)  -- R204
  | vredOr (o : VOps)  -- R204
  | vgmax (o : VOps)  -- R205
  | vscan (o : VOps)  -- R206
  | vld (o : MOps)  -- R215
  | vlds (o : MOps)  -- R215
  | vldx (o : MOps)  -- R215
  | vst (o : MOps)  -- R215
  | vsts (o : MOps)  -- R215
  | vstx (o : MOps)  -- R215
  | vstb (o : MOps)  -- R216
  | vldl (o : MOps)  -- R217
  | vstc (o : MOps)  -- R218
  | vspill (o : MOps)  -- R221
  | vfill (o : MOps)  -- R221
  | vlq (o : MOps)  -- R220
  | cpy (o : EOps)  -- R229
  | cpy2d (o : EOps)  -- R229
  | rsct (o : EOps)  -- R230
  | coll (o : EOps)  -- R235
  | red (o : EOps)  -- R234
  | gath (o : EOps)  -- R231
  | nmo (o : EOps)  -- R232
  | mmma (o : EOps)  -- R239
  | mdrain (o : EOps)  -- R241
  | mattach (d a : BitVec 5)  -- R237
  | mdetach  -- R237
  | mshape (a : BitVec 5)  -- R238
  | mzero (d : BitVec 5)  -- R237
  | kwait (k path : BitVec 4) (scope : BitVec 5)  -- R243
  | kwaitNt (d : BitVec 5) (k : BitVec 4) (scope : BitVec 5)  -- R243
  | kpoll (d : BitVec 5) (k : BitVec 4)  -- R244
  | kcancel (k : BitVec 4)  -- R245
  | kdetach (d : BitVec 5) (k : BitVec 4)  -- R246
  | kadopt (k : BitVec 4) (a : BitVec 5)  -- R246
  | kprio (k : BitVec 4) (a : BitVec 5)  -- R247
  | kinfo (d : BitVec 5) (k : BitVec 4) (w : BitVec 5)  -- R247
  | fence (scope : BitVec 5)  -- R159
  | xfence (p1 p2 : BitVec 4) (scope : BitVec 5)  -- R159
  | fbar (bid : BitVec 4) (scope : BitVec 5)  -- R160
  | bwait (bid : BitVec 4)  -- R161
  | ipost (id : BitVec 4) (a : BitVec 5)  -- R162
  | iwait (id : BitVec 4) (a : BitVec 5)  -- R162
  | await (v a : BitVec 5)  -- R163
  | tspawn (o : EOps)  -- R248
  | launch (o : EOps)  -- R248
  | tlbinv (a b : BitVec 5)  -- R249
  -- steps of the part
  | issueAfterInterlock (core bank : Nat)  -- R70
  | openingEnd (core bank sg : Nat)  -- R67
  | writingEnd (core bank sg : Nat)  -- R67
  | closingEnd (core bank sg : Nat)  -- R67
  | claimEviction (core bank sg : Nat)  -- R73
  | refreshTick (core bank sg : Nat)  -- R79
  | refreshDeadlineTrap (core bank stop : Nat)  -- R81
  | forcedRefresh (core bank sg : Nat)  -- R82
  | tempSensorUpdate (core bank : Nat) (hot : Bool)  -- R79
  | bondRepair (core : Nat)  -- R352
  | translationWalkEnd (core bank : Nat) (va : BitVec 64)  -- R289
  | kwaitEnd (core bank : Nat)  -- R243
  | awaitRecheck (core bank : Nat)  -- R163
  | bwaitEnd (core bank : Nat)  -- R161
  | fbarArrive (core bank : Nat)  -- R160
  | iwaitEnd (core bank : Nat)  -- R162
  | tendWaitEnd (core bank : Nat)  -- R123
  | mdetachWaitEnd (core bank : Nat)  -- R237
  | mzeroWaitEnd (core bank : Nat)  -- R237
  | xfenceWaitEnd (core bank : Nat)  -- R159
  | fifoWaitEnd (core bank : Nat)  -- R293
  | opStart (op : Nat)  -- R318
  | copyGranule (op : Nat)  -- R229
  | rsctTrain (op : Nat)  -- R230
  | collGranule (op : Nat) (remote : List RemoteMember)  -- R235
  | redGranule (op : Nat)  -- R363
  | gathGranule (op : Nat)  -- R231
  | nmoGranule (op : Nat)  -- R232
  | mmmaKstep (op : Nat)  -- R240
  | mdrainGranule (op : Nat)  -- R241
  | enginePriorityAging (op : Nat)  -- R319
  | launchStart (op : Nat)  -- R262
  | tspawnStart (op : Nat)  -- R263
  | taskReady (launch task : Nat)  -- R268
  | dispatchOffer (core : Nat)  -- R272
  | preemptionTake (core bank stop : Nat)  -- R346
  | preemptHandlerTimeout (core bank : Nat)  -- R346
  | seatSave (core bank : Nat)  -- R325
  | schedulerStateError (launch task : Nat) (counter : Bool)  -- R281
  | vote (launch task : Nat)  -- R337
  | voteTimeout (launch task : Nat)  -- R336
  | sramModeWrite (quad bank : Nat) (mode : BitVec 2)  -- R292
  | sramFifoClr (quad bank : Nat)  -- R291
  | sramModeChangeEnd (quad bank : Nat)  -- R292
  | migreqPromote (sill : Nat) (pte : BitVec 64)  -- R296
  | migreqDemote (sill : Nat) (pte : BitVec 64)  -- R296
  | migrationStart (sill : Nat)  -- R296
  | migrationFinish (sill : Nat)  -- R296
  | migrationAutoSelect (sill : Nat) (demote : Bool) (pte frame : BitVec 64)  -- R295
  | flitTransmit (link : Nat)  -- R385
  | flitReceive (link : Nat) (flit : Flit)  -- R387
  | ackTimeout (link : Nat)  -- R388
  | strandDeath (link strand : Nat)  -- R390
  | linkTimeout (link : Nat)  -- R391
  | peerTimeout (op : Nat)  -- R391
  | linkTrainingEnd (link : Nat) (answered : Bool) (txDead rxDead : BitVec 16)  -- R428
  | lnkctlEnSet (link : Nat)  -- R428
  | lnkctlEnClear (link : Nat)  -- R394
  | lnkctlRetrain (link : Nat)  -- R390
  | lnkctlParkWrite (link : Nat) (park : BitVec 8)  -- R414
  | wavelengthWakeEnd (link : Nat)  -- R390
  | peerFailedClear (n : Nat)  -- R395
  | lqQuiet (link : Nat)  -- R413
  | lqcfgWrite (link : Nat) (v : BitVec 64)  -- R413
  | lattolWrite (v : BitVec 64)  -- R404
  | coreIdleEntry (core : Nat)  -- R402
  | coreDozeEntry (core : Nat)  -- R402
  | stackNapEntry (stack : Nat)  -- R402
  | powerWake (core : Nat)  -- R405
  | powerExitEnd (core : Nat)  -- R405
  | pwrcmdShutter  -- R408
  | pwrcmdResume  -- R410
  | pwrcmdResumeDiscard  -- R411
  | platformPowerEvent  -- R408
  | supplyDip  -- R425
  | supplyFail  -- R425
  | shutterPhase1  -- R409
  | shutterPhase2  -- R409
  | shutterPhase3  -- R409
  | shutterGranuleTimeout (op : Nat)  -- R409
  | shutterPhase4  -- R409
  | shutterLinkTimeout (link : Nat)  -- R409
  | shutterPhase5  -- R409
  | resumptionEnd  -- R410
  | autoResume  -- R425
  | dutyUpdate (temps powers : List (Nat × Nat)) (watts : Nat)  -- R424
  | powerFloorTimeout  -- R424
  | pcapWrite (v : BitVec 64) (mgmt : Bool)  -- R423
  | thrFloorWrite (v : BitVec 64)  -- R423
  | mgmtTelemetry  -- R417
  | telemetrySnapshot  -- R417
  | mgmtLogExport  -- R417
  | mgmtFirmware (image : BitVec 64) (signed : Bool)  -- R417
  | mgmtPowerCap (limit : BitVec 16) (lock : Bool)  -- R417
  | mgmtShutter (op : BitVec 2)  -- R417
  | mgmtOff  -- R411
  | mgmtQuarantine (core : Nat) (on : Bool)  -- R421
  | mgmtMemoryRead (pa n : Nat)  -- R417
  | elpostAppend (v : BitVec 64)  -- R419
  | quarWrite (word : Nat) (v : BitVec 64)  -- R421
  | powerOnReset  -- R376
  | bootFirmwareLoad (fromFlash ok : Bool)  -- R376
  | bootSillInit (fuses : List (Nat × BitVec 64)) (ok : Bool)  -- R376
  | bootOsLoad (image : Option OsImage)  -- R376
  | bootStep5Timeout  -- R376
  | ccstart (mask : BitVec 16)  -- R379
  | ccbootDone  -- R379
  | ccbarCountWrite (n : Nat) (count : BitVec 16)  -- R379
  | ccTimer (cc : Nat)  -- R371
  | lcmdPause (launch : Nat)  -- R380
  | lcmdResume (launch : Nat)  -- R380
  | lcmdCancel (launch : Nat)  -- R282
  | lcmdExport (launch task : Nat)  -- R380
  | lcmdRetarget (launch task : Nat)  -- R380
  | lcmdComplete  -- R380
  | ctxPoolWrite (off : Nat) (v : BitVec 64)  -- R276
  | registerWrite (pa : Nat) (v : BitVec 64)  -- R10
  | supplySteady  -- R425
  | wavelengthDark (link : Nat)  -- R414
  | seatFormingEnd (core bank : Nat)  -- R270
deriving DecidableEq, Repr

end Sys2Proof
end

