-- ==== Sys2Proof/Machine/State.lean ====
section
/-! DEFINITION. Sys2Proof/Machine/State.lean: the state of the Azirax as plain data, the reasons a step can stop, and the
state at power-on (R376). Indexed things are sorted tables with a default (Sys2Proof/Word.lean); an unlisted
key holds the default, so the state after reset is short. -/

namespace Sys2Proof.Machine

/-- Why the machine has no next state. -/
inductive Fault where
  /-- Raised by `step` when the supply has failed or the OFF command was taken (R402, R411, R425): no state is left
  to step. Safe: the model stops where the hardware holds nothing. -/
  | off
deriving DecidableEq, Repr

/-- Why the model gives an instruction no meaning. -/
inductive Refusal where
  /-- Raised by `exec` for an instruction that has no meaning yet. Safe: the model says nothing about it. -/
  | notModelled (mnemonic : String)
deriving DecidableEq, Repr

/-! ## Panes, slots and banks -/

/-- The pane states of R65, in the order of their codes. -/
inductive PaneState where
  | closed | opening | openClean | openDirty | writing | closing
deriving DecidableEq, Repr

/-- What a shutter slot or a pane holds (R66, R76, R168, R175): the bytes that are not zero, the poisoned granules
each with its half-bytes written since (R350), dirty or clean, the binding: the row number, the physical row, the
virtual address and the write permission recorded at act or wbto. -/
structure PaneImage where
  data : Table Byte
  poison : Table (Option (BitVec 128))
  dirty : Bool
  bnd : Bool
  row : BitVec 8
  pa : Nat
  va : Word
  wperm : Bool
deriving DecidableEq, Repr

def PaneImage.empty : PaneImage := ⟨[], [], false, false, 0, 0, 0, false⟩

/-- One pane and its subarray group (R65-R67). `after` is the state a transition ends in; `pins` counts the RUNNING mmma operations that hold it;
with `park` the content sits in slot 5 and the sg is closed; `busy`: a refresh step or an rcopy holds the sg of a parked pane (R174); `next` is the
image that the pane shows when its transition ends, if it changes; `back`: the shutter sequence parked it, so that resumption reopens it (R409,
R410). -/
structure Pane where
  st : PaneState
  after : PaneState
  img : PaneImage
  pins : Nat
  park : Bool
  busy : Bool
  back : Bool
  next : Option PaneImage
deriving DecidableEq, Repr

def Pane.empty : Pane := ⟨.closed, .closed, PaneImage.empty, 0, false, false, false, none⟩

/-- The owner of one of slots 0-4 (R78). -/
inductive Owner where
  | free
  | user (launch task : Nat)
  | saved (launch task : Nat)
deriving DecidableEq, Repr

/-- A shutter slot (R76-R78): its owner and the image last written, none before the first. -/
structure Slot where
  owner : Owner
  img : Option PaneImage
deriving DecidableEq, Repr

def Slot.empty : Slot := ⟨.free, none⟩

/-- A valid link-table entry (R217): the bank it belongs to, the local element, virtual and physical address, size. -/
structure LinkEntry where
  core : Nat
  bank : Nat
  j : Nat
  va : Nat
  pa : Nat
  size : Nat
deriving DecidableEq, Repr

/-- A 64-byte granule of memory as an agent's path took it ahead of its accesses (R303-R305; log 7): the core and BASE of the agent, the code of the
path (R109), the granule's number, its bytes as a number. -/
structure Ahead where
  core : Nat
  base : Nat
  path : BitVec 4
  gran : Nat
  bytes : Nat
deriving DecidableEq, Repr

/-- One bank's share of the trap save area (R124): masks, tokens, the panes claim shut to slot 7, and 16 + N for each it found
parked. -/
structure ClaimSave where
  m : Table (BitVec 4096)
  k : Table (Option (BitVec 32))
  panes : List Nat
deriving DecidableEq, Repr

/-- One bank: the registers of its thread (R13, R17), its panes, slots and refresh debts. `slots` is keyed sg*8+slot. -/
structure Bank where
  s : Table Word
  a : Table Word
  m : Table (BitVec 4096)
  k : Table (Option (BitVec 32))
  flags : BitVec 5
  hsp : Word
  ss0 : Word
  ss1 : Word
  panes : Table Pane
  slots : Table Slot
  debt : Table Nat
  hot : Bool
  forced : Nat
  claim : Option ClaimSave
deriving DecidableEq, Repr

def Bank.empty : Bank := ⟨[], [], [], [], 0, 0, 0, 0, [], [], [], false, 0, none⟩

/-! ## Parts and seats -/

/-- What a part waits for (R270, R347): a pane's transition or pin, a claimed sg, a moving page, a FIFO or SRAM mode
change, the other part of a split, an operation, a barrier, the iteration ring, an event word, tend's
operations, matrix operations, ordered accesses, a vote, the leader's value, a device command queue, an engine's
resources at a rollback, the end of the power sequence, a core that leaves a power state. -/
inductive Wait where
  | pane (core bank sg : Nat)
  | pin (core bank sg : Nat)
  | claim (core bank sg : Nat)
  | moving (pa : Nat)
  | fifo (quad bank : Nat)
  | sram (quad bank : Nat)
  | sjoin (id : BitVec 6)
  | op (entry : Nat)
  | bwait (bid phase : Nat)
  | fbar (bid phase : Nat)
  | iwait (id : Nat)
  | await
  | tend (entry : Nat)
  | mx (entry : Nat)
  | fence
  | vote
  | echo
  | device
  | power
  | wake (core : Nat)
deriving DecidableEq, Repr

/-- An open split level (R28-R30): its join id and the banks of the part that split. -/
structure Split where
  id : BitVec 6
  banks : BitVec 16
deriving DecidableEq, Repr

/-- The convoy in progress (R97-R103): its first head, the element instructions whose phase has not ended, the single instructions still to perform,
each with its address, the address after the convoy, the values read at its start (R36, R241), whether its first head has CB = 1 (else it is the
remainder of R104), whether echo marks its load (R121), the scalar results to be written at its end (bank, register, value; R101), the vl that takes
effect with the next convoy when a load ended its element phase (R214), the boundary at which its element phase has ended (R102). -/
structure Convoy where
  first : Word
  elems : List (Word × Instr)
  todo : List (Word × Instr)
  next : Word
  vl : Nat
  xidx : Nat
  rm : BitVec 3
  mask0 : Table (BitVec 4096)
  whole : Bool
  echo : Bool
  late : List (Nat × Nat × Word)
  cut : Option Nat
  done : Nat
deriving DecidableEq, Repr

/-- Where a row command that has begun in some bank leads in another (R63, R166): the row and its write permission, and the source of an rcopy. -/
structure RowPlan where
  bank : Nat
  pa : Nat
  wperm : Bool
  src : Nat
deriving DecidableEq, Repr

/-- What a trap leaves of the instruction that it stops (R156, R276, R347, R350): its address, the banks in which a single instruction has
performed, the sjoin at which it waits, what a vector store has written. -/
structure Kept where
  pc : Word
  begun : BitVec 16
  join : Option (BitVec 6)
  stored : List (Nat × Nat)
deriving DecidableEq, Repr

/-- One part of a sash (R28-R32). `entry`: pc must be checked as a task entry or handler address (R89). `got`: the values of the banks an await has
satisfied (R163). `begun`: the banks in which the single instruction at work has already performed or begun (R150, R166), `plan`: where the row
command among them leads (it says nothing while none has begun), `kept`: what the handler which runs has stopped. `picked`: the elements that
vcompress or vqenc has selected (R196, R202). `loaded`: the load of the element phase at work has processed an element in this execution (R214);
`stored`: the half-bytes of memory that its store has written (R350), each a first one and a count; `recs`: the records of the vstc elements that
have performed (R335). -/
structure Part where
  pc : Word
  vl : Nat
  xidx : Nat
  rm : BitVec 3
  active : BitVec 16
  splits : List Split
  wait : Option Wait
  convoy : Option Convoy
  claim : Option (Nat × Nat × BitVec 3)
  entry : Bool
  got : Table (Option Word)
  begun : BitVec 16
  plan : List RowPlan
  kept : Option Kept
  picked : List Nat
  loaded : Bool
  stored : List (Nat × Nat)
  recs : List (List Word)
deriving DecidableEq, Repr

def Part.empty : Part := ⟨0, 0, 0, 0, 0, [], none, none, none, false, [], 0, [], none, [], false, [], []⟩

/-- The status register (R23). -/
structure Status where
  lvl : Bool
  plvl : Bool
  clm : Bool
  hold : Bool
  cls : BitVec 3
  red : Bool
  rid : BitVec 2
deriving DecidableEq, Repr

def Status.empty : Status := ⟨false, false, false, false, 0, false, 0⟩

/-- Seat states (R270). -/
inductive SeatState where
  | forming | issuing | saving | ending
deriving DecidableEq, Repr

/-- A control core is held in reset, runs, or has stopped (R372, R376). -/
inductive CcRun where
  | held | running | stopped
deriving DecidableEq, Repr

/-- A page of a replica's view (R329): page number of the VA, role 1 in, 2 out, 3 inout, the home page's PA and the
stripe's PA. -/
structure ViewPage where
  page : Nat
  role : Nat
  home : Nat
  stripe : Nat
deriving DecidableEq, Repr

/-- A declared region (R261): base, role, length. -/
structure Region where
  base : Nat
  role : Nat
  len : Nat
deriving DecidableEq, Repr

/-- A signature waiting at the vote unit (R333-R335): release kind, the 256 bits, the release point. -/
structure Release where
  kind : Nat
  sig : BitVec 256
  pc : Word
deriving DecidableEq, Repr

/-- A cluster SRAM bank (R291, R292): its control register, the seat that holds it (core, base), the bytes written since
its last change into or out of CACHE, and the free value its other bytes read as (log 5). -/
structure SramBank where
  mode : BitVec 2
  busy : Bool
  head : Nat
  tail : Nat
  count : Nat
  holder : Option (Nat × Nat)
  data : Table Byte
  undef : Nat
deriving DecidableEq, Repr

def SramBank.empty : SramBank := ⟨0, false, 0, 0, 0, none, [], 0⟩

/-- One saved SRAM bank (R273, R325). -/
structure SramImage where
  no : Nat
  bank : SramBank
deriving DecidableEq, Repr

/-- What a replica's snapshot keeps (R337); operations created since have `opAge` or a later age. -/
structure Snapshot where
  parts : Table (Option Part)
  status : Status
  cause : BitVec 8
  epc : Word
  tval : Word
  tvec : Word
  handler : Option (BitVec 16)
  prio : BitVec 3
  lcap : Nat
  bars : Table (Option Nat)
  banks : Table Bank
  mg : Nat
  shape : Word
  tiles : Table (BitVec 32)
  sram : List SramImage
  opAge : Nat
deriving DecidableEq, Repr

/-- A replica's redundancy state (R328-R340): its view, the declared regions, the dirty-byte mask per granule (keyed by VA div 64), the signature it
holds with, whether the vote has let it go, its role at the release access (performer or follower), whether it leads its gang, whether it is a
minority not yet re-synchronised, whether a machine check or poison in its view makes it count as disagreeing at its next vote (R341), whether its
rollback waits for engine rows (R340), the echo log and the place in it, the snapshot. -/
structure Replica where
  view : List ViewPage
  regions : List Region
  dirty : Table (BitVec 64)
  hold : Option Release
  released : Bool
  performer : Bool
  lead : Bool
  behind : Bool
  suspect : Bool
  rolling : Bool
  echoLog : List Word
  echoPos : Nat
  snap : Option Snapshot
deriving DecidableEq, Repr

/-- A seat: a running task's sash-wide registers and parts (R13, R17, R22, R23, R270), or a control core (R371), which has one part and bank 0 only.
`rows` are the granted engine rows in the seat's row order; `handler` the banks of the part that took the trap being served; `disp` its place in the
order of dispatch (R273); `ptbr` the address space (R373, R374). Parts are keyed by sequencer bank. -/
structure Seat where
  isCC : Bool
  launch : Nat
  task : Nat
  base : Nat
  log2s : Nat
  phase : SeatState
  run : CcRun
  parts : Table (Option Part)
  status : Status
  cause : BitVec 8
  epc : Word
  tval : Word
  tvec : Word
  lcap : Nat
  prio : BitVec 3
  recPrio : BitVec 3
  stage : BitVec 4
  taskid : Word
  rows : List Nat
  shape : Word
  sram : List Nat
  bars : Table (Option Nat)
  handler : Option (BitVec 16)
  preempt : Bool
  disp : Nat
  ptbr : Word
  timecmp : Word
  red : Option Replica
deriving DecidableEq, Repr

def Seat.empty : Seat :=
  { isCC := false, launch := 0, task := 0, base := 0, log2s := 0, phase := .issuing, run := .held, parts := []
    status := Status.empty, cause := 0, epc := 0, tval := 0, tvec := 0, lcap := 12, prio := 0, recPrio := 0
    stage := 0, taskid := 0, rows := [], shape := 0, sram := [], bars := [], handler := none, preempt := false
    disp := 0, ptbr := 0, timecmp := BitVec.allOnes 64, red := none }

/-! ## Cores and quads -/

/-- Power states of a core (R402): NAP is the stack's. -/
inductive PowerState where
  | run | idle | doze | nap
deriving DecidableEq, Repr

/-- One logical core 0-1,535, or a control core 1,536-1,551 (R2, R371). `head` is the ready entry whose skips are counted;
`reserve` holds a bank, or 16 + an SRAM bank of the quad, with the launch and task it is reserved for (R272, R273). `mism`: an element
(bank, index) whose next check mismatches so many times; `esc`: an element whose next result a lane fault alters where the check does not see
it (bits to flip; R370); `spare`: the banks whose spare lane is in use (R351); `ecc`: granules in
which the next act of their row finds a failure (R177). -/
structure Core where
  banks : Table Bank
  seats : Table (Option Seat)
  post : Table Word
  power : PowerState
  waking : Bool
  quar : Bool
  evict : Nat
  silmis : Nat
  laneret : Nat
  poisonCt : Nat
  bondrep : Nat
  head : Option (Nat × Nat)
  skip : Nat
  reserve : List (Nat × Nat × Nat)
  mism : Option (Nat × Nat × Nat)
  esc : Option (Nat × Nat × Word)
  spare : BitVec 16
  ecc : List Nat
deriving DecidableEq, Repr

def Core.empty : Core := ⟨[], [], [], .run, false, false, 0, 0, 0, 0, 0, none, 0, [], none, none, 0, []⟩

/-- A translation-cache entry (R289): address space, first byte of the page, 32 MiB or 64 KiB, the leaf. -/
structure TlbEntry where
  asid : BitVec 4
  va : Nat
  big : Bool
  leaf : Word
deriving DecidableEq, Repr

/-- A saved image in the matrix engine's save array (R324): its seat, by task and replica, and the seat's row number. -/
structure SaveRow where
  launch : Nat
  task : Nat
  rid : Nat
  r : Nat
deriving DecidableEq, Repr

/-- A quad (R3): the matrix engine's rows and tiles (keyed row*1024 + tile*128 + column), its save array keyed the same,
the SRAM banks, the translation cache. Quads 384-399 serve the control cores' translation entries only. -/
structure Quad where
  rows : Table (Option (Nat × Nat))
  tiles : Table (BitVec 32)
  save : Table (Option SaveRow)
  saveTiles : Table (BitVec 32)
  sram : Table SramBank
  tlb : List TlbEntry
deriving DecidableEq, Repr

def Quad.empty : Quad := ⟨[], [], [], [], [], []⟩

/-! ## Child operations -/

/-- Operation states (R223). -/
inductive OpState where
  | pending | running | paused | done | faulted | cancelled
deriving DecidableEq, Repr

/-- The operations with the values read at convoy start (R225, R228-R241, R248). -/
inductive OpKind where
  | cpy (dst src : Word) (len : Nat) (esz : Nat)
  | cpy2d (dst src : Word) (rows rowBytes : Nat) (ss ds : Word) (esz : Nat)
  | rsct (tab src : Word) (n : Nat) (esz : Nat)
  | coll (blk : Word) (kind oper fmt : Nat)
  | red (blk : Word) (oper fmt : Nat)
  | gath (dst src idx : Word) (n : Nat) (esz : Nat) (idx64 : Bool)
  | nmo (dst src : Word) (n : Nat) (kind oper fmt : Nat) (scal : Word)
  | mmma (tile wa wb ga gb : Nat) (shape : Word)
  | mdrain (tile fmt : Nat) (dst stride : Word) (cols : Nat) (mask : BitVec 128)
  | tspawn (rec : Word)
  | launch (hdr : Word)
deriving DecidableEq, Repr

/-- The parameter block of red or coll, as read when the operation leaves PENDING (R233, R236). -/
structure ParamBlock where
  n : Nat
  count : Nat
  dst : Word
  flag : Word
  srcs : List Word
  order : Nat
  rm : BitVec 3
  group : Nat
  rank : Nat
  tag : Word
deriving DecidableEq, Repr

/-- An op-table entry (R315). `sup` and `ptbr` are the issuer's level and address space (R224, R374). `owner` is the task it is attached to: the
issuing task until an adoption (R246). `mirrors` counts the followers' registers that hold the handle (R227), `rows` the engine rows of an orphan
whose seat is gone (R279, R322). `outst` counts its packets formed and not yet acknowledged (R397), `sent` the place its next granule starts from
(bytes of a copy, trains' elements of an rsct), `away` a cpy2d has formed packets to a peer, so that its progress index counts bytes (R397), `first`
the first element of the train that an rsct is sending (R230), `given` the elements of a coll that its packets have carried to the remote members
(R392), `cover` the bytes that it has written of granules it has not written whole, with whether one came from poison (R427), `noted` its fault is
in the launch fault record (R246, R280), `kept` the source bytes by address, with their poison, that a copy has already overwritten (R229), `orphan`
the size and LCAP of the sash whose panes it still reads when its seat has been discarded (R322), `wait` what its next granule waits for, `aged` the
time its engine last served it and `boost` the steps its priority has risen since (R319). -/
structure ChildOp where
  gen : BitVec 8
  live : Bool
  st : OpState
  kind : OpKind
  progress : Nat
  prio : BitVec 3
  aged : Nat
  boost : Nat
  launch : Nat
  task : Nat
  owner : Nat
  core : Nat
  base : Nat
  bank : Nat
  sup : Bool
  ptbr : Word
  detached : Bool
  dt : Bool
  rows : List Nat
  holders : Nat
  mirrors : Nat
  acked : Bool
  noted : Bool
  after : Option (BitVec 32)
  age : Nat
  blk : Option ParamBlock
  wait : Option Wait
  outst : Nat
  sent : Nat
  away : Bool
  first : Nat
  given : Nat
  cover : Table (BitVec 64 × Bool)
  kept : List (Nat × Byte × Bool)
  orphan : Option (Nat × Nat)
  cause : BitVec 8
  faddr : Word
  findex : Nat
  fpath : BitVec 4
  ftime : Nat
deriving DecidableEq, Repr

def ChildOp.empty : ChildOp :=
  { gen := 0, live := false, st := .done, kind := .tspawn 0, progress := 0, prio := 0, aged := 0, boost := 0, launch := 0, task := 0
    owner := 0, core := 0, base := 0, bank := 0, sup := false, ptbr := 0, detached := false, dt := false, rows := [], holders := 0, mirrors := 0, acked := false, noted := false
    after := none, age := 0, blk := none, wait := none, outst := 0, sent := 0, away := false, first := 0, given := 0, cover := [], kept := [], orphan := none, cause := 0, faddr := 0, findex := 0, fpath := 0, ftime := 0 }

/-! ## Launches and tasks -/

/-- A task record (R261). -/
structure TaskRec where
  entry : Word
  anchor : Word
  count : Word
  panes : BitVec 12
  sash : Nat
  prio : BitVec 3
  stage : BitVec 4
  redund : Nat
  sram : Nat
  npred : Nat
  args : List Word
  regions : List Region
  succ : List Nat
deriving DecidableEq, Repr

/-- Task states (R266). -/
inductive TaskState where
  | waiting | ready | running | saved | done | failed | cancelled
deriving DecidableEq, Repr

/-- Where a saved pane lies (R276 PANEMAP). -/
inductive Place where
  | closed
  | slot (k : Nat)
  | area (img : PaneImage)
deriving DecidableEq, Repr

/-- A saved context (R276, R354): the seat as it stood and its core, its banks keyed by offset from BASE, the tile rows keyed by the seat's own
row number, the SRAM banks, where each pane lies (keyed offset*12 + N). -/
structure Context where
  seat : Seat
  core : Nat
  banks : Table Bank
  tiles : Table (BitVec 32)
  sram : List SramImage
  places : Table Place
  /-- the panes that were parked (R354) -/
  parked : List Nat
  /-- the context area's user images after an export (keyed offset*96 + sg*8 + slot; R380) -/
  exported : Table (Option PaneImage)
  /-- the images that the seat itself keeps in slots 6 and 7: of a replica's snapshot and of a claimed bank (keyed offset*96 + sg*8 + slot; R76,
  R124, R337) -/
  own : Table (Option PaneImage)
deriving DecidableEq, Repr

/-- A task entry (R266-R268). `op` is the tspawn operation that waits for it; `keys` numbers the SipHash keys of the
gang's dispatch (R334), `runs` the disagreements since the last agreement (R338), `replicas` the replicas still in the
gang, `left` the view pages of those that have ended, whose stripes stay taken until the task is terminal (R329). -/
structure Task where
  record : TaskRec
  st : TaskState
  cause : BitVec 8
  dep : Nat
  age : Nat
  prio : BitVec 3
  pa : Nat
  core : Nat
  ctx : List Context
  area : Option Nat
  isExported : Bool
  op : Option Nat
  keys : Nat
  runs : Nat
  replicas : List Nat
  left : List ViewPage
deriving DecidableEq, Repr

/-- A launch (R260, R264, R277, R280). -/
structure Launch where
  sill : Nat
  ptbr : Word
  sup : Bool
  event : Word
  frec : Word
  fcap : Nat
  fcountVa : Word
  fcount : Nat
  hbase : Word
  save : Word
  loops : BitVec 16
  bars : Table Nat
  arrived : Table Nat
  phases : Table Nat
  tasks : Table (Option Task)
  nextTask : Nat
  paused : Bool
  cancelled : Bool
  op : Option Nat
deriving DecidableEq, Repr

/-! ## Links -/

/-- Link states (R394). -/
inductive LinkState where
  | down | training | up | failed
deriving DecidableEq, Repr

/-- A packet in a replay buffer (R386, R388): its SEQ, flits, the peer it goes to (0: another stack), the handle of its operation, destination, data
bytes, and the progress index of the operation once it and the packets before it are acknowledged (R397). -/
structure Packet where
  seq : BitVec 16
  flits : Nat
  peer : Nat
  op : BitVec 32
  dst : Word
  bytes : List Byte
  done : Option Nat
deriving DecidableEq, Repr

/-- One link (R383-R399, R412-R414): control, groups, sender, receiver, counters (0-9 in the order of R394's 0x20-0x68), queue block. `w` and `b`
are the width and first strand of the transmit group in use, `ann` an announced group, `rxw`, `rxb` the group at which flits are received, `ackOut`
the ACK that its own flits carry, `out` the flit sent last; `dark` the wavelengths parked and dark, `waking` those being woken, `wakes` the wakes in
progress, the oldest first (R390, R414). `pos`, `flit`, `maxSent`: the packet of `buf` being sent, its flit, the packets whose first flit has gone
out; `rq` the requests for replay still to send, `wreq` a group to ask for, `holdoff` the ACK held when the replay in progress began (R399), `redo`
a replay at the next change of group (R388); `halted` a retrain or shutter sequence keeps the sequence numbers, `retest` the training is a retrain
(R422), `dropping` EN is clear. -/
structure Link where
  en : Bool
  maxw : BitVec 2
  park : BitVec 8
  napPark : Bool
  st : LinkState
  w : Nat
  b : Nat
  ann : Option (Nat × Nat)
  rxw : Nat
  rxb : Nat
  ackOut : BitVec 16
  out : Option (BitVec 2048)
  dark : BitVec 8
  waking : BitVec 8
  wakes : List (BitVec 8)
  txdead : BitVec 16
  rxdead : BitVec 16
  next : BitVec 16
  acked : BitVec 16
  exp : BitVec 16
  evt : Word
  ctr : Table Nat
  buf : List Packet
  pos : Nat
  flit : Nat
  maxSent : Nat
  rq : Nat
  wreq : Option (Nat × Nat)
  holdoff : Option (BitVec 16)
  crd : Nat
  rx : List (BitVec 1920)
  rxSeq : Option (BitVec 16 × Nat)
  skipping : Bool
  redo : Bool
  halted : Bool
  retest : Bool
  dropping : Bool
  hi : Nat
  lo : Nat
  idle : Nat
  high : Bool
  quiet : Bool
  lqevt : Word
deriving DecidableEq, Repr

def Link.empty : Link :=
  { en := false, maxw := 0, park := 0, napPark := false, st := .down, w := 16, b := 0, ann := none, rxw := 16, rxb := 0, ackOut := BitVec.allOnes 16, out := none, dark := 0, waking := 0, wakes := []
    txdead := 0, rxdead := 0, next := 0, acked := BitVec.allOnes 16, exp := 0, evt := 0, ctr := [], buf := [], pos := 0, flit := 0
    maxSent := 0, rq := 0, wreq := none, holdoff := none, crd := 0, rx := [], rxSeq := none, skipping := false, redo := false, halted := false, retest := false
    dropping := false, hi := 0, lo := 0, idle := 0, high := false, quiet := false, lqevt := 0 }

/-- A peer-table entry (R395). -/
structure Peer where
  valid : Bool
  failed : Bool
  node : BitVec 32
  links : BitVec 128
deriving DecidableEq, Repr

def Peer.empty : Peer := ⟨false, false, 0, 0⟩

/-! ## Migrators, log, power, boot, management -/

/-- A migration request (R295); `auto`: the migrator's own choice, for which it keeps the free-place bitmap. -/
structure MigReq where
  demote : Bool
  pte : Word
  frame : Nat
  auto : Bool
deriving DecidableEq, Repr

/-- What a migrator has seen of a page (R295): the number of the last window with an access, the accesses in it, the time of the last one in ns. -/
structure Heat where
  win : Nat
  hits : Nat
  last : Nat
deriving DecidableEq, Repr

/-- A sill's migrator (R295); `heat`: the accesses it has counted under AUTO, by page number of the physical address (log 90). -/
structure Migrator where
  pol : Word
  free : Word
  tgt : Word
  evt : Word
  last : BitVec 8
  queue : List MigReq
  cur : Option MigReq
  heat : Table Heat
deriving DecidableEq, Repr

def Migrator.empty : Migrator := ⟨0, 0, 0, 0, 0, [], none, []⟩

/-- An error-log record (R418). -/
structure ErrRec where
  seq : Nat
  typ : BitVec 8
  sev : BitVec 8
  plane : BitVec 8
  time : Nat
  loc : BitVec 32
  cause : BitVec 32
  addr : Word
  index : Word
  detail : BitVec 192
deriving DecidableEq, Repr

/-- The error log and the device counters (R419, R420, R422). -/
structure ErrLog where
  recs : Table (Option ErrRec)
  seq : Nat
  exported : Nat
  drop : Nat
  evt : Word
  post : BitVec 512
  votedis : Nat
  mismatch : Nat
  minority : Nat
  schederr : Nat
  health : BitVec 2
deriving DecidableEq, Repr

def ErrLog.empty : ErrLog := ⟨[], 0, 0, 0, 0, 0, 0, 0, 0, 0, 0⟩

/-- The power block (R404, R407, R423): phase 0-7, in phase 7 the entry phase whose state is current (R408, R410), source of the last sequence, a
resume recorded meanwhile (true: discard), NAP stacks, caps, duty and temperature per column, supply. -/
structure Power where
  lattol : BitVec 32
  phase : Nat
  back : Nat
  src : BitVec 2
  resume : Option Bool
  nap : BitVec 8
  evt : Word
  limit : Nat
  lock : Bool
  pmeas : Nat
  tmax : Nat
  floor : Nat
  tlogic : Nat
  tdram : Nat
  threvt : Word
  auto : Bool
  hold : Nat
  duty : Table Nat
  temp : Table Nat
  dipped : Bool
  steady : Bool
  off : Bool
  lostAtOff : Bool
deriving DecidableEq, Repr

def Power.reset : Power :=
  { lattol := 0, phase := 0, back := 0, src := 0, resume := none, nap := 0, evt := 0, limit := 4000, lock := false, pmeas := 0, tmax := 95
    floor := 16, tlogic := 0, tdram := 0, threvt := 0, auto := true, hold := 20, duty := [], temp := [], dipped := false
    steady := false, off := false, lostAtOff := false }

/-- Boot (R376): steps completed 0-5, stopped by a failure, whether the boot ROM's own image fails its check (an input, log 1), the firmware images
of the two flash slots (R417), CCENTRY and CCBOOT.DONE (R379), whether step 5 was reported late. -/
structure Boot where
  step : Nat
  failed : Bool
  romBad : Bool
  active : Word
  inactive : Option Word
  entry : Word
  done : Bool
  late : Bool
deriving DecidableEq, Repr

def Boot.reset : Boot := ⟨0, false, false, 0, none, 0, false, false⟩

/-- What leaves the part through the management port (R417). -/
inductive MgmtOut where
  | snapshot (ns : Nat) (health : BitVec 2) (counters : List Nat)
  | record (r : ErrRec)
  | bytes (pa : Nat) (data : List Byte)
  | refused
  | done
  | notice (typ : BitVec 8)
deriving DecidableEq, Repr

/-- A control-core barrier (R160, R379): count, arrivals, phase, a stored count that waits for the phase's end. -/
structure CcBar where
  count : Nat
  arrived : Nat
  phase : Nat
  next : Option Nat
deriving DecidableEq, Repr

def CcBar.empty : CcBar := ⟨0, 0, 0, none⟩

/-- A collective group entry (R236). -/
structure Group where
  valid : Bool
  count : Nat
  mtab : Word
  tag : Word
deriving DecidableEq, Repr

def Group.empty : Group := ⟨false, 0, 0, 0⟩

/-- The launch control block and the context pool (R276, R380). `cur` is the command in progress (op, launch, task). -/
structure LaunchCtl where
  cur : Option (Nat × Nat × Nat)
  result : BitVec 8
  evt : Word
  ctxBase : Word
  ctxCount : Nat
  areas : Table (Option (Nat × Nat))
deriving DecidableEq, Repr

def LaunchCtl.empty : LaunchCtl := ⟨none, 0, 0, 0, 0, []⟩

/-- The agent that moves: core, seat (BASE), part (sequencer bank). -/
structure Agent where
  core : Nat
  base : Nat
  seq : Nat
deriving DecidableEq, Repr

/-- The context in which an address is used (R288, R373, R374): core, level, root, launch, replica view and whether a
control core. -/
structure Ctx where
  core : Nat
  isCC : Bool
  sup : Bool
  ptbr : Word
  launch : Nat
  view : List ViewPage
deriving DecidableEq, Repr

/-- A store of the part's own, on LS (R298): a STATE event word, a word of a launch (its fault record, its header), a COUNT event word, a
bit of a free-place bitmap; the completion flag whose address stands in a parameter block that its operation has not read (R234). -/
inductive Posted where
  | flag (c : Ctx) (loc : BitVec 32) (va v : Nat)
  | event (c : Ctx) (loc : BitVec 32) (va v : Nat)
  | word (c : Ctx) (va v n : Nat)
  | count (pa : Nat)
  | place (pa mask : Nat) (free : Bool)
deriving DecidableEq, Repr

/-- Who waits for a claimed sg (R73). -/
inductive Waiter where
  | part (a : Agent)
  | op (i : Nat)
  | posted (p : Posted)
  | packet
  | mig (sill : Nat)
  | vote (launch task : Nat)
  | save (core base : Nat)
  | stage (launch task : Nat)
  | read
  | cmd
deriving DecidableEq, Repr

/-- The waits of R72 and R73: who waits for which claimed sg (core, bank, sg), in order of arrival; whom an eviction serves next; the
part's own stores that have not performed; the tasks whose dispatch waits for the rows that the scheduler and the vote unit read and write
for it (R324, R329); the memory that the management controller has asked for, address and bytes (R417). -/
structure WaitLists where
  arrivals : List ((Nat × Nat × Nat) × Waiter)
  serving : List Waiter
  posted : List Posted
  staging : List (Nat × Nat)
  reads : List (Nat × Nat)
deriving DecidableEq, Repr

/-- The last atomic that a control core or a thread has performed in the step before (R157): its address, which side, whether it was sent to the home,
the value before and after it; `stamp` tells one from the next. -/
structure AmoNote where
  pa : Nat
  isCC : Bool
  atHome : Bool
  old : Word
  new : Word
  stamp : Nat
deriving DecidableEq, Repr

/-- What moves next: an agent, a step of the part, reference time passing (ns), or an error of the hardware (log 58): n mismatches one after another
at the next check of an element (R351), a lane fault that the check does not see (R370), an uncorrectable failure that the next act of a row finds
in a granule (R177), codewords that a link corrected and could not (R394), a boot ROM whose image fails its check (R376), a peer's refusal of an
access that falls in a hole or a shutter row there (R290), a granule that an agent's path takes ahead of its accesses (R305; log 7). The agenda is the model's own input (log 1). -/
inductive Turn where
  | issue (a : Agent)
  | event (i : Instr)
  | elapse (ns : Nat)
  | mismatch (core bank elem n : Nat)
  | laneFault (core bank elem : Nat) (flip : Word)
  | rowError (core pa : Nat)
  | romError
  | codewords (link corrected uncorrectable : Nat)
  | denied (op va : Nat)
  | ahead (core base : Nat) (path : BitVec 4) (pa : Nat)
deriving DecidableEq, Repr

/-- A step of the part that an instruction or a register write has set off; it is taken before anything else. -/
inductive Due where
  | peerLost (n : Nat)
  | launchStart (op : Nat)
  | tspawnStart (op : Nat)
  | sramMode (quad bank : Nat) (mode : BitVec 2)
  | sramClr (quad bank : Nat)
  | migrate (sill : Nat) (demote : Bool) (pte : Word)
  | linkEn (link : Nat)
  | linkDis (link : Nat)
  | retrain (link : Nat)
  | park (link : Nat) (park : BitVec 8)
  | peerClear (n : Nat)
  | lqcfg (link : Nat) (v : Word)
  | lattol (v : Word)
  | pwrcmd (op : BitVec 2)
  | pcap (v : Word)
  | thr (v : Word)
  | elpost (v : Word)
  | quar (word : Nat) (v : Word)
  | ccstart (mask : BitVec 16)
  | ccboot
  | ccbar (n : Nat) (count : BitVec 16)
  | lcmd (op : Nat) (launch task : Nat)
  | ctxPool (off : Nat) (v : Word)
  | register (pa : Nat) (v : Word)
deriving DecidableEq, Repr

/-- The whole machine. Cores, quads, sills, operations, launches, links, peers and groups are keyed by their numbers. `due` holds
the steps that have been set off and not yet taken. -/
structure State where
  cores : Table Core
  quads : Table Quad
  mem : Table Byte
  poison : Table Bool
  linked : List LinkEntry
  ahead : List Ahead
  ops : Table ChildOp
  opAge : Nat
  launches : Table (Option Launch)
  taskAge : Nat
  links : Table Link
  peers : Table Peer
  rxq : List (Nat × List (BitVec 1920))
  migs : Table Migrator
  groups : Table Group
  selfNode : BitVec 32
  ccbars : Table CcBar
  harvest : Table Word
  lctl : LaunchCtl
  log : ErrLog
  power : Power
  boot : Boot
  mgmtOut : List MgmtOut
  telemetry : Bool
  ns : Nat
  free : Nat
  focus : Agent
  waits : WaitLists
  lastAmo : Option AmoNote
  due : List Due
  agenda : List Turn
deriving DecidableEq, Repr

/-- The machine at power-on (R376): boot has completed no step, nothing runs, every register is at the value its chapter
gives for reset. Values the spec does not give are zero (log 3, log 4); the focus names control core 1,536. -/
def State.reset : State :=
  { cores := [], quads := [], mem := [], poison := [], linked := [], ahead := [], ops := [], opAge := 0, launches := [], taskAge := 0, links := [], peers := []
    rxq := [], migs := [], groups := [], selfNode := 0, ccbars := [], harvest := [], lctl := LaunchCtl.empty, log := ErrLog.empty
    power := Power.reset, boot := Boot.reset, mgmtOut := [], telemetry := false, ns := 0, free := 0
    focus := ⟨1536, 0, 0⟩, waits := ⟨[], [], [], [], []⟩, lastAmo := none, due := [], agenda := [] }

end Sys2Proof.Machine
end

