-- ==== Sys2Proof/Machine/Table.lean ====
section
/-! DEFINITION. Sys2Proof/Machine/Table.lean: reading and writing the sorted tables of the state and the memory. Reading
stops at the first greater key, so that a read after a write holds of every list, sorted or not. -/

namespace Sys2Proof.Machine

/-- The value at a key, or the default. -/
def look {α : Type} (d : α) : Table α → Nat → α
  | [], _ => d
  | (k', v) :: t, k => if k = k' then v else if k < k' then d else look d t k

/-- Set the value at a key. -/
def put {α : Type} : Table α → Nat → α → Table α
  | [], k, v => [(k, v)]
  | (k', v') :: t, k, v =>
    if k = k' then (k, v) :: t
    else if k < k' then (k, v) :: (k', v') :: t
    else (k', v') :: put t k v

/-- Remove a key. -/
def del {α : Type} : Table α → Nat → Table α
  | [], _ => []
  | (k', v') :: t, k =>
    if k = k' then t.dropWhile (fun p => p.1 ≤ k)
    else if k < k' then (k', v') :: t
    else (k', v') :: del t k

/-- Set a byte and keep the canonical form: a zero byte is not listed. -/
def putByte (t : Table Byte) (k : Nat) (v : Byte) : Table Byte := if v = 0 then del t k else put t k v

/-- The canonical form of a memory: addresses strictly rising from `lo`, no zero byte listed. -/
def bytesFrom (lo : Nat) : Table Byte → Bool
  | [] => true
  | (k, v) :: t => decide (lo ≤ k) && v != 0 && bytesFrom (k + 1) t

/-- The canonical form of a memory. -/
def bytesWf (t : Table Byte) : Bool := bytesFrom 0 t

/-- A little-endian number of n bytes (R8). -/
def readLE (t : Table Byte) (a : Nat) : Nat → Nat
  | 0 => 0
  | n + 1 => (look 0 t a).toNat + 256 * readLE t (a + 1) n

/-- Write a number as n little-endian bytes. -/
def writeLE (t : Table Byte) (a : Nat) (v : Nat) : Nat → Table Byte
  | 0 => t
  | n + 1 => writeLE (putByte t a (BitVec.ofNat 8 v)) (a + 1) (v / 256) n

/-- The listed bytes from a to a + n - 1, at offsets from a. -/
def slice (t : Table Byte) (a n : Nat) : Table Byte :=
  ((t.dropWhile (fun p => p.1 < a)).takeWhile (fun p => p.1 < a + n)).map (fun p => (p.1 - a, p.2))

/-- Write the listed bytes of an image at offsets from a, those below n. -/
def pasteBytes (t : Table Byte) (a n : Nat) : Table Byte → Table Byte
  | [] => t
  | (k, v) :: img => pasteBytes (if k < n then putByte t (a + k) v else t) a n img

/-- The memory without the bytes from a to a + n - 1: they read zero. -/
def erase (t : Table Byte) (a n : Nat) : Table Byte := t.filter (fun p => p.1 < a || decide (a + n ≤ p.1))

/-- Replace the bytes from a to a + n - 1 by an image at offsets from a. -/
def paste (t : Table Byte) (a n : Nat) (img : Table Byte) : Table Byte := pasteBytes (erase t a n) a n img

/-- n numbers from a. -/
def upFrom (a : Nat) : Nat → List Nat
  | 0 => []
  | n + 1 => a :: upFrom (a + 1) n

end Sys2Proof.Machine
end

