-- ==== Sys2Proof/Machine/Access.lean ====
section
/-! DEFINITION. Sys2Proof/Machine/Access.lean: reading and writing the parts of the state: cores, banks, seats, parts,
registers, free values. Every register is read and written here. -/

namespace Sys2Proof.Machine

/-! ## Registers of a bank (R13, R14, R120) -/

/-- Read an s-register; s0 reads zero. -/
def Bank.rs (b : Bank) (n : BitVec 5) : Word := if n = 0 then 0 else look 0 b.s n.toNat

/-- Write an s-register; a write to s0 is discarded. -/
def Bank.ws (b : Bank) (n : BitVec 5) (v : Word) : Bank := if n = 0 then b else { b with s := put b.s n.toNat v }

/-- Read an a-register. -/
def Bank.ra (b : Bank) (n : BitVec 3) : Word := look 0 b.a n.toNat

/-- The bits an a-register keeps: [60:56] are forced to zero (R14). -/
def aMask (v : Word) : Word := v &&& 0xE0FF_FFFF_FFFF_FFFF

/-- Write an a-register. -/
def Bank.wa (b : Bank) (n : BitVec 3) (v : Word) : Bank := { b with a := put b.a n.toNat (aMask v) }

/-- ESZ and VA of an address register (R14). -/
def aEsz (v : Word) : Nat := (v.extractLsb' 61 3).toNat
def aVa (v : Word) : BitVec 56 := v.extractLsb' 0 56

/-- Read a mask register m1-m7. -/
def Bank.rm (b : Bank) (n : Nat) : BitVec 4096 := look 0 b.m n
/-- Write a mask register. -/
def Bank.wm (b : Bank) (n : Nat) (v : BitVec 4096) : Bank := { b with m := put b.m n v }

/-- Read a token register (R15). -/
def Bank.rk (b : Bank) (n : BitVec 4) : Option (BitVec 32) := look none b.k n.toNat
/-- Write a token register. -/
def Bank.wk (b : Bank) (n : BitVec 4) (v : Option (BitVec 32)) : Bank := { b with k := put b.k n.toNat v }

/-- Accrue flags (R21). -/
def Bank.accrue (b : Bank) (f : BitVec 5) : Bank := { b with flags := b.flags ||| f }

/-- The pane wN and its replacement. -/
def Bank.pane (b : Bank) (n : Nat) : Pane := look Pane.empty b.panes n
def Bank.setPane (b : Bank) (n : Nat) (p : Pane) : Bank := { b with panes := put b.panes n p }

/-- Shutter slot k of sg n (R76). -/
def Bank.slot (b : Bank) (n k : Nat) : Slot := look Slot.empty b.slots (n * 8 + k)
def Bank.setSlot (b : Bank) (n k : Nat) (v : Slot) : Bank := { b with slots := put b.slots (n * 8 + k) v }

/-- The refresh debt of an sg (R25, R79). -/
def Bank.debtOf (b : Bank) (n : Nat) : Nat := look 0 b.debt n
def Bank.setDebt (b : Bank) (n v : Nat) : Bank := { b with debt := put b.debt n v }

/-! ## Cores, banks, seats, parts -/

def State.core (s : State) (c : Nat) : Core := look Core.empty s.cores c
def State.setCore (s : State) (c : Nat) (v : Core) : State := { s with cores := put s.cores c v }
def State.modCore (s : State) (c : Nat) (f : Core → Core) : State := s.setCore c (f (s.core c))

def State.bank (s : State) (c b : Nat) : Bank := look Bank.empty (s.core c).banks b
def State.setBank (s : State) (c b : Nat) (v : Bank) : State :=
  s.modCore c (fun x => { x with banks := put x.banks b v })
def State.modBank (s : State) (c b : Nat) (f : Bank → Bank) : State := s.setBank c b (f (s.bank c b))

/-- Modify one bank after another. -/
def State.modBanks (s : State) (c : Nat) (f : Nat → Bank → Bank) : List Nat → State
  | [] => s
  | b :: bs => State.modBanks (s.modBank c b (f b)) c f bs

def State.pane (s : State) (c b n : Nat) : Pane := (s.bank c b).pane n
def State.setPane (s : State) (c b n : Nat) (p : Pane) : State := s.modBank c b (fun x => x.setPane n p)

def State.seat? (s : State) (c base : Nat) : Option Seat := look none (s.core c).seats base
def State.seatAt (s : State) (c base : Nat) : Seat := (s.seat? c base).getD Seat.empty
def State.setSeat? (s : State) (c base : Nat) (v : Option Seat) : State :=
  s.modCore c (fun x => { x with seats := put x.seats base v })

/-- The seat of an agent. -/
def State.seat (s : State) (a : Agent) : Seat := s.seatAt a.core a.base
def State.setSeat (s : State) (a : Agent) (v : Seat) : State := s.setSeat? a.core a.base (some v)
def State.modSeat (s : State) (a : Agent) (f : Seat → Seat) : State := s.setSeat a (f (s.seat a))

def Seat.part? (t : Seat) (q : Nat) : Option Part := look none t.parts q
def Seat.setPart? (t : Seat) (q : Nat) (p : Option Part) : Seat := { t with parts := put t.parts q p }

/-- The part of an agent. -/
def State.part (s : State) (a : Agent) : Part := ((s.seat a).part? a.seq).getD Part.empty
def State.setPart (s : State) (a : Agent) (p : Part) : State := s.modSeat a (fun t => t.setPart? a.seq (some p))
def State.modPart (s : State) (a : Agent) (f : Part → Part) : State := s.setPart a (f (s.part a))

/-- The banks of a bit set, lowest first. -/
def banksOf (x : BitVec 16) : List Nat := (List.range 16).filter (fun b => x.getLsbD b)

/-- The active banks of the focus's part (R22). -/
def State.active (s : State) : List Nat := banksOf (s.part s.focus).active

/-- The part runs the handler of the trap that its seat serves, or is a part of it after a split (R28, R342). -/
def Seat.handles (t : Seat) (p : Part) : Bool := (t.handler.map (fun h => p.active &&& ~~~h == 0)).getD false

/-- A set of banks as bits. -/
def bankMask (bs : List Nat) : BitVec 16 := bs.foldl (fun x b => x ||| (1 <<< b)) 0

/-- The active banks in which the current single instruction has still to perform or begin (R150, R166). -/
def State.restBanks (s : State) : List Nat := banksOf ((s.part s.focus).active &&& ~~~(s.part s.focus).begun)

/-- The banks in which the current single instruction has performed or begun. -/
def State.noteBegun (s : State) (x : BitVec 16) : State := s.modPart s.focus (fun p => { p with begun := x })

/-- The sequencer bank: the lowest of the part (R26). -/
def Part.seqBank (p : Part) : Nat := (banksOf p.active).headD 0
def State.seqBank (s : State) : Nat := (s.part s.focus).seqBank

/-- Modify every active bank of the focus's part (R27). -/
def State.onActive (s : State) (f : Nat → Bank → Bank) : State := s.modBanks s.focus.core f s.active

/-- A bank of the focus's core. -/
def State.fbank (s : State) (b : Nat) : Bank := s.bank s.focus.core b

/-- An s-register of the sequencer bank. -/
def State.seqReg (s : State) (n : BitVec 5) : Word := (s.fbank s.seqBank).rs n

/-- Banks of a seat. -/
def Seat.size (t : Seat) : Nat := 2 ^ t.log2s
def Seat.banks (t : Seat) : List Nat := upFrom t.base t.size

/-- The DEPTH of a part (R22). -/
def Part.depth (p : Part) : Nat := p.splits.length

/-- vl, xidx and RM as the convoy read them at its start (R36). -/
def Part.vlNow (p : Part) : Nat := match p.convoy with | some c => c.vl | none => p.vl
def Part.xidxNow (p : Part) : Nat := match p.convoy with | some c => c.xidx | none => p.xidx
def Part.rmNow (p : Part) : BitVec 3 := match p.convoy with | some c => c.rm | none => p.rm

/-- The seat whose sash holds a bank, with its BASE (R270). -/
def State.seatOfBank (s : State) (c b : Nat) : Option (Nat × Seat) :=
  ((s.core c).seats.filterMap (fun p => p.2.map (fun t => (p.1, t)))).find? (fun p => p.2.banks.contains b)

/-- The part that holds a bank, as an agent. -/
def State.agentOfBank (s : State) (c b : Nat) : Option Agent :=
  (s.seatOfBank c b).bind fun p =>
    (p.2.parts.find? (fun q => (q.2.map (fun x => x.active.getLsbD b)).getD false)).map (fun q => ⟨c, p.1, q.1⟩)

/-- Let a part go on: its wait is over and it issues next. -/
def State.resume (s : State) (a : Agent) : State :=
  { s.modPart a (fun p => { p with wait := none }) with agenda := .issue a :: s.agenda }

/-! ## Quads, operations, launches, tasks, links -/

def State.quad (s : State) (q : Nat) : Quad := look Quad.empty s.quads q
def State.setQuad (s : State) (q : Nat) (v : Quad) : State := { s with quads := put s.quads q v }
def State.modQuad (s : State) (q : Nat) (f : Quad → Quad) : State := s.setQuad q (f (s.quad q))

def State.sram (s : State) (q b : Nat) : SramBank := look SramBank.empty (s.quad q).sram b
def State.setSram (s : State) (q b : Nat) (v : SramBank) : State :=
  s.modQuad q (fun x => { x with sram := put x.sram b v })

def State.op (s : State) (i : Nat) : ChildOp := look ChildOp.empty s.ops i
def State.setOp (s : State) (i : Nat) (v : ChildOp) : State := { s with ops := put s.ops i v }
def State.modOp (s : State) (i : Nat) (f : ChildOp → ChildOp) : State := s.setOp i (f (s.op i))

def State.launch? (s : State) (n : Nat) : Option Launch := look none s.launches n
def State.setLaunch (s : State) (n : Nat) (v : Option Launch) : State := { s with launches := put s.launches n v }
def State.modLaunch (s : State) (n : Nat) (f : Launch → Launch) : State :=
  match s.launch? n with
  | some l => s.setLaunch n (some (f l))
  | none => s

def State.task? (s : State) (l t : Nat) : Option Task := (s.launch? l).bind (fun x => look none x.tasks t)
def State.setTask (s : State) (l t : Nat) (v : Task) : State :=
  s.modLaunch l (fun x => { x with tasks := put x.tasks t (some v) })
def State.modTask (s : State) (l t : Nat) (f : Task → Task) : State :=
  match s.task? l t with
  | some x => s.setTask l t (f x)
  | none => s

def State.link (s : State) (n : Nat) : Link := look Link.empty s.links n
def State.setLink (s : State) (n : Nat) (v : Link) : State := { s with links := put s.links n v }
def State.modLink (s : State) (n : Nat) (f : Link → Link) : State := s.setLink n (f (s.link n))

def State.peer (s : State) (n : Nat) : Peer := look Peer.empty s.peers n
def State.setPeer (s : State) (n : Nat) (v : Peer) : State := { s with peers := put s.peers n v }

def State.mig (s : State) (n : Nat) : Migrator := look Migrator.empty s.migs n
def State.setMig (s : State) (n : Nat) (v : Migrator) : State := { s with migs := put s.migs n v }

/-- MIGPOL (R295). -/
def Migrator.auto (m : Migrator) : Bool := m.pol.getLsbD 0
def Migrator.hot (m : Migrator) : Nat := (m.pol.extractLsb' 8 8).toNat
/-- The window length in ns. -/
def Migrator.winNs (m : Migrator) : Nat := max 1 ((m.pol.extractLsb' 16 16).toNat * 1000)
/-- The idle time in ns. -/
def Migrator.idleNs (m : Migrator) : Nat := (m.pol.extractLsb' 32 16).toNat * 1000000

/-- What a migrator has seen of the page of an address. -/
def Migrator.heatOf (m : Migrator) (pa : Nat) : Heat := look ⟨0, 0, 0⟩ m.heat (pa / 2 ^ 16)

/-- A migrator under AUTO counts an access (log 90). -/
def Migrator.touch (m : Migrator) (ns pa : Nat) : Migrator :=
  if m.auto then
    let w := ns / m.winNs
    let h := m.heatOf pa
    { m with heat := put m.heat (pa / 2 ^ 16) ⟨w, if h.win = w then h.hits + 1 else 1, ns⟩ }
  else m

/-- An access to memory has performed. -/
def State.touch (s : State) (pa : Nat) : State :=
  if s.migs.any (fun m => m.2.auto) then { s with migs := s.migs.map (fun m => (m.1, m.2.touch s.ns pa)) } else s

/-! ## Free values (log 2) -/

/-- Take a free word. -/
def State.freeWord (s : State) : Word × State := (Config.freeWord s.free, { s with free := s.free + 1 })

/-- Take free bytes: byte i is `Config.freeByte n i` of the counter n. -/
def State.freeBytes (s : State) : Nat × State := (s.free, { s with free := s.free + 1 })

/-- Take a free choice. -/
def State.freeBool (s : State) : Bool × State := (Config.freeBool s.free, { s with free := s.free + 1 })

end Sys2Proof.Machine
end

