-- ==== Sys2Proof/Machine/Phys.lean ====
section
/-! DEFINITION. Sys2Proof/Machine/Phys.lean: the physical map (R284), reading and writing memory at physical addresses,
claims (R72), link invalidation (R219), poison (R350), event words. Every write to memory goes through `poke`. -/

namespace Sys2Proof.Machine

/-- What lies at a physical address (R284); holes include the shutter rows and sg 12-15 (R63). -/
inductive Region0 where
  | dram | cap | sram | dev | hole
deriving DecidableEq, Repr

def dramCore (pa : Nat) : Nat := pa / 2 ^ 28
def dramSg (pa : Nat) : Nat := pa / 2 ^ 24 % 16
def dramRow (pa : Nat) : Nat := pa / 2 ^ 16 % 256
def dramBank (pa : Nat) : Nat := pa / 2 ^ 12 % 16

/-- The first byte of a row of a bank (R284). -/
def rowPa (core bank sg row : Nat) : Nat := core * 2 ^ 28 + sg * 2 ^ 24 + row * 2 ^ 16 + bank * 2 ^ 12

def sramBase : Nat := 0xFE0000000000
def sramQuad (pa : Nat) : Nat := (pa - sramBase) / 0x800000
def sramBankNo (pa : Nat) : Nat := (pa - sramBase) / 0x40000 % 32
def sramPa (q b : Nat) : Nat := sramBase + q * 0x800000 + b * 0x40000

def regionOf (pa : Nat) : Region0 :=
  if pa < 0x6000000000 then (if dramSg pa < 12 ∧ dramRow pa < 248 then .dram else .hole)
  else if 0x10000000000 ≤ pa ∧ pa < 0x20000000000 then .cap
  else if sramBase ≤ pa ∧ pa < sramBase + 0xC0000000 then .sram
  else if 0xFF0000000000 ≤ pa ∧ pa < 2 ^ 48 then .dev
  else .hole

/-- The first byte of the retention region (R284, R403). -/
def retentionBase : Nat := 0x1FE00000000
def isRetention (pa : Nat) : Bool := decide (retentionBase ≤ pa) && decide (pa < 0x20000000000)

/-- A pane claims its sg (R72): not CLOSED and not parked, or parked with the sg busy. -/
def Pane.claims (p : Pane) : Bool := (p.st != .closed && !p.park) || p.busy

/-- The wait of an access to a physical address whose core is below RUN, which it wakes (R405), or whose sg is claimed (R72, R151). -/
def claimOf (s : State) (pa : Nat) : Option Wait :=
  if regionOf pa = .dram then
    if (s.core (dramCore pa)).power != .run then some (.wake (dramCore pa))
    else if (s.pane (dramCore pa) (dramBank pa) (dramSg pa)).claims then some (.claim (dramCore pa) (dramBank pa) (dramSg pa))
    else none
  else none

/-- The mode of the SRAM bank at an address; CACHE 0, SCRATCH 1, FIFO 2. -/
def modeAt (s : State) (pa : Nat) : BitVec 2 := (s.sram (sramQuad pa) (sramBankNo pa)).mode

/-- How far the part is shut down (R409, R410): 0 not at all, 6 SHUTTERED; while it resumes, the entry phase whose state is current. -/
def Power.depth (p : Power) : Nat := if p.phase = 7 then (if p.back = 5 then 6 else p.back) else p.phase

/-- Memory is in self-refresh while the part is SHUTTERED; accesses to it wait (R409). -/
def asleep (s : State) (pa : Nat) : Bool := decide (6 ≤ s.power.depth) && (regionOf pa == .dram || regionOf pa == .cap)

/-- What an access to a physical address waits for: the power sequence, a claimed sg, a mode change of its SRAM bank (R72, R292, R409). -/
def heldAt (s : State) (pa : Nat) : Option Wait :=
  if asleep s pa then some .power
  else
    match claimOf s pa with
    | some w => some w
    | none =>
      if regionOf pa = .sram && (s.sram (sramQuad pa) (sramBankNo pa)).busy then some (.sram (sramQuad pa) (sramBankNo pa)) else none

/-- No store of the part's own can be made at a physical address: a hole, a device register, an SRAM bank that is not in SCRATCH mode
(R293, R378; log 12). -/
def unwritable (s : State) (pa : Nat) : Bool :=
  match regionOf pa with
  | .dram | .cap => false
  | .sram => modeAt s pa != 1
  | .dev | .hole => true

/-- The bytes a to a+n-1 and b to b+m-1 overlap. -/
def overlaps (a n b m : Nat) : Bool := decide (a < b + m) && decide (b < a + n)

/-- Links that a write by another agent leaves valid (R219). `w` is the writing thread's core and bank, if it is one. -/
def keepLink (w : Option (Nat × Nat)) (pa n : Nat) (l : LinkEntry) : Bool :=
  w == some (l.core, l.bank) || !overlaps l.pa l.size pa n

/-- A write of n bytes at pa has broken links (R219). -/
def State.writeLinks (s : State) (w : Option (Nat × Nat)) (pa n : Nat) : State := { s with linked := s.linked.filter (keepLink w pa n) }

/-! ### What a path has taken ahead (R303-R305; log 7) -/

/-- The bytes of a granule taken ahead are older than a write of n bytes at pa: they overlap. -/
def Ahead.meets (x : Ahead) (pa n : Nat) : Bool := overlaps (64 * x.gran) 64 pa n

/-- What stays taken ahead when n bytes at pa are stored on LS. A store of the part's own is a release: nothing stays ahead on LS (R298). A thread's store
comes before every later LS access (R301) and the ROW accesses of its own core (R302). -/
def keepAhead (w : Option (Nat × Nat)) (pa n : Nat) (x : Ahead) : Bool :=
  match w with
  | none => x.path != 0 && !x.meets pa n
  | some t => !x.meets pa n || decide (2 ≤ x.path.toNat) || (x.path == 1 && x.core != t.1)

/-- As `keepAhead`, for a row write: it comes before later LS and ROW accesses of its own core (R302). -/
def keepAheadRow (w : Option (Nat × Nat)) (pa n : Nat) (x : Ahead) : Bool :=
  match w with
  | none => x.path != 0 && !x.meets pa n
  | some t => !x.meets pa n || decide (2 ≤ x.path.toNat) || x.core != t.1

/-- As `keepAhead`, for a write of an engine that works for a core: no LS or ROW access comes after it but by an edge (R305). -/
def keepAheadEng (core pa n : Nat) (x : Ahead) : Bool := !x.meets pa n || decide (x.path.toNat < 2) || x.core != core

/-- Give up what has been taken ahead. -/
def State.dropAhead (s : State) (f : Ahead → Bool) : State := { s with ahead := s.ahead.filter (fun x => !f x) }

/-- The agent's earlier accesses come before its later ones on a path (R304). LS is one order for all (R301): nobody reads on it what is older. -/
def State.orderPath (s : State) (core base : Nat) (p : BitVec 4) : State :=
  s.dropAhead (fun x => if p = 0 then x.path == 0 else x.core == core && x.base == base && x.path == p)

/-- The same for its later accesses on LS and ROW (R153, R161-R163). -/
def State.orderRows (s : State) (core base : Nat) : State := (s.orderPath core base 0).orderPath core base 1

/-- The same on every path. -/
def State.orderAll (s : State) (core base : Nat) : State := s.dropAhead (fun x => x.path == 0 || (x.core == core && x.base == base))

/-- An agent's own LS and ROW accesses to one byte are in program order (R302): what it took ahead on the other path is given up. -/
def State.orderByte (s : State) (core base : Nat) (other : BitVec 4) (pa n : Nat) : State :=
  s.dropAhead (fun x => x.core == core && x.base == base && x.path == other && x.meets pa n)

/-- A byte of an SRAM bank: the byte written since the last change into or out of CACHE, else a free byte (R292). -/
def SramBank.byte (x : SramBank) (off : Nat) : Byte := look (Config.freeByte x.undef off) x.data off

/-- n bytes of an SRAM bank, little-endian. -/
def SramBank.read (x : SramBank) (off : Nat) : Nat → Nat
  | 0 => 0
  | n + 1 => (x.byte off).toNat + 256 * x.read (off + 1) n

/-- The written bytes of an SRAM bank after a store of n bytes. -/
def sramWrite (t : Table Byte) (off v : Nat) : Nat → Table Byte
  | 0 => t
  | n + 1 => sramWrite (put t off (BitVec.ofNat 8 v)) (off + 1) (v / 256) n

/-- Read n bytes, little-endian. -/
def State.peek (s : State) (pa n : Nat) : Nat :=
  if regionOf pa = .sram then (s.sram (sramQuad pa) (sramBankNo pa)).read (pa % 0x40000) n else readLE s.mem pa n

/-- Write n bytes, little-endian; links of other threads over them are lost (R219). -/
def State.poke (s : State) (w : Option (Nat × Nat)) (pa v n : Nat) : State :=
  let s1 :=
    if regionOf pa = .sram then
      let x := s.sram (sramQuad pa) (sramBankNo pa)
      s.setSram (sramQuad pa) (sramBankNo pa) { x with data := sramWrite x.data (pa % 0x40000) v n }
    else { s with mem := writeLE s.mem pa v n }
  { s1 with linked := s1.linked.filter (keepLink w pa n), ahead := s1.ahead.filter (keepAhead w pa n) }

/-- Write bytes given one by one. -/
def State.pokeBytes (s : State) (w : Option (Nat × Nat)) (pa : Nat) : List Byte → State
  | [] => s
  | b :: bs => State.pokeBytes (s.poke w pa b.toNat 1) w (pa + 1) bs

/-- Replace n bytes by an image at offsets from pa. -/
def State.pokeImage (s : State) (w : Option (Nat × Nat)) (pa n : Nat) (img : Table Byte) : State :=
  { s with mem := paste s.mem pa n img, linked := s.linked.filter (keepLink w pa n), ahead := s.ahead.filter (keepAheadRow w pa n) }

/-- The granule of a physical address as an agent's path took it ahead. -/
def State.aheadAt (s : State) (core base : Nat) (path : BitVec 4) (pa : Nat) : Option Nat :=
  (s.ahead.find? (fun x => x.core == core && x.base == base && x.path == path && x.gran == pa / 64)).map (·.bytes)

/-- n bytes, within one granule, as an agent's path sees them: as it took them ahead, else as memory holds them (R303, R305). -/
def State.sees (s : State) (core base : Nat) (path : BitVec 4) (pa n : Nat) : Nat :=
  match s.aheadAt core base path pa with
  | some v => v / 256 ^ (pa % 64) % 256 ^ n
  | none => s.peek pa n

/-- As the agent in focus sees them on LS. -/
def State.lsSees (s : State) (pa n : Nat) : Nat := s.sees s.focus.core s.focus.base 0 pa n

/-- The bytes of a row from pa, with the granules that a path took ahead as it took them. -/
def State.rowSeen (s : State) (core base : Nat) (pa : Nat) (t : Table Byte) : Table Byte :=
  s.ahead.foldr (fun x t =>
    if x.core == core && x.base == base && x.path == 1 && x.gran / 64 == pa / 4096 then
      (List.range 64).foldl (fun t k => putByte t (64 * (x.gran % 64) + k) (BitVec.ofNat 8 (x.bytes / 256 ^ k))) t
    else t) t

/-- The granule of a physical address is poisoned (R350). -/
def State.poisonAt (s : State) (pa : Nat) : Bool := look false s.poison (pa / 64)

/-- One of n bytes is poisoned. -/
def State.poisoned (s : State) (pa n : Nat) : Bool := s.poisonAt pa || s.poisonAt (pa + n - 1)

def State.setPoison (s : State) (pa : Nat) (v : Bool) : State := { s with poison := put s.poison (pa / 64) v }

/-- n free bytes as a number (log 5). -/
def freeNumber (i : Nat) (a : Nat) : Nat → Nat
  | 0 => 0
  | n + 1 => (Config.freeByte i a).toNat + 256 * freeNumber i (a + 1) n

end Sys2Proof.Machine
end

