-- ==== Sys2Proof/Machine/Panes.lean ====
section
/-! DEFINITION. Sys2Proof/Machine/Panes.lean: what happens to panes and shutter slots (R65-R78): ready or not, parked and
reopened, shut, closed, filled from and written to rows. Every transition begins here and ends in an event. -/

namespace Sys2Proof.Machine

/-- The open state of an image (R175). -/
def PaneImage.openState (i : PaneImage) : PaneState := if i.dirty then .openDirty else .openClean

/-- The image that a pane holds, or will hold when its transition ends. -/
def Pane.final (p : Pane) : PaneImage := p.next.getD p.img

/-- A pane holds content: open or being written. -/
def Pane.isOpen (p : Pane) : Bool := p.st == .openClean || p.st == .openDirty || p.st == .writing

/-- A pane holds content or will when its transition ends. -/
def Pane.holds (p : Pane) : Bool := p.isOpen || p.st == .opening

/-- What a lane, mullion, matrix or row use of a pane meets (R67). -/
inductive PaneAnswer where
  | ready | waits | closed
deriving DecidableEq, Repr

/-- R67 for a use that reads or writes an unparked pane. -/
def Pane.answer (p : Pane) (write : Bool) : PaneAnswer :=
  match p.st with
  | .closed | .closing => .closed
  | .opening => .waits
  | .openClean | .openDirty => if write && p.pins != 0 then .waits else .ready
  | .writing => if write then .waits else .ready

/-- Shut a pane's image to a slot (R175): the slot's owner stays as it is. -/
def Bank.shutImage (b : Bank) (n k : Nat) : Bank :=
  b.setSlot n k { b.slot n k with img := some (b.pane n).img }

/-- Keep in a slot what a pane holds, or will hold when its transition ends. -/
def Bank.keepImage (b : Bank) (n k : Nat) : Bank := b.setSlot n k { b.slot n k with img := some (b.pane n).final }

/-- Park a pane in slot 5 (R73): its content, binding and dirty state go there and the sg closes. -/
def Bank.parkPane (b : Bank) (n : Nat) : Bank :=
  (b.shutImage n 5).setPane n { b.pane n with st := (b.pane n).img.openState, after := (b.pane n).img.openState, park := true }

/-- Reopen a parked pane from slot 5 (R74). -/
def Bank.unparkPane (b : Bank) (n : Nat) : Bank :=
  let img := ((b.slot n 5).img).getD (b.pane n).img
  b.setPane n { b.pane n with st := img.openState, after := img.openState, img := img, park := false, back := false }

/-- A pane closed: nothing held, nothing bound (R67, R172). -/
def Bank.closePane (b : Bank) (n : Nat) : Bank := b.setPane n Pane.empty

/-- Close panes one after another. -/
def Bank.closePanes (b : Bank) : List Nat → Bank
  | [] => b
  | n :: ns => Bank.closePanes (b.closePane n) ns

/-- Every pane CLOSED, without write-back (R123, R279). -/
def Bank.closeAll (b : Bank) : Bank := { b with panes := [] }

/-- Mark the pane written by lanes or mullion (R67). -/
def Pane.dirtied (p : Pane) : Pane :=
  if p.st == .openClean || p.st == .openDirty then { p with st := .openDirty, img := { p.img with dirty := true } }
  else { p with img := { p.img with dirty := true } }

/-- A byte of a pane. -/
def PaneImage.byte (i : PaneImage) (k : Nat) : Byte := look 0 i.data k

/-- The poison of a granule after n half-bytes from number h are written: gone when all of its 128 have been (R350). -/
def coverPoison (t : Table (Option (BitVec 128))) (h n : Nat) : Table (Option (BitVec 128)) :=
  match look none t (h / 128) with
  | none => t
  | some cov =>
    let cov' := cov ||| ((2 ^ n - 1) <<< (h % 128))
    put t (h / 128) (if cov' = BitVec.allOnes 128 then none else some cov')

/-- Write a byte of a pane. -/
def PaneImage.setByte (i : PaneImage) (k : Nat) (v : Byte) : PaneImage :=
  { i with data := putByte i.data k v, poison := coverPoison i.poison (2 * k) 2 }

/-- Write one half of a byte of a pane, the low one for an even number (R213). -/
def PaneImage.setHalf (i : PaneImage) (h v : Nat) : PaneImage :=
  let old := (i.byte (h / 2)).toNat
  { i with
    data := putByte i.data (h / 2) (BitVec.ofNat 8 (if h % 2 = 0 then old / 16 * 16 + v % 16 else old % 16 + v % 16 * 16))
    poison := coverPoison i.poison h 1 }

/-- A granule of a pane is poisoned (R350). -/
def PaneImage.poisonAt (i : PaneImage) (k : Nat) : Bool := (look none i.poison (k / 64)).isSome

/-- Poison of the granules of a row, as a pane's poison. -/
def rowPoison (s : State) (pa : Nat) : Nat → Table (Option (BitVec 128))
  | 0 => []
  | n + 1 => rowPoison s pa n ++ (if s.poisonAt (pa + 64 * n) then [(n, some 0)] else [])

/-- The content of a row (R169): its bytes and its poison. -/
def rowImage (s : State) (pa : Nat) : Table Byte × Table (Option (BitVec 128)) := (slice s.mem pa 4096, rowPoison s pa 64)

/-- Carry poison to the granules of a row: a granule written whole from clean bytes is clean (R177, R350). -/
def State.carryPoison (s : State) (pa : Nat) (p : Table (Option (BitVec 128))) : Nat → State
  | 0 => s
  | n + 1 => (State.carryPoison s pa p n).setPoison (pa + 64 * n) (look none p n).isSome

/-- Write an image to a row on the ROW path (R171). -/
def State.writeRow (s : State) (w : Option (Nat × Nat)) (pa : Nat) (i : PaneImage) : State :=
  (s.pokeImage w pa 4096 i.data).carryPoison pa i.poison 64

/-- A pane image of 4,096 free bytes (R77). -/
def freeImage (i : Nat) : Table Byte :=
  (List.range 4096).filterMap (fun k => if Config.freeByte i k = 0 then none else some (k, Config.freeByte i k))

/-- Evict the pane of an sg (R73): a pinned pane stays; a transition in progress stays; the counter counts; those that wait are
served next, in order of arrival. -/
def State.evict (s : State) (c b n : Nat) : State :=
  let p := s.pane c b n
  if p.isOpen && p.st != .writing && p.pins == 0 && !p.park then
    let s1 := (s.modBank c b (fun x => x.parkPane n)).modCore c (fun x => { x with evict := x.evict + 1 })
    { s1 with waits := { s1.waits with
      serving := s1.waits.serving ++ (s1.waits.arrivals.filter (fun x => x.1 == (c, b, n))).map (·.2) } }
  else s

/-- A pane is in no transition, and no parked one is busy. -/
def Pane.settled (p : Pane) : Bool := !(p.st == .opening || p.st == .writing || p.st == .closing || (p.park && p.busy))

/-- A row command of a pane's owner that waits at issue, and whose interlocks for this pane are met, begins before an eviction (R178): one that
has begun in other banks waits for this one alone; one that has begun nowhere begins when every pane of its sg is settled and unpinned. -/
def State.commandFirst (s : State) (core bank sg : Nat) : Option Agent :=
  (s.agentOfBank core bank).bind (fun a =>
    let p := s.part a
    let names :=
      match p.wait with
      | some (.pane c _ n) => c == core && n == sg
      | some (.pin c _ n) => c == core && n == sg
      | _ => false
    let met :=
      if p.begun != 0 then !p.begun.getLsbD bank && (s.pane core bank sg).settled
      else (banksOf p.active).all (fun b => (s.pane core b sg).settled && (s.pane core b sg).pins == 0)
    if names && met && ((p.convoy.map (fun c => c.elems.isEmpty)).getD false) then some a else none)

/-- An eviction that comes due (R73): a command that can begin does so first (R178). -/
def State.evictNext (s : State) (core bank sg : Nat) : State :=
  match s.commandFirst core bank sg with
  | some a => s.resume a
  | none => s.evict core bank sg

/-- A slot's owner is a task. -/
def Owner.isTask (o : Owner) (l t : Nat) : Bool := o == .user l t || o == .saved l t

/-- Free every slot a task owns in a bank (R78). -/
def Bank.freeSlots (b : Bank) (l t : Nat) : Bank :=
  { b with slots := b.slots.map (fun p => if p.2.owner.isTask l t then (p.1, Slot.empty) else p) }

end Sys2Proof.Machine
end

