-- ==== Sys2Proof/Machine/Log.lean ====
section
/-! DEFINITION. Sys2Proof/Machine/Log.lean: appending to the error log (R418, R419) and the log's addresses. -/

namespace Sys2Proof.Machine

/-- The planes of a record (R418). -/
def planeData : BitVec 8 := 0
def planeControl : BitVec 8 := 1
def planeMgmt : BitVec 8 := 2

/-- LOC of a record: core (or link, sill), bank, sg (R418). -/
def locOf (core bank sg : Nat) : BitVec 32 := BitVec.ofNat 32 (core % 2 ^ 16 + bank % 16 * 2 ^ 16 + sg % 16 * 2 ^ 20)

/-- HEALTH takes the worst state whose condition has held (R422). -/
def State.raiseHealth (s : State) (h : BitVec 2) : State :=
  { s with log := { s.log with health := if s.log.health.toNat < h.toNat then h else s.log.health } }

/-- What a record says of HEALTH (R422). -/
def healthOf (r : ErrRec) : BitVec 2 := if r.sev = 3 then 2 else if r.sev = 2 && (r.typ == 0x02 || r.typ == 0x07) then 1 else 0

/-- Append a record (R418, R419): the ring keeps 4,096, an overwritten record not yet exported counts as dropped. -/
def State.appendRec (s : State) (r : ErrRec) : State :=
  let g := s.log
  let lost := g.seq ≥ g.exported + 4096
  { s with log := { g with
    recs := put g.recs (g.seq % 4096) (some { r with seq := g.seq % 2 ^ 32, time := s.ns })
    seq := g.seq + 1
    drop := if lost then g.drop + 1 else g.drop } }

/-- The record of an event word that cannot be written (R378, R418). -/
def lostEvent (loc : BitVec 32) (addr : Nat) : ErrRec :=
  { seq := 0, typ := 0x0C, sev := 0, plane := planeControl, time := 0, loc := loc, cause := 0, addr := BitVec.ofNat 64 addr, index := 0, detail := 0 }

/-! ## The part's own stores (R72, R298, R378) -/

/-- The address that a store of the part's own names. -/
def Posted.addr : Posted → Nat
  | .flag _ _ va _ => va
  | .event _ _ va _ => va
  | .word _ va _ _ => va
  | .count pa => pa
  | .place pa _ _ => pa

/-- A store waits its turn behind one to the same address. -/
def State.postedAt (s : State) (a : Nat) : Bool := s.waits.posted.any (fun p => p.addr == a)

/-- Keep a store until it can perform. -/
def State.keepPosted (s : State) (p : Posted) : State := { s with waits := { s.waits with posted := s.waits.posted ++ [p] } }

/-- Add one to a COUNT word, unless it must wait: old value + 1 at the word's home, or the record of R378. -/
def State.tryCount (s : State) (pa : Nat) : Option State :=
  match heldAt s pa with
  | some _ => none
  | none => some (if unwritable s pa then s.appendRec (lostEvent 0 pa) else s.poke none pa (s.peek pa 8 + 1) 8)

/-- Add one to the doubleword of a COUNT event word, with release order; address 0 is none (R295, R378). -/
def State.bumpEvent (s : State) (pa : Nat) : State :=
  if pa = 0 then s
  else if s.postedAt pa then s.keepPosted (.count pa)
  else (s.tryCount pa).getD (s.keepPosted (.count pa))

/-- Append a record; SEV 2 and above raises ELEVT (R419), and HEALTH follows (R422). -/
def State.logRec (s : State) (r : ErrRec) : State :=
  (if 2 ≤ r.sev.toNat then (s.appendRec r).bumpEvent s.log.evt.toNat else s.appendRec r).raiseHealth (healthOf r)

/-- A record with the fields of the part's own events. -/
def State.logError (s : State) (typ sev plane : BitVec 8) (loc cause : BitVec 32) (addr index : Word) : State :=
  s.logRec { seq := 0, typ := typ, sev := sev, plane := plane, time := 0, loc := loc, cause := cause, addr := addr, index := index, detail := 0 }

/-- The address of record number n (R419). -/
def recordPa (n : Nat) : Nat := 0xFF000A080000 + 64 * (n % 4096)

end Sys2Proof.Machine
end

