-- ==== Sys2Proof/Machine/Xlate.lean ====
section
/-! DEFINITION. Sys2Proof/Machine/Xlate.lean: translation (R285-R290, R373-R375), the replica's view (R329), and the
checks of a scalar access in the order of R148. -/

namespace Sys2Proof.Machine

/-- The result of a check: a value, a failure with the place of its check in the order and its cause, or a wait. -/
inductive Res (α : Type) where
  | ok (a : α)
  | bad (ord : Nat) (cause : BitVec 8)
  | wait (w : Wait)
deriving Repr

def Res.andThen {α β : Type} (r : Res α) (f : α → Res β) : Res β :=
  match r with
  | .ok a => f a
  | .bad o c => .bad o c
  | .wait w => .wait w

/-- What an access asks of its page. `place`: only that the page is valid for a user (R267). -/
inductive Need where
  | read | write | fetch | place
deriving DecidableEq, Repr

/-- Where an address leads: the physical address, the peer (0 local), whether through the quad scratch window, the leaf's write permission
and its home-atomic attribute (R157). -/
structure Spot where
  pa : Nat
  peer : Nat
  window : Bool
  wperm : Bool
  ha : Bool
deriving DecidableEq, Repr

/-! ## Page-table entries (R375) -/

def pteV (e : Word) : Bool := e.getLsbD 0
def pteR (e : Word) : Bool := e.getLsbD 1
def pteW (e : Word) : Bool := e.getLsbD 2
def pteX (e : Word) : Bool := e.getLsbD 3
def pteU (e : Word) : Bool := e.getLsbD 4
def pteLeaf (e : Word) : Bool := e.getLsbD 5
def pteHa (e : Word) : Bool := e.getLsbD 6
def pteMv (e : Word) : Bool := e.getLsbD 48
def ptePeer (e : Word) : Nat := (e.extractLsb' 8 8).toNat
def ptePpn (e : Word) : Nat := (e.extractLsb' 16 32).toNat * 2 ^ 16
def pteNext (e : Word) : Nat := (e.extractLsb' 12 36).toNat * 2 ^ 12
/-- A reserved bit is set: bit 7, bits 63-49; in a pointer also PEER below NEXT (log 11). -/
def pteRes0 (e : Word) : Bool := e.getLsbD 7 || e.extractLsb' 49 15 != 0 || (!pteLeaf e && e.extractLsb' 8 4 != 0)

/-- A leaf target breaks R286 or R287 or is a hole (R285); a peer leaf is asked for its alignment only (R290). -/
def leafBad (big : Bool) (va : Nat) (e : Word) : Bool :=
  let pa := ptePpn e
  if big && pa % 2 ^ 25 != 0 then true
  else if ptePeer e != 0 then false
  else
    match regionOf pa with
    | .dram => big
    | .cap => isRetention pa || (!big && decide (va / 2 ^ 24 % 16 ≤ 11) && pa / 2 ^ 24 % 16 != va / 2 ^ 24 % 16)
    | .sram => false
    | .dev => big
    | .hole => true

/-- The index bits of a level (R375). -/
def ptIndex (level va : Nat) : Nat :=
  match level with
  | 0 => va / 2 ^ 43
  | 1 => va / 2 ^ 34 % 512
  | 2 => va / 2 ^ 25 % 512
  | _ => va / 2 ^ 16 % 512

/-- Walk `fuel` more levels from a table: the leaf entry and whether it maps 32 MiB. An entry in a claimed sg is waited for (R72, R375). -/
def walkFrom (s : State) (va : Nat) : Nat → Nat → Nat → Res (Word × Bool)
  | 0, _, _ => .bad 3 0x10
  | fuel + 1, level, table =>
    let pa := table + 8 * ptIndex level va
    match heldAt s pa with
    | some w => .wait w
    | none =>
      let e : Word := BitVec.ofNat 64 (s.peek pa 8)
      if pteMv e then .wait (.moving pa)
      else if !pteV e || pteRes0 e then .bad 3 0x10
      else if pteLeaf e then
        if level < 2 || (pteW e && !pteR e) || leafBad (level == 2) va e then .bad 3 0x10 else .ok (e, level == 2)
      else if level = 3 then .bad 3 0x10
      else walkFrom s va fuel (level + 1) (pteNext e)

/-- ASID and ROOT (R373). -/
def ptbrAsid (p : Word) : BitVec 4 := p.extractLsb' 4 4
def ptbrRoot (p : Word) : Nat := (p.extractLsb' 16 32).toNat * 2 ^ 16

/-- The quad whose translation cache serves a core. -/
def tlbQuad (core : Nat) : Nat := if core < 1536 then core / 4 else core - 1152

/-- The leaf of an address: a translation-cache entry that holds it, or a walk (R289). -/
def findLeaf (s : State) (c : Ctx) (va : Nat) : Res (Word × Bool) :=
  match (s.quad (tlbQuad c.core)).tlb.find?
      (fun t => t.asid == ptbrAsid c.ptbr && t.va == va / (if t.big then 2 ^ 25 else 2 ^ 16) * (if t.big then 2 ^ 25 else 2 ^ 16)) with
  | some t => .ok (t.leaf, t.big)
  | none => walkFrom s va 4 0 (ptbrRoot c.ptbr)

/-- The permission a leaf gives. -/
def permits (c : Ctx) (need : Need) (e : Word) : Bool :=
  (c.sup || pteU e) &&
    (match need with
     | .read => pteR e
     | .write => pteW e
     | .fetch => pteX e
     | .place => true)

/-- The replica's view of a page (R329). -/
def viewOf (c : Ctx) (va : Nat) : Option ViewPage := c.view.find? (fun v => v.page == va / 2 ^ 16)

def windowBase : Nat := 0xFFFFFFFF800000
def directBase : Nat := 0xFE000000000000

/-- Translation and permission (R148 checks 1 and 3, R288, R373). -/
def translate (s : State) (c : Ctx) (need : Need) (va : Nat) : Res Spot :=
  if 2 ^ 56 ≤ va then .bad 1 0x10
  else if windowBase ≤ va then
    if c.isCC then .bad 3 0x10
    else
      let off := va - windowBase
      let held := (s.sram (c.core / 4) (off / 0x40000)).holder
      let other := (held.map (fun h => (s.seatAt h.1 h.2).launch != c.launch)).getD false
      if other then .bad 3 0x11 else .ok ⟨sramPa (c.core / 4) 0 + off, 0, true, true, false⟩
  else if directBase ≤ va ∧ va < directBase + 2 ^ 48 then
    if !c.sup || isRetention (va - directBase) then .bad 3 0x11
    else if regionOf (va - directBase) = .hole then .bad 3 0x10
    else .ok ⟨va - directBase, 0, false, true, false⟩
  else if c.isCC && !c.ptbr.getLsbD 0 then
    if 2 ^ 48 ≤ va || regionOf va == .hole || isRetention va then .bad 3 0x10 else .ok ⟨va, 0, false, true, false⟩
  else
    (findLeaf s c va).andThen fun r =>
      let e := r.1
      if !permits c need e then .bad 3 0x11
      else
        let pa := if r.2 then ptePpn e + va % 2 ^ 25 else ptePpn e + va % 2 ^ 16
        match (if need = .fetch then none else viewOf c va) with
        | some v =>
          if need = .write ∧ v.role = 1 then .bad 3 0x11
          else .ok ⟨v.stripe + va % 2 ^ 16, 0, false, v.role != 1, pteHa e⟩
        | none => .ok ⟨pa, ptePeer e, false, pteW e, pteHa e⟩

/-! ## Contexts -/

/-- The context of an agent. -/
def ctxOf (s : State) (a : Agent) : Ctx :=
  let t := s.seat a
  { core := a.core, isCC := t.isCC, sup := t.status.lvl, ptbr := t.ptbr, launch := t.launch
    view := (t.red.map (·.view)).getD [] }

/-! ## Declared outputs (R330) -/

/-- A byte address lies in a declared out or inout region. -/
def declaredOut (r : Replica) (va : Nat) : Bool :=
  r.regions.any (fun g => (g.role == 2 || g.role == 3) && decide (g.base ≤ va) && decide (va < g.base + g.len))

/-- n bytes from va all lie in declared outputs. -/
def declaredAll (r : Replica) (va : Nat) : Nat → Bool
  | 0 => true
  | n + 1 => declaredOut r va && declaredAll r (va + 1) n

/-- A physical address lies in the seat's own SRAM grant. -/
def ownSram (t : Seat) (core pa : Nat) : Bool :=
  regionOf pa == .sram && sramQuad pa == core / 4 && t.sram.contains (sramBankNo pa)

/-- R330: a write by a replica that its declared regions do not cover. -/
def undisciplined (t : Seat) (core va pa n : Nat) : Bool :=
  match t.red with
  | none => false
  | some r => !ownSram t core pa && !declaredAll r va n

/-! ## The checks of R148 -/

/-- What an access is: its bytes, whether it writes, is an atomic or a stack access, is held to the declared outputs, is
made by a vector instruction (which no device page serves, R213), or by an await. -/
structure Access where
  n : Nat
  write : Bool
  amo : Bool
  stack : Bool
  disc : Bool
  vec : Bool
  await : Bool
deriving DecidableEq, Repr

/-- Checks 1 to 6 of R148, with that of R330 after the third, for one bank. -/
def checkAccess (s : State) (c : Ctx) (t : Seat) (x : Access) (va : Nat) : Res Spot :=
  if 2 ^ 56 ≤ va then .bad 1 0x10
  else if va % x.n ≠ 0 then .bad 2 0x12
  else
    (translate s c (if x.write then .write else .read) va).andThen fun p =>
        if x.write && x.disc && undisciplined t c.core va p.pa x.n then .bad 4 0x2A
        else if p.peer ≠ 0 then .bad 5 0x16
        else if asleep s p.pa then .wait .power
        else if regionOf p.pa = .sram then
          if (s.sram (sramQuad p.pa) (sramBankNo p.pa)).busy then .wait (.sram (sramQuad p.pa) (sramBankNo p.pa))
          else if modeAt s p.pa = 0 || ((x.amo || x.await) && modeAt s p.pa == 2) || (x.stack && (modeAt s p.pa != 1 || !ownSram t c.core p.pa)) then .bad 6 0x13
          else .ok p
        else if regionOf p.pa = .dev && (x.amo || x.vec) then .bad 7 0x11
        else .ok p

/-- The address form of tval (R148): VA in [55:0], the bank in [59:56]. -/
def addrTval (va bank : Nat) : Word := BitVec.ofNat 64 (va % 2 ^ 56 + bank % 16 * 2 ^ 56)

/-- The checks of a scalar access over the banks: the failure of the earliest check, among its banks the lowest; else a
wait; else the spots (R148, R149). -/
def worst (acc : Option (Nat × BitVec 8 × Word)) (ord : Nat) (cause : BitVec 8) (v : Word) : Option (Nat × BitVec 8 × Word) :=
  match acc with
  | some (o, c, w) => if ord < o then some (ord, cause, v) else some (o, c, w)
  | none => some (ord, cause, v)

end Sys2Proof.Machine
end

