-- ==== Sys2Proof/Machine/Sched.lean ====
section
/-! DEFINITION. Sys2Proof/Machine/Sched.lean: how operations, tasks, seats and launches end (R279-R283, R315-R322): one
operation each, used by every instruction and event that ends one. -/

namespace Sys2Proof.Machine

/-! ## Handles and the op table (R222, R315) -/

def handleOf (i : Nat) (gen : BitVec 8) : BitVec 32 := gen ++ 0#9 ++ BitVec.ofNat 15 i
def entryOf (h : BitVec 32) : Nat := (h.extractLsb' 0 15).toNat
def genOf (h : BitVec 32) : BitVec 8 := h.extractLsb' 24 8

/-- The handle names a live entry of its generation (R222). -/
def State.liveHandle (s : State) (h : BitVec 32) : Bool := (s.op (entryOf h)).live && (s.op (entryOf h)).gen == genOf h

/-- The operation's handle. -/
def ChildOp.handle (o : ChildOp) (i : Nat) : BitVec 32 := handleOf i o.gen

def OpState.terminal : OpState → Bool
  | .done | .faulted | .cancelled => true
  | .pending | .running | .paused => false

/-- The state codes of R223. -/
def OpState.code : OpState → Nat
  | .pending => 0
  | .running => 1
  | .paused => 2
  | .done => 3
  | .faulted => 4
  | .cancelled => 5

/-- The classes of R225. -/
inductive OpClass where
  | cp | co | re | ga | nm | mx | ts
deriving DecidableEq, Repr

def OpKind.cls : OpKind → OpClass
  | .cpy .. | .cpy2d .. => .cp
  | .rsct .. | .coll .. => .co
  | .red .. => .re
  | .gath .. => .ga
  | .nmo .. => .nm
  | .mmma .. | .mdrain .. => .mx
  | .tspawn .. | .launch .. => .ts

/-- The path code of a class (R109, R247); 15 for TS. -/
def OpClass.path : OpClass → BitVec 4
  | .mx => 3
  | .cp => 4
  | .ga => 5
  | .re => 6
  | .co => 7
  | .nm => 8
  | .ts => 15

/-- An entry is freed at the first moment that R315 names. One of a control core, which belongs to no launch (R248), is freed when its
operation ends (log 27). -/
def ChildOp.settle (o : ChildOp) : ChildOp :=
  if 1536 ≤ o.core && o.st.terminal then { o with live := false }
  else if o.holders == 0 && o.mirrors == 0 && ((!o.detached && (o.st == .done || o.st == .cancelled)) || (o.st == .faulted && o.acked)) then
    { o with live := false }
  else o

/-- Replace an entry, freeing it when due. -/
def State.putOp (s : State) (i : Nat) (o : ChildOp) : State := s.setOp i o.settle

/-! ## Waking (R405) -/

/-- The cores of a stack (R2). -/
def stackCores (k : Nat) : List Nat := upFrom (k * 192) 192

/-- The exit of a unit starts (R405): a core's, or its whole stack's. -/
def State.wakeUnit (s : State) (core : Nat) : State :=
  match (s.core core).power with
  | .run => s
  | .nap => (stackCores (core / 192)).foldl (fun s c => s.modCore c (fun x => { x with waking := true })) s
  | _ => s.modCore core (fun x => { x with waking := true })

/-! ## The launch's memory (R260, R262, R280, R283) -/

/-- The context of a launch's own accesses. -/
def launchCtx (n : Nat) (l : Launch) : Ctx := ⟨0, false, l.sup, l.ptbr, n, []⟩

/-- Where a store at a virtual address leads: its physical address, none when no store can be made there, or what it waits for. -/
def storePa (s : State) (c : Ctx) (va : Nat) : Res (Option Nat) :=
  match translate s c .write va with
  | .wait w => .wait w
  | .bad _ _ => .ok none
  | .ok p =>
    if p.peer ≠ 0 then .ok none
    else
      match heldAt s p.pa with
      | some w => .wait w
      | none => .ok (if unwritable s p.pa then none else some p.pa)

/-- n bytes at a virtual address that the part reads for its own use, lowest first; none where they cannot be read. -/
def bytesVa (s : State) (c : Ctx) (va : Nat) : Nat → Res (Option (List Byte))
  | 0 => .ok (some [])
  | n + 1 =>
    match translate s c .read va with
    | .wait w => .wait w
    | .bad _ _ => .ok none
    | .ok p =>
      if p.peer ≠ 0 then .ok none
      else
        match heldAt s p.pa with
        | some w => .wait w
        | none =>
          if unwritable s p.pa || s.poisonAt p.pa then .ok none
          else (bytesVa s c (va + 1) n).andThen (fun r => .ok (r.map (BitVec.ofNat 8 (s.peek p.pa 1) :: ·)))

/-- The word whose bytes are given, lowest first. -/
def wordOf (bs : List Byte) : Nat := bs.foldr (fun b x => b.toNat + 256 * x) 0

/-- What a store of the part's own waits for. -/
def postedWait (s : State) (p : Posted) : Option Wait :=
  match p with
  | .flag c _ va _ => match bytesVa s c va 8 with | .wait w => some w | _ => none
  | .event c _ va _ => match storePa s c va with | .wait w => some w | _ => none
  | .word c va _ _ => match storePa s c va with | .wait w => some w | _ => none
  | .count pa => heldAt s pa
  | .place pa _ _ => heldAt s pa

/-- Perform a store of the part's own, unless it must wait. A word that cannot be written is not; an event word then leaves its record
(R378). An event word is the doubleword that holds the address (log 12). -/
def State.tryPosted (s : State) (p : Posted) : Option State :=
  match p with
  | .flag c loc va v =>
    match bytesVa s c va 8 with
    | .wait _ => none
    | .ok (some bs) => some (if wordOf bs = 0 then s else s.keepPosted (.event c loc (wordOf bs) v))
    | _ => some s
  | .event c loc va v =>
    match storePa s c va with
    | .wait _ => none
    | .ok (some pa) => some (s.poke none (pa / 8 * 8) v 8)
    | _ => some (s.appendRec (lostEvent loc va))
  | .word c va v n =>
    match storePa s c va with
    | .wait _ => none
    | .ok (some pa) => some (s.poke none pa v n)
    | _ => some s
  | .count pa => s.tryCount pa
  | .place pa m free =>
    match heldAt s pa with
    | some _ => none
    | none =>
      let old : Byte := BitVec.ofNat 8 (s.peek pa 1)
      some (s.poke none pa (if free then old ||| BitVec.ofNat 8 m else old &&& ~~~(BitVec.ofNat 8 m)).toNat 1)

/-- The launch for which a store of the part's own is made; none for a counter and a bitmap. -/
def Posted.launch : Posted → Option Nat
  | .flag c _ _ _ => some c.launch
  | .event c _ _ _ => some c.launch
  | .word c _ _ _ => some c.launch
  | .count _ => none
  | .place _ _ _ => none

/-- A store of the part's own stands behind one before it: to the same address, or with release order behind the others of its launch (R283,
R298). -/
def Posted.behind (p q : Posted) : Bool := p.addr == q.addr || (p.launch.isSome && p.launch == q.launch)

/-- Make a store of the part's own: at once, or when what it waits for is over (R72). -/
def State.post (s : State) (p : Posted) : State :=
  if s.waits.posted.any p.behind then s.keepPosted p else (s.tryPosted p).getD (s.keepPosted p)

/-- Perform a kept store; none while one before it stands, or while it must wait. -/
def State.performPosted (s : State) (p : Posted) : Option State :=
  if (s.waits.posted.takeWhile (· != p)).any p.behind then none
  else ({ s with waits := { s.waits with posted := s.waits.posted.erase p } } : State).tryPosted p

/-- The first kept store that can perform. -/
def State.nextPosted (s : State) : Option State := s.waits.posted.findSome? s.performPosted

/-- Store at a virtual address of a launch; an address that does not translate is not written (log 12). -/
def State.storeVa (s : State) (c : Ctx) (va v n : Nat) : State := s.post (.word c va v n)

/-- Write a STATE event word (R378). -/
def State.storeEvent (s : State) (c : Ctx) (loc : BitVec 32) (va v : Nat) : State := s.post (.event c loc va v)

/-- Write a fault to the launch fault record (R280). -/
def State.recordFault (s : State) (ln : Nat) (cause : BitVec 8) (kind task : Nat) (addr : Word) (index : Nat) : State :=
  match s.launch? ln with
  | none => s
  | some l =>
    let c := launchCtx ln l
    let at0 := l.frec.toNat + 32 * l.fcount
    let s1 :=
      if l.fcount < l.fcap ∧ l.frec ≠ 0 then
        (((s.storeVa c at0 (cause.toNat + 256 * kind + 2 ^ 32 * task) 8).storeVa c (at0 + 8) addr.toNat 8).storeVa c
          (at0 + 16) index 8).storeVa c (at0 + 24) s.ns 8
      else s
    let s2 := if l.fcountVa = 0 then s1 else s1.storeVa c l.fcountVa.toNat (l.fcount + 1) 4
    s2.modLaunch ln (fun x => { x with fcount := l.fcount + 1 })

/-! ## Ending operations -/

/-- Unpin the panes of an mmma (R240): its groups in every bank of its seat. -/
def Bank.unpin (b : Bank) : List Nat → Bank
  | [] => b
  | n :: ns => Bank.unpin (b.setPane n { b.pane n with pins := (b.pane n).pins - 1 }) ns

def Bank.pin (b : Bank) : List Nat → Bank
  | [] => b
  | n :: ns => Bank.pin (b.setPane n { b.pane n with pins := (b.pane n).pins + 1 }) ns

/-- The panes an mmma pins (R240); none for another operation. -/
def OpKind.panes : OpKind → List Nat
  | .mmma _ wa wb ga gb _ => upFrom wa ga ++ upFrom wb gb
  | _ => []

/-- The operation's issuing task still has its seat. -/
def opSeated (s : State) (o : ChildOp) : Bool :=
  ((s.seat? o.core o.base).map (fun t => t.launch == o.launch && t.task == o.task)).getD false

/-- The size, as a power of two, and LCAP of the sash whose panes a matrix operation reads: its seat's, or those an orphan keeps (R322). -/
def opSash (s : State) (o : ChildOp) : Nat × Nat :=
  if opSeated s o then ((s.seatAt o.core o.base).log2s, (s.seatAt o.core o.base).lcap) else o.orphan.getD (0, 12)

/-- The banks of that sash; none when the seat is gone and the operation keeps no panes. -/
def opBanks (s : State) (o : ChildOp) : List Nat :=
  if opSeated s o || o.orphan.isSome then upFrom o.base (2 ^ (opSash s o).1) else []

/-- Panes of a RUNNING mmma are unpinned when it stops. -/
def State.unpinOp (s : State) (o : ChildOp) : State :=
  if o.st == .running then s.modBanks o.core (fun _ b => b.unpin o.kind.panes) (opBanks s o) else s

def State.pinOp (s : State) (o : ChildOp) : State := s.modBanks o.core (fun _ b => b.pin o.kind.panes) (opBanks s o)

/-- The panes that an orphan kept open close with it (R279, R322). -/
def State.closeOrphan (s : State) (o : ChildOp) : State :=
  if o.orphan.isSome then s.modBanks o.core (fun _ b => b.closePanes (o.kind.panes.filter (fun n => (b.pane n).pins == 0))) (opBanks s o) else s

/-- A follower's own performance of a local operation: its fault is the leader's to record (R320, R330). -/
def State.followsOp (s : State) (o : ChildOp) : Bool :=
  opSeated s o && (((s.seatAt o.core o.base).red.map (fun r => !(r.performer || r.lead))).getD false)

/-- The context of an operation's accesses (R224, R288): that of its seat. -/
def opCtx (s : State) (o : ChildOp) : Ctx :=
  { core := o.core, isCC := decide (1536 ≤ o.core), sup := o.sup, ptbr := o.ptbr
    launch := o.launch, view := if opSeated s o then ((s.seatAt o.core o.base).red.map (·.view)).getD [] else [] }

/-- The completion flag of red and coll (R234). An operation that ends before it has read its parameter block has the flag's address read
there; where that cannot be read, no flag is stored (log 103). -/
def State.storeFlag (s : State) (o : ChildOp) (st : OpState) : State :=
  match o.blk, o.kind with
  | some b, _ => if b.flag = 0 then s else s.storeEvent (opCtx s o) (locOf o.core o.bank 0) b.flag.toNat st.code
  | none, .red blk _ _ => s.post (.flag (opCtx s o) (locOf o.core o.bank 0) (blk.toNat + 24) st.code)
  | none, .coll blk _ _ _ => s.post (.flag (opCtx s o) (locOf o.core o.bank 0) (blk.toNat + 24) st.code)
  | none, _ => s

/-- Where and why an operation ended: cause, address, index (R247). -/
structure OpEnd where
  st : OpState
  cause : BitVec 8
  addr : Word
  index : Nat
deriving DecidableEq, Repr

def OpEnd.done : OpEnd := ⟨.done, 0, 0, 0⟩

/-- Free the engine rows that an orphan kept, when no other orphan needs them (R279, R322). -/
def State.freeOrphanRows (s : State) (i : Nat) (o : ChildOp) : State :=
  if o.rows.isEmpty || s.ops.any (fun p => p.1 != i && p.2.live && !p.2.st.terminal && p.2.rows == o.rows && p.2.core == o.core) then s
  else s.modQuad (o.core / 4) (fun q => { q with rows := q.rows.map (fun r => if o.rows.contains r.1 then (r.1, none) else r) })

/-- The task or launch that an operation waits for lets it go: its entry may come to name another operation. -/
def State.unlinkOp (s : State) (i : Nat) : State :=
  if (s.op i).kind.cls = .ts then
    { s with launches := s.launches.map (fun l => (l.1, l.2.map (fun x =>
      { x with
        op := if x.op = some i then none else x.op
        tasks := x.tasks.map (fun t => (t.1, t.2.map (fun k => { k with op := if k.op = some i then none else k.op }))) }))) }
  else s

/-- End one operation: unpin, flag, fault record, entry. -/
def State.finishOp (s : State) (i : Nat) (e : OpEnd) : State :=
  let o := s.op i
  let s1 := ((((s.unpinOp o).closeOrphan o).freeOrphanRows i o).storeFlag o e.st).unlinkOp i
  let told := decide (e.st = .faulted) && o.holders == 0 && decide (o.core < 1536) && !s.followsOp o
  let o1 : ChildOp :=
    if e.st = .done then { o with st := e.st, kept := [], cover := [] }
    else { o with st := e.st, kept := [], cover := [], noted := o.noted || told, cause := e.cause, faddr := e.addr, findex := e.index, fpath := o.kind.cls.path, ftime := s.ns }
  let s2 :=
    if told then s1.recordFault o.launch e.cause 1 o.task (BitVec.setWidth 64 (o.handle i)) e.index
    else s1
  s2.putOp i o1

/-- The PENDING operations that wait for a handle (R225). -/
def State.dependents (s : State) (h : BitVec 32) : List Nat :=
  (s.ops.filter (fun p => p.2.live && p.2.st == .pending && p.2.after == some h)).map (·.1)

/-- A launch or tspawn that nothing holds back is started before anything else happens: it reads its header or record as it
stands at issue, or when its after-token operation is DONE (R262). -/
def State.dueStart (s : State) (i : Nat) : State :=
  match (s.op i).kind, (s.op i).st, (s.op i).after with
  | .launch _, .pending, none => if s.due.contains (.launchStart i) then s else { s with due := s.due ++ [Due.launchStart i] }
  | .tspawn _, .pending, none => if s.due.contains (.tspawnStart i) then s else { s with due := s.due ++ [Due.tspawnStart i] }
  | _, _, _ => s

/-- End an operation and what follows for its dependents: freed to start, or CANCELLED with cause 0x40 (R225). -/
def State.endOpGo : Nat → State → Nat → OpEnd → State
  | 0, s, _, _ => s
  | fuel + 1, s, i, e =>
    let h := (s.op i).handle i
    let deps := s.dependents h
    let s1 := s.finishOp i e
    if e.st = .done then deps.foldl (fun s j => ((s.modOp j (fun o => { o with after := none })).orderPath (s.op j).core (s.op j).base (s.op j).kind.cls.path).dueStart j) s1
    else deps.foldl (fun s j => State.endOpGo fuel s j ⟨.cancelled, 0x40, 0, 0⟩) s1

/-- End an operation. -/
def State.endOp (s : State) (i : Nat) (e : OpEnd) : State := State.endOpGo (s.ops.length + 1) s i e

/-- An operation is a collective of a group that has left PENDING and not ended. -/
def ChildOp.inGroup (o : ChildOp) (g : Nat) : Bool :=
  o.live && o.kind.cls == .co && (o.st == .running || o.st == .paused) && ((o.blk.map (fun b => b.group == g)).getD false)

/-- How many collectives of a group its issuer has begun before one and not ended: the members' operations meet in this order. -/
def State.collNth (s : State) (o : ChildOp) (g : Nat) : Nat :=
  (s.ops.filter (fun p => p.2.inGroup g && p.2.core == o.core && p.2.bank == o.bank && decide (p.2.age < o.age))).length

/-- A member of a collective group whose operation ends without its result makes those of the other members on this device FAULTED (R235). -/
def State.dropMembers (s : State) (o : ChildOp) : State :=
  match o.blk with
  | none => s
  | some b =>
    if o.kind.cls = .co then
      ((s.ops.filter (fun p => p.2.inGroup b.group && (p.2.core != o.core || p.2.bank != o.bank) &&
        s.collNth p.2 b.group == s.collNth o b.group)).map (·.1)).foldl (fun x i => x.endOp i ⟨.faulted, 0x41, 0, (x.op i).progress⟩) s
    else s

/-- Cancel an operation that is not terminal, at its granule boundary (R245, R317). -/
def State.cancelOp (s : State) (i : Nat) : State :=
  if (s.op i).live && !(s.op i).st.terminal then (s.endOp i ⟨.cancelled, 0x44, 0, (s.op i).progress⟩).dropMembers (s.op i) else s

/-- The launch of an operation is paused (R326). -/
def State.opPaused (s : State) (o : ChildOp) : Bool :=
  decide (o.core < 1536) && ((s.launch? o.launch).map (·.paused)).getD false

/-- The live operations that satisfy a condition. -/
def State.opsWhere (s : State) (f : ChildOp → Bool) : List Nat := (s.ops.filter (fun p => p.2.live && f p.2)).map (·.1)

/-! ## Ending seats -/

/-- Return a matrix grant (R237). -/
def State.releaseRows (s : State) (core base : Nat) : State :=
  s.modQuad (core / 4) (fun q => { q with rows := q.rows.map (fun p => if p.2 = some (core, base) then (p.1, none) else p) })

/-- Return the cluster SRAM of a seat: its banks go back to CACHE, a mode change (R270, R292; log 5). -/
def State.releaseSram (s : State) (core : Nat) : List Nat → State
  | [] => s
  | b :: bs =>
    let f := s.freeBytes
    State.releaseSram (f.2.setSram (core / 4) b { SramBank.empty with busy := (s.sram (core / 4) b).mode != 0, undef := f.1 }) core bs

/-- A bit of the free-place bitmap of a sill's migrator (R295). -/
def State.setPlace (s : State) (sill bit : Nat) (free : Bool) : State :=
  s.post (.place (((s.mig sill).free.extractLsb' 6 42).toNat * 64 + bit / 8) (2 ^ (bit % 8)) free)

/-- A bit of the free-place bitmap, as it will stand when the stores to it have performed. -/
def State.placeFree (s : State) (sill bit : Nat) : Bool :=
  let pa := ((s.mig sill).free.extractLsb' 6 42).toNat * 64 + bit / 8
  s.waits.posted.foldl (fun x p => match p with | .place a m free => if a == pa && m == 2 ^ (bit % 8) then free else x | _ => x)
    ((BitVec.ofNat 8 (s.peek pa 1)).getLsbD (bit % 8))

/-- The bit of a row stripe (R295). -/
def stripeBit (pa : Nat) : Nat := (dramCore pa * 12 + dramSg pa) * 256 + dramRow pa

/-- Give the stripes of a view back (R329). -/
def State.freeView (s : State) : List ViewPage → State
  | [] => s
  | v :: vs => State.freeView (s.setPlace (dramCore v.stripe / 192) (stripeBit v.stripe) true) vs

/-- Remove the links of banks (R219). -/
def State.dropLinks (s : State) (core : Nat) (bs : List Nat) : State :=
  { s with linked := s.linked.filter (fun l => !(l.core == core && bs.contains l.bank)) }

/-- The detached matrix operations of a seat that have not ended. -/
def State.matrixOrphans (s : State) (core base : Nat) : List Nat :=
  s.opsWhere (fun o => o.core == core && o.base == base && opSeated s o && o.kind.cls == .mx && o.detached && !o.st.terminal && o.rows.isEmpty)

/-- Detached matrix operations run on as orphans on the rows of their seat, which stay taken until they end (R279, R322). -/
def State.keepOrphanRows (s : State) (core base : Nat) : State :=
  let is := s.matrixOrphans core base
  match is, s.seat? core base with
  | i :: _, some t =>
    (is.foldl (fun s j => s.modOp j (fun o => { o with rows := t.rows, orphan := some (t.log2s, t.lcap) })) s).modQuad (core / 4) (fun q =>
      { q with rows := q.rows.map (fun p => if p.2 = some (core, base) then (p.1, some (core, 16 + i)) else p) })
  | _, _ => s

/-- A register of a seat lets go of a handle: the entry is freed when due (R315). A replica that does not lead only mirrors an
operation of another seat (R227). -/
def State.letGo (s : State) (core base : Nat) (t : Seat) (h : BitVec 32) : State :=
  if s.liveHandle h then
    let o := s.op (entryOf h)
    let mirror := (t.red.map (fun r => !(r.performer || r.lead))).getD false && (o.core != core || o.base != base)
    s.putOp (entryOf h) (if mirror then { o with mirrors := o.mirrors - 1 } else { o with holders := o.holders - 1 })
  else s

/-- The handles in the token registers of a bank. -/
def Bank.held (b : Bank) : List (BitVec 32) := b.k.filterMap (·.2)

/-- The panes that RUNNING orphans of a seat still read, as many times as they pin them. -/
def State.orphanPanes (s : State) (core base : Nat) : List Nat :=
  (s.matrixOrphans core base).flatMap (fun i => if (s.op i).st == .running then (s.op i).kind.panes else [])

/-- Every pane CLOSED, without write-back, but for those that orphans keep (R123, R279, R322). -/
def Bank.closeBut (b : Bank) (keep : List Nat) : Bank :=
  { b with panes := (b.panes.filter (fun p => keep.contains p.1)).map (fun p => (p.1, { p.2 with pins := keep.count p.1 })) }

/-- Discard a seat (R279, R282, R123): panes closed without write-back, grant and SRAM returned, tokens emptied, links and
view gone, banks free. Their debts stand until their units pay them (R84, R357). -/
def State.discardSeat (s : State) (core base : Nat) : State :=
  match s.seat? core base with
  | none => s
  | some t =>
    let s0 := (t.banks.flatMap (fun b => (s.bank core b).held)).foldl (fun s h => s.letGo core base t h) s
    let keep := s0.orphanPanes core base
    let s1 := (s0.keepOrphanRows core base).modBanks core (fun _ b => { b.closeBut keep with k := [], claim := none }) t.banks
    let s2 := ((s1.releaseRows core base).releaseSram core t.sram).dropLinks core t.banks
    let s3 := s2.freeView ((t.red.map (·.view)).getD [])
    s3.setSeat? core base none

/-- The seats of a task, as core and base. -/
def State.seatsOf (s : State) (l t : Nat) : List (Nat × Nat) :=
  s.cores.flatMap fun c => (c.2.seats.filter (fun p => (p.2.map (fun x => !x.isCC && x.launch == l && x.task == t)).getD false)).map
    (fun p => (c.1, p.1))

/-! ## Ending tasks and launches -/

def TaskState.terminal : TaskState → Bool
  | .done | .failed | .cancelled => true
  | .waiting | .ready | .running | .saved => false

/-- Free the slots a task owns on every core (R78). -/
def State.freeTaskSlots (s : State) (l t : Nat) : State :=
  { s with cores := s.cores.map (fun c => (c.1, { c.2 with banks := c.2.banks.map (fun b => (b.1, b.2.freeSlots l t)) })) }

/-- Release a task's context area (R276). -/
def State.releaseArea (s : State) (l t : Nat) : State :=
  { s with lctl := { s.lctl with areas := s.lctl.areas.map (fun p => if p.2 = some (l, t) then (p.1, none) else p) } }

/-- A save array without a task's images. -/
def Quad.dropSaved (q : Quad) (l t : Nat) : Quad :=
  let gone := (q.save.filter (fun p => (p.2.map (fun r => r.launch == l && r.task == t)).getD false)).map (·.1)
  { q with
    save := q.save.map (fun p => if gone.contains p.1 then (p.1, none) else p)
    saveTiles := q.saveTiles.filter (fun e => !gone.contains (e.1 / 1024)) }

/-- The images of a task leave every save array (R324). -/
def State.dropSaves (s : State) (l t : Nat) : State := { s with quads := s.quads.map (fun q => (q.1, q.2.dropSaved l t)) }

/-- A saved context goes: its registers let go of what they hold. -/
def State.dropContext (s : State) (c : Context) : State :=
  (c.banks.flatMap (fun b => b.2.held)).foldl (fun s h => s.letGo c.core c.seat.base c.seat h) s

/-- The pages of a saved replica's view. -/
def Context.pages (c : Context) : List ViewPage := (c.seat.red.map (·.view)).getD []

/-- Make a task terminal: its slots, area and saved state go, its tspawn operation ends (R248, R266). -/
def State.closeTask (s : State) (l t : Nat) (st : TaskState) (cause : BitVec 8) : State :=
  match s.task? l t with
  | none => s
  | some k =>
    let s0 := (k.ctx.foldl (fun s c => (s.freeView c.pages).dropContext c) s).freeView k.left
    let s1 := (((s0.freeTaskSlots l t).releaseArea l t).dropSaves l t).setTask l t { k with st := st, cause := cause, ctx := [], area := none, left := [] }
    match k.op with
    | none => s1
    | some i =>
      if (s1.op i).st.terminal then s1
      else
        match st with
        | .done => s1.endOp i OpEnd.done
        | .failed => s1.endOp i ⟨.faulted, 0x43, 0, 0⟩
        | _ => s1.endOp i ⟨.cancelled, cause, 0, 0⟩

/-- The first WAITING task with a predecessor that ended FAILED or CANCELLED (R266). -/
def Launch.doomed (l : Launch) : Option Nat :=
  let bad := l.tasks.flatMap fun p =>
    match p.2 with
    | some k => if k.st == .failed || k.st == .cancelled then k.record.succ else []
    | none => []
  (l.tasks.find? (fun p => ((p.2.map (fun k => k.st == .waiting)).getD false) && bad.contains p.1)).map (·.1)

/-- Cancel the successors of failed tasks, transitively (R279). -/
def State.cascade : Nat → State → Nat → State
  | 0, s, _ => s
  | fuel + 1, s, l =>
    match (s.launch? l).bind Launch.doomed with
    | none => s
    | some t => State.cascade fuel (s.closeTask l t .cancelled 0x40) l

/-- A launch ends when every task is terminal and every orphan has finished (R283). -/
def State.launchOver (s : State) (n : Nat) (l : Launch) : Bool :=
  l.tasks.all (fun p => (p.2.map (fun k => k.st.terminal)).getD true) &&
    (s.opsWhere (fun o => o.launch == n && !o.st.terminal && o.core < 1536)).isEmpty

/-- The launch operations that wait for a launch number or a loop id try again (R264, R278). -/
def State.retryLaunches (s : State) : State := (s.ops.map (·.1)).foldl (fun s i => if (s.op i).live then s.dueStart i else s) s

/-- End a launch (R283): its state, its event word, its operation, its entries, its number. -/
def State.endLaunch (s : State) (n : Nat) (l : Launch) : State :=
  let e : OpEnd := if l.cancelled then ⟨.cancelled, 0x44, 0, 0⟩ else if l.fcount = 0 then OpEnd.done else ⟨.faulted, 0x43, 0, 0⟩
  let s1 := if l.event = 0 then s else s.storeEvent (launchCtx n l) (locOf l.sill 0 0) l.event.toNat e.st.code
  let s2 := { s1 with ops := s1.ops.map (fun (p : Nat × ChildOp) => if p.2.launch == n && decide (p.2.core < 1536) then (p.1, { p.2 with live := false }) else p) }
  let s3 := (s2.setLaunch n none).retryLaunches
  match l.op with
  | none => s3
  | some i => if (s3.op i).live && !(s3.op i).st.terminal then s3.endOp i e else s3

/-- End every launch that is over. -/
def State.sweepLaunches : Nat → State → State
  | 0, s => s
  | fuel + 1, s =>
    match s.launches.find? (fun p => (p.2.map (fun l => s.launchOver p.1 l)).getD false) with
    | some (n, some l) => State.sweepLaunches fuel (s.endLaunch n l)
    | _ => s

def State.sweep (s : State) : State := State.sweepLaunches (s.launches.length + 1) s

/-- A successor's counter falls by one when its predecessor is DONE; a task is as old as its counter's 0 (R268). -/
def State.releaseSuccs (s : State) (l : Nat) (succ : List Nat) : State :=
  succ.foldl (fun s j =>
    { s.modTask l j (fun k => { k with dep := k.dep - 1, age := if k.dep = 1 then s.taskAge else k.age }) with taskAge := s.taskAge + 1 }) s

/-! ### Cancelling (R245, R282) -/

/-- The launch and task that a tspawn operation waits for. -/
def State.taskOfOp (s : State) (i : Nat) : Option (Nat × Nat × Task) :=
  s.launches.findSome? fun l =>
    l.2.bind fun x => x.tasks.findSome? (fun t => t.2.bind (fun k => if k.op = some i then some (l.1, t.1, k) else none))

/-- The launch that a launch operation started. -/
def State.launchOfOp (s : State) (i : Nat) : Option Nat :=
  (s.launches.find? (fun l => (l.2.map (fun x => x.op == some i)).getD false)).map (·.1)

/-- Every task of a launch that is not terminal ends CANCELLED, and every operation of it, each by `kill` (R282). -/
def State.stopWith (kill : State → Nat → State) (s : State) (n : Nat) : State :=
  match s.launch? n with
  | none => s
  | some l =>
    let live := (l.tasks.filter (fun p => (p.2.map (fun k => !k.st.terminal)).getD false)).map (·.1)
    let s1 := live.foldl (fun s t => ((s.seatsOf n t).foldl (fun s p => s.discardSeat p.1 p.2) s).closeTask n t .cancelled 0x44) s
    ((s1.opsWhere (fun o => o.launch == n && o.core < 1536 && !o.st.terminal)).foldl kill s1).sweep

/-- kcancel of one operation (R245): a task that has not been dispatched is cancelled, a launch is. A launch has launched others in turn: at most
as many as there are. -/
def State.killGo : Nat → State → Nat → State
  | 0, s, _ => s
  | fuel + 1, s, i =>
    let o := s.op i
    if o.st.terminal then s.putOp i { o with acked := true }
    else
      match o.kind, o.st with
      | .tspawn _, .running =>
        match s.taskOfOp i with
        | some (l, t, k) => if k.st = .waiting ∨ k.st = .ready then (s.closeTask l t .cancelled 0x44).sweep else s
        | none => s
      | .launch _, .running =>
        match s.launchOfOp i with
        | some l => State.stopWith (State.killGo fuel) (s.modLaunch l (fun x => { x with cancelled := true })) l
        | none => s
      | _, _ => s.cancelOp i

def State.killOp (s : State) (i : Nat) : State := State.killGo (s.launches.length + 1) s i

/-- Stop a launch (R282). -/
def State.stopLaunch (s : State) (n : Nat) : State := State.stopWith State.killOp s n

/-- Matrix operations that were drained with a SAVED seat whose task ends without it run on as orphans (R322): their next granule finds neither panes nor
rows (R327; log 84). -/
def State.freeOrphans (s : State) (l t : Nat) : State :=
  (s.opsWhere (fun o => o.launch == l && o.task == t && o.detached && o.st == .paused && o.kind.cls == .mx && o.core < 1536 && o.orphan.isNone && !s.opPaused o)).foldl
    (fun s i => s.modOp i (fun o => { o with st := .running, rows := [] })) s

/-- End a task (R123, R266, R279): its seats are discarded, its attached operations cancelled when it did not end DONE, its
successors released or cancelled. -/
def State.endTask (s : State) (l t : Nat) (st : TaskState) (cause : BitVec 8) (addr : Word) (index : Nat) : State :=
  let s1 :=
    if st = .done then s
    else (s.opsWhere (fun o => o.launch == l && o.owner == t && !o.detached && o.core < 1536 && !o.st.terminal)).foldl State.killOp s
  let s2 := ((s1.seatsOf l t).foldl (fun s p => s.discardSeat p.1 p.2) s1).freeOrphans l t
  let s3 := s2.closeTask l t st cause
  let s4 := if st = .failed then s3.recordFault l cause 0 t addr index else s3
  let s5 :=
    if st = .done then s4.releaseSuccs l (((s4.task? l t).map (fun k => k.record.succ)).getD [])
    else State.cascade (((s4.launch? l).map (fun x => x.tasks.length)).getD 0) s4 l
  s5.sweep

/-- The lowest replica that runs leads. -/
def State.newLeader (s : State) (l t : Nat) : State :=
  let seats := s.seatsOf l t
  let least := ((seats.map (fun p => (s.seatAt p.1 p.2).status.rid.toNat)).min?).getD 0
  seats.foldl (fun s p => s.setSeat? p.1 p.2 ((s.seat? p.1 p.2).map (fun x =>
    { x with red := x.red.map (fun r => { r with lead := x.status.rid.toNat == least }) }))) s

/-- Cancel a launch (R282). -/
def State.cancelLaunch (s : State) (n : Nat) : State := (s.modLaunch n (fun x => { x with cancelled := true })).stopLaunch n

/-- The matrix operations of a seat that are attached to it. -/
def State.localMatrix (s : State) (core base : Nat) (t : Seat) : List Nat :=
  s.opsWhere (fun o => o.core == core && o.base == base && o.launch == t.launch && o.task == t.task && o.kind.cls == .mx && !o.detached && !o.st.terminal)

/-- A running seat's task ends FAILED (R279). A replica whose gang keeps two members ends alone (R338; log 13). -/
def State.failSeat (s : State) (core base : Nat) (cause : BitVec 8) (addr : Word) (index : Nat) : State :=
  let t := s.seatAt core base
  match t.red, s.task? t.launch t.task with
  | some _, some k =>
    if 2 < k.replicas.length then
      let s1 := (s.localMatrix core base t).foldl (fun s i => s.cancelOp i) s
      let s2 := s1.setSeat? core base (some { s1.seatAt core base with red := t.red.map (fun r => { r with view := [] }) })
      ((s2.discardSeat core base).modTask t.launch t.task (fun _ =>
        { k with replicas := k.replicas.filter (fun r => r != t.status.rid.toNat), left := k.left ++ (t.red.map (·.view)).getD [] })).newLeader t.launch t.task
    else s.endTask t.launch t.task .failed cause addr index
  | _, some _ => s.endTask t.launch t.task .failed cause addr index
  | _, none => s.discardSeat core base

end Sys2Proof.Machine
end

