-- ==== Sys2Proof/Machine/Dev.lean ====
section
/-! DEFINITION. Sys2Proof/Machine/Dev.lean: the device registers (R10, R284, R379): which register lies at an address, what it reads, what a
write of it sets off, and the registers that only hold a value. -/

namespace Sys2Proof.Machine

/-- Who makes an access: core, base of its seat, bank; none for an engine or the scheduler. -/
structure Who where
  core : Nat
  base : Nat
  bank : Nat
deriving DecidableEq, Repr

/-! ## The map (R236, R276, R291, R295, R377, R379, R380, R394, R395, R404, R407, R412, R419-R423) -/

/-- The device registers, each a doubleword. `mig sill w`, `group g w`, `peer n w`: doubleword w of a block entry; `ctr l k`: link counter
k of R394; `record n k`: doubleword k of log record n; `core c k`: doubleword k of a core's counters. -/
inductive DevReg where
  | sram (quad bank : Nat)
  | mig (sill w : Nat)
  | harvest (c : Nat)
  | ccbar (n : Nat)
  | ccstart | ccentry | ccboot
  | lcmd | lstat | levt | ctxBase | ctxCount | ctxFree
  | selfNode
  | group (g w : Nat)
  | lnkctl (l : Nat)
  | lnkstat (l : Nat)
  | lnkseq (l : Nat)
  | lnkevt (l : Nat)
  | ctr (l k : Nat)
  | peer (n w : Nat)
  | lattol | pwrcmd | pwrstat | pwrevt | pcap | pmeas | thr | thrstat | threvt | rspol
  | lqstat (l : Nat)
  | lqcfg (l : Nat)
  | lqevt (l : Nat)
  | duty (k : Nat)
  | elseq | elexp | eldrop | elevt
  | elpost (k : Nat)
  | votedis | mismatch | minority | schederr | health
  | quar (k : Nat)
  | record (n k : Nat)
  | core (c k : Nat)
deriving DecidableEq, Repr

/-- The registers of a link at an offset (R394). -/
def linkReg (l o : Nat) : Option DevReg :=
  if o = 0 then some (.lnkctl l)
  else if o = 8 then some (.lnkstat l)
  else if o = 0x10 then some (.lnkseq l)
  else if o = 0x18 then some (.lnkevt l)
  else if o < 0x70 then some (.ctr l ((o - 0x20) / 8))
  else none

/-- The link blocks and the peer table (R394, R395). -/
def linkBlock (o : Nat) : Option DevReg :=
  if o < 0x8000 then linkReg (o / 0x100) (o % 0x100)
  else if o < 0xA000 then
    let n := (o - 0x8000) / 32
    let w := o % 32 / 8
    if n = 0 || w = 1 then none else some (.peer n w)
  else if 0x10000 ≤ o ∧ o < 0x50000 then
    let p := (o - 0x10000) / 0x1000
    let t := o % 0x1000 / 0x100
    if p / 8 < p % 8 && t < 10 then linkReg (1024 + p * 16 + t) (o % 0x100) else none
  else none

/-- The power block, the queue blocks and the duty records (R404, R407, R412, R423). -/
def powerBlock (o : Nat) : Option DevReg :=
  if 0x1000 ≤ o ∧ o < 0x2000 then
    let l := (o - 0x1000) / 32
    if o % 32 = 0 then some (.lqstat l) else if o % 32 = 8 then some (.lqcfg l) else if o % 32 = 16 then some (.lqevt l) else none
  else if 0x2000 ≤ o ∧ o < 0x3800 then some (.duty ((o - 0x2000) / 8))
  else
    ([(0, DevReg.lattol), (8, .pwrcmd), (0x10, .pwrstat), (0x18, .pwrevt), (0x100, .pcap), (0x108, .pmeas), (0x110, .thr), (0x118, .thrstat),
      (0x120, .threvt), (0x128, .rspol)].find? (fun p => p.1 == o)).map (·.2)

/-- The error log, the counters, HEALTH and QUAR (R419-R422). -/
def logBlock (o : Nat) : Option DevReg :=
  if 0x40 ≤ o ∧ o < 0x80 then some (.elpost ((o - 0x40) / 8))
  else if 0x10100 ≤ o ∧ o < 0x101C0 then some (.quar ((o - 0x10100) / 8))
  else if 0x80000 ≤ o ∧ o < 0xC0000 then some (.record ((o - 0x80000) / 64) (o % 64 / 8))
  else if 0x100000 ≤ o ∧ o < 0x160000 then some (.core ((o - 0x100000) / 0x100) (o % 0x100 / 8))
  else
    ([(0, DevReg.elseq), (8, .elexp), (0x10, .eldrop), (0x18, .elevt), (0x10000, .votedis), (0x10008, .mismatch), (0x10010, .minority),
      (0x10018, .schederr), (0x10028, .health)].find? (fun p => p.1 == o)).map (·.2)

/-- The control core block (R379). -/
def controlBlock (o : Nat) : Option DevReg :=
  if o < 0x80 then some (.ccbar (o / 8))
  else if o = 0x80 then some .ccstart
  else if o = 0x88 then some .ccentry
  else if o = 0x90 then some .ccboot
  else none

/-- Launch control and the context pool (R276, R380). -/
def launchBlock (o : Nat) : Option DevReg :=
  ([(0, DevReg.lcmd), (8, .lstat), (0x10, .levt), (0x100, .ctxBase), (0x108, .ctxCount), (0x110, .ctxFree)].find? (fun p => p.1 == o)).map (·.2)

/-- The group block (R236). -/
def groupBlock (o : Nat) : Option DevReg :=
  if o = 0 then some .selfNode
  else if 0x1000 ≤ o ∧ o < 0x9000 then
    if o % 32 = 24 then none else some (.group ((o - 0x1000) / 32) (o % 32 / 8))
  else none

/-- The register at an address that is a multiple of 8; none where no chapter lists one. -/
def devReg (pa : Nat) : Option DevReg :=
  let o := pa % 0x1000000
  match (pa - 0xFF0000000000) / 0x1000000 with
  | 1 => if o / 0x1000 < 384 ∧ o % 0x1000 < 0x100 then some (.sram (o / 0x1000) (o % 0x1000 / 8)) else none
  | 2 => if o / 0x1000 < 8 ∧ o % 0x1000 < 0x30 then some (.mig (o / 0x1000) (o % 0x1000 / 8)) else none
  | 3 => if o < 0x3000 then some (.harvest (o / 8)) else none
  | 4 => controlBlock o
  | 5 => launchBlock o
  | 6 => groupBlock o
  | 8 => linkBlock o
  | 9 => powerBlock o
  | 10 => logBlock o
  | _ => none

/-! ## Reading -/

/-- A flag as a number. -/
def bit (b : Bool) : Nat := if b then 1 else 0

/-- The control register of an SRAM bank (R291). -/
def SramBank.word (x : SramBank) : Nat := x.mode.toNat + 4 * bit x.busy + x.head * 2 ^ 8 + x.tail * 2 ^ 26 + x.count * 2 ^ 44

/-- The width code of R384. -/
def codeOf (w : Nat) : Nat := if 16 ≤ w then 0 else if 8 ≤ w then 1 else if 4 ≤ w then 2 else 3

/-- LNKSTAT.STATE (R394). -/
def LinkState.code : LinkState → Nat
  | .down => 0
  | .training => 1
  | .up => 2
  | .failed => 3

/-- Packets formed whose first flit has not been sent (R412). -/
def Link.depth (x : Link) : Nat := x.buf.length - x.maxSent

/-- The fuses of a core before firmware writes the map (log 8): nothing left out but physical bank 16. -/
def fuseWord (c : Nat) : Word := BitVec.ofNat 64 (c % 96 + 16 * 2 ^ 8 + c % 96 / 4 * 2 ^ 16)

/-- The columns (R2). -/
def columns : Nat := 768

/-- DUTY of a column. -/
def Power.dutyOf (p : Power) (k : Nat) : Nat := look 64 p.duty k

/-- A doubleword of a log record (R418). -/
def ErrRec.word (r : ErrRec) (k : Nat) : Nat :=
  match k with
  | 0 => r.seq % 2 ^ 32 + r.typ.toNat * 2 ^ 32 + r.sev.toNat * 2 ^ 40 + r.plane.toNat * 2 ^ 48
  | 1 => r.time
  | 2 => r.loc.toNat + r.cause.toNat * 2 ^ 32
  | 3 => r.addr.toNat
  | 4 => r.index.toNat
  | _ => (r.detail.extractLsb' (64 * (k - 5)) 64).toNat

/-- The counters of a core (R420). -/
def coreCounter (s : State) (c k : Nat) : Nat :=
  let x := s.core c
  match k with
  | 0 => x.evict
  | 1 => x.silmis
  | 2 => x.laneret
  | 3 => x.poisonCt
  | 4 => x.bondrep
  | _ => if 16 ≤ k then (s.bank c (k - 16)).forced else 0

/-- A quarantine word (R421). -/
def quarWord (s : State) (k : Nat) : Nat :=
  ((List.range 64).map (fun b => if (s.core (64 * k + b)).quar then 2 ^ b else 0)).foldl (· + ·) 0

/-- Context areas not taken (R276). -/
def State.freeAreas (s : State) : List Nat := (List.range s.lctl.ctxCount).filter (fun i => (look none s.lctl.areas i).isNone)

/-- A doubleword of a migrator (R295). -/
def migWord (m : Migrator) (w : Nat) : Nat :=
  match w with
  | 0 => m.pol.toNat
  | 1 => m.free.toNat
  | 3 => m.tgt.toNat
  | 4 => m.evt.toNat
  | 5 => bit m.cur.isSome + m.last.toNat * 2 ^ 8 + m.queue.length * 2 ^ 16
  | _ => 0

/-- What a register reads; a WO register reads zero. -/
def devWord (s : State) (r : DevReg) : Nat :=
  match r with
  | .sram q b => (s.sram q b).word
  | .mig k w => migWord (s.mig k) w
  | .harvest c => (look (fuseWord c) s.harvest c).toNat
  | .ccbar n => let b := look CcBar.empty s.ccbars n; b.count % 2 ^ 16 + b.arrived % 2 ^ 16 * 2 ^ 16 + b.phase % 2 ^ 16 * 2 ^ 32
  | .ccstart => 0
  | .ccentry => s.boot.entry.toNat
  | .ccboot => bit s.boot.done
  | .lcmd => 0
  | .lstat => bit s.lctl.cur.isSome + s.lctl.result.toNat * 2 ^ 8
  | .levt => s.lctl.evt.toNat
  | .ctxBase => s.lctl.ctxBase.toNat
  | .ctxCount => s.lctl.ctxCount
  | .ctxFree => s.freeAreas.length
  | .selfNode => s.selfNode.toNat
  | .group g w =>
    let x := look Group.empty s.groups g
    if w = 0 then bit x.valid + x.count * 2 ^ 16 else if w = 1 then x.mtab.toNat else x.tag.toNat
  | .lnkctl l => bit (s.link l).en + (s.link l).maxw.toNat * 4 + (s.link l).park.toNat * 2 ^ 8
  | .lnkstat l =>
    let x := s.link l
    x.st.code + codeOf x.w * 4 + x.b * 2 ^ 4 + bit (x.waking != 0) * 2 ^ 8 + x.txdead.toNat * 2 ^ 16 + x.rxdead.toNat * 2 ^ 32
  | .lnkseq l => (s.link l).next.toNat + (s.link l).acked.toNat * 2 ^ 16 + (s.link l).exp.toNat * 2 ^ 32
  | .lnkevt l => (s.link l).evt.toNat
  | .ctr l k => look 0 (s.link l).ctr k
  | .peer n w =>
    let p := s.peer n
    if w = 0 then bit p.valid + 2 * bit p.failed + p.node.toNat * 2 ^ 16
    else if w = 2 then (p.links.extractLsb' 0 64).toNat else (p.links.extractLsb' 64 64).toNat
  | .lattol => s.power.lattol.toNat
  | .pwrcmd => 0
  | .pwrstat => s.power.phase + s.power.src.toNat * 2 ^ 4 + s.power.nap.toNat * 2 ^ 8
  | .pwrevt => s.power.evt.toNat
  | .pcap => s.power.limit + bit s.power.lock * 2 ^ 31
  | .pmeas => s.power.pmeas % 2 ^ 16
  | .thr => s.power.tmax + s.power.floor * 2 ^ 8
  | .thrstat =>
    ((List.range columns).filter (fun k => decide (s.power.dutyOf k < 64))).length + s.power.tlogic % 2 ^ 8 * 2 ^ 16 + s.power.tdram % 2 ^ 8 * 2 ^ 24
  | .threvt => s.power.threvt.toNat
  | .rspol => bit s.power.auto + s.power.hold * 2 ^ 8
  | .lqstat l => (s.link l).depth + bit (s.link l).high * 2 ^ 16 + bit (s.link l).quiet * 2 ^ 17
  | .lqcfg l => (s.link l).hi + (s.link l).lo * 2 ^ 16 + (s.link l).idle * 2 ^ 32
  | .lqevt l => (s.link l).lqevt.toNat
  | .duty k => s.power.dutyOf k + look 0 s.power.temp k % 2 ^ 8 * 2 ^ 8
  | .elseq => s.log.seq % 2 ^ 32
  | .elexp => s.log.exported % 2 ^ 32
  | .eldrop => s.log.drop
  | .elevt => s.log.evt.toNat
  | .elpost _ => 0
  | .votedis => s.log.votedis
  | .mismatch => s.log.mismatch
  | .minority => s.log.minority
  | .schederr => s.log.schederr
  | .health => s.log.health.toNat
  | .quar k => quarWord s k
  | .record n k => ((look none s.log.recs n).map (fun r => r.word k)).getD 0
  | .core c k => coreCounter s c k

/-- The doubleword at an address; an address that no chapter lists reads zero (R284). -/
def devDword (s : State) (pa : Nat) : Nat := ((devReg (pa / 8 * 8)).map (devWord s)).getD 0 % 2 ^ 64

/-- Read n bytes of a device register. No register clears on a read. -/
def devRead (s : State) (pa n : Nat) : Nat × State := (devDword s pa / 256 ^ (pa % 8) % 256 ^ n, s)

/-! ## Registers that only hold a value (R10) -/

/-- A physical address in [47:3]. -/
def evtMask (v : Word) : Word := v &&& 0x0000FFFFFFFFFFF8

/-- Store a register without further effect; res0 bits are ignored. -/
def State.storeReg (s : State) (r : DevReg) (v : Word) : State :=
  match r with
  | .mig k 0 => s.setMig k { s.mig k with pol := v &&& 0x0000FFFFFFFFFF01 }
  | .mig k 1 => s.setMig k { s.mig k with free := v &&& 0x0000FFFFFFFFFFC0 }
  | .mig k 3 => s.setMig k { s.mig k with tgt := v &&& 0x0000FFFFFFFF0000 }
  | .mig k 4 => s.setMig k { s.mig k with evt := evtMask v }
  | .ccentry => { s with boot := { s.boot with entry := v &&& 0x00FFFFFFFFFFFFFF } }
  | .levt => { s with lctl := { s.lctl with evt := evtMask v } }
  | .selfNode => { s with selfNode := v.setWidth 32 }
  | .group g 0 => { s with groups := put s.groups g { look Group.empty s.groups g with valid := v.getLsbD 0, count := (v.extractLsb' 16 11).toNat } }
  | .group g 1 => { s with groups := put s.groups g { look Group.empty s.groups g with mtab := evtMask v } }
  | .group g 2 => { s with groups := put s.groups g { look Group.empty s.groups g with tag := v } }
  | .lnkctl l => s.modLink l (fun x => { x with maxw := v.extractLsb' 2 2 })
  | .lnkevt l => s.modLink l (fun x => { x with evt := evtMask v })
  | .peer n 0 => s.setPeer n { s.peer n with valid := v.getLsbD 0, node := v.extractLsb' 16 32 }
  | .peer n 2 => s.setPeer n { s.peer n with links := (s.peer n).links.extractLsb' 64 64 ++ v }
  | .peer n 3 => s.setPeer n { s.peer n with links := v ++ (s.peer n).links.extractLsb' 0 64 }
  | .pwrevt => { s with power := { s.power with evt := evtMask v } }
  | .threvt => { s with power := { s.power with threvt := evtMask v } }
  | .rspol => { s with power := { s.power with auto := v.getLsbD 0, hold := (v.extractLsb' 8 8).toNat } }
  | .lqevt l => s.modLink l (fun x => { x with lqevt := evtMask v })
  | .elevt => { s with log := { s.log with evt := evtMask v } }
  | .elpost k => { s with log := { s.log with post := (s.log.post &&& ~~~((BitVec.allOnes 64).setWidth 512 <<< (64 * k))) ||| (v.setWidth 512 <<< (64 * k)) } }
  | _ => s

/-! ## Writing -/

/-- What a write of a doubleword sets off, in order; `old` is what the register read before. -/
def devDue (s : State) (r : DevReg) (pa : Nat) (v : Word) : List Due :=
  match r with
  | .sram q b => if v.extractLsb' 0 2 = 3 then [] else (if v.getLsbD 3 then [Due.sramClr q b] else []) ++ [.sramMode q b (v.extractLsb' 0 2)]
  | .mig k 2 => [.migrate k (v.getLsbD 0) (evtMask v)]
  | .mig _ 5 => []
  | .ccbar n => [.ccbar n (v.setWidth 16)]
  | .ccstart => [.ccstart (v.setWidth 16)]
  | .ccboot => if v.getLsbD 0 then [.ccboot] else []
  | .lcmd =>
    let op := (v.extractLsb' 16 3).toNat
    if op = 0 || 5 < op then [] else [.lcmd op (v.extractLsb' 0 16).toNat (v.extractLsb' 32 32).toNat]
  | .ctxBase => [.ctxPool 0x100 v]
  | .ctxCount => [.ctxPool 0x108 v]
  | .lnkctl l =>
    let x := s.link l
    [Due.register pa v] ++ (if l < 128 && v.extractLsb' 8 8 != x.park then [Due.park l (v.extractLsb' 8 8)] else []) ++
      (if v.getLsbD 0 then (if x.en && x.st != .down then [] else [Due.linkEn l]) else if x.en then [Due.linkDis l] else []) ++
      (if v.getLsbD 1 then [Due.retrain l] else [])
  | .peer n 0 => [Due.register pa v] ++ (if v.getLsbD 1 then [Due.peerClear n] else [])
  | .lattol => [.lattol v]
  | .pwrcmd => if v.extractLsb' 0 2 = 0 then [] else [.pwrcmd (v.extractLsb' 0 2)]
  | .pcap => [.pcap v]
  | .thr => [.thr v]
  | .lqcfg l => [.lqcfg l v]
  | .elpost k => if k = 7 then [.elpost v] else [.register pa v]
  | .quar k => [.quar k v]
  | .mig _ _ | .ccentry | .levt | .selfNode | .group _ _ | .lnkevt _ | .peer _ _ | .pwrevt | .threvt | .rspol | .lqevt _ | .elevt => [.register pa v]
  | _ => []

/-- A write that its register holds back: a mode change while BUSY (R292), a full migration queue (R295), a command in progress (R380). -/
def devHeld (s : State) (r : DevReg) (v : Word) : Bool :=
  match r with
  | .sram q b => (s.sram q b).busy && v.extractLsb' 0 2 != 3 && v.extractLsb' 0 2 != (s.sram q b).mode
  | .mig k 2 => decide (64 ≤ (s.mig k).queue.length)
  | .lcmd => s.lctl.cur.isSome
  | _ => false

/-- A write that a seat may not make: an SRAM bank outside its grant (R291). -/
def devDenied (s : State) (w : Option Who) (r : DevReg) : Bool :=
  match w, r with
  | some x, .sram q b => let t := s.seatAt x.core x.base; !t.isCC && !(x.core / 4 == q && t.sram.contains b)
  | _, _ => false

/-- The doubleword that a narrow write stores: the bytes around it keep what they read, and those of a bit that a 1 clears count as 0. -/
def mergeWrite (r : DevReg) (old pa v n : Nat) : Word :=
  let base := match r with | .peer _ 0 => (BitVec.ofNat 64 old) &&& ~~~(2#64) | _ => BitVec.ofNat 64 old
  let m : Word := BitVec.ofNat 64 ((256 ^ n - 1) * 256 ^ (pa % 8))
  (base &&& ~~~m) ||| (BitVec.ofNat 64 (v % 256 ^ n * 256 ^ (pa % 8)))

/-- What the bytes that a narrow write leaves alone hold: of a barrier whose new COUNT waits, that COUNT (R379). -/
def keptWord (s : State) (r : DevReg) : Nat :=
  match r with
  | .ccbar n => let b := look CcBar.empty s.ccbars n; devWord s r - b.count % 2 ^ 16 + (b.next.getD b.count) % 2 ^ 16
  | _ => devWord s r

/-- Write a device register: its effect is the next step of the machine, and a write before that waits for it (R313). An address that no
chapter lists ignores it (R284). -/
def devWrite (s : State) (w : Option Who) (pa v n : Nat) : Res State :=
  match devReg (pa / 8 * 8) with
  | none => .ok s
  | some r =>
    let x := mergeWrite r (keptWord s r) pa v n
    if devDenied s w r then .bad 7 0x11
    else if devHeld s r x || !s.due.isEmpty then .wait .device
    else .ok { s with due := s.due ++ devDue s r (pa / 8 * 8) x }

end Sys2Proof.Machine
end

