-- ==== Sys2Proof/Machine/Mem.lean ====
section
/-! DEFINITION. Sys2Proof/Machine/Mem.lean: performing one access at its home after its checks (R148-R151): claims, FIFO
banks (R293), device registers, poison, the replica's dirty bytes (R331); the accesses of all banks of a part (R149). -/

namespace Sys2Proof.Machine

/-- The writing thread of an access (R219). -/
def Who.thread (w : Who) : Option (Nat × Nat) := some (w.core, w.bank)

/-- n bytes of a FIFO bank from an offset that wraps, little-endian (R293). -/
def fifoRead (x : SramBank) (off : Nat) : Nat → Nat
  | 0 => 0
  | n + 1 => (x.byte (off % 262144)).toNat + 256 * fifoRead x (off + 1) n

/-- n bytes written to a FIFO bank at an offset that wraps (R293). -/
def fifoWrite (t : Table Byte) (off v : Nat) : Nat → Table Byte
  | 0 => t
  | n + 1 => fifoWrite (put t (off % 262144) (BitVec.ofNat 8 v)) (off + 1) (v / 256) n

/-- A pop of n bytes (R293); poisoned ones are not delivered (R148). -/
def fifoPop (s : State) (q b n : Nat) : Res (Nat × State) :=
  let x := s.sram q b
  if x.count < n then .wait (.fifo q b)
  else if s.poisonAt (sramPa q b + x.head % 262144) || s.poisonAt (sramPa q b + (x.head + n - 1) % 262144) then .bad 8 0x14
  else .ok (fifoRead x x.head n, s.setSram q b { x with head := (x.head + n) % 262144, count := x.count - n })

/-- A push of n bytes from an offset that wraps has broken links (R219). -/
def State.pushLinks (s : State) (w : Option (Nat × Nat)) (q b off n : Nat) : State :=
  (List.range n).foldl (fun x i => x.writeLinks w (sramPa q b + (off + i) % 262144) 1) s

/-- A push of n bytes (R293), which wraps at the end of the bank. Links of other threads over its bytes are lost (R219). -/
def fifoPush (s : State) (w : Option (Nat × Nat)) (q b v n : Nat) : Res State :=
  let x := s.sram q b
  if 262144 < x.count + n then .wait (.fifo q b)
  else
    .ok ((s.pushLinks w q b x.tail n).setSram q b { x with data := fifoWrite x.data x.tail v n, tail := (x.tail + n) % 262144, count := x.count + n })

/-- Read n bytes where a checked address leads. `ord` 8 is the poison check, the seventh of R148. -/
def readSpot (s : State) (p : Spot) (n : Nat) : Res (Nat × State) :=
  match claimOf s p.pa with
  | some w => .wait w
  | none =>
    match regionOf p.pa with
    | .dev => .ok (devRead s p.pa n)
    | .sram =>
      if modeAt s p.pa = 2 then fifoPop s (sramQuad p.pa) (sramBankNo p.pa) n
      else if s.poisoned p.pa n then .bad 8 0x14 else .ok (s.lsSees p.pa n, s)
    | _ =>
      if s.poisoned p.pa n then .bad 8 0x14
      else .ok (s.lsSees p.pa n, (s.orderByte s.focus.core s.focus.base 1 p.pa n).touch p.pa)

/-- Set the dirty bits of n bytes of a replica's shadow (R331). -/
def dirtyBytes (t : Table (BitVec 64)) (va : Nat) : Nat → Table (BitVec 64)
  | 0 => t
  | n + 1 => dirtyBytes (put t (va / 64) (look 0 t (va / 64) ||| (1 <<< (va % 64)))) (va + 1) n

/-- Mark bytes written by a replica (R331), when they lie on a shadow page of its view. -/
def State.markDirty (s : State) (core base va n : Nat) : State :=
  match s.seat? core base with
  | some t =>
    match t.red with
    | some r =>
      if (r.view.find? (fun v => v.page == va / 2 ^ 16 && v.role != 1)).isSome then
        s.setSeat? core base (some { t with red := some { r with dirty := dirtyBytes r.dirty va n } })
      else s
    | none => s
  | none => s

/-- Write n bytes where a checked address leads. -/
def writeSpot (s : State) (w : Who) (va : Nat) (p : Spot) (v n : Nat) : Res State :=
  match claimOf s p.pa with
  | some x => .wait x
  | none =>
    match regionOf p.pa with
    | .dev => devWrite s (some w) p.pa v n
    | .sram =>
      if modeAt s p.pa = 2 then fifoPush s w.thread (sramQuad p.pa) (sramBankNo p.pa) v n
      else .ok (s.poke w.thread p.pa v n)
    | _ => .ok (((s.poke w.thread p.pa v n).markDirty w.core w.base va n).touch p.pa)

/-! ## The accesses of a part -/

/-- One access of one bank: the bank, its address, the value it stores. -/
structure BankAccess where
  bank : Nat
  va : Nat
  v : Nat
deriving DecidableEq, Repr

/-- How a single instruction ends: complete, a trap with cause and tval, or a wait; the banks that have performed before it are noted
(R150). -/
inductive Done where
  | ok
  | trap (cause : BitVec 8) (tval : Word)
  | wait (w : Wait)
deriving DecidableEq, Repr

/-- The checks of every bank (R148, R149): the earliest failing check, among its banks the lowest; else a wait. A trap found in
one bank is taken though another bank still waits (DESIGN CHOICE, log 112). -/
def checkAll (s : State) (c : Ctx) (t : Seat) (x : Access) :
    List BankAccess → Option (Nat × BitVec 8 × Word) → Option Wait → Option (Nat × BitVec 8 × Word) × Option Wait
  | [], f, w => (f, w)
  | a :: as, f, w =>
    match checkAccess s c t x a.va with
    | .ok _ => checkAll s c t x as f w
    | .bad o k => checkAll s c t x as (worst f o k (addrTval a.va a.bank)) w
    | .wait v => checkAll s c t x as f (some v)

/-- Perform one access: its spot, as the checks found it in the state s0 before the first access (R149), then what `act` does
there. -/
def accessOne (s0 s : State) (c : Ctx) (t : Seat) (x : Access) (a : BankAccess)
    (act : State → Spot → BankAccess → Res State) : Res State :=
  (checkAccess s0 c t x a.va).andThen (fun p => act s p a)

/-- Perform the accesses of a part in ascending bank order (R150). At a wait or a poisoned read the lower banks have performed (R149); `done`
are those, and after a wait they do not perform again, nor after a replica's granule has been copied again (R156, R341). -/
def performAll (s0 : State) (c : Ctx) (t : Seat) (x : Access) (act : State → Spot → BankAccess → Res State) :
    List BankAccess → BitVec 16 → State → State × Done
  | [], _, s => (s, .ok)
  | a :: as, done, s =>
    match accessOne s0 s c t x a act with
    | .ok s' => performAll s0 c t x act as (done ||| bankMask [a.bank]) s'
    | .wait w => (s.noteBegun done, .wait w)
    | .bad _ k => (if t.red.isSome then s.noteBegun done else s, .trap k (addrTval a.va a.bank))

/-- The accesses of the banks that have still to perform. -/
def State.accessAll (s : State) (c : Ctx) (t : Seat) (x : Access) (act : State → Spot → BankAccess → Res State) (as : List BankAccess) :
    State × Done := performAll s c t x act as (s.part s.focus).begun s

/-- A scalar access in every active bank: all checks, then all accesses. -/
def scalarAccess (s : State) (c : Ctx) (t : Seat) (x : Access) (as : List BankAccess)
    (act : State → Spot → BankAccess → Res State) : State × Done :=
  match checkAll s c t x as none none with
  | (some (_, k, v), _) => (s, .trap k v)
  | (none, some w) => (s, .wait w)
  | (none, none) => s.accessAll c t x act as

end Sys2Proof.Machine
end

