-- ==== Sys2Proof/Machine/Ops.lean ====
section
/-! DEFINITION. Sys2Proof/Machine/Ops.lean: the operations every instruction shares: retiring within a convoy (R97-R103), taking
a trap (R342, R348, R372), returning from one, transferring control (R88, R89), waiting, echoed values (R339). -/

namespace Sys2Proof.Machine

/-! ## Convoy flow -/

/-- Write the scalar results that element instructions left for the convoy's end (R101). -/
def State.flushLate (s : State) (core : Nat) : List (Nat × Nat × Word) → State
  | [] => s
  | (b, r, v) :: ls => State.flushLate (s.modBank core b (fun x => x.ws (BitVec.ofNat 5 r) v)) core ls

/-- The scalar results waiting for the end of the focus's convoy. -/
def Part.late (p : Part) : List (Nat × Nat × Word) := match p.convoy with | some c => c.late | none => []

/-- The address after the convoy: where a CF instruction, the last of its convoy, would continue (R88). -/
def Part.nextAddr (p : Part) : Word := match p.convoy with | some c => c.next | none => p.pc + 2

/-- The part's convoy ends: the vl of a cut phase takes effect (R214). -/
def Part.endConvoy (p : Part) : Part := { p with convoy := none, vl := (p.convoy.bind (·.cut)).getD p.vl }

/-- The part with the current single instruction performed: the next one of the convoy, or the next convoy. -/
def Part.advance (p : Part) : Part :=
  match p.convoy with
  | none => { p with wait := none, begun := 0 }
  | some c =>
    match c.todo.tail with
    | [] => { p.endConvoy with wait := none, begun := 0, pc := c.next }
    | i :: is => { p with wait := none, begun := 0, convoy := some { c with todo := i :: is }, pc := i.1 }

/-- A single instruction has performed (R101): the part goes on; at the convoy's end its scalar results are written. -/
def State.retire (s : State) : State :=
  let p := s.part s.focus
  let s1 := s.setPart s.focus p.advance
  if p.advance.convoy.isNone then s1.flushLate s.focus.core p.late else s1

/-- A transfer of control (R127-R130): the convoy ends and the part continues at the target. -/
def State.jumpTo (s : State) (target : Word) : State :=
  let p := s.part s.focus
  (s.setPart s.focus { p.endConvoy with wait := none, begun := 0, pc := target }).flushLate s.focus.core p.late

/-- The focus's part waits; the instruction has performed nothing and runs again (R347). -/
def State.waitOn (s : State) (w : Wait) : State := s.modPart s.focus (fun p => { p with wait := some w })

/-! ## Traps -/

/-- The class of a cause (R24, R348). -/
def classOf (cause : BitVec 8) : BitVec 3 :=
  if cause = 0x18 then 1
  else if cause = 0x21 then 2
  else if cause = 0x28 ∨ cause = 0x29 then 3
  else if cause = 0x38 then 4
  else if cause = 0x3C then 5
  else 0

/-- The handler address of a class (R24). -/
def handlerPc (tvec : Word) (cls : BitVec 3) : Word := tvec + 64 * cls.setWidth 64 + 2

/-- A control core without a handler stops (R372). -/
def State.stopControl (s : State) (a : Agent) (cause : BitVec 8) (tval epc : Word) : State :=
  let t := s.seat a
  (s.setSeat a { t with cause := cause, epc := epc, tval := tval, status := { t.status with lvl := true }, run := .stopped }).logError
    0x12 (if s.boot.done then 2 else 3) planeControl (locOf a.core 0 0) (cause.setWidth 32) tval 0

/-- What the element instructions of a part noted while they ran is over. -/
def Part.noted (p : Part) : Part := { p with picked := [], loaded := false, stored := [], recs := [] }

/-- The element phase stops and will go on as another execution (R102, R214): what a store has written so far stands (R350). -/
def Part.halted (p : Part) : Part := { p with picked := [], loaded := false, recs := [] }

/-- Where a stopped part begins again (R102): past its element phase when that is over and the convoy decodes again at its first head. -/
def Part.restartXidx (p : Part) : Nat :=
  match p.convoy with
  | some c => if c.elems.isEmpty && c.whole && c.first == p.pc && c.done != 0 then c.done else p.xidx
  | none => p.xidx

/-- The join that a part waits at. -/
def Part.joinId (p : Part) : Option (BitVec 6) := match p.wait with | some (.sjoin id) => some id | _ => none

/-- A part that something asynchronous stops (R156, R347): the banks in which its single instruction has performed, and that it waits at an sjoin,
are kept for its return. -/
def Part.stopped (p : Part) : Part :=
  { p with
    xidx := p.restartXidx
    kept := if p.begun = 0 && p.joinId.isNone && p.stored.isEmpty then none else some ⟨p.pc, p.begun, p.joinId, p.stored⟩ }

/-- A part whose element phase a trap of its own stops: what a store has written is kept for its return (R350). -/
def Part.trapped (p : Part) : Part :=
  { p with kept := if p.stored.isEmpty then none else some ⟨p.pc, 0, none, p.stored⟩ }

/-- Entry to a handler (R342): saved registers, status, pc. The part that traps runs the handler. -/
def State.enterHandler (s : State) (a : Agent) (cause : BitVec 8) (tval epc : Word) (xidx : Option Nat) : State :=
  let t := s.seat a
  let p := s.part a
  let st : Status := { t.status with plvl := t.status.lvl, lvl := true, hold := true, cls := classOf cause }
  let p' : Part :=
    { p.endConvoy.noted with
      pc := handlerPc t.tvec (classOf cause), wait := none, begun := 0, entry := true, got := []
      xidx := xidx.getD p.xidx }
  s.setSeat a ({ t with cause := cause, epc := epc, tval := tval, status := st, handler := some p.active }.setPart? a.seq (some p'))

/-- Take a trap of a part (R342, R348): its convoy's finished results are written, the links of its thread are lost (R32, R219); without a
handler, or synchronously at LVL 1, the task fails (R279) or the control core stops (R372). -/
def State.takeTrap (s : State) (a : Agent) (cause : BitVec 8) (tval epc : Word) (xidx : Option Nat) : State :=
  let t := s.seat a
  let p := s.part a
  let s1 := (s.flushLate a.core p.late).dropLinks a.core (t.banks)
  if t.isCC then
    if t.tvec = 0 then s1.stopControl a cause tval epc else s1.enterHandler a cause tval epc none
  else if t.tvec = 0 || t.status.lvl then s1.failSeat a.core a.base cause tval (xidx.getD 0)
  else s1.enterHandler a cause tval epc xidx

/-- Poisoned data was consumed: its counter and its record, which names the bank and the sg of a pane that held it (R350, R418, R420). -/
def State.notePoison (s : State) (pane : Option (Nat × Nat)) (cause : BitVec 8) (tval : Word) : State :=
  let at0 := pane.getD (s.seqBank, 0)
  if cause = 0x14 then
    (s.modCore s.focus.core (fun c => { c with poisonCt := c.poisonCt + 1 })).logError 0x03 2 planeData (locOf s.focus.core at0.1 at0.2) 0x14 tval 0
  else s

/-- Where the vote unit copies a poisoned granule of a view page from (R341): the home for a staged page, another replica's
shadow for a shadow. -/
def cleanCopy (s : State) (a : Agent) (t : Seat) (v : ViewPage) : Nat :=
  if v.role = 1 then v.home
  else
    (((s.seatsOf t.launch t.task).filter (fun p => p != (a.core, a.base))).findSome? (fun p =>
      ((s.seatAt p.1 p.2).red.bind (fun r => r.view.find? (fun x => x.page == v.page))).map (·.stripe))).getD v.home

/-- The focus's replica counts as disagreeing at its next vote (R341). -/
def State.suspectNow (s : State) : State :=
  match (s.seat s.focus).red with
  | some r => s.modSeat s.focus (fun t => { t with red := some { r with suspect := true } })
  | none => s

/-- R341: a poisoned byte of a staged or shadow page is not delivered. The granule is copied again, the access is made again, and the replica
counts as disagreeing at its next vote (log 83). The copy waits for claims (R72). Poison at a home is delivered. -/
def State.repairView (s : State) (va : Nat) : Option State :=
  let t := s.seat s.focus
  t.red.bind fun r =>
    (r.view.find? (fun v => v.page == va / 2 ^ 16 && s.poisonAt (v.stripe + va % 2 ^ 16))).map fun v =>
      let off := va % 2 ^ 16 / 64 * 64
      let src := cleanCopy s s.focus t v + off
      match (heldAt s src).orElse (fun _ => heldAt s (v.stripe + off)) with
      | some w => s.waitOn w
      | none =>
        let s1 := (s.pokeBytes none (v.stripe + off) ((List.range 64).map (fun k => BitVec.ofNat 8 (s.peek (src + k) 1)))).setPoison (v.stripe + off) false
        s1.setSeat s.focus { s1.seat s.focus with red := some { r with suspect := true } }

/-- A trap of the focus's current single instruction (R103): xidx is 0 (log 14). Poison that a single instruction meets lies in memory. -/
def State.trapSingle (s : State) (cause : BitVec 8) (tval : Word) : State :=
  match (if cause = 0x14 then s.repairView (tval.toNat % 2 ^ 56) else none) with
  | some s' => s'
  | none => (s.notePoison none cause tval).takeTrap s.focus cause tval (s.part s.focus).pc (some 0)

/-- The end of a single instruction. -/
def finishSingle (r : State × Done) : Host.Outcome State Fault Refusal :=
  match r.2 with
  | .ok => .next r.1.retire
  | .trap c v => .next (r.1.trapSingle c v)
  | .wait w => .next (r.1.waitOn w)

/-! ## Instructions on registers alone -/

/-- An instruction that changes every active bank by itself and then retires. -/
def State.perBank (s : State) (f : Bank → Bank) : Host.Outcome State Fault Refusal :=
  .next ((s.onActive (fun _ b => f b)).retire)

/-- sD := f(bank). -/
def State.setReg (s : State) (d : BitVec 5) (f : Bank → Word) : Host.Outcome State Fault Refusal :=
  s.perBank (fun b => b.ws d (f b))

/-! ## Targets (R88, R89) -/

/-- The line address of an instruction address and its head number. -/
def lineOf (pc : Word) : Nat := pc.toNat / 64 * 64
def headNo (pc : Word) : Nat := pc.toNat % 64 / 2

/-- A parcel of the line at a physical address. -/
def parcelAt (s : State) (pa j : Nat) : BitVec 16 := BitVec.ofNat 16 (s.peek (pa + 2 * j) 2)

/-- Where the line at an address lies for fetch (R90): its physical address, the cause of the failure, or what it waits for. An SRAM
bank that is not in SCRATCH mode refuses it (R293; log 74). -/
def fetchPa (s : State) (c : Ctx) (line : Nat) : Res Nat :=
  (translate s c .fetch line).andThen fun p =>
    if p.peer ≠ 0 then .bad 5 0x16
    else
      match heldAt s p.pa with
      | some w => .wait w
      | none => if regionOf p.pa = .sram && modeAt s p.pa != 1 then .bad 6 0x13 else .ok p.pa

/-- The slot checks of R89, without that of CB for eret (R125). A line that must wait is waited for; one that cannot be fetched cannot be
checked. -/
def slotCheck (s : State) (c : Ctx) (cb : Bool) (target : Word) : Res Unit :=
  if target.getLsbD 0 || headNo target == 0 then .bad 0 0x03
  else
    match fetchPa s c (lineOf target) with
    | .ok pa =>
      if decide (headNo target ≤ (parcelAt s pa 0).toNat % 32) && (!cb || (parcelAt s pa (headNo target)).getLsbD 15) then .ok ()
      else .bad 0 0x03
    | .wait w => .wait w
    | .bad _ _ => .ok ()

/-- The context of the focus. -/
def State.fctx (s : State) : Ctx := ctxOf s s.focus
/-- The seat of the focus. -/
def State.fseat (s : State) : Seat := s.seat s.focus
/-- The part of the focus. -/
def State.fpart (s : State) : Part := s.part s.focus

/-- An instruction that checks a target under R89 first. -/
def afterSlot (s : State) (cb : Bool) (target : Word) (go : State) : Host.Outcome State Fault Refusal :=
  match slotCheck s s.fctx cb target with
  | .ok _ => .next go
  | .bad _ k => .next (s.trapSingle k target)
  | .wait w => .next (s.waitOn w)

/-- A transfer to a target, checked under R89. `link` performs what the transfer writes beside the pc. -/
def transfer (s : State) (target : Word) (link : State → State) : Host.Outcome State Fault Refusal :=
  afterSlot s true target ((link s).jumpTo target)

/-! ## Echoed values (R339) -/

/-- The replica at work is the one that performs (R332, R338). -/
def Replica.leads (r : Replica) : Bool := r.performer || r.lead

/-- Append an echoed value to the echo log of every replica of a task. -/
def State.appendEcho (s : State) (l t : Nat) (v : Word) : State :=
  (s.seatsOf l t).foldl
    (fun s p =>
      match s.seat? p.1 p.2 with
      | some x => s.setSeat? p.1 p.2 (some { x with red := x.red.map (fun r => { r with echoLog := r.echoLog ++ [v] }) })
      | none => s) s

/-- Advance the focus's place in its echo log. -/
def State.passEcho (s : State) : State :=
  s.modSeat s.focus (fun x => { x with red := x.red.map (fun r => { r with echoPos := r.echoPos + 1 }) })

/-- A value that a replica takes from its echo log, or that the leader computes and echoes. Without redundancy it is
computed. -/
def State.echoed (s : State) (mk : State → Word × State) : Res (Word × State) :=
  match s.fseat.red with
  | none => .ok (mk s)
  | some r =>
    match r.echoLog.drop r.echoPos with
    | v :: _ => .ok (v, s.passEcho)
    | [] =>
      if r.leads then
        let x := mk s
        .ok (x.1, (x.2.appendEcho s.fseat.launch s.fseat.task x.1).passEcho)
      else .wait .echo

/-- Per-bank echoed values written to sD, lowest bank first; a wait performs nothing. -/
def echoInto (s0 : State) (d : BitVec 5) (mk : Nat → State → Word × State) : List Nat → State → State × Done
  | [], s => (s, .ok)
  | b :: bs, s =>
    match s.echoed (mk b) with
    | .ok x => echoInto s0 d mk bs (x.2.modBank s.focus.core b (fun y => y.ws d x.1))
    | .wait w => (s0, .wait w)
    | .bad _ k => (s0, .trap k 0)

/-! ## Depth and level -/

/-- Instructions that must run at DEPTH 0 (R123, R158, R226, R237). -/
def atDepth0 (s : State) (r : Host.Outcome State Fault Refusal) : Host.Outcome State Fault Refusal :=
  if s.fpart.depth = 0 then r else .next (s.trapSingle 0x01 (BitVec.ofNat 64 s.fpart.depth))

end Sys2Proof.Machine
end

