-- ==== Sys2Proof/Machine/Geom.lean ====
section
/-! DEFINITION. Sys2Proof/Machine/Geom.lean: formats by T code (R40) and where elements live (R33-R37). -/

namespace Sys2Proof.Machine

/-- bits(f) of a T code (R40). -/
def fmtBits (t : BitVec 4) : Nat :=
  match t.toNat with
  | 0 | 1 | 8 | 9 => 8
  | 2 | 3 | 10 | 11 => 16
  | 6 | 7 => 4
  | _ => 32

/-- The floating format of a T code 8-12. -/
def floatOf (t : BitVec 4) : Option Fmt :=
  match t.toNat with
  | 8 => some e4m3Fmt
  | 9 => some e5m2Fmt
  | 10 => some f16Fmt
  | 11 => some bf16Fmt
  | 12 => some f32Fmt
  | _ => none

/-- T is a two's complement integer format. -/
def isSigned (t : BitVec 4) : Bool := t == 0 || t == 2 || t == 4 || t == 6
/-- T 8-12: every floating format. -/
def isFL (t : BitVec 4) : Bool := 8 ≤ t.toNat && t.toNat ≤ 12
/-- T 10-12: the wide floating formats. -/
def isFW (t : BitVec 4) : Bool := 10 ≤ t.toNat && t.toNat ≤ 12
/-- T 0-6: every integer format. -/
def isIN (t : BitVec 4) : Bool := t.toNat ≤ 6
/-- T 0-5: the integer formats without i4. -/
def isIW (t : BitVec 4) : Bool := t.toNat ≤ 5

/-- The integer an encoding of w bits stands for. -/
def toIntW (sgn : Bool) (w n : Nat) : Int := if sgn && decide (2 ^ (w - 1) ≤ n) then (n : Int) - 2 ^ w else n

/-- The low w bits of an integer. -/
def ofIntW (w : Nat) (z : Int) : Nat := (z % 2 ^ w).toNat

/-- The panes of a group code (R93). -/
def groupSize (g : BitVec 2) : Nat := 2 ^ g.toNat

/-- The visible pane size V (R33). -/
def Seat.paneSize (t : Seat) : Nat := 2 ^ t.lcap

/-- E': elements of b bits in a visible pane (R33). -/
def Seat.perPane (t : Seat) (b : Nat) : Nat := 8 * t.paneSize / b

/-- L: local elements of a group (R33). -/
def Seat.local_ (t : Seat) (b g : Nat) : Nat := g * t.perPane b

/-- VLMAX (R33). -/
def Seat.vlMax (t : Seat) (b g : Nat) : Nat := t.size * t.local_ b g

/-- A group is aligned (R34). -/
def groupOk (wd g : Nat) : Bool := wd % g == 0 && decide (wd + g ≤ 12)

/-- mask(m, j) for L local elements, before N (R37). -/
def maskBit (m : BitVec 4096) (l j : Nat) : Bool := if l ≤ 4096 then m.getLsbD j else m.getLsbD (j / (l / 4096))

/-- The mask of an instruction at element j of a bank: field 0 is unmasked, N inverts (R37). -/
def maskAt (b : Bank) (m : BitVec 3) (n : Bool) (l j : Nat) : Bool :=
  if m = 0 then true else maskBit (b.rm m.toNat) l j != n

/-- An element of a pane: position p of b bits (R33). -/
def PaneImage.elem (i : PaneImage) (b p : Nat) : Nat :=
  if b = 4 then (i.byte (p / 2)).toNat / (if p % 2 = 0 then 1 else 16) % 16 else readLE i.data (p * (b / 8)) (b / 8)

/-- Write n bytes of a pane. -/
def PaneImage.setBytes (i : PaneImage) (k v : Nat) : Nat → PaneImage
  | 0 => i
  | n + 1 => PaneImage.setBytes (i.setByte k (BitVec.ofNat 8 v)) (k + 1) (v / 256) n

/-- Write an element of a pane. -/
def PaneImage.setElem (i : PaneImage) (b p v : Nat) : PaneImage :=
  if b = 4 then i.setHalf p v
  else i.setBytes (p * (b / 8)) v (b / 8)

/-- Local element j of a group: its pane and position (R33). -/
def Seat.place (t : Seat) (b w j : Nat) : Nat × Nat := (w + j / t.perPane b, j % t.perPane b)

/-- elem(w, bank, j, f). -/
def Bank.elem (x : Bank) (t : Seat) (b w j : Nat) : Nat :=
  ((x.pane (t.place b w j).1).img).elem b (t.place b w j).2

/-- elem(w, bank, j, f) := v; an OPEN-CLEAN pane becomes OPEN-DIRTY (R67). -/
def Bank.setElem (x : Bank) (t : Seat) (b w j v : Nat) : Bank :=
  let q := t.place b w j
  let p := x.pane q.1
  x.setPane q.1 ({ p with img := p.img.setElem b q.2 v } : Pane).dirtied

/-- The granule of an element is poisoned (R350). -/
def Bank.elemPoison (x : Bank) (t : Seat) (b w j : Nat) : Bool :=
  ((x.pane (t.place b w j).1).img).poisonAt ((t.place b w j).2 * b / 8)

/-- tval of a poisoned pane granule (R350). -/
def panePoisonTval (t : Seat) (bank b w j : Nat) : Word :=
  BitVec.ofNat 64 ((t.place b w j).1 + bank * 16 + (t.place b w j).2 * b / 8 / 64 * 256)

/-- tval of the pane-closed and pane-state traps (R67). -/
def paneTval (n bank : Nat) : Word := BitVec.ofNat 64 (n + bank * 16)

end Sys2Proof.Machine
end

