-- ==== Sys2Proof/Machine/Addr.lean ====
section
/-! DEFINITION. Sys2Proof/Machine/Addr.lean: address registers and strip-mining (R144-R147). -/

namespace Sys2Proof.Machine

/-- amov (R144). -/
def execAmov (d a : BitVec 3) (s : State) : Host.Outcome State Fault Refusal := s.perBank (fun x => x.wa d (x.ra a))

/-- aset: element size code and address (R144). -/
def execAset (d : BitVec 3) (a z : BitVec 5) (s : State) : Host.Outcome State Fault Refusal :=
  s.perBank (fun x => x.wa d (z.setWidth 3 ++ 0#5 ++ (x.rs a).extractLsb' 0 56))

/-- The address moved by an offset, modulo 2^56; ESZ kept (R144). -/
def aMove (v : Word) (off : Word) : Word := v.extractLsb' 61 3 ++ 0#5 ++ (v + off).extractLsb' 0 56

/-- aadd (R144). -/
def execAadd (d a : BitVec 3) (b : BitVec 5) (s : State) : Host.Outcome State Fault Refusal :=
  s.perBank (fun x => x.wa d (aMove (x.ra a) (x.rs b)))

/-- amovs (R144). -/
def execAmovs (d : BitVec 5) (a : BitVec 3) (s : State) : Host.Outcome State Fault Refusal := s.setReg d (fun x => x.ra a)

/-- aaddi (R145). -/
def execAaddi (d a : BitVec 3) (imm : BitVec 22) (s : State) : Host.Outcome State Fault Refusal :=
  s.perBank (fun x => x.wa d (aMove (x.ra a) (imm.signExtend 64)))

/-! ## smine (R146, R147) -/

/-- The pointer registers in use. -/
def sminePtrs (o : SmineOps) : List (BitVec 3) := [o.p0, o.p1, o.p2, o.p3].take o.n.toNat

/-- The bytes a pointer of element size code z advances over g elements (R147). -/
def strideOf (z g : Nat) : Nat := if z = 5 then (g + 1) / 2 else g * 2 ^ z

/-- Advance the pointers. -/
def Bank.advancePtrs (b : Bank) (g : Nat) : List (BitVec 3) → Bank
  | [] => b
  | p :: ps => Bank.advancePtrs (b.wa p (aMove (b.ra p) (BitVec.ofNat 64 (strideOf (aEsz (b.ra p)) g)))) g ps

/-- The count that remains after a strip of g. -/
def remaining (c : Word) (g : Nat) : Word := if g < c.toNat then c - BitVec.ofNat 64 g else 0

/-- The new strip length of a bank. -/
def stripLen (c : Word) (g vlmax : Nat) : Nat := min (remaining c g).toNat vlmax

/-- smine in one bank. In a split part the loops over the sash's banks (R147) are over its active banks (R120; DESIGN CHOICE,
log 111). -/
def smineBank (o : SmineOps) (g vlmax : Nat) (b : Bank) : Bank :=
  ((b.advancePtrs g (sminePtrs o)).ws o.c (remaining (b.rs o.c) g)).ws o.d (BitVec.ofNat 64 (stripLen (b.rs o.c) g vlmax))

/-- The first pointer register with ESZ 6 or 7, lowest bank first (R14, R147). -/
def badPtr (s : State) (ps : List (BitVec 3)) : Option (BitVec 3) :=
  (s.active.flatMap (fun b => ps.filter (fun p => decide (6 ≤ aEsz ((s.fbank b).ra p))))).head?

/-- smine (R147). vl becomes the sequencer bank's new length, effective at the next convoy. -/
def execSmine (o : SmineOps) (s : State) : Host.Outcome State Fault Refusal :=
  match badPtr s (sminePtrs o) with
  | some p => .next (s.trapSingle 0x01 (p.setWidth 64))
  | none =>
    let g := s.fpart.vlNow
    let m := s.fseat.vlMax (fmtBits o.t) (groupSize o.g)
    let new := stripLen (s.seqReg o.c) g m
    .next (((s.onActive (fun _ b => smineBank o g m b)).modPart s.focus (fun p => { p with vl := new })).retire)

end Sys2Proof.Machine
end

