-- ==== Sys2Proof/WellFormed.lean ====
section
/-! DEFINITION. Sys2Proof/WellFormed.lean: which instructions R93 and R94 admit: panes 0-11, codes of R109, fields the
entries declare unused at zero. A T code 0-12 (R40) is asked apart, because its trap reports T. -/

namespace Sys2Proof

/-- A pane field names w0-w11 (R94). -/
def paneOk (p : BitVec 4) : Bool := p.toNat ≤ 11

/-- M = 0 with N = 1 is illegal (R94). -/
def maskOk (m : BitVec 3) (n : Bool) : Bool := m != 0 || !n

/-- A V- or M-form field that must name m1-m7 (R185, R210). -/
def maskRegOk (x : BitVec 4) : Bool := 1 ≤ x.toNat && x.toNat ≤ 7

/-- Shape binary (R185): the second source that SV does not choose is no field marked 0 (log 19). -/
def VOps.binaryOk (o : VOps) : Bool :=
  paneOk o.wd && paneOk o.wa && paneOk o.wb && maskOk o.m o.n && o.sv != 3

/-- Shape unary (R185). -/
def VOps.unaryOk (o : VOps) : Bool :=
  paneOk o.wd && paneOk o.wa && o.wb == 0 && o.s == 0 && o.sv == 0 && maskOk o.m o.n

/-- Shape bcast (R185). -/
def VOps.bcastOk (o : VOps) : Bool :=
  paneOk o.wd && o.wa == 0 && o.wb == 0 && o.sv != 3 && maskOk o.m o.n

/-- Shape compare (R185). -/
def VOps.compareOk (o : VOps) : Bool :=
  maskRegOk o.wd && paneOk o.wa && paneOk o.wb && maskOk o.m o.n && o.sv != 3

/-- Shape mask logic (R185). -/
def VOps.logicOk (o : VOps) : Bool :=
  maskRegOk o.wd && maskRegOk o.wa && maskRegOk o.wb && o.s == 0 && o.sv == 0 && maskOk o.m o.n

/-- Shape mask logic of mnot, whose mb is zero (R185). -/
def VOps.mnotOk (o : VOps) : Bool :=
  maskRegOk o.wd && maskRegOk o.wa && o.wb == 0 && o.s == 0 && o.sv == 0 && maskOk o.m o.n

/-- Shape mask count (R185). -/
def VOps.countOk (o : VOps) : Bool :=
  o.wd == 0 && maskRegOk o.wa && o.wb == 0 && o.sv == 0 && maskOk o.m o.n

/-- Shape mixed (R185): y[9] zero; `two` says whether Wb is a source. -/
def VOps.mixedOk (two : Bool) (o : VOps) : Bool :=
  paneOk o.wd && paneOk o.wa && (if two then paneOk o.wb else o.wb == 0) && o.s.toNat < 16 && o.sv == 0 && maskOk o.m o.n

/-- Shape reduce (R185). -/
def VOps.reduceOk (o : VOps) : Bool :=
  o.wd == 0 && paneOk o.wa && o.wb == 0 && o.sv == 0 && maskOk o.m o.n

/-- The fields of a vector memory instruction (R209): whether it uses the base, S, Wi and the mask. -/
def MOps.ok (base s wi mask : Bool) (o : MOps) : Bool :=
  paneOk o.w && (base || o.a == 0) && (s || o.s == 0) && (if wi then paneOk o.wi else o.wi == 0) &&
    (if mask then maskOk o.m o.n else o.m == 0 && !o.n)

/-- The E form (R93, R94): AF = 0 asks Ka = 0; `da`, `sa`, `c` say which register fields are used. -/
def EOps.ok (da sa c : Bool) (o : EOps) : Bool :=
  (o.af || o.ka == 0) && (da || o.da == 0) && (sa || o.sa == 0) && (c || o.c == 0)

/-- smine (R146): C is not 0, n at most 4, a slot at or above n zero, no a-register twice. -/
def SmineOps.ok (o : SmineOps) : Bool :=
  o.c != 0 && o.n.toNat ≤ 4 &&
    (([o.p0, o.p1, o.p2, o.p3].drop o.n.toNat).all (· == 0)) &&
    decide (([o.p0, o.p1, o.p2, o.p3].take o.n.toNat).Nodup)

/-- The fields of an instruction are ones that R93, R94 and its entry admit. Steps of the part have no fields of an
encoding. -/
def Instr.formOk : Instr → Bool
  | .bany c _ _ _ | .ball c _ _ _ => c.toNat ≤ 5
  | .split _ c _ _ _ => c.toNat ≤ 5
  | .slli _ _ i | .srli _ _ i | .srai _ _ i => i.toNat ≤ 63
  | .push a b | .pop a b => 1 ≤ a.toNat && a.toNat ≤ b.toNat
  | .aset _ _ z => z.toNat ≤ 5
  | .smine o => o.ok
  | .act n _ | .wbto n _ => paneOk n
  | .actz n | .wb n | .pre n | .rfsh n => paneOk n
  | .rcopy n _ _ => paneOk n
  | .shut n k | .reopen n k => paneOk n && k.toNat ≤ 7
  | .pstat _ n => paneOk n
  | .rshufRot wd ws _ | .rshufXor wd ws _ | .rshufBcast wd ws _ => paneOk wd && wd.toNat != ws.toNat
  | .rshufRev wd ws => paneOk wd && wd.toNat != ws.toNat
  | .vadd o | .vsub o | .vmul o | .vfma o | .vfms o | .vfnma o | .vmin o | .vmax o | .vdiv o | .vmulh o
  | .vadds o | .vsubs o | .vand o | .vor o | .vxor o | .vandn o | .vsll o | .vsrl o | .vsra o | .vfsl o
  | .vfsr o | .vsel o | .vslideUp o | .vslideDn o | .vgmax o => o.binaryOk
  | .vabs o | .vneg o | .vsqrt o | .vrcp o | .vrsq o | .vexp2 o | .vlog2 o | .vnot o | .vclz o | .vpopc o
  | .vmov o | .vcompress o | .vscan o => o.unaryOk
  | .vbcast o => o.bcastOk
  | .vcmpEq o | .vcmpNe o | .vcmpLt o | .vcmpLe o | .vcmpGt o | .vcmpGe o => o.compareOk
  | .mand o | .mor o | .mxor o => o.logicOk
  | .mnot o => o.mnotOk
  | .mpopc o | .mfirst o => o.countOk
  | .vcvt o | .vqenc o | .vqdec o => o.mixedOk false
  | .vwfma o | .vdot o => o.mixedOk true
  | .vredSum o | .vredMax o | .vredMin o | .vredAnd o | .vredOr o => o.reduceOk
  | .vidx o => paneOk o.wd
  | .vld o | .vst o => o.ok true false false true
  | .vlds o | .vsts o | .vstb o => o.ok true true false true
  | .vldx o | .vstx o | .vldl o => o.ok true false true true
  | .vstc o => o.ok true true true true
  | .vspill o | .vfill o => o.ok true false false false
  | .vlq o => o.ok false true false false
  | .cpy o => o.ok true true true
  | .cpy2d o => o.ok true true true
  | .rsct o => o.ok true true true
  | .coll o | .red o => o.ok false true false
  | .gath o | .nmo o => o.ok true true true
  | .mmma o => o.ok false false false && o.opts.toNat < 2 ^ 15 && paneOk (o.opts.extractLsb' 3 4) && paneOk (o.opts.extractLsb' 7 4)
  | .mdrain o => o.ok true false true && o.opts.toNat < 2 ^ 11
  | .tspawn o | .launch o => o.ok false true false && o.opts == 0
  | .mzero d => d.toNat ≤ 7
  | .kwait _ p sc => p.toNat ≤ 8 && sc.toNat ≤ 11
  | .kwaitNt _ _ sc => sc.toNat ≤ 11
  | .kinfo _ _ w => w.toNat ≤ 4
  | .fence sc => sc.toNat ≤ 11
  | .fbar _ sc => sc.toNat ≤ 11
  | .xfence p q sc => p.toNat ≤ 8 && q.toNat ≤ 8 && sc.toNat ≤ 11
  | .await v _ => v != 0
  | .nop | .brk | .ifence | .tend | .tyield | .rel | .echo | .claim | .eret | .trap _ | .sjoin _ | .j _
  | .jl _ _ | .jr _ | .jlr _ _ | .bEq _ _ _ | .bNe _ _ _ | .bLt _ _ _ | .bGe _ _ _ | .bLtu _ _ _
  | .bGeu _ _ _ | .getc _ _ | .setc _ _ | .rnd _ | .add _ _ _ | .sub _ _ _ | .mul _ _ _ | .mulh _ _ _
  | .mulhu _ _ _ | .div _ _ _ | .divu _ _ _ | .rem _ _ _ | .remu _ _ _ | .and _ _ _ | .or _ _ _
  | .xor _ _ _ | .andn _ _ _ | .sll _ _ _ | .srl _ _ _ | .sra _ _ _ | .rol _ _ _ | .ror _ _ _ | .slt _ _ _
  | .sltu _ _ _ | .min _ _ _ | .max _ _ _ | .minu _ _ _ | .maxu _ _ _ | .fsl _ _ _ | .fsr _ _ _
  | .csel _ _ _ | .clz _ _ | .ctz _ _ | .popc _ _ | .sextB _ _ | .sextH _ _ | .sextW _ _ | .zextB _ _
  | .zextH _ _ | .zextW _ _ | .bswap _ _ | .addi _ _ _ | .andi _ _ _ | .ori _ _ _ | .xori _ _ _
  | .slti _ _ _ | .sltiu _ _ _ | .li _ _ | .lih _ _ | .ldB _ _ _ | .ldBu _ _ _ | .ldH _ _ _ | .ldHu _ _ _
  | .ldW _ _ _ | .ldWu _ _ _ | .ldD _ _ _ | .ldAcqW _ _ _ | .ldAcqD _ _ _ | .stB _ _ _ | .stH _ _ _
  | .stW _ _ _ | .stD _ _ _ | .stRelW _ _ _ | .stRelD _ _ _ | .amoAdd _ _ _ | .amoAnd _ _ _ | .amoOr _ _ _
  | .amoXor _ _ _ | .amoMin _ _ _ | .amoMax _ _ _ | .amoMinu _ _ _ | .amoMaxu _ _ _ | .amoSwap _ _ _
  | .amoFadd _ _ _ | .amoCas _ _ _ | .faddF32 _ _ _ | .fsubF32 _ _ _ | .fmulF32 _ _ _ | .fdivF32 _ _ _
  | .fsqrtF32 _ _ | .fminF32 _ _ _ | .fmaxF32 _ _ _ | .feqF32 _ _ _ | .fltF32 _ _ _ | .fleF32 _ _ _
  | .fclassF32 _ _ | .fnegF32 _ _ | .fabsF32 _ _ | .fmaF32 _ _ _ | .fmsF32 _ _ _ | .faddF64 _ _ _
  | .fsubF64 _ _ _ | .fmulF64 _ _ _ | .fdivF64 _ _ _ | .fsqrtF64 _ _ | .fminF64 _ _ _ | .fmaxF64 _ _ _
  | .feqF64 _ _ _ | .fltF64 _ _ _ | .fleF64 _ _ _ | .fclassF64 _ _ | .fnegF64 _ _ | .fabsF64 _ _
  | .fmaF64 _ _ _ | .fmsF64 _ _ _ | .fcvtF32I64 _ _ | .fcvtF32N64 _ _ | .fcvtI64F32 _ _ | .fcvtN64F32 _ _
  | .fcvtF64I64 _ _ | .fcvtF64N64 _ _ | .fcvtI64F64 _ _ | .fcvtN64F64 _ _ | .fcvtF64F32 _ _
  | .fcvtF32F64 _ _ | .fcvtBf16F32 _ _ | .fcvtF32Bf16 _ _ | .amov _ _ | .aadd _ _ _ | .amovs _ _
  | .aaddi _ _ _ | .mattach _ _ | .mdetach | .mshape _ | .kpoll _ _ | .kcancel _ | .kdetach _ _
  | .kadopt _ _ | .kprio _ _ | .bwait _ | .ipost _ _ | .iwait _ _ | .tlbinv _ _ | .issueAfterInterlock _ _
  | .openingEnd _ _ _ | .writingEnd _ _ _ | .closingEnd _ _ _ | .claimEviction _ _ _ | .refreshTick _ _ _
  | .refreshDeadlineTrap _ _ _ | .forcedRefresh _ _ _ | .tempSensorUpdate _ _ _ | .bondRepair _
  | .translationWalkEnd _ _ _ | .kwaitEnd _ _ | .awaitRecheck _ _ | .bwaitEnd _ _ | .fbarArrive _ _
  | .iwaitEnd _ _ | .tendWaitEnd _ _ | .mdetachWaitEnd _ _ | .mzeroWaitEnd _ _ | .xfenceWaitEnd _ _
  | .fifoWaitEnd _ _ | .opStart _ | .copyGranule _ | .rsctTrain _ | .collGranule _ _ | .redGranule _
  | .gathGranule _ | .nmoGranule _ | .mmmaKstep _ | .mdrainGranule _ | .enginePriorityAging _
  | .launchStart _ | .tspawnStart _ | .taskReady _ _ | .dispatchOffer _ | .preemptionTake _ _ _
  | .preemptHandlerTimeout _ _ | .seatSave _ _ | .schedulerStateError _ _ _ | .vote _ _ | .voteTimeout _ _
  | .sramModeWrite _ _ _ | .sramFifoClr _ _ | .sramModeChangeEnd _ _ | .migreqPromote _ _
  | .migreqDemote _ _ | .migrationStart _ | .migrationFinish _ | .migrationAutoSelect _ _ _ _
  | .flitTransmit _ | .flitReceive _ _ | .ackTimeout _ | .strandDeath _ _ | .linkTimeout _ | .peerTimeout _
  | .linkTrainingEnd _ _ _ _ | .lnkctlEnSet _ | .lnkctlEnClear _ | .lnkctlRetrain _ | .lnkctlParkWrite _ _
  | .wavelengthWakeEnd _ | .peerFailedClear _ | .lqQuiet _ | .lqcfgWrite _ _ | .lattolWrite _
  | .coreIdleEntry _ | .coreDozeEntry _ | .stackNapEntry _ | .powerWake _ | .powerExitEnd _
  | .pwrcmdShutter | .pwrcmdResume | .pwrcmdResumeDiscard | .platformPowerEvent | .supplyDip | .supplyFail
  | .shutterPhase1 | .shutterPhase2 | .shutterPhase3 | .shutterGranuleTimeout _ | .shutterPhase4
  | .shutterLinkTimeout _ | .shutterPhase5 | .resumptionEnd | .autoResume | .dutyUpdate _ _ _
  | .powerFloorTimeout | .pcapWrite _ _ | .thrFloorWrite _ | .mgmtTelemetry | .telemetrySnapshot
  | .mgmtLogExport | .mgmtFirmware _ _ | .mgmtPowerCap _ _ | .mgmtShutter _ | .mgmtOff
  | .mgmtQuarantine _ _ | .mgmtMemoryRead _ _ | .elpostAppend _ | .quarWrite _ _ | .powerOnReset
  | .bootFirmwareLoad _ _ | .bootSillInit _ _ | .bootOsLoad _ | .bootStep5Timeout | .ccstart _
  | .ccbootDone | .ccbarCountWrite _ _ | .ccTimer _ | .lcmdPause _ | .lcmdResume _ | .lcmdCancel _
  | .lcmdExport _ _ | .lcmdRetarget _ _ | .lcmdComplete | .ctxPoolWrite _ _ | .registerWrite _ _
  | .supplySteady | .wavelengthDark _ | .seatFormingEnd _ _ => true

/-- The format code T of an instruction that has one (R40). -/
def Instr.tCode : Instr → Option (BitVec 4)
  | .vadd o | .vsub o | .vmul o | .vfma o | .vfms o | .vfnma o | .vmin o | .vmax o | .vabs o | .vneg o
  | .vdiv o | .vsqrt o | .vrcp o | .vrsq o | .vexp2 o | .vlog2 o | .vmulh o | .vadds o | .vsubs o | .vand o
  | .vor o | .vxor o | .vnot o | .vandn o | .vsll o | .vsrl o | .vsra o | .vfsl o | .vfsr o | .vclz o
  | .vpopc o | .vcmpEq o | .vcmpNe o | .vcmpLt o | .vcmpLe o | .vcmpGt o | .vcmpGe o | .mand o | .mor o
  | .mxor o | .mnot o | .mpopc o | .mfirst o | .vsel o | .vmov o | .vbcast o | .vslideUp o | .vslideDn o
  | .vcompress o | .vcvt o | .vwfma o | .vdot o | .vqenc o | .vqdec o | .vredSum o | .vredMax o
  | .vredMin o | .vredAnd o | .vredOr o | .vgmax o | .vscan o => some o.t
  | .vidx o => some o.t
  | .vld o | .vlds o | .vldx o | .vst o | .vsts o | .vstx o | .vstb o | .vldl o | .vstc o | .vspill o
  | .vfill o | .vlq o => some o.t
  | .smine o => some o.t
  | .coll o | .red o | .nmo o => some (o.opts.extractLsb' 5 4)
  | .mdrain o => some (o.opts.extractLsb' 7 4)
  | _ => none

/-- R40: T codes 13-15 are no format. -/
def Instr.fmtOk (i : Instr) : Bool :=
  match i.tCode with
  | some t => t.toNat ≤ 12
  | none => true

/-- An instruction that the decoder accepts and whose T names a format. -/
def Instr.wellFormed (i : Instr) : Bool := i.formOk && i.fmtOk

end Sys2Proof
end

