-- ==== Sys2Proof/Decode.lean ====
section
/-! DEFINITION. Sys2Proof/Decode.lean: the encodings of R85-R95 and R105, the decoder (total, rejecting by name) and the
encoder. A head is CB, TL, OP and X (R91); the tail y is read as 48 bits, the bits above the tail's length zero. -/

namespace Sys2Proof

/-- Why a head and its tail are no instruction (all trap illegal instruction, R92-R94, R107). -/
inductive DecodeError where
  /-- OP is none of the 39 assigned (R107). -/
  | unassignedOpcode
  /-- TL differs from the opcode's form (R92). -/
  | wrongTailLength
  /-- The function value is unassigned within the opcode (R94). -/
  | unassignedFunction
  /-- A field that the form or the entry marks zero is not zero (R93, R94). -/
  | fieldNotZero
  /-- A field holds a value its entry does not admit: a pane 12-15, an unlisted code (R94, R109). -/
  | fieldOutOfRange
deriving DecidableEq, Repr

/-- An encoded instruction without its CB bit: opcode, operand bits X, tail length in parcels, tail bits y. -/
structure Enc where
  op : BitVec 7
  x : BitVec 6
  tl : BitVec 2
  y : BitVec 48
deriving DecidableEq, Repr

/-! ## Fields of X -/

def xD (x : BitVec 6) : BitVec 5 := x.extractLsb' 0 5
def xD3 (x : BitVec 6) : BitVec 3 := x.extractLsb' 0 3
def xN (x : BitVec 6) : BitVec 4 := x.extractLsb' 0 4
def xC (x : BitVec 6) : BitVec 3 := x.extractLsb' 0 3
def xId (x : BitVec 6) : BitVec 3 := x.extractLsb' 3 3

/-! ## Fields of the tails (R93) -/

def packA (f : BitVec 6) (a b : BitVec 5) : BitVec 48 := 0#32 ++ f ++ a ++ b
def aF (y : BitVec 48) : BitVec 6 := y.extractLsb' 10 6
def aA (y : BitVec 48) : BitVec 5 := y.extractLsb' 5 5
def aA3 (y : BitVec 48) : BitVec 3 := y.extractLsb' 5 3
def aB (y : BitVec 48) : BitVec 5 := y.extractLsb' 0 5
/-- The path field of kwait and xfence (R158, R242). -/
def kP (y : BitVec 48) : BitVec 4 := y.extractLsb' 5 4

def packAC (f : BitVec 6) (i : BitVec 10) : BitVec 48 := 0#32 ++ f ++ i
def acIdx (y : BitVec 48) : BitVec 10 := y.extractLsb' 0 10

def packB (a f : BitVec 5) (i : BitVec 22) : BitVec 48 := 0#16 ++ a ++ f ++ i
def bA (y : BitVec 48) : BitVec 5 := y.extractLsb' 27 5
def bA3 (y : BitVec 48) : BitVec 3 := y.extractLsb' 27 3
def bF (y : BitVec 48) : BitVec 5 := y.extractLsb' 22 5
def bImm (y : BitVec 48) : BitVec 22 := y.extractLsb' 0 22

def packC (f : BitVec 16) (i : BitVec 32) : BitVec 48 := f ++ i
def cF (y : BitVec 48) : BitVec 16 := y.extractLsb' 32 16
def cImm (y : BitVec 48) : BitVec 32 := y.extractLsb' 0 32

def packJ (a b : BitVec 5) (o : BitVec 22) : BitVec 48 := 0#16 ++ a ++ b ++ o
def jA (y : BitVec 48) : BitVec 5 := y.extractLsb' 27 5
def jB (y : BitVec 48) : BitVec 5 := y.extractLsb' 22 5
def jOff (y : BitVec 48) : BitVec 22 := y.extractLsb' 0 22

def packW (a : BitVec 3) (s : BitVec 5) (f k : BitVec 4) : BitVec 48 := 0#32 ++ a ++ s ++ f ++ k
def wA (y : BitVec 48) : BitVec 3 := y.extractLsb' 13 3
def wS (y : BitVec 48) : BitVec 5 := y.extractLsb' 8 5
def wF (y : BitVec 48) : BitVec 4 := y.extractLsb' 4 4
def wK (y : BitVec 48) : BitVec 4 := y.extractLsb' 0 4

def bit (b : Bool) : BitVec 1 := if b then 1 else 0

def packV (o : VOps) (f : BitVec 6) : BitVec 48 :=
  0#16 ++ o.wa ++ o.wb ++ o.t ++ o.m ++ bit o.n ++ f ++ o.s ++ o.rm ++ bit o.sat ++ o.sv
def vF (y : BitVec 48) : BitVec 6 := y.extractLsb' 10 6
def parseV (x : BitVec 6) (y : BitVec 48) : VOps :=
  { g := x.extractLsb' 4 2, wd := x.extractLsb' 0 4, wa := y.extractLsb' 28 4, wb := y.extractLsb' 24 4
    t := y.extractLsb' 20 4, m := y.extractLsb' 17 3, n := y.getLsbD 16, s := y.extractLsb' 5 5
    rm := y.extractLsb' 3 2, sat := y.getLsbD 2, sv := y.extractLsb' 0 2 }

def parseVx (x : BitVec 6) (y : BitVec 48) : VxOps :=
  { g := x.extractLsb' 4 2, wd := x.extractLsb' 0 4, start := y.extractLsb' 24 24, step := y.extractLsb' 8 16
    t := y.extractLsb' 4 4, m := y.extractLsb' 1 3 }

def packM (o : MOps) (f : BitVec 4) : BitVec 48 :=
  0#16 ++ o.a ++ o.s ++ o.t ++ o.m ++ bit o.n ++ f ++ o.wi ++ 0#8
def mF (y : BitVec 48) : BitVec 4 := y.extractLsb' 12 4
def parseM (x : BitVec 6) (y : BitVec 48) : MOps :=
  { g := x.extractLsb' 4 2, w := x.extractLsb' 0 4, a := y.extractLsb' 29 3, s := y.extractLsb' 24 5
    t := y.extractLsb' 20 4, m := y.extractLsb' 17 3, n := y.getLsbD 16, wi := y.extractLsb' 8 4 }

def packE (o : EOps) (f : BitVec 6) : BitVec 48 :=
  f ++ o.da ++ o.sa ++ o.c ++ bit o.af ++ o.ka ++ bit o.dt ++ 0#3 ++ o.opts
def eF (y : BitVec 48) : BitVec 6 := y.extractLsb' 42 6
def parseE (x : BitVec 6) (y : BitVec 48) : EOps :=
  { padj := x.extractLsb' 4 2, kd := x.extractLsb' 0 4, da := y.extractLsb' 39 3, sa := y.extractLsb' 36 3
    c := y.extractLsb' 31 5, af := y.getLsbD 30, ka := y.extractLsb' 26 4, dt := y.getLsbD 25, opts := y.extractLsb' 0 22 }

/-- smine's fields of F16 and imm32 (R146). -/
def parseSmine (x : BitVec 6) (y : BitVec 48) : SmineOps :=
  { d := xD x, c := y.extractLsb' 43 5, n := y.extractLsb' 40 3, t := y.extractLsb' 36 4, g := y.extractLsb' 34 2
    p0 := y.extractLsb' 0 3, p1 := y.extractLsb' 3 3, p2 := y.extractLsb' 6 3, p3 := y.extractLsb' 9 3 }

/-! ## The opcode map (R105, R106) -/

/-- The tail length that an assigned opcode's form fixes (R92); none for the unassigned opcodes of R107. -/
def formTl (op : BitVec 7) : Option (BitVec 2) :=
  match op.toNat with
  | 0x00 | 0x01 | 0x02 | 0x0D => some 0
  | 0x06 | 0x0C | 0x10 | 0x11 | 0x16 | 0x17 | 0x18 | 0x19 | 0x40 | 0x41 | 0x5A | 0x5C | 0x5D | 0x60 => some 1
  | 0x08 | 0x09 | 0x0A | 0x12 | 0x14 | 0x15 | 0x1A | 0x48 | 0x49 | 0x4A | 0x4C | 0x4D | 0x50 => some 2
  | 0x04 | 0x05 | 0x13 | 0x1B | 0x4B | 0x58 | 0x59 | 0x5E => some 3
  | _ => none

def parse00 (x : BitVec 6) (_ : BitVec 48) : Option Instr :=
  match x.toNat with
  | 0 => some (.nop)
  | 1 => some (.brk)
  | 2 => some (.ifence)
  | 3 => some (.tend)
  | 4 => some (.tyield)
  | 5 => some (.rel)
  | 6 => some (.echo)
  | 7 => some (.claim)
  | 8 => some (.eret)
  | _ => none

def parse01 (x : BitVec 6) (_ : BitVec 48) : Option Instr :=
  some (.trap x)

def parse02 (x : BitVec 6) (_ : BitVec 48) : Option Instr :=
  some (.sjoin x)

def parse04 (_ : BitVec 6) (y : BitVec 48) : Option Instr :=
  match (cF y).toNat with
  | 0 => some (.j (cImm y))
  | _ => none

def parse05 (x : BitVec 6) (y : BitVec 48) : Option Instr :=
  match (cF y).toNat with
  | 0 => some (.jl (xD x) (cImm y))
  | _ => none

def parse06 (x : BitVec 6) (y : BitVec 48) : Option Instr :=
  match (aF y).toNat with
  | 0 => some (.jr (aA y))
  | 1 => some (.jlr (xD x) (aA y))
  | _ => none

def parse08 (x : BitVec 6) (y : BitVec 48) : Option Instr :=
  match (xC x).toNat with
  | 0 => some (.bEq (jA y) (jB y) (jOff y))
  | 1 => some (.bNe (jA y) (jB y) (jOff y))
  | 2 => some (.bLt (jA y) (jB y) (jOff y))
  | 3 => some (.bGe (jA y) (jB y) (jOff y))
  | 4 => some (.bLtu (jA y) (jB y) (jOff y))
  | 5 => some (.bGeu (jA y) (jB y) (jOff y))
  | _ => none

def parse09 (x : BitVec 6) (y : BitVec 48) : Option Instr :=
  match (xId x).toNat with
  | 0 => some (.bany (xC x) (jA y) (jB y) (jOff y))
  | 1 => some (.ball (xC x) (jA y) (jB y) (jOff y))
  | _ => none

def parse0A (x : BitVec 6) (y : BitVec 48) : Option Instr :=
  some (.split (xId x) (xC x) (jA y) (jB y) (jOff y))

def parse0C (x : BitVec 6) (y : BitVec 48) : Option Instr :=
  match (aF y).toNat with
  | 0 => some (.getc (xD x) (acIdx y))
  | 1 => some (.setc (xD x) (acIdx y))
  | _ => none

def parse0D (x : BitVec 6) (_ : BitVec 48) : Option Instr :=
  some (.rnd (xD x))

def parse10 (x : BitVec 6) (y : BitVec 48) : Option Instr :=
  match (aF y).toNat with
  | 0 => some (.add (xD x) (aA y) (aB y))
  | 1 => some (.sub (xD x) (aA y) (aB y))
  | 2 => some (.mul (xD x) (aA y) (aB y))
  | 3 => some (.mulh (xD x) (aA y) (aB y))
  | 4 => some (.mulhu (xD x) (aA y) (aB y))
  | 5 => some (.div (xD x) (aA y) (aB y))
  | 6 => some (.divu (xD x) (aA y) (aB y))
  | 7 => some (.rem (xD x) (aA y) (aB y))
  | 8 => some (.remu (xD x) (aA y) (aB y))
  | 9 => some (.and (xD x) (aA y) (aB y))
  | 10 => some (.or (xD x) (aA y) (aB y))
  | 11 => some (.xor (xD x) (aA y) (aB y))
  | 12 => some (.andn (xD x) (aA y) (aB y))
  | 13 => some (.sll (xD x) (aA y) (aB y))
  | 14 => some (.srl (xD x) (aA y) (aB y))
  | 15 => some (.sra (xD x) (aA y) (aB y))
  | 16 => some (.rol (xD x) (aA y) (aB y))
  | 17 => some (.ror (xD x) (aA y) (aB y))
  | 18 => some (.slt (xD x) (aA y) (aB y))
  | 19 => some (.sltu (xD x) (aA y) (aB y))
  | 20 => some (.min (xD x) (aA y) (aB y))
  | 21 => some (.max (xD x) (aA y) (aB y))
  | 22 => some (.minu (xD x) (aA y) (aB y))
  | 23 => some (.maxu (xD x) (aA y) (aB y))
  | 24 => some (.fsl (xD x) (aA y) (aB y))
  | 25 => some (.fsr (xD x) (aA y) (aB y))
  | 26 => some (.csel (xD x) (aA y) (aB y))
  | _ => none

def parse11 (x : BitVec 6) (y : BitVec 48) : Option Instr :=
  match (aF y).toNat with
  | 0 => some (.clz (xD x) (aA y))
  | 1 => some (.ctz (xD x) (aA y))
  | 2 => some (.popc (xD x) (aA y))
  | 3 => some (.sextB (xD x) (aA y))
  | 4 => some (.sextH (xD x) (aA y))
  | 5 => some (.sextW (xD x) (aA y))
  | 6 => some (.zextB (xD x) (aA y))
  | 7 => some (.zextH (xD x) (aA y))
  | 8 => some (.zextW (xD x) (aA y))
  | 9 => some (.bswap (xD x) (aA y))
  | _ => none

def parse12 (x : BitVec 6) (y : BitVec 48) : Option Instr :=
  match (bF y).toNat with
  | 0 => some (.addi (xD x) (bA y) (bImm y))
  | 1 => some (.andi (xD x) (bA y) (bImm y))
  | 2 => some (.ori (xD x) (bA y) (bImm y))
  | 3 => some (.xori (xD x) (bA y) (bImm y))
  | 4 => some (.slli (xD x) (bA y) (bImm y))
  | 5 => some (.srli (xD x) (bA y) (bImm y))
  | 6 => some (.srai (xD x) (bA y) (bImm y))
  | 7 => some (.slti (xD x) (bA y) (bImm y))
  | 8 => some (.sltiu (xD x) (bA y) (bImm y))
  | _ => none

def parse13 (x : BitVec 6) (y : BitVec 48) : Option Instr :=
  match (cF y).toNat with
  | 0 => some (.li (xD x) (cImm y))
  | 1 => some (.lih (xD x) (cImm y))
  | _ => none

def parse14 (x : BitVec 6) (y : BitVec 48) : Option Instr :=
  match (bF y).toNat with
  | 0 => some (.ldB (xD x) (bA y) (bImm y))
  | 1 => some (.ldBu (xD x) (bA y) (bImm y))
  | 2 => some (.ldH (xD x) (bA y) (bImm y))
  | 3 => some (.ldHu (xD x) (bA y) (bImm y))
  | 4 => some (.ldW (xD x) (bA y) (bImm y))
  | 5 => some (.ldWu (xD x) (bA y) (bImm y))
  | 6 => some (.ldD (xD x) (bA y) (bImm y))
  | 7 => some (.ldAcqW (xD x) (bA y) (bImm y))
  | 8 => some (.ldAcqD (xD x) (bA y) (bImm y))
  | _ => none

def parse15 (x : BitVec 6) (y : BitVec 48) : Option Instr :=
  match (bF y).toNat with
  | 0 => some (.stB (xD x) (bA y) (bImm y))
  | 1 => some (.stH (xD x) (bA y) (bImm y))
  | 2 => some (.stW (xD x) (bA y) (bImm y))
  | 3 => some (.stD (xD x) (bA y) (bImm y))
  | 4 => some (.stRelW (xD x) (bA y) (bImm y))
  | 5 => some (.stRelD (xD x) (bA y) (bImm y))
  | _ => none

def parse16 (x : BitVec 6) (y : BitVec 48) : Option Instr :=
  match (aF y).toNat with
  | 0 => some (.amoAdd (xD x) (aA y) (aB y))
  | 1 => some (.amoAnd (xD x) (aA y) (aB y))
  | 2 => some (.amoOr (xD x) (aA y) (aB y))
  | 3 => some (.amoXor (xD x) (aA y) (aB y))
  | 4 => some (.amoMin (xD x) (aA y) (aB y))
  | 5 => some (.amoMax (xD x) (aA y) (aB y))
  | 6 => some (.amoMinu (xD x) (aA y) (aB y))
  | 7 => some (.amoMaxu (xD x) (aA y) (aB y))
  | 8 => some (.amoSwap (xD x) (aA y) (aB y))
  | 9 => some (.amoFadd (xD x) (aA y) (aB y))
  | 10 => some (.amoCas (xD x) (aA y) (aB y))
  | _ => none

def parse17 (_ : BitVec 6) (y : BitVec 48) : Option Instr :=
  match (aF y).toNat with
  | 0 => some (.push (aA y) (aB y))
  | 1 => some (.pop (aA y) (aB y))
  | _ => none

def parse18 (x : BitVec 6) (y : BitVec 48) : Option Instr :=
  match (aF y).toNat with
  | 0 => some (.faddF32 (xD x) (aA y) (aB y))
  | 1 => some (.fsubF32 (xD x) (aA y) (aB y))
  | 2 => some (.fmulF32 (xD x) (aA y) (aB y))
  | 3 => some (.fdivF32 (xD x) (aA y) (aB y))
  | 4 => some (.fsqrtF32 (xD x) (aA y))
  | 5 => some (.fminF32 (xD x) (aA y) (aB y))
  | 6 => some (.fmaxF32 (xD x) (aA y) (aB y))
  | 7 => some (.feqF32 (xD x) (aA y) (aB y))
  | 8 => some (.fltF32 (xD x) (aA y) (aB y))
  | 9 => some (.fleF32 (xD x) (aA y) (aB y))
  | 10 => some (.fclassF32 (xD x) (aA y))
  | 11 => some (.fnegF32 (xD x) (aA y))
  | 12 => some (.fabsF32 (xD x) (aA y))
  | 13 => some (.fmaF32 (xD x) (aA y) (aB y))
  | 14 => some (.fmsF32 (xD x) (aA y) (aB y))
  | 16 => some (.faddF64 (xD x) (aA y) (aB y))
  | 17 => some (.fsubF64 (xD x) (aA y) (aB y))
  | 18 => some (.fmulF64 (xD x) (aA y) (aB y))
  | 19 => some (.fdivF64 (xD x) (aA y) (aB y))
  | 20 => some (.fsqrtF64 (xD x) (aA y))
  | 21 => some (.fminF64 (xD x) (aA y) (aB y))
  | 22 => some (.fmaxF64 (xD x) (aA y) (aB y))
  | 23 => some (.feqF64 (xD x) (aA y) (aB y))
  | 24 => some (.fltF64 (xD x) (aA y) (aB y))
  | 25 => some (.fleF64 (xD x) (aA y) (aB y))
  | 26 => some (.fclassF64 (xD x) (aA y))
  | 27 => some (.fnegF64 (xD x) (aA y))
  | 28 => some (.fabsF64 (xD x) (aA y))
  | 29 => some (.fmaF64 (xD x) (aA y) (aB y))
  | 30 => some (.fmsF64 (xD x) (aA y) (aB y))
  | 32 => some (.fcvtF32I64 (xD x) (aA y))
  | 33 => some (.fcvtF32N64 (xD x) (aA y))
  | 34 => some (.fcvtI64F32 (xD x) (aA y))
  | 35 => some (.fcvtN64F32 (xD x) (aA y))
  | 36 => some (.fcvtF64I64 (xD x) (aA y))
  | 37 => some (.fcvtF64N64 (xD x) (aA y))
  | 38 => some (.fcvtI64F64 (xD x) (aA y))
  | 39 => some (.fcvtN64F64 (xD x) (aA y))
  | 40 => some (.fcvtF64F32 (xD x) (aA y))
  | 41 => some (.fcvtF32F64 (xD x) (aA y))
  | 42 => some (.fcvtBf16F32 (xD x) (aA y))
  | 43 => some (.fcvtF32Bf16 (xD x) (aA y))
  | _ => none

def parse19 (x : BitVec 6) (y : BitVec 48) : Option Instr :=
  match (aF y).toNat with
  | 0 => some (.amov (xD3 x) (aA3 y))
  | 1 => some (.aset (xD3 x) (aA y) (aB y))
  | 2 => some (.aadd (xD3 x) (aA3 y) (aB y))
  | 3 => some (.amovs (xD x) (aA3 y))
  | _ => none

def parse1A (x : BitVec 6) (y : BitVec 48) : Option Instr :=
  match (bF y).toNat with
  | 0 => some (.aaddi (xD3 x) (bA3 y) (bImm y))
  | _ => none

def parse1B (x : BitVec 6) (y : BitVec 48) : Option Instr :=
  some (.smine (parseSmine x y))

def parse40 (x : BitVec 6) (y : BitVec 48) : Option Instr :=
  match (wF y).toNat with
  | 0 => some (.act (xN x) (wA y))
  | 1 => some (.actz (xN x))
  | 2 => some (.wb (xN x))
  | 3 => some (.wbto (xN x) (wA y))
  | 4 => some (.pre (xN x))
  | 5 => some (.rcopy (xN x) (wA y) (wS y))
  | 6 => some (.rfsh (xN x))
  | 7 => some (.shut (xN x) (wK y))
  | 8 => some (.reopen (xN x) (wK y))
  | 9 => some (.pstat (wS y) (xN x))
  | _ => none

def parse41 (x : BitVec 6) (y : BitVec 48) : Option Instr :=
  match (wK y).toNat with
  | 0 => some (.rshufRot (xN x) (wA y) (wS y))
  | 1 => some (.rshufXor (xN x) (wA y) (wS y))
  | 2 => some (.rshufRev (xN x) (wA y))
  | 3 => some (.rshufBcast (xN x) (wA y) (wS y))
  | _ => none

def parse48 (x : BitVec 6) (y : BitVec 48) : Option Instr :=
  match (vF y).toNat with
  | 0 => some (.vadd (parseV x y))
  | 1 => some (.vsub (parseV x y))
  | 2 => some (.vmul (parseV x y))
  | 3 => some (.vfma (parseV x y))
  | 4 => some (.vfms (parseV x y))
  | 5 => some (.vfnma (parseV x y))
  | 6 => some (.vmin (parseV x y))
  | 7 => some (.vmax (parseV x y))
  | 8 => some (.vabs (parseV x y))
  | 9 => some (.vneg (parseV x y))
  | 10 => some (.vdiv (parseV x y))
  | 11 => some (.vsqrt (parseV x y))
  | 12 => some (.vrcp (parseV x y))
  | 13 => some (.vrsq (parseV x y))
  | 14 => some (.vexp2 (parseV x y))
  | 15 => some (.vlog2 (parseV x y))
  | _ => none

def parse49 (x : BitVec 6) (y : BitVec 48) : Option Instr :=
  match (vF y).toNat with
  | 0 => some (.vmulh (parseV x y))
  | 1 => some (.vadds (parseV x y))
  | 2 => some (.vsubs (parseV x y))
  | 3 => some (.vand (parseV x y))
  | 4 => some (.vor (parseV x y))
  | 5 => some (.vxor (parseV x y))
  | 6 => some (.vnot (parseV x y))
  | 7 => some (.vandn (parseV x y))
  | 8 => some (.vsll (parseV x y))
  | 9 => some (.vsrl (parseV x y))
  | 10 => some (.vsra (parseV x y))
  | 11 => some (.vfsl (parseV x y))
  | 12 => some (.vfsr (parseV x y))
  | 13 => some (.vclz (parseV x y))
  | 14 => some (.vpopc (parseV x y))
  | _ => none

def parse4A (x : BitVec 6) (y : BitVec 48) : Option Instr :=
  match (vF y).toNat with
  | 0 => some (.vcmpEq (parseV x y))
  | 1 => some (.vcmpNe (parseV x y))
  | 2 => some (.vcmpLt (parseV x y))
  | 3 => some (.vcmpLe (parseV x y))
  | 4 => some (.vcmpGt (parseV x y))
  | 5 => some (.vcmpGe (parseV x y))
  | 6 => some (.mand (parseV x y))
  | 7 => some (.mor (parseV x y))
  | 8 => some (.mxor (parseV x y))
  | 9 => some (.mnot (parseV x y))
  | 10 => some (.mpopc (parseV x y))
  | 11 => some (.mfirst (parseV x y))
  | 12 => some (.vsel (parseV x y))
  | 13 => some (.vmov (parseV x y))
  | 14 => some (.vbcast (parseV x y))
  | 15 => some (.vslideUp (parseV x y))
  | 16 => some (.vslideDn (parseV x y))
  | 17 => some (.vcompress (parseV x y))
  | _ => none

def parse4B (x : BitVec 6) (y : BitVec 48) : Option Instr :=
  some (.vidx (parseVx x y))

def parse4C (x : BitVec 6) (y : BitVec 48) : Option Instr :=
  match (vF y).toNat with
  | 0 => some (.vcvt (parseV x y))
  | 1 => some (.vwfma (parseV x y))
  | 2 => some (.vdot (parseV x y))
  | 3 => some (.vqenc (parseV x y))
  | 4 => some (.vqdec (parseV x y))
  | _ => none

def parse4D (x : BitVec 6) (y : BitVec 48) : Option Instr :=
  match (vF y).toNat with
  | 0 => some (.vredSum (parseV x y))
  | 1 => some (.vredMax (parseV x y))
  | 2 => some (.vredMin (parseV x y))
  | 3 => some (.vredAnd (parseV x y))
  | 4 => some (.vredOr (parseV x y))
  | 5 => some (.vgmax (parseV x y))
  | 6 => some (.vscan (parseV x y))
  | _ => none

def parse50 (x : BitVec 6) (y : BitVec 48) : Option Instr :=
  match (mF y).toNat with
  | 0 => some (.vld (parseM x y))
  | 1 => some (.vlds (parseM x y))
  | 2 => some (.vldx (parseM x y))
  | 3 => some (.vst (parseM x y))
  | 4 => some (.vsts (parseM x y))
  | 5 => some (.vstx (parseM x y))
  | 6 => some (.vstb (parseM x y))
  | 7 => some (.vldl (parseM x y))
  | 8 => some (.vstc (parseM x y))
  | 9 => some (.vspill (parseM x y))
  | 10 => some (.vfill (parseM x y))
  | 11 => some (.vlq (parseM x y))
  | _ => none

noncomputable def parse58 (x : BitVec 6) (y : BitVec 48) : Option Instr :=
  match (eF y).toNat with
  | 0 => some (.cpy (parseE x y))
  | 1 => some (.cpy2d (parseE x y))
  | 2 => some (.rsct (parseE x y))
  | 3 => some (.coll (parseE x y))
  | 4 => some (.red (parseE x y))
  | 5 => some (.gath (parseE x y))
  | 6 => some (.nmo (parseE x y))
  | _ => none

noncomputable def parse59 (x : BitVec 6) (y : BitVec 48) : Option Instr :=
  match (eF y).toNat with
  | 0 => some (.mmma (parseE x y))
  | 1 => some (.mdrain (parseE x y))
  | _ => none

noncomputable def parse5A (x : BitVec 6) (y : BitVec 48) : Option Instr :=
  match (aF y).toNat with
  | 0 => some (.mattach (xD x) (aA y))
  | 1 => some (.mdetach)
  | 2 => some (.mshape (aA y))
  | 3 => some (.mzero (xD x))
  | _ => none

noncomputable def parse5C (x : BitVec 6) (y : BitVec 48) : Option Instr :=
  match (aF y).toNat with
  | 0 => some (.kwait (xN x) (kP y) (aB y))
  | 1 => some (.kwaitNt (aA y) (xN x) (aB y))
  | 2 => some (.kpoll (aA y) (xN x))
  | 3 => some (.kcancel (xN x))
  | 4 => some (.kdetach (aA y) (xN x))
  | 5 => some (.kadopt (xN x) (aA y))
  | 6 => some (.kprio (xN x) (aA y))
  | 7 => some (.kinfo (aA y) (xN x) (aB y))
  | _ => none

noncomputable def parse5D (x : BitVec 6) (y : BitVec 48) : Option Instr :=
  match (aF y).toNat with
  | 0 => some (.fence (aB y))
  | 1 => some (.xfence (xN x) (kP y) (aB y))
  | 2 => some (.fbar (xN x) (aB y))
  | 3 => some (.bwait (xN x))
  | 4 => some (.ipost (xN x) (aA y))
  | 5 => some (.iwait (xN x) (aA y))
  | 6 => some (.await (aB y) (aA y))
  | _ => none

noncomputable def parse5E (x : BitVec 6) (y : BitVec 48) : Option Instr :=
  match (eF y).toNat with
  | 0 => some (.tspawn (parseE x y))
  | 1 => some (.launch (parseE x y))
  | _ => none

noncomputable def parse60 (_ : BitVec 6) (y : BitVec 48) : Option Instr :=
  match (aF y).toNat with
  | 0 => some (.tlbinv (aA y) (aB y))
  | _ => none

/-- The instruction that the function fields select within an opcode (R105). -/
noncomputable def parseOp (op : BitVec 7) (x : BitVec 6) (y : BitVec 48) : Option Instr :=
  match op.toNat with
  | 0x00 => parse00 x y
  | 0x01 => parse01 x y
  | 0x02 => parse02 x y
  | 0x04 => parse04 x y
  | 0x05 => parse05 x y
  | 0x06 => parse06 x y
  | 0x08 => parse08 x y
  | 0x09 => parse09 x y
  | 0x0A => parse0A x y
  | 0x0C => parse0C x y
  | 0x0D => parse0D x y
  | 0x10 => parse10 x y
  | 0x11 => parse11 x y
  | 0x12 => parse12 x y
  | 0x13 => parse13 x y
  | 0x14 => parse14 x y
  | 0x15 => parse15 x y
  | 0x16 => parse16 x y
  | 0x17 => parse17 x y
  | 0x18 => parse18 x y
  | 0x19 => parse19 x y
  | 0x1A => parse1A x y
  | 0x1B => parse1B x y
  | 0x40 => parse40 x y
  | 0x41 => parse41 x y
  | 0x48 => parse48 x y
  | 0x49 => parse49 x y
  | 0x4A => parse4A x y
  | 0x4B => parse4B x y
  | 0x4C => parse4C x y
  | 0x4D => parse4D x y
  | 0x50 => parse50 x y
  | 0x58 => parse58 x y
  | 0x59 => parse59 x y
  | 0x5A => parse5A x y
  | 0x5C => parse5C x y
  | 0x5D => parse5D x y
  | 0x5E => parse5E x y
  | 0x60 => parse60 x y
  | _ => none

/-- The encoding of an instruction (R93, R105); none for a step of the part, which no head encodes. -/
def encode : Instr → Option Enc
  | .nop => some ⟨0x00, 0#6, 0, 0⟩
  | .brk => some ⟨0x00, 1#6, 0, 0⟩
  | .ifence => some ⟨0x00, 2#6, 0, 0⟩
  | .tend => some ⟨0x00, 3#6, 0, 0⟩
  | .tyield => some ⟨0x00, 4#6, 0, 0⟩
  | .rel => some ⟨0x00, 5#6, 0, 0⟩
  | .echo => some ⟨0x00, 6#6, 0, 0⟩
  | .claim => some ⟨0x00, 7#6, 0, 0⟩
  | .eret => some ⟨0x00, 8#6, 0, 0⟩
  | .trap n => some ⟨0x01, n, 0, 0⟩
  | .sjoin id => some ⟨0x02, id, 0, 0⟩
  | .rnd d => some ⟨0x0D, 0#1 ++ d, 0, 0⟩
  | .j imm => some ⟨0x04, 0#6, 3, packC 0 imm⟩
  | .jl d imm => some ⟨0x05, 0#1 ++ d, 3, packC 0 imm⟩
  | .li d imm => some ⟨0x13, 0#1 ++ d, 3, packC 0 imm⟩
  | .lih d imm => some ⟨0x13, 0#1 ++ d, 3, packC 1 imm⟩
  | .smine o => some ⟨0x1B, 0#1 ++ o.d, 3, packC (o.c ++ o.n ++ o.t ++ o.g ++ 0#2) (0#20 ++ o.p3 ++ o.p2 ++ o.p1 ++ o.p0)⟩
  | .jr a => some ⟨0x06, 0#6, 1, packA 0 a 0⟩
  | .jlr d a => some ⟨0x06, 0#1 ++ d, 1, packA 1 a 0⟩
  | .add d a b => some ⟨0x10, 0#1 ++ d, 1, packA 0 a b⟩
  | .sub d a b => some ⟨0x10, 0#1 ++ d, 1, packA 1 a b⟩
  | .mul d a b => some ⟨0x10, 0#1 ++ d, 1, packA 2 a b⟩
  | .mulh d a b => some ⟨0x10, 0#1 ++ d, 1, packA 3 a b⟩
  | .mulhu d a b => some ⟨0x10, 0#1 ++ d, 1, packA 4 a b⟩
  | .div d a b => some ⟨0x10, 0#1 ++ d, 1, packA 5 a b⟩
  | .divu d a b => some ⟨0x10, 0#1 ++ d, 1, packA 6 a b⟩
  | .rem d a b => some ⟨0x10, 0#1 ++ d, 1, packA 7 a b⟩
  | .remu d a b => some ⟨0x10, 0#1 ++ d, 1, packA 8 a b⟩
  | .and d a b => some ⟨0x10, 0#1 ++ d, 1, packA 9 a b⟩
  | .or d a b => some ⟨0x10, 0#1 ++ d, 1, packA 10 a b⟩
  | .xor d a b => some ⟨0x10, 0#1 ++ d, 1, packA 11 a b⟩
  | .andn d a b => some ⟨0x10, 0#1 ++ d, 1, packA 12 a b⟩
  | .sll d a b => some ⟨0x10, 0#1 ++ d, 1, packA 13 a b⟩
  | .srl d a b => some ⟨0x10, 0#1 ++ d, 1, packA 14 a b⟩
  | .sra d a b => some ⟨0x10, 0#1 ++ d, 1, packA 15 a b⟩
  | .rol d a b => some ⟨0x10, 0#1 ++ d, 1, packA 16 a b⟩
  | .ror d a b => some ⟨0x10, 0#1 ++ d, 1, packA 17 a b⟩
  | .slt d a b => some ⟨0x10, 0#1 ++ d, 1, packA 18 a b⟩
  | .sltu d a b => some ⟨0x10, 0#1 ++ d, 1, packA 19 a b⟩
  | .min d a b => some ⟨0x10, 0#1 ++ d, 1, packA 20 a b⟩
  | .max d a b => some ⟨0x10, 0#1 ++ d, 1, packA 21 a b⟩
  | .minu d a b => some ⟨0x10, 0#1 ++ d, 1, packA 22 a b⟩
  | .maxu d a b => some ⟨0x10, 0#1 ++ d, 1, packA 23 a b⟩
  | .fsl d a b => some ⟨0x10, 0#1 ++ d, 1, packA 24 a b⟩
  | .fsr d a b => some ⟨0x10, 0#1 ++ d, 1, packA 25 a b⟩
  | .csel d a b => some ⟨0x10, 0#1 ++ d, 1, packA 26 a b⟩
  | .clz d a => some ⟨0x11, 0#1 ++ d, 1, packA 0 a 0⟩
  | .ctz d a => some ⟨0x11, 0#1 ++ d, 1, packA 1 a 0⟩
  | .popc d a => some ⟨0x11, 0#1 ++ d, 1, packA 2 a 0⟩
  | .sextB d a => some ⟨0x11, 0#1 ++ d, 1, packA 3 a 0⟩
  | .sextH d a => some ⟨0x11, 0#1 ++ d, 1, packA 4 a 0⟩
  | .sextW d a => some ⟨0x11, 0#1 ++ d, 1, packA 5 a 0⟩
  | .zextB d a => some ⟨0x11, 0#1 ++ d, 1, packA 6 a 0⟩
  | .zextH d a => some ⟨0x11, 0#1 ++ d, 1, packA 7 a 0⟩
  | .zextW d a => some ⟨0x11, 0#1 ++ d, 1, packA 8 a 0⟩
  | .bswap d a => some ⟨0x11, 0#1 ++ d, 1, packA 9 a 0⟩
  | .amoAdd d a b => some ⟨0x16, 0#1 ++ d, 1, packA 0 a b⟩
  | .amoAnd d a b => some ⟨0x16, 0#1 ++ d, 1, packA 1 a b⟩
  | .amoOr d a b => some ⟨0x16, 0#1 ++ d, 1, packA 2 a b⟩
  | .amoXor d a b => some ⟨0x16, 0#1 ++ d, 1, packA 3 a b⟩
  | .amoMin d a b => some ⟨0x16, 0#1 ++ d, 1, packA 4 a b⟩
  | .amoMax d a b => some ⟨0x16, 0#1 ++ d, 1, packA 5 a b⟩
  | .amoMinu d a b => some ⟨0x16, 0#1 ++ d, 1, packA 6 a b⟩
  | .amoMaxu d a b => some ⟨0x16, 0#1 ++ d, 1, packA 7 a b⟩
  | .amoSwap d a b => some ⟨0x16, 0#1 ++ d, 1, packA 8 a b⟩
  | .amoFadd d a b => some ⟨0x16, 0#1 ++ d, 1, packA 9 a b⟩
  | .amoCas d a b => some ⟨0x16, 0#1 ++ d, 1, packA 10 a b⟩
  | .push a b => some ⟨0x17, 0#6, 1, packA 0 a b⟩
  | .pop a b => some ⟨0x17, 0#6, 1, packA 1 a b⟩
  | .faddF32 d a b => some ⟨0x18, 0#1 ++ d, 1, packA 0 a b⟩
  | .fsubF32 d a b => some ⟨0x18, 0#1 ++ d, 1, packA 1 a b⟩
  | .fmulF32 d a b => some ⟨0x18, 0#1 ++ d, 1, packA 2 a b⟩
  | .fdivF32 d a b => some ⟨0x18, 0#1 ++ d, 1, packA 3 a b⟩
  | .fsqrtF32 d a => some ⟨0x18, 0#1 ++ d, 1, packA 4 a 0⟩
  | .fminF32 d a b => some ⟨0x18, 0#1 ++ d, 1, packA 5 a b⟩
  | .fmaxF32 d a b => some ⟨0x18, 0#1 ++ d, 1, packA 6 a b⟩
  | .feqF32 d a b => some ⟨0x18, 0#1 ++ d, 1, packA 7 a b⟩
  | .fltF32 d a b => some ⟨0x18, 0#1 ++ d, 1, packA 8 a b⟩
  | .fleF32 d a b => some ⟨0x18, 0#1 ++ d, 1, packA 9 a b⟩
  | .fclassF32 d a => some ⟨0x18, 0#1 ++ d, 1, packA 10 a 0⟩
  | .fnegF32 d a => some ⟨0x18, 0#1 ++ d, 1, packA 11 a 0⟩
  | .fabsF32 d a => some ⟨0x18, 0#1 ++ d, 1, packA 12 a 0⟩
  | .fmaF32 d a b => some ⟨0x18, 0#1 ++ d, 1, packA 13 a b⟩
  | .fmsF32 d a b => some ⟨0x18, 0#1 ++ d, 1, packA 14 a b⟩
  | .faddF64 d a b => some ⟨0x18, 0#1 ++ d, 1, packA 16 a b⟩
  | .fsubF64 d a b => some ⟨0x18, 0#1 ++ d, 1, packA 17 a b⟩
  | .fmulF64 d a b => some ⟨0x18, 0#1 ++ d, 1, packA 18 a b⟩
  | .fdivF64 d a b => some ⟨0x18, 0#1 ++ d, 1, packA 19 a b⟩
  | .fsqrtF64 d a => some ⟨0x18, 0#1 ++ d, 1, packA 20 a 0⟩
  | .fminF64 d a b => some ⟨0x18, 0#1 ++ d, 1, packA 21 a b⟩
  | .fmaxF64 d a b => some ⟨0x18, 0#1 ++ d, 1, packA 22 a b⟩
  | .feqF64 d a b => some ⟨0x18, 0#1 ++ d, 1, packA 23 a b⟩
  | .fltF64 d a b => some ⟨0x18, 0#1 ++ d, 1, packA 24 a b⟩
  | .fleF64 d a b => some ⟨0x18, 0#1 ++ d, 1, packA 25 a b⟩
  | .fclassF64 d a => some ⟨0x18, 0#1 ++ d, 1, packA 26 a 0⟩
  | .fnegF64 d a => some ⟨0x18, 0#1 ++ d, 1, packA 27 a 0⟩
  | .fabsF64 d a => some ⟨0x18, 0#1 ++ d, 1, packA 28 a 0⟩
  | .fmaF64 d a b => some ⟨0x18, 0#1 ++ d, 1, packA 29 a b⟩
  | .fmsF64 d a b => some ⟨0x18, 0#1 ++ d, 1, packA 30 a b⟩
  | .fcvtF32I64 d a => some ⟨0x18, 0#1 ++ d, 1, packA 32 a 0⟩
  | .fcvtF32N64 d a => some ⟨0x18, 0#1 ++ d, 1, packA 33 a 0⟩
  | .fcvtI64F32 d a => some ⟨0x18, 0#1 ++ d, 1, packA 34 a 0⟩
  | .fcvtN64F32 d a => some ⟨0x18, 0#1 ++ d, 1, packA 35 a 0⟩
  | .fcvtF64I64 d a => some ⟨0x18, 0#1 ++ d, 1, packA 36 a 0⟩
  | .fcvtF64N64 d a => some ⟨0x18, 0#1 ++ d, 1, packA 37 a 0⟩
  | .fcvtI64F64 d a => some ⟨0x18, 0#1 ++ d, 1, packA 38 a 0⟩
  | .fcvtN64F64 d a => some ⟨0x18, 0#1 ++ d, 1, packA 39 a 0⟩
  | .fcvtF64F32 d a => some ⟨0x18, 0#1 ++ d, 1, packA 40 a 0⟩
  | .fcvtF32F64 d a => some ⟨0x18, 0#1 ++ d, 1, packA 41 a 0⟩
  | .fcvtBf16F32 d a => some ⟨0x18, 0#1 ++ d, 1, packA 42 a 0⟩
  | .fcvtF32Bf16 d a => some ⟨0x18, 0#1 ++ d, 1, packA 43 a 0⟩
  | .amov d a => some ⟨0x19, 0#3 ++ d, 1, packA 0 (0#2 ++ a) 0⟩
  | .aset d a z => some ⟨0x19, 0#3 ++ d, 1, packA 1 a z⟩
  | .aadd d a b => some ⟨0x19, 0#3 ++ d, 1, packA 2 (0#2 ++ a) b⟩
  | .amovs d a => some ⟨0x19, 0#1 ++ d, 1, packA 3 (0#2 ++ a) 0⟩
  | .mattach d a => some ⟨0x5A, 0#1 ++ d, 1, packA 0 a 0⟩
  | .mdetach => some ⟨0x5A, 0#6, 1, packA 1 0 0⟩
  | .mshape a => some ⟨0x5A, 0#6, 1, packA 2 a 0⟩
  | .mzero d => some ⟨0x5A, 0#1 ++ d, 1, packA 3 0 0⟩
  | .tlbinv a b => some ⟨0x60, 0#6, 1, packA 0 a b⟩
  | .getc d idx => some ⟨0x0C, 0#1 ++ d, 1, packAC 0 idx⟩
  | .setc d idx => some ⟨0x0C, 0#1 ++ d, 1, packAC 1 idx⟩
  | .addi d a imm => some ⟨0x12, 0#1 ++ d, 2, packB a 0 imm⟩
  | .andi d a imm => some ⟨0x12, 0#1 ++ d, 2, packB a 1 imm⟩
  | .ori d a imm => some ⟨0x12, 0#1 ++ d, 2, packB a 2 imm⟩
  | .xori d a imm => some ⟨0x12, 0#1 ++ d, 2, packB a 3 imm⟩
  | .slli d a imm => some ⟨0x12, 0#1 ++ d, 2, packB a 4 imm⟩
  | .srli d a imm => some ⟨0x12, 0#1 ++ d, 2, packB a 5 imm⟩
  | .srai d a imm => some ⟨0x12, 0#1 ++ d, 2, packB a 6 imm⟩
  | .slti d a imm => some ⟨0x12, 0#1 ++ d, 2, packB a 7 imm⟩
  | .sltiu d a imm => some ⟨0x12, 0#1 ++ d, 2, packB a 8 imm⟩
  | .ldB d a imm => some ⟨0x14, 0#1 ++ d, 2, packB a 0 imm⟩
  | .ldBu d a imm => some ⟨0x14, 0#1 ++ d, 2, packB a 1 imm⟩
  | .ldH d a imm => some ⟨0x14, 0#1 ++ d, 2, packB a 2 imm⟩
  | .ldHu d a imm => some ⟨0x14, 0#1 ++ d, 2, packB a 3 imm⟩
  | .ldW d a imm => some ⟨0x14, 0#1 ++ d, 2, packB a 4 imm⟩
  | .ldWu d a imm => some ⟨0x14, 0#1 ++ d, 2, packB a 5 imm⟩
  | .ldD d a imm => some ⟨0x14, 0#1 ++ d, 2, packB a 6 imm⟩
  | .ldAcqW d a imm => some ⟨0x14, 0#1 ++ d, 2, packB a 7 imm⟩
  | .ldAcqD d a imm => some ⟨0x14, 0#1 ++ d, 2, packB a 8 imm⟩
  | .stB d a imm => some ⟨0x15, 0#1 ++ d, 2, packB a 0 imm⟩
  | .stH d a imm => some ⟨0x15, 0#1 ++ d, 2, packB a 1 imm⟩
  | .stW d a imm => some ⟨0x15, 0#1 ++ d, 2, packB a 2 imm⟩
  | .stD d a imm => some ⟨0x15, 0#1 ++ d, 2, packB a 3 imm⟩
  | .stRelW d a imm => some ⟨0x15, 0#1 ++ d, 2, packB a 4 imm⟩
  | .stRelD d a imm => some ⟨0x15, 0#1 ++ d, 2, packB a 5 imm⟩
  | .aaddi d a imm => some ⟨0x1A, 0#3 ++ d, 2, packB (0#2 ++ a) 0 imm⟩
  | .bEq a b off => some ⟨0x08, 0#6, 2, packJ a b off⟩
  | .bNe a b off => some ⟨0x08, 1#6, 2, packJ a b off⟩
  | .bLt a b off => some ⟨0x08, 2#6, 2, packJ a b off⟩
  | .bGe a b off => some ⟨0x08, 3#6, 2, packJ a b off⟩
  | .bLtu a b off => some ⟨0x08, 4#6, 2, packJ a b off⟩
  | .bGeu a b off => some ⟨0x08, 5#6, 2, packJ a b off⟩
  | .bany c a b off => some ⟨0x09, 0#3 ++ c, 2, packJ a b off⟩
  | .ball c a b off => some ⟨0x09, 1#3 ++ c, 2, packJ a b off⟩
  | .split id c a b off => some ⟨0x0A, id ++ c, 2, packJ a b off⟩
  | .act n a => some ⟨0x40, 0#2 ++ n, 1, packW a 0 0 0⟩
  | .actz n => some ⟨0x40, 0#2 ++ n, 1, packW 0 0 1 0⟩
  | .wb n => some ⟨0x40, 0#2 ++ n, 1, packW 0 0 2 0⟩
  | .wbto n a => some ⟨0x40, 0#2 ++ n, 1, packW a 0 3 0⟩
  | .pre n => some ⟨0x40, 0#2 ++ n, 1, packW 0 0 4 0⟩
  | .rcopy n a src => some ⟨0x40, 0#2 ++ n, 1, packW a src 5 0⟩
  | .rfsh n => some ⟨0x40, 0#2 ++ n, 1, packW 0 0 6 0⟩
  | .shut n k => some ⟨0x40, 0#2 ++ n, 1, packW 0 0 7 k⟩
  | .reopen n k => some ⟨0x40, 0#2 ++ n, 1, packW 0 0 8 k⟩
  | .pstat d n => some ⟨0x40, 0#2 ++ n, 1, packW 0 d 9 0⟩
  | .rshufRot wd ws k => some ⟨0x41, 0#2 ++ wd, 1, packW ws k 0 0⟩
  | .rshufXor wd ws k => some ⟨0x41, 0#2 ++ wd, 1, packW ws k 0 1⟩
  | .rshufRev wd ws => some ⟨0x41, 0#2 ++ wd, 1, packW ws 0 0 2⟩
  | .rshufBcast wd ws k => some ⟨0x41, 0#2 ++ wd, 1, packW ws k 0 3⟩
  | .vadd o => some ⟨0x48, o.g ++ o.wd, 2, packV o 0⟩
  | .vsub o => some ⟨0x48, o.g ++ o.wd, 2, packV o 1⟩
  | .vmul o => some ⟨0x48, o.g ++ o.wd, 2, packV o 2⟩
  | .vfma o => some ⟨0x48, o.g ++ o.wd, 2, packV o 3⟩
  | .vfms o => some ⟨0x48, o.g ++ o.wd, 2, packV o 4⟩
  | .vfnma o => some ⟨0x48, o.g ++ o.wd, 2, packV o 5⟩
  | .vmin o => some ⟨0x48, o.g ++ o.wd, 2, packV o 6⟩
  | .vmax o => some ⟨0x48, o.g ++ o.wd, 2, packV o 7⟩
  | .vabs o => some ⟨0x48, o.g ++ o.wd, 2, packV o 8⟩
  | .vneg o => some ⟨0x48, o.g ++ o.wd, 2, packV o 9⟩
  | .vdiv o => some ⟨0x48, o.g ++ o.wd, 2, packV o 10⟩
  | .vsqrt o => some ⟨0x48, o.g ++ o.wd, 2, packV o 11⟩
  | .vrcp o => some ⟨0x48, o.g ++ o.wd, 2, packV o 12⟩
  | .vrsq o => some ⟨0x48, o.g ++ o.wd, 2, packV o 13⟩
  | .vexp2 o => some ⟨0x48, o.g ++ o.wd, 2, packV o 14⟩
  | .vlog2 o => some ⟨0x48, o.g ++ o.wd, 2, packV o 15⟩
  | .vmulh o => some ⟨0x49, o.g ++ o.wd, 2, packV o 0⟩
  | .vadds o => some ⟨0x49, o.g ++ o.wd, 2, packV o 1⟩
  | .vsubs o => some ⟨0x49, o.g ++ o.wd, 2, packV o 2⟩
  | .vand o => some ⟨0x49, o.g ++ o.wd, 2, packV o 3⟩
  | .vor o => some ⟨0x49, o.g ++ o.wd, 2, packV o 4⟩
  | .vxor o => some ⟨0x49, o.g ++ o.wd, 2, packV o 5⟩
  | .vnot o => some ⟨0x49, o.g ++ o.wd, 2, packV o 6⟩
  | .vandn o => some ⟨0x49, o.g ++ o.wd, 2, packV o 7⟩
  | .vsll o => some ⟨0x49, o.g ++ o.wd, 2, packV o 8⟩
  | .vsrl o => some ⟨0x49, o.g ++ o.wd, 2, packV o 9⟩
  | .vsra o => some ⟨0x49, o.g ++ o.wd, 2, packV o 10⟩
  | .vfsl o => some ⟨0x49, o.g ++ o.wd, 2, packV o 11⟩
  | .vfsr o => some ⟨0x49, o.g ++ o.wd, 2, packV o 12⟩
  | .vclz o => some ⟨0x49, o.g ++ o.wd, 2, packV o 13⟩
  | .vpopc o => some ⟨0x49, o.g ++ o.wd, 2, packV o 14⟩
  | .vcmpEq o => some ⟨0x4A, o.g ++ o.wd, 2, packV o 0⟩
  | .vcmpNe o => some ⟨0x4A, o.g ++ o.wd, 2, packV o 1⟩
  | .vcmpLt o => some ⟨0x4A, o.g ++ o.wd, 2, packV o 2⟩
  | .vcmpLe o => some ⟨0x4A, o.g ++ o.wd, 2, packV o 3⟩
  | .vcmpGt o => some ⟨0x4A, o.g ++ o.wd, 2, packV o 4⟩
  | .vcmpGe o => some ⟨0x4A, o.g ++ o.wd, 2, packV o 5⟩
  | .mand o => some ⟨0x4A, o.g ++ o.wd, 2, packV o 6⟩
  | .mor o => some ⟨0x4A, o.g ++ o.wd, 2, packV o 7⟩
  | .mxor o => some ⟨0x4A, o.g ++ o.wd, 2, packV o 8⟩
  | .mnot o => some ⟨0x4A, o.g ++ o.wd, 2, packV o 9⟩
  | .mpopc o => some ⟨0x4A, o.g ++ o.wd, 2, packV o 10⟩
  | .mfirst o => some ⟨0x4A, o.g ++ o.wd, 2, packV o 11⟩
  | .vsel o => some ⟨0x4A, o.g ++ o.wd, 2, packV o 12⟩
  | .vmov o => some ⟨0x4A, o.g ++ o.wd, 2, packV o 13⟩
  | .vbcast o => some ⟨0x4A, o.g ++ o.wd, 2, packV o 14⟩
  | .vslideUp o => some ⟨0x4A, o.g ++ o.wd, 2, packV o 15⟩
  | .vslideDn o => some ⟨0x4A, o.g ++ o.wd, 2, packV o 16⟩
  | .vcompress o => some ⟨0x4A, o.g ++ o.wd, 2, packV o 17⟩
  | .vcvt o => some ⟨0x4C, o.g ++ o.wd, 2, packV o 0⟩
  | .vwfma o => some ⟨0x4C, o.g ++ o.wd, 2, packV o 1⟩
  | .vdot o => some ⟨0x4C, o.g ++ o.wd, 2, packV o 2⟩
  | .vqenc o => some ⟨0x4C, o.g ++ o.wd, 2, packV o 3⟩
  | .vqdec o => some ⟨0x4C, o.g ++ o.wd, 2, packV o 4⟩
  | .vredSum o => some ⟨0x4D, o.g ++ o.wd, 2, packV o 0⟩
  | .vredMax o => some ⟨0x4D, o.g ++ o.wd, 2, packV o 1⟩
  | .vredMin o => some ⟨0x4D, o.g ++ o.wd, 2, packV o 2⟩
  | .vredAnd o => some ⟨0x4D, o.g ++ o.wd, 2, packV o 3⟩
  | .vredOr o => some ⟨0x4D, o.g ++ o.wd, 2, packV o 4⟩
  | .vgmax o => some ⟨0x4D, o.g ++ o.wd, 2, packV o 5⟩
  | .vscan o => some ⟨0x4D, o.g ++ o.wd, 2, packV o 6⟩
  | .vidx o => some ⟨0x4B, o.g ++ o.wd, 3, (o.start ++ o.step ++ o.t ++ o.m ++ 0#1)⟩
  | .vld o => some ⟨0x50, o.g ++ o.w, 2, packM o 0⟩
  | .vlds o => some ⟨0x50, o.g ++ o.w, 2, packM o 1⟩
  | .vldx o => some ⟨0x50, o.g ++ o.w, 2, packM o 2⟩
  | .vst o => some ⟨0x50, o.g ++ o.w, 2, packM o 3⟩
  | .vsts o => some ⟨0x50, o.g ++ o.w, 2, packM o 4⟩
  | .vstx o => some ⟨0x50, o.g ++ o.w, 2, packM o 5⟩
  | .vstb o => some ⟨0x50, o.g ++ o.w, 2, packM o 6⟩
  | .vldl o => some ⟨0x50, o.g ++ o.w, 2, packM o 7⟩
  | .vstc o => some ⟨0x50, o.g ++ o.w, 2, packM o 8⟩
  | .vspill o => some ⟨0x50, o.g ++ o.w, 2, packM o 9⟩
  | .vfill o => some ⟨0x50, o.g ++ o.w, 2, packM o 10⟩
  | .vlq o => some ⟨0x50, o.g ++ o.w, 2, packM o 11⟩
  | .cpy o => some ⟨0x58, o.padj ++ o.kd, 3, packE o 0⟩
  | .cpy2d o => some ⟨0x58, o.padj ++ o.kd, 3, packE o 1⟩
  | .rsct o => some ⟨0x58, o.padj ++ o.kd, 3, packE o 2⟩
  | .coll o => some ⟨0x58, o.padj ++ o.kd, 3, packE o 3⟩
  | .red o => some ⟨0x58, o.padj ++ o.kd, 3, packE o 4⟩
  | .gath o => some ⟨0x58, o.padj ++ o.kd, 3, packE o 5⟩
  | .nmo o => some ⟨0x58, o.padj ++ o.kd, 3, packE o 6⟩
  | .mmma o => some ⟨0x59, o.padj ++ o.kd, 3, packE o 0⟩
  | .mdrain o => some ⟨0x59, o.padj ++ o.kd, 3, packE o 1⟩
  | .tspawn o => some ⟨0x5E, o.padj ++ o.kd, 3, packE o 0⟩
  | .launch o => some ⟨0x5E, o.padj ++ o.kd, 3, packE o 1⟩
  | .kwait k path scope => some ⟨0x5C, 0#2 ++ k, 1, packA 0 (0#1 ++ path) scope⟩
  | .kwaitNt d k scope => some ⟨0x5C, 0#2 ++ k, 1, packA 1 d scope⟩
  | .kpoll d k => some ⟨0x5C, 0#2 ++ k, 1, packA 2 d 0⟩
  | .kcancel k => some ⟨0x5C, 0#2 ++ k, 1, packA 3 0 0⟩
  | .kdetach d k => some ⟨0x5C, 0#2 ++ k, 1, packA 4 d 0⟩
  | .kadopt k a => some ⟨0x5C, 0#2 ++ k, 1, packA 5 a 0⟩
  | .kprio k a => some ⟨0x5C, 0#2 ++ k, 1, packA 6 a 0⟩
  | .kinfo d k w => some ⟨0x5C, 0#2 ++ k, 1, packA 7 d w⟩
  | .fence scope => some ⟨0x5D, 0#2 ++ 0#4, 1, packA 0 0 scope⟩
  | .xfence p1 p2 scope => some ⟨0x5D, 0#2 ++ p1, 1, packA 1 (0#1 ++ p2) scope⟩
  | .fbar bid scope => some ⟨0x5D, 0#2 ++ bid, 1, packA 2 0 scope⟩
  | .bwait bid => some ⟨0x5D, 0#2 ++ bid, 1, packA 3 0 0⟩
  | .ipost id a => some ⟨0x5D, 0#2 ++ id, 1, packA 4 a 0⟩
  | .iwait id a => some ⟨0x5D, 0#2 ++ id, 1, packA 5 a 0⟩
  | .await v a => some ⟨0x5D, 0#2 ++ 0#4, 1, packA 6 a v⟩
  | _ => none

/-- Decode a head (without CB) and its tail bits: R92, then R93 and R94. The fields that an instruction does not use are
those in which its encoding differs from the bits read. -/
noncomputable def decodeEnc (e : Enc) : Except DecodeError Instr :=
  match formTl e.op with
  | none => .error .unassignedOpcode
  | some tl =>
    if e.tl != tl then .error .wrongTailLength
    else
      match parseOp e.op e.x e.y with
      | none => .error .unassignedFunction
      | some i =>
        if encode i != some e then .error .fieldNotZero
        else if i.formOk then .ok i
        else .error .fieldOutOfRange

/-- The fields of a head parcel (R91), with the tail bits given. -/
def encOfHead (head : BitVec 16) (y : BitVec 48) : Enc :=
  ⟨head.extractLsb' 6 7, head.extractLsb' 0 6, head.extractLsb' 13 2, y⟩

/-- CB of a head (R91). -/
def headCb (head : BitVec 16) : Bool := head.getLsbD 15

/-- TL of a head (R91). -/
def headTl (head : BitVec 16) : Nat := (head.extractLsb' 13 2).toNat

/-- The head parcel of an encoded instruction (R91). -/
def headOf (cb : Bool) (e : Enc) : BitVec 16 := bit cb ++ e.tl ++ e.op ++ e.x

/-- The words of an instruction: its head and its tail parcels, low first (R86); no word for a step of the part. -/
def encodeWords (cb : Bool) (i : Instr) : List (BitVec 16) :=
  match encode i with
  | none => []
  | some e => headOf cb e :: [e.y.extractLsb' 0 16, e.y.extractLsb' 16 16, e.y.extractLsb' 32 16].take e.tl.toNat

/-- Decode the words of one instruction: its head and its tail parcels, low first. The parcels must be as many as TL says. -/
noncomputable def decodeWords : List (BitVec 16) → Except DecodeError Instr
  | [h] => if headTl h = 0 then decodeEnc (encOfHead h 0) else .error .wrongTailLength
  | [h, p0] => if headTl h = 1 then decodeEnc (encOfHead h (0#32 ++ p0)) else .error .wrongTailLength
  | [h, p0, p1] => if headTl h = 2 then decodeEnc (encOfHead h (0#16 ++ p1 ++ p0)) else .error .wrongTailLength
  | [h, p0, p1, p2] => if headTl h = 3 then decodeEnc (encOfHead h (p2 ++ p1 ++ p0)) else .error .wrongTailLength
  | _ => .error .wrongTailLength

/-- The words of a row of the opcode table: the table writes the head as the high 16 bits and the tail parcels below it,
the highest parcel first. A shorter row than its TL asks has zero parcels. -/
def tableParcels (nbits w : Nat) : List (BitVec 16) :=
  if nbits ≤ 16 then [BitVec.ofNat 16 w]
  else if nbits ≤ 32 then [BitVec.ofNat 16 (w / 2 ^ 16), BitVec.ofNat 16 w]
  else if nbits ≤ 48 then [BitVec.ofNat 16 (w / 2 ^ 32), BitVec.ofNat 16 w, BitVec.ofNat 16 (w / 2 ^ 16)]
  else [BitVec.ofNat 16 (w / 2 ^ 48), BitVec.ofNat 16 w, BitVec.ofNat 16 (w / 2 ^ 16), BitVec.ofNat 16 (w / 2 ^ 32)]

/-- The head and the tail parcels of a table word, the tail filled with zero parcels up to TL. -/
def tableWords (nbits w : Nat) : List (BitVec 16) :=
  match tableParcels nbits w with
  | [] => []
  | h :: t => h :: (t ++ [0, 0, 0]).take (max (headTl h) t.length)

/-- The instruction the decoder reads from a word numbered as the opcode table numbers it. -/
noncomputable def decodeTableWord (nbits w : Nat) : Option Instr :=
  match decodeWords (tableWords nbits w) with
  | .ok i => some i
  | .error _ => none

end Sys2Proof
end

