-- ==== Sys2Proof/Machine/Flags.lean ====
section
/-! DEFINITION. Sys2Proof/Machine/Flags.lean: floating results with their flags for one bank (R21, R46, R140), and the check of
the dynamic rounding mode. -/

namespace Sys2Proof.Machine

/-- The word of fcsr (R21). -/
def fcsrWord (rm : BitVec 3) (flags : BitVec 5) : Word :=
  rm.setWidth 64 ||| flags.setWidth 64 <<< 8 ||| (if flags = 0 then 0 else 0x10000)

/-- fcsr as the focus's sequencer bank reads it. -/
def State.fcsrTval (s : State) : Word := fcsrWord s.fpart.rmNow (s.fbank s.seqBank).flags

/-- A scalar rounding instruction: an RM of 5-7 traps (R21, R140), else each active bank gets its result and flags. -/
def roundingOp (s : State) (d : BitVec 5) (f : RMode → Bank → Word × BitVec 5) : Host.Outcome State Fault Refusal :=
  if 5 ≤ s.fpart.rmNow.toNat then .next (s.trapSingle 0x01 s.fcsrTval)
  else s.perBank (fun x => (x.ws d (f (rmodeOf s.fpart.rmNow) x).1).accrue (f (rmodeOf s.fpart.rmNow) x).2)

/-- A scalar floating instruction that never rounds: no check of RM (R21). -/
def plainOp (s : State) (d : BitVec 5) (f : Bank → Word × BitVec 5) : Host.Outcome State Fault Refusal :=
  s.perBank (fun x => (x.ws d (f x).1).accrue (f x).2)

/-- The encoding of a format in an s-register (R140): the low bits; the rest is ignored. -/
def encIn (f : Fmt) (w : Word) : Nat := w.toNat % 2 ^ f.bits

/-- The value of a register operand. -/
def fvIn (f : Fmt) (w : Word) : FV := unpack f (encIn f w)

/-- A result written with the upper bits zero (R140), with the flags of its operation. -/
def result (f : Fmt) (mode : RMode) (r : FV × BitVec 5) : Word × BitVec 5 :=
  let d := deliver f mode false r.1
  (BitVec.ofNat 64 d.1, r.2 ||| d.2)

def fpAdd (f : Fmt) (m : RMode) (a b : Word) : Word × BitVec 5 := result f m (fvAdd m (fvIn f a) (fvIn f b))
def fpSub (f : Fmt) (m : RMode) (a b : Word) : Word × BitVec 5 := result f m (fvAdd m (fvIn f a) (fvIn f b).flip)
def fpMul (f : Fmt) (m : RMode) (a b : Word) : Word × BitVec 5 := result f m (fvMul (fvIn f a) (fvIn f b))
def fpDiv (f : Fmt) (m : RMode) (a b : Word) : Word × BitVec 5 := result f m (fvDiv (fvIn f a) (fvIn f b))
def fpSqrt (f : Fmt) (m : RMode) (a : Word) : Word × BitVec 5 := result f m (fvSqrt (fvIn f a))
def fpFma (f : Fmt) (m : RMode) (a b c : Word) : Word × BitVec 5 := result f m (fvFma m (fvIn f a) (fvIn f b) (fvIn f c))
def fpFms (f : Fmt) (m : RMode) (a b c : Word) : Word × BitVec 5 := result f m (fvFma m (fvIn f a) (fvIn f b) (fvIn f c).flip)

/-- fmin and fmax (R50). -/
def fpMinMax (f : Fmt) (isMax : Bool) (a b : Word) : Word × BitVec 5 :=
  let r := minMaxEnc f isMax (encIn f a) (encIn f b)
  (BitVec.ofNat 64 r.1, r.2)

/-- fneg and fabs: the sign of an encoding changed; a NaN becomes canonical, NV only when signalling (R44, R141). -/
def signOp (f : Fmt) (neg : Bool → Bool) (n : Nat) : Nat × BitVec 5 :=
  match unpack f n with
  | .nan sg => (nanEnc f, flagIf sg fNV)
  | x => (signed f (neg x.sign) (n % 2 ^ (f.bits - 1)), 0)

def fpNeg (f : Fmt) (a : Word) : Word × BitVec 5 := let r := signOp f (fun n => !n) (encIn f a); (BitVec.ofNat 64 r.1, r.2)
def fpAbs (f : Fmt) (a : Word) : Word × BitVec 5 := let r := signOp f (fun _ => false) (encIn f a); (BitVec.ofNat 64 r.1, r.2)

/-- feq: NV only for a signalling NaN (R142). -/
def fpEq (f : Fmt) (a b : Word) : Word × BitVec 5 :=
  (if fvEq (fvIn f a) (fvIn f b) then 1 else 0, sigNV [fvIn f a, fvIn f b])

/-- NV for any NaN (R142). -/
def anyNV (a b : FV) : BitVec 5 := flagIf (a.isNan || b.isNan) fNV

/-- flt (R142). -/
def fpLt (f : Fmt) (a b : Word) : Word × BitVec 5 :=
  let x := fvIn f a
  let y := fvIn f b
  (if !x.isNan && !y.isNan && fvLt x y then 1 else 0, anyNV x y)

/-- fle (R142). -/
def fpLe (f : Fmt) (a b : Word) : Word × BitVec 5 :=
  let x := fvIn f a
  let y := fvIn f b
  (if !x.isNan && !y.isNan && !fvLt y x then 1 else 0, anyNV x y)

/-- Float to float: NaN canonical, NV when signalling (R143). -/
def fpConv (src dst : Fmt) (m : RMode) (a : Word) : Word × BitVec 5 :=
  result dst m (fvIn src a, sigNV [fvIn src a])

/-- Float to a 64-bit integer, saturating (R49). -/
def fpToInt (src : Fmt) (sgn : Bool) (m : RMode) (a : Word) : Word × BitVec 5 :=
  let r := if sgn then toIntIn m (-(2 ^ 63)) (2 ^ 63 - 1) (fvIn src a) else toIntIn m 0 (2 ^ 64 - 1) (fvIn src a)
  (BitVec.ofInt 64 r.1, r.2)

/-- A 64-bit integer to float (R49). -/
def fpOfInt (dst : Fmt) (sgn : Bool) (m : RMode) (a : Word) : Word × BitVec 5 :=
  result dst m (fvOfInt false (if sgn then a.toInt else (a.toNat : Int)) 0, 0)

end Sys2Proof.Machine
end

