-- ==== Sys2Proof/Machine/Operands.lean ====
section
/-! DEFINITION. Sys2Proof/Machine/Operands.lean: the operand forms of the vector instructions: their groups, masks, second
sources and formats (R185, R189, R201, R209-R211), and the checks made when a convoy is decoded (R95, R186, R210). -/

namespace Sys2Proof.Machine

open Sys2Proof

/-- A pane group: its first pane, its size (none: not 1, 2, 4 or 8), the width of its elements, and the companion scale
pane of a q4 operand (R201). -/
structure Group0 where
  first : Nat
  size : Option Nat
  bits : Nat
  comp : Option Nat
deriving DecidableEq, Repr

/-- The panes of a group, its companion included (R99, R201). -/
def Group0.panes (x : Group0) : List Nat := upFrom x.first (x.size.getD 0) ++ x.comp.toList

/-- The operands of a vector instruction as the checks see them. -/
structure VInfo where
  t : BitVec 4
  g : Nat
  admitted : Bool
  svOk : Bool
  maskOk : Bool
  dst : Option Group0
  srcs : List Group0
  readsD : Bool
  index : Option Group0
  mdst : Option Nat
  msrcs : List Nat
  ew : Bool
  rounds : Bool
deriving DecidableEq, Repr

/-- A group of G panes of a format; q4 has its companion just above (R201). -/
def groupOf (w g : Nat) (t : BitVec 4) : Group0 := ⟨w, some g, fmtBits t, if t = 7 then some (w + g) else none⟩

/-- A source of another width (R189): Gs = G * bits(Ts) / bits(T). -/
def sourceGroup (w g : Nat) (ts t : BitVec 4) : Group0 :=
  let n := g * fmtBits ts
  let gs := n / fmtBits t
  let ok := n % fmtBits t == 0 && [1, 2, 4, 8].contains gs
  ⟨w, if ok then some gs else none, fmtBits ts, if ts = 7 then some (w + gs) else none⟩

/-- The format Ts of the mixed shapes: y[8:5] (R185). -/
def tsOf (o : VOps) : BitVec 4 := o.s.setWidth 4

/-- The masks an instruction reads beside its operands: M when it is not 0. -/
def maskRead (m : BitVec 3) : List Nat := if m = 0 then [] else [m.toNat]

/-- A T code that is neither q4 nor unassigned. -/
def notQ4 (t : BitVec 4) : Bool := t != 7 && t.toNat ≤ 12

/-- SV of a binary or compare shape (R186 check 2). -/
def svBinary (o : VOps) : Bool := !(o.sv == 2 && isFL o.t)

/-- A destination format holds every value of a source format (R21). -/
def holdsAll (src dst : BitVec 4) : Bool :=
  src == dst ||
    (match dst.toNat with
     | 12 => [0, 1, 2, 3, 6, 7, 8, 9, 10, 11].contains src.toNat
     | 11 => [0, 1, 6, 7, 8, 9].contains src.toNat
     | 10 => [0, 1, 6, 8, 9].contains src.toNat
     | 9 => src.toNat == 6
     | 8 => src.toNat == 6
     | _ => false)

/-- The fields common to shapes of one format. -/
def vBase (o : VOps) (admitted : Bool) : VInfo :=
  { t := o.t, g := groupSize o.g, admitted := admitted, svOk := true, maskOk := true, dst := none, srcs := [], readsD := false
    index := none, mdst := none, msrcs := maskRead o.m, ew := true, rounds := false }

/-- Shape binary: destination, source a, and source b when SV is 0. -/
def vBinary (o : VOps) (admitted : Bool) : VInfo :=
  { vBase o admitted with
    svOk := svBinary o
    dst := some (groupOf o.wd.toNat (groupSize o.g) o.t)
    srcs := groupOf o.wa.toNat (groupSize o.g) o.t :: (if o.sv = 0 then [groupOf o.wb.toNat (groupSize o.g) o.t] else []) }

/-- A binary instruction that rounds in the floating formats. -/
def vArith (o : VOps) (admitted : Bool) : VInfo := { vBinary o admitted with rounds := isFL o.t }

/-- Shape unary. -/
def vUnary (o : VOps) (admitted : Bool) : VInfo :=
  { vBase o admitted with
    dst := some (groupOf o.wd.toNat (groupSize o.g) o.t)
    srcs := [groupOf o.wa.toNat (groupSize o.g) o.t] }

/-- Shape compare. -/
def vCompare (o : VOps) : VInfo :=
  { vBase o (isFL o.t || isIN o.t) with
    svOk := svBinary o
    srcs := groupOf o.wa.toNat (groupSize o.g) o.t :: (if o.sv = 0 then [groupOf o.wb.toNat (groupSize o.g) o.t] else [])
    mdst := some o.wd.toNat }

/-- Shape mask logic. -/
def vLogic (o : VOps) (two : Bool) : VInfo :=
  { vBase o true with
    mdst := some o.wd.toNat
    msrcs := [o.wa.toNat] ++ (if two then [o.wb.toNat] else []) ++ maskRead o.m }

/-- Shape mask count. -/
def vCount (o : VOps) : VInfo := { vBase o true with msrcs := o.wa.toNat :: maskRead o.m, ew := false }

/-- Shape mixed, source groups by R189. -/
def vMixed (o : VOps) (two admitted : Bool) : VInfo :=
  { vBase o admitted with
    dst := some (groupOf o.wd.toNat (groupSize o.g) o.t)
    srcs := sourceGroup o.wa.toNat (groupSize o.g) (tsOf o) o.t ::
      (if two then [sourceGroup o.wb.toNat (groupSize o.g) (tsOf o) o.t] else []) }

/-- Shape reduce. -/
def vReduce (o : VOps) (admitted : Bool) : VInfo :=
  { vBase o admitted with srcs := [groupOf o.wa.toNat (groupSize o.g) o.t], ew := false }

/-- The pairs of vwfma (R199). -/
def wfmaPair (o : VOps) : Bool :=
  [(8, 12), (9, 12), (10, 12), (11, 12), (8, 10), (9, 10), (8, 11), (9, 11), (0, 4), (2, 4), (1, 5), (3, 5)].contains
    ((tsOf o).toNat, o.t.toNat)

/-- The pairs of vdot (R200). -/
def dotPair (o : VOps) : Bool := [(8, 12), (9, 12), (7, 12), (0, 4), (6, 4), (1, 5)].contains ((tsOf o).toNat, o.t.toNat)

/-- Form M: whether it loads, its index group, its success mask. -/
def mInfo (o : MOps) (noFour load idx : Bool) (mdst : Option Nat) : VInfo :=
  let grp : Group0 := ⟨o.w.toNat, some (groupSize o.g), fmtBits o.t, none⟩
  { t := o.t, g := groupSize o.g, admitted := !noFour || (o.t != 6 && o.t != 7), svOk := true, maskOk := true
    dst := if load then some grp else none
    srcs := if load then [] else [grp]
    readsD := false
    index := if idx then some ⟨o.wi.toNat, some (groupSize o.g * 32 / fmtBits o.t), 32, none⟩ else none
    mdst := mdst, msrcs := maskRead o.m, ew := true, rounds := false }

/-- The operands of every element instruction of forms V, VX and M, and of vlq; none for another instruction. -/
def vinfo : Instr → Option VInfo
  | .vadd o | .vsub o | .vmul o => some (vArith o (isFL o.t || isIN o.t))
  | .vfma o | .vfms o | .vfnma o => some { vArith o (isFL o.t) with readsD := true }
  | .vmin o | .vmax o => some (vBinary o (isFL o.t || isIN o.t))
  | .vabs o | .vneg o => some (vUnary o (isFL o.t || isIN o.t))
  | .vdiv o => some (vArith o (isFW o.t))
  | .vsqrt o | .vrcp o | .vrsq o | .vexp2 o | .vlog2 o => some { vUnary o (isFW o.t) with rounds := true }
  | .vmulh o => some (vBinary o (isIW o.t))
  | .vadds o | .vsubs o | .vsll o | .vsrl o | .vsra o => some (vBinary o (isIN o.t))
  | .vand o | .vor o | .vxor o | .vandn o => some (vBinary o (notQ4 o.t))
  | .vnot o => some (vUnary o (notQ4 o.t))
  | .vfsl o | .vfsr o => some { vBinary o (isIN o.t) with readsD := true }
  | .vclz o | .vpopc o => some (vUnary o (isIN o.t))
  | .vcmpEq o | .vcmpNe o | .vcmpLt o | .vcmpLe o | .vcmpGt o | .vcmpGe o => some (vCompare o)
  | .mand o | .mor o | .mxor o => some (vLogic o true)
  | .mnot o => some (vLogic o false)
  | .mpopc o | .mfirst o => some (vCount o)
  | .vsel o => some { vBinary o true with maskOk := o.m != 0 }
  | .vmov o => some (vUnary o true)
  | .vbcast o => some { vUnary o true with svOk := o.sv == 1 || (o.sv == 2 && isIN o.t), srcs := [] }
  | .vslideUp o | .vslideDn o =>
    some { vUnary o (notQ4 o.t) with svOk := o.sv == 1 || o.sv == 2, ew := false }
  | .vcompress o => some { vUnary o (notQ4 o.t) with maskOk := o.m != 0, ew := false }
  | .vidx o =>
    some { t := o.t, g := groupSize o.g, admitted := isIN o.t, svOk := true, maskOk := true
           dst := some (groupOf o.wd.toNat (groupSize o.g) o.t), srcs := [], readsD := false, index := none, mdst := none
           msrcs := maskRead o.m, ew := true, rounds := false }
  | .vcvt o =>
    some { vMixed o false (notQ4 o.t && notQ4 (tsOf o)) with
           rounds := (isFL o.t || isFL (tsOf o)) && !holdsAll (tsOf o) o.t }
  | .vwfma o => some { vMixed o true (wfmaPair o) with readsD := true, rounds := isFL o.t }
  | .vdot o =>
    some { vMixed o true (dotPair o) with
           readsD := true, rounds := isFL o.t, ew := false
           srcs := [groupOf o.wa.toNat (groupSize o.g) (tsOf o), groupOf o.wb.toNat (groupSize o.g) (tsOf o)] }
  | .vqenc o => some { vMixed o false (o.t == 7 && isFW (tsOf o)) with rounds := true, ew := false }
  | .vqdec o =>
    some { vMixed o false (isFW o.t && ((tsOf o) == 6 || (tsOf o) == 7)) with rounds := !holdsAll (tsOf o) o.t, ew := false }
  | .vredSum o => some { vReduce o (isFL o.t || isIN o.t) with rounds := isFL o.t }
  | .vredMax o | .vredMin o => some (vReduce o (isFL o.t || isIN o.t))
  | .vredAnd o | .vredOr o => some (vReduce o (isIN o.t))
  | .vgmax o =>
    some { vUnary o (isFL o.t || isIN o.t) with svOk := o.sv == 1 || o.sv == 2, ew := false }
  | .vscan o => some { vUnary o (isFL o.t || isIN o.t) with rounds := isFL o.t, ew := false }
  | .vld o => some (mInfo o false true false none)
  | .vlds o => some (mInfo o true true false none)
  | .vldx o | .vldl o => some (mInfo o true true true none)
  | .vst o => some (mInfo o false false false none)
  | .vsts o => some (mInfo o true false false none)
  | .vstx o => some (mInfo o true false true none)
  | .vstb o => some { mInfo o true false false none with ew := false }
  | .vstc o => some (mInfo o true false true (some (o.s.toNat % 8)))
  | .vspill o => some (mInfo o false false false none)
  | .vfill o => some (mInfo o false true false none)
  | .vlq o => some (mInfo o false false false none)
  | _ => none

/-- A floating format whose elements round when the instruction does: RM of the encoding (R45). -/
def rmField : Instr → BitVec 2
  | .vadd o | .vsub o | .vmul o | .vfma o | .vfms o | .vfnma o | .vdiv o | .vsqrt o | .vrcp o | .vrsq o | .vexp2 o
  | .vlog2 o | .vcvt o | .vwfma o | .vdot o | .vqenc o | .vqdec o | .vredSum o | .vscan o => o.rm
  | _ => 1

/-! ## Checks at decode (R95 step 4) -/

/-- tval of an illegal instruction (R95): the head in [15:0], the tail bits above. -/
def illegalTval (head : BitVec 16) (y : BitVec 48) : Word := y ++ head

/-- A group is aligned (R34), its companion at most w11 (R186 check 5). -/
def Group0.aligned (x : Group0) : Bool :=
  (match x.size with
   | some n => groupOk x.first n
   | none => true)

def Group0.compOk (x : Group0) : Bool := (x.comp.map (fun c => decide (c ≤ 11))).getD true

/-- The first of the groups, destination first, that fails alignment; then the first whose companion lies above w11. -/
def VInfo.misaligned (v : VInfo) : Option Nat :=
  let gs : List Group0 := v.dst.toList ++ v.srcs
  ((gs.find? (fun x => !x.aligned)).or (gs.find? (fun x => !x.compOk))).map (·.first)

/-- The overlap rule of R189. -/
def VInfo.overlapBad (v : VInfo) : Bool :=
  match v.dst with
  | none => false
  | some d =>
    v.srcs.any (fun x => x.panes.any (fun p => d.panes.contains p) && (x.bits != d.bits || x.first != d.first || !v.ew))

/-- L of the instruction (R33). -/
def VInfo.l (v : VInfo) (t : Seat) : Nat := t.local_ (fmtBits v.t) v.g

/-- The checks of R210. -/
def indexCheck (t : Seat) (v : VInfo) (vstcBad : Bool) (ill : Word) : Option (BitVec 8 × Word) :=
  match v.index with
  | none => none
  | some x =>
    let gi := x.size.getD 0
    if 8 < gi then some (0x01, ill)
    else if !groupOk x.first gi then some (0x09, BitVec.ofNat 64 x.first)
    else if (v.dst.map (fun d => d.panes.any (fun p => x.panes.contains p))).getD false then some (0x01, ill)
    else if vstcBad then some (0x01, ill)
    else if v.mdst.isSome && decide (4096 < v.l t) then some (0x01, BitVec.ofNat 64 (v.l t))
    else none

/-- Checks 1 to 8 of R186, with those of R210 between the fifth and the sixth: cause and tval of the first that fails. `dyn`
is fcsr.RM, `fcsr` the word that check 8 reports. -/
def VInfo.check (v : VInfo) (t : Seat) (rm : BitVec 2) (dyn : BitVec 3) (fcsr ill : Word) (vstcBad : Bool) :
    Option (BitVec 8 × Word) :=
  if !v.admitted then some (0x01, ill)
  else if !v.svOk then some (0x01, ill)
  else if !v.maskOk then some (0x01, ill)
  else if v.srcs.any (fun x => x.size.isNone) then some (0x01, ill)
  else
    match v.misaligned with
    | some w => some (0x09, BitVec.ofNat 64 w)
    | none =>
      match indexCheck t v vstcBad ill with
      | some r => some r
      | none =>
        if v.overlapBad then some (0x01, ill)
        else if v.mdst.isSome && decide (4096 < v.l t) then some (0x01, BitVec.ofNat 64 (v.l t))
        else if v.rounds && rm == 0 && decide (3 ≤ dyn.toNat) then some (0x01, fcsr)
        else none

/-- vstc's S field names a mask in [2:0] and nothing in [4:3] (R210). -/
def vstcBad : Instr → Bool
  | .vstc o => o.s.toNat / 8 != 0 || o.s.toNat % 8 == 0
  | _ => false

/-! ## Privilege (R95 step 5) and the control cores' opcodes (R108) -/

/-- The instructions that only supervisor code may run: claim, eret, launch, tlbinv, and shut and reopen of slots 5-7; the cause's tval
(R77, R95, R121). getc and setc are checked with their register when they run. -/
def privileged : Instr → Option Word
  | .claim => some 0
  | .eret => some 0
  | .launch _ => some 0
  | .tlbinv _ _ => some 0
  | .shut _ k | .reopen _ k => if 5 ≤ k.toNat then some (k.setWidth 64) else none
  | _ => none

/-- What a control core executes (R108), given the opcode. -/
def controlRuns (op : BitVec 7) (i : Instr) : Bool :=
  [0x00, 0x01, 0x04, 0x05, 0x06, 0x08, 0x09, 0x0C, 0x0D, 0x10, 0x11, 0x12, 0x13, 0x14, 0x15, 0x16, 0x18, 0x19, 0x1A, 0x5D,
    0x5E, 0x60].contains op.toNat &&
    (match i with
     | .claim => false
     | .ipost _ _ => false
     | .iwait _ _ => false
     | _ => true)

end Sys2Proof.Machine
end

