-- ==== Sys2Proof/Machine/Redund.lean ====
section
/-! DEFINITION. Sys2Proof/Machine/Redund.lean: the replica's side of redundant execution: signatures (R334, R335), release points
(R333), snapshots (R337) and rollbacks (R340). -/

namespace Sys2Proof.Machine

/-! ## SipHash-2-4 (R334) -/

structure Sip where
  v0 : Word
  v1 : Word
  v2 : Word
  v3 : Word
deriving DecidableEq, Repr

/-- One SipRound. -/
def Sip.round (x : Sip) : Sip :=
  let a0 := x.v0 + x.v1
  let a1 := x.v1.rotateLeft 13 ^^^ a0
  let b0 := a0.rotateLeft 32
  let a2 := x.v2 + x.v3
  let a3 := x.v3.rotateLeft 16 ^^^ a2
  let c0 := b0 + a3
  let c3 := a3.rotateLeft 21 ^^^ c0
  let c2 := a2 + a1
  let c1 := a1.rotateLeft 17 ^^^ c2
  ⟨c0, c1, c2.rotateLeft 32, c3⟩

/-- Absorb one word. -/
def Sip.absorb (x : Sip) (m : Word) : Sip :=
  let y := ({ x with v3 := x.v3 ^^^ m } : Sip).round.round
  { y with v0 := y.v0 ^^^ m }

/-- SipHash-2-4 of a message of whole words under a 128-bit key. -/
def sipHash (k0 k1 : Word) (msg : List Word) : Word :=
  let s0 : Sip := ⟨k0 ^^^ 0x736F6D6570736575, k1 ^^^ 0x646F72616E646F6D, k0 ^^^ 0x6C7967656E657261, k1 ^^^ 0x7465646279746573⟩
  let s1 := (msg.foldl Sip.absorb s0).absorb (BitVec.ofNat 64 (8 * msg.length % 256 * 2 ^ 56))
  let s2 := ({ s1 with v2 := s1.v2 ^^^ 0xFF } : Sip).round.round.round.round
  s2.v0 ^^^ s2.v1 ^^^ s2.v2 ^^^ s2.v3

/-! ## Signatures -/

/-- The physical address at which a replica's view holds a granule of its shadow. -/
def Replica.shadowPa (r : Replica) (va : Nat) : Nat :=
  match r.view.find? (fun v => v.page == va / 2 ^ 16) with
  | some v => v.stripe + va % 2 ^ 16
  | none => 0

/-- The dirty granules, ascending. -/
def Replica.dirtyGranules (r : Replica) : List (Nat × BitVec 64) := r.dirty.filter (fun p => p.2 != 0)

/-- The words of a dirty granule's message (R335). -/
def granuleWords (s : State) (r : Replica) (g : Nat × BitVec 64) : List Word :=
  [BitVec.ofNat 64 (g.1 * 64), g.2] ++ (List.range 8).map (fun i => BitVec.ofNat 64 (s.peek (r.shadowPa (g.1 * 64) + 8 * i) 8))

/-- The signature of a replica at a release point (R334). `keys` numbers the gang's keys (log 2). -/
def signature (s : State) (r : Replica) (keys kind : Nat) (recs : List (List Word)) : BitVec 256 :=
  let gs := r.dirtyGranules
  let msgs := gs.map (granuleWords s r) ++ recs
  let sum (k : Nat) : Word := (msgs.map (sipHash (Config.freeWord k) (Config.freeWord (k + 1)))).foldl (· + ·) 0
  let xaddr : Word := (gs.map (fun g => BitVec.ofNat 64 (g.1 * 64))).foldl (· ^^^ ·) 0
  xaddr ++ sum (keys + 2) ++ sum keys ++ BitVec.ofNat 32 (kind + recs.length % 256 * 16) ++ BitVec.ofNat 32 gs.length

/-! ## Local operations (R330, R333) -/

/-- The pieces of a range of addresses that lie in one page each: address and size. -/
def pagePieces (va n : Nat) : List (Nat × Nat) :=
  (upFrom (va / 2 ^ 16) (n / 2 ^ 16 + 2)).filterMap (fun p =>
    let a := max va (p * 2 ^ 16)
    let e := min (va + n) ((p + 1) * 2 ^ 16)
    if a < e then some (a, e - a) else none)

/-- Every byte of a range lies in the replica's declared outputs or in its own grant: page by page, for a page lies in one SRAM bank. -/
def replicaOwns (s : State) (t : Seat) (c : Ctx) (va n : Nat) : Bool :=
  match t.red with
  | none => true
  | some r =>
    (pagePieces va n).all (fun x =>
      declaredAll r x.1 x.2 || (match translate s c .write x.1 with | .ok p => ownSram t c.core p.pa | _ => false))

/-- An operation whose effects reach outside the replica's view (R227, R330). -/
def OpKind.external (s : State) (t : Seat) (c : Ctx) : OpKind → Bool
  | .cpy d _ n _ => !replicaOwns s t c (aVa d).toNat n
  | .cpy2d d _ rows rb _ ds _ => !(List.range rows).all (fun i => replicaOwns s t c (((aVa d).toNat : Int) + i * ds.toInt).toNat rb)
  | .gath d _ _ n esz _ => !replicaOwns s t c (aVa d).toNat (n * 2 ^ esz)
  | .mmma .. | .mdrain .. => false
  | _ => true

/-- An operation of the focus's seat that is local and not terminal (R333). -/
def State.localOp (s : State) : Option Nat :=
  let t := s.fseat
  (s.opsWhere (fun o => o.core == s.focus.core && o.base == s.focus.base && o.launch == t.launch && o.task == t.task &&
    !o.st.terminal && !o.kind.external s t s.fctx)).head?

/-! ## Tile rows of a seat -/

/-- The tile rows of a seat, keyed by its own row number (R237): row*1024 + tile*128 + column. -/
def seatTiles (q : Quad) (rows : List Nat) : Table (BitVec 32) :=
  (rows.zipIdx).flatMap fun p => ((q.tiles.filter (fun e => e.1 / 1024 == p.1)).map (fun e => (p.2 * 1024 + e.1 % 1024, e.2)))

/-- Fill engine rows from an image keyed by the seat's own row number. -/
def fillTiles (q : Quad) (rows : List Nat) (img : Table (BitVec 32)) : Quad :=
  let kept := q.tiles.filter (fun e => !rows.contains (e.1 / 1024))
  let row (t : Table (BitVec 32)) (p : Nat × Nat) : Table (BitVec 32) :=
    (img.filter (fun e => e.1 / 1024 == p.2)).foldl (fun t e => put t (p.1 * 1024 + e.1 % 1024) e.2) t
  { q with tiles := rows.zipIdx.foldl row kept }

/-! ## Snapshots (R337) -/

/-- Reopen a parked pane, shut every open pane to slot 6; one in OPENING or WRITING as it will be. -/
def Bank.snapPanes (b : Bank) : List Nat → Bank
  | [] => b
  | n :: ns =>
    let b1 := if (b.pane n).park then b.unparkPane n else b
    Bank.snapPanes (if (b1.pane n).holds then b1.keepImage n 6 else b1) ns

/-- Late results of every part are written. -/
def State.flushParts (s : State) (core : Nat) : List (Nat × Option Part) → State
  | [] => s
  | p :: ps => State.flushParts (match p.2 with | some x => s.flushLate core x.late | none => s) core ps

/-- The snapshot of a seat as it stands; results that wait for a convoy's end are in it, for it resumes at the pc of each part (R340). -/
def takeSnapshot (s0 : State) (core : Nat) (t : Seat) : Snapshot :=
  let s := s0.flushParts core t.parts
  { parts := t.parts, status := t.status, cause := t.cause, epc := t.epc, tval := t.tval, tvec := t.tvec, handler := t.handler, prio := t.prio, lcap := t.lcap, bars := t.bars
    banks := t.banks.map (fun b => (b - t.base, s.bank core b)), mg := t.rows.length, shape := t.shape
    tiles := seatTiles (s.quad (core / 4)) t.rows
    sram := t.sram.map (fun b => ⟨b, s.sram (core / 4) b⟩), opAge := s.opAge }

/-- Past a release point (R337 steps 3 and 4): panes to slot 6, snapshot, masks and echo log emptied; what the leader has echoed beyond the
release point stays for this replica to take. -/
def State.afterRelease (s : State) : State :=
  let t := s.fseat
  match t.red with
  | none => s
  | some _ =>
    let s1 := s.modBanks s.focus.core (fun _ b => b.snapPanes (List.range 12)) t.banks
    let past (x : Seat) (r : Replica) : Replica :=
      { r with
        dirty := [], echoLog := r.echoLog.drop r.echoPos, echoPos := 0, hold := none, released := false, performer := false
        snap := some (takeSnapshot s1 s.focus.core x) }
    s1.modSeat s.focus (fun x => { x with red := x.red.map (past x) })

/-! ## Release points (R333) -/

/-- The end of the instruction at a release point that the vote has let go. -/
def finishRelease (r : State × Done) : Host.Outcome State Fault Refusal :=
  match r.2 with
  | .ok => .next r.1.retire.afterRelease
  | .trap c v => .next (r.1.trapSingle c v)
  | .wait w => .next (r.1.waitOn w)

/-- Send the signature and hold until the vote ends (R333). -/
def State.holdForVote (s : State) (r : Replica) (kind : Nat) (recs : List (List Word)) : State :=
  let keys := ((s.task? s.fseat.launch s.fseat.task).map (·.keys)).getD 0
  (s.modSeat s.focus (fun x => { x with red := some { r with hold := some ⟨kind, signature s r keys kind recs, s.fpart.pc⟩ } })).waitOn .vote

/-- The replica that performs the access of a vote's release point, while it has not performed it: core and base (R337 step 2). -/
def State.performing (s : State) (l t : Nat) : Option (Nat × Nat) :=
  (s.seatsOf l t).find? (fun p => (((s.seat? p.1 p.2).bind (·.red)).map (fun r => r.performer && r.released)).getD false)

/-- The focus's replica has been let go and another has yet to perform the access: it waits, so that its snapshot comes after (R337 steps 2 and 3). -/
def State.awaitsPerformer (s : State) (r : Replica) : Bool := !r.performer && (s.performing s.fseat.launch s.fseat.task).isSome

/-- An instruction that is a release point under redundancy. `body` gets whether this replica performs the access. -/
def withRelease (s : State) (kind : Nat) (recs : List (List Word)) (body : Bool → State × Done) : Host.Outcome State Fault Refusal :=
  match s.fseat.red with
  | none => finishSingle (body true)
  | some r =>
    if r.released then (if s.awaitsPerformer r then .next (s.waitOn .vote) else finishRelease (body r.performer))
    else
      match s.localOp with
      | some i => .next (s.waitOn (.op i))
      | none => .next (s.holdForVote r kind recs)

end Sys2Proof.Machine
end

