-- ==== Sys2Proof/Machine/Elem.lean ====
section
/-! DEFINITION. Sys2Proof/Machine/Elem.lean: the element phase of a convoy (R35, R101, R102, R187, R207): its element
instructions run together over ascending element indices; a trap, a wait or a cut ends it at an element boundary. -/

namespace Sys2Proof.Machine

/-- Why an element phase stops before its end: a trap, poison in a pane (R208), the cut of R214 at an element, a wait, the machine check of R351
(bank, element, `retire`: the lane is retired first). -/
inductive Stop where
  | trap (cause : BitVec 8) (tval : Word)
  | poison (tval : Word)
  | cut (e : Nat)
  | wait (w : Wait)
  | machine (bank elem : Nat) (retire : Bool)
deriving DecidableEq, Repr

/-- What an element of one instruction comes to. -/
inductive Elem where
  | ok (s : State)
  | stop (x : Stop)

/-- An element instruction with its operands read at convoy start (R101). `uses` are the panes it checks (bank, pane,
written; R187), `check` its other check before any element, `act` what an instruction that never stops part-way does
(R207), `fin` what follows its last element, `writesMask` whether it writes a mask, `release` whether it is a release point of a
replica (R333); `grain`: it stops between blocks of so many elements (R202), and `back` gives the boundary to which a stop at an element belongs. -/
structure ElemOp where
  start : Nat
  evl : Nat
  whole : Bool
  uses : List (Nat × Nat × Bool)
  check : Option (BitVec 8 × Word)
  step : Nat → State → Elem
  act : State → Elem
  fin : Nat → State → State
  writesMask : Bool
  release : Bool
  grain : Nat
  back : Nat → Nat

/-! ## The silent-error check (R351) -/

/-- Retire a lane to its bank's spare: the counter and the record; LANERET of four banks says REPLACE (R351, R420, R422). -/
def State.retireLane (s : State) (b i : Nat) : State :=
  let s1 := (s.modCore s.focus.core (fun c => { c with laneret := (c.laneret + 1) % 2 ^ 64, spare := c.spare ||| BitVec.ofNat 16 (2 ^ b) })).logError
    0x01 1 planeData (locOf s.focus.core b 0) 0 0 (BitVec.ofNat 64 i)
  if 4 ≤ (upFrom 0 16).countP (fun k => (s1.core s.focus.core).spare.getLsbD k) then s1.raiseHealth 2 else s1

/-- A mismatch at element i of a bank is over: it is counted, and its lane retired where the check says so. -/
def State.noteMismatch (s : State) (b i : Nat) (retire : Bool) : State :=
  let s1 := s.modCore s.focus.core (fun c => { c with mism := none, silmis := (c.silmis + 1) % 2 ^ 64 })
  if retire then s1.retireLane b i else s1

/-- The check of the elements `hit` (bank, element): n mismatches one after another (log 58) end in a delivered result, on the spare
lane after the second, or in the machine check. -/
def State.selfCheck (s : State) (hit : Nat → Nat → Bool) (go : State → Elem) : Elem :=
  match (s.core s.focus.core).mism with
  | none => go s
  | some m =>
    if !hit m.1 m.2.1 || m.2.2 = 0 then go s
    else
      let used := (s.core s.focus.core).spare.getLsbD m.1
      if m.2.2 = 1 then go (s.noteMismatch m.1 m.2.1 false)
      else if m.2.2 = 2 && !used then go (s.noteMismatch m.1 m.2.1 true)
      else .stop (.machine m.1 m.2.1 (!used))

/-! ## Pane checks (R187) -/

/-- The lowest use, bank first, whose pane is closed. -/
def closedUse (s : State) (us : List (Nat × Nat × Bool)) : Option (Nat × Nat) :=
  us.foldl
    (fun r u =>
      if (s.fbank u.1).pane u.2.1 |>.answer u.2.2 |> (· == .closed) then
        match r with
        | none => some (u.1, u.2.1)
        | some q => if u.1 < q.1 || (u.1 == q.1 && decide (u.2.1 < q.2)) then some (u.1, u.2.1) else some q
      else r) none

/-- What a use waits for: the sg of a parked pane that is busy, a transition, a pin. -/
def useWait (s : State) (u : Nat × Nat × Bool) : Option Wait :=
  let p := (s.fbank u.1).pane u.2.1
  if p.park then (if p.busy then some (.pane s.focus.core u.1 u.2.1) else none)
  else
    match p.answer u.2.2 with
    | .waits =>
      if u.2.2 && p.pins != 0 && (p.st == .openClean || p.st == .openDirty) then some (.pin s.focus.core u.1 u.2.1)
      else some (.pane s.focus.core u.1 u.2.1)
    | _ => none

/-- Reopen the parked panes among the uses (R74). -/
def reopenUses (s : State) : List (Nat × Nat × Bool) → State
  | [] => s
  | u :: us =>
    reopenUses (if ((s.fbank u.1).pane u.2.1).park then s.modBank s.focus.core u.1 (fun b => b.unparkPane u.2.1) else s) us

/-- The checks before the first element, in program order of the instructions. Of one instruction, ESZ and the base come before
a closed pane (DESIGN CHOICE, log 112). -/
def phaseChecks : List ElemOp → State → State × Option Stop
  | [], s => (s, none)
  | o :: os, s =>
    match o.check with
    | some c => (s, some (.trap c.1 c.2))
    | none =>
      match closedUse s o.uses with
      | some q => (s, some (.trap 0x05 (paneTval q.2 q.1)))
      | none =>
        match o.uses.findSome? (useWait s) with
        | some w => (s, some (.wait w))
        | none => phaseChecks os (reopenUses s o.uses)

/-! ## The loop -/

/-- An instruction has an element e to run. -/
def ElemOp.runs (o : ElemOp) (e : Nat) : Bool := !(o.whole || decide (e < o.start) || decide (o.evl ≤ e))

/-- The machine check that an instruction finds at element e. -/
def machineAt (e : Nat) (s : State) (o : ElemOp) : Option (Nat × Stop) :=
  if o.runs e then
    match o.step e s with
    | .stop (.machine b i r) => some (o.back e, .machine b i r)
    | _ => none
  else none

/-- Element e of every instruction, in program order: the state after it, or what stops it with the boundary it belongs to. A machine check of a
later instruction comes before another trap of an earlier one (R345). -/
def phaseStep (e : Nat) : List ElemOp → State → Except (Nat × Stop) State
  | [], s => .ok s
  | o :: os, s =>
    if o.runs e then
      match o.step e s with
      | .ok s' => phaseStep e os s'
      | .stop x => .error ((os.findSome? (machineAt e s)).getD (o.back e, x))
    else phaseStep e os s

/-- The elements from e on, `fuel` of them: the state at the boundary reached, and what stopped it there, with the boundary it belongs to. -/
def phaseLoop (os : List ElemOp) : Nat → Nat → State → State × Option (Nat × Nat × Stop)
  | 0, _, s => (s, none)
  | fuel + 1, e, s =>
    match phaseStep e os s with
    | .ok s' => phaseLoop os fuel (e + 1) s'
    | .error x => (s, some (e, x))

/-- The elements from e up to a stop, whose boundary no instruction has passed (R102, R202). -/
def phaseRun (os : List ElemOp) (fuel e : Nat) (s : State) : State × Option (Nat × Stop) :=
  match phaseLoop os fuel e s with
  | (s', none) => (s', none)
  | (s', some (k, b, x)) => if b < k then ((phaseLoop os (b - e) e s).1, some (b, x)) else (s', some (k, x))

/-- How an element phase ended. -/
inductive PhaseEnd where
  | done
  | stopped (e : Nat)
  | ended (e : Nat) (x : Stop)
  | unchanged (x : Stop)
deriving DecidableEq, Repr

/-- Instructions that never stop part-way, one after another. -/
def wholeActs : List ElemOp → State → Elem
  | [], s => .ok s
  | o :: os, s =>
    match o.act s with
    | .ok s' => wholeActs os s'
    | .stop x => .stop x

/-- The never-stopping instructions that no writer of a mask precedes, and the others (R101). -/
def earlyWhole (os : List ElemOp) : List ElemOp := (os.takeWhile (fun o => !o.writesMask)).filter (·.whole)
def lateWhole (os : List ElemOp) : List ElemOp := (os.dropWhile (fun o => !o.writesMask)).filter (·.whole)

/-- What follows the last element of every instruction that reached it. -/
def phaseFins (e : Nat) : List ElemOp → State → State
  | [], s => s
  | o :: os, s => phaseFins e os (o.fin e s)

/-- The first element of the phase and the one after its last. -/
def phaseFrom (os : List ElemOp) : Nat := ((os.map (·.start)).min?).getD 0
def phaseTo (os : List ElemOp) : Nat := ((os.map (·.evl)).max?).getD 0

/-- Where a phase ends that is asked to stop at `limit`: at its end when an instruction never stops part-way, else between the blocks of every
instruction (R202, R207), and not before its first element. -/
def phaseLast (os : List ElemOp) (limit : Option Nat) : Nat :=
  match limit with
  | none => phaseTo os
  | some x =>
    if os.any (·.whole) then phaseTo os
    else
      let g := os.foldl (fun m o => max m o.grain) 1
      max (phaseFrom os) (min (phaseTo os) ((x + g - 1) / g * g))

/-- An element phase up to its end or, for an asynchronous trap, up to `limit` (R81, R346). An instruction that never stops
part-way makes the phase all or nothing (R207; log 15). -/
def runPhase (os : List ElemOp) (limit : Option Nat) (s : State) : State × PhaseEnd :=
  let anyWhole := os.any (·.whole)
  match phaseChecks os s with
  | (_, some x) => (s, .unchanged x)
  | (s1, none) =>
    match wholeActs (earlyWhole os) s1 with
    | .stop x => (s, .unchanged x)
    | .ok s2 =>
      let last := phaseLast os limit
      match phaseRun os (last - phaseFrom os) (phaseFrom os) s2 with
      | (s3, some (e, x)) => if anyWhole then (s, .unchanged x) else (phaseFins e os s3, .ended e x)
      | (s3, none) =>
        if last < phaseTo os then (phaseFins last os s3, .stopped last)
        else
          match wholeActs (lateWhole os) s3 with
          | .stop x => (s, .unchanged x)
          | .ok s4 => (phaseFins last os s4, .done)

/-! ## After the phase -/

/-- The address of the convoy's first head: epc of every trap of its element phase (R102). -/
def Part.convoyPc (p : Part) : Word := match p.convoy with | some c => c.first | none => p.pc

/-- The part after its element phase: xidx is 0 (R35), the single instructions follow. -/
def Part.phaseOver (p : Part) : Part :=
  match p.convoy with
  | none => { p.noted with wait := none, xidx := 0 }
  | some c =>
    match c.todo with
    | [] => { p.noted.endConvoy with wait := none, xidx := 0, pc := c.next }
    | i :: is => { p.noted with wait := none, xidx := 0, convoy := some { c with elems := [], todo := i :: is }, pc := i.1 }

/-- The end of a whole element phase (R101); a convoy with no single instruction ends with it. -/
def State.phaseOver (s : State) : State :=
  let p := s.fpart
  let s1 := s.setPart s.focus p.phaseOver
  if p.phaseOver.convoy.isNone then s1.flushLate s.focus.core p.late else s1

/-- A scalar result of an element instruction: written when the convoy ends (R101). -/
def State.addLate (s : State) (b : Nat) (r : BitVec 5) (v : Word) : State :=
  match s.fpart.convoy with
  | none => s.modBank s.focus.core b (fun x => x.ws r v)
  | some c => s.modPart s.focus (fun p => { p with convoy := some { c with late := c.late ++ [(b, r.toNat, v)] } })

/-- The vl that a cut phase leaves: the convoy's instructions still read the old one, the next convoy the new one (R214). -/
def State.cutAt (s : State) (e : Nat) : State :=
  s.modPart s.focus (fun p =>
    match p.convoy with
    | some c => { p with convoy := some { c with cut := some e } }
    | none => { p with vl := e })

/-- The convoy as if it had read another vl. -/
def State.withVl (s : State) (e : Nat) : State :=
  s.modPart s.focus (fun p =>
    match p.convoy with
    | some c => { p with convoy := some { c with vl := e } }
    | none => { p with vl := e })

/-- An element phase with the cut of R214: it ends at the cut's element for every instruction, for one that never stops part-way too. -/
def runCut (mk : State → List ElemOp) (limit : Option Nat) (s : State) : State × PhaseEnd :=
  match runPhase (mk s) limit s with
  | (_, .unchanged (.cut e)) =>
    let vl := s.fpart.vlNow
    match runPhase (mk (s.withVl e)) none (s.withVl e) with
    | (s1, .done) => (s1.withVl vl, .ended e (.cut e))
    | (s1, x) => (s1.withVl vl, x)
  | r => r

/-- Leave the phase at boundary e, where it will go on (R102). -/
def State.phaseAt (s : State) (e : Nat) : State := s.modPart s.focus (fun p => { p with xidx := e })

/-- Take the machine check (R345, R348, R351): its record first, whose address is tval. A replica counts as disagreeing at its next vote (R341). -/
def State.machineCheck (s : State) (b i : Nat) (epc : Word) (xidx : Option Nat) : State :=
  (s.suspectNow.logError 0x02 2 planeData (locOf s.focus.core b 0) 0x3C 0 (BitVec.ofNat 64 i)).takeTrap s.focus 0x3C
    (BitVec.ofNat 64 (recordPa s.log.seq)) epc xidx

/-- What a stop at element e comes to; e is none when xidx is unchanged. -/
def State.phaseStop (s : State) (e : Option Nat) (x : Stop) : State :=
  let epc := s.fpart.convoyPc
  match x with
  | .trap c v =>
    match (if c = 0x14 then s.repairView (v.toNat % 2 ^ 56) else none) with
    | some s' => match e with | some e => s'.phaseAt e | none => s'
    | none => ((s.notePoison none c v).modPart s.focus Part.trapped).takeTrap s.focus c v epc e
  | .poison v => ((s.notePoison (some (v.toNat / 16 % 16, v.toNat % 16)) 0x14 v).modPart s.focus Part.trapped).takeTrap s.focus 0x14 v epc e
  | .wait w => (match e with | some e => s.phaseAt e | none => s).waitOn w
  | .cut i => (s.cutAt i).phaseOver
  | .machine b i r => ((s.noteMismatch b i r).modPart s.focus Part.trapped).machineCheck b i epc e

/-- The state after an element phase. -/
def finishPhase (r : State × PhaseEnd) : State :=
  match r.2 with
  | .done => r.1.phaseOver
  | .stopped e => (r.1.phaseAt e).modPart r.1.focus Part.halted
  | .ended e x => r.1.phaseStop (some e) x
  | .unchanged x => r.1.phaseStop none x

/-- A vstc is among the instructions; one with evl at or below xidx does nothing (R187). -/
def releasesIn (os : List ElemOp) : Bool := os.any (fun o => o.release && decide (o.start < o.evl))

/-- The phase would hold a replica at a release point (R333). -/
def awaitsVote (s : State) (os : List ElemOp) : Bool := (s.fseat.red.map (fun r => !r.released)).getD false && releasesIn os

/-- The records of the vstc elements that a phase would perform, found by a run whose effects are thrown away (R335; log 82). -/
def phaseRecords (mk : State → List ElemOp) (s : State) : List (List Word) × PhaseEnd :=
  let s1 := s.modSeat s.focus (fun t => { t with red := t.red.map (fun r => { r with performer := true }) })
  let x := runCut mk none (s1.modPart s.focus (fun p => { p with recs := [] }))
  ((x.1.part s.focus).recs, x.2)

/-- A phase that a trap stops before any vstc element performs. -/
def trapsUnperformed (r : List (List Word) × PhaseEnd) : Bool :=
  r.1.isEmpty &&
    (match r.2 with
     | .ended _ (.cut _) => false
     | .unchanged (.cut _) => false
     | .ended _ _ => true
     | .unchanged _ => true
     | _ => false)

/-- An element phase with the release point that a vstc of a replica is (R333, R337): it is held once every check and wait before the
elements it will perform is over. A trap before its first element is taken without one. -/
def elemPhase (mk : State → List ElemOp) (s : State) : State :=
  if awaitsVote s (mk s) then
    match s.fseat.red, phaseRecords mk s with
    | some _, (_, .ended _ (.wait w)) => s.waitOn w
    | some _, (_, .unchanged (.wait w)) => s.waitOn w
    | some r, x =>
      if trapsUnperformed x then finishPhase (runCut mk none s)
      else
        match s.localOp with
        | some i => s.waitOn (.op i)
        | none => s.holdForVote r 5 x.1
    | none, _ => finishPhase (runCut mk none s)
  else
    let x := runCut mk none s
    match x.2 with
    | .ended _ (.wait _) => finishPhase x
    | .unchanged (.wait _) => finishPhase x
    | _ => if releasesIn (mk s) && (s.fseat.red.map (·.released)).getD false then (finishPhase x).afterRelease else finishPhase x

/-- One element instruction by itself. -/
def elemAlone (o : State → ElemOp) (s : State) : Host.Outcome State Fault Refusal := .next (elemPhase (fun s => [o s]) s)

/-! ## Elements of a vector (R33, R35, R37, R188) -/

/-- evl of an instruction whose VLMAX is S * L (R35). -/
def State.evlOf (s : State) (l : Nat) : Nat := min s.fpart.vlNow (s.fseat.size * l)

/-- The banks of the part that hold an element from a to b - 1, for L local elements a bank. -/
def banksIn (s : State) (l a b : Nat) : List Nat :=
  s.active.filter (fun k => decide (a < (k - s.fseat.base + 1) * l) && decide ((k - s.fseat.base) * l < b))

/-- The uses of panes in every such bank. -/
def usesIn (s : State) (l a b : Nat) (reads writes : List Nat) : List (Nat × Nat × Bool) :=
  if b ≤ a then []
  else (banksIn s l a b).flatMap (fun k => writes.map (fun n => (k, n, true)) ++
    (reads.filter (fun n => !writes.contains n)).map (fun n => (k, n, false)))

/-- The operands' panes: those read and those written. -/
def VInfo.reads (v : VInfo) : List Nat := v.srcs.flatMap (·.panes) ++ (v.index.map (·.panes)).getD []
def VInfo.writes (v : VInfo) : List Nat := (v.dst.map (·.panes)).getD []

/-- Element i of the focus's part: its bank and local index, when it is processed (R188). -/
def State.elemAt (s : State) (l : Nat) (m : BitVec 3) (n : Bool) (i : Nat) : Option (Nat × Nat) :=
  let b := s.fseat.base + i / l
  if s.active.contains b && maskAt (s.fbank b) m n l (i % l) then some (b, i % l) else none

/-- An element instruction that works on one element at a time. -/
def elementOp (s : State) (v : VInfo) (body : Nat → Nat → Nat → State → Elem) (m : BitVec 3) (n : Bool) : ElemOp :=
  let l := v.l s.fseat
  { start := s.fpart.xidx
    evl := s.evlOf l
    whole := false
    uses := usesIn s l s.fpart.xidx (s.evlOf l) v.reads v.writes
    check := none
    step := fun i s' =>
      match s'.elemAt l m n i with
      | some q => body i q.1 q.2 s'
      | none => .ok s'
    act := .ok
    fin := fun _ s' => s'
    writesMask := v.mdst.isSome
    release := false
    grain := 1
    back := fun e => e }

/-- A lane fault that the check does not see alters the result delivered in element i, local j of bank b (R370). -/
def State.escape (s : State) (v : VInfo) (i b j : Nat) : State :=
  match (s.core s.focus.core).esc with
  | none => s
  | some (c, e, x) =>
    if c == b && e == i then
      let s1 := s.modCore s.focus.core (fun k => { k with esc := none })
      match v.dst with
      | some d => s1.modBank s.focus.core b (fun k => k.setElem s.fseat d.bits d.first j (k.elem s.fseat d.bits d.first j ^^^ x.toNat % 2 ^ d.bits))
      | none => s1
    else s

/-- An element of a lane as it is delivered. -/
def Elem.delivered (r : Elem) (v : VInfo) (i b j : Nat) : Elem :=
  match r with
  | .ok s => .ok (s.escape v i b j)
  | .stop x => .stop x

/-- An element instruction of class VA or VB, whose elements are checked (R351). -/
def vectorOp (s : State) (v : VInfo) (body : Nat → Nat → Nat → State → Elem) (m : BitVec 3) (n : Bool) : ElemOp :=
  elementOp s v (fun i b j s' => (s'.selfCheck (fun k e => k == b && e == i) (body i b j)).delivered v i b j) m n

end Sys2Proof.Machine
end

