-- ==== Sys2Proof/Machine/ScalarInt.lean ====
section
/-! DEFINITION. Sys2Proof/Machine/ScalarInt.lean: scalar integer instructions (R134-R139). -/

namespace Sys2Proof.Machine

/-! ## Results -/

/-- The low six bits of a shift count (R134). -/
def shiftCount (x : Word) : Nat := (x.extractLsb' 0 6).toNat

/-- Signed quotient, with the clamped results of R135. -/
def divSigned (a b : Word) : Word :=
  if b = 0 then (if a.toInt < 0 then 0x8000000000000000 else 0x7FFFFFFFFFFFFFFF)
  else if a = 0x8000000000000000 ∧ b = BitVec.allOnes 64 then 0x7FFFFFFFFFFFFFFF
  else BitVec.ofInt 64 (Int.tdiv a.toInt b.toInt)

/-- Unsigned quotient (R135). -/
def divUnsigned (a b : Word) : Word := if b = 0 then BitVec.allOnes 64 else BitVec.ofNat 64 (a.toNat / b.toNat)

/-- Signed remainder (R135). -/
def remSigned (a b : Word) : Word := if b = 0 then a else BitVec.ofInt 64 (Int.tmod a.toInt b.toInt)

/-- Unsigned remainder (R135). -/
def remUnsigned (a b : Word) : Word := if b = 0 then a else BitVec.ofNat 64 (a.toNat % b.toNat)

/-- The high 64 bits of a signed product. -/
def mulHigh (a b : Word) : Word := BitVec.ofInt 64 (a.toInt * b.toInt / 2 ^ 64)

/-- The high 64 bits of an unsigned product. -/
def mulHighU (a b : Word) : Word := BitVec.ofNat 64 (a.toNat * b.toNat / 2 ^ 64)

/-- The high word of (a ++ b) shifted left by c (R136). -/
def funnelLeft (a b : Word) (c : Nat) : Word := if c = 0 then a else (a <<< c) ||| (b >>> (64 - c))

/-- The low word of (a ++ b) shifted right by c (R136). -/
def funnelRight (a b : Word) (c : Nat) : Word := if c = 0 then b else (b >>> c) ||| (a <<< (64 - c))

/-- Leading zero bits within w (R137, R191). -/
def leadingZeros (w n : Nat) : Nat := if n = 0 then w else w - 1 - Nat.log2 n

/-- The number of one bits among the low w (R137, R191). -/
def ones : Nat → Nat → Nat
  | 0, _ => 0
  | w + 1, n => n % 2 + ones w (n / 2)

/-- Trailing zero bits within w (R137). -/
def trailingZeros : Nat → Nat → Nat
  | 0, _ => 0
  | w + 1, n => if n % 2 = 1 then 0 else 1 + trailingZeros w (n / 2)

/-- The eight bytes in reverse order (R137). -/
def byteSwap (a : Word) : Word :=
  a.extractLsb' 0 8 ++ a.extractLsb' 8 8 ++ a.extractLsb' 16 8 ++ a.extractLsb' 24 8 ++ a.extractLsb' 32 8 ++
    a.extractLsb' 40 8 ++ a.extractLsb' 48 8 ++ a.extractLsb' 56 8

/-- 1 or 0. -/
def ofBool (b : Bool) : Word := if b then 1 else 0

/-- The sign-extended immediate of form B (R138). -/
def immB (i : BitVec 22) : Word := i.signExtend 64

/-! ## OP 0x10 (R134-R136) -/

/-- add (R134). -/
def execAdd (d a b : BitVec 5) (s : State) : Host.Outcome State Fault Refusal :=
  s.setReg d (fun x => x.rs a + x.rs b)

/-- sub (R134). -/
def execSub (d a b : BitVec 5) (s : State) : Host.Outcome State Fault Refusal :=
  s.setReg d (fun x => x.rs a - x.rs b)

/-- mul: the low 64 bits (R134). -/
def execMul (d a b : BitVec 5) (s : State) : Host.Outcome State Fault Refusal :=
  s.setReg d (fun x => x.rs a * x.rs b)

/-- mulh (R134). -/
def execMulh (d a b : BitVec 5) (s : State) : Host.Outcome State Fault Refusal :=
  s.setReg d (fun x => mulHigh (x.rs a) (x.rs b))

/-- mulhu (R134). -/
def execMulhu (d a b : BitVec 5) (s : State) : Host.Outcome State Fault Refusal :=
  s.setReg d (fun x => mulHighU (x.rs a) (x.rs b))

/-- div (R134, R135). -/
def execDiv (d a b : BitVec 5) (s : State) : Host.Outcome State Fault Refusal :=
  s.setReg d (fun x => divSigned (x.rs a) (x.rs b))

/-- divu (R134, R135). -/
def execDivu (d a b : BitVec 5) (s : State) : Host.Outcome State Fault Refusal :=
  s.setReg d (fun x => divUnsigned (x.rs a) (x.rs b))

/-- rem (R134, R135). -/
def execRem (d a b : BitVec 5) (s : State) : Host.Outcome State Fault Refusal :=
  s.setReg d (fun x => remSigned (x.rs a) (x.rs b))

/-- remu (R134, R135). -/
def execRemu (d a b : BitVec 5) (s : State) : Host.Outcome State Fault Refusal :=
  s.setReg d (fun x => remUnsigned (x.rs a) (x.rs b))

/-- and (R134). -/
def execAnd (d a b : BitVec 5) (s : State) : Host.Outcome State Fault Refusal :=
  s.setReg d (fun x => x.rs a &&& x.rs b)

/-- or (R134). -/
def execOr (d a b : BitVec 5) (s : State) : Host.Outcome State Fault Refusal :=
  s.setReg d (fun x => x.rs a ||| x.rs b)

/-- xor (R134). -/
def execXor (d a b : BitVec 5) (s : State) : Host.Outcome State Fault Refusal :=
  s.setReg d (fun x => x.rs a ^^^ x.rs b)

/-- andn (R134). -/
def execAndn (d a b : BitVec 5) (s : State) : Host.Outcome State Fault Refusal :=
  s.setReg d (fun x => x.rs a &&& ~~~(x.rs b))

/-- sll (R134). -/
def execSll (d a b : BitVec 5) (s : State) : Host.Outcome State Fault Refusal :=
  s.setReg d (fun x => x.rs a <<< shiftCount (x.rs b))

/-- srl (R134). -/
def execSrl (d a b : BitVec 5) (s : State) : Host.Outcome State Fault Refusal :=
  s.setReg d (fun x => x.rs a >>> shiftCount (x.rs b))

/-- sra (R134). -/
def execSra (d a b : BitVec 5) (s : State) : Host.Outcome State Fault Refusal :=
  s.setReg d (fun x => (x.rs a).sshiftRight (shiftCount (x.rs b)))

/-- rol (R134). -/
def execRol (d a b : BitVec 5) (s : State) : Host.Outcome State Fault Refusal :=
  s.setReg d (fun x => (x.rs a).rotateLeft (shiftCount (x.rs b)))

/-- ror (R134). -/
def execRor (d a b : BitVec 5) (s : State) : Host.Outcome State Fault Refusal :=
  s.setReg d (fun x => (x.rs a).rotateRight (shiftCount (x.rs b)))

/-- slt (R134). -/
def execSlt (d a b : BitVec 5) (s : State) : Host.Outcome State Fault Refusal :=
  s.setReg d (fun x => ofBool ((x.rs a).slt (x.rs b)))

/-- sltu (R134). -/
def execSltu (d a b : BitVec 5) (s : State) : Host.Outcome State Fault Refusal :=
  s.setReg d (fun x => ofBool ((x.rs a).ult (x.rs b)))

/-- min (R134). -/
def execMin (d a b : BitVec 5) (s : State) : Host.Outcome State Fault Refusal :=
  s.setReg d (fun x => if (x.rs a).slt (x.rs b) then x.rs a else x.rs b)

/-- max (R134). -/
def execMax (d a b : BitVec 5) (s : State) : Host.Outcome State Fault Refusal :=
  s.setReg d (fun x => if (x.rs a).slt (x.rs b) then x.rs b else x.rs a)

/-- minu (R134). -/
def execMinu (d a b : BitVec 5) (s : State) : Host.Outcome State Fault Refusal :=
  s.setReg d (fun x => if (x.rs a).ult (x.rs b) then x.rs a else x.rs b)

/-- maxu (R134). -/
def execMaxu (d a b : BitVec 5) (s : State) : Host.Outcome State Fault Refusal :=
  s.setReg d (fun x => if (x.rs a).ult (x.rs b) then x.rs b else x.rs a)

/-- fsl (R136). -/
def execFsl (d a b : BitVec 5) (s : State) : Host.Outcome State Fault Refusal :=
  s.setReg d (fun x => funnelLeft (x.rs a) (x.rs b) (shiftCount (x.rs d)))

/-- fsr (R136). -/
def execFsr (d a b : BitVec 5) (s : State) : Host.Outcome State Fault Refusal :=
  s.setReg d (fun x => funnelRight (x.rs a) (x.rs b) (shiftCount (x.rs d)))

/-- csel (R136). -/
def execCsel (d a b : BitVec 5) (s : State) : Host.Outcome State Fault Refusal :=
  s.setReg d (fun x => if x.rs d ≠ 0 then x.rs a else x.rs b)

/-! ## OP 0x11 (R137) -/

/-- clz (R137). -/
def execClz (d a : BitVec 5) (s : State) : Host.Outcome State Fault Refusal :=
  s.setReg d (fun x => BitVec.ofNat 64 (leadingZeros 64 (x.rs a).toNat))

/-- ctz (R137). -/
def execCtz (d a : BitVec 5) (s : State) : Host.Outcome State Fault Refusal :=
  s.setReg d (fun x => BitVec.ofNat 64 (trailingZeros 64 (x.rs a).toNat))

/-- popc (R137). -/
def execPopc (d a : BitVec 5) (s : State) : Host.Outcome State Fault Refusal :=
  s.setReg d (fun x => BitVec.ofNat 64 (ones 64 (x.rs a).toNat))

/-- sext.b (R137). -/
def execSextB (d a : BitVec 5) (s : State) : Host.Outcome State Fault Refusal :=
  s.setReg d (fun x => ((x.rs a).extractLsb' 0 8).signExtend 64)

/-- sext.h (R137). -/
def execSextH (d a : BitVec 5) (s : State) : Host.Outcome State Fault Refusal :=
  s.setReg d (fun x => ((x.rs a).extractLsb' 0 16).signExtend 64)

/-- sext.w (R137). -/
def execSextW (d a : BitVec 5) (s : State) : Host.Outcome State Fault Refusal :=
  s.setReg d (fun x => ((x.rs a).extractLsb' 0 32).signExtend 64)

/-- zext.b (R137). -/
def execZextB (d a : BitVec 5) (s : State) : Host.Outcome State Fault Refusal :=
  s.setReg d (fun x => ((x.rs a).extractLsb' 0 8).setWidth 64)

/-- zext.h (R137). -/
def execZextH (d a : BitVec 5) (s : State) : Host.Outcome State Fault Refusal :=
  s.setReg d (fun x => ((x.rs a).extractLsb' 0 16).setWidth 64)

/-- zext.w (R137). -/
def execZextW (d a : BitVec 5) (s : State) : Host.Outcome State Fault Refusal :=
  s.setReg d (fun x => ((x.rs a).extractLsb' 0 32).setWidth 64)

/-- bswap (R137). -/
def execBswap (d a : BitVec 5) (s : State) : Host.Outcome State Fault Refusal :=
  s.setReg d (fun x => byteSwap (x.rs a))

/-! ## OP 0x12 (R138) -/

/-- addi (R138). -/
def execAddi (d a : BitVec 5) (imm : BitVec 22) (s : State) : Host.Outcome State Fault Refusal :=
  s.setReg d (fun x => x.rs a + immB imm)

/-- andi (R138). -/
def execAndi (d a : BitVec 5) (imm : BitVec 22) (s : State) : Host.Outcome State Fault Refusal :=
  s.setReg d (fun x => x.rs a &&& immB imm)

/-- ori (R138). -/
def execOri (d a : BitVec 5) (imm : BitVec 22) (s : State) : Host.Outcome State Fault Refusal :=
  s.setReg d (fun x => x.rs a ||| immB imm)

/-- xori (R138). -/
def execXori (d a : BitVec 5) (imm : BitVec 22) (s : State) : Host.Outcome State Fault Refusal :=
  s.setReg d (fun x => x.rs a ^^^ immB imm)

/-- slli; the decoder admits counts 0-63 (R138). -/
def execSlli (d a : BitVec 5) (imm : BitVec 22) (s : State) : Host.Outcome State Fault Refusal :=
  s.setReg d (fun x => x.rs a <<< imm.toNat)

/-- srli (R138). -/
def execSrli (d a : BitVec 5) (imm : BitVec 22) (s : State) : Host.Outcome State Fault Refusal :=
  s.setReg d (fun x => x.rs a >>> imm.toNat)

/-- srai (R138). -/
def execSrai (d a : BitVec 5) (imm : BitVec 22) (s : State) : Host.Outcome State Fault Refusal :=
  s.setReg d (fun x => (x.rs a).sshiftRight imm.toNat)

/-- slti (R138). -/
def execSlti (d a : BitVec 5) (imm : BitVec 22) (s : State) : Host.Outcome State Fault Refusal :=
  s.setReg d (fun x => ofBool ((x.rs a).slt (immB imm)))

/-- sltiu (R138). -/
def execSltiu (d a : BitVec 5) (imm : BitVec 22) (s : State) : Host.Outcome State Fault Refusal :=
  s.setReg d (fun x => ofBool ((x.rs a).ult (immB imm)))

/-! ## OP 0x13 (R139) -/

/-- li (R139). -/
def execLi (d : BitVec 5) (imm : BitVec 32) (s : State) : Host.Outcome State Fault Refusal :=
  s.setReg d (fun _ => imm.signExtend 64)

/-- lih: reads sD (R139). -/
def execLih (d : BitVec 5) (imm : BitVec 32) (s : State) : Host.Outcome State Fault Refusal :=
  s.setReg d (fun x => imm ++ (x.rs d).extractLsb' 0 32)

end Sys2Proof.Machine
end

