-- ==== Sys2Proof/Machine/Vector.lean ====
section
/-! DEFINITION. Sys2Proof/Machine/Vector.lean: lane arithmetic, masks, moves, conversions, blocks and reductions (R185-R208). Each
instruction has its operation as an `ElemOp`, and its meaning when it stands alone in its element phase. -/

namespace Sys2Proof.Machine

/-! ## Operands of an element -/

/-- The rounding mode of an encoding (R45). -/
def vMode (s : State) (rm : BitVec 2) : RMode := if rm = 0 then rmodeOf s.fpart.rmNow else rmodeOf (rm.setWidth 3 - 1)

/-- Element j of a bank's group. -/
def State.elemOf (s : State) (b bits w j : Nat) : Nat := (s.fbank b).elem s.fseat bits w j

/-- tval of the first poisoned element among (bank, width, first pane, local index) (R208, R350). -/
def poisonIn (s : State) (xs : List (Nat × Nat × Nat × Nat)) : Option Word :=
  (xs.find? (fun x => (s.fbank x.1).elemPoison s.fseat x.2.1 x.2.2.1 x.2.2.2)).map
    (fun x => panePoisonTval s.fseat x.1 x.2.1 x.2.2.1 x.2.2.2)

/-- Stop at poison, else go on. -/
def unlessPoison (s : State) (xs : List (Nat × Nat × Nat × Nat)) (k : Elem) : Elem :=
  match poisonIn s xs with
  | some v => .stop (.poison v)
  | none => k

/-- Write element j of a bank's group with the flags of its result. -/
def State.putElem (s : State) (b bits w j : Nat) (r : Nat × BitVec 5) : State :=
  s.modBank s.focus.core b (fun x => (x.setElem s.fseat bits w j r.1).accrue r.2)

/-- imm5 in the width of an element, signed or unsigned (R110). -/
def immElem (o : VOps) (unsigned : Bool) (bits : Nat) : Nat :=
  (if unsigned then o.s.toNat else (o.s.signExtend 64).toNat) % 2 ^ bits

/-- The second source v of an element (R188). -/
def vSecond (s : State) (o : VOps) (unsigned : Bool) (b bits j : Nat) : Nat :=
  if o.sv = 0 then s.elemOf b bits o.wb.toNat j
  else if o.sv = 1 then ((s.fbank b).rs o.s).toNat % 2 ^ bits
  else immElem o unsigned bits

/-- The panes an element of a binary instruction reads. -/
def vSources (o : VOps) (readsD : Bool) (b bits j : Nat) : List (Nat × Nat × Nat × Nat) :=
  (b, bits, o.wa.toNat, j) :: ((if o.sv = 0 then [(b, bits, o.wb.toNat, j)] else []) ++
    (if readsD then [(b, bits, o.wd.toNat, j)] else []))

/-- A binary instruction on elements of one format: f of a, v and d. -/
def binaryOp (v : VInfo) (o : VOps) (unsigned : Bool) (f : Nat → Nat → Nat → Nat × BitVec 5) (s : State) : ElemOp :=
  let bits := fmtBits o.t
  vectorOp s v (fun _ b j s' =>
    unlessPoison s' (vSources o v.readsD b bits j)
      (.ok (s'.putElem b bits o.wd.toNat j
        (f (s'.elemOf b bits o.wa.toNat j) (vSecond s' o unsigned b bits j) (s'.elemOf b bits o.wd.toNat j))))) o.m o.n

/-- A unary instruction on elements of one format. -/
def unaryOp (v : VInfo) (o : VOps) (f : Nat → Nat × BitVec 5) (s : State) : ElemOp :=
  let bits := fmtBits o.t
  vectorOp s v (fun _ b j s' =>
    unlessPoison s' [(b, bits, o.wa.toNat, j)] (.ok (s'.putElem b bits o.wd.toNat j (f (s'.elemOf b bits o.wa.toNat j))))) o.m o.n

/-! ## Results (R190, R191) -/

/-- The integer an encoding of a format stands for. -/
def intOf (t : BitVec 4) (n : Nat) : Int := toIntW (isSigned t) (fmtBits t) n

/-- The range of an integer format (R40). -/
def intLo (t : BitVec 4) : Int := if isSigned t then -(2 ^ (fmtBits t - 1)) else 0
def intHi (t : BitVec 4) : Int := if isSigned t then 2 ^ (fmtBits t - 1) - 1 else 2 ^ fmtBits t - 1
def clampTo (t : BitVec 4) (z : Int) : Int := max (intLo t) (min (intHi t) z)

/-- A two-operand result: rounded once in a floating format, modular in an integer format. -/
def arith (t : BitVec 4) (mode : RMode) (sat : Bool) (fl : FV → FV → FV × BitVec 5) (int : Int → Int → Int) (a v : Nat) :
    Nat × BitVec 5 :=
  match floatOf t with
  | some f =>
    let r := fl (unpack f a) (unpack f v)
    let d := deliver f mode sat r.1
    (d.1, r.2 ||| d.2)
  | none => (ofIntW (fmtBits t) (int (intOf t a) (intOf t v)), 0)

/-- A fused result (R190, R199). -/
def fused (t : BitVec 4) (mode : RMode) (sat : Bool) (fl : FV → FV → FV → FV × BitVec 5) (a v d : Nat) : Nat × BitVec 5 :=
  match floatOf t with
  | some f =>
    let r := fl (unpack f a) (unpack f v) (unpack f d)
    let x := deliver f mode sat r.1
    (x.1, r.2 ||| x.2)
  | none => (d, 0)

/-- A one-operand floating result. -/
def fl1 (t : BitVec 4) (mode : RMode) (sat : Bool) (fl : FV → FV × BitVec 5) (a : Nat) : Nat × BitVec 5 :=
  match floatOf t with
  | some f =>
    let r := fl (unpack f a)
    let d := deliver f mode sat r.1
    (d.1, r.2 ||| d.2)
  | none => (a, 0)

/-- A result that is delivered without rounding: an infinite one saturates where the format saturates (R48). -/
def satPlain (t : BitVec 4) (sat : Bool) (r : Nat × BitVec 5) : Nat × BitVec 5 :=
  match floatOf t with
  | some f =>
    match unpack f r.1 with
    | .inf n => let d := deliver f .rne sat (.inf n); (d.1, r.2 ||| d.2)
    | _ => r
  | none => r

/-- Minimum or maximum of two encodings (R50). -/
def minMaxOf (t : BitVec 4) (isMax : Bool) (a v : Nat) : Nat × BitVec 5 :=
  match floatOf t with
  | some f => minMaxEnc f isMax a v
  | none => (if decide (intOf t a < intOf t v) == isMax then v else a, 0)

/-- |a| or -a (R190). -/
def signOf (t : BitVec 4) (neg : Bool → Bool) (int : Int → Int) (a : Nat) : Nat × BitVec 5 :=
  match floatOf t with
  | some f => signOp f neg a
  | none => (ofIntW (fmtBits t) (int (intOf t a)), 0)

/-- A result without flags. -/
def plain (n : Nat) : Nat × BitVec 5 := (n, 0)

/-- The high half of a product (R191). -/
def mulHighOf (t : BitVec 4) (a v : Nat) : Nat := ofIntW (fmtBits t) (intOf t a * intOf t v / 2 ^ fmtBits t)

/-- The funnel shifts of R191: c is v modulo the width. -/
def funnelUp (w a v d : Nat) : Nat := if v % w = 0 then a else (a * 2 ^ (v % w) ||| d / 2 ^ (w - v % w)) % 2 ^ w
def funnelDown (w a v d : Nat) : Nat := if v % w = 0 then d else d / 2 ^ (v % w) ||| a * 2 ^ (w - v % w) % 2 ^ w

/-- An arithmetic right shift (R191). -/
def shiftArith (w a c : Nat) : Nat := ofIntW w (toIntW true w a / 2 ^ c)


/-! ## OP 0x48 (R190) -/

/-- vadd (R190). -/
def vaddOp (o : VOps) (s : State) : ElemOp :=
  binaryOp ((vinfo (.vadd o)).getD (vBase o false)) o false (fun a v _ => arith o.t (vMode s o.rm) o.sat (fvAdd (vMode s o.rm)) (· + ·) a v) s

/-- vadd (R190). -/
def execVadd (o : VOps) (s : State) : Host.Outcome State Fault Refusal := elemAlone (vaddOp o) s

/-- vsub (R190). -/
def vsubOp (o : VOps) (s : State) : ElemOp :=
  binaryOp ((vinfo (.vsub o)).getD (vBase o false)) o false (fun a v _ => arith o.t (vMode s o.rm) o.sat (fun x y => fvAdd (vMode s o.rm) x y.flip) (· - ·) a v) s

/-- vsub (R190). -/
def execVsub (o : VOps) (s : State) : Host.Outcome State Fault Refusal := elemAlone (vsubOp o) s

/-- vmul (R190). -/
def vmulOp (o : VOps) (s : State) : ElemOp :=
  binaryOp ((vinfo (.vmul o)).getD (vBase o false)) o false (fun a v _ => arith o.t (vMode s o.rm) o.sat fvMul (· * ·) a v) s

/-- vmul (R190). -/
def execVmul (o : VOps) (s : State) : Host.Outcome State Fault Refusal := elemAlone (vmulOp o) s

/-- vfma: a * v + d (R190). -/
def vfmaOp (o : VOps) (s : State) : ElemOp :=
  binaryOp ((vinfo (.vfma o)).getD (vBase o false)) o false (fun a v d => fused o.t (vMode s o.rm) o.sat (fvFma (vMode s o.rm)) a v d) s

/-- vfma: a * v + d (R190). -/
def execVfma (o : VOps) (s : State) : Host.Outcome State Fault Refusal := elemAlone (vfmaOp o) s

/-- vfms: a * v - d (R190). -/
def vfmsOp (o : VOps) (s : State) : ElemOp :=
  binaryOp ((vinfo (.vfms o)).getD (vBase o false)) o false (fun a v d => fused o.t (vMode s o.rm) o.sat (fun x y z => fvFma (vMode s o.rm) x y z.flip) a v d) s

/-- vfms: a * v - d (R190). -/
def execVfms (o : VOps) (s : State) : Host.Outcome State Fault Refusal := elemAlone (vfmsOp o) s

/-- vfnma: d - a * v (R190). -/
def vfnmaOp (o : VOps) (s : State) : ElemOp :=
  binaryOp ((vinfo (.vfnma o)).getD (vBase o false)) o false (fun a v d => fused o.t (vMode s o.rm) o.sat (fun x y z => fvFma (vMode s o.rm) x.flip y z) a v d) s

/-- vfnma: d - a * v (R190). -/
def execVfnma (o : VOps) (s : State) : Host.Outcome State Fault Refusal := elemAlone (vfnmaOp o) s

/-- vmin (R190, R50). -/
def vminOp (o : VOps) (s : State) : ElemOp :=
  binaryOp ((vinfo (.vmin o)).getD (vBase o false)) o false (fun a v _ => satPlain o.t o.sat (minMaxOf o.t false a v)) s

/-- vmin (R190, R50). -/
def execVmin (o : VOps) (s : State) : Host.Outcome State Fault Refusal := elemAlone (vminOp o) s

/-- vmax (R190, R50). -/
def vmaxOp (o : VOps) (s : State) : ElemOp :=
  binaryOp ((vinfo (.vmax o)).getD (vBase o false)) o false (fun a v _ => satPlain o.t o.sat (minMaxOf o.t true a v)) s

/-- vmax (R190, R50). -/
def execVmax (o : VOps) (s : State) : Host.Outcome State Fault Refusal := elemAlone (vmaxOp o) s

/-- vabs (R190). -/
def vabsOp (o : VOps) (s : State) : ElemOp :=
  unaryOp ((vinfo (.vabs o)).getD (vBase o false)) o (fun a => satPlain o.t o.sat (signOf o.t (fun _ => false) (fun z => if z < 0 then -z else z) a)) s

/-- vabs (R190). -/
def execVabs (o : VOps) (s : State) : Host.Outcome State Fault Refusal := elemAlone (vabsOp o) s

/-- vneg (R190). -/
def vnegOp (o : VOps) (s : State) : ElemOp :=
  unaryOp ((vinfo (.vneg o)).getD (vBase o false)) o (fun a => satPlain o.t o.sat (signOf o.t (fun n => !n) (fun z => -z) a)) s

/-- vneg (R190). -/
def execVneg (o : VOps) (s : State) : Host.Outcome State Fault Refusal := elemAlone (vnegOp o) s

/-- vdiv (R59). -/
def vdivOp (o : VOps) (s : State) : ElemOp :=
  binaryOp ((vinfo (.vdiv o)).getD (vBase o false)) o false (fun a v _ => arith o.t (vMode s o.rm) o.sat fvDiv (fun x _ => x) a v) s

/-- vdiv (R59). -/
def execVdiv (o : VOps) (s : State) : Host.Outcome State Fault Refusal := elemAlone (vdivOp o) s

/-- vsqrt (R59). -/
def vsqrtOp (o : VOps) (s : State) : ElemOp :=
  unaryOp ((vinfo (.vsqrt o)).getD (vBase o false)) o (fl1 o.t (vMode s o.rm) o.sat fvSqrt) s

/-- vsqrt (R59). -/
def execVsqrt (o : VOps) (s : State) : Host.Outcome State Fault Refusal := elemAlone (vsqrtOp o) s

/-- vrcp (R59). -/
def vrcpOp (o : VOps) (s : State) : ElemOp :=
  unaryOp ((vinfo (.vrcp o)).getD (vBase o false)) o (fl1 o.t (vMode s o.rm) o.sat fvRcp) s

/-- vrcp (R59). -/
def execVrcp (o : VOps) (s : State) : Host.Outcome State Fault Refusal := elemAlone (vrcpOp o) s

/-- vrsq (R59). -/
def vrsqOp (o : VOps) (s : State) : ElemOp :=
  unaryOp ((vinfo (.vrsq o)).getD (vBase o false)) o (fl1 o.t (vMode s o.rm) o.sat fvRsq) s

/-- vrsq (R59). -/
def execVrsq (o : VOps) (s : State) : Host.Outcome State Fault Refusal := elemAlone (vrsqOp o) s

/-- vexp2 (R59). -/
def vexp2Op (o : VOps) (s : State) : ElemOp :=
  unaryOp ((vinfo (.vexp2 o)).getD (vBase o false)) o (fl1 o.t (vMode s o.rm) o.sat fvExp2) s

/-- vexp2 (R59). -/
def execVexp2 (o : VOps) (s : State) : Host.Outcome State Fault Refusal := elemAlone (vexp2Op o) s

/-- vlog2 (R59). -/
def vlog2Op (o : VOps) (s : State) : ElemOp :=
  unaryOp ((vinfo (.vlog2 o)).getD (vBase o false)) o (fl1 o.t (vMode s o.rm) o.sat fvLog2) s

/-- vlog2 (R59). -/
def execVlog2 (o : VOps) (s : State) : Host.Outcome State Fault Refusal := elemAlone (vlog2Op o) s

/-! ## OP 0x49 (R191) -/

/-- vmulh (R191). -/
def vmulhOp (o : VOps) (s : State) : ElemOp :=
  binaryOp ((vinfo (.vmulh o)).getD (vBase o false)) o false (fun a v _ => plain (mulHighOf o.t a v)) s

/-- vmulh (R191). -/
def execVmulh (o : VOps) (s : State) : Host.Outcome State Fault Refusal := elemAlone (vmulhOp o) s

/-- vadds: clamped (R191). -/
def vaddsOp (o : VOps) (s : State) : ElemOp :=
  binaryOp ((vinfo (.vadds o)).getD (vBase o false)) o false (fun a v _ => plain (ofIntW (fmtBits o.t) (clampTo o.t (intOf o.t a + intOf o.t v)))) s

/-- vadds: clamped (R191). -/
def execVadds (o : VOps) (s : State) : Host.Outcome State Fault Refusal := elemAlone (vaddsOp o) s

/-- vsubs: clamped (R191). -/
def vsubsOp (o : VOps) (s : State) : ElemOp :=
  binaryOp ((vinfo (.vsubs o)).getD (vBase o false)) o false (fun a v _ => plain (ofIntW (fmtBits o.t) (clampTo o.t (intOf o.t a - intOf o.t v)))) s

/-- vsubs: clamped (R191). -/
def execVsubs (o : VOps) (s : State) : Host.Outcome State Fault Refusal := elemAlone (vsubsOp o) s

/-- vand (R191). -/
def vandOp (o : VOps) (s : State) : ElemOp :=
  binaryOp ((vinfo (.vand o)).getD (vBase o false)) o false (fun a v _ => plain (a &&& v)) s

/-- vand (R191). -/
def execVand (o : VOps) (s : State) : Host.Outcome State Fault Refusal := elemAlone (vandOp o) s

/-- vor (R191). -/
def vorOp (o : VOps) (s : State) : ElemOp :=
  binaryOp ((vinfo (.vor o)).getD (vBase o false)) o false (fun a v _ => plain (a ||| v)) s

/-- vor (R191). -/
def execVor (o : VOps) (s : State) : Host.Outcome State Fault Refusal := elemAlone (vorOp o) s

/-- vxor (R191). -/
def vxorOp (o : VOps) (s : State) : ElemOp :=
  binaryOp ((vinfo (.vxor o)).getD (vBase o false)) o false (fun a v _ => plain (a ^^^ v)) s

/-- vxor (R191). -/
def execVxor (o : VOps) (s : State) : Host.Outcome State Fault Refusal := elemAlone (vxorOp o) s

/-- vnot (R191). -/
def vnotOp (o : VOps) (s : State) : ElemOp :=
  unaryOp ((vinfo (.vnot o)).getD (vBase o false)) o (fun a => plain (2 ^ fmtBits o.t - 1 - a)) s

/-- vnot (R191). -/
def execVnot (o : VOps) (s : State) : Host.Outcome State Fault Refusal := elemAlone (vnotOp o) s

/-- vandn: a and not v (R191). -/
def vandnOp (o : VOps) (s : State) : ElemOp :=
  binaryOp ((vinfo (.vandn o)).getD (vBase o false)) o false (fun a v _ => plain (a &&& (2 ^ fmtBits o.t - 1 - v))) s

/-- vandn: a and not v (R191). -/
def execVandn (o : VOps) (s : State) : Host.Outcome State Fault Refusal := elemAlone (vandnOp o) s

/-- vsll (R191). -/
def vsllOp (o : VOps) (s : State) : ElemOp :=
  binaryOp ((vinfo (.vsll o)).getD (vBase o false)) o true (fun a v _ => plain (a * 2 ^ (v % fmtBits o.t) % 2 ^ fmtBits o.t)) s

/-- vsll (R191). -/
def execVsll (o : VOps) (s : State) : Host.Outcome State Fault Refusal := elemAlone (vsllOp o) s

/-- vsrl (R191). -/
def vsrlOp (o : VOps) (s : State) : ElemOp :=
  binaryOp ((vinfo (.vsrl o)).getD (vBase o false)) o true (fun a v _ => plain (a / 2 ^ (v % fmtBits o.t))) s

/-- vsrl (R191). -/
def execVsrl (o : VOps) (s : State) : Host.Outcome State Fault Refusal := elemAlone (vsrlOp o) s

/-- vsra (R191). -/
def vsraOp (o : VOps) (s : State) : ElemOp :=
  binaryOp ((vinfo (.vsra o)).getD (vBase o false)) o true (fun a v _ => plain (shiftArith (fmtBits o.t) a (v % fmtBits o.t))) s

/-- vsra (R191). -/
def execVsra (o : VOps) (s : State) : Host.Outcome State Fault Refusal := elemAlone (vsraOp o) s

/-- vfsl (R191). -/
def vfslOp (o : VOps) (s : State) : ElemOp :=
  binaryOp ((vinfo (.vfsl o)).getD (vBase o false)) o true (fun a v d => plain (funnelUp (fmtBits o.t) a v d)) s

/-- vfsl (R191). -/
def execVfsl (o : VOps) (s : State) : Host.Outcome State Fault Refusal := elemAlone (vfslOp o) s

/-- vfsr (R191). -/
def vfsrOp (o : VOps) (s : State) : ElemOp :=
  binaryOp ((vinfo (.vfsr o)).getD (vBase o false)) o true (fun a v d => plain (funnelDown (fmtBits o.t) a v d)) s

/-- vfsr (R191). -/
def execVfsr (o : VOps) (s : State) : Host.Outcome State Fault Refusal := elemAlone (vfsrOp o) s

/-- vclz (R191). -/
def vclzOp (o : VOps) (s : State) : ElemOp :=
  unaryOp ((vinfo (.vclz o)).getD (vBase o false)) o (fun a => plain (leadingZeros (fmtBits o.t) a)) s

/-- vclz (R191). -/
def execVclz (o : VOps) (s : State) : Host.Outcome State Fault Refusal := elemAlone (vclzOp o) s

/-- vpopc (R191). -/
def vpopcOp (o : VOps) (s : State) : ElemOp :=
  unaryOp ((vinfo (.vpopc o)).getD (vBase o false)) o (fun a => plain (ones (fmtBits o.t) a)) s

/-- vpopc (R191). -/
def execVpopc (o : VOps) (s : State) : Host.Outcome State Fault Refusal := elemAlone (vpopcOp o) s

/-! ## Compare and mask logic (R192, R193) -/

/-- Set a mask bit. -/
def maskSet (m : BitVec 4096) (j : Nat) (v : Bool) : BitVec 4096 := if v then m ||| (1 <<< j) else m &&& ~~~((1 : BitVec 4096) <<< j)

/-- Write mask bit j of a bank. -/
def State.putMask (s : State) (b md j : Nat) (v : Bool) (f : BitVec 5) : State :=
  s.modBank s.focus.core b (fun x => (x.wm md (maskSet (x.rm md) j v)).accrue f)

/-- The comparisons of R192. -/
inductive Cmp where
  | eq | ne | lt | le | gt | ge
deriving DecidableEq, Repr

def Cmp.ints (c : Cmp) (a v : Int) : Bool :=
  match c with
  | .eq => a == v
  | .ne => a != v
  | .lt => decide (a < v)
  | .le => decide (a ≤ v)
  | .gt => decide (v < a)
  | .ge => decide (v ≤ a)

def Cmp.floats (c : Cmp) (a v : FV) : Bool × BitVec 5 :=
  let nan := a.isNan || v.isNan
  let sig := flagIf (a.isSig || v.isSig) fNV
  match c with
  | .eq => (fvEq a v, sig)
  | .ne => (nan || !fvEq a v, sig)
  | .lt => (!nan && fvLt a v, flagIf nan fNV)
  | .le => (!nan && !fvLt v a, flagIf nan fNV)
  | .gt => (!nan && fvLt v a, flagIf nan fNV)
  | .ge => (!nan && !fvLt a v, flagIf nan fNV)

def Cmp.of (c : Cmp) (t : BitVec 4) (a v : Nat) : Bool × BitVec 5 :=
  match floatOf t with
  | some f => c.floats (unpack f a) (unpack f v)
  | none => (c.ints (intOf t a) (intOf t v), 0)

/-- A compare: bit j of md for every processed element (R192). -/
def compareOp (v : VInfo) (o : VOps) (c : Cmp) (s : State) : ElemOp :=
  let bits := fmtBits o.t
  vectorOp s v (fun _ b j s' =>
    unlessPoison s' (vSources o false b bits j)
      (let r := c.of o.t (s'.elemOf b bits o.wa.toNat j) (vSecond s' o false b bits j)
       .ok (s'.putMask b o.wd.toNat j r.1 r.2))) o.m o.n

/-- A mask bit of the instruction's element j. -/
def State.maskBitOf (s : State) (b m l j : Nat) : Bool := maskBit ((s.fbank b).rm m) l j

/-- Mask logic: bit j of md (R193). -/
def logicOp (v : VInfo) (o : VOps) (f : Bool → Bool → Bool) (s : State) : ElemOp :=
  vectorOp s v (fun _ b j s' =>
    let l := v.l s'.fseat
    .ok (s'.putMask b o.wd.toNat j (f (s'.maskBitOf b o.wa.toNat l j) (s'.maskBitOf b o.wb.toNat l j)) 0)) o.m o.n


/-- vcmp.eq (R192). -/
def vcmpEqOp (o : VOps) (s : State) : ElemOp :=
  compareOp (vCompare o) o .eq s

/-- vcmp.eq (R192). -/
def execVcmpEq (o : VOps) (s : State) : Host.Outcome State Fault Refusal := elemAlone (vcmpEqOp o) s

/-- vcmp.ne (R192). -/
def vcmpNeOp (o : VOps) (s : State) : ElemOp :=
  compareOp (vCompare o) o .ne s

/-- vcmp.ne (R192). -/
def execVcmpNe (o : VOps) (s : State) : Host.Outcome State Fault Refusal := elemAlone (vcmpNeOp o) s

/-- vcmp.lt (R192). -/
def vcmpLtOp (o : VOps) (s : State) : ElemOp :=
  compareOp (vCompare o) o .lt s

/-- vcmp.lt (R192). -/
def execVcmpLt (o : VOps) (s : State) : Host.Outcome State Fault Refusal := elemAlone (vcmpLtOp o) s

/-- vcmp.le (R192). -/
def vcmpLeOp (o : VOps) (s : State) : ElemOp :=
  compareOp (vCompare o) o .le s

/-- vcmp.le (R192). -/
def execVcmpLe (o : VOps) (s : State) : Host.Outcome State Fault Refusal := elemAlone (vcmpLeOp o) s

/-- vcmp.gt (R192). -/
def vcmpGtOp (o : VOps) (s : State) : ElemOp :=
  compareOp (vCompare o) o .gt s

/-- vcmp.gt (R192). -/
def execVcmpGt (o : VOps) (s : State) : Host.Outcome State Fault Refusal := elemAlone (vcmpGtOp o) s

/-- vcmp.ge (R192). -/
def vcmpGeOp (o : VOps) (s : State) : ElemOp :=
  compareOp (vCompare o) o .ge s

/-- vcmp.ge (R192). -/
def execVcmpGe (o : VOps) (s : State) : Host.Outcome State Fault Refusal := elemAlone (vcmpGeOp o) s

/-- mand (R193). -/
def mandOp (o : VOps) (s : State) : ElemOp :=
  logicOp (vLogic o true) o (fun a b => a && b) s

/-- mand (R193). -/
def execMand (o : VOps) (s : State) : Host.Outcome State Fault Refusal := elemAlone (mandOp o) s

/-- mor (R193). -/
def morOp (o : VOps) (s : State) : ElemOp :=
  logicOp (vLogic o true) o (fun a b => a || b) s

/-- mor (R193). -/
def execMor (o : VOps) (s : State) : Host.Outcome State Fault Refusal := elemAlone (morOp o) s

/-- mxor (R193). -/
def mxorOp (o : VOps) (s : State) : ElemOp :=
  logicOp (vLogic o true) o (fun a b => a != b) s

/-- mxor (R193). -/
def execMxor (o : VOps) (s : State) : Host.Outcome State Fault Refusal := elemAlone (mxorOp o) s

/-- mnot (R193). -/
def mnotOp (o : VOps) (s : State) : ElemOp :=
  logicOp (vLogic o false) o (fun a _ => !a) s

/-- mnot (R193). -/
def execMnot (o : VOps) (s : State) : Host.Outcome State Fault Refusal := elemAlone (mnotOp o) s

/-! ## Instructions that never stop part-way (R207) -/

/-- An instruction that acts on all its elements at once. -/
def wholeOp (s : State) (v : VInfo) (o : VOps) (act : State → Elem) : ElemOp :=
  let l := v.l s.fseat
  { elementOp s v (fun _ _ _ s' => .ok s') 0 false with
    whole := true
    act := fun s' =>
      if s.evlOf l ≤ s.fpart.xidx then .ok s'
      else s'.selfCheck (fun k e => decide (s.fpart.xidx ≤ e) && decide (e < s.evlOf l) && (s'.elemAt l o.m o.n e).map (·.1) == some k) act }

/-- A scalar result in every bank of the part, at the convoy's end (R101). -/
def State.lateAll (s : State) (r : BitVec 5) (v : Word) : List Nat → State
  | [] => s
  | b :: bs => State.lateAll (s.addLate b r v) r v bs

/-- The processed elements from a to b - 1: index, bank, local index. -/
def State.processed (s : State) (l : Nat) (m : BitVec 3) (n : Bool) (a b : Nat) : List (Nat × Nat × Nat) :=
  (upFrom a (b - a)).filterMap (fun i => (s.elemAt l m n i).map (fun q => (i, q.1, q.2)))

/-- The processed elements of an instruction. -/
def State.processedOf (s : State) (v : VInfo) (o : VOps) : List (Nat × Nat × Nat) :=
  s.processed (v.l s.fseat) o.m o.n s.fpart.xidx (s.evlOf (v.l s.fseat))


/-- mpopc (R193). -/
def mpopcOp (o : VOps) (s : State) : ElemOp :=
  let v := vCount o
  wholeOp s v o (fun s' =>
    let n := ((s'.processedOf v o).filter (fun q => s'.maskBitOf q.2.1 o.wa.toNat (v.l s'.fseat) q.2.2)).length
    .ok (s'.lateAll o.s (BitVec.ofNat 64 n) s'.active))

/-- mpopc (R193). -/
def execMpopc (o : VOps) (s : State) : Host.Outcome State Fault Refusal := elemAlone (mpopcOp o) s

/-- mfirst (R193). -/
def mfirstOp (o : VOps) (s : State) : ElemOp :=
  let v := vCount o
  wholeOp s v o (fun s' =>
    let r := (s'.processedOf v o).find? (fun q => s'.maskBitOf q.2.1 o.wa.toNat (v.l s'.fseat) q.2.2)
    .ok (s'.lateAll o.s ((r.map (fun q => BitVec.ofNat 64 q.1)).getD (BitVec.allOnes 64)) s'.active))

/-- mfirst (R193). -/
def execMfirst (o : VOps) (s : State) : Host.Outcome State Fault Refusal := elemAlone (mfirstOp o) s

/-! ## Select, move, slide, compress, index (R194-R197) -/

/-- vsel: the mask chooses (R194). -/
def vselOp (o : VOps) (s : State) : ElemOp :=
  let v := vinfo (.vsel o) |>.getD (vBase o false)
  let bits := fmtBits o.t
  vectorOp s v (fun _ b j s' =>
    if maskAt (s'.fbank b) o.m o.n (v.l s'.fseat) j then
      unlessPoison s' [(b, bits, o.wa.toNat, j)] (.ok (s'.putElem b bits o.wd.toNat j (plain (s'.elemOf b bits o.wa.toNat j))))
    else
      unlessPoison s' (if o.sv = 0 then [(b, bits, o.wb.toNat, j)] else [])
        (.ok (s'.putElem b bits o.wd.toNat j (plain (vSecond s' o false b bits j))))) 0 false

/-- vsel: the mask chooses (R194). -/
def execVsel (o : VOps) (s : State) : Host.Outcome State Fault Refusal := elemAlone (vselOp o) s

/-- vmov (R194). -/
def vmovOp (o : VOps) (s : State) : ElemOp :=
  unaryOp ((vinfo (.vmov o)).getD (vBase o false)) o plain s

/-- vmov (R194). -/
def execVmov (o : VOps) (s : State) : Host.Outcome State Fault Refusal := elemAlone (vmovOp o) s

/-- vbcast (R194). -/
def vbcastOp (o : VOps) (s : State) : ElemOp :=
  let bits := fmtBits o.t
  vectorOp s ((vinfo (.vbcast o)).getD (vBase o false)) (fun _ b j s' =>
    .ok (s'.putElem b bits o.wd.toNat j (plain (vSecond s' o false b bits j)))) o.m o.n

/-- vbcast (R194). -/
def execVbcast (o : VOps) (s : State) : Host.Outcome State Fault Refusal := elemAlone (vbcastOp o) s

/-- The offset of a slide: s(S) of the sequencer bank or imm5, unsigned (R195). -/
def slideBy (s : State) (o : VOps) : Nat := if o.sv = 1 then (s.seqReg o.s).toNat else o.s.toNat

/-- The elements that a slide reads, as a range. -/
def slideRange (up : Bool) (k a b : Nat) : Nat × Nat := if up then (max a k - k, b - k) else (a + k, max b (a + k))

/-- A slide (R195): `up` reads element i - k, else i + k. The banks of the elements it reads check their panes too (DESIGN CHOICE, log 81). -/
def slideOp (o : VOps) (up : Bool) (s : State) : ElemOp :=
  let v := vUnary o true
  let l := v.l s.fseat
  let k := slideBy s o
  let evl := s.evlOf l
  let bits := fmtBits o.t
  let rng := slideRange up k s.fpart.xidx evl
  let put (b j : Nat) (r : Nat) (s' : State) : Elem := .ok (s'.putElem b bits o.wd.toNat j (plain r))
  let from_ (i b j : Nat) (s' : State) : Elem :=
    let q := s'.fseat.base + i / l
    if s'.active.contains q then
      unlessPoison s' [(q, bits, o.wa.toNat, i % l)] (put b j (s'.elemOf q bits o.wa.toNat (i % l)) s')
    else .ok s'
  { vectorOp s v (fun i b j s' =>
      if up then (if i < k then .ok s' else from_ (i - k) b j s')
      else if evl ≤ i + k then put b j 0 s'
      else from_ (i + k) b j s') o.m o.n with
    uses := usesIn s l s.fpart.xidx evl v.reads v.writes ++
      (if s.fpart.xidx < evl then usesIn s l rng.1 (min rng.2 evl) v.reads [] else []) }


/-- vslide.up (R195). -/
def vslideUpOp (o : VOps) (s : State) : ElemOp :=
  slideOp o true s

/-- vslide.up (R195). -/
def execVslideUp (o : VOps) (s : State) : Host.Outcome State Fault Refusal := elemAlone (vslideUpOp o) s

/-- vslide.dn (R195). -/
def vslideDnOp (o : VOps) (s : State) : ElemOp :=
  slideOp o false s

/-- vslide.dn (R195). -/
def execVslideDn (o : VOps) (s : State) : Host.Outcome State Fault Refusal := elemAlone (vslideDnOp o) s

/-- The number of elements below i that the mask selects (R196). -/
def selectedBelow (s : State) (l : Nat) (m : BitVec 3) (n : Bool) (i : Nat) : Nat :=
  ((upFrom 0 i).filter (fun e => maskAt (s.fbank (s.fseat.base + e / l)) m n l (e % l))).length


/-- Element i has been selected in this execution. -/
def State.pick (s : State) (i : Nat) : State := s.modPart s.focus (fun p => { p with picked := p.picked ++ [i] })

/-- No element has been selected yet. -/
def State.unpick (s : State) : State := s.modPart s.focus (fun p => { p with picked := [] })

/-- An element instruction that selects elements as it goes: at its first element it has selected none. -/
def ElemOp.picking (x : ElemOp) : ElemOp := { x with step := fun i s => x.step i (if i = x.start then s.unpick else s) }

/-- vcompress (R196): at DEPTH 0 only; element c of wd is the c-th selected element of wa, where c counts those below xidx as it begins and then
each one as it comes. The banks of the packed elements check their panes too (DESIGN CHOICE, log 81). -/
def vcompressOp (o : VOps) (s : State) : ElemOp :=
  let v := vUnary o true
  let l := v.l s.fseat
  let bits := fmtBits o.t
  let evl := s.evlOf l
  let c0 := selectedBelow s l o.m o.n s.fpart.xidx
  { (vectorOp s v (fun i b j s' =>
      unlessPoison s' [(b, bits, o.wa.toNat, j)]
        (let c := c0 + s'.fpart.picked.length
         .ok ((s'.putElem (s'.fseat.base + c / l) bits o.wd.toNat (c % l) (plain (s'.elemOf b bits o.wa.toNat j))).pick i))) o.m o.n).picking with
    check := if s.fpart.depth = 0 then none else some (0x01, BitVec.ofNat 64 s.fpart.depth)
    uses := usesIn s l s.fpart.xidx evl v.reads v.writes ++
      (if s.fpart.xidx < evl then usesIn s l c0 (selectedBelow s l o.m o.n evl) [] v.writes else []) }

/-- vcompress (R196): at DEPTH 0 only; element c of wd is the c-th selected element of wa. -/
def execVcompress (o : VOps) (s : State) : Host.Outcome State Fault Refusal := elemAlone (vcompressOp o) s

/-- vidx: start + i * step (R197). -/
def vidxOp (o : VxOps) (s : State) : ElemOp :=
  let v := (vinfo (.vidx o)).getD ⟨o.t, 1, false, true, true, none, [], false, none, none, [], true, false⟩
  let bits := fmtBits o.t
  vectorOp s v (fun i b j s' =>
    .ok (s'.putElem b bits o.wd.toNat j (plain (ofIntW bits (o.start.toInt + i * o.step.toInt))))) o.m false

/-- vidx: start + i * step (R197). -/
def execVidx (o : VxOps) (s : State) : Host.Outcome State Fault Refusal := elemAlone (vidxOp o) s

/-! ## Conversion, widening, blocks (R198-R203) -/

/-- A conversion of one element (R198). -/
def convert (ts t : BitVec 4) (mode : RMode) (sat : Bool) (a : Nat) : Nat × BitVec 5 :=
  match floatOf ts, floatOf t with
  | some f, some g =>
    let d := deliver g mode sat (unpack f a)
    (d.1, flagIf (unpack f a).isSig fNV ||| d.2)
  | some f, none =>
    let r := toIntIn mode (intLo t) (intHi t) (unpack f a)
    (ofIntW (fmtBits t) r.1, r.2)
  | none, some g => deliver g mode sat (fvOfInt false (intOf ts a) 0)
  | none, none => (ofIntW (fmtBits t) (if sat then clampTo t (intOf ts a) else intOf ts a), 0)

/-- The scale byte of local element j of a q4 group of n panes: companion pane and byte (R201). -/
def scaleByte (s : State) (b w n j : Nat) : Nat := s.elemOf b 8 (w + n) (j / 32)

/-- The widening product sum of one element (R199). -/
def wfma (ts t : BitVec 4) (mode : RMode) (a v d : Nat) : Nat × BitVec 5 :=
  match floatOf ts, floatOf t with
  | some f, some g =>
    let r := fvFma mode (unpack f a) (unpack f v) (unpack g d)
    let x := deliver g mode false r.1
    (x.1, r.2 ||| x.2)
  | _, _ => (ofIntW (fmtBits t) (intOf ts a * intOf ts v + intOf t d), 0)

/-- The products of one vdot element, given the two lists of source codes or encodings (R200). -/
def dotOf (ts : BitVec 4) (mode : RMode) (as bs : List Nat) (sa sb : Nat) (d : Nat) : Nat × BitVec 5 :=
  if ts = 7 then
    if scaleE sa = 63 || scaleE sb = 63 then dotAdd f32Fmt mode (unpack f32Fmt d) (.nan false) 0
    else
      let c := (as.zip bs).foldl (fun c p => dotStep c (codeVal (scaleType sa) p.1) (codeVal (scaleType sb) p.2)) DotAcc.zero
      let r := dotValue c ((scaleE sa : Int) + scaleE sb - 64)
      dotAdd f32Fmt mode (unpack f32Fmt d) r.1 r.2
  else
    match floatOf ts with
    | some f =>
      let c := (as.zip bs).foldl (fun c p => dotStep c (unpack f p.1) (unpack f p.2)) DotAcc.zero
      let r := dotValue c 0
      dotAdd f32Fmt mode (unpack f32Fmt d) r.1 r.2
    | none => (ofIntW 32 ((as.zip bs).foldl (fun z p => z + intOf ts p.1 * intOf ts p.2) (d : Int)), 0)


/-- vcvt (R198). -/
def vcvtOp (o : VOps) (s : State) : ElemOp :=
  vectorOp s ((vinfo (.vcvt o)).getD (vBase o false)) (fun _ b j s' =>
    unlessPoison s' [(b, fmtBits (tsOf o), o.wa.toNat, j)]
      (.ok (s'.putElem b (fmtBits o.t) o.wd.toNat j
        (convert (tsOf o) o.t (vMode s o.rm) o.sat (s'.elemOf b (fmtBits (tsOf o)) o.wa.toNat j))))) o.m o.n

/-- vcvt (R198). -/
def execVcvt (o : VOps) (s : State) : Host.Outcome State Fault Refusal := elemAlone (vcvtOp o) s

/-- vwfma (R199). -/
def vwfmaOp (o : VOps) (s : State) : ElemOp :=
  let sb := fmtBits (tsOf o)
  let db := fmtBits o.t
  vectorOp s ((vinfo (.vwfma o)).getD (vBase o false)) (fun _ b j s' =>
    unlessPoison s' [(b, sb, o.wa.toNat, j), (b, sb, o.wb.toNat, j), (b, db, o.wd.toNat, j)]
      (.ok (s'.putElem b db o.wd.toNat j
        (wfma (tsOf o) o.t (vMode s o.rm) (s'.elemOf b sb o.wa.toNat j) (s'.elemOf b sb o.wb.toNat j) (s'.elemOf b db o.wd.toNat j)))))
    o.m o.n

/-- vwfma (R199). -/
def execVwfma (o : VOps) (s : State) : Host.Outcome State Fault Refusal := elemAlone (vwfmaOp o) s

/-- vdot (R200): R products of one destination element. -/
def vdotOp (o : VOps) (s : State) : ElemOp :=
  let sb := fmtBits (tsOf o)
  let r := 32 / sb
  let g := groupSize o.g
  let at_ (b w j : Nat) (s' : State) : List Nat := (upFrom (r * j) r).map (s'.elemOf b sb w)
  vectorOp s ((vinfo (.vdot o)).getD (vBase o false)) (fun _ b j s' =>
    unlessPoison s' ([(b, sb, o.wa.toNat, r * j), (b, sb, o.wb.toNat, r * j), (b, 32, o.wd.toNat, j)] ++
        (if tsOf o = 7 then [(b, 8, o.wa.toNat + g, r * j / 32), (b, 8, o.wb.toNat + g, r * j / 32)] else []))
      (.ok (s'.putElem b 32 o.wd.toNat j
        (dotOf (tsOf o) (vMode s o.rm) (at_ b o.wa.toNat j s') (at_ b o.wb.toNat j s') (scaleByte s' b o.wa.toNat g (r * j))
          (scaleByte s' b o.wb.toNat g (r * j)) (s'.elemOf b 32 o.wd.toNat j))))) o.m o.n

/-- vdot (R200): R products of one destination element. -/
def execVdot (o : VOps) (s : State) : Host.Outcome State Fault Refusal := elemAlone (vdotOp o) s

/-- The magnitudes of a code table, in eighths, for one sign; INT4 has one more below zero (R53). -/
def codeTable (typ : Nat) (neg : Bool) : List Nat :=
  if typ = 0 then (List.range (if neg then 9 else 8)).map (8 * ·) else (List.range 8).map (codeMag typ)

/-- The code of table entry i with a sign (R53). -/
def codeAt (typ i : Nat) (neg : Bool) : Nat := if typ = 0 then (if neg then (16 - i) % 16 else i) else i + (if neg then 8 else 0)

/-- Entry i of the table is the largest not above m * 2^e: whether to take the next entry instead. -/
def roundUp (mode : RMode) (neg : Bool) (lo hi i m : Nat) (e : Int) : Bool :=
  match mode with
  | .rne | .rmm => ltPow (lo + hi) (-3) m (e + 1) || (!ltPow m (e + 1) (lo + hi) (-3) && i % 2 == 1)
  | .rtz => false
  | .rup => !neg
  | .rdn => neg

/-- Round |x| / scale = m * 2^e into a code table (R202): the code and the flags. -/
def codeRound (typ : Nat) (mode : RMode) (neg : Bool) (m : Nat) (e : Int) : Nat × BitVec 5 :=
  let t := codeTable typ neg
  let i := (t.filter (fun k => !ltPow m e k (-3))).length - 1
  let lo := t.getD i 0
  if !ltPow lo (-3) m e then (codeAt typ i neg, 0)
  else
    match t[i + 1]? with
    | none => (codeAt typ i neg, fOF ||| fNX)
    | some hi => (codeAt typ (if roundUp mode neg lo hi i m e then i + 1 else i) neg, fNX)

/-- The largest entry of a code table (R202). -/
def codeMax (typ : Nat) : Nat := [7, 6, 8, 12].getD typ 7

/-- The smallest E of 0-62 whose scale holds a magnitude (R202). -/
def scaleFor (typ : Nat) (xs : List FV) : Nat :=
  ((List.range 63).find? (fun (e : Nat) => xs.all (fun x =>
    match x with
    | .num _ m k => !ltPow (codeMax typ) (Int.ofNat e - 32) m k
    | .inf _ => false
    | .nan _ => true))).getD 62

/-- The code of one value under a scale (R202). -/
def encodeCode (typ e : Nat) (mode : RMode) : FV → Nat × BitVec 5
  | .num n m k => if m = 0 then (if n && typ != 0 then 8 else 0, 0) else codeRound typ mode n m (k - ((e : Int) - 32))
  | .inf n => (codeAt typ ((codeTable typ n).length - 1) n, fOF ||| fNX)
  | .nan _ => (0, 0)

/-- One block of vqenc (R202): the present elements with their values; the codes, E and the flags. -/
def encodeBlock (typ : Nat) (mode : RMode) (xs : List (Nat × FV)) : List (Nat × Nat) × Nat × BitVec 5 :=
  if xs.any (fun x => x.2.isNan) then (xs.map (fun x => (x.1, 0)), 63, flagIf (xs.any (fun x => x.2.isSig)) fNV)
  else
    let e := scaleFor typ (xs.map (·.2))
    let cs := xs.map (fun x => (x.1, encodeCode typ e mode x.2))
    (cs.map (fun c => (c.1, c.2.1)), e, (cs.map (fun c => c.2.2)).foldl (· ||| ·) 0)


/-- Encode one block from its present elements (R202), local indices in bank b. -/
def vqencBlock (o : VOps) (s0 : State) (i b l : Nat) (js : List Nat) (s : State) : Elem :=
  let sb := fmtBits (tsOf o)
  let g := groupSize o.g
  let f := (floatOf (tsOf o)).getD f32Fmt
  s.selfCheck (fun k e => k == b && e / l == i / l && js.contains (e % l)) (fun s' =>
    unlessPoison s' (js.map (fun j => (b, sb, o.wa.toNat, j)) ++ [(b, 8, o.wd.toNat + g, i % l / 32)])
      (let typ := scaleType (scaleByte s' b o.wd.toNat g (i % l))
       let r := encodeBlock typ (vMode s0 o.rm) (js.map (fun j => (j, unpack f (s'.elemOf b sb o.wa.toNat j))))
       let s1 := r.1.foldl (fun x c => x.putElem b 4 o.wd.toNat c.1 (plain c.2)) s'
       .ok (s1.putElem b 8 (o.wd.toNat + g) (i % l / 32) (typ * 64 + r.2.1, r.2.2))))

/-- vqenc (R202): from the block of xidx on; each element's mask bit is read as it comes (R101), and the block is encoded at its last element. A
stop in a block belongs to the block's start (R208). -/
def vqencOp (o : VOps) (s : State) : ElemOp :=
  let v := (vinfo (.vqenc o)).getD (vBase o false)
  let l := v.l s.fseat
  let evl := s.evlOf l
  let start := if s.fpart.xidx < evl then s.fpart.xidx / 32 * 32 else s.fpart.xidx
  ({ elementOp s v (fun _ _ _ s' => .ok s') 0 false with
    start := start
    uses := usesIn s l start evl v.reads v.writes
    grain := 32
    back := fun e => e / 32 * 32
    step := fun i s' =>
      let b := s'.fseat.base + i / l
      let s1 := if s'.active.contains b && maskAt (s'.fbank b) o.m o.n l (i % l) then s'.pick i else s'
      if i % 32 != 31 && i + 1 != evl then .ok s1
      else if !s1.active.contains b then .ok s1.unpick
      else
        match vqencBlock o s i b l (s1.fpart.picked.map (· % l)) s1 with
        | .ok s2 => .ok s2.unpick
        | .stop x => .stop x } : ElemOp).picking

/-- vqenc (R202). -/
def execVqenc (o : VOps) (s : State) : Host.Outcome State Fault Refusal := elemAlone (vqencOp o) s

/-- vqdec (R203). -/
def vqdecOp (o : VOps) (s : State) : ElemOp :=
  let g := (((vinfo (.vqdec o)).bind (fun v => v.srcs.head?)).bind (·.size)).getD 1
  let f := (floatOf o.t).getD f32Fmt
  vectorOp s ((vinfo (.vqdec o)).getD (vBase o false)) (fun _ b j s' =>
    unlessPoison s' ((b, 4, o.wa.toNat, j) :: (if tsOf o = 7 then [(b, 8, o.wa.toNat + g, j / 32)] else []))
      (let c := s'.elemOf b 4 o.wa.toNat j
       .ok (s'.putElem b (fmtBits o.t) o.wd.toNat j
        (deliver f (vMode s o.rm) false
          (if tsOf o = 7 then q4Val (scaleByte s' b o.wa.toNat g j) c else fvOfInt false (toIntW true 4 c) 0))))) o.m o.n

/-- vqdec (R203). -/
def execVqdec (o : VOps) (s : State) : Host.Outcome State Fault Refusal := elemAlone (vqdecOp o) s

/-! ## Reductions, group maximum, scan (R204-R206) -/

/-- The elements of wa by index, absent where not processed; or tval of the first poisoned one. -/
def gather (s : State) (v : VInfo) (o : VOps) : Except Word (List (Option Nat)) :=
  let l := v.l s.fseat
  let bits := fmtBits o.t
  match poisonIn s ((s.processedOf v o).map (fun q => (q.2.1, bits, o.wa.toNat, q.2.2))) with
  | some w => .error w
  | none =>
    .ok ((upFrom 0 (s.evlOf l)).map (fun i =>
      if i < s.fpart.xidx then none else (s.elemAt l o.m o.n i).map (fun q => s.elemOf q.1 bits o.wa.toNat q.2)))

/-- A reduction into sS of every bank of the part; its flags go to the sequencer bank (R204). -/
def reduceOp (o : VOps) (f : List (Option Nat) → Nat × BitVec 5) (s : State) : ElemOp :=
  let v := vReduce o true
  wholeOp s v o (fun s' =>
    match gather s' v o with
    | .error w => .stop (.poison w)
    | .ok xs =>
      let r := f xs
      let w : Word := if isFL o.t then BitVec.ofNat 64 r.1 else BitVec.ofInt 64 (intOf o.t r.1)
      .ok ((s'.modBank s'.focus.core s'.seqBank (fun x => x.accrue r.2)).lateAll o.s w s'.active))

/-- The sum of R204: the tree of R60, or modular. SAT acts on e5m2 results here too, as R48 says of every e5m2 result (DEDUCED, log 80). -/
def sumOf (t : BitVec 4) (mode : RMode) (sat : Bool) (xs : List (Option Nat)) : Nat × BitVec 5 :=
  match floatOf t with
  | some f => satPlain t sat (floatSum f mode sat xs)
  | none => (ofIntW (fmtBits t) ((xs.filterMap id).foldl (fun z x => z + intOf t x) 0), 0)

/-- The identity of a maximum or minimum (R204). -/
def extremeId (t : BitVec 4) (isMax : Bool) : Nat :=
  match floatOf t with
  | some f => nanEnc f
  | none => ofIntW (fmtBits t) (if isMax then intLo t else intHi t)

/-- Maximum or minimum of a list (R50, R204); SAT acts on an infinite e5m2 result (log 80). -/
def extremeOf (t : BitVec 4) (isMax sat : Bool) (xs : List Nat) : Nat × BitVec 5 :=
  satPlain t sat (xs.foldl (fun r x => let m := minMaxOf t isMax r.1 x; (m.1, r.2 ||| m.2)) (extremeId t isMax, 0))


/-- vred.sum (R204). -/
def vredSumOp (o : VOps) (s : State) : ElemOp :=
  reduceOp o (sumOf o.t (vMode s o.rm) o.sat) s

/-- vred.sum (R204). -/
def execVredSum (o : VOps) (s : State) : Host.Outcome State Fault Refusal := elemAlone (vredSumOp o) s

/-- vred.max (R204). -/
def vredMaxOp (o : VOps) (s : State) : ElemOp :=
  reduceOp o (fun xs => extremeOf o.t true o.sat (xs.filterMap id)) s

/-- vred.max (R204). -/
def execVredMax (o : VOps) (s : State) : Host.Outcome State Fault Refusal := elemAlone (vredMaxOp o) s

/-- vred.min (R204). -/
def vredMinOp (o : VOps) (s : State) : ElemOp :=
  reduceOp o (fun xs => extremeOf o.t false o.sat (xs.filterMap id)) s

/-- vred.min (R204). -/
def execVredMin (o : VOps) (s : State) : Host.Outcome State Fault Refusal := elemAlone (vredMinOp o) s

/-- vred.and (R204). -/
def vredAndOp (o : VOps) (s : State) : ElemOp :=
  reduceOp o (fun xs => plain ((xs.filterMap id).foldl (· &&& ·) (2 ^ fmtBits o.t - 1))) s

/-- vred.and (R204). -/
def execVredAnd (o : VOps) (s : State) : Host.Outcome State Fault Refusal := elemAlone (vredAndOp o) s

/-- vred.or (R204). -/
def vredOrOp (o : VOps) (s : State) : ElemOp :=
  reduceOp o (fun xs => plain ((xs.filterMap id).foldl (· ||| ·) 0)) s

/-- vred.or (R204). -/
def execVredOr (o : VOps) (s : State) : Host.Outcome State Fault Refusal := elemAlone (vredOrOp o) s

/-- The group exponent of vgmax: s(S) of the sequencer bank, or imm5 signed (R205). -/
def gmaxExp (s : State) (o : VOps) : Int := if o.sv = 1 then (s.seqReg o.s).toNat else o.s.toInt

/-- tval of an illegal instruction found when it runs (R95): its head, with CB when it begins the convoy, and its tail. -/
def illegalOf (s : State) (i : Instr) : Word :=
  let cb := (s.fpart.convoy.map (fun c => c.elems.any (fun p => p.1 == c.first && p.2 == i))).getD true
  match encode i with
  | some e => illegalTval (headOf cb e) e.y
  | none => 0


/-- vgmax (R205): every present element gets the maximum of its group of 2^k indices. SAT acts on an infinite maximum, and its
OF and NX accrue in the sequencer bank like NV (DEDUCED, log 80). -/
def vgmaxOp (o : VOps) (s : State) : ElemOp :=
  let v := vUnary o true
  let k := gmaxExp s o
  let bits := fmtBits o.t
  { wholeOp s v o (fun s' =>
      match gather s' v o with
      | .error w => .stop (.poison w)
      | .ok xs =>
        let top (i : Nat) := extremeOf o.t true o.sat (((xs.drop (i / 2 ^ k.toNat * 2 ^ k.toNat)).take (2 ^ k.toNat)).filterMap id)
        .ok ((s'.processedOf v o).foldl
          (fun x q => (x.putElem q.2.1 bits o.wd.toNat q.2.2 (plain (top q.1).1)).modBank x.focus.core x.seqBank
            (fun y => y.accrue (top q.1).2)) s')) with
    check := if 0 ≤ k ∧ k ≤ 20 then none else some (0x01, illegalOf s (.vgmax o)) }

/-- vgmax (R205): every present element gets the maximum of its group of 2^k indices. -/
def execVgmax (o : VOps) (s : State) : Host.Outcome State Fault Refusal := elemAlone (vgmaxOp o) s

/-- One element of a scan: the value delivered before, if any, and the next element (R61, R206). -/
def scanNext (t : BitVec 4) (mode : RMode) (sat : Bool) (y : Option Nat) (x : Nat) : Nat × BitVec 5 :=
  match y with
  | some y => arith t mode sat (fvAdd mode) (· + ·) y x
  | none =>
    match floatOf t with
    | some f =>
      let d := deliver f mode sat (unpack f x)
      (d.1, flagIf (unpack f x).isSig fNV ||| d.2)
    | none => (x, 0)

/-- A scan over the present elements, each written with its flags in its own bank (R204, R206). -/
def scanList (t : BitVec 4) (mode : RMode) (sat : Bool) (wd bits : Nat) : List ((Nat × Nat × Nat) × Nat) → Option Nat → State → State
  | [], _, s => s
  | (q, x) :: xs, y, s =>
    let r := scanNext t mode sat y x
    scanList t mode sat wd bits xs (some r.1) (s.putElem q.2.1 bits wd q.2.2 r)


/-- vscan (R206). -/
def vscanOp (o : VOps) (s : State) : ElemOp :=
  let v := vUnary o true
  let bits := fmtBits o.t
  wholeOp s v o (fun s' =>
    match gather s' v o with
    | .error w => .stop (.poison w)
    | .ok xs =>
      .ok (scanList o.t (vMode s o.rm) o.sat o.wd.toNat bits ((s'.processedOf v o).map (fun q => (q, (xs.getD q.1 none).getD 0)))
        none s'))

/-- vscan (R206). -/
def execVscan (o : VOps) (s : State) : Host.Outcome State Fault Refusal := elemAlone (vscanOp o) s

end Sys2Proof.Machine
end

