-- ==== Sys2Proof/Machine/Control.lean ====
section
/-! DEFINITION. Sys2Proof/Machine/Control.lean: instructions of OP 0x00-0x0D (R28-R32, R121, R122, R124-R133): no
operation, traps, claim, jumps, branches, split and sjoin, control registers, random numbers. eret, tend and tyield,
which move seats, are in Seats.lean. -/

namespace Sys2Proof.Machine

/-! ## The OP 0x00 group (R121) -/

/-- nop (R121). -/
def execNop (s : State) : Host.Outcome State Fault Refusal := .next s.retire

/-- ifence: the model holds no line beyond the convoy, so the next one is fetched from memory anyway (R121). -/
def execIfence (s : State) : Host.Outcome State Fault Refusal := .next s.retire

/-- rel: a release point of a replica, else no effect (R121, R333). -/
def execRel (s : State) : Host.Outcome State Fault Refusal := withRelease s 1 [] (fun _ => (s, .ok))

/-- echo: marks the load of its convoy when the convoy opens (R121). -/
def execEcho (s : State) : Host.Outcome State Fault Refusal := .next s.retire

/-- tval of brk and trap: the address of the next instruction (R122). -/
def nextTval (s : State) : Word := ((s.fpart.nextAddr).extractLsb' 0 56).setWidth 64

/-- brk (R122). -/
def execBrk (s : State) : Host.Outcome State Fault Refusal := .next (s.trapSingle 0x31 (nextTval s))

/-- trap n (R122). -/
def execTrap (n : BitVec 6) (s : State) : Host.Outcome State Fault Refusal :=
  .next (s.trapSingle 0x30 (nextTval s ||| n.setWidth 64 <<< 58))

/-! ## claim (R124) -/

/-- The first pane that claim must wait for: in transition or pinned (R124 step 1). -/
def claimWait (s : State) (c : Nat) (bs : List Nat) : Option Wait :=
  (bs.flatMap (fun b => (List.range 12).filterMap (fun n =>
    let p := s.pane c b n
    if p.st == .opening || p.st == .writing || p.st == .closing then some (Wait.pane c b n)
    else if p.pins != 0 && p.st != .closed then some (Wait.pin c b n)
    else none))).head?

/-- Shut the unparked open panes to slot 7 and close them; which they were, and 16 + N for the parked ones, which stay: R124 closes
every pane for the handler and keeps the parked ones parked, and the model keeps them (DESIGN CHOICE, log 76). -/
def Bank.claimPanes (b : Bank) : List Nat → Bank × List Nat
  | [] => (b, [])
  | n :: ns =>
    if (b.pane n).isOpen && !(b.pane n).park then
      let r := Bank.claimPanes ((b.shutImage n 7).closePane n) ns
      (r.1, n :: r.2)
    else if (b.pane n).park then
      let r := Bank.claimPanes b ns
      (r.1, (16 + n) :: r.2)
    else Bank.claimPanes b ns

/-- claim in one bank (R124). -/
def Bank.claimed (b : Bank) : Bank :=
  let r := b.claimPanes (List.range 12)
  { r.1 with claim := some ⟨b.m, b.k, r.2⟩, m := [] }

/-- A vl that a cut load has left for the next convoy (R214) is no more to come. -/
def Part.uncut (p : Part) : Part := { p with convoy := p.convoy.map (fun c => { c with cut := none }) }

/-- claim in one part: vl (that of a cut load, R214), xidx, RM saved, vl and xidx zero. -/
def Part.claimed (p : Part) : Part := { p.uncut with claim := some ((p.convoy.bind (·.cut)).getD p.vl, p.xidx, p.rm), vl := 0, xidx := 0 }

/-- The status word (R23). -/
def Status.word (x : Status) : Word :=
  let b (c : Bool) (n : Nat) : Word := if c then 1 <<< n else 0
  b x.lvl 0 ||| b x.plvl 1 ||| b x.clm 2 ||| b x.hold 3 ||| x.cls.setWidth 64 <<< 4 ||| b x.red 8 ||| x.rid.setWidth 64 <<< 9

/-- Map every part of a seat. -/
def Seat.mapParts (t : Seat) (f : Part → Part) : Seat := { t with parts := t.parts.map (fun p => (p.1, p.2.map f)) }

/-- claim (R124): every bank of every part of the trapped context. -/
def execClaim (s : State) : Host.Outcome State Fault Refusal :=
  let t := s.fseat
  if !t.status.lvl then .next (s.trapSingle 0x04 0)
  else if t.status.clm then .next (s.trapSingle 0x01 t.status.word)
  else
    match claimWait s s.focus.core t.banks with
    | some w => .next (s.waitOn w)
    | none =>
      let s1 := (s.modBanks s.focus.core (fun _ b => b.claimed) t.banks).dropLinks s.focus.core t.banks
      .next (s1.modSeat s.focus (fun x => { x.mapParts Part.claimed with status := { x.status with clm := true } })).retire

/-! ## Jumps (R127, R128) -/

/-- own address + 2 * offset. -/
def relTarget (s : State) (off : Word) : Word := s.fpart.pc + 2 * off

/-- Write the address of the next instruction into sD of every active bank. -/
def linkTo (d : BitVec 5) (s : State) : State := s.onActive (fun _ b => b.ws d s.fpart.nextAddr)

/-- j (R127). -/
def execJ (imm : BitVec 32) (s : State) : Host.Outcome State Fault Refusal :=
  transfer s (relTarget s (imm.signExtend 64)) id

/-- jl (R127). -/
def execJl (d : BitVec 5) (imm : BitVec 32) (s : State) : Host.Outcome State Fault Refusal :=
  transfer s (relTarget s (imm.signExtend 64)) (linkTo d)

/-- A target from a register: bits [63:56] must be zero (R128). -/
def transferReg (s : State) (a : BitVec 5) (link : State → State) : Host.Outcome State Fault Refusal :=
  if (s.seqReg a).extractLsb' 56 8 ≠ 0 then .next (s.trapSingle 0x03 (s.seqReg a)) else transfer s (s.seqReg a) link

/-- jr (R128). -/
def execJr (a : BitVec 5) (s : State) : Host.Outcome State Fault Refusal := transferReg s a id

/-- jlr (R128). -/
def execJlr (d a : BitVec 5) (s : State) : Host.Outcome State Fault Refusal := transferReg s a (linkTo d)

/-! ## Branches (R129, R130) -/

/-- The conditions of R109. -/
def condHolds (c : BitVec 3) (a b : Word) : Bool :=
  match c.toNat with
  | 0 => a == b
  | 1 => a != b
  | 2 => a.slt b
  | 3 => !a.slt b
  | 4 => a.ult b
  | _ => !a.ult b

/-- A condition in one bank. -/
def Bank.cond (x : Bank) (c : BitVec 3) (a b : BitVec 5) : Bool := condHolds c (x.rs a) (x.rs b)

/-- The active banks that hold a condition. -/
def condBanks (s : State) (c : BitVec 3) (a b : BitVec 5) : List Nat := s.active.filter (fun k => (s.fbank k).cond c a b)

/-- Branch when taken; the target is checked only then (R129). -/
def branchIf (s : State) (taken : Bool) (off : BitVec 22) : Host.Outcome State Fault Refusal :=
  if taken then transfer s (relTarget s (off.signExtend 64)) id else .next s.retire

/-- The test of the sequencer bank (R27, R129). -/
def seqCond (s : State) (c : BitVec 3) (a b : BitVec 5) : Bool := (s.fbank s.seqBank).cond c a b

/-- b.eq (R129). -/
def execBEq (a b : BitVec 5) (off : BitVec 22) (s : State) : Host.Outcome State Fault Refusal := branchIf s (seqCond s 0 a b) off
/-- b.ne (R129). -/
def execBNe (a b : BitVec 5) (off : BitVec 22) (s : State) : Host.Outcome State Fault Refusal := branchIf s (seqCond s 1 a b) off
/-- b.lt (R129). -/
def execBLt (a b : BitVec 5) (off : BitVec 22) (s : State) : Host.Outcome State Fault Refusal := branchIf s (seqCond s 2 a b) off
/-- b.ge (R129). -/
def execBGe (a b : BitVec 5) (off : BitVec 22) (s : State) : Host.Outcome State Fault Refusal := branchIf s (seqCond s 3 a b) off
/-- b.ltu (R129). -/
def execBLtu (a b : BitVec 5) (off : BitVec 22) (s : State) : Host.Outcome State Fault Refusal := branchIf s (seqCond s 4 a b) off
/-- b.geu (R129). -/
def execBGeu (a b : BitVec 5) (off : BitVec 22) (s : State) : Host.Outcome State Fault Refusal := branchIf s (seqCond s 5 a b) off

/-- bany: taken when some active bank holds the condition (R130). -/
def execBany (c : BitVec 3) (a b : BitVec 5) (off : BitVec 22) (s : State) : Host.Outcome State Fault Refusal :=
  branchIf s (s.active.any (fun k => (s.fbank k).cond c a b)) off

/-- ball: taken when every active bank holds it (R130). -/
def execBall (c : BitVec 3) (a b : BitVec 5) (off : BitVec 22) (s : State) : Host.Outcome State Fault Refusal :=
  branchIf s (s.active.all (fun k => (s.fbank k).cond c a b)) off

/-! ## split and sjoin (R28-R31, R126, R131) -/

/-- The part of a split level: its banks, its place, one level deeper. -/
def Part.branchOff (p : Part) (id : BitVec 3) (banks : BitVec 16) (pc : Word) : Part :=
  { p.endConvoy with pc := pc, active := banks, splits := ⟨id.setWidth 6, p.active⟩ :: p.splits, wait := none, begun := 0 }

/-- Put a part under its lowest bank; an empty part is none. -/
def Seat.addPart (t : Seat) (p : Part) : Seat := if p.active = 0 then t else t.setPart? p.seqBank (some p)

/-- Divide the focus's part (R28). The focus stays with the part that keeps the lowest bank. -/
def State.divide (s : State) (id : BitVec 3) (taken : BitVec 16) (target : Word) : State :=
  let p := s.fpart
  let s1 := s.modSeat s.focus (fun t =>
    (((t.setPart? s.focus.seq none).addPart (p.branchOff id taken target)).addPart
      (p.branchOff id (p.active &&& ~~~taken) p.nextAddr)))
  s1.flushLate s.focus.core p.late

/-- split (R131). -/
def execSplit (id c : BitVec 3) (a b : BitVec 5) (off : BitVec 22) (s : State) : Host.Outcome State Fault Refusal :=
  let target := relTarget s (off.signExtend 64)
  let taken := condBanks s c a b
  if s.fpart.depth = 4 then .next (s.trapSingle 0x01 4)
  else if taken.isEmpty then .next (s.divide id 0 target)
  else afterSlot s true target (s.divide id (bankMask taken) target)

/-- The other part of a split, when it waits at the matching sjoin: its key and itself (R30). -/
def findSibling (t : Seat) (x : Split) (others : BitVec 16) : Option (Nat × Part) :=
  t.parts.findSome? (fun q =>
    match q.2 with
    | some p => if p.active == others && p.splits.head? == some x && p.wait == some (.sjoin x.id) then some (q.1, p) else none
    | none => none)

/-- Merge two parts of a split (R30): values, place and sequencer from the one that holds the parent's lowest bank. A handler that
joins the banks of its context runs in them too (log 75). -/
def State.merge (s : State) (x : Split) (other : Option (Nat × Part)) : State :=
  let p := s.fpart
  let low := (banksOf x.banks).headD 0
  let src : Part := if p.active.getLsbD low then p else (other.map (·.2)).getD p
  let m : Part := { src.endConvoy with pc := src.nextAddr, active := x.banks, splits := p.splits.tail, wait := none, begun := 0 }
  let t := s.fseat
  let t0 := (if t.handles p then { t with handler := t.handler.map (· ||| x.banks) } else t).setPart? s.focus.seq none
  let t1 := match other with | some q => t0.setPart? q.1 none | none => t0
  let s1 := s.setSeat s.focus (t1.setPart? low (some m))
  let s2 := (s1.flushLate s.focus.core p.late).flushLate s.focus.core ((other.map (·.2.late)).getD [])
  { s2 with focus := ⟨s.focus.core, s.focus.base, low⟩ }

/-- sjoin (R30). -/
def execSjoin (id : BitVec 6) (s : State) : Host.Outcome State Fault Refusal :=
  match s.fpart.splits with
  | [] => .next (s.trapSingle 0x01 (id.setWidth 64))
  | x :: _ =>
    if x.id ≠ id then .next (s.trapSingle 0x01 (id.setWidth 64))
    else if x.banks &&& ~~~s.fpart.active = 0 then .next (s.merge x none)
    else
      match findSibling s.fseat x (x.banks &&& ~~~s.fpart.active) with
      | some q => .next (s.merge x (some q))
      | none => .next (s.waitOn (.sjoin id))

/-! ## Control registers (R17-R25, R132, R371) -/

/-- The indices a thread has (R17) and those a control core has (R371). -/
def ctlListed (cc : Bool) (i : Nat) : Bool :=
  if cc then i == 1 || i == 4 || i == 8 || (decide (0x10 ≤ i) && decide (i ≤ 0x14)) || (decide (0x16 ≤ i) && decide (i ≤ 0x19))
  else decide (i ≤ 0xC) || (decide (0x10 ≤ i) && decide (i ≤ 0x17))

/-- The read-only indices (R17). -/
def ctlReadOnly (i : Nat) : Bool := [2, 3, 4, 5, 6, 8, 9, 10].contains i

/-- The supervisor indices (R18). -/
def ctlSuper (i : Nat) : Bool := decide (0x10 ≤ i)

/-- The trap of an access to a control register (R18): its cause. -/
def ctlTrap (t : Seat) (i : Nat) (write : Bool) : Option (BitVec 8) :=
  if !ctlListed t.isCC i || (write && ctlReadOnly i) then some 0x01
  else if ctlSuper i && !t.status.lvl then some 0x04
  else none

/-- The debts in one word (R25). -/
def Bank.rdebtWord (b : Bank) : Word := BitVec.ofNat 64 ((List.range 12).foldl (fun x n => x + min (b.debtOf n) 15 * 16 ^ n) 0)

/-- The word of sashcfg (R22). -/
def sashcfgWord (t : Seat) (p : Part) : Word :=
  BitVec.ofNat 64 (t.log2s % 8 + t.base % 16 * 16 + p.depth % 8 * 256 + p.active.toNat * 65536)

/-- The task record's priority and the current one are registers of the seat. -/
def ctlRead (core : Nat) (t : Seat) (p : Part) (bank : Nat) (b : Bank) (i : Nat) : Word :=
  match i with
  | 0x000 => BitVec.ofNat 64 p.vlNow
  | 0x001 => fcsrOf p b
  | 0x002 => sashcfgWord t p
  | 0x003 => BitVec.ofNat 64 bank
  | 0x004 => BitVec.ofNat 64 core
  | 0x005 => BitVec.ofNat 64 (t.task % 2 ^ 32 + t.launch % 2 ^ 16 * 2 ^ 32)
  | 0x006 => t.stage.setWidth 64
  | 0x007 => t.prio.setWidth 64
  | 0x009 => b.rdebtWord
  | 0x00A => BitVec.ofNat 64 t.rows.length
  | 0x00B => b.hsp
  | 0x00C => BitVec.ofNat 64 p.xidxNow
  | 0x010 => t.status.word
  | 0x011 => t.cause.setWidth 64
  | 0x012 => t.epc
  | 0x013 => t.tval
  | 0x014 => t.tvec
  | 0x015 => BitVec.ofNat 64 t.lcap
  | 0x016 => b.ss0
  | 0x017 => b.ss1
  | 0x018 => t.ptbr
  | 0x019 => t.timecmp
  | _ => 0
where
  /-- fcsr of a bank: RM as read at convoy start, its own flags (R21, R36). -/
  fcsrOf (p : Part) (b : Bank) : Word :=
    p.rmNow.setWidth 64 ||| b.flags.setWidth 64 <<< 8 ||| (if b.flags = 0 then 0 else 0x10000)

/-- getc (R132). cycle is a free value, echoed under redundancy (R17, R339; log 6). -/
def execGetc (d : BitVec 5) (idx : BitVec 10) (s : State) : Host.Outcome State Fault Refusal :=
  match ctlTrap s.fseat idx.toNat false with
  | some k => .next (s.trapSingle k (idx.setWidth 64))
  | none =>
    if idx = 8 then
      match s.echoed (fun s => s.freeWord) with
      | .ok x => .next (x.2.onActive (fun _ b => b.ws d x.1)).retire
      | .wait w => .next (s.waitOn w)
      | .bad _ k => .next (s.trapSingle k 0)
    else .next (s.onActive (fun n b => b.ws d (ctlRead s.focus.core s.fseat s.fpart n b idx.toNat))).retire

/-- A stored lcap (R20). -/
def lcapOf (v : Word) : Nat := max 8 (min 12 (v.extractLsb' 0 4).toNat)

/-- A stored priority (R20): a user is limited by the task record. -/
def prioOf (t : Seat) (v : Word) : BitVec 3 :=
  let x := v.extractLsb' 0 3
  if t.status.lvl then x else if x.toNat < t.recPrio.toNat then x else t.recPrio

/-- A write of a register of the bank (R132): its own source. -/
def Bank.ctlWrite (b : Bank) (i : Nat) (v : Word) : Bank :=
  match i with
  | 0x001 => { b with flags := v.extractLsb' 8 5 }
  | 0x00B => { b with hsp := v }
  | 0x016 => { b with ss0 := v }
  | 0x017 => { b with ss1 := v }
  | _ => b

/-- A write of a part's own copy of vl, RM, xidx (R20, R29). -/
def Part.ctlWrite (p : Part) (i : Nat) (v : Word) : Part :=
  match i with
  | 0x000 => { p with vl := min v.toNat 0x100000 }
  | 0x001 => { p with rm := v.extractLsb' 0 3 }
  | 0x00C => { p with xidx := min v.toNat 0x100000 }
  | _ => p

/-- A write of a sash-wide register (R19, R20, R23): res0 and RO bits keep their values. -/
def Seat.ctlWrite (t : Seat) (i : Nat) (v : Word) : Seat :=
  match i with
  | 0x007 => { t with prio := prioOf t v }
  | 0x010 => { t with status := { t.status with plvl := v.getLsbD 1, hold := v.getLsbD 3 } }
  | 0x011 => { t with cause := v.extractLsb' 0 8 }
  | 0x012 => { t with epc := v }
  | 0x013 => { t with tval := v }
  | 0x014 => { t with tvec := v &&& 0xFFFFFFFFFFFFFFC0 }
  | 0x015 => { t with lcap := lcapOf v }
  | 0x018 => { t with ptbr := v &&& 0x0000FFFFFFFF00F1 }
  | 0x019 => { t with timecmp := v }
  | _ => t

/-- setc (R132): per-bank registers from each bank, the others from the sequencer bank (R19). -/
def execSetc (d : BitVec 5) (idx : BitVec 10) (s : State) : Host.Outcome State Fault Refusal :=
  match ctlTrap s.fseat idx.toNat true with
  | some k => .next (s.trapSingle k (idx.setWidth 64))
  | none =>
    let v := s.seqReg d
    let s1 := s.onActive (fun _ b => b.ctlWrite idx.toNat (b.rs d))
    let s2 := s1.modSeat s.focus (fun t => t.ctlWrite idx.toNat v)
    .next (s2.modPart s.focus (fun p => p.ctlWrite idx.toNat v)).retire

/-- rnd: an independent free word in each bank, echoed under redundancy (R133, R339). -/
def execRnd (d : BitVec 5) (s : State) : Host.Outcome State Fault Refusal :=
  finishSingle (echoInto s d (fun _ s => s.freeWord) s.active s)

end Sys2Proof.Machine
end

