-- ==== Sys2Proof/Machine/Rows.lean ====
section
/-! DEFINITION. Sys2Proof/Machine/Rows.lean: the row commands (R63-R78, R164-R178). Each checks every active bank first (R165), then
begins in every bank; the transition it begins ends in an event. -/

namespace Sys2Proof.Machine

/-! ## Checks (R63, R165) -/

/-- The checks of R63 for one bank, in their order, with that of R330 after the first. -/
def rowCheck (s : State) (c : Ctx) (core bank sg : Nat) (need : Need) (va : Nat) : Res Spot :=
  match translate s c need va with
  | .wait w => .wait w
  | .bad _ k => .bad 1 k
  | .ok p =>
    if need = .write ∧ undisciplined s.fseat core (va / 4096 * 4096) p.pa 4096 then .bad 2 0x2A
    else if p.peer ≠ 0 then .bad 3 0x16
    else
      match regionOf p.pa with
      | .cap => .bad 4 0x15
      | .dram =>
        if dramCore p.pa ≠ core ∨ dramBank p.pa ≠ bank then .bad 5 0x07
        else if dramSg p.pa ≠ sg then .bad 6 0x08
        else .ok p
      | _ => .bad 4 0x11

/-- The first bank, lowest first, whose a-register has a reserved ESZ (R14). -/
def badEsz (s : State) (a : BitVec 3) : Bool := s.active.any (fun b => decide (6 ≤ aEsz ((s.fbank b).ra a)))

/-- tval of a failed row address (R165); an address in sS with bits [63:56] not zero is shown whole (R166). -/
def rowTval (va bank : Nat) : Word := if 2 ^ 56 ≤ va then BitVec.ofNat 64 va else addrTval va bank

/-- The spots of a row address in every active bank; the earliest failing check decides, among its banks the lowest (R165). -/
def rowSpots (s : State) (sg : Nat) (need : Need) (va : Nat → Nat) :
    List Nat → Option (Nat × BitVec 8 × Word) → Option Wait → Option (Nat × BitVec 8 × Word) × Option Wait
  | [], f, w => (f, w)
  | b :: bs, f, w =>
    match rowCheck s s.fctx s.focus.core b sg need (va b) with
    | .ok _ => rowSpots s sg need va bs f w
    | .bad o k => rowSpots s sg need va bs (worst f o k (rowTval (va b) b)) w
    | .wait x => rowSpots s sg need va bs f (some x)

/-- The spot of a checked address. -/
def spotOf (s : State) (sg b : Nat) (need : Need) (va : Nat) : Spot :=
  match rowCheck s s.fctx s.focus.core b sg need va with
  | .ok p => p
  | _ => ⟨0, 0, false, false, false⟩

/-- aA.VA of a bank. -/
def rowVa (s : State) (a : BitVec 3) (b : Nat) : Nat := (aVa ((s.fbank b).ra a)).toNat

/-- What a pane's state means for a command (R67, R178): begin; wait for a transition after which the pane passes its check; wait for PIN,
begun in no bank (R167); wait before the check can be made; trap. -/
inductive PaneGate where
  | go
  | hold
  | pin
  | unsure
  | trap (cause : BitVec 8)
deriving DecidableEq, Repr

/-- A command that needs a CLOSED pane: act, actz, reopen, rcopy. -/
def needClosed (p : Pane) : PaneGate :=
  if p.park then (if p.busy then .unsure else .trap 0x06)
  else
    match p.st with
    | .closed => .go
    | .closing => .hold
    | .opening => .unsure
    | .openClean | .openDirty | .writing => .trap 0x06

/-- A command that needs an open pane: wb, wbto, pre when pins hold it back, shut when they do not. -/
def needOpen (pins : Bool) (p : Pane) : PaneGate :=
  if p.park then (if p.busy then .hold else .go)
  else
    match p.st with
    | .closed | .closing => .trap 0x05
    | .opening | .writing => .hold
    | .openClean | .openDirty => if pins && p.pins != 0 then .pin else .go

/-- rfsh: a closed sg, a parked pane's included (R174). -/
def needFree (p : Pane) : PaneGate :=
  if p.park then (if p.busy then .hold else .go)
  else
    match p.st with
    | .closed => .go
    | .closing => .hold
    | .opening | .openClean | .openDirty | .writing => .trap 0x06

/-- Reopen the parked panes N of banks (R74). -/
def State.reopenParked (s : State) (n : Nat) : List Nat → State
  | [] => s
  | b :: bs =>
    let p := (s.fbank b).pane n
    State.reopenParked (if p.park && !p.busy then s.modBank s.focus.core b (fun x => x.unparkPane n) else s) n bs

/-- Perform a command in banks. -/
def eachBank (f : Nat → State → State) : List Nat → State → State
  | [], s => s
  | b :: bs, s => eachBank f bs (f b s)

/-- The command begins in every bank of a list whose pane lets it, and waits for the transitions of the others; banks do not wait for one
another (R166). -/
def beginBanks (s : State) (n : Nat) (gate : Pane → PaneGate) (plan : List RowPlan) (bs : List Nat) (one : List RowPlan → Nat → State → State) : State :=
  let ready := bs.filter (fun b => gate ((s.fbank b).pane n) == .go)
  let s1 := eachBank (one plan) ready s
  match bs.find? (fun b => gate ((s.fbank b).pane n) != .go) with
  | none => s1.retire
  | some b => ((s1.noteBegun (s.fpart.begun ||| bankMask ready)).modPart s.focus (fun p => { p with plan := plan })).waitOn (.pane s.focus.core b n)

/-- The first bank whose gate says so. -/
def gateAt (s : State) (n : Nat) (gate : Pane → PaneGate) (bs : List Nat) (g : PaneGate) : Option Nat :=
  bs.find? (fun b => gate ((s.fbank b).pane n) == g)

/-- The pane-state checks of every active bank (R165), then the command in each bank (R166). A command that has begun in some bank is past its
checks and goes on in the others. `reopen`: a parked pane is reopened before the command goes on or traps. `extra` is a further check of one bank; it
stands after the pane states of every bank (DESIGN CHOICE, log 78). `plan`: where its rows lie. -/
def paneCommand (s : State) (n : Nat) (gate : Pane → PaneGate) (reopen : Bool) (extra : Nat → Option (BitVec 8 × Word)) (plan : List RowPlan)
    (one : List RowPlan → Nat → State → State) : Host.Outcome State Fault Refusal :=
  let rest := s.restBanks
  let s1 := if reopen then s.reopenParked n rest else s
  if s.fpart.begun ≠ 0 then .next (beginBanks s1 n gate s.fpart.plan rest one)
  else
    match gateAt s n gate rest .unsure with
    | some b => .next (s.waitOn (.pane s.focus.core b n))
    | none =>
      match rest.findSome? (fun b => match gate ((s.fbank b).pane n) with | .trap k => some (k, paneTval n b) | _ => none) with
      | some (k, v) => .next (s1.trapSingle k v)
      | none =>
        match rest.findSome? extra with
        | some (k, v) => .next (s1.trapSingle k v)
        | none =>
          match gateAt s n gate rest .pin with
          | some b => .next (s.waitOn (.pin s.focus.core b n))
          | none => .next (beginBanks s1 n gate plan rest one)

/-- A command whose row addresses pass R63 first; one that has begun in some bank has passed. -/
def rowCommand (s : State) (a : BitVec 3) (checks : Option (Nat × BitVec 8 × Word) × Option Wait)
    (go : Host.Outcome State Fault Refusal) : Host.Outcome State Fault Refusal :=
  if s.fpart.begun ≠ 0 then go
  else if badEsz s a then .next (s.trapSingle 0x01 (a.setWidth 64))
  else
    match checks with
    | (some (_, k, v), _) => .next (s.trapSingle k v)
    | (none, some w) => .next (s.waitOn w)
    | (none, none) => go

/-- The plan of a command: the rows of the banks in which it has still to begin. -/
def rowPlan (s : State) (sg : Nat) (need : Need) (va : Nat → Nat) (src : Nat → Nat) : List RowPlan :=
  s.restBanks.map (fun b => ⟨b, (spotOf s sg b need (va b)).pa, (spotOf s sg b need (va b)).wperm, src b⟩)

/-- The entry of a bank. -/
def planAt (plan : List RowPlan) (b : Nat) : RowPlan := (plan.find? (fun p => p.bank == b)).getD ⟨b, 0, false, 0⟩

/-- No further check. -/
def noExtra : Nat → Option (BitVec 8 × Word) := fun _ => none

/-! ## Opening (R169, R170) -/

/-- The first byte of a row. -/
def rowStart (pa : Nat) : Nat := pa / 4096 * 4096

/-- The image of a row bound to a pane (R169), as the thread's ROW path sees it (R303). -/
def openImage (s : State) (p : RowPlan) (va : Nat) : PaneImage :=
  let r := rowImage s (rowStart p.pa)
  { data := s.rowSeen s.focus.core s.focus.base (rowStart p.pa) r.1, poison := r.2, dirty := false, bnd := true, row := BitVec.ofNat 8 (dramRow p.pa), pa := rowStart p.pa
    va := BitVec.ofNat 64 va, wperm := p.wperm }

/-- A pane in OPENING; it shows its content and binding when OPENING ends (R169, R175; for act DESIGN CHOICE, log 79). -/
def Pane.opening (img : PaneImage) : Pane := ⟨.opening, img.openState, PaneImage.empty, 0, false, false, false, some img⟩

/-- A granule of the image that a pane will show is poisoned. -/
def Pane.poisonNext (p : Pane) (g : Nat) : Pane :=
  let i := p.final
  { p with next := some { i with poison := put i.poison g (some 0) } }

/-- Row errors that the act of a row finds (R177): its granules with an uncorrectable failure (log 58) are poisoned, each with a record. -/
def State.findErrors (s : State) (b n : Nat) : State :=
  let row := ((s.fbank b).pane n).final.pa
  let here := (s.core s.focus.core).ecc.filter (fun x => decide (row ≤ x) && decide (x < row + 4096))
  here.foldl
    (fun x pa =>
      let g := (pa - row) / 64
      (x.modBank x.focus.core b (fun k => k.setPane n ((k.pane n).poisonNext g))).logError 0x04 2 planeData (locOf s.focus.core b n) 0 (BitVec.ofNat 64 (row + 64 * g)) (BitVec.ofNat 64 g))
    (if here.isEmpty then s else s.modCore s.focus.core (fun c => { c with ecc := c.ecc.filter (fun x => !here.contains x) }))

/-- A row access of the part in focus comes before its later LS accesses to the row (R302). -/
def State.ownRow (s : State) (pa : Nat) : State := s.orderByte s.focus.core s.focus.base 0 (rowStart pa) 4096

/-- act wN, [aA] (R169, R177). -/
def execAct (n : BitVec 4) (a : BitVec 3) (s : State) : Host.Outcome State Fault Refusal :=
  rowCommand s a (rowSpots s n.toNat .read (rowVa s a) s.restBanks none none)
    (paneCommand s n.toNat needClosed true noExtra (rowPlan s n.toNat .read (rowVa s a) (fun _ => 0)) (fun plan b x =>
      let p := planAt plan b
      (((x.setPane x.focus.core b n.toNat (.opening (openImage x p (rowVa s a b)))).findErrors b n.toNat).ownRow p.pa).touch p.pa))

/-- actz wN (R170). -/
def execActz (n : BitVec 4) (s : State) : Host.Outcome State Fault Refusal :=
  paneCommand s n.toNat needClosed true noExtra [] (fun _ b x => x.setPane x.focus.core b n.toNat (.opening PaneImage.empty))

/-! ## Writing back (R169, R171) -/

/-- A wb without write permission traps (R171); so does a replica's wb of a row outside its declared outputs (R330). -/
def wbExtra (s : State) (n : Nat) (b : Nat) : Option (BitVec 8 × Word) :=
  let i := ((s.fbank b).pane n).img
  if !i.wperm then some (0x11, addrTval i.va.toNat b)
  else if undisciplined s.fseat s.focus.core (i.va.toNat / 4096 * 4096) i.pa 4096 then some (0x2A, addrTval i.va.toNat b)
  else none

/-- The gate of wb (R67): an open pane with BND = 1; while the pane is in OPENING or WRITING its binding is not known yet. A parked pane is
asked for its saved binding. -/
def wbGate (p : Pane) : PaneGate :=
  match needOpen true p with
  | .go => if p.img.bnd then .go else .trap 0x06
  | .pin => if p.img.bnd then .pin else .trap 0x06
  | .hold => .unsure
  | g => g

/-- Write a pane to a row and hold WRITING; the pane is bound to the row when WRITING ends (R169, R171; log 42). The shadow bytes of a
replica become dirty (R331). -/
def State.writePane (s : State) (b n : Nat) (img : PaneImage) : State :=
  let p := (s.fbank b).pane n
  (((s.writeRow (some (s.focus.core, b)) img.pa img).markDirty s.focus.core s.focus.base (img.va.toNat / 4096 * 4096) 4096).setPane
    s.focus.core b n { p with st := .writing, after := .openClean, img := { p.img with dirty := false }, next := some { img with dirty := false } }).touch
      img.pa

/-- wb wN (R171). -/
def execWb (n : BitVec 4) (s : State) : Host.Outcome State Fault Refusal :=
  paneCommand s n.toNat wbGate true (wbExtra s n.toNat) [] (fun _ b x => x.writePane b n.toNat ((x.fbank b).pane n.toNat).img)

/-- wbto wN, [aA] (R169): the pane is bound to the target row. -/
def execWbto (n : BitVec 4) (a : BitVec 3) (s : State) : Host.Outcome State Fault Refusal :=
  rowCommand s a (rowSpots s n.toNat .write (rowVa s a) s.restBanks none none)
    (paneCommand s n.toNat (needOpen true) true noExtra (rowPlan s n.toNat .write (rowVa s a) (fun _ => 0)) (fun plan b x =>
      let p := planAt plan b
      x.writePane b n.toNat { ((x.fbank b).pane n.toNat).img with
        bnd := true, row := BitVec.ofNat 8 (dramRow p.pa), pa := rowStart p.pa, va := BitVec.ofNat 64 (rowVa s a b), wperm := p.wperm }))

/-! ## Closing, copying, refreshing (R172-R174) -/

/-- pre wN (R172): a parked pane closes without reopening. BND and ROW read 0 as soon as CLOSING begins (DESIGN CHOICE, log 79). -/
def execPre (n : BitVec 4) (s : State) : Host.Outcome State Fault Refusal :=
  paneCommand s n.toNat (needOpen true) false noExtra [] (fun _ b x =>
    if ((x.fbank b).pane n.toNat).park then x.setPane x.focus.core b n.toNat Pane.empty
    else x.setPane x.focus.core b n.toNat { Pane.empty with st := .closing, after := .closed })

/-- Copy a row to a row with its poison (R173, R177). -/
def State.copyRow (s : State) (w : Option (Nat × Nat)) (dst src : Nat) : State :=
  let r := rowImage s (rowStart src)
  (s.ownRow src).writeRow w (rowStart dst)
    { PaneImage.empty with data := s.rowSeen s.focus.core s.focus.base (rowStart src) r.1, poison := r.2 }

/-- rcopy wN, [aA], [sS] (R173): the source is checked first. -/
def execRcopy (n : BitVec 4) (a : BitVec 3) (src : BitVec 5) (s : State) : Host.Outcome State Fault Refusal :=
  let from_ (b : Nat) : Nat := ((s.fbank b).rs src).toNat
  let c1 := rowSpots s n.toNat .read from_ s.restBanks none none
  let c2 := rowSpots s n.toNat .write (rowVa s a) s.restBanks none none
  rowCommand s a (match c1.1 with | some x => (some x, none) | none => (c2.1, c1.2.or c2.2))
    (paneCommand s n.toNat needClosed true noExtra (rowPlan s n.toNat .write (rowVa s a) (fun b => (spotOf s n.toNat b .read (from_ b)).pa)) (fun plan b x =>
      let d := (planAt plan b).pa
      let r := (planAt plan b).src
      ((((x.copyRow (some (x.focus.core, b)) d r).markDirty x.focus.core x.focus.base
        (rowVa s a b / 4096 * 4096) 4096).setPane x.focus.core b n.toNat { Pane.empty with st := .closing, after := .closed }).touch d).touch r))

/-- One refresh step (R80). -/
def Bank.payRefresh (b : Bank) (n : Nat) : Bank := b.setDebt n (b.debtOf n - 1)

/-- rfsh N (R174). -/
def execRfsh (n : BitVec 4) (s : State) : Host.Outcome State Fault Refusal :=
  paneCommand s n.toNat needFree false noExtra [] (fun _ b x =>
    x.modBank x.focus.core b (fun y =>
      let p := y.pane n.toNat
      (y.payRefresh n.toNat).setPane n.toNat
        (if p.park then { p with busy := true } else { Pane.empty with st := .closing, after := .closed })))

/-! ## Shutter slots (R175, R78) -/

/-- The owner rule of shut (R78). -/
def shutOwner (t : Seat) (o : Owner) : Bool :=
  match o with
  | .free => true
  | .user l k => l == t.launch && k == t.task
  | .saved _ _ => false

/-- A slot of 0-4 that the task may not use (R78). -/
def slotRefused (s : State) (n k : Nat) (b : Nat) : Option (BitVec 8 × Word) :=
  if k < 5 && !shutOwner s.fseat ((s.fbank b).slot n k).owner then some (0x11, BitVec.ofNat 64 k) else none

/-- shut wN, k (R175). -/
def execShut (n k : BitVec 4) (s : State) : Host.Outcome State Fault Refusal :=
  paneCommand s n.toNat (needOpen false) true (slotRefused s n.toNat k.toNat) [] (fun _ b x =>
    x.modBank x.focus.core b (fun y =>
      let p := y.pane n.toNat
      let y1 := y.shutImage n.toNat k.toNat
      let y2 := if k.toNat < 5 then
          y1.setSlot n.toNat k.toNat { y1.slot n.toNat k.toNat with owner := .user s.fseat.launch s.fseat.task } else y1
      y2.setPane n.toNat { p with st := .writing, after := p.img.openState }))

/-- The image that a reopen delivers (R77): a free slot of 0-4 gives zeros, a slot never written free bytes. -/
def slotImage (free : Nat) (x : Slot) (k : Nat) : PaneImage :=
  if k < 5 && x.owner == .free then PaneImage.empty
  else
    match x.img with
    | some i => i
    | none => { PaneImage.empty with data := freeImage free }

/-- reopen wN, k (R175). -/
def execReopen (n k : BitVec 4) (s : State) : Host.Outcome State Fault Refusal :=
  paneCommand s n.toNat needClosed true (slotRefused s n.toNat k.toNat) [] (fun _ b x =>
    let f := x.freeBytes
    f.2.setPane f.2.focus.core b n.toNat (.opening (slotImage f.1 ((f.2.fbank b).slot n.toNat k.toNat) k.toNat)))

/-! ## pstat (R68, R176) -/

/-- The code of a pane state (R65). -/
def PaneState.code : PaneState → Nat
  | .closed => 0
  | .opening => 1
  | .openClean => 2
  | .openDirty => 3
  | .writing => 4
  | .closing => 5

/-- The word of R68. -/
def Pane.word (p : Pane) : Word :=
  BitVec.ofNat 64 (p.st.code + (if p.pins = 0 then 0 else 8) + (if p.park then 16 else 0) +
    (if p.img.bnd then 32 + p.img.row.toNat * 256 else 0))

/-- pstat sS, wN (R176). -/
def execPstat (d : BitVec 5) (n : BitVec 4) (s : State) : Host.Outcome State Fault Refusal := s.setReg d (fun b => (b.pane n.toNat).word)

end Sys2Proof.Machine
end

