-- ==== Sys2Proof/Machine/ScalarMem.lean ====
section
/-! DEFINITION. Sys2Proof/Machine/ScalarMem.lean: scalar loads and stores, the hardware stack, atomics (R148-R157). -/

namespace Sys2Proof.Machine

/-! ## Addresses and extension (R152) -/

/-- The accesses of a part at sA + imm, each with the value of sD. -/
def accessesAt (s : State) (d a : BitVec 5) (imm : BitVec 22) : List BankAccess :=
  s.restBanks.map (fun b => ⟨b, ((s.fbank b).rs a + immB imm).toNat, ((s.fbank b).rs d).toNat⟩)

/-- The loaded value in a register: n bytes sign- or zero-extended. -/
def extendBytes (sgn : Bool) (n v : Nat) : Word := BitVec.ofInt 64 (toIntW sgn (8 * n) v)

def loadAccess (n : Nat) : Access := ⟨n, false, false, false, false, false, false⟩
def storeAccess (n : Nat) : Access := ⟨n, true, false, false, true, false, false⟩
def amoAccess : Access := ⟨8, true, true, false, false, false, false⟩
def pushAccess : Access := ⟨8, true, false, true, true, false, false⟩
def popAccess : Access := ⟨8, false, false, true, false, false, false⟩

/-- The writer that an access of a bank names. -/
def State.who (s : State) (bank : Nat) : Who := ⟨s.focus.core, s.focus.base, bank⟩

/-! ## Loads (R152, R153) -/

/-- echo marks the load (R121). -/
def State.echoLoad (s : State) : Bool := (s.fpart.convoy.map (·.echo)).getD false && s.fseat.red.isSome

/-- A value echoed from the leader's read, when the read succeeds. -/
def echoedRead (s : State) (rd : Res (Nat × State)) : Res (Nat × State) :=
  match s.fseat.red with
  | none => rd
  | some r =>
    match r.echoLog.drop r.echoPos with
    | v :: _ => .ok (v.toNat, s.passEcho)
    | [] =>
      if r.leads then
        rd.andThen (fun x => .ok (x.1, (x.2.appendEcho s.fseat.launch s.fseat.task (BitVec.ofNat 64 x.1)).passEcho))
      else .wait .echo

/-- A read of a load, echoed when echo marks it. -/
def readMarked (s : State) (p : Spot) (n : Nat) : Res (Nat × State) :=
  if s.echoLoad then echoedRead s (readSpot s p n) else readSpot s p n

/-- One bank's load into sD. -/
def loadAct (d : BitVec 5) (sgn : Bool) (n : Nat) (s : State) (p : Spot) (a : BankAccess) : Res State :=
  (readMarked s p n).andThen fun x =>
    .ok (x.2.modBank s.focus.core a.bank (fun b => b.ws d (extendBytes sgn n x.1)))

/-- A load of n bytes in every active bank. -/
def load (s : State) (d a : BitVec 5) (imm : BitVec 22) (sgn : Bool) (n : Nat) : Host.Outcome State Fault Refusal :=
  finishSingle (scalarAccess s s.fctx s.fseat (loadAccess n) (accessesAt s d a imm) (loadAct d sgn n))

/-- One bank's load with acquire: it comes before later ROW accesses of the agent (R153). -/
def loadAcqAct (d : BitVec 5) (n : Nat) (s : State) (p : Spot) (a : BankAccess) : Res State :=
  (loadAct d false n s p a).andThen (fun x => .ok (x.orderPath s.focus.core s.focus.base 1))

/-- A load with acquire of n bytes in every active bank. -/
def loadAcq (s : State) (d a : BitVec 5) (imm : BitVec 22) (n : Nat) : Host.Outcome State Fault Refusal :=
  finishSingle (scalarAccess s s.fctx s.fseat (loadAccess n) (accessesAt s d a imm) (loadAcqAct d n))

/-- ld.b (R152, R153). -/
def execLdB (d a : BitVec 5) (imm : BitVec 22) (s : State) : Host.Outcome State Fault Refusal := load s d a imm true 1

/-- ld.bu (R152, R153). -/
def execLdBu (d a : BitVec 5) (imm : BitVec 22) (s : State) : Host.Outcome State Fault Refusal := load s d a imm false 1

/-- ld.h (R152, R153). -/
def execLdH (d a : BitVec 5) (imm : BitVec 22) (s : State) : Host.Outcome State Fault Refusal := load s d a imm true 2

/-- ld.hu (R152, R153). -/
def execLdHu (d a : BitVec 5) (imm : BitVec 22) (s : State) : Host.Outcome State Fault Refusal := load s d a imm false 2

/-- ld.w (R152, R153). -/
def execLdW (d a : BitVec 5) (imm : BitVec 22) (s : State) : Host.Outcome State Fault Refusal := load s d a imm true 4

/-- ld.wu (R152, R153). -/
def execLdWu (d a : BitVec 5) (imm : BitVec 22) (s : State) : Host.Outcome State Fault Refusal := load s d a imm false 4

/-- ld.d (R152, R153). -/
def execLdD (d a : BitVec 5) (imm : BitVec 22) (s : State) : Host.Outcome State Fault Refusal := load s d a imm false 8

/-- ld.acq.w (R152, R153). -/
def execLdAcqW (d a : BitVec 5) (imm : BitVec 22) (s : State) : Host.Outcome State Fault Refusal := loadAcq s d a imm 4

/-- ld.acq.d (R152, R153). -/
def execLdAcqD (d a : BitVec 5) (imm : BitVec 22) (s : State) : Host.Outcome State Fault Refusal := loadAcq s d a imm 8

/-! ## Stores (R152, R153) -/

/-- One bank's store. -/
def storeAct (n : Nat) (s : State) (p : Spot) (a : BankAccess) : Res State :=
  writeSpot s (s.who a.bank) a.va p (a.v % 256 ^ n) n

/-- A store of n bytes in every active bank. -/
def store (s : State) (d a : BitVec 5) (imm : BitVec 22) (n : Nat) : Host.Outcome State Fault Refusal :=
  finishSingle (scalarAccess s s.fctx s.fseat (storeAccess n) (accessesAt s d a imm) (storeAct n))

/-- st.b (R152). -/
def execStB (d a : BitVec 5) (imm : BitVec 22) (s : State) : Host.Outcome State Fault Refusal := store s d a imm 1

/-- st.h (R152). -/
def execStH (d a : BitVec 5) (imm : BitVec 22) (s : State) : Host.Outcome State Fault Refusal := store s d a imm 2

/-- st.w (R152). -/
def execStW (d a : BitVec 5) (imm : BitVec 22) (s : State) : Host.Outcome State Fault Refusal := store s d a imm 4

/-- st.d (R152). -/
def execStD (d a : BitVec 5) (imm : BitVec 22) (s : State) : Host.Outcome State Fault Refusal := store s d a imm 8

/-- A row access of the part that has not completed (R153): a pane in a transition. -/
def rowWait (s : State) : Option Wait :=
  if s.active.any (fun b => (List.range 12).any (fun n =>
    let p := s.pane s.focus.core b n
    p.st == .opening || p.st == .writing || p.st == .closing)) then some .fence else none

/-- The home of an address of a replica's view, else where it leads (R332). -/
def homeSpot (c : Ctx) (va : Nat) (p : Spot) : Spot :=
  match viewOf c va with
  | some v => { p with pa := v.home + va % 2 ^ 16 }
  | none => p

/-- The places of an address in the shadows of a page, one for each replica of a task. -/
def State.shadows (s : State) (l t va : Nat) : List Nat :=
  (s.seatsOf l t).filterMap (fun q =>
    ((s.seatAt q.1 q.2).red.bind (fun r => r.view.find? (fun x => x.page == va / 2 ^ 16))).map (fun x => x.stripe + va % 2 ^ 16))

/-- A release access performed at its home by the replica that performs it: the vote unit also writes the bytes into every replica's
shadow, leaving the dirty bits as they are (R332). Claims are waited for (R72). -/
def writeHome (s : State) (w : Who) (va : Nat) (p : Spot) (v n : Nat) : Res State :=
  match viewOf s.fctx va with
  | some _ =>
    let pas := (homeSpot s.fctx va p).pa :: s.shadows s.fseat.launch s.fseat.task va
    match pas.findSome? (heldAt s) with
    | some x => .wait x
    | none => .ok (pas.foldl (fun s pa => s.poke none pa v n) s)
  | none => writeSpot s w va p v n

/-- One bank's st.rel; a follower stores nothing. The row writes before it are seen by every later LS access (R153, R301). -/
def storeRelAct (perform : Bool) (n : Nat) (s : State) (p : Spot) (a : BankAccess) : Res State :=
  if perform then (writeHome s (s.who a.bank) a.va p (a.v % 256 ^ n) n).andThen (fun x => .ok (x.orderPath s.focus.core s.focus.base 0)) else .ok s

/-- The record of a st.rel (R335). -/
def storeRecord (f n : Nat) (a : BankAccess) : List Word :=
  [BitVec.ofNat 64 a.va, BitVec.ofNat 64 (0x1500 + f), BitVec.ofNat 64 (a.v % 256 ^ n), 0]

/-- A store with release (R153): after the row writes before it, a release point of kind 2. -/
def storeRel (s : State) (d a : BitVec 5) (imm : BitVec 22) (f n : Nat) : Host.Outcome State Fault Refusal :=
  let as := accessesAt s d a imm
  match rowWait s with
  | some w => .next (s.waitOn w)
  | none =>
    match checkAll s s.fctx s.fseat (storeAccess n) as none none with
    | (some (_, k, v), _) => .next (s.trapSingle k v)
    | (none, some w) => .next (s.waitOn w)
    | (none, none) =>
      withRelease s 2 (as.map (storeRecord f n))
        (fun perform => s.accessAll s.fctx s.fseat (storeAccess n) (storeRelAct perform n) as)

/-- st.rel.w (R153). -/
def execStRelW (d a : BitVec 5) (imm : BitVec 22) (s : State) : Host.Outcome State Fault Refusal := storeRel s d a imm 4 4

/-- st.rel.d (R153). -/
def execStRelD (d a : BitVec 5) (imm : BitVec 22) (s : State) : Host.Outcome State Fault Refusal := storeRel s d a imm 5 8

/-! ## Atomics (R155, R156) -/

/-- The atomic functions, in the order of their codes. -/
inductive AmoOp where
  | add | and | or | xor | min | max | minu | maxu | swap | fadd | cas
deriving DecidableEq, Repr

def AmoOp.code : AmoOp → Nat
  | .add => 0
  | .and => 1
  | .or => 2
  | .xor => 3
  | .min => 4
  | .max => 5
  | .minu => 6
  | .maxu => 7
  | .swap => 8
  | .fadd => 9
  | .cas => 10

/-- The new memory value and the flags, given the old value, s(B) and s(D) (R155). -/
def amoNew (op : AmoOp) (old b e : Word) : Word × BitVec 5 :=
  match op with
  | .add => (old + b, 0)
  | .and => (old &&& b, 0)
  | .or => (old ||| b, 0)
  | .xor => (old ^^^ b, 0)
  | .min => (if old.slt b then old else b, 0)
  | .max => (if old.slt b then b else old, 0)
  | .minu => (if old.ult b then old else b, 0)
  | .maxu => (if old.ult b then b else old, 0)
  | .swap => (b, 0)
  | .fadd => fpAdd f64Fmt .rne old b
  | .cas => (if old = e then b else old, 0)

/-- Append a value the performing replica read, for the others (R339). -/
def State.shareEcho (s : State) (v : Word) : State :=
  if s.fseat.red.isSome then (s.appendEcho s.fseat.launch s.fseat.task v).passEcho else s

/-! ### Control cores' atomics and threads' on one doubleword (R157) -/

/-- An atomic of the other side, performed in the step before, that does not serialise with one at this place (R157). -/
def State.amoRace (s : State) (cc : Bool) (p : Spot) : Option AmoNote :=
  s.lastAmo.filter (fun n => n.pa == p.pa && n.isCC != cc && !((if cc then p.ha else n.atHome)))

/-- The value that an atomic finds and whether its own update stays: beside one of the other side either may lose the other's update, by a
free choice (R157; log 38). -/
def State.amoFinds (s : State) (cc : Bool) (p : Spot) (old : Word) : Word × Bool × State :=
  match s.amoRace cc p with
  | none => (old, true, s)
  | some n =>
    let lost := s.freeBool
    let mine := lost.2.freeBool
    if lost.1 then (n.old, mine.1, mine.2) else (old, true, mine.2)

/-- Note an atomic that has performed. -/
def State.noteAmo (s : State) (cc : Bool) (p : Spot) (old new : Word) : State :=
  { s with lastAmo := some ⟨p.pa, cc, !cc || p.ha, old, new, s.free⟩, free := s.free + 1 }

/-- One bank's atomic: one read and one write at the home, which hold the newest bytes (R156); a follower takes the old value by echo and accrues the same flags. -/
def amoAct (op : AmoOp) (d b : BitVec 5) (perform : Bool) (s : State) (p : Spot) (a : BankAccess) : Res State :=
  let x := s.fbank a.bank
  if perform then
    let home := homeSpot s.fctx a.va p
    (readSpot (s.orderByte s.focus.core s.focus.base 0 home.pa 8) home 8).andThen fun r =>
      let f := r.2.amoFinds s.fseat.isCC home (BitVec.ofNat 64 r.1)
      let n := amoNew op f.1 (x.rs b) (x.rs d)
      (writeHome f.2.2 (s.who a.bank) a.va p (if f.2.1 then n.1.toNat else r.1) 8).andThen fun s2 =>
        .ok (((s2.modBank s.focus.core a.bank (fun y => (y.ws d f.1).accrue n.2)).shareEcho f.1).noteAmo s.fseat.isCC home f.1 n.1)
  else
    (echoedRead s (.wait .echo)).andThen fun r =>
      let old : Word := BitVec.ofNat 64 r.1
      .ok (r.2.modBank s.focus.core a.bank (fun y => (y.ws d old).accrue (amoNew op old (x.rs b) (x.rs d)).2))

/-- The accesses of an atomic at sA. -/
def amoAccesses (s : State) (a : BitVec 5) : List BankAccess := s.restBanks.map (fun k => ⟨k, ((s.fbank k).rs a).toNat, 0⟩)

/-- The record of an atomic (R335). -/
def amoRecord (s : State) (op : AmoOp) (d b : BitVec 5) (a : BankAccess) : List Word :=
  [BitVec.ofNat 64 a.va, BitVec.ofNat 64 (0x1600 + op.code), (s.fbank a.bank).rs b, if op = .cas then (s.fbank a.bank).rs d else 0]

/-- An atomic (R155): the checks in every bank, then, under redundancy, the release point of kind 4. -/
def atomic (s : State) (op : AmoOp) (d a b : BitVec 5) : Host.Outcome State Fault Refusal :=
  let as := amoAccesses s a
  match checkAll s s.fctx s.fseat amoAccess as none none with
  | (some (_, k, v), _) => .next (s.trapSingle k v)
  | (none, some w) => .next (s.waitOn w)
  | (none, none) =>
    withRelease s 4 (as.map (amoRecord s op d b))
      (fun perform => s.accessAll s.fctx s.fseat amoAccess (amoAct op d b perform) as)

/-- amo.add (R155). -/
def execAmoAdd (d a b : BitVec 5) (s : State) : Host.Outcome State Fault Refusal := atomic s .add d a b

/-- amo.and (R155). -/
def execAmoAnd (d a b : BitVec 5) (s : State) : Host.Outcome State Fault Refusal := atomic s .and d a b

/-- amo.or (R155). -/
def execAmoOr (d a b : BitVec 5) (s : State) : Host.Outcome State Fault Refusal := atomic s .or d a b

/-- amo.xor (R155). -/
def execAmoXor (d a b : BitVec 5) (s : State) : Host.Outcome State Fault Refusal := atomic s .xor d a b

/-- amo.min (R155). -/
def execAmoMin (d a b : BitVec 5) (s : State) : Host.Outcome State Fault Refusal := atomic s .min d a b

/-- amo.max (R155). -/
def execAmoMax (d a b : BitVec 5) (s : State) : Host.Outcome State Fault Refusal := atomic s .max d a b

/-- amo.minu (R155). -/
def execAmoMinu (d a b : BitVec 5) (s : State) : Host.Outcome State Fault Refusal := atomic s .minu d a b

/-- amo.maxu (R155). -/
def execAmoMaxu (d a b : BitVec 5) (s : State) : Host.Outcome State Fault Refusal := atomic s .maxu d a b

/-- amo.swap (R155). -/
def execAmoSwap (d a b : BitVec 5) (s : State) : Host.Outcome State Fault Refusal := atomic s .swap d a b

/-- amo.fadd (R155). -/
def execAmoFadd (d a b : BitVec 5) (s : State) : Host.Outcome State Fault Refusal := atomic s .fadd d a b

/-- amo.cas (R155). -/
def execAmoCas (d a b : BitVec 5) (s : State) : Host.Outcome State Fault Refusal := atomic s .cas d a b

/-! ## The hardware stack (R154) -/

/-- The stack slots of a bank from a base: slot i holds register A + i. -/
def stackSlots (x : Bank) (bank : Nat) (base : Word) (a n : Nat) : List BankAccess :=
  (List.range n).map (fun i => ⟨bank, (base + BitVec.ofNat 64 (8 * i)).toNat, (x.rs (BitVec.ofNat 5 (a + i))).toNat⟩)

/-- The first bank, lowest first, that satisfies a condition. -/
def firstBank (s : State) (f : Bank → Bool) : Option Bank := (s.active.map s.fbank).find? f

/-- Every slot lies in the quad scratch window (R154, R288). -/
def slotsInWindow (base : Word) (n : Nat) : Bool :=
  (List.range n).all (fun i => decide (windowBase ≤ (base + BitVec.ofNat 64 (8 * i)).toNat) &&
    decide ((base + BitVec.ofNat 64 (8 * i)).toNat < 2 ^ 56))

/-- The lowest address of the range of a push or pop of n registers (R154). -/
def stackBase (isPush : Bool) (n : Nat) (b : Bank) : Word := if isPush then b.hsp - BitVec.ofNat 64 (8 * n) else b.hsp

/-- hsp after a push or pop of n registers (R154). -/
def hspAfter (isPush : Bool) (n : Nat) (b : Bank) : Word :=
  if isPush then b.hsp - BitVec.ofNat 64 (8 * n) else b.hsp + BitVec.ofNat 64 (8 * n)

/-- One slot of a pop: register A + i, found from the slot's distance to hsp as it stood at the start. -/
def popAct (s0 : State) (a : Nat) (s : State) (p : Spot) (x : BankAccess) : Res State :=
  (readMarked s p 8).andThen fun r =>
    .ok (r.2.modBank s.focus.core x.bank
      (fun y => y.ws (BitVec.ofNat 5 (a + (x.va - ((s0.fbank x.bank).hsp).toNat) / 8)) (BitVec.ofNat 64 r.1)))

/-- push and pop (R154): hsp's alignment, then the window, then the checks of R148 on every slot; a trap changes
nothing. -/
def stackOp (s : State) (isPush : Bool) (a b : BitVec 5) : Host.Outcome State Fault Refusal :=
  let n := b.toNat - a.toNat + 1
  match firstBank s (fun x => x.hsp.toNat % 8 != 0) with
  | some x => .next (s.trapSingle 0x12 x.hsp)
  | none =>
    match firstBank s (fun x => !slotsInWindow (stackBase isPush n x) n) with
    | some x => .next (s.trapSingle 0x13 x.hsp)
    | none =>
      let as := s.active.flatMap (fun k => stackSlots (s.fbank k) k (stackBase isPush n (s.fbank k)) a.toNat n)
      let r :=
        if isPush then scalarAccess s s.fctx s.fseat pushAccess as (storeAct 8)
        else scalarAccess s s.fctx s.fseat popAccess as (popAct s a.toNat)
      -- a trap leaves memory, registers and hsp as they were
      match r.2 with
      | .ok => .next ((r.1.onActive (fun k x => { x with hsp := hspAfter isPush n (s.fbank k) })).retire)
      | .trap c v => .next (s.trapSingle c v)
      | .wait w => .next (r.1.waitOn w)

/-- push sA, sB (R154). -/
def execPush (a b : BitVec 5) (s : State) : Host.Outcome State Fault Refusal := stackOp s true a b

/-- pop sA, sB (R154). -/
def execPop (a b : BitVec 5) (s : State) : Host.Outcome State Fault Refusal := stackOp s false a b

end Sys2Proof.Machine
end

