-- ==== Sys2Proof/Machine/VecMem.lean ====
section
/-! DEFINITION. Sys2Proof/Machine/VecMem.lean: vector loads, stores, links and spills (R209-R221), and the mullion bus (R179-R184). -/

namespace Sys2Proof.Machine

/-! ## Addresses (R211) -/

/-- How element addresses are formed. -/
inductive Addressing where
  | linear | strided | indexed
deriving DecidableEq, Repr

/-- The base: aA.VA of the sequencer bank. -/
def vecBase (s : State) (o : MOps) : Word := (aVa ((s.fbank s.seqBank).ra o.a)).setWidth 64

/-- va(i) of element i, local element j of bank b. -/
def vecVa (s : State) (o : MOps) (md : Addressing) (i b j : Nat) : Nat :=
  let base := vecBase s o
  match md with
  | .linear => (base + BitVec.ofNat 64 (i * fmtBits o.t / 8)).toNat
  | .strided => (base + BitVec.ofInt 64 ((i : Int) * (s.seqReg o.s).toInt)).toNat
  | .indexed => (base + BitVec.ofInt 64 (toIntW true 32 (s.elemOf b 32 o.wi.toNat j))).toNat

/-- The index element that an address is formed with, among the pane elements that an instruction consumes (R98, R208). -/
def indexElem (o : MOps) (md : Addressing) (b j : Nat) : List (Nat × Nat × Nat × Nat) := if md = .indexed then [(b, 32, o.wi.toNat, j)] else []

/-- Bytes of an element access (R212). -/
def vecBytes (o : MOps) : Nat := max 1 (fmtBits o.t / 8)

/-- An element's access. Only vld and vst push and pop (R214, R293); a vstc of a replica may name undeclared addresses (R332). -/
def vecAccess (o : MOps) (write fifo disc : Bool) : Access := ⟨vecBytes o, write, !fifo, false, disc, true, false⟩

/-- The base register's ESZ is reserved (R14). -/
def eszCheck (s : State) (o : MOps) : Option (BitVec 8 × Word) :=
  if 6 ≤ aEsz ((s.fbank s.seqBank).ra o.a) then some (0x01, o.a.setWidth 64) else none

/-! ## One access of an element -/

/-- The panes of the element instructions of the convoy, and of one instruction. -/
def operandPanes (s : State) (v : VInfo) : List Nat :=
  v.reads ++ v.writes ++ ((s.fpart.convoy.map (fun c => c.elems.flatMap (fun p =>
    ((vinfo p.2).map (fun x => x.reads ++ x.writes)).getD []))).getD [])

/-- An access that meets the claim of a pane of the issuing part that its convoy names: eviction serves it and the pane is reopened for what
follows (R73-R75, R151). While others wait for the sg, it waits with them in the order of arrival. -/
def withOwnClaim {α : Type} (s : State) (keep : List Nat) (pa : Nat) (f : State → Res (α × State)) : Res (α × State) :=
  match claimOf s pa with
  | some (.claim c b g) =>
    let p := s.pane c b g
    if c = s.focus.core ∧ s.active.contains b ∧ keep.contains g ∧ p.isOpen ∧ p.st ≠ .writing ∧ p.pins = 0 ∧
        s.waits.arrivals.all (fun x => x.1 != (c, b, g) || x.2 == .part s.focus) then
      (f (s.evict c b g)).andThen (fun r => .ok (r.1, r.2.modBank c b (fun x => x.unparkPane g)))
    else f s
  | _ => f s

/-- A check's or an access's failure at element i. A load that has processed an element in this execution cuts the phase where it leaves the
SCRATCH banks (R214). -/
def elemFail (s : State) (i b va : Nat) (load : Bool) (k : BitVec 8) : Elem :=
  if k = 0x13 && load && s.fpart.loaded then .stop (.cut i) else .stop (.trap k (addrTval va b))

/-- The load has processed an element. -/
def State.noteLoaded (s : State) : State := s.modPart s.focus (fun p => { p with loaded := true })

/-- Read one element where its address leads: its encoding. -/
def readElem (s : State) (o : MOps) (keep : List Nat) (p : Spot) (i : Nat) : Res (Nat × State) :=
  withOwnClaim s keep p.pa (fun s' =>
    (readMarked s' p (vecBytes o)).andThen (fun r =>
      .ok (if fmtBits o.t = 4 then r.1 / (if i % 2 = 0 then 1 else 16) % 16 else r.1, r.2)))

/-- The byte that a nibble store replaces: that of memory, or of a FIFO's tail. -/
def oldByte (s : State) (p : Spot) : Nat :=
  if regionOf p.pa = .sram ∧ modeAt s p.pa = 2 then
    ((s.sram (sramQuad p.pa) (sramBankNo p.pa)).byte (s.sram (sramQuad p.pa) (sramBankNo p.pa)).tail).toNat
  else s.peek p.pa 1

/-- What an element's store writes: the element, or its nibble beside the byte's other one (R213). -/
def storeValue (s : State) (o : MOps) (p : Spot) (i v : Nat) : Nat :=
  if fmtBits o.t = 4 then
    (if i % 2 = 0 then oldByte s p / 16 * 16 + v % 16 else oldByte s p % 16 + v % 16 * 16)
  else v

/-- Write one element where its address leads. -/
def writeElem (s : State) (o : MOps) (keep : List Nat) (b va : Nat) (p : Spot) (i v : Nat) : Res State :=
  (withOwnClaim s keep p.pa (fun s' =>
    (writeSpot s' (s'.who b) va p (storeValue s' o p i v) (vecBytes o)).andThen (fun x => .ok ((), x)))).andThen (fun r => .ok r.2)

/-- The outcome of an access. -/
def elemOut (s : State) (i b va : Nat) (load : Bool) (r : Res State) : Elem :=
  match r with
  | .ok s' => .ok s'
  | .bad _ k => elemFail s i b va load k
  | .wait w => .stop (.wait w)

/-! ## Poison that a whole store covers (R350) -/

/-- The half-bytes that a store of n bytes at pa writes, for element i of a format of 4 bits one of the two (R213). -/
def halfBytes (bits i pa n : Nat) : Nat × Nat := if bits = 4 then (2 * pa + i % 2, 1) else (2 * pa, 2 * n)

/-- A store of the element phase has written half-bytes; none are kept while no granule is poisoned. -/
def State.noteStored (s : State) (x : Nat × Nat) : State :=
  if s.poison.any (·.2) then s.modPart s.focus (fun p => { p with stored := x :: p.stored }) else s

/-- Granules whose half-bytes the store has all written lose their poison. -/
def State.clearCovered (s : State) : State :=
  let spans := s.fpart.stored
  (s.poison.filter (·.2)).foldl
    (fun x g => if (List.range 128).all (fun k => spans.any (fun p => decide (p.1 ≤ g.1 * 128 + k) && decide (g.1 * 128 + k < p.1 + p.2)))
      then x.setPoison (g.1 * 64) false else x) s

/-! ## Loads and stores (R215) -/

/-- What a load reads from: a linked one the newest bytes, since every write after its read breaks the link (R219). -/
def State.readsFrom (s : State) (link : Bool) (pa n : Nat) : State := if link then s.orderByte s.focus.core s.focus.base 0 pa n else s

/-- A vector load. `link` records a link for each element (R217). -/
def loadOp (s : State) (v : VInfo) (o : MOps) (md : Addressing) (fifo link : Bool) : ElemOp :=
  { elementOp s v (fun i b j s' =>
      let va := vecVa s' o md i b j
      unlessPoison s' (indexElem o md b j)
        (elemOut s' i b va true
          ((checkAccess s' s'.fctx s'.fseat (vecAccess o false fifo false) va).andThen (fun p =>
            (readElem (s'.readsFrom link p.pa (vecBytes o)) o (operandPanes s' v) p i).andThen (fun r =>
              let s1 := (r.2.putElem b (fmtBits o.t) o.w.toNat j (plain r.1)).noteLoaded
              .ok (if link && decide (j < 4096) then
                { s1 with linked := ⟨s1.focus.core, b, j, va, p.pa, vecBytes o⟩ ::
                    s1.linked.filter (fun e => !(e.core == s1.focus.core && e.bank == b && e.j == j)) }
                else s1)))))) o.m o.n with
    check := eszCheck s o
    act := .ok }

/-- A vector store. A poisoned source or index element is found before the address is checked (DESIGN CHOICE, log 101). -/
def storeOp (s : State) (v : VInfo) (o : MOps) (md : Addressing) (fifo : Bool) : ElemOp :=
  { elementOp s v (fun i b j s' =>
      let va := vecVa s' o md i b j
      unlessPoison s' ((b, fmtBits o.t, o.w.toNat, j) :: indexElem o md b j)
        (elemOut s' i b va false
          ((checkAccess s' s'.fctx s'.fseat (vecAccess o true fifo true) va).andThen (fun p =>
            (writeElem s' o (operandPanes s' v) b va p i (s'.elemOf b (fmtBits o.t) o.w.toNat j)).andThen (fun x =>
              .ok (x.noteStored (halfBytes (fmtBits o.t) i p.pa (vecBytes o)))))))) o.m o.n with
    check := eszCheck s o
    fin := fun _ s' => s'.clearCovered }


/-- vld (R215). -/
def vldOp (o : MOps) (s : State) : ElemOp :=
  loadOp s (mInfo o false true false none) o .linear true false

/-- vld (R215). -/
def execVld (o : MOps) (s : State) : Host.Outcome State Fault Refusal := elemAlone (vldOp o) s

/-- vlds (R215). -/
def vldsOp (o : MOps) (s : State) : ElemOp :=
  loadOp s (mInfo o true true false none) o .strided false false

/-- vlds (R215). -/
def execVlds (o : MOps) (s : State) : Host.Outcome State Fault Refusal := elemAlone (vldsOp o) s

/-- vldx (R215). -/
def vldxOp (o : MOps) (s : State) : ElemOp :=
  loadOp s (mInfo o true true true none) o .indexed false false

/-- vldx (R215). -/
def execVldx (o : MOps) (s : State) : Host.Outcome State Fault Refusal := elemAlone (vldxOp o) s

/-- vst (R215). -/
def vstOp (o : MOps) (s : State) : ElemOp :=
  storeOp s (mInfo o false false false none) o .linear true

/-- vst (R215). -/
def execVst (o : MOps) (s : State) : Host.Outcome State Fault Refusal := elemAlone (vstOp o) s

/-- vsts (R215). -/
def vstsOp (o : MOps) (s : State) : ElemOp :=
  storeOp s (mInfo o true false false none) o .strided false

/-- vsts (R215). -/
def execVsts (o : MOps) (s : State) : Host.Outcome State Fault Refusal := elemAlone (vstsOp o) s

/-- vstx (R215). -/
def vstxOp (o : MOps) (s : State) : ElemOp :=
  storeOp s (mInfo o true false true none) o .indexed false

/-- vstx (R215). -/
def execVstx (o : MOps) (s : State) : Host.Outcome State Fault Refusal := elemAlone (vstxOp o) s

/-! ## vstb (R216) -/

/-- The bytes of element i that vstb stores: offsets from the base. -/
def vstbBytes (s : State) (o : MOps) (i : Nat) : List Nat :=
  (upFrom (i * vecBytes o) (vecBytes o)).filter (fun k => decide (k < (s.seqReg o.s).toNat))

/-- The address of byte k of the image. -/
def vstbVa (s : State) (o : MOps) (k : Nat) : Nat := (vecBase s o + BitVec.ofNat 64 k).toNat

def byteAccess : Access := ⟨1, true, true, false, true, true, false⟩

/-- Check every byte of an element. -/
def vstbChecks (s : State) (o : MOps) : List Nat → Option (Nat × Res Spot)
  | [] => none
  | k :: ks =>
    match checkAccess s s.fctx s.fseat byteAccess (vstbVa s o k) with
    | .ok _ => vstbChecks s o ks
    | r => some (vstbVa s o k, r)

/-- The wait that a byte's claim asks for, when it is not the part's own. -/
def vstbPut (o : MOps) (keep : List Nat) (b v i : Nat) : List Nat → State → Res State
  | [], s => .ok s
  | k :: ks, s =>
    (checkAccess s s.fctx s.fseat byteAccess (vstbVa s o k)).andThen (fun p =>
      ((withOwnClaim s keep p.pa (fun s' =>
        (writeSpot s' (s'.who b) (vstbVa s o k) p (v / 256 ^ (k - i * vecBytes o) % 256) 1).andThen (fun x => .ok ((), x)))).andThen
          (fun r => .ok (r.2.noteStored (halfBytes 8 i p.pa 1)))).andThen (vstbPut o keep b v i ks))


/-- vstb (R216): each element whole or not at all. -/
def vstbOp (o : MOps) (s : State) : ElemOp :=
  let v := { mInfo o true false false none with ew := false }
  { elementOp s v (fun i b j s' =>
      let v0 := s'.elemOf b (fmtBits o.t) o.w.toNat j
      if (vstbBytes s' o i).isEmpty then .ok s'
      else
        unlessPoison s' [(b, fmtBits o.t, o.w.toNat, j)]
          (match vstbChecks s' o (vstbBytes s' o i) with
           | some (va, .bad _ k) => .stop (.trap k (addrTval va b))
           | some (_, .wait w) => .stop (.wait w)
           | _ => elemOut s' i b (vstbVa s' o (i * vecBytes o)) false (vstbPut o (operandPanes s' v) b v0 i (vstbBytes s' o i) s'))) o.m o.n with
    check := eszCheck s o
    fin := fun _ s' => s'.clearCovered }

/-- vstb (R216): each element whole or not at all. -/
def execVstb (o : MOps) (s : State) : Host.Outcome State Fault Refusal := elemAlone (vstbOp o) s

/-! ## Links (R217, R218) -/

/-- Clear the link tables of the part's banks. -/
def State.clearLinks (s : State) : State := s.dropLinks s.focus.core s.active


/-- The operands of a vldl. -/
def vldlOps : Instr → Option MOps
  | .vldl o => some o
  | _ => none

/-- This is the first vldl of the convoy (R217); two with the same operands record the same links. -/
def firstVldl (p : Part) (o : MOps) : Bool :=
  match p.convoy.bind (fun c => c.elems.findSome? (fun x => vldlOps x.2)) with
  | some o' => o' == o
  | none => true

/-- vldl (R217): the first of a convoy clears the link tables before its first element. -/
def vldlOp (o : MOps) (s : State) : ElemOp :=
  let x := loadOp s (mInfo o true true true none) o .indexed false true
  let fresh := s.fpart.xidx == s.fpart.xidxNow && firstVldl s.fpart o
  { x with step := fun i s' => x.step i (if fresh && i == x.start then s'.clearLinks else s') }

/-- vldl (R217). -/
def execVldl (o : MOps) (s : State) : Host.Outcome State Fault Refusal := elemAlone (vldlOp o) s

/-- Entry j of a bank's link table. -/
def State.linkAt (s : State) (b j : Nat) : Option LinkEntry :=
  s.linked.find? (fun e => e.core == s.focus.core && e.bank == b && e.j == j)

/-- Entry j becomes invalid. -/
def State.unlink (s : State) (b j : Nat) : State :=
  { s with linked := s.linked.filter (fun e => !(e.core == s.focus.core && e.bank == b && e.j == j)) }

/-- Every link that overlaps n bytes becomes invalid (R218). -/
def State.breakLinks (s : State) (pa n : Nat) : State := { s with linked := s.linked.filter (fun e => !overlaps e.pa e.size pa n) }

/-- A vstc element whose link does not hold: its step at the home waits for claims as the store would (R151, R213, R218). -/
def vstcFail (s : State) (keep : List Nat) (va : Nat) (p : Spot) (go : State → State) : Res State :=
  match viewOf s.fctx va with
  | some _ =>
    match heldAt s (homeSpot s.fctx va p).pa with
    | some w => .wait w
    | none => .ok (go s)
  | none =>
    (withOwnClaim s keep p.pa (fun s' =>
      match claimOf s' p.pa with
      | some w => .wait w
      | none => .ok ((), go s'))).andThen (fun r => .ok r.2)

/-- A vstc element that performs: the store when the link holds, and the md bit (R218). -/
def vstcPerform (s : State) (o : MOps) (keep : List Nat) (b j va : Nat) (p : Spot) (i v : Nat) : Res State :=
  match s.linkAt b j with
  | some e =>
    if e.va = va ∧ e.size = vecBytes o then
      ((match viewOf s.fctx va with
        | some _ => writeHome s (s.who b) va p v (vecBytes o)
        | none => writeElem s o keep b va p i v)).andThen (fun s1 =>
          .ok (((((s1.breakLinks p.pa (vecBytes o)).unlink b j).putMask b (o.s.toNat % 8) j true 0).shareEcho 1).noteStored
            (halfBytes (fmtBits o.t) i p.pa (vecBytes o))))
    else vstcFail s keep va p (fun s => ((s.unlink b j).putMask b (o.s.toNat % 8) j false 0).shareEcho 0)
  | none => vstcFail s keep va p (fun s => (s.putMask b (o.s.toNat % 8) j false 0).shareEcho 0)

/-- A vstc element of a follower: its md bit comes by echo (R332). -/
def vstcFollow (s : State) (o : MOps) (b j : Nat) : Res State :=
  (echoedRead s (.wait .echo)).andThen (fun r => .ok ((r.2.unlink b j).putMask b (o.s.toNat % 8) j (r.1 == 1) 0))

/-- The record of a vstc element as it performs (R335). -/
def State.noteRecord (s : State) (va v : Nat) : State :=
  if s.fseat.red.isSome then s.modPart s.focus (fun p => { p with recs := p.recs ++ [[BitVec.ofNat 64 va, 0x5008, BitVec.ofNat 64 v, 0]] }) else s

/-- This replica performs its release access (R332, R337). -/
def State.performs (s : State) : Bool := (s.fseat.red.map (·.performer)).getD true


/-- vstc (R218). -/
def vstcOp (o : MOps) (s : State) : ElemOp :=
  let v := mInfo o true false true (some (o.s.toNat % 8))
  { elementOp s v (fun i b j s' =>
      let va := vecVa s' o .indexed i b j
      unlessPoison s' ((b, fmtBits o.t, o.w.toNat, j) :: indexElem o .indexed b j)
        (elemOut s' i b va false
          ((checkAccess s' s'.fctx s'.fseat (vecAccess o true false false) va).andThen (fun p =>
            (if s'.performs then
              vstcPerform s' o (operandPanes s' v) b j va p i (s'.elemOf b (fmtBits o.t) o.w.toNat j)
            else vstcFollow s' o b j).andThen (fun x => .ok (x.noteRecord va (s'.elemOf b (fmtBits o.t) o.w.toNat j))))))) o.m o.n with
    check := eszCheck s o
    fin := fun _ s' => s'.clearCovered
    release := true }

/-- vstc (R218). -/
def execVstc (o : MOps) (s : State) : Host.Outcome State Fault Refusal := elemAlone (vstcOp o) s

/-! ## Spilling (R220, R221) -/

/-- The base of a frame must be a multiple of 64 (R212); with evl at or below xidx nothing happens (R187; DEDUCED, log 112). -/
def frameCheck (s : State) (v : VInfo) (o : MOps) : Option (BitVec 8 × Word) :=
  match eszCheck s o with
  | some x => some x
  | none =>
    if s.fpart.xidx < s.evlOf (v.l s.fseat) ∧ (vecBase s o).toNat % 64 ≠ 0 then some (0x12, vecBase s o) else none


/-- vspill (R221). -/
def vspillOp (o : MOps) (s : State) : ElemOp :=
  let v := mInfo o false false false none
  { storeOp s v o .linear false with check := frameCheck s v o }

/-- vspill (R221). -/
def execVspill (o : MOps) (s : State) : Host.Outcome State Fault Refusal := elemAlone (vspillOp o) s

/-- Free values in elements a to a + n - 1 of a vector (R221). -/
def freeElems (f bits w l a : Nat) : Nat → State → State
  | 0, s => s
  | n + 1, s =>
    freeElems f bits w l (a + 1) n
      (s.putElem (s.fseat.base + a / l) bits w (a % l) (plain (freeNumber f (8 * a) (max 1 (bits / 8)) % 2 ^ bits)))

/-- The elements that vfill may change beside those it loads (R221): free values up to the end of the 64-byte granule of the frame that
holds element evl - 1. -/
def fillRest (v : VInfo) (w evl : Nat) (s : State) : State :=
  let bits := fmtBits v.t
  let l := v.l s.fseat
  let n := 512 / bits
  if evl % n = 0 ∨ !s.active.contains (s.fseat.base + (evl - 1) / l) then s
  else
    let f := s.freeBytes
    freeElems f.1 bits w l evl (n - evl % n) f.2

/-- vfill (R221): the rest of its last granule gets free values. -/
def vfillOp (o : MOps) (s : State) : ElemOp :=
  let v := mInfo o false true false none
  let evl := s.evlOf (v.l s.fseat)
  { loadOp s v o .linear false false with
    check := frameCheck s v o
    fin := fun e s' => if s.fpart.xidx < evl ∧ evl ≤ e then fillRest v o.w.toNat evl s' else s' }

/-- vfill (R221). -/
def execVfill (o : MOps) (s : State) : Host.Outcome State Fault Refusal := elemAlone (vfillOp o) s

/-- The bytes of a spill frame (R220). -/
def frameBytes (evl bits : Nat) : Nat := ((evl * bits + 7) / 8 + 63) / 64 * 64

/-- vlq (R220): a single instruction. -/
def execVlq (o : MOps) (s : State) : Host.Outcome State Fault Refusal :=
  s.setReg o.s (fun _ => BitVec.ofNat 64 (frameBytes (s.evlOf (s.fseat.local_ (fmtBits o.t) (groupSize o.g))) (fmtBits o.t)))

/-! ## The mullion bus (R179-R183) -/

/-- The patterns of R180. -/
inductive Shuf where
  | rot | xor | rev | bcast
deriving DecidableEq, Repr

/-- The source offset of destination offset d in a sash of sz banks (R180). -/
def Shuf.source (p : Shuf) (k sz d : Nat) : Nat :=
  match p with
  | .rot => (d + sz - k % sz) % sz
  | .xor => d ^^^ k % sz
  | .rev => sz - 1 - d
  | .bcast => k % sz

/-- Copy a word from one bank's pane to another's; poison goes with its granule (R182). -/
def copyWord (src : PaneImage) (dst : PaneImage) (p : Nat) : PaneImage :=
  let d := dst.setElem 32 p (src.elem 32 p)
  if src.poisonAt (4 * p) then { d with poison := put d.poison (p / 16) (some 0) } else d

/-- rshuf as an element operation on the words of the visible pane (R180). -/
def rshufOp (p : Shuf) (wd : BitVec 4) (ws : BitVec 3) (k : Nat) (s : State) : ElemOp :=
  let t := s.fseat
  let e := t.paneSize / 4
  let evl := s.evlOf e
  let src (d : Nat) : Nat := t.base + p.source k t.size d
  { start := s.fpart.xidx
    evl := evl
    whole := false
    uses := if evl ≤ s.fpart.xidx then [] else
      (banksIn s e s.fpart.xidx evl).flatMap (fun b =>
        (b, wd.toNat, true) :: (if s.active.contains (src (b - t.base)) then [(src (b - t.base), ws.toNat, false)] else []))
    check := none
    step := fun i s' =>
      let b := t.base + i / e
      let q := src (i / e)
      if s'.active.contains b && s'.active.contains q then
        let from_ := ((s'.fbank q).pane ws.toNat).img
        .ok (s'.modBank s'.focus.core b (fun x =>
          let d := x.pane wd.toNat
          x.setPane wd.toNat ({ d with img := copyWord from_ d.img (i % e) } : Pane).dirtied))
      else .ok s'
    act := .ok
    fin := fun _ s' => s'
    writesMask := false
    release := false
    grain := 1
    back := fun e => e }

/-- The parameter of a pattern: s(S) of the sequencer bank. -/
def shufParam (s : State) (k : BitVec 5) : Nat := (s.seqReg k).toNat

/-- rshuf.rot (R180). -/
def execRshufRot (wd : BitVec 4) (ws : BitVec 3) (k : BitVec 5) (s : State) : Host.Outcome State Fault Refusal :=
  elemAlone (rshufOp .rot wd ws (shufParam s k)) s

/-- rshuf.xor (R180). -/
def execRshufXor (wd : BitVec 4) (ws : BitVec 3) (k : BitVec 5) (s : State) : Host.Outcome State Fault Refusal :=
  elemAlone (rshufOp .xor wd ws (shufParam s k)) s

/-- rshuf.rev (R180). -/
def execRshufRev (wd : BitVec 4) (ws : BitVec 3) (s : State) : Host.Outcome State Fault Refusal :=
  elemAlone (rshufOp .rev wd ws 0) s

/-- rshuf.bcast (R180). -/
def execRshufBcast (wd : BitVec 4) (ws : BitVec 3) (k : BitVec 5) (s : State) : Host.Outcome State Fault Refusal :=
  elemAlone (rshufOp .bcast wd ws (shufParam s k)) s


/-- The element instructions (R96) as operations of an element phase; none for a single instruction. -/
def elemOpOf : Instr → Option (State → ElemOp)
  | .vadd o => some (vaddOp o)
  | .vsub o => some (vsubOp o)
  | .vmul o => some (vmulOp o)
  | .vfma o => some (vfmaOp o)
  | .vfms o => some (vfmsOp o)
  | .vfnma o => some (vfnmaOp o)
  | .vmin o => some (vminOp o)
  | .vmax o => some (vmaxOp o)
  | .vabs o => some (vabsOp o)
  | .vneg o => some (vnegOp o)
  | .vdiv o => some (vdivOp o)
  | .vsqrt o => some (vsqrtOp o)
  | .vrcp o => some (vrcpOp o)
  | .vrsq o => some (vrsqOp o)
  | .vexp2 o => some (vexp2Op o)
  | .vlog2 o => some (vlog2Op o)
  | .vmulh o => some (vmulhOp o)
  | .vadds o => some (vaddsOp o)
  | .vsubs o => some (vsubsOp o)
  | .vand o => some (vandOp o)
  | .vor o => some (vorOp o)
  | .vxor o => some (vxorOp o)
  | .vnot o => some (vnotOp o)
  | .vandn o => some (vandnOp o)
  | .vsll o => some (vsllOp o)
  | .vsrl o => some (vsrlOp o)
  | .vsra o => some (vsraOp o)
  | .vfsl o => some (vfslOp o)
  | .vfsr o => some (vfsrOp o)
  | .vclz o => some (vclzOp o)
  | .vpopc o => some (vpopcOp o)
  | .vcmpEq o => some (vcmpEqOp o)
  | .vcmpNe o => some (vcmpNeOp o)
  | .vcmpLt o => some (vcmpLtOp o)
  | .vcmpLe o => some (vcmpLeOp o)
  | .vcmpGt o => some (vcmpGtOp o)
  | .vcmpGe o => some (vcmpGeOp o)
  | .mand o => some (mandOp o)
  | .mor o => some (morOp o)
  | .mxor o => some (mxorOp o)
  | .mnot o => some (mnotOp o)
  | .mpopc o => some (mpopcOp o)
  | .mfirst o => some (mfirstOp o)
  | .vsel o => some (vselOp o)
  | .vmov o => some (vmovOp o)
  | .vbcast o => some (vbcastOp o)
  | .vslideUp o => some (vslideUpOp o)
  | .vslideDn o => some (vslideDnOp o)
  | .vcompress o => some (vcompressOp o)
  | .vidx o => some (vidxOp o)
  | .vcvt o => some (vcvtOp o)
  | .vwfma o => some (vwfmaOp o)
  | .vdot o => some (vdotOp o)
  | .vqenc o => some (vqencOp o)
  | .vqdec o => some (vqdecOp o)
  | .vredSum o => some (vredSumOp o)
  | .vredMax o => some (vredMaxOp o)
  | .vredMin o => some (vredMinOp o)
  | .vredAnd o => some (vredAndOp o)
  | .vredOr o => some (vredOrOp o)
  | .vgmax o => some (vgmaxOp o)
  | .vscan o => some (vscanOp o)
  | .vld o => some (vldOp o)
  | .vlds o => some (vldsOp o)
  | .vldx o => some (vldxOp o)
  | .vst o => some (vstOp o)
  | .vsts o => some (vstsOp o)
  | .vstx o => some (vstxOp o)
  | .vstb o => some (vstbOp o)
  | .vldl o => some (vldlOp o)
  | .vstc o => some (vstcOp o)
  | .vspill o => some (vspillOp o)
  | .vfill o => some (vfillOp o)
  | .rshufRot wd ws k => some (fun s => rshufOp .rot wd ws (shufParam s k) s)
  | .rshufXor wd ws k => some (fun s => rshufOp .xor wd ws (shufParam s k) s)
  | .rshufRev wd ws => some (rshufOp .rev wd ws 0)
  | .rshufBcast wd ws k => some (fun s => rshufOp .bcast wd ws (shufParam s k) s)
  | _ => none

end Sys2Proof.Machine
end

