-- ==== Sys2Proof/Machine/Convoy.lean ====
section
/-! DEFINITION. Sys2Proof/Machine/Convoy.lean: instruction lines (R85-R90), convoys (R96-R104) and their checks at decode (R95,
R99, R100): opening the convoy at a part's pc. -/

namespace Sys2Proof.Machine

/-! ## Unit classes (R96) -/

inductive UnitClass where
  | va | vb | vm | vs | rc | sc | en | cf
deriving DecidableEq, Repr

/-- The class of an instruction (R96); a step of the part has none. -/
def unitClass (i : Instr) : Option UnitClass :=
  match i with
  | .nop | .rel | .echo => some .sc
  | _ =>
    (encode i).map fun e =>
      match e.op.toNat with
      | 0x48 | 0x4B => .va
      | 0x49 | 0x4A | 0x4C | 0x4D => .vb
      | 0x14 | 0x15 | 0x16 | 0x17 | 0x50 => .vm
      | 0x41 => .vs
      | 0x40 => .rc
      | 0x0C | 0x0D | 0x10 | 0x11 | 0x12 | 0x13 | 0x18 | 0x19 | 0x1A | 0x1B => .sc
      | 0x58 | 0x59 | 0x5A | 0x5C | 0x5E => .en
      | _ => .cf

/-- An element instruction (R96). -/
def isElement (i : Instr) : Bool := (elemOpOf i).isSome

/-- An element instruction that is element-wise (R98). -/
def isElementWise (i : Instr) : Bool := ((vinfo i).map (·.ew)).getD false

/-! ## What an instruction reads, writes and names (R99) -/

/-- Panes with their element width and group size, masks with theirs, registers. -/
structure Uses where
  pr : List (Nat × Nat × Nat)
  pw : List (Nat × Nat × Nat)
  mr : List Nat
  mw : List Nat
  mg : Nat × Nat
  sr : List Nat
  sw : List Nat
  ar : List Nat
  aw : List Nat
  kr : List Nat
  kw : List Nat
deriving DecidableEq, Repr

def Uses.none : Uses := ⟨[], [], [], [], (1, 1), [], [], [], [], [], []⟩

/-- The panes of a group with their width and size; a companion pane holds bytes. Rule 6 compares the operand's own group size
(DESIGN CHOICE, log 109). -/
def Group0.tagged (x : Group0) : List (Nat × Nat × Nat) :=
  (upFrom x.first (x.size.getD 0)).map (fun p => (p, x.bits, x.size.getD 0)) ++ x.comp.toList.map (fun p => (p, 8, 1))

/-- The uses of a vector instruction's panes and masks. -/
def vUses (v : VInfo) : Uses :=
  { Uses.none with
    pr := v.srcs.flatMap (·.tagged) ++ (if v.readsD then (v.dst.map (·.tagged)).getD [] else []) ++ (v.index.map (·.tagged)).getD []
    pw := (v.dst.map (·.tagged)).getD []
    mr := v.msrcs
    mw := v.mdst.toList
    mg := (v.g, fmtBits v.t) }

/-- sD := f(sA, sB) and the like. -/
def regs (r w : List (BitVec 5)) : Uses := { Uses.none with sr := r.map (·.toNat), sw := w.map (·.toNat) }

/-- The second source of a V-form instruction (R185): register S when SV is 1. -/
def svReads (o : VOps) : List Nat := if o.sv = 1 then [o.s.toNat] else []

/-- The token registers of an E-form instruction (R224). -/
def eUses (o : EOps) (u : Uses) : Uses :=
  { u with kw := if o.dt then [] else [o.kd.toNat], kr := if o.af then [o.ka.toNat] else [] }

/-- The count register of an E-form instruction and those after it. -/
def counts (o : EOps) (n : Nat) : List Nat := upFrom o.c.toNat n

/-- The pane groups of mmma's options (R239). -/
def mmmaGroups (o : EOps) : List (Nat × Nat × Nat) :=
  let g (w gc : Nat) : List (Nat × Nat × Nat) := (upFrom w (2 ^ gc)).map (fun p => (p, 0, 2 ^ gc))
  g (o.opts.extractLsb' 3 4).toNat (o.opts.extractLsb' 11 2).toNat ++ g (o.opts.extractLsb' 7 4).toNat (o.opts.extractLsb' 13 2).toNat

/-- The uses of an instruction. Of the row commands, act, actz, pre and reopen write their pane (DESIGN CHOICE, log 109). -/
def usesOf (i : Instr) : Uses :=
  match i with
  | .jl d _ => regs [] [d]
  | .jr a => regs [a] []
  | .jlr d a => regs [a] [d]
  | .bEq a b _ | .bNe a b _ | .bLt a b _ | .bGe a b _ | .bLtu a b _ | .bGeu a b _ => regs [a, b] []
  | .bany _ a b _ | .ball _ a b _ | .split _ _ a b _ => regs [a, b] []
  | .getc d _ | .rnd d => regs [] [d]
  | .setc d _ => regs [d] []
  | .add d a b | .sub d a b | .mul d a b | .mulh d a b | .mulhu d a b | .div d a b | .divu d a b | .rem d a b | .remu d a b
  | .and d a b | .or d a b | .xor d a b | .andn d a b | .sll d a b | .srl d a b | .sra d a b | .rol d a b | .ror d a b
  | .slt d a b | .sltu d a b | .min d a b | .max d a b | .minu d a b | .maxu d a b => regs [a, b] [d]
  | .fsl d a b | .fsr d a b | .csel d a b => regs [a, b, d] [d]
  | .clz d a | .ctz d a | .popc d a | .sextB d a | .sextH d a | .sextW d a | .zextB d a | .zextH d a | .zextW d a
  | .bswap d a => regs [a] [d]
  | .addi d a _ | .andi d a _ | .ori d a _ | .xori d a _ | .slli d a _ | .srli d a _ | .srai d a _ | .slti d a _
  | .sltiu d a _ => regs [a] [d]
  | .li d _ => regs [] [d]
  | .lih d _ => regs [d] [d]
  | .ldB d a _ | .ldBu d a _ | .ldH d a _ | .ldHu d a _ | .ldW d a _ | .ldWu d a _ | .ldD d a _ | .ldAcqW d a _
  | .ldAcqD d a _ => regs [a] [d]
  | .stB d a _ | .stH d a _ | .stW d a _ | .stD d a _ | .stRelW d a _ | .stRelD d a _ => regs [a, d] []
  | .amoAdd d a b | .amoAnd d a b | .amoOr d a b | .amoXor d a b | .amoMin d a b | .amoMax d a b | .amoMinu d a b
  | .amoMaxu d a b | .amoSwap d a b | .amoFadd d a b => regs [a, b] [d]
  | .amoCas d a b => regs [a, b, d] [d]
  | .push a b => { Uses.none with sr := upFrom a.toNat (b.toNat - a.toNat + 1) }
  | .pop a b => { Uses.none with sw := upFrom a.toNat (b.toNat - a.toNat + 1) }
  | .faddF32 d a b | .fsubF32 d a b | .fmulF32 d a b | .fdivF32 d a b | .fminF32 d a b | .fmaxF32 d a b | .feqF32 d a b
  | .fltF32 d a b | .fleF32 d a b | .faddF64 d a b | .fsubF64 d a b | .fmulF64 d a b | .fdivF64 d a b | .fminF64 d a b
  | .fmaxF64 d a b | .feqF64 d a b | .fltF64 d a b | .fleF64 d a b => regs [a, b] [d]
  | .fmaF32 d a b | .fmsF32 d a b | .fmaF64 d a b | .fmsF64 d a b => regs [a, b, d] [d]
  | .fsqrtF32 d a | .fclassF32 d a | .fnegF32 d a | .fabsF32 d a | .fsqrtF64 d a | .fclassF64 d a | .fnegF64 d a
  | .fabsF64 d a | .fcvtF32I64 d a | .fcvtF32N64 d a | .fcvtI64F32 d a | .fcvtN64F32 d a | .fcvtF64I64 d a
  | .fcvtF64N64 d a | .fcvtI64F64 d a | .fcvtN64F64 d a | .fcvtF64F32 d a | .fcvtF32F64 d a | .fcvtBf16F32 d a
  | .fcvtF32Bf16 d a => regs [a] [d]
  | .amov d a => { Uses.none with ar := [a.toNat], aw := [d.toNat] }
  | .aset d a _ => { regs [a] [] with aw := [d.toNat] }
  | .aadd d a b => { regs [b] [] with ar := [a.toNat], aw := [d.toNat] }
  | .amovs d a => { regs [] [d] with ar := [a.toNat] }
  | .aaddi d a _ => { Uses.none with ar := [a.toNat], aw := [d.toNat] }
  | .smine o =>
    { Uses.none with
      sr := [o.c.toNat], sw := [o.d.toNat, o.c.toNat]
      ar := (sminePtrs o).map (·.toNat), aw := (sminePtrs o).map (·.toNat) }
  | .act n a => { Uses.none with pw := [(n.toNat, 0, 1)], ar := [a.toNat] }
  | .actz n | .pre n => { Uses.none with pw := [(n.toNat, 0, 1)] }
  | .reopen n _ => { Uses.none with pw := [(n.toNat, 0, 1)] }
  | .wb n | .rfsh n => { Uses.none with pr := [(n.toNat, 0, 1)] }
  | .shut n _ => { Uses.none with pr := [(n.toNat, 0, 1)] }
  | .wbto n a => { Uses.none with pr := [(n.toNat, 0, 1)], ar := [a.toNat] }
  | .rcopy n a src => { regs [src] [] with pr := [(n.toNat, 0, 1)], ar := [a.toNat] }
  | .pstat d n => { regs [] [d] with pr := [(n.toNat, 0, 1)] }
  | .rshufRot wd ws k | .rshufXor wd ws k | .rshufBcast wd ws k =>
    { regs [k] [] with pr := [(ws.toNat, 32, 1)], pw := [(wd.toNat, 32, 1)] }
  | .rshufRev wd ws => { Uses.none with pr := [(ws.toNat, 32, 1)], pw := [(wd.toNat, 32, 1)] }
  | .vadd o | .vsub o | .vmul o | .vfma o | .vfms o | .vfnma o | .vmin o | .vmax o | .vdiv o | .vmulh o | .vadds o | .vsubs o
  | .vand o | .vor o | .vxor o | .vandn o | .vsll o | .vsrl o | .vsra o | .vfsl o | .vfsr o | .vsel o | .vslideUp o
  | .vslideDn o | .vgmax o | .vbcast o | .vcmpEq o | .vcmpNe o | .vcmpLt o | .vcmpLe o | .vcmpGt o | .vcmpGe o =>
    { vUses ((vinfo i).getD (vBase o false)) with sr := svReads o }
  | .mpopc o | .mfirst o | .vredSum o | .vredMax o | .vredMin o | .vredAnd o | .vredOr o =>
    { vUses ((vinfo i).getD (vBase o false)) with sw := [o.s.toNat] }
  | .vabs o | .vneg o | .vsqrt o | .vrcp o | .vrsq o | .vexp2 o | .vlog2 o | .vnot o | .vclz o | .vpopc o | .mand o | .mor o
  | .mxor o | .mnot o | .vmov o | .vcompress o | .vcvt o | .vwfma o | .vdot o | .vqenc o | .vqdec o | .vscan o =>
    vUses ((vinfo i).getD (vBase o false))
  | .vidx o => vUses ((vinfo i).getD ⟨o.t, 1, false, true, true, none, [], false, none, none, [], true, false⟩)
  | .vld o | .vldx o | .vst o | .vstx o | .vldl o | .vstc o | .vspill o | .vfill o =>
    { vUses ((vinfo i).getD (mInfo o false false false none)) with ar := [o.a.toNat] }
  | .vlds o | .vsts o | .vstb o =>
    { vUses ((vinfo i).getD (mInfo o false false false none)) with ar := [o.a.toNat], sr := [o.s.toNat] }
  | .vlq o => regs [] [o.s]
  | .cpy o | .rsct o => eUses o { Uses.none with ar := [o.da.toNat, o.sa.toNat], sr := counts o 1 }
  | .cpy2d o => eUses o { Uses.none with ar := [o.da.toNat, o.sa.toNat], sr := counts o 4 }
  | .gath o => eUses o { Uses.none with ar := [o.da.toNat, o.sa.toNat], sr := counts o 2 }
  | .nmo o => eUses o { Uses.none with ar := [o.da.toNat, o.sa.toNat], sr := counts o (if o.opts.extractLsb' 0 2 = 2 then 2 else 1) }
  | .coll o | .red o | .tspawn o | .launch o => eUses o { Uses.none with ar := [o.sa.toNat] }
  | .mmma o => eUses o { Uses.none with pr := mmmaGroups o }
  | .mdrain o =>
    eUses o { Uses.none with ar := [o.da.toNat], sr := counts o 1, mr := maskRead (o.opts.extractLsb' 3 3) }
  | .mattach d a => regs [a] [d]
  | .mshape a => regs [a] []
  | .kwait k _ _ | .kcancel k => { Uses.none with kr := [k.toNat], kw := [k.toNat] }
  | .kwaitNt d k _ | .kdetach d k => { regs [] [d] with kr := [k.toNat], kw := [k.toNat] }
  | .kpoll d k | .kinfo d k _ => { regs [] [d] with kr := [k.toNat] }
  | .kadopt k a => { regs [a] [] with kw := [k.toNat] }
  | .kprio k a => { regs [a] [] with kr := [k.toNat] }
  | .ipost _ a | .iwait _ a => regs [a] []
  | .await v a => regs [v, a] [v]
  | .tlbinv a b => regs [a, b] []
  | _ => Uses.none

/-- Two lists share a member. -/
def meets (a b : List Nat) : Bool := a.any (fun x => b.contains x)

/-- The panes of a list of uses. -/
def panesOf (x : List (Nat × Nat × Nat)) : List Nat := x.map (·.1)

/-- A pane that two element instructions access with different bits(f) or different G. -/
def paneClash (a b : List (Nat × Nat × Nat)) : Bool := a.any (fun x => b.any (fun y => x.1 == y.1 && (x.2.1 != y.2.1 || x.2.2 != y.2.2)))

/-- The later of two instructions completes a breach of R99 with the earlier. -/
def breach (e q : Instr) : Bool :=
  let ue := usesOf e
  let uq := usesOf q
  let nz (l : List Nat) : List Nat := l.filter (· != 0)
  -- cases 1 and 2
  (unitClass e == unitClass q) || unitClass e == some .cf ||
  -- cases 3 and 4
  meets (panesOf ue.pw) (panesOf uq.pw) || meets ue.mw uq.mw || meets (nz ue.sw) uq.sw || meets ue.aw uq.aw || meets ue.kw uq.kw ||
  -- case 5
  meets ue.sw uq.sr || meets ue.aw uq.ar || meets ue.kw uq.kr ||
  -- case 6
  (isElement e && isElement q &&
    ((meets (panesOf ue.pw) (panesOf uq.pr) || meets (panesOf ue.pr) (panesOf uq.pw)) && !(isElementWise e && isElementWise q) ||
      paneClash ue.pw uq.pr || paneClash ue.pr uq.pw)) ||
  -- case 7
  (isElement e && isElement q && (meets ue.mw uq.mr || meets ue.mr uq.mw) && ue.mg.1 * uq.mg.2 != uq.mg.1 * ue.mg.2) ||
  (!isElement q && meets ue.mw uq.mr) ||
  -- case 8
  ((unitClass e == some .rc || unitClass e == some .en) &&
    (meets (panesOf (ue.pr ++ ue.pw)) (panesOf (uq.pr ++ uq.pw)) || meets (ue.kr ++ ue.kw) (uq.kr ++ uq.kw)))

/-- The address of the first head that completes a breach with one before it (R99). -/
def firstBreach : List (Word × Instr) → List (Word × Instr) → Option Word
  | _, [] => none
  | before, q :: rest =>
    if before.any (fun e => breach e.2 q.2) then some q.1 else firstBreach (before ++ [q]) rest

/-! ## Lines (R85-R88) -/

/-- A head as it lies in its line: its address, its parcel and its tail bits. -/
structure Head where
  addr : Word
  head : BitVec 16
  y : BitVec 48
deriving DecidableEq, Repr

/-- The tail bits of a head (R86): up to three parcels from a given one. -/
def tailBits (p : List (BitVec 16)) (from_ tl : Nat) : BitVec 48 :=
  let q (k : Nat) : BitVec 16 := if k < tl then p.getD (from_ + k) 0 else 0
  q 2 ++ q 1 ++ q 0

/-- The heads from head j on, `n` of them; `top` is the parcel just above the next tail (R86). -/
def headsFrom (line : Nat) (p : List (BitVec 16)) : Nat → Nat → Nat → List Head
  | 0, _, _ => []
  | n + 1, j, top =>
    let h := p.getD j 0
    let start := top - headTl h
    ⟨BitVec.ofNat 64 (line + 2 * j), h, tailBits p start (headTl h)⟩ :: headsFrom line p n (j + 1) start

/-- The heads of a well-formed line (R87); none of a line that is not well-formed. -/
def lineHeads (line : Nat) (p : List (BitVec 16)) : Option (List Head) :=
  let h := (p.getD 0 0).toNat
  let tails := (((List.range h).map (fun j => headTl (p.getD (j + 1) 0))).foldl (· + ·) 0)
  if 32 ≤ h || h == 0 || decide (32 < 1 + h + tails) then none
  else if ((p.drop (h + 1)).take (31 - h - tails)).any (· != 0) then none
  else some (headsFrom line p h 1 32)

/-- The 32 parcels of a line. -/
def lineParcels (s : State) (pa : Nat) : List (BitVec 16) := (List.range 32).map (parcelAt s pa)

/-- What reading a line for fetch gives. -/
inductive LineRead where
  | heads (hs : List Head)
  | trap (cause : BitVec 8)
  | wait (w : Wait)

def readLine (s : State) (c : Ctx) (line : Nat) : LineRead :=
  match fetchPa s c line with
  | .wait w => .wait w
  | .bad _ k => .trap k
  | .ok pa =>
    match lineHeads line (lineParcels s pa) with
    | some hs => .heads hs
    | none => .trap 0x01

/-! ## Gathering a convoy (R97) -/

/-- The instruction a head names by opcode and function, whatever its fields. -/
noncomputable def headInstr (h : Head) : Option Instr := parseOp (h.head.extractLsb' 6 7) (h.head.extractLsb' 0 6) h.y

/-- j, jr, tend and eret never continue sequentially (R97). -/
noncomputable def endsFlow (h : Head) : Bool :=
  match headInstr h with
  | some (.j _) => true
  | some (.jr _) => true
  | some .tend => true
  | some .eret => true
  | _ => false

/-- A convoy's heads and the address after it, or the trap or wait that reading it met. -/
inductive Gathered where
  | ok (hs : List Head) (next : Word)
  | trap (cause : BitVec 8) (tval : Word)
  | wait (w : Wait)

/-- The address of head 1 of a line. -/
def headOne (line : Nat) : Word := BitVec.ofNat 64 (line + 2)

/-- The heads of the convoy in the rest of a line, and what is left of the line. -/
def convoySpan (hs : List Head) : List Head × List Head := (hs.takeWhile (fun h => !headCb h.head), hs.dropWhile (fun h => !headCb h.head))

/-- Go on into the lines after `line` while their first head continues the convoy. The fuel counts the lines of the address space: an address
past them does not translate (log 21). -/
noncomputable def gatherLines (s : State) (c : Ctx) : Nat → Nat → List Head → Gathered
  | 0, line, hs => .ok hs (headOne (line + 64))
  | fuel + 1, line, hs =>
    if (hs.getLast?.map endsFlow).getD false then .ok hs (headOne (line + 64))
    else
      match readLine s c (line + 64) with
      | .trap k => .trap k (BitVec.ofNat 64 (line + 64))
      | .wait w => .wait w
      | .heads ls =>
        match (convoySpan ls).2 with
        | h :: _ => .ok (hs ++ (convoySpan ls).1) h.addr
        | [] => gatherLines s c fuel (line + 64) (hs ++ ls)

/-- The convoy whose first head stands at pc (R97). A pc that names no head of its line traps with bad slot (R89). `entry`: a
task entry or handler address must name a head with CB = 1. A line that is not well-formed traps first (DESIGN CHOICE, log 77). -/
noncomputable def gatherAt (s : State) (c : Ctx) (pc : Word) (entry : Bool) : Gathered :=
  if pc.getLsbD 0 then .trap 0x03 pc
  else
    match readLine s c (lineOf pc) with
    | .trap k => .trap k (BitVec.ofNat 64 (lineOf pc))
    | .wait w => .wait w
    | .heads ls =>
      match ls.drop (headNo pc - 1) with
      | [] => .trap 0x03 pc
      | h :: rest =>
        if headNo pc == 0 || (entry && !headCb h.head) then .trap 0x03 pc
        else
          match (convoySpan rest).2 with
          | x :: _ => .ok (h :: (convoySpan rest).1) x.addr
          | [] => gatherLines s c (2 ^ 50) (lineOf pc) (h :: rest)

/-! ## Checks of one instruction (R95) -/

/-- The instructions that a handler may run before claim (R343). -/
def beforeClaim (i : Instr) : Bool :=
  match i with
  | .shut _ _ | .reopen _ _ | .pre _ | .rfsh _ | .pstat _ _ => true
  | .kwait _ _ _ | .kwaitNt _ _ _ | .kpoll _ _ | .kcancel _ | .kdetach _ _ | .kadopt _ _ | .kprio _ _ | .kinfo _ _ _ => true
  | _ =>
    match unitClass i with
    | some .sc => true
    | some .cf => true
    | some .vm => (vinfo i).isNone
    | _ => false

/-- The alignment of a group that an instruction of no vector form names: none does (R95 step 4). The trap of privilege (R95 step
5): cause and tval. -/
def privilegeCheck (t : Seat) (i : Instr) : Option (BitVec 8 × Word) :=
  if t.status.lvl then none
  else
    match i with
    | .getc _ x => if ctlTrap t x.toNat false = some 0x04 then some (0x04, x.setWidth 64) else none
    | .setc _ x => if ctlTrap t x.toNat true = some 0x04 then some (0x04, x.setWidth 64) else none
    | _ => (privileged i).map (fun v => (0x04, v))

/-- A handler of this part is running and has not executed claim (R343). -/
def unclaimed (t : Seat) (p : Part) : Bool := !t.isCC && t.handles p && !t.status.clm

/-- The checks of R95 on one head: its instruction, or cause and tval. -/
noncomputable def checkHead (s : State) (h : Head) : Except (BitVec 8 × Word) Instr :=
  let ill := illegalTval h.head h.y
  match decodeEnc (encOfHead h.head h.y) with
  | .error _ => .error (0x01, ill)
  | .ok i =>
    if s.fseat.isCC && !controlRuns (h.head.extractLsb' 6 7) i then .error (0x01, ill)
    else
      match i.tCode with
      | some t => if 12 < t.toNat then .error (0x01, t.setWidth 64) else checkRest s ill i
      | none => checkRest s ill i
where
  /-- Steps 4 and 5 of R95, and R343. -/
  checkRest (s : State) (ill : Word) (i : Instr) : Except (BitVec 8 × Word) Instr :=
    match (vinfo i).bind (fun v => v.check s.fseat (rmField i) s.fpart.rm s.fcsrTval ill (vstcBad i)) with
    | some r => .error r
    | none =>
      match privilegeCheck s.fseat i with
      | some r => .error r
      | none => if unclaimed s.fseat s.fpart && !beforeClaim i then .error (0x01, ill) else .ok i

/-- The checks of every head in program order (R100). -/
noncomputable def checkHeads (s : State) : List Head → Except (BitVec 8 × Word) (List (Word × Instr))
  | [] => .ok []
  | h :: hs =>
    match checkHead s h with
    | .error e => .error e
    | .ok i =>
      match checkHeads s hs with
      | .error e => .error e
      | .ok is => .ok ((h.addr, i) :: is)

/-! ## Opening a convoy -/

/-- echo stands among heads, nearest first, of a convoy: none when its first head comes before. -/
noncomputable def echoIn : List Head → Option Bool
  | [] => none
  | h :: hs => if headInstr h == some .echo then some true else if headCb h.head then some false else echoIn hs

/-- Whether echo stands in the lines before `line` in the convoy that goes on there; a line that cannot be read holds none. -/
noncomputable def echoBack (s : State) (c : Ctx) : Nat → Nat → Bool
  | 0, _ => false
  | fuel + 1, line =>
    match readLine s c (line - 64) with
    | .heads ls => (echoIn ls.reverse).getD (echoBack s c fuel (line - 64))
    | _ => false

/-- Whether echo stands before a remainder in its convoy (R104, R121). -/
noncomputable def enclosingEcho (s : State) (pc : Word) : Bool :=
  match readLine s s.fctx (lineOf pc) with
  | .heads ls => (echoIn (ls.take (headNo pc - 1)).reverse).getD (echoBack s s.fctx (lineOf pc / 64) (lineOf pc))
  | _ => false

/-- The masks of the sequencer bank (R241). -/
def State.maskTable (s : State) : Table (BitVec 4096) := (s.fbank s.seqBank).m

/-- The element instructions of a convoy as one element phase (R101). -/
def convoyOps (s : State) (is : List (Word × Instr)) : List ElemOp := (is.filterMap (fun i => elemOpOf i.2)).map (fun f => f s)

/-- The convoy of checked instructions, its element phase to come unless it is a remainder (R104). -/
def convoyOf (s : State) (whole echo : Bool) (is : List (Word × Instr)) (pc next : Word) : Convoy :=
  let p := s.fpart
  { first := pc
    elems := if whole then is.filter (fun i => isElement i.2) else []
    todo := is.filter (fun i => !isElement i.2)
    next := next
    vl := p.vl
    xidx := p.xidx
    rm := p.rm
    mask0 := s.maskTable
    whole := whole
    echo := echo || is.any (fun i => i.2 == .echo)
    late := []
    cut := none
    done := if whole then phaseTo (convoyOps s (is.filter (fun i => isElement i.2))) else 0 }

/-- The part with its convoy open: the pc is its element phase's first head, or the first single instruction to perform; a remainder
of element instructions alone is over at once. -/
def Part.withConvoy (p : Part) (c : Convoy) : Part :=
  match c.elems, c.todo with
  | [], [] => { p with wait := none, entry := false, convoy := none, pc := c.next }
  | [], i :: _ => { p with wait := none, entry := false, convoy := some c, pc := i.1 }
  | _, _ => { p with wait := none, entry := false, convoy := some c, pc := c.first }

/-- A trap at decode: epc is the convoy's first head, xidx is unchanged (R97, R100). Of a remainder (R104) it is the head at pc, where the
remainder begins (DESIGN CHOICE, log 36). -/
def State.trapDecode (s : State) (cause : BitVec 8) (tval : Word) : State :=
  let pc := s.fpart.pc
  (s.modPart s.focus (fun p => { p with entry := false })).takeTrap s.focus cause tval pc none

/-- Fetching its lines is an access to their pages (R295). -/
def State.fetched (s : State) (hs : List Head) : State :=
  ((hs.map (fun h => lineOf h.addr)).eraseDups).foldl (fun x l => match fetchPa s s.fctx l with | .ok pa => x.touch pa | _ => x) s

/-- The outcome of opening a convoy: opened, or the state after the trap or the wait. -/
inductive Opening where
  | opened (s : State)
  | ended (s : State)

/-- Decode and check the convoy at the focus's pc (R97-R100), and open it. -/
noncomputable def openConvoy (s : State) : Opening :=
  let p := s.fpart
  match gatherAt s s.fctx p.pc p.entry with
  | .trap k v => .ended (s.trapDecode k v)
  | .wait w => .ended (s.waitOn w)
  | .ok hs next =>
    match checkHeads s hs with
    | .error e => .ended (s.trapDecode e.1 e.2)
    | .ok is =>
      match firstBreach [] is with
      | some a => .ended (s.trapDecode 0x02 a)
      | none =>
        let whole := (hs.head?.map (fun h => headCb h.head)).getD false
        .opened ((s.fetched hs).modPart s.focus (fun p => p.withConvoy (convoyOf s whole (!whole && enclosingEcho s p.pc) is p.pc next)))

/-- The convoy of a part that has none opened yet. -/
noncomputable def ensureConvoy (s : State) : Opening := if s.fpart.convoy.isSome then .opened s else openConvoy s

end Sys2Proof.Machine
end

