-- ==== Sys2Proof/Machine/Child.lean ====
section
/-! DEFINITION. Sys2Proof/Machine/Child.lean: creating child operations (R222-R241, R248): the checks of R224 in every bank, then one
operation per bank or per part. -/

namespace Sys2Proof.Machine

/-- The sill of a core or control core (R2, R371). -/
def sillOf (core : Nat) : Nat := if core < 1536 then core / 192 else (core - 1536) / 2

/-! ## tval of the current instruction (R95) -/

/-- CB of the head of the instruction being performed. -/
def State.ownCb (s : State) : Bool :=
  match s.fpart.convoy with
  | some c => c.whole && s.fpart.pc == c.first
  | none => true

/-- tval of an illegal instruction that its issue finds (R95). -/
def State.illegal (s : State) (e : Enc) : Word := illegalTval (headOf s.ownCb e) e.y

/-- The encoding of an E-form instruction (R93). -/
def encE (op : BitVec 7) (f : BitVec 6) (o : EOps) : Enc := ⟨op, o.padj ++ o.kd, 3, packE o f⟩

/-! ## The op table (R222, R315) -/

/-- Free entries of a sill's op table. -/
def State.freeEntries (s : State) (sill : Nat) : Nat :=
  4096 - (s.ops.filter (fun p => p.1 / 4096 == sill && p.2.live)).length

/-- A free entry of a sill's op table. Which of the free ones is taken is left open: a free value starts the search (log 22). -/
def State.pickEntry (s : State) (sill : Nat) : Nat × State :=
  let f := s.freeWord
  (((((List.range 4096).map (fun k => sill * 4096 + (f.1.toNat + k) % 4096)).find? (fun i => !(s.op i).live)).getD (sill * 4096)), f.2)

/-- GEN of an entry when it is allocated: it advances at each reuse. -/
def State.nextGen (s : State) (i : Nat) : BitVec 8 := if s.ops.any (fun p => p.1 == i) then (s.op i).gen + 1 else 0

/-! ## The checks of R224 -/

/-- The token register of a bank names a live operation. -/
def State.tokenLive (s : State) (b : Nat) (k : BitVec 4) : Bool :=
  match (s.fbank b).rk k with
  | some h => s.liveHandle h
  | none => false

/-- The first a-register with a reserved ESZ, in field order, in some bank (R14, R224 check 5). -/
def badBase (s : State) (bs : List Nat) (regs : List (BitVec 3)) : Option (BitVec 3) :=
  regs.find? (fun a => bs.any (fun b => decide (6 ≤ aEsz ((s.fbank b).ra a))))

/-- The checks of R224 over the banks that issue, `kds` the banks whose Kd is written, `extra` check 6, `n` the entries needed. -/
def opCheck (s : State) (i : Enc) (o : EOps) (fields : Bool) (bs kds : List Nat) (regs : List (BitVec 3))
    (extra : Option (BitVec 8 × Word)) (n : Nat) : Option (BitVec 8 × Word) :=
  if !fields || (o.dt && o.kd != 0) || (s.fseat.isCC && !o.dt) then some (0x01, s.illegal i)
  else if !o.dt && kds.any (fun b => s.tokenLive b o.kd) then some (0x20, o.kd.setWidth 64)
  else if o.af && bs.any (fun b => !s.tokenLive b o.ka) then some (0x20, o.ka.setWidth 64)
  else
    match badBase s bs regs with
    | some a => some (0x01, a.setWidth 64)
    | none =>
      match extra with
      | some x => some x
      | none => if s.freeEntries (sillOf s.focus.core) < n then some (0x22, BitVec.ofNat 64 (sillOf s.focus.core)) else none

/-! ## Creating one operation -/

/-- What one bank asks for: its bank, the operation, whether its count is 0, the banks whose Kd receives the handle. -/
structure NewOp where
  bank : Nat
  kind : OpKind
  empty : Bool
  kds : List Nat

/-- The state and after-token of a new operation (R225, R228). -/
def startOf (s : State) (o : EOps) (n : NewOp) : OpState × Option (BitVec 32) :=
  if n.empty then (.done, none)
  else if o.af then
    match (s.fbank n.bank).rk o.ka with
    | some h => if (s.op (entryOf h)).st = .done then (.pending, none) else (.pending, some h)
    | none => (.pending, none)
  else (.pending, none)

/-- The after-token operation had already failed (R225). -/
def afterFailed (s : State) (o : EOps) (n : NewOp) : Bool :=
  o.af && !n.empty &&
    (match (s.fbank n.bank).rk o.ka with
     | some h => (s.op (entryOf h)).st == .faulted || (s.op (entryOf h)).st == .cancelled
     | none => false)

/-- Write a handle into Kd of banks. -/
def State.giveHandle (s : State) (k : BitVec 4) (h : BitVec 32) (bs : List Nat) : State :=
  s.modBanks s.focus.core (fun _ b => b.wk k (some h)) bs

/-- Create one operation (R225): its handle and the state. The accesses of an after-token's operation come before its own (R304). -/
def State.createOp (s : State) (o : EOps) (n : NewOp) : BitVec 32 × State :=
  let t := s.fseat
  let e := s.pickEntry (sillOf s.focus.core)
  let st := startOf s o n
  let h := handleOf e.1 (s.nextGen e.1)
  let x : ChildOp :=
    { ChildOp.empty with
      gen := s.nextGen e.1, live := true, st := st.1, kind := n.kind, prio := BitVec.ofNat 3 (t.prio.toNat - o.padj.toNat), aged := s.ns
      launch := t.launch, task := t.task, owner := t.task, core := s.focus.core, base := s.focus.base, bank := n.bank
      sup := t.status.lvl, ptbr := t.ptbr, detached := o.dt, dt := o.dt, holders := if o.dt then 0 else n.kds.length, after := st.2, age := s.opAge }
  let s0 := if o.af then e.2.orderPath s.focus.core s.focus.base n.kind.cls.path else e.2
  let s1 : State := { s0.setOp e.1 x with opAge := s.opAge + 1 }
  let s2 := if o.dt then s1 else s1.giveHandle o.kd h n.kds
  (h, if afterFailed s o n then s2.endOp e.1 ⟨.cancelled, 0x40, 0, 0⟩ else s2.dueStart e.1)

/-- A replica that did not create an operation holds a handle to it (R227). -/
def State.mirrorHandle (s : State) (k : BitVec 4) (h : BitVec 32) (bs : List Nat) : State :=
  let leads := (s.fseat.red.map (fun r => r.leads)).getD false
  (s.giveHandle k h bs).modOp (entryOf h) (fun o =>
    if leads then { o with holders := o.holders + bs.length } else { o with mirrors := o.mirrors + bs.length })

/-- Create the operations of a part one after another; a follower takes the handles by echo. -/
def createAll (s0 : State) (o : EOps) (perform : NewOp → Bool) : List NewOp → State → State × Done
  | [], s => (s, .ok)
  | n :: ns, s =>
    if perform n then
      let r := s.createOp o n
      createAll s0 o perform ns (if o.dt then r.2 else if n.kind.external s s.fseat s.fctx then r.2.shareEcho (r.1.setWidth 64) else r.2)
    else if o.dt then createAll s0 o perform ns s
    else
      match echoedRead s (.wait .echo) with
      | .ok r => createAll s0 o perform ns (r.2.mirrorHandle o.kd (BitVec.ofNat 32 r.1) n.kds)
      | .wait w => (s0, .wait w)
      | .bad _ k => (s0, .trap k 0)

/-- The record of an external operation (R335). -/
def opRecord (s : State) (i : Enc) (o : EOps) (da : Bool) (b : Nat) : List Word :=
  let x := s.fbank b
  [((aVa (x.ra (if da then o.da else o.sa))).setWidth 64), BitVec.ofNat 64 (i.op.toNat * 256 + (eF i.y).toNat + o.opts.toNat * 2 ^ 16),
   ((aVa (x.ra o.sa)).setWidth 64), if o.c = 0 then 0 else x.rs o.c]

/-- Create the operations of an instruction that passed its checks: a release point of kind 7 when one of them is external. -/
def createOps (s : State) (i : Enc) (o : EOps) (da : Bool) (ns : List NewOp) : Host.Outcome State Fault Refusal :=
  let ext (n : NewOp) : Bool := n.kind.external s s.fseat s.fctx
  if s.fseat.red.isSome && ns.any ext then
    withRelease s 7 ((ns.filter ext).map (fun n => opRecord s i o da n.bank)) (fun p => createAll s o (fun n => p || !ext n) ns s)
  else finishSingle (createAll s o (fun _ => true) ns s)

/-- An instruction that creates one operation in every active bank (R226). -/
def perBankOp (s : State) (i : Enc) (o : EOps) (fields da : Bool) (regs : List (BitVec 3)) (mk : Bank → OpKind) (empty : Bank → Bool) :
    Host.Outcome State Fault Refusal :=
  match opCheck s i o fields s.active s.active regs none s.active.length with
  | some (k, v) => .next (s.trapSingle k v)
  | none => createOps s i o da (s.active.map (fun b => ⟨b, mk (s.fbank b), empty (s.fbank b), [b]⟩))

/-! ## Options (R228-R233) -/

/-- VA of an a-register as a word. -/
def Bank.va (b : Bank) (a : BitVec 3) : Word := (aVa (b.ra a)).setWidth 64

/-- s(C + k). -/
def Bank.count (b : Bank) (o : EOps) (k : Nat) : Word := b.rs (BitVec.ofNat 5 (o.c.toNat + k))

def optKind (x : BitVec 22) : Nat := (x.extractLsb' 0 2).toNat
def optOper (x : BitVec 22) : Nat := (x.extractLsb' 2 3).toNat
def optFmt (x : BitVec 22) : Nat := (x.extractLsb' 5 4).toNat
def optEsz (x : BitVec 22) : Nat := (x.extractLsb' 0 3).toNat

/-- The formats that a reduction admits with an operator (R233). -/
def reduceFmt (oper fmt : Nat) : Bool :=
  if oper ≤ 2 then [12, 11, 10, 4, 5].contains fmt else if oper ≤ 5 then fmt == 4 || fmt == 5 else false

/-- The options of nmo (R232). -/
def nmoOk (x : BitVec 22) : Bool :=
  decide (x.toNat < 512) &&
    (match optKind x with
     | 0 => reduceFmt (optOper x) (optFmt x)
     | 1 => optOper x == 0 && (optFmt x ≤ 5 || (8 ≤ optFmt x && optFmt x ≤ 12))
     | 2 => optOper x == 0 && reduceFmt 0 (optFmt x)
     | _ => false)

/-- Options that are an element size alone (R228). -/
def eszOk (x : BitVec 22) : Bool := decide (x.toNat ≤ 4)

/-! ## OP 0x58 -/

/-- cpy (R229). -/
def execCpy (o : EOps) (s : State) : Host.Outcome State Fault Refusal :=
  perBankOp s (encE 0x58 0 o) o (eszOk o.opts) true [o.da, o.sa]
    (fun b => .cpy (b.va o.da) (b.va o.sa) (b.rs o.c).toNat (optEsz o.opts)) (fun b => b.rs o.c == 0)

/-- cpy2d (R229). -/
def execCpy2d (o : EOps) (s : State) : Host.Outcome State Fault Refusal :=
  perBankOp s (encE 0x58 1 o) o (eszOk o.opts && decide (o.c.toNat ≤ 28)) true [o.da, o.sa]
    (fun b => .cpy2d (b.va o.da) (b.va o.sa) (b.rs o.c).toNat (b.count o 1).toNat (b.count o 2) (b.count o 3) (optEsz o.opts))
    (fun b => b.rs o.c == 0)

/-- rsct (R230). -/
def execRsct (o : EOps) (s : State) : Host.Outcome State Fault Refusal :=
  perBankOp s (encE 0x58 2 o) o (eszOk o.opts) true [o.da, o.sa]
    (fun b => .rsct (b.va o.da) (b.va o.sa) (b.rs o.c).toNat (optEsz o.opts)) (fun b => b.rs o.c == 0)

/-- coll (R233, R235). -/
def execColl (o : EOps) (s : State) : Host.Outcome State Fault Refusal :=
  perBankOp s (encE 0x58 3 o) o (decide (o.opts.toNat < 512) && reduceFmt (optOper o.opts) (optFmt o.opts)) false [o.sa]
    (fun b => .coll (b.va o.sa) (optKind o.opts) (optOper o.opts) (optFmt o.opts)) (fun _ => false)

/-- red (R233, R234). -/
def execRed (o : EOps) (s : State) : Host.Outcome State Fault Refusal :=
  perBankOp s (encE 0x58 4 o) o (decide (o.opts.toNat < 512) && optKind o.opts == 0 && reduceFmt (optOper o.opts) (optFmt o.opts)) false [o.sa]
    (fun b => .red (b.va o.sa) (optOper o.opts) (optFmt o.opts)) (fun _ => false)

/-- gath (R231). -/
def execGath (o : EOps) (s : State) : Host.Outcome State Fault Refusal :=
  perBankOp s (encE 0x58 5 o) o (decide (o.opts.toNat < 16) && decide (optEsz o.opts ≤ 4) && decide (o.c.toNat ≤ 30)) true [o.da, o.sa]
    (fun b => .gath (b.va o.da) (b.va o.sa) (b.count o 1) (b.rs o.c).toNat (optEsz o.opts) (o.opts.getLsbD 3)) (fun b => b.rs o.c == 0)

/-- nmo (R232). -/
def execNmo (o : EOps) (s : State) : Host.Outcome State Fault Refusal :=
  perBankOp s (encE 0x58 6 o) o (nmoOk o.opts && decide (o.c.toNat ≤ 30)) true [o.da, o.sa]
    (fun b => .nmo (b.va o.da) (b.va o.sa) (b.rs o.c).toNat (optKind o.opts) (optOper o.opts) (optFmt o.opts) (b.count o 1))
    (fun b => b.rs o.c == 0)

/-! ## OP 0x59: the matrix operations (R239, R241) -/

/-- KS, TA and TB of a shape (R238). -/
def shapeKs (w : Word) : Nat := w.toNat % 256
def shapeTa (w : Word) : Nat := w.toNat / 256 % 16
def shapeTb (w : Word) : Nat := w.toNat / 4096 % 16

/-- Bytes of one 32-element block of a matrix format (R239). -/
def blockBytes (t : Nat) : Nat := if t ≤ 7 then 16 else if t ≤ 9 then 32 else 64

/-- Bytes of a stream of blocks with its scales (R239). -/
def streamBytes (t blocks : Nat) : Nat := blocks * (blockBytes t + (if t = 7 then 1 else 0))

/-- Tile, panes and group sizes of mmma's options. -/
def mmmaTile (x : BitVec 22) : Nat := (x.extractLsb' 0 3).toNat
def mmmaWa (x : BitVec 22) : Nat := (x.extractLsb' 3 4).toNat
def mmmaWb (x : BitVec 22) : Nat := (x.extractLsb' 7 4).toNat
def mmmaGa (x : BitVec 22) : Nat := groupSize (x.extractLsb' 11 2)
def mmmaGb (x : BitVec 22) : Nat := groupSize (x.extractLsb' 13 2)

/-- The panes of mmma in every bank of the sash (R239, R240). -/
def mmmaUses (s : State) (x : BitVec 22) : List (Nat × Nat × Bool) :=
  s.fseat.banks.flatMap (fun b => (upFrom (mmmaWa x) (mmmaGa x) ++ upFrom (mmmaWb x) (mmmaGb x)).map (fun n => (b, n, false)))

/-- The panes of the uses that are closed; a parked pane is not (R74, R239). -/
def closedOperand (s : State) (us : List (Nat × Nat × Bool)) : Option (Nat × Nat) :=
  (us.find? (fun u =>
    let p := (s.fbank u.1).pane u.2.1
    !p.park && (p.st == .closed || p.st == .closing))).map (fun u => (u.1, u.2.1))

/-- Check 6 for mmma (R239). -/
def mmmaCheck (s : State) (i : Enc) (x : BitVec 22) : Option (BitVec 8 × Word) :=
  let t := s.fseat
  let ks := shapeKs t.shape
  let mg := t.rows.length
  if mg = 0 then some (0x01, BitVec.ofNat 64 (mmmaTile x))
  else if ks = 0 then some (0x01, s.illegal i)
  else if !groupOk (mmmaWa x) (mmmaGa x) then some (0x09, BitVec.ofNat 64 (mmmaWa x))
  else if !groupOk (mmmaWb x) (mmmaGb x) then some (0x09, BitVec.ofNat 64 (mmmaWb x))
  else if t.size * mmmaGa x * t.paneSize < streamBytes (shapeTa t.shape) (mg * ks) ||
      t.size * mmmaGb x * t.paneSize < streamBytes (shapeTb t.shape) (128 * ks) then some (0x01, s.illegal i)
  else (closedOperand s (mmmaUses s x)).map (fun q => (0x05, paneTval q.2 q.1))

/-- mmma (R239): one operation per part, its handle in every bank of the sash. A parked operand is reopened (R74). -/
def execMmma (o : EOps) (s : State) : Host.Outcome State Fault Refusal :=
  atDepth0 s
    (match opCheck s (encE 0x59 0 o) o true [s.seqBank] s.fseat.banks [] (mmmaCheck s (encE 0x59 0 o) o.opts) 1 with
     | some (k, v) => .next (s.trapSingle k v)
     | none =>
       createOps (reopenUses s (mmmaUses s o.opts)) (encE 0x59 0 o) o false
         [⟨s.seqBank, .mmma (mmmaTile o.opts) (mmmaWa o.opts) (mmmaWb o.opts) (mmmaGa o.opts) (mmmaGb o.opts) s.fseat.shape, false, s.fseat.banks⟩])

/-- Tile, mask field, N and format of mdrain's options (R241). -/
def drainTile (x : BitVec 22) : Nat := (x.extractLsb' 0 3).toNat
def drainMask (x : BitVec 22) : Nat := (x.extractLsb' 3 3).toNat
def drainN (x : BitVec 22) : Bool := x.getLsbD 6
def drainFmt (x : BitVec 22) : Nat := (x.extractLsb' 7 4).toNat

/-- The mask by column as it stood at convoy start (R241). -/
def drainColumns (s : State) (x : BitVec 22) : BitVec 128 :=
  if drainMask x = 0 then BitVec.allOnes 128
  else
    let m := (match s.fpart.convoy with | some c => look 0 c.mask0 (drainMask x) | none => (s.fbank s.seqBank).rm (drainMask x)).setWidth 128
    if drainN x then ~~~m else m

/-- mdrain (R241). With vl = 0 the operation is done at once. -/
def execMdrain (o : EOps) (s : State) : Host.Outcome State Fault Refusal :=
  atDepth0 s
    (match opCheck s (encE 0x59 1 o) o
        ([12, 11, 10].contains (drainFmt o.opts) && !(drainMask o.opts == 0 && drainN o.opts)) [s.seqBank] s.fseat.banks [o.da]
        (if s.fseat.rows.isEmpty then some (0x01, BitVec.ofNat 64 (drainTile o.opts)) else none) 1 with
     | some (k, v) => .next (s.trapSingle k v)
     | none =>
       let b := s.fbank s.seqBank
       createOps s (encE 0x59 1 o) o true
         [⟨s.seqBank, .mdrain (drainTile o.opts) (drainFmt o.opts) (b.va o.da) (b.rs o.c) (min s.fpart.vlNow 128) (drainColumns s o.opts),
           false, s.fseat.banks⟩])

/-! ## OP 0x5E (R248) -/

/-- tspawn (R248). -/
def execTspawn (o : EOps) (s : State) : Host.Outcome State Fault Refusal :=
  perBankOp s (encE 0x5E 0 o) o true false [o.sa] (fun b => .tspawn (b.va o.sa)) (fun _ => false)

/-- launch (R248): one operation per part, from the sequencer bank. -/
def execLaunch (o : EOps) (s : State) : Host.Outcome State Fault Refusal :=
  match opCheck s (encE 0x5E 1 o) o true [s.seqBank] [s.seqBank] [o.sa] none 1 with
  | some (k, v) => .next (s.trapSingle k v)
  | none => createOps s (encE 0x5E 1 o) o false [⟨s.seqBank, .launch ((s.fbank s.seqBank).va o.sa), false, [s.seqBank]⟩]

end Sys2Proof.Machine
end

