-- ==== Sys2Proof/Machine/Tokens.lean ====
section
/-! DEFINITION. Sys2Proof/Machine/Tokens.lean: the token instructions of OP 0x5C (R242-R247). -/

namespace Sys2Proof.Machine

/-! ## Handles of a part (R226, R242) -/

/-- The banks of the part with the handles their register holds. -/
def State.handles (s : State) (k : BitVec 4) : List (Nat × BitVec 32) :=
  s.active.map (fun b => (b, ((s.fbank b).rk k).getD 0))

/-- The distinct handles, lowest bank first. -/
def distinct (hs : List (Nat × BitVec 32)) : List (BitVec 32) := (hs.map (·.2)).foldl (fun r h => if r.contains h then r else r ++ [h]) []

/-- The handle of a bank. -/
def handleIn (hs : List (Nat × BitVec 32)) (b : Nat) : BitVec 32 := ((hs.find? (fun p => p.1 == b)).map (fun p => p.2)).getD 0

/-- An empty or stale register traps with invalid token (R15, R222). -/
def withTokens (s : State) (k : BitVec 4) (body : List (Nat × BitVec 32) → Host.Outcome State Fault Refusal) :
    Host.Outcome State Fault Refusal :=
  if s.active.all (fun b => s.tokenLive b k) then body (s.handles k) else .next (s.trapSingle 0x20 (k.setWidth 64))

/-- The operation that a handle names. -/
def State.opOf (s : State) (h : BitVec 32) : ChildOp := s.op (entryOf h)

/-- A replica's registers only mirror an operation that another seat created (R227). -/
def State.mirrorsOp (s : State) (o : ChildOp) : Bool :=
  match s.fseat.red with
  | none => false
  | some r => !r.leads && (o.core != s.focus.core || o.base != s.focus.base)

/-- The registers of a bank without a handle, and how many held it. -/
def Bank.dropToken (b : Bank) (h : BitVec 32) : Bank := { b with k := b.k.map (fun p => if p.2 = some h then (p.1, none) else p) }
def Bank.countToken (b : Bank) (h : BitVec 32) : Nat := (b.k.filter (fun p => p.2 = some h)).length

/-- Count down the holders of an operation; the entry is freed when due (R315). -/
def State.unhold (s : State) (h : BitVec 32) (n : Nat) : State :=
  let o := s.opOf h
  s.putOp (entryOf h) (if s.mirrorsOp o then { o with mirrors := o.mirrors - n } else { o with holders := o.holders - n })

/-- Empty every register of the part that holds a handle (R226). -/
def State.emptyToken (s : State) (h : BitVec 32) : State :=
  let n := (s.active.map (fun b => (s.fbank b).countToken h)).foldl (· + ·) 0
  (s.onActive (fun _ b => b.dropToken h)).unhold h n

/-- Empty the registers of several handles. -/
def State.emptyTokens (s : State) (hs : List (BitVec 32)) : State := hs.foldl State.emptyToken s

/-- The first handle whose operation has not ended. -/
def State.unfinished (s : State) (hs : List (BitVec 32)) : Option (BitVec 32) := hs.find? (fun h => !(s.opOf h).st.terminal)

/-! ## kwait, kwait.nt, kpoll (R243, R244) -/

/-- tval of a child fault (R243). -/
def childFaultTval (h : BitVec 32) (k : BitVec 4) : Word := h.setWidth 64 ||| k.setWidth 64 <<< 32

/-- kwait (R243): the operation's accesses come before later ones on the path (R304). No observer stands outside a scope here (log 7). -/
def execKwait (k path : BitVec 4) (_scope : BitVec 5) (s : State) : Host.Outcome State Fault Refusal :=
  withTokens s k (fun hs =>
    match s.unfinished (distinct hs) with
    | some h => .next (s.waitOn (.op (entryOf h)))
    | none =>
      match (distinct hs).find? (fun h => (s.opOf h).st == .faulted) with
      | some h => .next (s.trapSingle 0x21 (childFaultTval h k))
      | none => .next ((s.emptyTokens (distinct hs)).orderPath s.focus.core s.focus.base path).retire)

/-- The word of kwait.nt: the state code. -/
def State.codeOf (s : State) (h : BitVec 32) : Word := BitVec.ofNat 64 (s.opOf h).st.code

/-- kwait.nt (R243): the operation's accesses come before all later ones (R304); the code is echoed under redundancy (R227). -/
def execKwaitNt (d : BitVec 5) (k : BitVec 4) (_scope : BitVec 5) (s : State) : Host.Outcome State Fault Refusal :=
  withTokens s k (fun hs =>
    match s.unfinished (distinct hs) with
    | some h => .next (s.waitOn (.op (entryOf h)))
    | none =>
      finishSingle
        (match echoInto s d (fun b x => (s.codeOf (((s.fbank b).rk k).getD 0), x)) s.active s with
         | (s1, .ok) => ((s1.emptyTokens ((distinct hs).filter (fun h => (s.opOf h).st != .faulted))).orderAll s.focus.core s.focus.base, .ok)
         | r => r))

/-- The word of kpoll (R244). -/
def State.pollWord (s : State) (h : BitVec 32) : Word :=
  BitVec.ofNat 64 ((s.opOf h).progress % 2 ^ 56 + (s.opOf h).st.code * 2 ^ 61)

/-- kpoll (R244). -/
def execKpoll (d : BitVec 5) (k : BitVec 4) (s : State) : Host.Outcome State Fault Refusal :=
  withTokens s k (fun _ => finishSingle (echoInto s d (fun b x => (s.pollWord (((s.fbank b).rk k).getD 0), x)) s.active s))

/-! ## kcancel (R245) -/

/-- kcancel (R245): a mirrored operation is left to the replica that created it (R227). -/
def execKcancel (k : BitVec 4) (s : State) : Host.Outcome State Fault Refusal :=
  withTokens s k (fun hs =>
    .next ((distinct hs).foldl (fun s h => (if s.mirrorsOp (s.opOf h) then s else s.killOp (entryOf h)).emptyToken h) s).retire)

/-! ## kdetach, kadopt (R246) -/

/-- Detach one operation; a FAULTED one that is not in the launch fault record yet goes there (R246, R280). -/
def State.detachOp (s : State) (h : BitVec 32) : State :=
  let o := s.opOf h
  if s.mirrorsOp o then s
  else
    let told := decide (o.st = .faulted) && !o.noted
    let s1 := s.modOp (entryOf h) (fun o => { o with detached := true, noted := o.noted || told })
    if told then s1.recordFault o.launch o.cause 1 o.task (h.setWidth 64) o.findex else s1

/-- kdetach (R246). -/
def execKdetach (d : BitVec 5) (k : BitVec 4) (s : State) : Host.Outcome State Fault Refusal :=
  withTokens s k (fun hs =>
    let s1 := (distinct hs).foldl (fun s h => (s.detachOp h).emptyToken h) s
    .next (s1.onActive (fun n b => b.ws d ((handleIn hs n).setWidth 64))).retire)

/-- A handle is zero in [23:15] (R222). -/
def isHandle (h : BitVec 32) : Bool := h.extractLsb' 15 9 == 0

/-- A handle that may be adopted (R246): live, detached, not from DT = 1 (R225), of the same launch, held by no register. -/
def State.adoptable (s : State) (h : BitVec 32) : Bool :=
  let o := s.opOf h
  s.liveHandle h && o.detached && !o.dt && o.launch == s.fseat.launch && o.holders == 0

/-- Adopt: the operation is attached to the adopter. -/
def State.adopt (s : State) (h : BitVec 32) (k : BitVec 4) (bs : List Nat) : State :=
  let s1 := s.giveHandle k h bs
  if (s.fseat.red.map (fun r => r.leads)).getD true then
    s1.modOp (entryOf h) (fun o => { o with detached := false, owner := s.fseat.task, holders := bs.length })
  else s1.modOp (entryOf h) (fun o => { o with mirrors := o.mirrors + bs.length })

/-- kadopt (R246). A replica that does not lead takes the handle as the leader does (R227). -/
def execKadopt (k : BitVec 4) (a : BitVec 5) (s : State) : Host.Outcome State Fault Refusal :=
  let leads := (s.fseat.red.map (fun r => r.leads)).getD true
  let hOf (b : Nat) : BitVec 32 := ((s.fbank b).rs a).setWidth 32
  if s.active.any (fun b => s.tokenLive b k) then .next (s.trapSingle 0x20 (k.setWidth 64))
  else
    match s.active.find? (fun b => !(isHandle (hOf b) && (s.adoptable (hOf b) || (!leads && s.liveHandle (hOf b))))) with
    | some b => .next (s.trapSingle 0x20 ((s.fbank b).rs a))
    | none =>
      .next ((distinct (s.active.map (fun b => (b, hOf b)))).foldl
        (fun s h => s.adopt h k (s.active.filter (fun b => hOf b == h))) s).retire

/-! ## kprio, kinfo (R247) -/

/-- kprio (R247): limited by the task record. -/
def execKprio (k : BitVec 4) (a : BitVec 5) (s : State) : Host.Outcome State Fault Refusal :=
  withTokens s k (fun hs =>
    .next (hs.foldl (fun s' p =>
      if s.mirrorsOp (s.opOf p.2) then s'
      else s'.modOp (entryOf p.2) (fun o =>
        { o with prio := BitVec.ofNat 3 (min (((s.fbank p.1).rs a).toNat % 8) s.fseat.recPrio.toNat) })) s).retire)

/-- The words of kinfo (R247). -/
def ChildOp.infoWord (o : ChildOp) (h : BitVec 32) (w : Nat) : Word :=
  match w with
  | 0 => BitVec.ofNat 64 (h.toNat + o.st.code * 2 ^ 32 + (if o.detached then 2 ^ 35 else 0) + o.prio.toNat * 2 ^ 36 + o.kind.cls.path.toNat * 2 ^ 40)
  | 1 => BitVec.ofNat 64 o.progress
  | 2 => BitVec.ofNat 64 (o.faddr.toNat % 2 ^ 56 + o.cause.toNat * 2 ^ 56)
  | 3 => BitVec.ofNat 64 (o.findex % 2 ^ 40 + o.fpath.toNat * 2 ^ 40)
  | _ => BitVec.ofNat 64 o.ftime

/-- kinfo (R247). -/
def execKinfo (d : BitVec 5) (k : BitVec 4) (w : BitVec 5) (s : State) : Host.Outcome State Fault Refusal :=
  withTokens s k (fun _ =>
    finishSingle (echoInto s d (fun b x =>
      let h := ((s.fbank b).rk k).getD 0
      ((s.opOf h).infoWord h w.toNat, x)) s.active s))

end Sys2Proof.Machine
end

