-- ==== Sys2Proof/Machine/Matrix.lean ====
section
/-! DEFINITION. Sys2Proof/Machine/Matrix.lean: the matrix engine (R237-R241, R324, R359): grants, shape, tiles, one k-step, one drained
row. -/

namespace Sys2Proof.Machine

/-! ## Tiles (R359) -/

/-- The key of an accumulator: engine row, tile, column. -/
def tileKey (row tile col : Nat) : Nat := row * 1024 + tile * 128 + col

/-- Engine rows that hold no grant. -/
def Quad.freeRows (q : Quad) : List Nat := (List.range 128).filter (fun p => (look none q.rows p).isNone)

/-- A row of every tile reads +0. -/
def Quad.zeroRow (q : Quad) (p : Nat) : Quad := { q with tiles := q.tiles.map (fun e => if e.1 / 1024 = p then (e.1, 0) else e) }

/-- One tile of a row reads +0. -/
def Quad.zeroTile (q : Quad) (tile p : Nat) : Quad :=
  { q with tiles := q.tiles.map (fun e => if e.1 / 1024 = p ∧ e.1 % 1024 / 128 = tile then (e.1, 0) else e) }

/-- The bytes of a saved row image (R359), at offsets from its first byte. -/
def rowBytesOf (t : Table (BitVec 32)) (p : Nat) : Table Byte :=
  (t.filter (fun e => e.1 / 1024 == p)).foldl (fun m e => writeLE m (4 * (e.1 % 1024)) e.2.toNat 4) []

/-- The first byte of context area i (R276). -/
def State.areaPa (s : State) (i : Nat) : Nat := s.lctl.ctxBase.toNat + i * 0x1000000

/-- A saved context is the one that the task's area holds: that of the leader, or of a task without redundancy (log 54). -/
def Context.leads (c : Context) : Bool := (c.seat.red.map (·.leads)).getD true

/-- Where the saved image in row p of a save array goes when it must make room: its place in its task's context area (R324); none for a
follower's, which its context keeps (log 54). -/
def State.spillPa (s : State) (q p : Nat) : Option Nat :=
  (look none (s.quad q).save p).bind fun r => (s.task? r.launch r.task).bind fun k =>
    if k.ctx.any (fun c => c.seat.status.rid.toNat == r.rid && c.leads) then k.area.map (fun i => s.areaPa i + 0x100000 + 0x1000 * r.r) else none

/-- Move a saved image out of save-array row p (R324). -/
def State.spillRow (s : State) (q p : Nat) : State :=
  let s1 := s.modQuad q (fun x => { x with save := put x.save p none, saveTiles := x.saveTiles.filter (fun e => e.1 / 1024 != p) })
  match s.spillPa q p with
  | none => if (look none (s.quad q).save p).isSome then s1 else s
  | some pa => s1.pokeImage none pa 4096 (rowBytesOf (s.quad q).saveTiles p)

/-- What a grant of engine rows waits for: the rows to which saved images move (R72). -/
def State.spillWait (s : State) (core : Nat) (rows : List Nat) : Option Wait := rows.findSome? (fun p => (s.spillPa (core / 4) p).bind (heldAt s))

/-- Grant engine rows to a seat: each reads +0 and its saved image moves away. -/
def State.grantRows (s : State) (core base : Nat) : List Nat → State
  | [] => s
  | p :: ps =>
    State.grantRows ((s.spillRow (core / 4) p).modQuad (core / 4) (fun q => { q.zeroRow p with rows := put q.rows p (some (core, base)) }))
      core base ps

/-- The engine rows of an operation's tile: the grant of its seat, or the rows an orphan kept. -/
def opRows (s : State) (o : ChildOp) : List Nat := if !o.rows.isEmpty then o.rows else if opSeated s o then (s.seatAt o.core o.base).rows else []

/-! ## OP 0x5A (R237, R238) -/

/-- The matrix operations of the focus's seat that have not ended. -/
def State.matrixOps (s : State) : List Nat :=
  s.opsWhere (fun o => o.core == s.focus.core && o.base == s.focus.base && o.launch == s.fseat.launch && o.task == s.fseat.task && o.kind.cls == .mx &&
    !o.st.terminal && o.rows.isEmpty)

/-- mattach (R237). The grant goes to sD of every active bank. -/
def execMattach (d a : BitVec 5) (s : State) : Host.Outcome State Fault Refusal :=
  atDepth0 s
    (if s.fseat.rows.isEmpty then
      let rows := ((s.quad (s.focus.core / 4)).freeRows).take (min (s.seqReg a).toNat 128)
      match s.spillWait s.focus.core rows with
      | some w => .next (s.waitOn w)
      | none =>
      let s1 := (s.grantRows s.focus.core s.focus.base rows).modSeat s.focus (fun t => { t with rows := rows, shape := 0 })
      .next (s1.onActive (fun _ b => b.ws d (BitVec.ofNat 64 rows.length))).retire
    else .next (s.trapSingle 0x01 (BitVec.ofNat 64 s.fseat.rows.length)))

/-- mdetach (R237): it waits for the seat's matrix operations. -/
def execMdetach (s : State) : Host.Outcome State Fault Refusal :=
  atDepth0 s
    (if s.fseat.rows.isEmpty then .next s.retire
     else
       match s.matrixOps with
       | i :: _ => .next (s.waitOn (.mx i))
       | [] => .next ((s.releaseRows s.focus.core s.focus.base).modSeat s.focus (fun t => { t with rows := [] })).retire)

/-- The classes of operand pairs that R55 admits: 6-7, 8-9, 10-11. -/
def pairOk (ta tb : Nat) : Bool := decide (6 ≤ ta) && decide (ta ≤ 11) && ta / 2 == tb / 2

/-- mshape (R238). -/
def execMshape (a : BitVec 5) (s : State) : Host.Outcome State Fault Refusal :=
  let v := s.seqReg a
  atDepth0 s
    (if shapeKs v = 0 || v.extractLsb' 16 48 != 0 || !pairOk (shapeTa v) (shapeTb v) then .next (s.trapSingle 0x01 v)
     else .next (s.modSeat s.focus (fun t => { t with shape := v })).retire)

/-- The tile a matrix operation names. -/
def OpKind.tile : OpKind → Option Nat
  | .mmma t _ _ _ _ _ => some t
  | .mdrain t _ _ _ _ _ => some t
  | _ => none

/-- mzero (R237). With grant 0 it traps under R16. -/
def execMzero (d : BitVec 5) (s : State) : Host.Outcome State Fault Refusal :=
  atDepth0 s
    (if s.fseat.rows.isEmpty then .next (s.trapSingle 0x01 (d.setWidth 64))
     else
       match s.matrixOps.find? (fun i => (s.op i).kind.tile == some d.toNat) with
       | some i => .next (s.waitOn (.mx i))
       | none => .next (s.modQuad (s.focus.core / 4) (fun q => s.fseat.rows.foldl (fun q p => q.zeroTile d.toNat p) q)).retire)

/-! ## Streams (R239) -/

/-- Byte x of a stream: the groups of the sash's banks in order at the visible pane size; with its bank and pane. -/
def streamAt (s : State) (o : ChildOp) (w g x : Nat) : Nat × Nat × Nat :=
  let size := 2 ^ (opSash s o).2
  let per := g * size
  (o.base + x / per, w + x % per / size, x % size)

def streamByte (s : State) (o : ChildOp) (w g x : Nat) : Nat :=
  let q := streamAt s o w g x
  (((s.bank o.core q.1).pane q.2.1).img.byte q.2.2).toNat

/-- The first poisoned byte among stream bytes. -/
def streamPoison (s : State) (o : ChildOp) (w g : Nat) (xs : List Nat) : Option Nat :=
  xs.find? (fun x => let q := streamAt s o w g x; (((s.bank o.core q.1).pane q.2.1).img).poisonAt q.2.2)

/-- Only a bf16 or f16 NaN signals in the matrix engine (R57). -/
def quieted (x : FV) : FV := if x.isNan then .nan false else x

/-- Element k of the block that starts at stream byte x, without its scale (R51, R56). -/
def blockElem (s : State) (o : ChildOp) (w g t x scale k : Nat) : FV :=
  if t ≤ 7 then
    let c := streamByte s o w g (x + k / 2) / (if k % 2 = 0 then 1 else 16) % 16
    if t = 7 && scaleE scale == 63 then .nan false else codeVal (if t = 7 then scaleType scale else 0) c
  else if t ≤ 9 then quieted (unpack (if t = 8 then e4m3Fmt else e5m2Fmt) (streamByte s o w g (x + k)))
  else unpack (if t = 10 then f16Fmt else bf16Fmt) (streamByte s o w g (x + 2 * k) + 256 * streamByte s o w g (x + 2 * k + 1))

/-- The stream bytes of block b of `blocks`, its scale byte included. -/
def blockSpan (t blocks b : Nat) : List Nat := upFrom (b * blockBytes t) (blockBytes t) ++ (if t = 7 then [16 * blocks + b] else [])

/-- The scale byte of block b of `blocks`; i4 has scale 1, as E = 32 of TYPE INT4 (R54). -/
def blockScale (s : State) (o : ChildOp) (w g t blocks b : Nat) : Nat := if t = 7 then streamByte s o w g (16 * blocks + b) else 32

/-- The 32 elements of a block and the power of two of its scale. -/
def block (s : State) (o : ChildOp) (w g t blocks b : Nat) : List FV × Int :=
  let sc := blockScale s o w g t blocks b
  ((List.range 32).map (blockElem s o w g t (b * blockBytes t) sc), if t = 7 then (scaleE sc : Int) - 32 else 0)

/-! ## One k-step (R56, R57, R240) -/

/-- R56 for one accumulator: its new encoding and flags. A block with E = 63 sets no flag. -/
def kstepElem (a b : List FV × Int) (c : Nat) : Nat × BitVec 5 :=
  let acc := (a.1.zip b.1).foldl (fun r p => dotStep r p.1 p.2) DotAcc.zero
  let v := dotValue acc (a.2 + b.2)
  dotAdd f32Fmt .rne (unpack f32Fmt c) v.1 v.2

/-- One row of the tile at a k-step. -/
def kstepRow (q : Quad) (row tile : Nat) (a : List FV × Int) (bs : List (List FV × Int)) (r0 : BitVec 5) : Quad × BitVec 5 :=
  (bs.zipIdx).foldl (fun r p =>
    let k := tileKey row tile p.2
    let x := kstepElem a p.1 (look 0 r.1.tiles k).toNat
    ({ r.1 with tiles := put r.1.tiles k (BitVec.ofNat 32 x.1) }, r.2 ||| x.2)) (q, r0)

/-- Every granted row at a k-step. -/
def kstepAll (q : Quad) (rows : List Nat) (tile : Nat) (as bs : List (List FV × Int)) : Quad × BitVec 5 :=
  (rows.zip as).foldl (fun r p => kstepRow r.1 p.1 tile p.2 bs r.2) (q, 0)

/-- The poisoned stream byte that k-step `step` would consume: A's rows first, then B's columns (R240). -/
def kstepPoison (s : State) (o : ChildOp) (wa wb ga gb : Nat) (shape : Word) (mg step : Nat) : Option Nat :=
  let ks := shapeKs shape
  (streamPoison s o wa ga ((List.range mg).flatMap (fun r => blockSpan (shapeTa shape) (mg * ks) (r * ks + step)))).or
    (streamPoison s o wb gb ((List.range 128).flatMap (fun n => blockSpan (shapeTb shape) (128 * ks) (step * 128 + n))))

/-- K-step `step` of an mmma (R240): the tiles and the flags, which accrue in the sash's sequencer bank at once (R57); an
orphan's have no thread left (R322). -/
def State.kstep (s : State) (o : ChildOp) (tile wa wb ga gb : Nat) (shape : Word) (step : Nat) : State :=
  let rows := opRows s o
  let ks := shapeKs shape
  let as := (List.range rows.length).map (fun r => block s o wa ga (shapeTa shape) (rows.length * ks) (r * ks + step))
  let bs := (List.range 128).map (fun n => block s o wb gb (shapeTb shape) (128 * ks) (step * 128 + n))
  let r := kstepAll (s.quad (o.core / 4)) rows tile as bs
  if opSeated s o then (s.setQuad (o.core / 4) r.1).modBank o.core o.base (fun b => b.accrue r.2) else s.setQuad (o.core / 4) r.1

/-! ## One drained element (R241) -/

/-- The format of mdrain. -/
def drainFloat (t : Nat) : Fmt := if t = 12 then f32Fmt else if t = 11 then bf16Fmt else f16Fmt

/-- The encoding and flags of tile (row, col) in mdrain's format. -/
def drainElem (s : State) (o : ChildOp) (tile fmt row col : Nat) : Nat × BitVec 5 :=
  let c := (look 0 (s.quad (o.core / 4)).tiles (tileKey row tile col)).toNat
  if fmt = 12 then (c, 0)
  else
    let r := deliver (drainFloat fmt) .rne false (unpack f32Fmt c)
    (r.1, r.2 ||| sigNV [unpack f32Fmt c])

end Sys2Proof.Machine
end

