-- ==== Sys2Proof/Machine/Wire.lean ====
section
/-! DEFINITION. Sys2Proof/Machine/Wire.lean: what the engines and the links share (R386-R395, R412, R413): the link of a peer, forming
packets, acknowledgements, failures of links and peers, the queue telemetry. External links are numbered 0-127; sub-link t of stack pair
i < j is link 1024 + (8i + j) * 16 + t (R393). -/

namespace Sys2Proof.Machine

def subLink (i j t : Nat) : Nat := 1024 + (8 * i + j) * 16 + t

/-- The sub-links of a stack pair, in either order. -/
def pairLinks (i j : Nat) : List Nat := (List.range 10).map (subLink (min i j) (max i j))

/-- Every sub-link of the pair that joins two cores' stacks has failed (R393). -/
def State.pairDown (s : State) (i j : Nat) : Bool := i != j && (pairLinks i j).all (fun l => (s.link l).st == .failed)

/-! ## Events and counters of a link (R394, R412, R413) -/

/-- Add to a counter of R394: 0 FLITTX, 1 FLITRX, 2 CRCERR, 3 FECCORR, 4 FECUNC, 5 REPLAYS, 6 PKTREP, 7 STRDEAD, 8 WIDCHG, 9 ACKTMO. -/
def Link.count (x : Link) (k n : Nat) : Link := { x with ctr := put x.ctr k ((look 0 x.ctr k + n) % 2 ^ 64) }

/-- Raise LNKEVT. -/
def State.linkEvent (s : State) (l : Nat) : State := s.bumpEvent (s.link l).evt.toNat

/-- HI and LO enable the two events (R412). -/
def Link.watched (x : Link) : Bool := x.hi != 0 && decide (x.lo < x.hi)

/-- HIGH and QUIET after a change of DEPTH or of LQCFG (R413). -/
def Link.requeue (x : Link) : Link :=
  { x with high := x.watched && decide (x.hi ≤ x.depth), quiet := x.watched && x.quiet && decide (x.depth ≤ x.lo) }

/-- Replace a link, raising LQEVT when HIGH rises. -/
def State.putLink (s : State) (l : Nat) (x : Link) : State :=
  let y := x.requeue
  let s1 := s.setLink l y
  if y.high && !(s.link l).high then s1.bumpEvent y.lqevt.toNat else s1

/-! ## Peers (R391, R392, R395) -/

/-- The links that a peer-table entry lists, ascending. -/
def Peer.list (p : Peer) : List Nat := (List.range 128).filter (fun l => p.links.getLsbD l)

/-- Where a core's packets to a peer go (R391, R392). -/
inductive Route where
  | link (l : Nat)
  | waits
  | dead (failed : Bool)
deriving DecidableEq, Repr

def State.route (s : State) (core n : Nat) : Route :=
  let p := s.peer n
  if !p.valid || p.failed then .dead false
  else
    let up := p.list.filter (fun l => (s.link l).st == .up)
    match up with
    | [] =>
      if p.list.any (fun l => (s.link l).st == .training) then .waits
      else .dead (p.list.any (fun l => (s.link l).st == .failed))
    | l :: _ => .link (up.getD (core % up.length) l)

/-- A peer is marked FAILED (R391): one record of TYPE 0x08; the operations outstanding to it end at the next step. -/
def State.failPeer (s : State) (n : Nat) : State :=
  if (s.peer n).failed then s
  else
    let s1 := (s.setPeer n { s.peer n with failed := true }).logError 0x08 2 planeData (BitVec.ofNat 32 n) 0x41 0 0
    { s1 with due := s1.due ++ [.peerLost n] }

/-! ## Forming packets (R386, R388) -/

/-- The link takes another packet: it runs and its replay buffer has room. -/
def Link.accepts (x : Link) : Bool := x.st == .up && !x.halted && !x.dropping && decide (x.buf.length < 512)

/-- Flits of a packet of n data bytes: a 32-byte header and the data in payloads of 240 bytes (R384, R386). -/
def flitsFor (n : Nat) : Nat := (32 + n + 239) / 240

/-- Put a packet for peer n into a link's replay buffer. -/
def State.queuePacket (s : State) (l n : Nat) (op : BitVec 32) (dst : Word) (bytes : List Byte) (done : Option Nat) : State :=
  let x := s.link l
  s.putLink l { x with buf := x.buf ++ [⟨x.next, flitsFor bytes.length, n, op, dst, bytes, done⟩], next := x.next + 1 }

/-- Form a packet to a peer. -/
def State.formPacket (s : State) (l n : Nat) (op : BitVec 32) (dst : Word) (bytes : List Byte) (done : Option Nat) : State :=
  (s.queuePacket l n op dst bytes done).modOp (entryOf op) (fun o => { o with outst := o.outst + 1 })

/-- Bytes in packets of at most 2,048, by a function that forms one. -/
def inPackets (form : State → List Byte → State) : Nat → List Byte → State → State
  | 0, _, s => s
  | fuel + 1, bs, s => if bs.isEmpty then s else inPackets form fuel (bs.drop 2048) (form s (bs.take 2048))

/-- How many packets carry n data bytes. -/
def packetsFor (n : Nat) : Nat := (n + 2047) / 2048

/-- The link takes n more packets. -/
def Link.acceptsAll (x : Link) (n : Nat) : Bool := x.st == .up && !x.halted && !x.dropping && decide (x.buf.length + n ≤ 512)

/-! ## Between stacks (R393) -/

/-- The sub-link on which a core's packets to a stack travel: that of its number mod 10, or the next above it in service. -/
def State.subRoute (s : State) (core h : Nat) : Option Nat :=
  ((List.range 10).map (fun t => subLink (min (sillOf core) h) (max (sillOf core) h) ((core + t) % 10))).find? (fun l => (s.link l).st == .up)

/-- The operations whose writes into another stack travel as packets: those of the classes CP and CO (R386; log 99). -/
def ChildOp.carried (o : ChildOp) : Bool := o.kind.cls == .cp || o.kind.cls == .co

/-- What a write into stack h waits for on its sub-link: room, a training, packets that the core holds on another (R388, R391-R393). -/
def State.subWait (s : State) (o : ChildOp) (h : Nat) : Option Wait :=
  if !o.carried || h == sillOf o.core then none
  else
    match s.subRoute o.core h with
    | some l =>
      if !(s.link l).accepts || (pairLinks (sillOf o.core) h).any (fun k => k != l && (s.link k).buf.any (fun p => (s.op (entryOf p.op)).core == o.core)) then
        some .device
      else none
    | none => if (pairLinks (sillOf o.core) h).any (fun k => (s.link k).st == .training) then some .device else none

/-! ## Pausing (R317, R318, R323, R326) -/

/-- The seat that issued an operation is SAVING, or its context is saved. -/
def State.issuerSaved (s : State) (o : ChildOp) : Bool :=
  if opSeated s o then (s.seatAt o.core o.base).phase == .saving
  else ((s.task? o.launch o.task).map (fun k => k.ctx.any (fun c => c.core == o.core && c.seat.base == o.base))).getD false

/-- The task that an operation is attached to is SAVING or SAVED. -/
def State.ownerSaved (s : State) (o : ChildOp) : Bool :=
  if o.owner == o.task then s.issuerSaved o
  else (s.seatsOf o.launch o.owner).any (fun p => (s.seatAt p.1 p.2).phase == .saving) ||
    ((s.task? o.launch o.owner).map (fun k => k.st == .saved)).getD false

/-- The operation is held with a seat that is SAVING or SAVED: the one it is attached to, a matrix operation also with its issuer (R323). -/
def State.opSaved (s : State) (o : ChildOp) : Bool :=
  decide (o.core < 1536) && ((!o.detached && s.ownerSaved o) || (o.kind.cls == .mx && s.issuerSaved o))

/-- A PENDING operation is barred by its issuing seat as well, unless it is detached and not of class MX (R318). -/
def State.startBarred (s : State) (o : ChildOp) : Bool :=
  s.opSaved o || (decide (o.core < 1536) && (!o.detached || o.kind.cls == .mx) && s.issuerSaved o)

/-- An operation is to pause at its granule boundary: its launch is paused, its seat is saved, or the shutter sequence pauses everything
(R323, R326, R409). Task operations go on. -/
def State.resting (s : State) (o : ChildOp) : Bool := o.kind.cls != .ts && (s.opPaused o || s.opSaved o || decide (3 ≤ s.power.depth))

/-- A granule has been performed in part: some of its elements, one packet of its two, part of its train. -/
def ChildOp.midGranule (o : ChildOp) : Bool :=
  match o.kind with
  | .gath .. | .nmo .. => o.progress % 256 != 0
  | .mdrain .. => o.progress % 128 != 0
  | .coll _ _ _ fmt => o.progress % (4096 / (fmtBits (BitVec.ofNat 4 fmt) / 8)) != 0
  | .cpy _ _ n _ => o.away && o.sent % 4096 != 0 && o.sent != n
  | .cpy2d _ _ rows rb _ _ _ => o.away && o.sent % 4096 != 0 && o.sent != rows * rb
  | .rsct .. => o.sent / 2 != o.progress
  | _ => false

/-- The operation stands at a granule boundary: nothing is half performed and no packet is unacknowledged. -/
def ChildOp.atBoundary (o : ChildOp) : Bool := !o.midGranule && o.outst == 0

/-- Drain one operation at its granule or k-step boundary: RUNNING becomes PAUSED, PENDING stays. -/
def State.pauseOp (s : State) (i : Nat) : State :=
  let o := s.op i
  if o.st = .running then (s.unpinOp o).setOp i { o with st := .paused, wait := none } else s

/-- An operation that is to pause and has reached its boundary pauses (R323, R326). -/
def State.restOp (s : State) (i : Nat) : State :=
  let o := s.op i
  if o.live && o.st == .running && s.resting o && o.atBoundary then s.pauseOp i else s

/-- Every operation that has reached its boundary and is to pause. -/
def State.restAll (s : State) : State := (s.opsWhere (fun o => o.st == .running && s.resting o)).foldl State.restOp s

/-! ## Acknowledgement (R388, R397) -/

/-- An ACK a covers a packet of SEQ q. -/
def covers (a q : BitVec 16) : Bool := decide ((a - q).toNat < 512)

/-- What an operation's progress index ends at. -/
def OpKind.total : OpKind → Nat
  | .cpy _ _ n _ => n
  | .cpy2d _ _ n _ _ _ _ => n
  | .rsct _ _ n _ => n
  | .gath _ _ _ n _ _ => n
  | .nmo _ _ n _ _ _ _ => n
  | .mmma _ _ _ _ _ w => w.toNat % 256
  | _ => 0

/-- What a collective's progress index ends at stands in its block; a copy to a peer counts bytes (R397). -/
def ChildOp.total (o : ChildOp) : Nat :=
  match o.kind, o.blk with
  | .coll .., some b => b.count
  | .cpy2d _ _ rows rb _ _ _, _ => if o.away then rows * rb else rows
  | k, _ => k.total

/-- The progress index when a packet is acknowledged: a collective has stored up to `sent` once all of its packets are. -/
def ChildOp.progressAt (o : ChildOp) (p : Packet) : Nat :=
  match o.kind with
  | .coll .. => if o.outst = 1 then o.sent else o.progress
  | _ => p.done.getD o.progress

/-- An acknowledged packet of an operation: its granule may be complete, and the operation with it. One that is to pause does so once the granule
in flight is complete, whatever packets of later ones are formed (R323, R401). -/
def State.packetDone (s : State) (p : Packet) : State :=
  if s.liveHandle p.op && !(s.op (entryOf p.op)).st.terminal then
    let i := entryOf p.op
    let s1 := s.modOp i (fun o => { o with outst := o.outst - 1, progress := o.progressAt p })
    if (s1.op i).progress = (s1.op i).total && (s1.op i).outst = 0 then s1.endOp i OpEnd.done
    else if p.done.isSome && (s1.op i).live && s1.resting (s1.op i) then s1.pauseOp i
    else s1.restOp i
  else s

/-- An arriving ACK a covers a packet beyond the ACK h held when a replay began: of the 512 that can be (R399). -/
def beyond (a h : BitVec 16) : Bool := decide (1 ≤ (a - h).toNat) && decide ((a - h).toNat ≤ 512)

/-- Take an ACK: the packets it covers leave the buffer. Those of a sub-link have performed already (log 99). -/
def State.takeAck (s : State) (l : Nat) (a : BitVec 16) : State :=
  let x := s.link l
  let gone := x.buf.takeWhile (fun p => covers a p.seq)
  let n := gone.length
  let s1 := s.putLink l
    { x with
      acked := a, buf := x.buf.drop n, pos := x.pos - n, flit := if x.pos < n then 0 else x.flit, maxSent := x.maxSent - n
      holdoff := (match x.holdoff with | some h => if beyond a h then none else some h | none => none) }
  if l < 1024 then gone.foldl State.packetDone s1 else s1

/-! ## Failure (R389-R391, R393) -/

/-- The index that an operation records when its packets are lost: an rsct that of its train's first element (R230). -/
def ChildOp.lostIndex (o : ChildOp) : Nat := match o.kind with | .rsct .. => o.first | _ => o.progress

/-- End operations with a failed link or peer. -/
def State.abandon (s : State) (hs : List (BitVec 32)) : State :=
  hs.foldl (fun s h =>
    if s.liveHandle h && !(s.opOf h).st.terminal then (s.endOp (entryOf h) ⟨.faulted, 0x41, 0, (s.opOf h).lostIndex⟩).dropMembers (s.opOf h) else s) s

/-- The valid peers that a link serves and that have no link in service, none training and one failed (R391). -/
def State.lostPeers (s : State) (l : Nat) : List Nat :=
  (s.peers.filter (fun p => p.2.valid && !p.2.failed && p.2.links.getLsbD l &&
    !(p.2.list.any (fun k => (s.link k).st == .up || (s.link k).st == .training)) && p.2.list.any (fun k => (s.link k).st == .failed))).map (·.1)

/-- A link has left service: the peers that it leaves without a link, one of theirs FAILED, have failed (R391). -/
def State.judgePeers (s : State) (l : Nat) : State := (s.lostPeers l).foldl State.failPeer s

/-- A link fails (R391): its held packets are abandoned, their operations end, TYPE 0x07 is recorded, LNKEVT raised; peers left
without a link fail. One whose EN is clear goes DOWN once its packets are abandoned (R394). A stack pair without sub-links records TYPE 0x09
(R393). -/
def State.failLink (s : State) (l : Nat) : State :=
  let x := s.link l
  let hs := x.buf.map (·.op)
  let s1 := s.putLink l
    { x with
      st := if x.dropping then .down else .failed, dropping := false, halted := false, retest := false, buf := [], pos := 0, flit := 0, maxSent := 0, ann := none
      waking := 0, wakes := [], rx := [], rxSeq := none, holdoff := none, redo := false }
  let s2 := (s1.abandon hs).linkEvent l
  let s3 := s2.logError 0x07 2 planeData (BitVec.ofNat 32 l) 0x41 0 0
  let s4 := s3.judgePeers l
  if l < 1024 then s4
  else
    let p := (l - 1024) / 16
    if s4.pairDown (p / 8) (p % 8) then s4.logError 0x09 3 planeData (BitVec.ofNat 32 p) 0x41 0 0 else s4

end Sys2Proof.Machine
end

