-- ==== Sys2Proof/Machine/Engine.lean ====
section
/-! DEFINITION. Sys2Proof/Machine/Engine.lean: the engines (R225, R228-R236, R240, R241, R317-R320, R363, R397, R427): selection, start,
one granule of each operation. An engine writes a granule only after every check of it; what it waits for is kept in the operation. -/

namespace Sys2Proof.Machine

/-! ## Selection (R318, R319) -/

/-- Two operations are served by one engine: the matrix engine of a quad, the reduction engine of a sill; the other classes have one
engine per issuing core (log 23). -/
def sameEngine (a b : ChildOp) : Bool :=
  a.kind.cls == b.kind.cls &&
    (match a.kind.cls with
     | .mx => a.core / 4 == b.core / 4
     | .re => sillOf a.core == sillOf b.core
     | _ => a.core == b.core)

/-- Two operations were issued by one thread bank. -/
def sameIssuer (a b : ChildOp) : Bool := a.core == b.core && a.bank == b.bank && a.launch == b.launch && a.task == b.task

/-- An earlier operation of the same class and bank has not left PENDING (R318). -/
def State.behindPending (s : State) (o : ChildOp) : Bool :=
  s.ops.any (fun p => p.2.live && p.2.st == .pending && p.2.kind.cls == o.kind.cls && sameIssuer p.2 o && decide (p.2.age < o.age))

/-- A PENDING operation may start (R318); none does from phase 3 of the shutter sequence on (R409). -/
def State.startable (s : State) (o : ChildOp) : Bool :=
  decide (s.power.depth < 3) && o.live && o.st == .pending && o.after.isNone && !s.behindPending o && !s.opPaused o && !s.startBarred o

/-- An earlier matrix operation of the same seat has not ended (R240). -/
def State.behindMatrix (s : State) (o : ChildOp) : Bool :=
  o.kind.cls == .mx &&
    s.ops.any (fun p => p.2.live && !p.2.st.terminal && p.2.kind.cls == .mx && p.2.core == o.core && p.2.base == o.base &&
      p.2.launch == o.launch && p.2.task == o.task && decide (p.2.age < o.age))

/-- A RUNNING operation may begin a granule, or go on with one: at a boundary a paused launch, a seat that is SAVING and the shutter sequence hold
it (R323, R326, R409). -/
def State.mayServe (s : State) (o : ChildOp) : Bool := o.midGranule || !s.resting o

/-- An operation that its engine could serve now. -/
def State.eligible (s : State) (o : ChildOp) : Bool :=
  o.live && ((o.st == .running && s.mayServe o) || s.startable o) && !s.behindMatrix o

/-- The effective priority (R319). -/
def ChildOp.effective (o : ChildOp) : Nat := min 7 (o.prio.toNat + o.boost)

/-- The order of R319. -/
def servedBefore (a : ChildOp) (i : Nat) (b : ChildOp) (j : Nat) : Bool :=
  if a.effective != b.effective then decide (b.effective < a.effective)
  else if a.age != b.age then decide (a.age < b.age)
  else decide (i < j)

/-- What an operation waits for leaves its engine to others while it lasts: a claim, a pane, a FIFO (R319), and what its own packets or the other
members of its group must do first. -/
def State.yieldsEngine (s : State) (o : ChildOp) : Bool :=
  match o.wait with
  | some (.claim c b n) => (s.pane c b n).claims
  | some (.pane c b n) => !(s.pane c b n).settled
  | some (.fifo _ _) => true
  | some .fence => true
  | _ => false

/-- The engine takes this operation next: no other that it could serve, and that does not leave it to others, comes before it. -/
def State.selected (s : State) (i : Nat) : Bool :=
  s.eligible (s.op i) &&
    !(s.ops.any (fun p => p.1 != i && !s.yieldsEngine p.2 && s.eligible p.2 && sameEngine p.2 (s.op i) && servedBefore p.2 p.1 (s.op i) i))

/-- The engine serves an operation. -/
def State.serve (s : State) (i : Nat) : State := s.modOp i (fun o => { o with wait := none, boost := 0, aged := s.ns })

/-- The next granule waits; whether the engine serves others meanwhile is what it waits for (R319). -/
def State.blockOp (s : State) (i : Nat) (w : Wait) : State := s.modOp i (fun o => { o with wait := some w })

/-- ENGINE_PRIORITY_AGING (R319): one step for each full 256 µs without service. -/
def execEnginePriorityAging (op : Nat) (s : State) : Host.Outcome State Fault Refusal :=
  let o := s.op op
  .next (if o.live && !o.st.terminal && decide (o.aged + 256000 * (o.boost + 1) ≤ s.ns) && decide (o.effective < 7) then
    s.modOp op (fun o => { o with boost := o.boost + 1 }) else s)

/-! ## One access of an engine (R288-R293) -/

/-- What an access gives: a value, a failure with its cause and address, a wait. -/
inductive Eng (α : Type) where
  | ok (a : α)
  | bad (cause : BitVec 8) (va : Nat)
  | wait (w : Wait)

def Eng.andThen {α β : Type} (r : Eng α) (f : α → Eng β) : Eng β :=
  match r with
  | .ok a => f a
  | .bad k v => .bad k v
  | .wait w => .wait w

/-- The stack in which an address lies, when it lies in one. -/
def homeStack (pa : Nat) : Option Nat :=
  match regionOf pa with
  | .dram => some (dramCore pa / 192)
  | .sram => some (sramQuad pa / 48)
  | _ => none

/-- An address of an engine. Device registers are refused (log 24); an SRAM bank must be in SCRATCH mode (R293); a row waits for a
claim (R72); a stack whose sub-links have all failed is out of reach, and a write into another stack needs room on its sub-link (R393). -/
def engSpot (s : State) (o : ChildOp) (need : Need) (va : Nat) : Eng Spot :=
  match translate s (opCtx s o) need va with
  | .bad _ k => .bad k va
  | .wait w => .wait w
  | .ok p =>
    if p.peer ≠ 0 then .ok p
    else if ((homeStack p.pa).map (fun h => s.pairDown (sillOf o.core) h)).getD false then .bad 0x41 va
    else
      match (if need = .write then (homeStack p.pa).bind (s.subWait o) else none) with
      | some w => .wait w
      | none =>
      match regionOf p.pa with
      | .hole => .bad 0x10 va
      | .dev => .bad 0x11 va
      | .sram =>
        if (s.sram (sramQuad p.pa) (sramBankNo p.pa)).busy then .wait (.sram (sramQuad p.pa) (sramBankNo p.pa))
        else if modeAt s p.pa ≠ 1 then .bad 0x13 va
        else .ok p
      | _ => match claimOf s p.pa with | some w => .wait w | none => .ok p

/-- An element's address: a multiple of its size (log 25). -/
def elemSpot (s : State) (o : ChildOp) (need : Need) (va n : Nat) : Eng Spot :=
  if va % n ≠ 0 then .bad 0x12 va else engSpot s o need va

/-- A peer that an access reaches needs a link (R391). -/
def reachSpot (s : State) (o : ChildOp) (va : Nat) (p : Spot) : Eng Spot :=
  if p.peer = 0 then .ok p
  else
    match s.route o.core p.peer with
    | .dead _ => .bad 0x41 va
    | .waits => .wait .device
    | .link _ => .ok p

/-- An element of this device or of a peer (R290). -/
def anySpot (s : State) (o : ChildOp) (need : Need) (va n : Nat) : Eng Spot := (elemSpot s o need va n).andThen (reachSpot s o va)

/-- An element that must lie on this device (R290). -/
def localSpot (s : State) (o : ChildOp) (need : Need) (va n : Nat) : Eng Spot :=
  (elemSpot s o need va n).andThen (fun p => if p.peer ≠ 0 then .bad 0x16 va else .ok p)

/-- n bytes as the path of an operation sees them (R303). -/
def State.opSees (s : State) (o : ChildOp) (pa n : Nat) : Nat := s.sees o.core o.base o.kind.cls.path pa n

/-- Read an element: its value and whether it is poisoned. A peer's memory is outside the model: its bytes and their poison are free (log 26). -/
def engElem (s : State) (o : ChildOp) (p : Spot) (va n : Nat) : Nat × Bool :=
  if p.peer ≠ 0 then (freeNumber s.free va n, Config.freeMark s.free (va / 64)) else (s.opSees o p.pa n, s.poisonAt p.pa)

/-- An engine has read at an address (R295). -/
def State.touchVa (s : State) (o : ChildOp) (va : Nat) : State :=
  match translate s (opCtx s o) .read va with
  | .ok p => if p.peer = 0 then s.touch p.pa else s
  | _ => s

/-- An engine has read at several addresses. -/
def State.touchVas (s : State) (o : ChildOp) (vas : List Nat) : State := vas.foldl (fun s va => s.touchVa o va) s

/-- Read an index, an address or an operand that a peer may hold: poison is consumed (R427). -/
def anyElem (s : State) (o : ChildOp) (va n : Nat) : Eng Nat :=
  (anySpot s o .read va n).andThen (fun p => if (engElem s o p va n).2 then .bad 0x14 va else .ok (engElem s o p va n).1)

/-- Read an index, an address or an operand on this device: poison is consumed (R427). -/
def useElem (s : State) (o : ChildOp) (va n : Nat) : Eng Nat :=
  (localSpot s o .read va n).andThen (fun p => if s.poisonAt p.pa then .bad 0x14 va else .ok (s.opSees o p.pa n))

/-- Write an element on this device; a replica's shadow bytes become dirty (R331). -/
def State.engPut (s : State) (o : ChildOp) (p : Spot) (va v n : Nat) : State :=
  if p.peer ≠ 0 then s
  else
    let s1 := ({ s.poke none p.pa v n with ahead := s.ahead.filter (keepAheadEng o.core p.pa n) }).touch p.pa
    if opSeated s o then s1.markDirty o.core o.base va n else s1

/-! ## Poison of what a granule wrote (R350, R427) -/

/-- Bits of n bytes at an address within its 64-byte granule. -/
def byteBits (va n : Nat) : BitVec 64 := (BitVec.allOnes 64 >>> (64 - n)) <<< (va % 64)

/-- The bytes written per granule, and whether one of them came from poison. -/
def writtenBytes (ws : List (Nat × Nat × Bool)) : Table (BitVec 64 × Bool) :=
  ws.foldl (fun t w =>
    let g := look (0, false) t (w.1 / 64)
    put t (w.1 / 64) (g.1 ||| byteBits w.1 w.2.1, g.2 || w.2.2)) []

/-- A 64-byte granule that received poison is poisoned; one that the operation has written whole from clean bytes, however many of its granules and
events that took, is clean. -/
def State.settlePoison (s : State) (i : Nat) (ws : List (Nat × Nat × Bool)) : State :=
  (writtenBytes ws).foldl (fun s g =>
    let old := look (0, false) (s.op i).cover g.1
    let now : BitVec 64 × Bool := (old.1 ||| g.2.1, old.2 || g.2.2)
    match engSpot s (s.op i) .write (g.1 * 64) with
    | .ok p =>
      if p.peer ≠ 0 then s
      else
        let s1 := s.modOp i (fun o => { o with cover := put o.cover g.1 (if now.1 = BitVec.allOnes 64 then (0, false) else now) })
        if g.2.2 then s1.setPoison p.pa true
        else if now.1 = BitVec.allOnes 64 && !now.2 then s1.setPoison p.pa false
        else s1
    | _ => s) s

/-- The writes of a granule that lie in another stack: the stack, the physical address, the size. -/
def crossing (s : State) (o : ChildOp) (ws : List (Nat × Nat × Bool)) : List (Nat × Nat × Nat) :=
  if !o.carried then []
  else
    ws.filterMap (fun w =>
      match translate s (opCtx s o) .place w.1 with
      | .ok p => if p.peer ≠ 0 then none else (homeStack p.pa).bind (fun h => if h == sillOf o.core then none else some (h, p.pa, w.2.1))
      | _ => none)

/-- The packets that carry the writes of a granule into other stacks (R393; log 99). -/
def State.crossStacks (s : State) (i : Nat) (ws : List (Nat × Nat × Bool)) : State :=
  let o := s.op i
  let xs := crossing s o ws
  ((xs.map (·.1)).eraseDups).foldl (fun s h =>
    match s.subRoute o.core h with
    | none => s
    | some l =>
      let mine := xs.filter (fun x => x.1 == h)
      let bytes := mine.flatMap (fun x => (List.range x.2.2).map (fun k => BitVec.ofNat 8 (s.peek (x.2.1 + k) 1)))
      inPackets (fun s b => s.queuePacket l 0 (o.handle i) (BitVec.ofNat 64 ((mine.headD (0, 0, 0)).2.1)) b none) (packetsFor bytes.length) bytes s) s

/-- What a granule's writes leave: poison, and the packets between stacks. -/
def State.settleWrites (s : State) (i : Nat) (ws : List (Nat × Nat × Bool)) : State := (s.settlePoison i ws).crossStacks i ws

/-! ## How a granule ends -/

/-- Why a granule stopped. -/
inductive Halt where
  | bad (cause : BitVec 8) (va : Nat)
  | wait (w : Wait)
deriving DecidableEq, Repr

/-- A granule: the state, the next element, the writes with their sizes and poison, why it stopped. -/
structure Run where
  s : State
  j : Nat
  ws : List (Nat × Nat × Bool)
  halt : Option Halt

/-- Consumed poison is recorded (R427); no trap is taken, so no core counts it (R420). -/
def State.noteConsumed (s : State) (o : ChildOp) (cause : BitVec 8) (va : Nat) : State :=
  if cause = 0x14 then s.logError 0x03 2 planeData (locOf o.core o.bank 0) 0x14 (BitVec.ofNat 64 va) 0 else s

/-- The peer of an address that is out of reach has failed when a link to it has (R391). -/
def State.noteUnreached (s : State) (o : ChildOp) (cause : BitVec 8) (va : Nat) : State :=
  if cause = 0x41 then
    match translate s (opCtx s o) .read va with
    | .ok p => if p.peer = 0 then s else (match s.route o.core p.peer with | .dead true => s.failPeer p.peer | _ => s)
    | _ => s
  else s

/-- End an operation FAULTED (R320). -/
def State.faultOp (s : State) (i : Nat) (cause : BitVec 8) (va idx : Nat) : State :=
  (((s.noteConsumed (s.op i) cause va).noteUnreached (s.op i) cause va).endOp i ⟨.faulted, cause, BitVec.ofNat 64 va, idx⟩).dropMembers (s.op i)

/-- The end of a granule that counts elements, of `total` in all. One that waits keeps its place in the order (R319). -/
def Run.close (r : Run) (i total : Nat) : State :=
  let s1 := (r.s.settleWrites i r.ws).modOp i (fun o => { o with progress := r.j })
  match r.halt with
  | some (.bad k va) => (s1.serve i).faultOp i k va r.j
  | some (.wait w) => s1.blockOp i w
  | none => if r.j = total then (s1.serve i).endOp i OpEnd.done else s1.serve i

/-- Perform elements one after another, up to a number of them. -/
def runElems (f : State → Nat → Eng (State × List (Nat × Nat × Bool))) : Nat → Run → Run
  | 0, r => r
  | n + 1, r =>
    match f r.s r.j with
    | .ok x => runElems f n ⟨x.1, r.j + 1, r.ws ++ x.2, none⟩
    | .bad k va => { r with halt := some (.bad k va) }
    | .wait w => { r with halt := some (.wait w) }

/-- One granule of at most `per` elements of an operation that counts them, or the rest of one. -/
def elemGranule (s : State) (i per total : Nat) (f : State → Nat → Eng (State × List (Nat × Nat × Bool))) : State :=
  (runElems f (min (per - (s.op i).progress % per) (total - (s.op i).progress)) ⟨s, (s.op i).progress, [], none⟩).close i total

/-- A granule event acts when its operation runs and its engine takes it (R319). -/
def granuleOf (s : State) (i : Nat) (f : ChildOp → State) : Host.Outcome State Fault Refusal :=
  .next (if (s.op i).st == .running && s.selected i then (f (s.op i)).restAll.sweep else s)

/-! ## Bytes -/

/-- The pieces of n bytes that no 64-byte boundary divides. -/
def pieces : Nat → Nat → Nat → List (Nat × Nat)
  | 0, _, _ => []
  | fuel + 1, va, n => if n = 0 then [] else (va, min n (64 - va % 64)) :: pieces fuel (va + min n (64 - va % 64)) (n - min n (64 - va % 64))

def piecesOf (va n : Nat) : List (Nat × Nat) := pieces (n / 64 + 2) va n

/-- A piece with where it leads. -/
structure Piece where
  va : Nat
  n : Nat
  spot : Spot

def engPieces (s : State) (o : ChildOp) (need : Need) : List (Nat × Nat) → Eng (List Piece)
  | [] => .ok []
  | x :: xs => (engSpot s o need x.1).andThen (fun p => (engPieces s o need xs).andThen (fun ps => .ok (⟨x.1, x.2, p⟩ :: ps)))

/-- The bytes of a piece, each with its poison. -/
def Piece.read (s : State) (o : ChildOp) (x : Piece) : List (Byte × Bool) :=
  (List.range x.n).map (fun j =>
    if x.spot.peer ≠ 0 then (Config.freeByte s.free (x.va + j), Config.freeMark s.free (x.va / 64)) else (BitVec.ofNat 8 (s.opSees o (x.spot.pa + j) 1), s.poisonAt (x.spot.pa + j)))

/-- An engine has accessed pieces (R295). -/
def State.touchPieces (s : State) (ps : List Piece) : State := ps.foldl (fun s x => if x.spot.peer = 0 then s.touch x.spot.pa else s) s

/-- Write bytes over pieces. -/
def State.engWrite (s : State) (o : ChildOp) : List Piece → List (Byte × Bool) → State
  | [], _ => s
  | x :: xs, bs =>
    let s1 := { s.pokeBytes none x.spot.pa ((bs.take x.n).map (·.1)) with ahead := s.ahead.filter (keepAheadEng o.core x.spot.pa x.n) }
    State.engWrite (if opSeated s o then s1.markDirty o.core o.base x.va x.n else s1) o xs (bs.drop x.n)

/-- The writes of pieces with their poison. -/
def pieceWrites : List Piece → List (Byte × Bool) → List (Nat × Nat × Bool)
  | [], _ => []
  | x :: xs, bs => (x.va, x.n, (bs.take x.n).any (·.2)) :: pieceWrites xs (bs.drop x.n)

/-- A little-endian number. -/
def numberOf : List Byte → Nat
  | [] => 0
  | b :: bs => b.toNat + 256 * numberOf bs

/-! ## cpy and cpy2d (R229, R397) -/

/-- A copy as rows: how many bytes in all and in a row, the first addresses, the strides. -/
structure CopyShape where
  total : Nat
  row : Nat
  src : Word
  dst : Word
  ss : Word
  ds : Word
  byRow : Bool
deriving DecidableEq, Repr

def OpKind.copyShape : OpKind → Option CopyShape
  | .cpy d s n _ => some ⟨n, n, s, d, 0, 0, false⟩
  | .cpy2d d s rows rb ss ds _ => some ⟨rows * rb, rb, s, d, ss, ds, true⟩
  | _ => none

/-- The addresses of byte x. -/
def CopyShape.srcAt (c : CopyShape) (x : Nat) : Nat := (c.src + BitVec.ofNat 64 (x / c.row) * c.ss).toNat + x % c.row
def CopyShape.dstAt (c : CopyShape) (x : Nat) : Nat := (c.dst + BitVec.ofNat 64 (x / c.row) * c.ds).toNat + x % c.row

/-- The progress index when the bytes below x are complete. -/
def CopyShape.index (c : CopyShape) (x : Nat) : Nat := if c.byRow then x / c.row else x

/-- A destination byte lies in the source (R229). -/
def CopyShape.overlapped (c : CopyShape) (va : Nat) : Bool :=
  (List.range (if c.byRow then c.total / c.row else 1)).any (fun r =>
    let a := (c.src + BitVec.ofNat 64 r * c.ss).toNat
    decide (a ≤ va) && decide (va < a + c.row))

/-- The bytes of the next local granule from x on: one row or 4 KiB of it, within one destination page. -/
def CopyShape.granule (c : CopyShape) (x : Nat) : Nat :=
  min (min (4096 - x % c.row % 4096) (c.row - x % c.row)) (65536 - c.dstAt x % 65536)

/-- A link has failed under an operation: the peer too when a link of it has FAILED (R391). -/
def State.linkGone (s : State) (i peer va : Nat) (failed : Bool) : State :=
  (if failed then s.failPeer peer else s).faultOp i 0x41 va (s.op i).progress

/-- The first piece on a peer to which no link leads now, with what the route answers. -/
def unreached (s : State) (core : Nat) (ps : List Piece) : Option (Piece × Route) :=
  ps.findSome? (fun x =>
    if x.spot.peer = 0 then none
    else match s.route core x.spot.peer with | .link _ => none | r => some (x, r))

/-- Reading from peers needs a link to each of them. -/
def reachPeer (s : State) (i : Nat) (ps : List Piece) (go : State) : State :=
  match unreached s (s.op i).core ps with
  | none => go
  | some (x, .dead f) => s.linkGone i x.spot.peer x.va f
  | some _ => s.blockOp i .device

/-- A source byte as it stood before this operation overwrote it. -/
def ChildOp.original (o : ChildOp) (va : Nat) (b : Byte × Bool) : Byte × Bool := ((o.kept.find? (fun e => e.1 == va)).map (·.2)).getD b

/-- The source bytes of pieces, as they stood. -/
def originals (s : State) (o : ChildOp) (ps : List Piece) : List (Byte × Bool) :=
  ps.flatMap (fun x => ((Piece.read s o x).zipIdx).map (fun b => o.original (x.va + b.2) b.1))

/-- Keep bytes that an operation is about to overwrite. -/
def ChildOp.keeping (o : ChildOp) (bs : List (Nat × Byte × Bool)) : ChildOp :=
  { o with kept := o.kept ++ bs.filter (fun b => !(o.kept.any (fun e => e.1 == b.1))) }

/-- One granule with a local destination. Overlapped bytes are free, and only they (R229). -/
def copyLocal (s : State) (i : Nat) (o : ChildOp) (c : CopyShape) : State :=
  let x := o.sent
  let n := c.granule x
  if o.outst ≠ 0 then s.blockOp i .fence
  else
    match engPieces s o .read (piecesOf (c.srcAt x) n), engPieces s o .write (piecesOf (c.dstAt x) n) with
    | .bad k va, _ => s.faultOp i k va o.progress
    | _, .bad k va => s.faultOp i k va o.progress
    | .wait w, _ => s.blockOp i w
    | _, .wait w => s.blockOp i w
    | .ok src, .ok dst =>
      reachPeer s i src
        (let raw := originals s o src
         let bytes := (raw.zipIdx).map (fun b => if c.overlapped (c.dstAt x + b.2) then (Config.freeByte s.free (c.dstAt x + b.2), b.1.2) else b.1)
         let lost := (((dst.flatMap (Piece.read s o)).zipIdx).map (fun b => (c.dstAt x + b.2, b.1))).filter (fun b => c.overlapped b.1)
         let s0 := s.modOp i (fun o => o.keeping lost)
         let s1 := ((((s0.freeBytes.2.engWrite o dst bytes).touchPieces src).touchPieces dst).settleWrites i (pieceWrites dst bytes)).serve i
         let s2 := s1.modOp i (fun o => { o with sent := x + n, progress := if o.away then x + n else c.index (x + n) })
         if x + n = c.total then s2.endOp i OpEnd.done else s2)

/-- Another link still holds a packet of a core for this peer (R392). -/
def State.heldElsewhere (s : State) (core n l : Nat) : Bool :=
  (s.peer n).list.any (fun k => k != l && (s.link k).buf.any (fun p => (s.op (entryOf p.op)).core == core))

/-- The bytes from x on, `n` of them, as runs within one row and one destination page. -/
def CopyShape.runs (c : CopyShape) : Nat → Nat → Nat → List (Nat × Nat)
  | 0, _, _ => []
  | fuel + 1, x, n =>
    if n = 0 then []
    else
      let k := min n (min (c.row - x % c.row) (65536 - c.dstAt x % 65536))
      (x, k) :: c.runs fuel (x + k) (n - k)

/-- The runs that lead to one peer, from the first. -/
def samePeer (s : State) (o : ChildOp) (c : CopyShape) (n : Nat) (rs : List (Nat × Nat)) : List (Nat × Nat) :=
  rs.takeWhile (fun r => match engSpot s o .write (c.dstAt r.1) with | .ok p => p.peer == n | _ => false)

/-- Form the packet of the next 2,048 data bytes of a copy to a peer (R397): from then on the progress index counts the leading bytes of
complete granules. -/
def copyPacket (s : State) (i : Nat) (c : CopyShape) : State :=
  let o := s.op i
  let x := o.sent
  if c.total ≤ x || o.st.terminal then s
  else
    match engSpot s o .write (c.dstAt x) with
    | .bad k va => s.faultOp i k va o.progress
    | .wait w => s.blockOp i w
    | .ok p =>
      if p.peer = 0 then s
      else
        match s.route o.core p.peer with
        | .dead f => s.linkGone i p.peer (c.dstAt x) f
        | .waits => s.blockOp i .device
        | .link l =>
          if !(s.link l).accepts || s.heldElsewhere o.core p.peer l then s.blockOp i .device
          else
            let rs := samePeer s o c p.peer (c.runs 2048 x (min (2048 - x % 2048) (c.total - x)))
            let y := x + (rs.map (·.2)).foldl (· + ·) 0
            match engPieces s o .read (rs.flatMap (fun r => piecesOf (c.srcAt r.1) r.2)) with
            | .bad k va => s.faultOp i k va o.progress
            | .wait w => s.blockOp i w
            | .ok src =>
              reachPeer s i src
                (let done := if y % 4096 = 0 || y = c.total || decide (y - x < min (2048 - x % 2048) (c.total - x)) then some y else none
                 let s1 := if o.away then s else s.modOp i (fun o => { o with away := true, progress := x })
                 (((s1.freeBytes.2.touchPieces src).formPacket l p.peer (o.handle i) (BitVec.ofNat 64 p.pa) ((originals s o src).map (·.1)) done).serve i).modOp i
                   (fun o => { o with sent := y }))

/-- One granule of a copy. -/
def State.copyGranule (s : State) (i : Nat) (o : ChildOp) : State :=
  match o.kind.copyShape with
  | none => s
  | some c =>
    if c.total ≤ o.sent then s.blockOp i .fence
    else
      match engSpot s o .write (c.dstAt o.sent) with
      | .bad k va => s.faultOp i k va o.progress
      | .wait w => s.blockOp i w
      | .ok p => if p.peer = 0 then copyLocal s i o c else copyPacket (copyPacket s i c) i c

/-- COPY_GRANULE (R229). -/
def execCopyGranule (op : Nat) (s : State) : Host.Outcome State Fault Refusal := granuleOf s op (s.copyGranule op)

/-- The alignment that a copy checks before any byte moves (R229): the first address, count or size that breaks it. -/
def copyMisaligned : OpKind → Option Nat
  | .cpy d s n e => [d.toNat, s.toNat, n].find? (fun x => x % 2 ^ e != 0)
  | .cpy2d d s rows rb ss ds e => ([d.toNat, s.toNat, rb] ++ (if 1 < rows then [ss.toNat, ds.toNat] else [])).find? (fun x => x % 2 ^ e != 0)
  | _ => none

/-! ## gath (R231) -/

/-- Element j of gath. -/
def gathElem (s : State) (o : ChildOp) (dst src idx : Word) (sz isz j : Nat) : Eng (State × List (Nat × Nat × Bool)) :=
  (useElem s o (idx.toNat + isz * j) isz).andThen fun x =>
    let a := (src + (if isz = 4 then (BitVec.ofNat 32 x).signExtend 64 else BitVec.ofNat 64 x)).toNat
    (localSpot s o .read a sz).andThen fun p =>
      let d := dst.toNat + sz * j
      (localSpot s o .write d sz).andThen fun q =>
        .ok ((s.engPut o q d (s.opSees o p.pa sz) sz).touchVas o [idx.toNat + isz * j, a], [(d, sz, s.poisonAt p.pa)])

/-- GATH_GRANULE (R231): 256 elements. -/
def execGathGranule (op : Nat) (s : State) : Host.Outcome State Fault Refusal :=
  granuleOf s op (fun o =>
    match o.kind with
    | .gath dst src idx n esz idx64 => elemGranule s op 256 n (fun s j => gathElem s o dst src idx (2 ^ esz) (if idx64 then 8 else 4) j)
    | _ => s)

/-! ## nmo (R232) -/

/-- A reduction operator on two encodings (R233). -/
def combine (oper : Nat) (t : BitVec 4) (mode : RMode) (a b : Nat) : Nat :=
  match oper with
  | 0 => (arith t mode false (fvAdd mode) (· + ·) a b).1
  | 1 => (minMaxOf t true a b).1
  | 2 => (minMaxOf t false a b).1
  | 3 => a &&& b
  | 4 => a ||| b
  | _ => a ^^^ b

/-- t + s * o (R232): rounded once, or modular. -/
def scaleAdd (t : BitVec 4) (sc x y : Nat) : Nat :=
  match floatOf t with
  | some _ => (fused t .rne false (fvFma .rne) sc x y).1
  | none => ofIntW (fmtBits t) (intOf t y + intOf t sc * intOf t x)

/-- The target of nmo: its home holds the newest bytes (R156). -/
def homeElem (s : State) (o : ChildOp) (va n : Nat) : Eng Nat :=
  (localSpot s o .read va n).andThen (fun p => if s.poisonAt p.pa then .bad 0x14 va else .ok (s.peek p.pa n))

/-- Element j of nmo: one indivisible step at the home of the target (R156). -/
def nmoElem (s : State) (o : ChildOp) (dst src : Word) (kind oper : Nat) (t : BitVec 4) (scal : Word) (j : Nat) :
    Eng (State × List (Nat × Nat × Bool)) :=
  let sz := fmtBits t / 8
  let d := dst.toNat + sz * j
  let a := src.toNat + (if kind = 1 then 2 else 1) * sz * j
  (localSpot s o .write d sz).andThen fun q =>
    (homeElem s o d sz).andThen fun old =>
      (useElem s o a sz).andThen fun x =>
        if kind = 1 then
          (localSpot s o .write a sz).andThen fun p =>
            (useElem s o (a + sz) sz).andThen fun n =>
              .ok ((if old = x then s.engPut o q d n sz else s).engPut o p a old sz, [])
        else
          .ok ((s.engPut o q d (if kind = 0 then combine oper t .rne old x else scaleAdd t (scal.toNat % 2 ^ fmtBits t) x old) sz).touchVa o a, [])

/-- NMO_GRANULE (R232): 256 elements. -/
def execNmoGranule (op : Nat) (s : State) : Host.Outcome State Fault Refusal :=
  granuleOf s op (fun o =>
    match o.kind with
    | .nmo dst src n kind oper fmt scal =>
      elemGranule s op 256 n (fun s j => nmoElem s o dst src kind oper (BitVec.ofNat 4 fmt) scal j)
    | _ => s)

/-! ## Parameter blocks (R233, R236) -/

/-- A field of a block. -/
def fieldOf (bs : List Byte) (k n : Nat) : Nat := numberOf ((bs.drop k).take n)

/-- A parameter block that has been read; its sources follow. -/
def blockOf (bs : List Byte) : ParamBlock :=
  { n := fieldOf bs 0 4, count := fieldOf bs 8 8, dst := BitVec.ofNat 64 (fieldOf bs 16 8), flag := BitVec.ofNat 64 (fieldOf bs 24 8)
    srcs := [BitVec.ofNat 64 (fieldOf bs 32 8)], order := fieldOf bs 40 1
    rm := if fieldOf bs 41 1 ≤ 1 then 0 else BitVec.ofNat 3 (fieldOf bs 41 1 - 1), group := fieldOf bs 48 8, rank := 0, tag := 0 }

/-- A block is consistent with the options of red, or of coll (R233). -/
def blockOk (bs : List Byte) (coll : Bool) (kind oper fmt : Nat) : Bool :=
  let n := fieldOf bs 0 4
  fieldOf bs 4 2 == fmt && fieldOf bs 6 2 == oper && decide (fieldOf bs 40 1 ≤ (if coll then 0 else 1)) && decide (fieldOf bs 41 1 ≤ 3) &&
    fieldOf bs 42 6 == 0 && fieldOf bs 56 8 == 0 &&
    (if coll then kind != 2 || (n != 0 && fieldOf bs 8 8 % n == 0)
     else fieldOf bs 48 8 == 0 && decide (1 ≤ n) && decide (n ≤ 16))

/-- Pieces on a peer: red does not reach it, coll needs a link to it (R290, R391). -/
def reachPieces (s : State) (o : ChildOp) (coll : Bool) : List Piece → Eng (List Piece)
  | [] => .ok []
  | x :: xs =>
    (if x.spot.peer ≠ 0 ∧ !coll then .bad 0x16 x.va else reachSpot s o x.va x.spot).andThen fun _ => (reachPieces s o coll xs).andThen fun ys => .ok (x :: ys)

/-- Read the 64 bytes of a block (R427: poison is consumed). -/
def readBlock (s : State) (o : ChildOp) (coll : Bool) (va : Nat) : Eng (List Byte) :=
  ((engPieces s o .read (piecesOf va 64)).andThen (reachPieces s o coll)).andThen fun ps =>
    match ps.find? (fun x => (Piece.read s o x).any (·.2)) with
    | some x => .bad 0x14 x.va
    | none => .ok ((ps.flatMap (Piece.read s o)).map (·.1))

/-- Read n doublewords of a table. -/
def readTable (s : State) (o : ChildOp) (va : Nat) : Nat → Eng (List Word)
  | 0 => .ok []
  | n + 1 => (useElem s o va 8).andThen fun x => (readTable s o (va + 8) n).andThen fun xs => .ok (BitVec.ofNat 64 x :: xs)

/-- A member doubleword (R236). -/
def memberNode (w : Word) : BitVec 32 := w.extractLsb' 0 32
def memberCore (w : Word) : Nat := (w.extractLsb' 32 11).toNat
def memberBank (w : Word) : Nat := (w.extractLsb' 44 4).toNat
def memberBad (w : Word) : Bool := w.getLsbD 43 || w.extractLsb' 48 16 != 0

def State.group (s : State) (g : Nat) : Group := look Group.empty s.groups g

/-- The ranks that name a bank of this device. -/
def ranksOf (s : State) (ms : List Word) (core bank : Nat) : List Nat :=
  ((ms.zipIdx).filter (fun m => memberNode m.1 == s.selfNode && memberCore m.1 == core && memberBank m.1 == bank)).map (·.2)

/-- The peer-table entry of a node (R236). -/
def State.peerOfNode (s : State) (node : BitVec 32) : Option Nat := (s.peers.find? (fun p => p.2.valid && p.2.node == node)).map (·.1)

/-- A doubleword of a member table, read at its physical address: it waits as any access does (R225), and its poison is consumed, and an
SRAM bank must be in SCRATCH mode (R293). -/
def memberWord (s : State) (pa : Nat) : Eng Word :=
  match heldAt s pa, regionOf pa with
  | some w, _ => .wait w
  | none, .hole => .bad 0x10 pa
  | none, .dev => .bad 0x11 pa
  | none, r => if r = .sram && modeAt s pa != 1 then .bad 0x13 pa else if s.poisonAt pa then .bad 0x14 pa else .ok (BitVec.ofNat 64 (s.peek pa 8))

/-- The member table of a group from an address on. -/
def memberTable (s : State) (pa : Nat) : Nat → Eng (List Word)
  | 0 => .ok []
  | n + 1 => (memberWord s pa).andThen fun w => (memberTable s (pa + 8) n).andThen fun ws => .ok (w :: ws)

/-! ## Starting (R317, R318) -/

/-- An operation becomes RUNNING. -/
def State.setRunning (s : State) (i : Nat) : State := (s.serve i).modOp i (fun o => { o with st := .running })

/-- red: the block and the source table (R363 step 1). -/
def startRed (s : State) (i : Nat) (o : ChildOp) (blk : Word) (oper fmt : Nat) : State :=
  match readBlock s o (o.kind.cls == .co) blk.toNat with
  | .bad k va => s.faultOp i k va 0
  | .wait w => s.blockOp i w
  | .ok bs =>
    let b := blockOf bs
    let s1 := s.modOp i (fun o => { o with blk := some b })
    if !blockOk bs false 0 oper fmt then s1.faultOp i 0x42 blk.toNat 0
    else
      match readTable s o ((b.srcs.headD 0).toNat) b.n with
      | .bad k va => s1.faultOp i k va 0
      | .wait w => s.blockOp i w
      | .ok xs => (((s.touchVas o [blk.toNat, (b.srcs.headD 0).toNat]).freeBytes.2).modOp i (fun o => { o with blk := some { b with srcs := xs } })).setRunning i

/-- coll: the block, the group entry and the member table (R236). -/
def startColl (s : State) (i : Nat) (o : ChildOp) (blk : Word) (kind oper fmt : Nat) : State :=
  match readBlock s o (o.kind.cls == .co) blk.toNat with
  | .bad k va => s.faultOp i k va 0
  | .wait w => s.blockOp i w
  | .ok bs =>
    let b := blockOf bs
    let s1 := s.modOp i (fun o => { o with blk := some b })
    let g := s.group b.group
    if !blockOk bs true kind oper fmt || decide (1024 ≤ b.group) || !g.valid || g.count != b.n then s1.faultOp i 0x42 blk.toNat 0
    else
      match memberTable s g.mtab.toNat g.count with
      | .bad k a => s1.faultOp i k a 0
      | .wait w => s.blockOp i w
      | .ok ms =>
        match ranksOf s ms o.core o.bank with
        | [r] =>
          if ms.any memberBad then s1.faultOp i 0x42 blk.toNat 0
          else if ms.any (fun m => memberNode m != s.selfNode && (s.peerOfNode (memberNode m)).isNone) then s1.faultOp i 0x41 blk.toNat 0
          else ((s.touchVa o blk.toNat).freeBytes.2.modOp i (fun o => { o with blk := some { b with srcs := b.srcs ++ ms, rank := r, tag := g.tag } })).setRunning i
        | _ => s1.faultOp i 0x42 blk.toNat 0

/-- The panes of an mmma in the banks of its seat. -/
def mmmaPanes (s : State) (o : ChildOp) : List (Nat × Nat) :=
  (opBanks s o).flatMap (fun b => o.kind.panes.map (fun n => (b, n)))

/-- An operand pane that is CLOSED; a parked one is not (R74, R240). Of a seat that is gone only what an orphan kept is open (R322). -/
def closedPane (s : State) (o : ChildOp) : Option (Nat × Nat) :=
  if !opSeated s o && (o.orphan.isNone || o.st == .pending) then some (o.base, o.kind.panes.headD 0)
  else (mmmaPanes s o).find? (fun q => let p := s.pane o.core q.1 q.2; !p.park && (p.st == .closed || p.st == .closing))

/-- Reopen the parked operand panes (R74). -/
def State.reopenOperands (s : State) (o : ChildOp) : State :=
  (mmmaPanes s o).foldl (fun s q => if (s.pane o.core q.1 q.2).park then s.modBank o.core q.1 (fun b => b.unparkPane q.2) else s) s

/-- mmma: its panes are open and become pinned (R240). -/
def startMmma (s : State) (i : Nat) (o : ChildOp) : State :=
  match closedPane s o with
  | some q => s.faultOp i 0x05 (q.2 + 16 * q.1) o.progress
  | none =>
    match (mmmaPanes s o).find? (fun q => let p := s.pane o.core q.1 q.2; p.st == .opening || (p.park && p.busy)) with
    | some q => s.blockOp i (.pane o.core q.1 q.2)
    | none => ((s.reopenOperands o).pinOp o).setRunning i

/-- An operation leaves PENDING. -/
def State.startOp (s : State) (i : Nat) : State :=
  let o := s.op i
  match o.kind with
  | .cpy .. | .cpy2d .. =>
    match copyMisaligned o.kind with
    | some a => s.faultOp i 0x12 a 0
    | none => if (o.kind.copyShape.map (·.total)).getD 0 = 0 then (s.setRunning i).endOp i OpEnd.done else s.setRunning i
  | .red blk oper fmt => startRed s i o blk oper fmt
  | .coll blk kind oper fmt => startColl s i o blk kind oper fmt
  | .mmma .. => startMmma s i o
  | .mdrain _ _ _ _ cols _ => if cols = 0 then (s.setRunning i).endOp i OpEnd.done else s.setRunning i
  | .rsct .. | .gath .. | .nmo .. => s.setRunning i
  | .tspawn .. | .launch .. => s.dueStart i

/-- OP_START (R318). -/
def execOpStart (op : Nat) (s : State) : Host.Outcome State Fault Refusal :=
  .next (if s.startable (s.op op) && s.selected op then (s.startOp op).sweep else s)

/-! ## red (R234, R363) -/

/-- The operator over a list of encodings (R60, R234). -/
def reduceAll (oper : Nat) (t : BitVec 4) (mode : RMode) (order : Nat) (xs : List Nat) : Nat :=
  match oper with
  | 0 =>
    if order = 1 && (floatOf t).isSome then
      let v := (xs.drop 1).foldl (combine 0 t mode) (xs.headD 0)
      (match floatOf t with | some f => if (unpack f v).isNan then nanEnc f else v | none => v)
    else (sumOf t mode false (xs.map some)).1
  | 1 => (extremeOf t true false xs).1
  | 2 => (extremeOf t false false xs).1
  | _ => (xs.drop 1).foldl (combine oper t mode) (xs.headD 0)

/-- An element as it stood before this operation overwrote bytes of it. -/
def ChildOp.originalNumber (o : ChildOp) (va n x : Nat) : Nat :=
  numberOf ((List.range n).map (fun k => (o.original (va + k) (BitVec.ofNat 8 (x / 256 ^ k), false)).1))

/-- Element e of every source. -/
def redRead (s : State) (o : ChildOp) (sz e : Nat) : List Word → Eng (List Nat)
  | [] => .ok []
  | a :: as =>
    (useElem s o (a.toNat + sz * e) sz).andThen fun x => (redRead s o sz e as).andThen fun xs => .ok (o.originalNumber (a.toNat + sz * e) sz x :: xs)

/-- The elements of a granule from e on, read before any is written: their values, and why reading stopped. -/
def redReads (s : State) (o : ChildOp) (sz : Nat) (srcs : List Word) : Nat → Nat → List (List Nat) × Option Halt
  | 0, _ => ([], none)
  | n + 1, e =>
    match redRead s o sz e srcs with
    | .ok xs => let r := redReads s o sz srcs n (e + 1); (xs :: r.1, r.2)
    | .bad k va => ([], some (.bad k va))
    | .wait w => ([], some (.wait w))

/-- A destination byte range overlaps a source at another offset than 0 (R363). -/
def redOverlap (b : ParamBlock) (sz va : Nat) : Bool :=
  b.srcs.any (fun a => a != b.dst && overlaps va sz a.toNat (sz * b.count))

/-- Write the results of a granule. -/
def redWrite (i : Nat) (o : ChildOp) (b : ParamBlock) (sz : Nat) (f : List Nat → Nat) : List (List Nat) → Run → Run
  | [], r => r
  | xs :: rest, r =>
    let va := b.dst.toNat + sz * r.j
    match localSpot r.s o .write va sz with
    | .bad k a => { r with halt := some (.bad k a) }
    | .wait w => { r with halt := some (.wait w) }
    | .ok p =>
      let v := if redOverlap b sz va then freeNumber r.s.free va sz else f xs
      let lost := if redOverlap b sz va then (List.range sz).map (fun k => (va + k, BitVec.ofNat 8 (r.s.opSees o (p.pa + k) 1), false)) else []
      redWrite i o b sz f rest { r with s := ((r.s.modOp i (fun o => o.keeping lost)).engPut o p va v sz).touchVas o (b.srcs.map (fun a => a.toNat + sz * r.j)), j := r.j + 1, ws := r.ws ++ [(va, sz, false)] }

/-- One granule of red. A wait performs nothing of the granule. -/
def redGranuleAt (s : State) (i : Nat) (o : ChildOp) (b : ParamBlock) (oper fmt : Nat) : State :=
  let t := BitVec.ofNat 4 fmt
  let sz := fmtBits t / 8
  let xs := redReads s o sz b.srcs (min (4096 / sz) (b.count - o.progress)) o.progress
  match xs.2 with
  | some (.wait w) => s.blockOp i w
  | h =>
    let r := redWrite i o b sz (reduceAll oper t (rmodeOf b.rm) b.order) xs.1 ⟨s, o.progress, [], none⟩
    match r.halt with
    | some (.wait w) => s.blockOp i w
    | some x => ({ r with s := r.s.freeBytes.2, halt := some x }).close i b.count
    | none => ({ r with s := r.s.freeBytes.2, halt := h }).close i b.count

/-- RED_GRANULE (R363). -/
def execRedGranule (op : Nat) (s : State) : Host.Outcome State Fault Refusal :=
  granuleOf s op (fun o =>
    match o.kind, o.blk with
    | .red _ oper fmt, some b => redGranuleAt s op o b oper fmt
    | _, _ => s)

/-! ## coll (R235, R236) -/

/-- The members of a coll, by rank. -/
def ParamBlock.members (b : ParamBlock) : List Word := b.srcs.drop 1

/-- The operation of the local member of a rank that meets one of the group: its bank's own of the same place in their order. -/
def memberOp (s : State) (o : ChildOp) (g : Nat) (m : Word) : Option Nat :=
  (s.ops.find? (fun p => p.2.inGroup g && p.2.core == memberCore m && p.2.bank == memberBank m && s.collNth p.2 g == s.collNth o g)).map (·.1)

/-- The local members as rank and operation; none when one has not come. -/
def localMembers (s : State) (o : ChildOp) (b : ParamBlock) : Option (List (Nat × Nat)) :=
  ((b.members.zipIdx).filter (fun m => memberNode m.1 == s.selfNode)).mapM (fun m => (memberOp s o b.group m.1).map (fun i => (m.2, i)))

/-- The remote ranks. -/
def remoteRanks (s : State) (b : ParamBlock) : List Nat := ((b.members.zipIdx).filter (fun m => memberNode m.1 != s.selfNode)).map (·.2)

/-- What the members of a group must agree on: tag, kind, operator, format, count (R236), and the rounding of their blocks (log 85). -/
def collKey (o : ChildOp) : Option (Word × Nat × Nat × Nat × Nat × BitVec 3) :=
  match o.kind, o.blk with
  | .coll _ kind oper fmt, some b => some (b.tag, kind, oper, fmt, b.count, b.rm)
  | _, _ => none

/-- End every local member's operation FAULTED. -/
def State.faultAll (s : State) (is : List Nat) (cause : BitVec 8) : State :=
  is.foldl (fun s i => if (s.op i).st.terminal then s else s.endOp i ⟨.faulted, cause, 0, (s.op i).progress⟩) s

/-- The input element of a local rank with its poison. A peer page gives free values. -/
def memberElem (s : State) (i sz e : Nat) (carries : Bool) : Eng (Nat × Bool) :=
  let o := s.op i
  let va := ((o.blk.map (fun b => (b.srcs.headD 0).toNat)).getD 0) + sz * e
  (anySpot s o .read va sz).andThen fun p =>
    let x := engElem s o p va sz
    if x.2 && !carries then .bad 0x14 va else .ok x

/-- Why a granule of a collective stops: a local member fails, or one waits. -/
inductive CollHalt where
  | member (op : Nat) (cause : BitVec 8) (va : Nat)
  | wait (w : Wait)

/-- The inputs of element e by rank, those that `need` names. -/
def collInputs (s : State) (locals : List (Nat × Nat)) (remote : List RemoteMember) (sz pos e : Nat) (carries : Bool) :
    List Nat → Except CollHalt (List (Nat × Bool))
  | [] => .ok []
  | r :: rs =>
    match locals.find? (fun p => p.1 == r) with
    | some p =>
      match memberElem s p.2 sz e carries with
      | .ok x => (collInputs s locals remote sz pos e carries rs).map (x :: ·)
      | .bad k va => .error (.member p.2 k va)
      | .wait w => .error (.wait w)
    | none =>
      let x := ((remote.find? (fun m => m.rank == r)).bind (fun m => m.elems[e - pos]?)).getD 0
      (collInputs s locals remote sz pos e carries rs).map ((x % 2 ^ (8 * sz), false) :: ·)

/-- The inputs of elements from e on. -/
def collReads (s : State) (locals : List (Nat × Nat)) (remote : List RemoteMember) (sz pos : Nat) (carries : Bool) (ranks : List Nat) :
    Nat → Nat → List (List (Nat × Bool)) × Option CollHalt
  | 0, _ => ([], none)
  | n + 1, e =>
    match collInputs s locals remote sz pos e carries ranks with
    | .ok xs => let r := collReads s locals remote sz pos carries ranks n (e + 1); (xs :: r.1, r.2)
    | .error h => ([], some h)

/-- What rank r of m stores for element e of `count`: destination index, value, poison. -/
def collStores (kind oper : Nat) (t : BitVec 4) (mode : RMode) (m count r e : Nat) (xs : List (Nat × Bool)) : List (Nat × Nat × Bool) :=
  match kind with
  | 0 => [(e, reduceAll oper t mode 0 (xs.map (·.1)), false)]
  | 1 => (xs.zipIdx).map (fun x => (x.2 * count + e, x.1.1, x.1.2))
  | 2 => if r * (count / m) ≤ e ∧ e < (r + 1) * (count / m) then [(e - r * (count / m), reduceAll oper t mode 0 (xs.map (·.1)), false)] else []
  | _ => [(e, (xs.headD (0, false)).1, (xs.headD (0, false)).2)]

/-- Where the stores of one local member lead: address, value, poison. -/
def collSpots (s : State) (i sz : Nat) : List (Nat × Nat × Bool) → Eng (List (Nat × Spot × Nat × Bool))
  | [] => .ok []
  | x :: xs =>
    let o := s.op i
    let va := ((o.blk.map (fun b => b.dst.toNat)).getD 0) + sz * x.1
    (anySpot s o .write va sz).andThen fun p => (collSpots s i sz xs).andThen fun r => .ok ((va, p, x.2.1, x.2.2) :: r)

/-- The bytes of encodings, sz each, lowest first. -/
def encBytes (sz : Nat) (vs : List Nat) : List Byte := vs.flatMap (fun v => (List.range sz).map (fun k => BitVec.ofNat 8 (v / 256 ^ k)))

/-- Bytes of a member to one peer, in packets; a link that does not take all of them is waited for (R308, R392; log 86). -/
def collSend (s : State) (i n : Nat) (dst : Word) (bytes : List Byte) (va : Nat) : Eng State :=
  match s.route (s.op i).core n with
  | .dead _ => .bad 0x41 va
  | .waits => .wait .device
  | .link l =>
    if !(s.link l).acceptsAll (packetsFor bytes.length) || s.heldElsewhere (s.op i).core n l then .wait .device
    else .ok (inPackets (fun s b => s.formPacket l n ((s.op i).handle i) dst b none) (packetsFor bytes.length) bytes s)

/-- The stores of one local member to peers, one peer after another. -/
def collAway (i sz : Nat) (xs : List (Nat × Spot × Nat × Bool)) : List Nat → State → Eng State
  | [], s => .ok s
  | n :: ns, s =>
    let mine := xs.filter (fun x => x.2.1.peer == n)
    (collSend s i n (BitVec.ofNat 64 ((mine.map (·.2.1.pa)).headD 0)) (encBytes sz (mine.map (·.2.2.1))) ((mine.map (·.1)).headD 0)).andThen (collAway i sz xs ns)

/-! ### Contributions to remote members (R386, R391, R392; log 86) -/

/-- The peers that hold the remote members, one for each member. -/
def remotePeers (s : State) (b : ParamBlock) : List Nat :=
  (b.members.filter (fun m => memberNode m != s.selfNode)).filterMap (fun m => s.peerOfNode (memberNode m))

/-- The inputs of one member from element e on. -/
def ownElems (s : State) (i sz : Nat) (carries : Bool) : Nat → Nat → Eng (List Nat)
  | 0, _ => .ok []
  | n + 1, e => (memberElem s i sz e carries).andThen fun x => (ownElems s i sz carries n (e + 1)).andThen fun xs => .ok (x.1 :: xs)

/-- A member's contribution goes to peers, one after another. -/
def giveTo (i : Nat) (bytes : List Byte) : List Nat → State → Eng State
  | [], s => .ok s
  | n :: ns, s => (collSend s i n 0 bytes 0).andThen (giveTo i bytes ns)

/-- One local member sends its elements of the granule from e on to every remote member, once. -/
def giveOne (s : State) (b : ParamBlock) (i sz e n : Nat) (carries : Bool) : Eng State :=
  if e + n ≤ (s.op i).given then .ok s
  else
    (ownElems s i sz carries n e).andThen fun vs =>
      (giveTo i (encBytes sz vs) (remotePeers s b) s).andThen fun s1 => .ok ((s1.freeBytes.2).modOp i (fun o => { o with given := e + n }))

/-- The local members that contribute, one after another; of a broadcast only rank 0 does. -/
def giveAll (b : ParamBlock) (kind sz e n : Nat) (carries : Bool) : List (Nat × Nat) → State → Except (CollHalt × State) State
  | [], s => .ok s
  | p :: ps, s =>
    if (kind == 3 && p.1 != 0) || (remotePeers s b).isEmpty then giveAll b kind sz e n carries ps s
    else
      match giveOne s b p.2 sz e n carries with
      | .ok s1 => giveAll b kind sz e n carries ps s1
      | .bad k va => .error (.member p.2 k va, s)
      | .wait w => .error (.wait w, s)

/-- Store for one local member; its writes on this device. -/
def collPut (s : State) (i sz : Nat) (xs : List (Nat × Nat × Bool)) : Eng (State × List (Nat × Nat × Bool)) :=
  (collSpots s i sz xs).andThen fun r =>
    let here := r.filter (fun x => x.2.1.peer == 0)
    let away := r.filter (fun x => x.2.1.peer != 0)
    (collAway i sz away ((away.map (fun x => x.2.1.peer)).eraseDups) s).andThen fun s1 =>
      .ok (here.foldl (fun s x => s.engPut (s.op i) x.2.1 x.1 x.2.2.1 sz) s1, here.map (fun x => (x.1, sz, x.2.2.2)))

/-- Store element e for every local member, or for none. -/
def collPutAll (stores : Nat → List (Nat × Nat × Bool)) (sz : Nat) :
    List (Nat × Nat) → State × Table (List (Nat × Nat × Bool)) → Except CollHalt (State × Table (List (Nat × Nat × Bool)))
  | [], r => .ok r
  | p :: ps, r =>
    match collPut r.1 p.2 sz (stores p.1) with
    | .ok x => collPutAll stores sz ps (x.1, put r.2 p.2 (look [] r.2 p.2 ++ x.2))
    | .bad k va => .error (.member p.2 k va)
    | .wait w => .error (.wait w)

/-- Elements from e on: the state, the element reached, the writes by operation, why it stopped. -/
def collWrites (stores : Nat → Nat → List (Nat × Bool) → List (Nat × Nat × Bool)) (sz : Nat) (locals : List (Nat × Nat)) :
    List (List (Nat × Bool)) → Nat → State × Table (List (Nat × Nat × Bool)) → (State × Table (List (Nat × Nat × Bool))) × Nat × Option CollHalt
  | [], e, r => (r, e, none)
  | xs :: rest, e, r =>
    match collPutAll (fun k => stores k e xs) sz locals r with
    | .ok r' => collWrites stores sz locals rest (e + 1) r'
    | .error h => (r, e, some h)

/-- A local member's operation at the end of a granule: it has stored the elements below e, and they are complete when its packets to peers are
acknowledged. -/
def ChildOp.storedTo (o : ChildOp) (e : Nat) : ChildOp := { o with sent := e, progress := if o.outst = 0 then e else o.progress }

/-- The end of a granule of a collective: a member that fails makes the others fail (R235); one that waits keeps its place (R319). -/
def collClose (s : State) (is : List Nat) (ws : Table (List (Nat × Nat × Bool))) (e count : Nat) (h : Option CollHalt) : State :=
  let s1 := is.foldl (fun s i => (s.settleWrites i (look [] ws i)).modOp i (fun o => o.storedTo e)) s
  let served (s : State) : State := is.foldl (fun s i => s.serve i) s
  match h with
  | some (.member j k va) => ((served s1).faultOp j k va e).faultAll (is.filter (· != j)) 0x41
  | some (.wait w) => is.foldl (fun s i => s.blockOp i w) s1
  | none => if e = count then is.foldl (fun s i => if (s.op i).outst = 0 then s.endOp i OpEnd.done else s) (served s1) else served s1

/-- One granule among members that have met and agree. -/
def collGo (s : State) (o : ChildOp) (b : ParamBlock) (locals : List (Nat × Nat)) (remote : List RemoteMember) (kind oper fmt : Nat) : State :=
  let t := BitVec.ofNat 4 fmt
  let sz := fmtBits t / 8
  let m := b.members.length
  let n := min (4096 / sz - o.progress % (4096 / sz)) (b.count - o.progress)
  let carries := kind == 1 || kind == 3
  let xs := collReads s locals remote sz o.progress carries (if kind = 3 then [0] else List.range m) n o.progress
  let s := locals.foldl (fun s p => s.touchVas (s.op p.2) ((List.range n).map (fun k =>
    (((s.op p.2).blk.map (fun b => (b.srcs.headD 0).toNat)).getD 0) + sz * (o.progress + k)))) s.freeBytes.2
  let r := collWrites (fun k e xs => collStores kind oper t (rmodeOf b.rm) m b.count k e xs) sz locals xs.1 o.progress (s, [])
  collClose r.1.1 (locals.map (·.2)) r.1.2 r.2.1 b.count (match r.2.2 with | some h => some h | none => xs.2)

/-- The first remote member to which no link leads now: its peer and what the route answers (R391). -/
def awayMember (s : State) (core : Nat) (b : ParamBlock) : Option (Nat × Route) :=
  (b.members.filter (fun m => memberNode m != s.selfNode)).findSome? (fun m =>
    match s.peerOfNode (memberNode m) with
    | none => some (0, .dead false)
    | some n => match s.route core n with | .link _ => none | r => some (n, r))

/-- The members have met and agree: their contributions go to the remote members, then what those send is waited for, and the granule is
performed. -/
def collMeet (s : State) (i : Nat) (o : ChildOp) (b : ParamBlock) (locals : List (Nat × Nat)) (remote : List RemoteMember) (kind oper fmt : Nat) :
    State :=
  let sz := fmtBits (BitVec.ofNat 4 fmt) / 8
  let n := min (4096 / sz - o.progress % (4096 / sz)) (b.count - o.progress)
  match giveAll b kind sz o.progress n (kind == 1 || kind == 3) locals s with
  | .error (.member j k va, s1) => (s1.faultOp j k va o.progress).faultAll ((locals.map (·.2)).filter (· != j)) 0x41
  | .error (.wait w, s1) => (locals.map (·.2)).foldl (fun s j => s.blockOp j w) s1
  | .ok s1 =>
    if locals.any (fun p => (s1.op p.2).outst != 0) || (remoteRanks s b).any (fun r => !(remote.any (fun m => m.rank == r))) then s1.blockOp i .fence
    else collGo s1 o b locals remote kind oper fmt

/-- COLL_GRANULE (R235): one granule for all local members together, when the engine of each takes it; `remote` holds what the remote members
send for it. -/
def State.collGranule (s : State) (i : Nat) (o : ChildOp) (b : ParamBlock) (remote : List RemoteMember) (kind oper fmt : Nat) : State :=
  match localMembers s o b with
  | none => s.blockOp i .fence
  | some locals =>
    let is := locals.map (·.2)
    if remote.any (·.failed) then s.faultAll is 0x41
    else
      match awayMember s o.core b with
      | some (n, .dead f) => (if f then s.failPeer n else s).faultAll is 0x41
      | some _ => s.blockOp i .device
      | none =>
        if is.any (fun j => collKey (s.op j) != collKey o) || remote.any (fun m => !m.agrees) then s.faultAll is 0x42
        else if !is.contains i || is.any (fun j => (s.op j).st != .running || (s.op j).progress != o.progress || (s.op j).outst != 0 || !s.selected j) then
          s.blockOp i .fence
        else collMeet s i o b locals remote kind oper fmt

/-- COLL_GRANULE (R235). -/
def execCollGranule (op : Nat) (remote : List RemoteMember) (s : State) : Host.Outcome State Fault Refusal :=
  granuleOf s op (fun o =>
    match o.kind, o.blk with
    | .coll _ kind oper fmt, some b => s.collGranule op o b remote kind oper fmt
    | _, _ => s)

/-! ## rsct (R230, R308) -/

/-- Everything that element j needs: its address, from a table that a peer may hold, its destination, its source. -/
def rsctElem (s : State) (o : ChildOp) (tab src : Word) (sz j : Nat) : Eng (Nat × Spot) :=
  (anyElem s o (tab.toNat + 8 * j) 8).andThen fun va => (elemSpot s o .write va sz).andThen fun p =>
    (anySpot s o .read (src.toNat + sz * j) sz).andThen fun _ => .ok (va, p)

/-- The elements in ascending index, each with its destination, up to the first that fails. -/
def rsctElems (s : State) (o : ChildOp) (tab src : Word) (sz : Nat) : Nat → Nat → List (Nat × Nat × Spot) × Option Halt
  | 0, _ => ([], none)
  | n + 1, j =>
    match rsctElem s o tab src sz j with
    | .ok x => let r := rsctElems s o tab src sz n (j + 1); ((j, x.1, x.2) :: r.1, r.2)
    | .bad k va => ([], some (.bad k va))
    | .wait w => ([], some (.wait w))

/-- The trains in their order, by their first elements: when one cannot be delivered, every element below its first has performed (R230,
R320). -/
def trainOrder (ds : List (Nat × Nat × Spot)) : List (Nat × Nat × Spot) :=
  ((ds.map (·.2.2.peer)).eraseDups).flatMap (fun n => ds.filter (fun d => d.2.2.peer == n))

/-- The value of element j with its poison. -/
def rsctValue (s : State) (o : ChildOp) (src : Word) (sz j : Nat) : Nat × Bool :=
  match engSpot s o .read (src.toNat + sz * j) with
  | .ok p => engElem s o p (src.toNat + sz * j) sz
  | _ => (0, false)

/-- Write the elements of the local train in ascending index: the state and the writes. -/
def trainLocal (o : ChildOp) (src : Word) (sz : Nat) : List (Nat × Nat × Spot) → State × List (Nat × Nat × Bool) → State × List (Nat × Nat × Bool)
  | [], r => r
  | d :: ds, r =>
    let x := rsctValue r.1 o src sz d.1
    trainLocal o src sz ds ((r.1.engPut o d.2.2 d.2.1 x.1 sz).touchVa o (src.toNat + sz * d.1), r.2 ++ [(d.2.1, sz, x.2)])

/-- The bytes of elements that one packet carries. -/
def trainBytes (s : State) (o : ChildOp) (src : Word) (sz : Nat) (ds : List (Nat × Nat × Spot)) : List Byte :=
  ds.flatMap (fun d => (List.range sz).map (fun k => BitVec.ofNat 8 ((rsctValue s o src sz d.1).1 / 256 ^ k)))

/-- Form the packets of a train to a peer; the last, its tail, carries the count and completes the train. -/
def trainPackets (l n sz : Nat) (src : Word) (i finish : Nat) : Nat → List (Nat × Nat × Spot) → State → State
  | 0, _, s => s
  | fuel + 1, ds, s =>
    let o := s.op i
    if !(s.link l).accepts then s.blockOp i .device
    else
      match ds with
      | [] =>
        (s.formPacket l n (o.handle i) 0 ((List.range 8).map (fun k => BitVec.ofNat 8 ((finish - o.progress) / 256 ^ k))) (some finish)).modOp i
          (fun o => { o with sent := 2 * finish + 1 })
      | d :: _ =>
        trainPackets l n sz src i finish fuel (ds.drop (2048 / sz))
          ((s.formPacket l n (o.handle i) (BitVec.ofNat 64 d.2.2.pa) (trainBytes s o src sz (ds.take (2048 / sz))) none).modOp i
            (fun o => { o with sent := o.sent + 2 * min ds.length (2048 / sz) }))

/-- The local train: its elements are written and it is complete. -/
def trainHere (s : State) (i : Nat) (o : ChildOp) (src : Word) (sz : Nat) (tr : List (Nat × Nat × Spot)) : State :=
  let x := trainLocal o src sz tr (s, [])
  ((x.1.settleWrites i x.2).freeBytes.2.serve i).modOp i (fun o => { o with progress := o.progress + tr.length, sent := 2 * (o.progress + tr.length) })

/-- A train to a peer: its packets, as far as the link takes them. -/
def trainAway (s : State) (i : Nat) (o : ChildOp) (src : Word) (sz : Nat) (d : Nat × Nat × Spot) (tr : List (Nat × Nat × Spot)) : State :=
  match s.route o.core d.2.2.peer with
  | .dead f => (if f then s.failPeer d.2.2.peer else s).faultOp i 0x41 d.2.1 d.1
  | .waits => s.blockOp i .device
  | .link l =>
    if s.heldElsewhere o.core d.2.2.peer l then s.blockOp i .device
    else trainPackets l d.2.2.peer sz src i (o.progress + tr.length) (tr.length + 2) (tr.drop (o.sent / 2 - o.progress))
      ((s.freeBytes.2.serve i).modOp i (fun o => { o with first := d.1, sent := o.sent / 2 * 2 }))

/-- The next train of an rsct. An element that fails ends the operation when every train of the elements below it is complete (R320): none at or
above it is sent. `sent` is twice the number of elements whose packets are formed, and odd when the tail of their train is formed too. -/
def State.rsctTrain (s : State) (i : Nat) (o : ChildOp) (tab src : Word) (n sz : Nat) : State :=
  let r := rsctElems s o tab src sz n 0
  match r.2 with
  | some (.wait w) => s.blockOp i w
  | h =>
    match (trainOrder r.1).drop o.progress with
    | [] =>
      if o.outst ≠ 0 then s.blockOp i .fence
      else (match h with | some (.bad k va) => (s.serve i).faultOp i k va r.1.length | _ => s.endOp i OpEnd.done)
    | d :: rest =>
      let tr := (d :: rest).takeWhile (fun x => x.2.2.peer == d.2.2.peer)
      if d.2.2.peer = 0 then
        if o.outst ≠ 0 then s.blockOp i .fence
        else
          let s1 := trainHere s i o src sz tr
          if (s1.op i).progress = n then s1.endOp i OpEnd.done else s1
      else if o.sent % 2 = 1 && o.sent / 2 != o.progress then s.blockOp i .fence
      else trainAway s i o src sz d tr

/-- RSCT_TRAIN (R230). -/
def execRsctTrain (op : Nat) (s : State) : Host.Outcome State Fault Refusal :=
  granuleOf s op (fun o =>
    match o.kind with
    | .rsct tab src n esz => s.rsctTrain op o tab src n (2 ^ esz)
    | _ => s)

/-! ## mmma and mdrain (R240, R241) -/

/-- MMMA_KSTEP (R240). While its seat is being saved an operation may still pause after its last k-step; it then ends when it goes on (R362). -/
def State.mmmaStep (s : State) (i : Nat) (o : ChildOp) (tile wa wb ga gb : Nat) (shape : Word) : State :=
  if o.progress = shapeKs shape then (s.serve i).endOp i OpEnd.done
  else
  match closedPane s o with
  | some q => s.faultOp i 0x05 (q.2 + 16 * q.1) o.progress
  | none =>
    match kstepPoison s o wa wb ga gb shape (opRows s o).length o.progress with
    | some x => s.faultOp i 0x14 0 x
    | none =>
      let s1 := ((s.kstep o tile wa wb ga gb shape o.progress).serve i).modOp i (fun o => { o with progress := o.progress + 1 })
      if o.progress + 1 = shapeKs shape && !s.opSaved o then s1.endOp i OpEnd.done else s1

/-- MMMA_KSTEP (R240). -/
def execMmmaKstep (op : Nat) (s : State) : Host.Outcome State Fault Refusal :=
  granuleOf s op (fun o =>
    match o.kind with
    | .mmma tile wa wb ga gb shape => s.mmmaStep op o tile wa wb ga gb shape
    | _ => s)

/-- Element e of mdrain. -/
def drainAt (s : State) (o : ChildOp) (tile fmt : Nat) (dst stride : Word) (cols : Nat) (mask : BitVec 128) (e : Nat) :
    Eng (State × List (Nat × Nat × Bool)) :=
  let sz := fmtBits (BitVec.ofNat 4 fmt) / 8
  if e % 128 < cols ∧ mask.getLsbD (e % 128) then
    let va := (dst + BitVec.ofNat 64 (e / 128) * stride).toNat + e % 128 * sz
    (localSpot s o .write va sz).andThen fun p =>
      let v := drainElem s o tile fmt ((opRows s o).getD (e / 128) 0) (e % 128)
      let s1 := s.engPut o p va v.1 sz
      .ok (if opSeated s o then s1.modBank o.core o.base (fun b => b.accrue v.2) else s1, [(va, sz, false)])
  else .ok (s, [])

/-- MDRAIN_GRANULE (R241): one row. An orphan of a saved seat has no rows left (log 84). -/
def execMdrainGranule (op : Nat) (s : State) : Host.Outcome State Fault Refusal :=
  granuleOf s op (fun o =>
    match o.kind with
    | .mdrain tile fmt dst stride cols mask =>
      if (opRows s o).isEmpty then s.faultOp op 0x01 dst.toNat o.progress
      else elemGranule s op 128 (128 * (opRows s o).length) (fun s e => drainAt s o tile fmt dst stride cols mask e)
    | _ => s)

end Sys2Proof.Machine
end

