-- ==== Sys2Proof/Machine/Sync.lean ====
section
/-! DEFINITION. Sys2Proof/Machine/Sync.lean: fences, barriers, the iteration ring, await (R158-R163, R277), and the steps that end a
wait. A fence waits for the transitions of panes, by which row accesses end, and gives up what its paths have taken ahead (log 7). -/

namespace Sys2Proof.Machine

/-! ## Row accesses in progress (R153, R159, R160) -/

/-- A pane of banks is in a transition. -/
def rowsMoving (s : State) (bs : List Nat) : Bool :=
  bs.any (fun b => (List.range 12).any (fun n =>
    let p := s.pane s.focus.core b n
    p.st == .opening || p.st == .writing || p.st == .closing))

/-- An instruction that first waits for the row accesses of banks. -/
def afterRows (s : State) (bs : List Nat) (r : Host.Outcome State Fault Refusal) : Host.Outcome State Fault Refusal :=
  if rowsMoving s bs then .next (s.waitOn .fence) else r

/-! ## fence, xfence (R159) -/

/-- fence (R159). -/
def execFence (_scope : BitVec 5) (s : State) : Host.Outcome State Fault Refusal :=
  afterRows s s.active (.next (s.orderAll s.focus.core s.focus.base).retire)

/-- xfence (R159): with ROW, path 1, as p1 it waits. An engine path as p1 covers what its operations have performed. Later accesses on p2 see what stands
in memory now. -/
def execXfence (p1 p2 : BitVec 4) (_scope : BitVec 5) (s : State) : Host.Outcome State Fault Refusal :=
  let done : Host.Outcome State Fault Refusal := .next (s.orderPath s.focus.core s.focus.base p2).retire
  if p1 = 1 then afterRows s s.active done else done

/-! ## Barriers (R160, R161, R277, R379) -/

/-- The count, arrivals and phase of the barrier an agent names: its launch's, or a control core's. -/
def State.barrier (s : State) (t : Seat) (bid : Nat) : Nat × Nat × Nat :=
  if t.isCC then
    let b := look CcBar.empty s.ccbars bid
    (b.count, b.arrived, b.phase)
  else
    match s.launch? t.launch with
    | some l => (look 0 l.bars bid, look 0 l.arrived bid, look 0 l.phases bid)
    | none => (0, 0, 0)

/-- A control-core barrier with one more arrival; a stored count takes effect when the phase completes (R379). -/
def CcBar.arrive (b : CcBar) : CcBar :=
  if b.arrived + 1 = b.count then ⟨b.next.getD b.count, 0, b.phase + 1, none⟩ else { b with arrived := b.arrived + 1 }

/-- A launch's barrier with one more arrival (R160). -/
def Launch.arrive (l : Launch) (bid : Nat) : Launch :=
  if look 0 l.arrived bid + 1 = look 0 l.bars bid then
    { l with arrived := put l.arrived bid 0, phases := put l.phases bid (look 0 l.phases bid + 1) }
  else { l with arrived := put l.arrived bid (look 0 l.arrived bid + 1) }

/-- Record the phase of an arrival in a seat and in its snapshot. -/
def Seat.recordPhase (t : Seat) (bid phase : Nat) : Seat :=
  { t with
    bars := put t.bars bid (some phase)
    red := t.red.map (fun r => { r with snap := r.snap.map (fun x => { x with bars := put x.bars bid (some phase) }) }) }

/-- Arrive: one indivisible step; the phase is recorded, by every replica of the task (R160). -/
def State.arriveAt (s : State) (bid : Nat) : State :=
  let t := s.fseat
  let phase := (s.barrier t bid).2.2
  if t.isCC then
    { s.modSeat s.focus (fun t => t.recordPhase bid phase) with ccbars := put s.ccbars bid (look CcBar.empty s.ccbars bid).arrive }
  else
    let s1 := s.modLaunch t.launch (fun l => l.arrive bid)
    let s2 := s1.modSeat s.focus (fun t => t.recordPhase bid phase)
    if t.red.isNone then s2
    else
      (s2.seatsOf t.launch t.task).foldl (fun s p => s.setSeat? p.1 p.2 ((s.seat? p.1 p.2).map (fun x => x.recordPhase bid phase))) s2

/-- The vote has let the focus's release point go: the phase before had completed when it was sent. -/
def State.letGoByVote (s : State) : Bool := (s.fseat.red.map (·.released)).getD false

/-- The phase recorded at a barrier has not completed. -/
def State.phaseOpen (s : State) (t : Seat) (bid : Nat) : Option Nat :=
  (look none t.bars bid).bind (fun ph => if (s.barrier t bid).2.2 = ph then some ph else none)

/-- fbar (R160): at DEPTH 0; a release point of kind 3, at which only the performer arrives. -/
def execFbar (bid : BitVec 4) (_scope : BitVec 5) (s : State) : Host.Outcome State Fault Refusal :=
  atDepth0 s
    (if (s.barrier s.fseat bid.toNat).1 = 0 then .next (s.trapSingle 0x01 (bid.setWidth 64))
     else
       match (if s.letGoByVote then none else s.phaseOpen s.fseat bid.toNat) with
       | some ph => .next (s.waitOn (.fbar bid.toNat ph))
       | none => afterRows s s.fseat.banks (withRelease s 3 [] (fun p => (if p then s.arriveAt bid.toNat else s, .ok))))

/-- bwait (R161). -/
def execBwait (bid : BitVec 4) (s : State) : Host.Outcome State Fault Refusal :=
  atDepth0 s
    (match look none s.fseat.bars bid.toNat with
     | none => .next (s.trapSingle 0x01 (bid.setWidth 64))
     | some _ =>
       match s.phaseOpen s.fseat bid.toNat with
       | some ph => .next (s.waitOn (.bwait bid.toNat ph))
       | none => .next (s.orderRows s.focus.core s.focus.base).retire)

/-! ## The iteration ring (R162) -/

/-- The predecessor of a core in its tier's ring. -/
def ringBefore (core : Nat) : Nat := core / 96 * 96 + (core + 95) % 96

/-- The post register of a core. -/
def State.posted (s : State) (core id : Nat) : Word := look 0 (s.core core).post id

/-- ipost (R162); a replica traps (R330). -/
def execIpost (id : BitVec 4) (a : BitVec 5) (s : State) : Host.Outcome State Fault Refusal :=
  atDepth0 s
    (if s.fseat.red.isSome then .next (s.trapSingle 0x2A ((headOf s.ownCb ⟨0x5D, 0#2 ++ id, 1, packA 4 a 0⟩).setWidth 64))
     else
       afterRows s s.fseat.banks
         (.next (s.modCore s.focus.core (fun c =>
           { c with post := put c.post id.toNat (BitVec.ofNat 64 (max (look 0 c.post id.toNat).toNat (s.seqReg a).toNat)) })).retire))

/-- iwait (R162). -/
def execIwait (id : BitVec 4) (a : BitVec 5) (s : State) : Host.Outcome State Fault Refusal :=
  atDepth0 s
    (if (s.seqReg a).toNat ≤ (s.posted (ringBefore s.focus.core) id.toNat).toNat then .next (s.orderRows s.focus.core s.focus.base).retire
     else .next (s.waitOn (.iwait id.toNat)))

/-! ## await (R163) -/

/-- The read of an await. It pops nothing: an address in a FIFO-mode bank is refused as an atomic's is (R293 names what pops; log 102). -/
def awaitAccess : Access := ⟨8, false, false, false, false, false, true⟩

/-- One read of the word of a bank: the value that ends its wait, or none. -/
def awaitRead (s : State) (c : Ctx) (t : Seat) (a : BankAccess) : Res (Option Nat × State) :=
  ((checkAccess s c t awaitAccess a.va).andThen (fun p => readSpot s p 8)).andThen
    (fun x => .ok (if x.1 = a.v then (none, x.2) else (some x.1, x.2)))

/-- Read in every bank that is not satisfied yet; what stopped it. -/
def awaitAll (c : Ctx) (t : Seat) : List BankAccess → State → State × Done
  | [], s => (s, .ok)
  | a :: as, s =>
    if (look none s.fpart.got a.bank).isSome then awaitAll c t as s
    else
      match awaitRead s c t a with
      | .ok x =>
        awaitAll c t as
          (match x.1 with | some v => x.2.modPart x.2.focus (fun p => { p with got := put p.got a.bank (some (BitVec.ofNat 64 v)) }) | none => x.2)
      | .wait w => (s, .wait w)
      | .bad _ k => (s, .trap k (addrTval a.va a.bank))

/-- Every active bank is satisfied: sV of each receives its value. The leader echoes the values of all banks, lowest first (R339). -/
def State.awaitEnd (s : State) (v : BitVec 5) : State :=
  let got := s.fpart.got
  let s1 := (s.onActive (fun b x => x.ws v ((look none got b).getD 0))).modPart s.focus (fun p => { p with got := [] })
  ((s.active.foldl (fun x b => x.shareEcho ((look none got b).getD 0)) s1).orderPath s.focus.core s.focus.base 1).retire

/-- A follower, or a leader that goes through an interval again, takes the value of each bank from the echo log (R339). -/
def State.awaitEchoed (s : State) (v : BitVec 5) (log : List Word) : State :=
  ((s.active.zip log).foldl (fun x p => (x.modBank s.focus.core p.1 (fun b => b.ws v p.2)).passEcho) s).retire

/-- The echoed values of a replica that it has not taken yet. -/
def Replica.toTake (r : Replica) : List Word := r.echoLog.drop r.echoPos

/-- await (R163). -/
def execAwait (v a : BitVec 5) (s : State) : Host.Outcome State Fault Refusal :=
  let as := s.active.map (fun b => (⟨b, ((s.fbank b).rs a).toNat, ((s.fbank b).rs v).toNat⟩ : BankAccess))
  match checkAll s s.fctx s.fseat awaitAccess as none none with
  | (some (_, k, x), _) => .next (s.trapSingle k x)
  | (none, some w) => .next (s.waitOn w)
  | (none, none) =>
    match s.fseat.red.map (fun r => (r.leads, r.toTake)) with
    | some (_, x :: xs) => .next (s.awaitEchoed v (x :: xs))
    | some (false, []) => .next (s.waitOn .echo)
    | _ =>
      match awaitAll s.fctx s.fseat as s with
      | (s1, .trap k x) => .next (s1.trapSingle k x)
      | (s1, .wait w) => .next (s1.waitOn w)
      | (s1, .ok) => if s1.active.all (fun b => (look none s1.fpart.got b).isSome) then .next (s1.awaitEnd v) else .next (s1.waitOn .await)

/-! ## The steps that end a wait -/

/-- A step that ends the wait of the part holding a bank, when its condition holds. -/
def endWait (core bank : Nat) (s : State) (ok : State → Wait → Bool) : Host.Outcome State Fault Refusal :=
  .next
    (match s.agentOfBank core bank with
     | none => s
     | some a =>
       match (s.part a).wait with
       | some w => if ok { s with focus := a } w then s.resume a else s
       | none => s)

/-- The single instruction the focus is at. -/
def State.current (s : State) : Option Instr := s.fpart.convoy.bind (fun c => c.todo.head?.map (·.2))

/-- An entry of a page table no longer marks its page as moving. -/
def notMoving (s : State) (pa : Nat) : Bool := !pteMv (BitVec.ofNat 64 (s.peek pa 8))

/-- ISSUE_AFTER_INTERLOCK (R70, R72, R74). -/
def execIssueAfterInterlock (core bank : Nat) (s : State) : Host.Outcome State Fault Refusal :=
  endWait core bank s (fun s w =>
    match w with
    | .pane c b n => (s.pane c b n).settled
    | .pin c b n => (s.pane c b n).pins == 0
    | .claim c b n => !(s.pane c b n).claims
    | .moving pa => notMoving s pa
    | .sram q b => !(s.sram q b).busy
    | .wake c => (s.core c).power == .run
    | _ => false)

/-- The operation a wait names has ended. -/
def opOver (s : State) (i : Nat) : Bool := !(s.op i).live || (s.op i).st.terminal

/-- KWAIT_END (R243). -/
def execKwaitEnd (core bank : Nat) (s : State) : Host.Outcome State Fault Refusal :=
  endWait core bank s (fun s w => match w with | .op i => opOver s i | _ => false)

/-- AWAIT_RECHECK (R163): the await reads again. -/
def execAwaitRecheck (core bank : Nat) (s : State) : Host.Outcome State Fault Refusal :=
  endWait core bank s (fun _ w => w == .await)

/-- BWAIT_END (R161). -/
def execBwaitEnd (core bank : Nat) (s : State) : Host.Outcome State Fault Refusal :=
  endWait core bank s (fun s w => match w with | .bwait bid ph => (s.barrier s.fseat bid).2.2 != ph | _ => false)

/-- FBAR_ARRIVE (R160): the phase before has completed and the row accesses are over; the fbar arrives. -/
def execFbarArrive (core bank : Nat) (s : State) : Host.Outcome State Fault Refusal :=
  endWait core bank s (fun s w =>
    match s.current, w with
    | some (.fbar _ _), .fbar bid ph => (s.barrier s.fseat bid).2.2 != ph
    | some (.fbar _ _), .fence => !rowsMoving s s.fseat.banks
    | _, _ => false)

/-- IWAIT_END (R162). -/
def execIwaitEnd (core bank : Nat) (s : State) : Host.Outcome State Fault Refusal :=
  endWait core bank s (fun s w =>
    match s.current, w with
    | some (.iwait _ a), .iwait id => decide ((s.seqReg a).toNat ≤ (s.posted (ringBefore core) id).toNat)
    | _, _ => false)

/-- The focus is at tend. -/
def atTend (s : State) : Bool := match s.current with | some .tend => true | _ => false

/-- TEND_WAIT_END (R123). -/
def execTendWaitEnd (core bank : Nat) (s : State) : Host.Outcome State Fault Refusal :=
  endWait core bank s (fun s w =>
    match w with
    | .tend i => opOver s i
    | .mx i => atTend s && opOver s i
    | _ => false)

/-- MDETACH_WAIT_END (R237). -/
def execMdetachWaitEnd (core bank : Nat) (s : State) : Host.Outcome State Fault Refusal :=
  endWait core bank s (fun s w => match s.current, w with | some .mdetach, .mx _ => s.matrixOps.isEmpty | _, _ => false)

/-- MZERO_WAIT_END (R237). -/
def execMzeroWaitEnd (core bank : Nat) (s : State) : Host.Outcome State Fault Refusal :=
  endWait core bank s (fun s w =>
    match s.current, w with
    | some (.mzero d), .mx _ => !(s.matrixOps.any (fun i => (s.op i).kind.tile == some d.toNat))
    | _, _ => false)

/-- XFENCE_WAIT_END (R153, R159). -/
def execXfenceWaitEnd (core bank : Nat) (s : State) : Host.Outcome State Fault Refusal :=
  endWait core bank s (fun s w => w == .fence && !rowsMoving s s.active)

/-- FIFO_WAIT_END (R293): the push or pop is tried again. -/
def execFifoWaitEnd (core bank : Nat) (s : State) : Host.Outcome State Fault Refusal :=
  endWait core bank s (fun _ w => match w with | .fifo _ _ => true | _ => false)

end Sys2Proof.Machine
end

