-- ==== Sys2Proof/Machine/Launch.lean ====
section
/-! DEFINITION. Sys2Proof/Machine/Launch.lean: launches and tasks as they start (R260-R268, R278): reading and checking graphs and
records, launch numbers, readiness and anchors. -/

namespace Sys2Proof.Machine

/-! ## What the scheduler reads (R262) -/

/-- Where a scheduler's load of a piece leads: it waits as any access to a row does (R72). -/
def schedSpot (s : State) (c : Ctx) (va : Nat) : Eng Nat :=
  match translate s c .read va with
  | .bad _ k => .bad k va
  | .wait w => .wait w
  | .ok p =>
    if p.peer ≠ 0 then .bad 0x16 va
    else
      match heldAt s p.pa with
      | some w => .wait w
      | none =>
        if regionOf p.pa = .dev then .bad 0x11 va
        else if regionOf p.pa = .sram && modeAt s p.pa != 1 then .bad 0x13 va
        else if s.poisonAt p.pa then .bad 0x14 va
        else .ok p.pa

/-- The bytes of pieces. -/
def schedRead (s : State) (c : Ctx) : List (Nat × Nat) → Eng (List Byte)
  | [] => .ok []
  | x :: xs =>
    (schedSpot s c x.1).andThen fun pa =>
      (schedRead s c xs).andThen fun r => .ok ((List.range x.2).map (fun j => BitVec.ofNat 8 (s.peek (pa + j) 1)) ++ r)

/-! ## Records (R261) -/

/-- Region entry k of a record. -/
def regionAt (bs : List Byte) (k : Nat) : Region :=
  ⟨fieldOf bs (104 + 16 * k) 7, fieldOf bs (111 + 16 * k) 1 % 4, fieldOf bs (112 + 16 * k) 8⟩

/-- A record as data. -/
def recordOf (bs : List Byte) : TaskRec :=
  { entry := BitVec.ofNat 64 (fieldOf bs 0 8), anchor := BitVec.ofNat 64 (fieldOf bs 8 8), count := BitVec.ofNat 64 (fieldOf bs 16 8)
    panes := BitVec.ofNat 12 (fieldOf bs 24 2), sash := fieldOf bs 26 1, prio := BitVec.ofNat 3 (fieldOf bs 27 1)
    stage := BitVec.ofNat 4 (fieldOf bs 28 1), redund := fieldOf bs 29 1, sram := fieldOf bs 32 4, npred := fieldOf bs 36 2
    args := (List.range 8).map (fun k => BitVec.ofNat 64 (fieldOf bs (40 + 8 * k) 8))
    regions := ((List.range 6).map (regionAt bs)).filter (fun r => r.role != 0)
    succ := (List.range (fieldOf bs 38 2)).map (fun k => fieldOf bs (216 + 2 * k) 2) }

/-- A region entry within its limits; an unused one is all zero. -/
def regionOk (bs : List Byte) (k : Nat) : Bool :=
  decide (fieldOf bs (111 + 16 * k) 1 < 4) && ((regionAt bs k).role != 0 || fieldOf bs (104 + 16 * k) 16 == 0)

/-- The field limits of R261 and the REDUND rules of R262 and R328. -/
def recordOk (bs : List Byte) : Bool :=
  fieldOf bs 15 1 == 0 && decide (fieldOf bs 24 2 < 4096) && decide (fieldOf bs 26 1 ≤ 4) && decide (fieldOf bs 27 1 < 8) &&
    decide (fieldOf bs 28 1 < 16) && decide (fieldOf bs 29 1 ≤ 2) && fieldOf bs 30 2 == 0 && decide (fieldOf bs 32 4 ≤ 8388608) &&
    decide (fieldOf bs 38 2 ≤ 20) && (List.range 6).all (regionOk bs) && fieldOf bs 200 16 == 0 &&
    (List.range 20).all (fun k => decide (k < fieldOf bs 38 2) || fieldOf bs (216 + 2 * k) 2 == 0) &&
    (fieldOf bs 29 1 == 0 || fieldOf bs 28 1 == 0)

/-- A task that has not started; without predecessors it is as old as its entry (R268). -/
def newTask (r : TaskRec) (prio : BitVec 3) (op : Option Nat) (age : Nat) : Task :=
  { record := r, st := .waiting, cause := 0, dep := r.npred, age := age, prio := prio, pa := 0, core := 0, ctx := [], area := none
    isExported := false, op := op, keys := 0, runs := 0, replicas := List.range (r.redund + 1), left := [] }

/-! ## Graphs (R260, R262) -/

/-- The records of a graph, from the bytes after its header. -/
def graphRecords (bs : List Byte) : Nat → Nat → List (List Byte)
  | 0, _ => []
  | n + 1, k => (bs.drop (128 + 256 * k)).take 256 :: graphRecords bs n (k + 1)

/-- How many successor slots name a task. -/
def namedBy (rs : List TaskRec) (k : Nat) : Nat := ((rs.map (fun r => (r.succ.filter (· == k)).length)).foldl (· + ·) 0)

/-- The checks of R262. -/
def graphOk (bs : List Byte) (recs : List (List Byte)) : Bool :=
  let rs := recs.map recordOf
  let n := fieldOf bs 2 2
  fieldOf bs 0 2 == 1 && decide (1 ≤ n) && fieldOf bs 6 2 == 0 && fieldOf bs 48 16 == 0 && fieldOf bs 96 32 == 0 &&
    recs.all recordOk &&
    (rs.zipIdx).all (fun r => r.1.succ.all (fun j => decide (j < n) && j != r.2) && r.1.npred == namedBy rs r.2 &&
      r.1.succ.all (fun j => r.1.stage == 0 || ((rs[j]?).map (fun x => x.stage == 0)).getD true)) &&
    rs.any (fun r => r.npred == 0)

/-- The lowest launch number not in use (R264). -/
def State.freeLaunch (s : State) : Option Nat := (List.range 1024).find? (fun n => (s.launch? n).isNone)

/-- A launch in flight shares a loop id (R278). -/
def State.loopsBusy (s : State) (loops : BitVec 16) : Bool :=
  s.launches.any (fun l => (l.2.map (fun x => x.loops &&& loops != 0)).getD false)

/-- Every core clears its post registers of the launch's loop ids (R278). -/
def State.clearPosts (s : State) (loops : BitVec 16) : State :=
  { s with cores := s.cores.map (fun c => (c.1, { c.2 with post := c.2.post.map (fun p => if loops.getLsbD p.1 then (p.1, 0) else p) })) }

/-- A launch as its header gives it. -/
def launchOf (s : State) (i : Nat) (o : ChildOp) (bs : List Byte) (rs : List TaskRec) : Launch :=
  { sill := sillOf o.core, ptbr := o.ptbr, sup := o.sup, event := BitVec.ofNat 64 (fieldOf bs 8 8), frec := BitVec.ofNat 64 (fieldOf bs 16 8)
    fcap := fieldOf bs 24 4
    fcountVa := (match o.kind with | .launch h => h + 28 | _ => 0)
    fcount := 0, hbase := BitVec.ofNat 64 (fieldOf bs 32 8 / 64 * 64), save := BitVec.ofNat 64 (fieldOf bs 40 8)
    loops := BitVec.ofNat 16 (fieldOf bs 4 2), bars := (List.range 16).map (fun k => (k, fieldOf bs (64 + 2 * k) 2)), arrived := [], phases := []
    tasks := (rs.zipIdx).map (fun r => (r.2, some (newTask r.1 r.1.prio none (s.taskAge + r.2)))), nextTask := rs.length, paused := false, cancelled := false
    op := if (s.op i).live then some i else none }

/-- An after-token, an earlier task operation of its bank or a save of its seat holds it back (R225, R318), or the shutter sequence (R409). -/
def State.tsWaits (s : State) (o : ChildOp) : Bool := decide (3 ≤ s.power.depth) || !(o.live && o.st == .pending && o.after.isNone) || s.behindPending o || s.startBarred o

/-- Task operations that an earlier one held back are tried again. -/
def State.requeueTs (s : State) : State := s.retryLaunches

/-- A launch that fails its checks ends FAULTED: 4 goes to its event word (R262, R283; log 30). -/
def State.refuseLaunch (s : State) (i : Nat) (event : Nat) (cause : BitVec 8) (va : Nat) : State :=
  let s1 := if event = 0 then s else s.storeEvent (opCtx s (s.op i)) (locOf (s.op i).core (s.op i).bank 0) event OpState.faulted.code
  (s1.faultOp i cause va 0).requeueTs

/-- Start a launch operation (R262, R264, R278). While no number or loop id is free it stays PENDING. -/
def State.launchStart (s : State) (i : Nat) : State :=
  let o := s.op i
  match o.kind with
  | .launch h =>
    if s.tsWaits o then s
    else if h.toNat % 64 ≠ 0 then (s.faultOp i 0x42 h.toNat 0).requeueTs
    else
      match schedRead s (opCtx s o) (piecesOf h.toNat 128) with
      | .bad k va => (s.faultOp i k va 0).requeueTs
      | .wait w => s.blockOp i w
      | .ok hd =>
        match schedRead s (opCtx s o) (piecesOf h.toNat (128 + 256 * fieldOf hd 2 2)) with
        | .bad k va => s.refuseLaunch i (fieldOf hd 8 8) k va
        | .wait w => s.blockOp i w
        | .ok bs =>
          let recs := graphRecords bs (fieldOf bs 2 2) 0
          if !graphOk bs recs then s.refuseLaunch i (fieldOf bs 8 8) 0x42 h.toNat
          else
            match s.freeLaunch with
            | none => s
            | some n =>
              if s.loopsBusy (BitVec.ofNat 16 (fieldOf bs 4 2)) then s
              else
                let l := launchOf s i o bs (recs.map recordOf)
                let s1 := ((({ s with taskAge := s.taskAge + recs.length }.setLaunch n (some l)).clearPosts l.loops).setRunning i)
                (s1.storeVa (launchCtx n l) (h.toNat + 28) 0 4).requeueTs
  | _ => s

/-- LAUNCH_START (R262). -/
def execLaunchStart (op : Nat) (s : State) : Host.Outcome State Fault Refusal := .next (s.launchStart op).sweep

/-! ## tspawn (R248, R263) -/

/-- The one-task launch of a control core (R248). -/
def soloLaunch (o : ChildOp) (r : TaskRec) (i age : Nat) : Launch :=
  { sill := sillOf o.core, ptbr := o.ptbr, sup := o.sup, event := 0, frec := 0, fcap := 0, fcountVa := 0, fcount := 0, hbase := 0, save := 0
    loops := 0, bars := [], arrived := [], phases := [], tasks := [(0, some (newTask r r.prio (some i) age))], nextTask := 1, paused := false
    cancelled := false, op := none }

/-- Add a task to a launch (R264): its number, its priority. -/
def Launch.spawn (l : Launch) (o : ChildOp) (r : TaskRec) (i age : Nat) : Launch :=
  let mine := ((look none l.tasks o.task).map (fun k => k.record.prio)).getD 0
  let p := if r.prio.toNat ≤ mine.toNat then r.prio else mine
  { l with tasks := put l.tasks (l.nextTask % 2 ^ 32) (some (newTask { r with prio := p } p (some i) age)), nextTask := l.nextTask + 1 }

/-- Start a tspawn operation (R263). -/
def State.tspawnStart (s : State) (i : Nat) : State :=
  let o := s.op i
  match o.kind with
  | .tspawn a =>
    if s.tsWaits o then s
    else if a.toNat % 64 ≠ 0 then (s.faultOp i 0x42 a.toNat 0).requeueTs
    else
      match schedRead s (opCtx s o) (piecesOf a.toNat 256) with
      | .bad k va => (s.faultOp i k va 0).requeueTs
      | .wait w => s.blockOp i w
      | .ok r =>
        let rec_ := recordOf r
        let s1 : State := { s with taskAge := s.taskAge + 1 }
        if !recordOk r || rec_.npred != 0 || !rec_.succ.isEmpty then (s.faultOp i 0x42 a.toNat 0).requeueTs
        else if 1536 ≤ o.core then
          match s.freeLaunch with
          | none => s
          | some n => ((s1.setLaunch n (some (soloLaunch o rec_ i s.taskAge))).setRunning i).requeueTs
        else
          match s.launch? o.launch with
          | none => (s.endOp i ⟨.cancelled, 0x44, 0, 0⟩).requeueTs
          | some l => ((s1.setLaunch o.launch (some (l.spawn o rec_ i s.taskAge))).setRunning i).requeueTs
  | _ => s

/-- TSPAWN_START (R263). -/
def execTspawnStart (op : Nat) (s : State) : Host.Outcome State Fault Refusal := .next (s.tspawnStart op).sweep

/-! ## Readiness (R267, R268) -/

/-- The place that an anchor names: the checks of R63 1-3 at user level. -/
def anchorSpot (s : State) (n : Nat) (l : Launch) (va : Nat) : Res Nat :=
  (translate s ⟨0, false, false, l.ptbr, n, []⟩ .place va).andThen fun p =>
    if p.peer ≠ 0 then .bad 2 0x16
    else
      match regionOf p.pa with
      | .dram => .ok p.pa
      | .cap => .bad 3 0x15
      | _ => .bad 3 0x11

/-- The entries of a sill's ready pool (R268). -/
def State.poolSize (s : State) (sill : Nat) : Nat :=
  (s.launches.map (fun l => (l.2.map (fun x => (x.tasks.filter (fun t =>
    (t.2.map (fun k => (k.st == .ready || k.st == .saved) && k.core / 192 == sill)).getD false)).length)).getD 0)).foldl (· + ·) 0

/-- An older task of the same anchor sill has a counter of 0 and waits for an entry of its pool (R268). -/
def State.olderWaits (s : State) (sill age : Nat) : Bool :=
  s.launches.any (fun l => (l.2.map (fun x => x.tasks.any (fun t => (t.2.map (fun k =>
    k.st == .waiting && k.dep == 0 && decide (k.age < age) &&
      (match anchorSpot s l.1 x k.record.anchor.toNat with | .ok pa => dramCore pa / 192 == sill | _ => false))).getD false))).getD false)

/-- The core of a replica (R328). -/
def replicaCore (c redund rid : Nat) : Nat := (c / 192 + rid * (if redund = 1 then 4 else if redund = 2 then 3 else 0)) % 8 * 192 + c % 192

/-- An entry wakes the cores to which it is anchored (R405). -/
def State.wakeFor (s : State) (k : Task) : State :=
  k.replicas.foldl (fun s r => s.wakeUnit (replicaCore k.core k.record.redund r)) s

/-- A task whose counter is 0 becomes READY (R266-R268); tasks enter a pool in the order in which they became ready. -/
def State.taskReady (s : State) (n t : Nat) : State :=
  match s.launch? n, s.task? n t with
  | some l, some k =>
    if k.st == .waiting && k.dep == 0 && decide (s.power.depth < 3) then
      match anchorSpot s n l k.record.anchor.toNat with
      | .wait _ => s
      | .bad _ c => s.endTask n t .failed c k.record.anchor 0
      | .ok pa =>
        if dramBank pa % 2 ^ k.record.sash ≠ 0 then s.endTask n t .failed 0x42 k.record.anchor 0
        else if 4096 ≤ s.poolSize (dramCore pa / 192) || s.olderWaits (dramCore pa / 192) k.age then s
        else (s.setTask n t { k with st := .ready, pa := pa, core := dramCore pa }).wakeFor { k with core := dramCore pa }
    else s
  | _, _ => s

/-- TASK_READY (R268). -/
def execTaskReady (launch task : Nat) (s : State) : Host.Outcome State Fault Refusal := .next (s.taskReady launch task).sweep

end Sys2Proof.Machine
end

