-- ==== Sys2Proof/Machine/Seats.lean ====
section
/-! DEFINITION. Sys2Proof/Machine/Seats.lean: seats and dispatch (R265, R270-R276, R328, R329), pre-emption, saving and restoring
(R323-R327, R346, R354, R355), eret, tend, tyield, tlbinv, and scheduler state errors (R281). -/

namespace Sys2Proof.Machine

/-! ## Gangs (R274, R328) -/

/-- The replicas with which a task runs: a quarantined core's replica is left out while two remain (R421). None: it does not fit. -/
def Task.runners (s : State) (k : Task) : Option (List Nat) :=
  let ok := k.replicas.filter (fun r => !(s.core (replicaCore k.core k.record.redund r)).quar)
  if k.record.redund = 0 then (if ok.isEmpty then none else some ok) else if ok.length < 2 then none else some ok

/-- A task waits in a pool. -/
def Task.pooled (k : Task) : Bool := k.st == .ready || k.st == .saved

/-- The members of a task's gang, as task numbers: the task, or its launch's co-run set. -/
def coRun (l : Launch) (t : Nat) (k : Task) : List Nat :=
  if k.record.stage = 0 then [t]
  else (l.tasks.filter (fun p => (p.2.map (fun x => x.record.stage != 0 && !x.st.terminal)).getD false)).map (·.1)

/-- The members of a gang by launch and task number. -/
def State.gang (s : State) (n t : Nat) : List Nat :=
  match s.launch? n, s.task? n t with
  | some l, some k => coRun l t k
  | _, _ => []

/-! ## What is held and reserved (R271, R273) -/

/-- The cores of a core's quad. -/
def quadCores (c : Nat) : List Nat := upFrom (c / 4 * 4) 4

/-- The reservations that stand: their entry is still in its pool. -/
def State.reservations (s : State) (c : Nat) : List (Nat × Nat × Nat) :=
  (s.core c).reserve.filter (fun r => ((s.task? r.2.1 r.2.2).map Task.pooled).getD false)

/-- A bank is reserved for another entry. -/
def State.bankReserved (s : State) (c b n t : Nat) : Bool :=
  (s.reservations c).any (fun r => r.1 == b && (r.2.1 != n || r.2.2 != t))

/-- An SRAM bank of a core's quad is reserved for another entry. -/
def State.sramReserved (s : State) (c b n t : Nat) : Bool := (quadCores c).any (fun x => s.bankReserved x (16 + b) n t)

/-- An orphan still reads panes of a bank (R322). -/
def State.orphanHolds (s : State) (c b : Nat) : Bool :=
  s.ops.any (fun p => p.2.live && !p.2.st.terminal && p.2.st != .pending && p.2.orphan.isSome && p.2.core == c && (opBanks s p.2).contains b)

/-- The sash's banks are free for an entry. -/
def State.banksFree (s : State) (c base size n t : Nat) : Bool :=
  (upFrom base size).all (fun b => (s.seatOfBank c b).isNone && !s.orphanHolds c b && !s.bankReserved c b n t)

/-- An SRAM bank is free for an entry. -/
def State.sramFree (s : State) (c n t b : Nat) : Bool := (s.sram (c / 4) b).holder.isNone && !s.sramReserved c b n t

/-- SRAM banks a record asks for. -/
def TaskRec.sramBanks (r : TaskRec) : Nat := (r.sram + 262143) / 262144

/-- The lowest-numbered SRAM banks that no seat holds, for a task that starts; none when too few are free or one of them is reserved for
another head (R271). -/
def State.sramGrant (s : State) (c n t need : Nat) : Option (List Nat) :=
  let g := ((List.range 32).filter (fun b => (s.sram (c / 4) b).holder.isNone)).take need
  if g.length < need || g.any (fun b => s.sramReserved c b n t) then none else some g

/-! ## The replica's view (R329) -/

/-- The pages that a region touches. -/
def Region.pages (r : Region) : Nat × Nat := if r.len = 0 then (0, 0) else (r.base / 2 ^ 16, (r.base + r.len - 1) / 2 ^ 16 + 1 - r.base / 2 ^ 16)

/-- The role of a page of two regions: a shadow serves both. -/
def joinRole (a b : Nat) : Nat := if a = 0 || a == b then b else 3

/-- The pages of a view with their roles, ascending. -/
def viewRoles (rs : List Region) : Table Nat :=
  rs.foldl (fun t r => (upFrom r.pages.1 r.pages.2).foldl (fun t p => put t p (joinRole (look 0 t p) r.role)) t) []

/-- A view above 256 pages. -/
def viewTooLarge (rs : List Region) : Bool := rs.any (fun r => decide (256 < r.pages.2)) || decide (256 < (viewRoles rs).length)

/-- Take the lowest free stripe of a core and sg: its address. -/
def State.takeStripe (s : State) (core sg : Nat) : Option (Nat × State) :=
  ((List.range 248).find? (fun r => s.placeFree (core / 192) (stripeBit (rowPa core 0 sg r)))).map (fun r =>
    (rowPa core 0 sg r, s.setPlace (core / 192) (stripeBit (rowPa core 0 sg r)) false))

/-- What an access to the whole of a page waits for (R72, R292). -/
def pageWait (s : State) (pa : Nat) : Option Wait := (List.range 16).findSome? (fun b => heldAt s (pa / 2 ^ 16 * 2 ^ 16 + 4096 * b))

/-- Copy n bytes of memory with their poison. -/
def State.copyMem (s : State) (dst src n : Nat) : State :=
  let img : Table Byte :=
    if regionOf src = .sram then (List.range n).filterMap (fun k => if s.peek (src + k) 1 = 0 then none else some (k, BitVec.ofNat 8 (s.peek (src + k) 1)))
    else slice s.mem src n
  let s1 := s.pokeImage none dst n img
  (List.range (n / 64)).foldl (fun x g =>
    if x.poisonAt (dst + 64 * g) || s.poisonAt (src + 64 * g) then x.setPoison (dst + 64 * g) (s.poisonAt (src + 64 * g)) else x) s1

/-- The home of a page that a leaf maps. -/
def viewHome (e : Word × Bool) (page : Nat) : Nat := ptePpn e.1 + (if e.2 then page * 2 ^ 16 % 2 ^ 25 else 0)

/-- One page of a view: a stripe of the home's sg, filled from the home. A page that does not translate, or whose home another node
holds, is left out of the view (log 53). None: no stripe is free, the page moves, or its rows cannot be read yet. -/
def State.stagePage (s : State) (c : Ctx) (p : Nat × Nat) : Option (Option ViewPage × State) :=
  match findLeaf s c (p.1 * 2 ^ 16) with
  | .ok e =>
    if ptePeer e.1 ≠ 0 then some (none, s)
    else
      (s.takeStripe c.core (dramSg (viewHome e p.1) % 12)).bind fun r =>
        if (pageWait r.2 (viewHome e p.1)).isSome || (pageWait r.2 r.1).isSome then none
        else some (some ⟨p.1, p.2, viewHome e p.1, r.1⟩, r.2.copyMem r.1 (viewHome e p.1) 65536)
  | .wait _ => none
  | .bad _ _ => some (none, s)

/-- What filling the pages of a view waits for: the rows of the homes and of the stripes (R72). -/
def stagesWait (c : Ctx) : List (Nat × Nat) → State → Option Wait
  | [], _ => none
  | p :: ps, s =>
    match findLeaf s c (p.1 * 2 ^ 16) with
    | .wait w => some w
    | .bad _ _ => stagesWait c ps s
    | .ok e =>
      if ptePeer e.1 ≠ 0 then stagesWait c ps s
      else
        match s.takeStripe c.core (dramSg (viewHome e p.1) % 12) with
        | none => none
        | some r => ((pageWait s (viewHome e p.1)).orElse (fun _ => pageWait s r.1)).orElse (fun _ => stagesWait c ps r.2)

/-- The pages of a view one after another. -/
def State.stagePages (c : Ctx) : List (Nat × Nat) → State → Option (List ViewPage × State)
  | [], s => some ([], s)
  | p :: ps, s =>
    (s.stagePage c p).bind fun r => (State.stagePages c ps r.2).map fun q => (r.1.toList ++ q.1, q.2)

/-- The page number under which a view keeps the first stripe of its snapshot area, with the vote record (R337, R338): no address has it. -/
def recordPage : Nat := 2 ^ 48

/-- The stripes of a snapshot area, of any sg. -/
def State.snapStripes (core : Nat) : Nat → State → Option (List ViewPage × State)
  | 0, s => some ([], s)
  | n + 1, s =>
    ((List.range 12).findSome? (fun sg => s.takeStripe core sg)).bind fun r =>
      (State.snapStripes core n r.2).map fun q => (⟨recordPage + n, 4, 0, r.1⟩ :: q.1, q.2)

/-- The view of a replica and its snapshot area: 640 KiB and the SRAM grant (R337). -/
def State.buildView (s : State) (c : Ctx) (rs : List Region) (grant : Nat) : Option (List ViewPage × State) :=
  (State.stagePages c (viewRoles rs) s).bind fun v => (State.snapStripes c.core (10 + 4 * grant) v.2).map fun r => (v.1 ++ r.1, r.2)

/-- The address of a replica's vote record (R338). -/
def Replica.recordPa (r : Replica) : Nat := ((r.view.find? (fun v => v.page == recordPage)).map (·.stripe)).getD 0

/-! ## Forming a seat (R38, R265, R270) -/

/-- s1 to s8 of a task that starts (R265). -/
def startArgs (r : TaskRec) : Table Word :=
  let as := if r.count = 0 then r.args else r.count :: r.args.drop 1
  as.zipIdx.map (fun a => (a.2 + 1, a.1))

/-- hsp of a grant: one above its last bank (R271). -/
def startHsp (grant : List Nat) : Word :=
  match grant.getLast? with
  | some b => BitVec.ofNat 64 (windowBase + (b + 1) * 0x40000)
  | none => 0

/-- The debts of a bank whose unit has paid what came due (R84): each is 0 or 1 (log 87). -/
def Bank.paid (b : Bank) : Bank := { b with debt := b.debt.map (fun d => (d.1, min 1 d.2)) }

/-- A bank as a task finds it (R38): its slots and counters go on. -/
def Bank.started (b : Bank) (k : TaskRec) (off : Nat) (hsp : Word) : Bank :=
  { b.paid with
    s := startArgs k, a := [(0, aMask ((k.anchor.extractLsb' 0 56 + BitVec.ofNat 56 (off * 0x1000)).setWidth 64))], m := [], k := [], flags := 0
    hsp := hsp, ss0 := 0, ss1 := 0, panes := [], claim := none }

/-- An SRAM bank of a grant switched to SCRATCH: its bytes are undefined (R292; log 5). -/
def State.grantSram (s : State) (core base : Nat) : List Nat → State
  | [] => s
  | b :: bs =>
    let f := s.freeBytes
    State.grantSram (f.2.setSram (core / 4) b
      { SramBank.empty with mode := 1, busy := (s.sram (core / 4) b).mode != 1, holder := some (core, base), undef := f.1 }) core base bs

/-- The seat of a task that starts. -/
def Seat.started (l : Launch) (n t : Nat) (k : Task) (base rid : Nat) (grant : List Nat) (disp : Nat) : Seat :=
  { Seat.empty with
    launch := n, task := t, base := base, log2s := k.record.sash, phase := .forming
    parts := [(base, some { Part.empty with pc := k.record.entry, active := bankMask (upFrom base (2 ^ k.record.sash)), entry := true })]
    status := { Status.empty with red := k.record.redund != 0, rid := BitVec.ofNat 2 rid }
    tvec := l.hbase, prio := k.prio, recPrio := k.record.prio, stage := k.record.stage, taskid := BitVec.ofNat 64 (t % 2 ^ 32 + n % 2 ^ 16 * 2 ^ 32)
    sram := grant, ptbr := l.ptbr, disp := disp }

/-- The replica of a seat that starts, its first snapshot taken (R337). -/
def State.startReplica (s : State) (core base : Nat) (rs : List Region) (lead : Bool) (view : List ViewPage) : State :=
  let t := s.seatAt core base
  s.setSeat? core base (some { t with
    red := some { view := view, regions := rs, dirty := [], hold := none, released := false, performer := false, lead := lead, behind := false, suspect := false, rolling := false, echoLog := []
                  echoPos := 0, snap := some (takeSnapshot s core t) } })

/-- Form the seat of one replica, or of a task without redundancy. None: it does not fit. -/
def State.formStart (s : State) (l : Launch) (n t : Nat) (k : Task) (rid : Nat) (lead : Bool) : Option State :=
  let core := replicaCore k.core k.record.redund rid
  let base := dramBank k.pa
  let size := 2 ^ k.record.sash
  if !s.banksFree core base size n t then none
  else
    (s.sramGrant core n t k.record.sramBanks).bind fun grant =>
      let s1 := (s.modBanks core (fun b x => x.started k.record (b - base) (startHsp grant)) (upFrom base size)).grantSram core base grant
      let s2 := s1.setSeat? core base (some (Seat.started l n t k base rid grant s.taskAge))
      if k.record.redund = 0 then some s2
      else
        (s2.buildView ⟨core, false, l.sup, l.ptbr, n, []⟩ k.record.regions grant.length).map fun v =>
          v.2.startReplica core base k.record.regions lead v.1

/-! ## Restoring a context (R39, R78, R327, R354, R355) -/

/-- Banks given by number, moved from one base to another. -/
def moveBanks (x : BitVec 16) (old new : Nat) : BitVec 16 := (x >>> old) <<< new

/-- A part at its new place. -/
def Part.moved (p : Part) (old new : Nat) : Part :=
  { p with
    active := moveBanks p.active old new, begun := moveBanks p.begun old new, kept := p.kept.map (fun k => { k with begun := moveBanks k.begun old new })
    splits := p.splits.map (fun x => { x with banks := moveBanks x.banks old new }) }

/-- The seat of a saved context at its new place. -/
def Context.seatAt (c : Context) (base : Nat) (rows : List Nat) (disp : Nat) : Seat :=
  let old := c.seat.base
  { c.seat with
    base := base, phase := .forming, rows := rows, disp := disp, preempt := false
    handler := c.seat.handler.map (fun h => moveBanks h old base)
    parts := c.seat.parts.map (fun p => (p.1 - old + base, p.2.map (fun x => x.moved old base))) }

/-- A pane that holds an image. -/
def Pane.holding (i : PaneImage) : Pane := ⟨i.openState, i.openState, i, 0, false, false, false, none⟩

/-- A pane that is given content again; one that was parked is parked again (R354). -/
def Bank.holdPane (b : Bank) (n : Nat) (i : PaneImage) (parked : Bool) : Bank :=
  let b1 := b.setPane n (.holding i)
  if parked then b1.parkPane n else b1

/-- Pane n of a restored bank; a saved image's slot becomes free (R78). -/
def Bank.restorePane (b : Bank) (n : Nat) (p : Place) (parked : Bool) : Bank :=
  match p with
  | .closed => b.closePane n
  | .area i => b.holdPane n i parked
  | .slot k => (b.holdPane n (((b.slot n k).img).getD PaneImage.empty) parked).setSlot n k Slot.empty

/-- A user image of an exported context goes back to its own slot of its sg where that is free (R382), -/
def Bank.placeOwn (b : Bank) (n k l t : Nat) (i : PaneImage) : Bank :=
  if (b.slot n k).owner == .free then b.setSlot n k ⟨.user l t, some i⟩ else b

/-- else to the lowest free one (R78; log 88). -/
def Bank.placeUser (b : Bank) (n l t : Nat) (i : PaneImage) : Bank :=
  match (List.range 5).find? (fun k => (b.slot n k).owner == .free) with
  | some k => b.setSlot n k ⟨.user l t, some i⟩
  | none => b

/-- Every user image has a slot (R271). -/
def exportedFits (s : State) (core base : Nat) (c : Context) : Bool :=
  (List.range 192).all (fun e =>
    let want := ((List.range 8).filter (fun k => (look none c.exported (e / 12 * 96 + e % 12 * 8 + k)).isSome)).length
    decide (want ≤ ((List.range 5).filter (fun k => ((s.bank core (base + e / 12)).slot (e % 12) k).owner == .free)).length))

/-- The registers of a saved bank in the bank they are restored to. -/
def Bank.restored (b sav : Bank) : Bank :=
  { b with
    s := sav.s, a := sav.a, m := sav.m, k := sav.k, flags := sav.flags, hsp := sav.hsp, ss0 := sav.ss0, ss1 := sav.ss1, claim := sav.claim, panes := [] }

/-- The user images of bank offset o: first those whose own slot is free. -/
def Bank.placeUsers (b : Bank) (c : Context) (o l t : Nat) : Bank :=
  let us := (c.exported.filter (fun p => p.1 / 96 == o)).filterMap (fun p => p.2.map (fun i => (p.1 % 96, i)))
  let fits (u : Nat × PaneImage) : Bool := (b.slot (u.1 / 8) (u.1 % 8)).owner == .free
  let b1 := (us.filter fits).foldl (fun x u => x.placeOwn (u.1 / 8) (u.1 % 8) l t u.2) b
  (us.filter (fun u => !fits u)).foldl (fun x u => x.placeUser (u.1 / 8) l t u.2) b1

/-- The images that a seat itself keeps in slots 6 and 7 (R76, R124, R337). -/
def Bank.placeKept (b : Bank) (c : Context) (o : Nat) : Bank :=
  (c.own.filter (fun p => p.1 / 96 == o)).foldl (fun x p =>
    x.setSlot (p.1 % 96 / 8) (p.1 % 8) { x.slot (p.1 % 96 / 8) (p.1 % 8) with img := p.2 }) b

/-- One bank of a restored context. -/
def Bank.fromContext (b : Bank) (c : Context) (o l t : Nat) : Bank :=
  (((List.range 12).foldl (fun x n => x.restorePane n (look .closed c.places (o * 12 + n)) (c.parked.contains (o * 12 + n))) (b.paid.restored (look Bank.empty c.banks o))).placeUsers
    c o l t).placeKept c o

/-- Check the binding of a restored image again (R355, R381). -/
def rebind (s : State) (c : Ctx) (core bank n : Nat) (i : PaneImage) : PaneImage :=
  let lost := { i with bnd := false, row := 0 }
  if !i.bnd then i
  else
    match translate s c .read i.va.toNat with
    | .ok p =>
      if p.peer = 0 && regionOf p.pa == .dram && dramCore p.pa == core && dramBank p.pa == bank && dramSg p.pa == n then
        { i with pa := rowStart p.pa, row := BitVec.ofNat 8 (dramRow p.pa), wperm := p.wperm }
      else lost
    | _ => lost

/-- A slot whose image the restored seat will use: a user image of its task, slot 5 of a parked pane, what it keeps itself in slots 6 and 7. -/
def Bank.usesSlot (b : Bank) (c : Context) (o l t e : Nat) (x : Slot) : Bool :=
  if e % 8 < 5 then x.owner.isTask l t else if e % 8 = 5 then (b.pane (e / 8)).park else (look none c.own (o * 96 + e)).isSome

/-- The images of a restored bank whose bindings are checked: of its panes, and of the slots that the seat will use. -/
def Bank.boundImages (b : Bank) (c : Context) (o l t : Nat) : List PaneImage :=
  b.panes.flatMap (fun p => p.2.img :: p.2.next.toList) ++ b.slots.filterMap (fun p => if b.usesSlot c o l t p.1 p.2 then p.2.img else none)

/-- The bindings of a bank checked again. -/
def Bank.rebound (b : Bank) (s : State) (x : Ctx) (core bank : Nat) (c : Context) (o l t : Nat) : Bank :=
  { b with
    panes := b.panes.map (fun p => (p.1, { p.2 with img := rebind s x core bank p.1 p.2.img, next := p.2.next.map (rebind s x core bank p.1) }))
    slots := b.slots.map (fun p =>
      if b.usesSlot c o l t p.1 p.2 then (p.1, { p.2 with img := p.2.img.map (rebind s x core bank (p.1 / 8)) }) else p) }

/-- SRAM banks of a context, given to the seat again. -/
def State.fillSram (s : State) (core base : Nat) : List SramImage → State
  | [] => s
  | i :: is =>
    State.fillSram ((s.writeLinks none (sramPa (core / 4) i.no) 262144).setSram (core / 4) i.no
      { i.bank with busy := (s.sram (core / 4) i.no).mode != i.bank.mode, holder := some (core, base) }) core base is

/-- The operations of a restored seat belong to its new place (R316). -/
def State.moveOps (s : State) (old : Nat × Nat) (core base n t : Nat) : State :=
  (s.opsWhere (fun o => o.launch == n && o.core == old.1 && o.base == old.2 && o.task == t)).foldl (fun s i =>
    s.modOp i (fun o => { o with core := core, base := base, bank := o.bank - old.2 + base })) s

/-- Operations that were drained with a seat, and that nothing else holds, go on (R317, R325, R327): those of its own, and those that its task has
adopted. Each checks its next granule afresh. -/
def State.resumeOps (s : State) (core base n t : Nat) : State :=
  (s.opsWhere (fun o => o.launch == n && o.st == .paused && o.kind.cls != .ts && !s.opPaused o && !s.opSaved o &&
    ((o.task == t && o.core == core && o.base == base) || (!o.detached && o.owner == t)))).foldl (fun s i =>
      (s.modOp i (fun o => { o with st := .running })).pinOp (s.op i)) s

/-- The saved image of row r of a seat (R324): in the save array of its quad, else, for the replica whose context the area holds, in the area
(R359). -/
def State.savedRow (s : State) (n t : Nat) (k : Task) (c : Context) (r : Nat) : Table (BitVec 32) :=
  match (s.quad (c.core / 4)).save.find? (fun p => p.2 == some ⟨n, t, c.seat.status.rid.toNat, r⟩) with
  | some p => ((s.quad (c.core / 4)).saveTiles.filter (fun e => e.1 / 1024 == p.1)).map (fun e => (r * 1024 + e.1 % 1024, e.2))
  | none =>
    match (if c.leads then k.area else none) with
    | some i =>
      (List.range 1024).filterMap (fun x =>
        let v := BitVec.ofNat 32 (s.peek (s.areaPa i + 0x100000 + 0x1000 * r + 4 * x) 4)
        if v = 0 then none else some (r * 1024 + x, v))
    | none => c.tiles.filter (fun e => e.1 / 1024 == r)

/-- The saved images of every row of a seat. -/
def State.savedRows (s : State) (n t : Nat) (k : Task) (c : Context) : Table (BitVec 32) :=
  (List.range c.seat.rows.length).flatMap (s.savedRow n t k c)

/-! ### What a restore waits for (R72, R274, R324, R355) -/

/-- The address of the j-th SRAM bank of a member in the SAVE area: banks follow one another by task number. -/
def Launch.coSaveVa (l : Launch) (t j : Nat) : Nat :=
  let before := l.tasks.filterMap (fun p => p.2.bind (fun k => if p.1 < t && k.record.stage != 0 then some k.record.sramBanks else none))
  l.save.toNat + 0x50000 * (before.foldl (· + ·) 0 + j)

/-- What is kept of a bank: its bytes, then its control register, which holds its mode and pointers (R291). -/
def SramBank.coImage (x : SramBank) : List Byte :=
  (List.range 0x40000).map x.byte ++ (List.range 8).map (fun k => BitVec.ofNat 8 (x.word / 256 ^ k))

/-- The address of the j-th SRAM bank of a seat of a co-run set. -/
def State.coSaveAt (s : State) (t : Seat) (j : Nat) : Option (Ctx × Nat) :=
  if t.stage = 0 then none else (s.launch? t.launch).map (fun l => (launchCtx t.launch l, l.coSaveVa t.task j))

/-- What the bytes of a co-run member wait for. -/
def State.coSaveWait (s : State) (t : Seat) : Option Wait :=
  (List.range t.sram.length).findSome? (fun j =>
    (s.coSaveAt t j).bind (fun x => (pagePieces x.2 0x40008).findSome? (fun p =>
      match storePa s x.1 p.1 with
      | .wait w => some w
      | .ok (some pa) => pageWait s pa
      | _ => none)))

/-- The core of a saved context when it is restored. -/
def Context.target (c : Context) (k : Task) : Nat := replicaCore k.core k.record.redund c.seat.status.rid.toNat

/-- The context in which a restored seat's bindings are translated. -/
def Context.ctx (c : Context) (n core : Nat) : Ctx := ⟨core, false, c.seat.status.lvl, c.seat.ptbr, n, (c.seat.red.map (·.view)).getD []⟩

/-- The context of one replica in its place, its bindings not yet checked. None: it does not fit. -/
def State.placeContext (s : State) (n t : Nat) (k : Task) (c : Context) : Option State :=
  let core := c.target k
  let base := dramBank k.pa
  let mg := c.seat.rows.length
  if !s.banksFree core base (2 ^ c.seat.log2s) n t then none
  else if !(c.sram.all (fun i => s.sramFree core n t i.no)) then none
  else if (s.quad (core / 4)).freeRows.length < mg then none
  else if !exportedFits s core base c then none
  else
    let rows := (s.quad (core / 4)).freeRows.take mg
    let s1 := s.modBanks core (fun b x => x.fromContext c (b - base) n t) (upFrom base (2 ^ c.seat.log2s))
    let s2 := (s1.fillSram core base c.sram).modQuad (c.core / 4) (fun q => q.dropSaved n t)
    let s3 := (s2.setSeat? core base (some (c.seatAt base rows s.taskAge))).grantRows core base rows
    some (s3.modQuad (core / 4) (fun q => fillTiles q rows (s.savedRows n t k c)))

/-- What the bindings of a placed context wait for: pages that move, tables in claimed rows. -/
def bindingsWait (s : State) (n t : Nat) (k : Task) (c : Context) : Option Wait :=
  (upFrom (dramBank k.pa) (2 ^ c.seat.log2s)).findSome? (fun b =>
    ((s.bank (c.target k) b).boundImages c (b - dramBank k.pa) n t).findSome? (fun i =>
      if !i.bnd then none else match translate s (c.ctx n (c.target k)) .read i.va.toNat with | .wait w => some w | _ => none))

/-- What the restore of a context waits for: the rows of the task's area and of a co-run set's SAVE area, the rows to which saved images move,
what its bindings wait for. -/
def State.restoreWait (s : State) (n t : Nat) (k : Task) (c : Context) : Option Wait :=
  let area := (if c.leads then k.area else none).bind (fun i => (List.range 256).findSome? (fun x => pageWait s (s.areaPa i + x * 2 ^ 16)))
  area.orElse fun _ => (s.coSaveWait c.seat).orElse fun _ =>
    (s.spillWait (c.target k) ((s.quad (c.target k / 4)).freeRows.take c.seat.rows.length)).orElse fun _ =>
      (s.placeContext n t k c).bind (fun x => bindingsWait x n t k c)

/-- Restore the context of one replica. None: it does not fit, or must wait. -/
def State.formRestore (s : State) (n t : Nat) (k : Task) (c : Context) : Option State :=
  let core := c.target k
  let base := dramBank k.pa
  if (s.restoreWait n t k c).isSome then none
  else
    (s.placeContext n t k c).map fun s4 =>
      (s4.modBanks core (fun b x => x.rebound s4 (c.ctx n core) core b c (b - base) n t) (upFrom base (2 ^ c.seat.log2s))).moveOps (c.core, c.seat.base) core base n t

/-! ## Dispatching a gang (R272, R274) -/

/-- A task that may not start (R265, R329). -/
def Task.unfit (k : Task) : Bool :=
  k.st == .ready && ((k.record.count != 0 && (k.record.args.headD 0) != 0) || (k.record.redund != 0 && viewTooLarge k.record.regions))

/-- Form the replicas of a task one after another. -/
def State.formAll (l : Launch) (n t : Nat) (k : Task) (least : Nat) : List Nat → State → Option State
  | [], s => some s
  | r :: rs, s =>
    (match k.st with
     | .saved => (k.ctx.find? (fun (c : Context) => c.seat.status.rid.toNat == r)).bind (s.formRestore n t k)
     | _ => s.formStart l n t k r (r == least)).bind (State.formAll l n t k least rs)

/-- A core's state lets it take a seat: no quarantine (R421), the shutter sequence has not begun (R409), it is in RUN (R405). -/
def State.takesSeats (s : State) (c : Nat) : Bool := !(s.core c).quar && s.power.phase == 0 && (s.core c).power == .run

/-- A core is in drain mode for another entry than one given, or a member of its gang (R272, R275). -/
def State.drainsOther (s : State) (c n t : Nat) : Bool :=
  decide (64 ≤ (s.core c).skip) &&
    (match (s.core c).head with
     | some h =>
       !(h.1 == n && (s.gang n h.2).contains t) && ((s.task? h.1 h.2).map Task.pooled).getD false && !((s.launch? h.1).map (·.paused)).getD false
     | none => false)

/-- The reservations for an entry end with its dispatch (R273). -/
def State.unreserve (s : State) (n t : Nat) : State :=
  { s with cores := s.cores.map (fun c => (c.1, { c.2 with reserve := c.2.reserve.filter (fun r => r.2 != (n, t)) })) }

/-- An entry no longer waits for the rows of its dispatch. -/
def State.unstage (s : State) (n t : Nat) : State := { s with waits := { s.waits with staging := s.waits.staging.filter (· != (n, t)) } }

/-- Form one task of a gang. None: it does not fit. -/
def State.formTask (s : State) (n t : Nat) : Option State :=
  match s.launch? n, s.task? n t with
  | some l, some k =>
    if !k.pooled || l.paused then none
    else
      (k.runners s).bind fun rs =>
        let cs := rs.map (replicaCore k.core k.record.redund)
        if !(cs.all s.takesSeats) || cs.any (fun c => s.drainsOther c n t) then none
        else
          (State.formAll l n t k (rs.headD 0) rs s).map fun x =>
            let x1 := ((x.unreserve n t).unstage n t).modTask n t (fun y => { y with st := .running, keys := x.free, replicas := rs })
            { (if k.record.redund = 0 then x1 else x1.newLeader n t) with free := x.free + 4, taskAge := x.taskAge + 1 }
  | _, _ => none

/-- Form every task of a gang. -/
def State.formGang (n : Nat) : List Nat → State → Option State
  | [], s => some s
  | t :: ts, s => (s.formTask n t).bind (State.formGang n ts)

/-- Dispatch the gang of an entry. A chosen entry that may not start ends FAILED, and so do such members of its gang, whether or not they fit
(R266). None: it does not fit. -/
def State.dispatch (s : State) (n t : Nat) : Option State :=
  let g := s.gang n t
  match g.filter (fun j => ((s.task? n j).map Task.unfit).getD false) with
  | [] => State.formGang n g s
  | bad => some (bad.foldl (fun x j => x.endTask n j .failed 0x42 0 0) s)

/-! ### Entries held back by rows (R72, R329; log 105) -/

/-- What the dispatch of one task of a gang waits for. -/
def State.taskWait (s : State) (n t : Nat) : Option Wait :=
  match s.launch? n, s.task? n t with
  | some l, some k =>
    if !k.pooled || k.unfit then none
    else
      ((k.runners s).getD []).findSome? (fun r =>
        if k.st = .saved then (k.ctx.find? (fun c => c.seat.status.rid.toNat == r)).bind (s.restoreWait n t k)
        else if k.record.redund = 0 then none
        else stagesWait ⟨replicaCore k.core k.record.redund r, false, l.sup, l.ptbr, n, []⟩ (viewRoles k.record.regions) s)
  | _, _ => none

/-- What the dispatch of an entry waits for. -/
def State.entryWait (s : State) (n t : Nat) : Option Wait := (s.gang n t).findSome? (s.taskWait n)

/-- The machine as it would be if no pane claimed a row, no SRAM bank changed its mode and every core ran. -/
def State.unheld (s : State) : State :=
  { s with
    cores := s.cores.map (fun c => (c.1, { c.2 with power := .run, banks := c.2.banks.map (fun b => (b.1, { b.2 with panes := [] })) }))
    quads := s.quads.map (fun q => (q.1, { q.2 with sram := q.2.sram.map (fun x => (x.1, { x.2 with busy := false })) })) }

/-- An entry that fits, but whose rows cannot be read or written yet. -/
def State.heldBack (s : State) (n t : Nat) : Bool := (s.entryWait n t).isSome && (s.unheld.dispatch n t).isSome

/-! ## The order of offers (R272) -/

/-- An entry of a core: launch, task, priority, age. -/
structure Entry where
  launch : Nat
  task : Nat
  prio : Nat
  age : Nat
deriving DecidableEq, Repr

/-- The entries and proxies anchored to a core; those of a paused launch are not dispatched (R380). -/
def State.entries (s : State) (core : Nat) : List Entry :=
  s.launches.flatMap fun l =>
    match l.2 with
    | none => []
    | some x =>
      if x.paused then []
      else
        x.tasks.filterMap fun t =>
          t.2.bind fun k =>
            if k.pooled && k.replicas.any (fun r => replicaCore k.core k.record.redund r == core) then
              some ⟨l.1, t.1, k.prio.toNat, k.age⟩
            else none

/-- One entry stands before another. -/
def Entry.before (a b : Entry) : Bool := if a.prio != b.prio then decide (b.prio < a.prio) else decide (a.age < b.age)

/-- Insert an entry in the order of offers. -/
def insertEntry (e : Entry) : List Entry → List Entry
  | [] => [e]
  | x :: xs => if e.before x then e :: x :: xs else x :: insertEntry e xs

/-- The order of offers. -/
def offerOrder (es : List Entry) : List Entry := es.foldl (fun r e => insertEntry e r) []

/-! ## Pre-empting for a head (R273) -/

/-- The seats of a core, by base. -/
def State.coreSeats (s : State) (c : Nat) : List (Nat × Nat × Seat) :=
  (s.core c).seats.filterMap (fun p => p.2.map (fun t => (c, p.1, t)))

/-- The co-run set of a seat cannot be saved (R274). -/
def State.unsavable (s : State) (t : Seat) : Bool := t.stage != 0 && ((s.launch? t.launch).map (fun l => l.save == 0)).getD true

/-- Insert a seat in the order in which SRAM holders are taken. -/
def insertHolder (e : Nat × Nat × Seat) : List (Nat × Nat × Seat) → List (Nat × Nat × Seat)
  | [] => [e]
  | x :: xs =>
    if e.2.2.recPrio.toNat < x.2.2.recPrio.toNat || (e.2.2.recPrio == x.2.2.recPrio && decide (x.2.2.disp < e.2.2.disp)) then e :: x :: xs
    else x :: insertHolder e xs

/-- Take SRAM holders until the need is met. -/
def takeHolders (have_ need : Nat) : List (Nat × Nat × Seat) → List (Nat × Nat × Seat)
  | [] => []
  | x :: xs => if need ≤ have_ then [] else x :: takeHolders (have_ + x.2.2.sram.length) need xs

/-- The seats that block an entry on a core; none when some need cannot be met. -/
def State.blockers (s : State) (core n t : Nat) (k : Task) : Option (List (Nat × Nat × Seat)) :=
  let base := dramBank k.pa
  let holders := (s.coreSeats core).filter (fun p => p.2.2.banks.any (fun b => (upFrom base (2 ^ k.record.sash)).contains b))
  let inQuad := (quadCores core).flatMap s.coreSeats
  let rid := (k.replicas.find? (fun r => replicaCore k.core k.record.redund r == core)).getD 0
  if k.st = .saved then
    let need := ((k.ctx.find? (fun c => c.seat.status.rid.toNat == rid)).map (fun c => c.sram.map (·.no))).getD []
    some (holders ++ inQuad.filter (fun p => p.2.2.sram.any (fun b => need.contains b) && !holders.contains p))
  else
    let free := ((List.range 32).filter (s.sramFree core n t)).length
    let order := (inQuad.filter (fun p => !p.2.2.sram.isEmpty && !s.unsavable p.2.2)).foldl (fun r e => insertHolder e r) []
    let took := takeHolders free k.record.sramBanks order
    if free + ((took.map (fun p => p.2.2.sram.length)).foldl (· + ·) 0) < k.record.sramBanks then none
    else some (holders ++ took.filter (fun p => !holders.contains p))

/-- The tasks that a pre-emption of seats stops: their gangs. -/
def State.stopped (s : State) (xs : List (Nat × Nat × Seat)) : List (Nat × Nat) :=
  (xs.flatMap (fun p => (s.gang p.2.2.launch p.2.2.task).map (fun t => (p.2.2.launch, t)))).eraseDups

/-- Tasks that will need a context area and have none: those given, and those that are already asked to save. -/
def State.areasNeeded (s : State) (ts : List (Nat × Nat)) : Nat :=
  let asked := s.cores.flatMap (fun c => (s.coreSeats c.1).filterMap (fun p =>
    if !p.2.2.isCC && (p.2.2.preempt || p.2.2.phase == .saving || (p.2.2.status.cls == 4 && p.2.2.handler.isSome)) then some (p.2.2.launch, p.2.2.task) else none))
  ((ts ++ asked).eraseDups.filter (fun t => ((s.task? t.1 t.2).map (fun k => k.area.isNone)).getD false)).length

/-- Request the pre-emption of every seat of tasks. -/
def State.askSeats (s : State) (ts : List (Nat × Nat)) : State :=
  ts.foldl (fun s x => (s.seatsOf x.1 x.2).foldl (fun s p => s.setSeat? p.1 p.2 ((s.seat? p.1 p.2).map (fun t =>
    if t.phase == .saving then t else { t with preempt := true }))) s) s

/-- Reserve on its own core what each of some seats will free (R273). -/
def State.reserveFor (s : State) (n t : Nat) (xs : List (Nat × Nat × Seat)) : State :=
  xs.foldl (fun s p => s.modCore p.1 (fun c =>
    { c with reserve := (s.reservations p.1 ++ (p.2.2.banks ++ p.2.2.sram.map (16 + ·)).map (fun b => (b, n, t))).eraseDups })) s

/-- Pre-empt for a head that does not fit (R273): every blocking seat of lower priority, or none. A core on which the head would not run, for it is
quarantined, keeps its seats (R421). -/
def State.preemptFor (s : State) (core n t : Nat) : State :=
  match s.task? n t with
  | none => s
  | some k =>
    match (if ((k.runners s).getD []).any (fun r => replicaCore k.core k.record.redund r == core) then s.blockers core n t k else none) with
    | none => s
    | some xs =>
      if xs.isEmpty || !(xs.all (fun p => !p.2.2.isCC && decide (p.2.2.recPrio.toNat < k.prio.toNat) && !s.unsavable p.2.2)) then s
      else if s.freeAreas.length < s.areasNeeded (s.stopped xs) then s
      else (s.reserveFor n t xs).askSeats (s.stopped xs)

/-- The head and its skip count at an offer: in drain mode the head keeps its place (R272). -/
def offerHead (c : Core) (order : List Entry) : Option Entry × Nat :=
  match c.head with
  | none => (order.head?, 0)
  | some h =>
    match order.find? (fun e => e.launch == h.1 && e.task == h.2) with
    | none => (order.head?, 0)
    | some e => if 64 ≤ c.skip || order.head? == some e then (some e, c.skip) else (order.head?, 0)

/-- The first of some entries that fits: it is dispatched, or held back by its rows. -/
def State.firstFit (s : State) : List Entry → Option (Entry × Option State)
  | [] => none
  | e :: es =>
    match s.dispatch e.launch e.task with
    | some x => some (e, some x)
    | none => if s.heldBack e.launch e.task then some (e, none) else s.firstFit es

/-- An entry waits for the rows of its dispatch. -/
def State.stage (s : State) (e : Entry) : State :=
  if s.waits.staging.contains (e.launch, e.task) then s
  else { s with waits := { s.waits with staging := s.waits.staging ++ [(e.launch, e.task)] } }

/-- Where the offers of a core stand. -/
def State.setHead (s : State) (core : Nat) (h : Option Entry) (skip : Nat) : State :=
  s.modCore core (fun c => { c with head := h.map (fun e => (e.launch, e.task)), skip := skip, reserve := s.reservations core })

/-- One offer to a core. An entry that fits and is held back by its rows is the one the offer gives: nothing below it is dispatched, and it counts no
skip. -/
def State.offer (s : State) (core : Nat) : State :=
  let order := offerOrder (s.entries core)
  let h := offerHead (s.core core) order
  match h.1 with
  | none => s.setHead core none 0
  | some e =>
    match s.firstFit (if 64 ≤ h.2 then [e] else order) with
    | some (f, some s1) => if f = e then s1.setHead core none 0 else (s1.setHead core (some e) (min 64 (h.2 + 1))).preemptFor core e.launch e.task
    | some (f, none) =>
      if f = e then (s.stage f).setHead core (some e) h.2 else ((s.stage f).setHead core (some e) (min 64 (h.2 + 1))).preemptFor core e.launch e.task
    | none => (s.setHead core (some e) (min 64 (h.2 + 1))).preemptFor core e.launch e.task

/-- An entry that was held back is dispatched once its rows let it. -/
def State.stageNow (s : State) (n t : Nat) : State :=
  match s.dispatch n t with
  | some x => { x with cores := x.cores.map (fun c => if c.2.head = some (n, t) then (c.1, { c.2 with head := none, skip := 0 }) else c) }
  | none => if (s.entryWait n t).isSome then s else s.unstage n t

/-- DISPATCH_OFFER (R272). -/
def execDispatchOffer (core : Nat) (s : State) : Host.Outcome State Fault Refusal := .next (if core < 1536 then s.offer core else s)

/-! ## Issuing (R270, R274, R325) -/

/-- A seat enters ISSUING: its SRAM banks have changed mode, and what came before its task comes before its accesses (R269). -/
def State.issueSeat (s : State) (core base : Nat) : State :=
  match s.seat? core base with
  | none => s
  | some t =>
    let s1 := t.sram.foldl (fun s b => s.setSram (core / 4) b { s.sram (core / 4) b with busy := false }) s
    (s1.orderAll core base).setSeat? core base (some { t with phase := .issuing })

/-- A saved replica that has not been restored with its gang (R421): what its registers held goes, its operations are cancelled, its stripes stay
taken until the task is terminal (R329). -/
def State.leaveBehind (s : State) (n t : Nat) (c : Context) : State :=
  let s1 := (s.opsWhere (fun o => o.launch == n && o.task == t && o.core == c.core && o.base == c.seat.base && !o.st.terminal)).foldl State.cancelOp (s.dropContext c)
  s1.modTask n t (fun k => { k with left := k.left ++ c.pages })

/-- The seats of a task issue; a restored task gives its context area back (R276). -/
def State.issueTask (s : State) (n t : Nat) : State :=
  let s0 := ((s.task? n t).map (fun k => k.ctx.filter (fun c => !k.replicas.contains c.seat.status.rid.toNat))).getD []
  let s1 := (s.seatsOf n t).foldl (fun s p => if (s.seatAt p.1 p.2).phase == .forming then s.issueSeat p.1 p.2 else s) (s0.foldl (fun s c => s.leaveBehind n t c) s)
  let s2 := ((s1.releaseArea n t).dropSaves n t).modTask n t (fun k => { k with ctx := [], area := none, isExported := false })
  ((s.seatsOf n t).foldl (fun x p => x.resumeOps p.1 p.2 n t) s2).retryLaunches

/-- SEAT_FORMING_END (R270): no member of a gang issues before every member has formed. -/
def execSeatFormingEnd (core bank : Nat) (s : State) : Host.Outcome State Fault Refusal :=
  .next (match s.seatOfBank core bank with
    | some p =>
      if p.2.phase == .forming && s.power.phase == 0 then (s.gang p.2.launch p.2.task).foldl (fun s t => s.issueTask p.2.launch t) s else s
    | none => s)

/-! ## Saving a seat (R273, R276, R323-R325) -/

/-- The operations that a save drains (R323): those attached to the task and its matrix operations. -/
def drainedWith (core base : Nat) (t : Seat) (o : ChildOp) : Bool :=
  o.launch == t.launch && decide (o.core < 1536) && o.kind.cls != .ts && !o.st.terminal &&
    ((o.kind.cls == .mx && o.task == t.task && o.core == core && o.base == base && o.rows.isEmpty) ||
      (!o.detached && o.owner == t.task && (o.task != t.task || (o.core == core && o.base == base))))

/-- A row command of a part has begun in some bank and waits for the transition of another (R166). -/
def Part.rowBegun (p : Part) : Bool := p.begun != 0 && (match p.wait with | some (.pane _ _ _) => true | _ => false)

/-- A part as it is saved: the waiting or interrupted instruction executes again, a single one in the banks in which it has not performed
(R156, R347; log 94). -/
def Part.saved (p : Part) : Part := { p.endConvoy.halted with wait := none, got := [], xidx := p.restartXidx }

/-- A seat as it is saved: a vote not yet held starts again (R333). -/
def Seat.saved (t : Seat) : Seat :=
  { t.mapParts Part.saved with preempt := false, red := t.red.map (fun r => { r with hold := none }) }

/-- Where pane n of a bank goes (R78, R273): a bit of PANES keeps an open pane in a free slot, else in the area. Which free slot is left open: the
model takes the lowest (log 88). -/
def Bank.savePane (b : Bank) (keep : Bool) (l t n : Nat) : Place × Bank :=
  let p := b.pane n
  let img := if p.park then ((b.slot n 5).img).getD p.img else p.final
  if !keep || !(p.park || p.holds) then (.closed, b.closePane n)
  else
    match (List.range 5).find? (fun k => (b.slot n k).owner == .free) with
    | some k => (.slot k, (b.setSlot n k ⟨.saved l t, some img⟩).closePane n)
    | none => (.area img, b.closePane n)

/-- The panes of a bank one after another. -/
def Bank.savePanes (b : Bank) (panes : BitVec 12) (l t o : Nat) : List Nat → Table Place × Bank
  | [] => ([], b)
  | n :: ns =>
    let r := b.savePane (panes.getLsbD n) l t n
    let q := Bank.savePanes r.2 panes l t o ns
    ((o * 12 + n, r.1) :: q.1, q.2)

/-- The panes of the banks of a seat. -/
def State.saveBanks (s : State) (core base : Nat) (panes : BitVec 12) (l t : Nat) : List Nat → Table Place × State
  | [] => ([], s)
  | b :: bs =>
    let r := (s.bank core b).savePanes panes l t (b - base) (List.range 12)
    let q := State.saveBanks (s.setBank core b r.2) core base panes l t bs
    (r.1 ++ q.1, q.2)

/-- The rows of a grant go to the save array, each under its engine row (R324). -/
def Quad.saveRows (q : Quad) (l t rid : Nat) (rows : List Nat) : Quad :=
  rows.zipIdx.foldl (fun q p =>
    { q with
      save := put q.save p.1 (some ⟨l, t, rid, p.2⟩)
      saveTiles := (q.tiles.filter (fun e => e.1 / 1024 == p.1)).foldl (fun x e => put x e.1 e.2)
        (q.saveTiles.filter (fun e => e.1 / 1024 != p.1)) }) q

/-- The images that a bank of a seat keeps itself: slot 6 of a replica, slot 7 of the panes that claim shut (R76, R124, R337); keyed as the context
keys them. -/
def Bank.keptImages (b : Bank) (o : Nat) (red : Bool) : Table (Option PaneImage) :=
  (List.range 12).flatMap (fun n =>
    (if red && (b.slot n 6).img.isSome then [(o * 96 + n * 8 + 6, (b.slot n 6).img)] else []) ++
      (if ((b.claim.map (fun c => c.panes.contains n)).getD false) && (b.slot n 7).img.isSome then [(o * 96 + n * 8 + 7, (b.slot n 7).img)] else []))

/-- The context of a seat that stands still. -/
def State.contextOf (s : State) (core base : Nat) (t : Seat) (panes : BitVec 12) : Context × State :=
  let r := s.saveBanks core base panes t.launch t.task t.banks
  ({ seat := t.saved, core := core, banks := t.banks.map (fun b => (b - base, { s.bank core b with panes := [], slots := [] }))
     tiles := seatTiles (s.quad (core / 4)) t.rows, sram := t.sram.map (fun b => ⟨b, s.sram (core / 4) b⟩), places := r.1, exported := [], own := t.banks.flatMap (fun b => (s.bank core b).keptImages (b - base) t.red.isSome)
     parked := (r.1.filter (fun p => p.2 != .closed && (s.pane core (base + p.1 / 12) (p.1 % 12)).park)).map (·.1) }, r.2)

/-- Leave a seat that has been saved: nothing is discarded that its context holds. -/
def State.vacate (s : State) (core base : Nat) (t : Seat) : State :=
  let s1 := s.modBanks core (fun _ b => { b.closeAll with k := [], claim := none }) t.banks
  ((((s1.modQuad (core / 4) (fun q => q.saveRows t.launch t.task t.status.rid.toNat t.rows)).releaseRows core base).releaseSram core t.sram).dropLinks core
    t.banks).setSeat? core base none

/-! ### The context area's bytes (R276) -/

/-- Write fields given by offset, value and size. -/
def State.pokeFields (s : State) (pa : Nat) : List (Nat × Nat × Nat) → State
  | [] => s
  | f :: fs => State.pokeFields (s.poke none (pa + f.1) f.2.1 f.2.2) pa fs

/-- The record of a split part. -/
def partFields (j : Nat) (p : Part) : List (Nat × Nat × Nat) :=
  let at0 := 32 + 32 * j
  let joins := (p.splits.reverse.map (fun x => x.id.toNat)).zipIdx.map (fun x => (at0 + 25 + x.2, x.1, 1))
  let atJoin := match p.wait with | some (.sjoin _) => 1 | _ => 0
  [(at0, p.pc.toNat, 8), (at0 + 8, p.vl, 8), (at0 + 16, p.xidx, 4), (at0 + 20, p.rm.toNat, 1), (at0 + 21, p.depth, 1),
    (at0 + 22, p.active.toNat, 2), (at0 + 24, atJoin, 1)] ++ joins

/-- The PANEMAP word of a place. -/
def Place.word : Place → Nat
  | .closed => 0
  | .slot k => 1 + 8 * k
  | .area _ => 3

/-- The parts of a seat in order. -/
def Seat.partList (t : Seat) : List Part := t.parts.filterMap (·.2)

/-- The header of a context area; `t` is the seat as it stood. -/
def headerFields (c : Context) (t : Seat) (bindVa : Nat → Nat) : List (Nat × Nat × Nat) :=
  [(0, 1, 2), (2, c.core, 2), (4, t.base, 1), (5, t.log2s, 1), (6, t.lcap, 1), (8, t.rows.length, 2), (10, t.partList.length, 2),
    (12, (t.sram.map (2 ^ ·)).foldl (· + ·) 0, 4), (16, t.shape.toNat, 8), (24, t.taskid.toNat, 8)] ++
    (t.partList.zipIdx.flatMap (fun p => partFields p.2 p.1)) ++ c.places.map (fun p => (544 + 2 * p.1, p.2.word, 2)) ++
    c.places.map (fun p => (928 + 8 * p.1, if p.2 = .closed then 0 else bindVa p.1, 8)) ++ c.sram.zipIdx.map (fun x => (2464 + 8 * x.2, x.1.bank.word, 8))

/-- The record of a bank: its registers; the sash-wide ones in that of offset 0. `cycle` is a free value. -/
def bankFields (c : Context) (t : Seat) (o : Nat) (b : Bank) (cycle : Word) : List (Nat × Nat × Nat) :=
  let p := t.partList.headD Part.empty
  let at0 := 0x1000 + 0x2000 * o
  let ctl (i : Nat) : Nat := if i = 8 then cycle.toNat else (ctlRead c.core t p (t.base + o) b i).toNat
  (b.s.map (fun r => (at0 + 8 * r.1, r.2.toNat, 8))) ++ (b.a.map (fun r => (at0 + 0x100 + 8 * r.1, r.2.toNat, 8))) ++
    (b.k.filterMap (fun r => r.2.map (fun h => (at0 + 0x140 + 8 * r.1, h.toNat + 2 ^ 32, 8)))) ++
    (b.m.map (fun r => (at0 + 0x200 * r.1, r.2.toNat, 512))) ++
    (((List.range 0x18).filter (fun i => ctlListed false i && (o == 0 || [1, 3, 9, 0xB, 0x16, 0x17].contains i))).map (fun i =>
      (at0 + 0x1000 + 8 * i, ctl i, 8)))

/-- The images held in the area. -/
def areaImages (c : Context) : List (Nat × PaneImage) := c.places.filterMap (fun p => match p.2 with | .area i => some (0x40000 + 0x1000 * p.1, i) | _ => none)

/-- All 256 KiB of an SRAM bank. -/
def SramBank.image (x : SramBank) : Table Byte := (List.range 262144).filterMap (fun k => if x.byte k = 0 then none else some (k, x.byte k))

/-- Write a context to an area; the SRAM banks of a co-run member go to its launch's SAVE area instead (R274). -/
def State.writeContext (s : State) (pa : Nat) (c : Context) (t : Seat) (bindVa : Nat → Nat) : State :=
  let f := s.freeWord
  let s1 := (f.2.pokeImage none pa 0x1000000 []).pokeFields pa (headerFields c t bindVa ++ c.banks.flatMap (fun b => bankFields c t b.1 b.2 f.1))
  let s2 := (areaImages c).foldl (fun s i => s.pokeImage none (pa + i.1) 4096 i.2.data) s1
  if t.stage = 0 then c.sram.zipIdx.foldl (fun s x => s.pokeImage none (pa + 0x200000 + 0x40000 * x.2) 0x40000 x.1.bank.image) s2 else s2

/-- The area of a task, taken at its first save. -/
def State.takeArea (s : State) (n t : Nat) : Option (Nat × State) :=
  match (s.task? n t).bind (·.area) with
  | some i => some (i, s)
  | none =>
    s.freeAreas.head?.map (fun i =>
      (i, { s.modTask n t (fun k => { k with area := some i }) with lctl := { s.lctl with areas := put s.lctl.areas i (some (n, t)) } }))

/-! ### The SAVE area of a co-run set (R274; log 89) -/

/-- Write the SRAM banks of a co-run member to the SAVE area. -/
def State.writeCoSave (s : State) (t : Seat) (sram : List SramImage) : State :=
  sram.zipIdx.foldl (fun s i =>
    match s.coSaveAt t i.2 with
    | none => s
    | some x =>
      (pagePieces x.2 0x40008).foldl (fun s p =>
        match storePa s x.1 p.1 with
        | .ok (some pa) => s.pokeBytes none pa ((i.1.bank.coImage.drop (p.1 - x.2)).take p.2)
        | _ => s) s) s

/-- The binding's VA of a pane, 0 when it is not bound. -/
def State.bindVa (s : State) (core base k : Nat) : Nat :=
  let p := (s.bank core (base + k / 12)).pane (k % 12)
  let img := if p.park then (((s.bank core (base + k / 12)).slot (k % 12) 5).img).getD p.img else p.final
  if img.bnd then img.va.toNat else 0

/-- Save one seat (R325): its threads have stopped, its operations drain, its SRAM, panes and registers go to the context; the leader's is
also written to the task's area. The task is SAVED when each of its replicas is. -/
def State.saveSeat (s : State) (core base : Nat) (t : Seat) (k : Task) (area : Nat) : State :=
  let s1 := (s.flushParts core t.parts)
  let s2 := (s1.opsWhere (drainedWith core base t)).foldl State.pauseOp s1
  let t2 := s2.seatAt core base
  let r := s2.contextOf core base t2 k.record.panes
  let s3 := r.2.vacate core base t2
  let leads := (t.red.map (·.leads)).getD true
  let s4 := if leads then (s3.writeContext (s.areaPa area) r.1 t2 (s2.bindVa core base)).writeCoSave t2 r.1.sram else s3
  s4.modTask t.launch t.task (fun x =>
    let ctx := x.ctx ++ [r.1]
    { x with ctx := ctx, st := if ctx.length = x.replicas.length then .saved else x.st })

/-- An entry of a ready pool that gives its place to a SAVED one: the youngest READY one waits again at its sill, its counter 0 (R268; log 104).
None: the pool is full and holds no READY entry. -/
def State.makeRoom (s : State) (sill : Nat) : Option State :=
  if s.poolSize sill < 4096 then some s
  else
    let ready := s.launches.flatMap (fun l => (l.2.map (fun x => x.tasks.filterMap (fun t => t.2.bind (fun k =>
      if k.st == .ready && k.core / 192 == sill then some (k.age, l.1, t.1) else none)))).getD [])
    match ready.find? (fun a => ready.all (fun b => decide (b.1 ≤ a.1))) with
    | some a => some (s.modTask a.2.1 a.2.2 (fun k => { k with st := .waiting }))
    | none => none

/-- A save that makes its task SAVED needs a place in the pool. -/
def State.roomFor (s : State) (k : Task) : Option State := if k.ctx.length + 1 = k.replicas.length then s.makeRoom (k.core / 192) else some s

/-- A drained operation has a granule in flight (R323). -/
def State.draining (s : State) (core base : Nat) (t : Seat) : Bool :=
  s.ops.any (fun p => p.2.live && p.2.st == .running && drainedWith core base t p.2 && !p.2.atBoundary)

/-- A seat begins to save: its task takes a context area (R276). -/
def State.beginSave (s : State) (core base : Nat) : State :=
  match s.seat? core base with
  | none => s
  | some t =>
    let s1 := s.setSeat? core base (some { t with phase := .saving, preempt := false })
    ((s1.takeArea t.launch t.task).map (·.2)).getD s1

/-- What the bytes of a save wait for: claims of the area's rows (R72), of a co-run set's SAVE area. -/
def State.saveWait (s : State) (t : Seat) : Option Wait :=
  match (s.task? t.launch t.task).bind (·.area) with
  | some i => ((List.range 256).findSome? (fun k => pageWait s (s.areaPa i + k * 2 ^ 16))).orElse (fun _ => s.coSaveWait t)
  | none => s.coSaveWait t

/-- SEAT_SAVE (R325). -/
def execSeatSave (core bank : Nat) (s : State) : Host.Outcome State Fault Refusal :=
  .next (match s.seatOfBank core bank with
    | none => s
    | some p =>
      if p.2.phase != .saving || p.2.partList.any Part.rowBegun || s.draining core p.1 p.2 || decide (3 ≤ s.power.depth) || (s.saveWait p.2).isSome then s
      else
        match s.takeArea p.2.launch p.2.task, s.task? p.2.launch p.2.task with
        | some a, some _ =>
          match (a.2.task? p.2.launch p.2.task).bind (fun k => (a.2.roomFor k).map (fun x => (k, x))) with
          | some (k, x) => x.saveSeat core p.1 p.2 k a.1
          | none => s
        | _, _ => s)

/-! ## Taking a pre-emption or a deadline (R81, R345, R346) -/

/-- Work with the focus on another agent, then put it back. -/
def State.asAgent (s : State) (a : Agent) (f : State → State) : State := { f { s with focus := a } with focus := s.focus }

/-- A phase ended in a synchronous trap or a machine check at an element. -/
def PhaseEnd.trapsAt (x : PhaseEnd) (e : Nat) : Bool :=
  match x with
  | .ended _ (.wait _) | .ended _ (.cut _) => false
  | .ended k _ => k == e
  | _ => false

/-- Bring the focus to a boundary: its element phase runs up to element `stop`; a wait stops at once (R347). A trap of the element at the boundary
comes before what is asynchronous (R345). True when no trap was taken on the way. -/
def State.toBoundary (s : State) (stop : Nat) : State × Bool :=
  match s.fpart.convoy with
  | none => (s, true)
  | some c =>
    let mk (x : State) : List ElemOp := convoyOps x c.elems
    if (mk s).isEmpty || (s.fseat.red.isSome && releasesIn (mk s)) then (s, true)
    else
      let r := runCut mk (some stop) s
      match r.2 with
      | .stopped e =>
        let q := runCut mk (some (e + 1)) s
        if q.2.trapsAt e then (finishPhase q, false) else (finishPhase r, true)
      | .ended e (.wait _) => ((r.1.phaseAt e).modPart s.focus Part.halted, true)
      | .unchanged (.wait _) => (s, true)
      | .ended _ (.cut _) => (finishPhase r, true)
      | .unchanged (.cut _) => (finishPhase r, true)
      | .done => (finishPhase r, true)
      | .ended _ _ => (finishPhase r, false)
      | .unchanged _ => (finishPhase r, false)

/-- A handler waits in await, kwait, kwait.nt or bwait (R346); a replica that follows waits there for the leader's value. -/
def Part.yielding (p : Part) : Bool :=
  match p.wait, (p.convoy.bind (fun c => c.todo.head?.map (·.2)) : Option Instr) with
  | some .await, _ => true
  | some (.bwait _ _), _ => true
  | some (.op _), some (.kwait _ _ _) => true
  | some (.op _), some (.kwaitNt _ _ _) => true
  | some .echo, some (.await _ _) => true
  | some .echo, some (.kwaitNt _ _ _) => true
  | _, _ => false

/-- A pre-emption is held (R345, R346). Without a handler to enter it is no trap, and nothing holds it. -/
def preemptHeld (t : Seat) (p : Part) : Bool := t.tvec != 0 && (t.status.hold || t.status.lvl) && !(t.handles p && p.yielding)

/-- Take a pre-emption at a boundary (R346): save directly, with epc at the boundary (R102, R360), or enter the class 4 handler. -/
def State.preempt (s : State) (a : Agent) : State :=
  let t := s.seat a
  if t.tvec = 0 || t.handler.isSome then
    ((if t.handler.isSome then s else s.setSeat a { t with epc := (s.part a).pc }).beginSave a.core a.base).dropLinks a.core t.banks
  else
    let s1 := s.setSeat a { t with preempt := false }
    (s1.modPart a Part.stopped).takeTrap a 0x38 0 (s1.part a).pc none

/-- PREEMPT_HANDLER_TIMEOUT (R346): the context is saved with the class 4 handler in progress. -/
def execPreemptHandlerTimeout (core bank : Nat) (s : State) : Host.Outcome State Fault Refusal :=
  .next (match s.seatOfBank core bank with
    | some p =>
      if s.power.phase == 0 && !p.2.isCC && p.2.handler.isSome && p.2.status.cls == 4 && p.2.phase == .issuing then
        (s.beginSave core p.1).dropLinks core p.2.banks
      else s
    | none => s)

/-! ## eret (R125, R344, R346) -/

/-- The panes of a claimed bank as eret leaves them: leftovers closed, the claimed ones reopening from slot 7, the parked ones parked. -/
def Bank.unclaimPanes (b : Bank) (was : List Nat) : List Nat → Bank
  | [] => b
  | n :: ns =>
    let b1 :=
      if was.contains n then b.setPane n (.opening (((b.slot n 7).img).getD PaneImage.empty))
      else if was.contains (16 + n) && (b.pane n).park then b
      else b.closePane n
    Bank.unclaimPanes b1 was ns

/-- A bank as it was before claim. -/
def Bank.unclaimed (b : Bank) : Bank :=
  match b.claim with
  | none => b
  | some c => { b.unclaimPanes c.panes (List.range 12) with m := c.m, k := c.k, claim := none }

/-- The handles that a handler left in a bank's token registers over other values. -/
def Bank.leftTokens (b : Bank) : List (BitVec 32) :=
  match b.claim with
  | none => []
  | some c => b.k.filterMap (fun r => if r.2 == look none c.k r.1 then none else r.2)

/-- The handles of the saved registers that a bank holds no more. -/
def Bank.lostTokens (b : Bank) : List (BitVec 32) :=
  match b.claim with
  | none => []
  | some c => c.k.filterMap (fun r => if r.2 == look none b.k r.1 then none else r.2)

/-- Registers of the focus's seat hold a handle again. -/
def State.rehold (s : State) (h : BitVec 32) : State :=
  if s.liveHandle h then
    s.modOp (entryOf h) (fun o => if s.mirrorsOp o then { o with mirrors := o.mirrors + 1 } else { o with holders := o.holders + 1 })
  else s

/-- Restore what claim saved in every bank and part (R125, R344). -/
def State.unclaim (s : State) : State :=
  let t := s.fseat
  let banks := t.banks.map (fun b => s.fbank b)
  let s1 := (banks.flatMap Bank.lostTokens).foldl State.rehold s
  let s2 := (banks.flatMap Bank.leftTokens).foldl (fun s h => if s.liveHandle h then (s.detachOp h).unhold h 1 else s) s1
  (s2.modBanks s.focus.core (fun _ b => b.unclaimed) t.banks).modSeat s.focus (fun x =>
    x.mapParts (fun p => match p.claim with | some c => { p.uncut with vl := c.1, xidx := c.2.1, rm := c.2.2, claim := none } | none => p))

/-- A part as eret resumes it: what it has decoded is decoded afresh (R258). A part that ran the handler resumes at epc, another at its recorded pc
(log 75). A single instruction that was stopped asynchronously goes on in the banks in which it has not performed, and so does a row command that
has begun (R156, R347; log 94); a part that waited at an sjoin waits there. -/
def Part.resumed (p : Part) (handles : Bool) (epc : Word) : Part :=
  if handles then
    let k := p.kept.filter (fun k => k.pc == epc)
    { p.endConvoy.noted with
      wait := (k.bind (·.join)).map .sjoin, begun := (k.map (·.begun)).getD 0, stored := (k.map (·.stored)).getD [], kept := none, pc := epc, entry := false }
  else { p.endConvoy.halted with wait := p.joinId.map .sjoin, xidx := p.restartXidx }

/-- The level, hold and class after eret; every part resumes (R125). From class 4 the context is saved in place of resuming (R346). -/
def State.resumeAt (s : State) (cls : BitVec 3) : State :=
  let t := s.fseat
  let st : Status := { t.status with lvl := t.status.plvl, hold := false, cls := 0, clm := false }
  let s1 := (s.flushParts s.focus.core t.parts).modSeat s.focus (fun x =>
    { x.mapParts (fun p => p.resumed (t.handles p) t.epc) with status := st, handler := none })
  if cls = 4 && !t.isCC then s1.beginSave s.focus.core s.focus.base else s1

/-- eret with its target checked. -/
def State.eretGo (s : State) : State :=
  let t := s.fseat
  match (if t.status.clm then claimWait s s.focus.core t.banks else none) with
  | some w => s.waitOn w
  | none => (if t.status.clm then s.unclaim else s).resumeAt t.status.cls

/-- eret (R125). -/
def execEret (s : State) : Host.Outcome State Fault Refusal :=
  if s.fseat.status.lvl then afterSlot s false s.fseat.epc s.eretGo else .next (s.trapSingle 0x04 0)

/-! ## tend (R123) -/

/-- The attached operations in the token registers of a seat: register and handle. -/
def State.attached (s : State) : List (BitVec 4 × BitVec 32) :=
  s.fseat.banks.flatMap (fun b => (s.fbank b).k.filterMap (fun r =>
    r.2.bind (fun h => if s.liveHandle h && !(s.opOf h).detached then some (BitVec.ofNat 4 r.1, h) else none)))

/-- The end of the task: panes closed, grant and tokens gone, the seat returned. -/
def State.endSelf (s : State) : State := s.endTask s.fseat.launch s.fseat.task .done 0 0 0

/-- Steps 2 to 5 of tend, in ENDING (R270): panes in a transition and matrix operations are waited for, then the task ends. -/
def tendEnd (s : State) : Host.Outcome State Fault Refusal :=
  let s1 := s.modSeat s.focus (fun t => { t with phase := .ending })
  match claimWait s1 s1.focus.core s1.fseat.banks with
  | some w => .next (s1.waitOn w)
  | none =>
    match (if s1.fseat.rows.isEmpty then none else s1.matrixOps.head?) with
    | some i => .next (s1.waitOn (.mx i))
    | none => .next s1.endSelf

/-- The release point that a replica's tend is (R333): the task ends once the vote has let it go. -/
def tendRelease (s : State) : Host.Outcome State Fault Refusal :=
  match s.fseat.red with
  | none => tendEnd s
  | some r =>
    if r.released then (if s.awaitsPerformer r then .next (s.waitOn .vote) else tendEnd s)
    else
      match s.localOp with
      | some i => .next (s.waitOn (.op i))
      | none => .next (s.holdForVote r 6 [])

/-- tend at DEPTH 0: its operations are waited for, and the vote; then the seat is ENDING. -/
def tendSteps (s : State) : Host.Outcome State Fault Refusal :=
  if s.fseat.phase == .ending then tendEnd s
  else
  match s.attached.find? (fun x => !(s.opOf x.2).st.terminal) with
  | some x => .next (s.waitOn (.tend (entryOf x.2)))
  | none =>
    match s.attached.find? (fun x => (s.opOf x.2).st == .faulted) with
    | some x => .next (s.trapSingle 0x21 (childFaultTval x.2 x.1))
    | none => tendRelease s

/-- tend (R123). A control core runs no task: tend, which never goes on to the next instruction (R97), stops it (log 28). -/
def execTend (s : State) : Host.Outcome State Fault Refusal :=
  if s.fseat.isCC then .next (s.retire.modSeat s.focus (fun t => { t with run := .stopped })) else atDepth0 s (tendSteps s)

/-- The trap of its own that comes due at the boundary at which the focus waits: every operation of its kwait or tend has ended, one of them FAULTED
(R243, R123, R345). -/
def State.ownTrap (s : State) : Option State :=
  let s1 := s.modPart s.focus (fun p => { p with wait := none })
  let go (r : Host.Outcome State Fault Refusal) : Option State := match r with | .next x => some x | _ => none
  let due (hs : List (BitVec 32)) : Bool := (s.unfinished hs).isNone && hs.any (fun h => (s.opOf h).st == .faulted)
  match s.current with
  | some (.kwait k p c) => if s.active.all (fun b => s.tokenLive b k) && due (distinct (s.handles k)) then go (execKwait k p c s1) else none
  | some .tend => if s.fseat.phase != .ending && due (s.attached.map (·.2)) then go (execTend s1) else none
  | _ => none

/-! ## tyield (R121, R273) -/

/-- The seats that an entry waits for and that yield to it: it holds back, every seat that blocks it has at most its priority and can be saved
(R121, R273). -/
def State.yielders (s : State) (core : Nat) (e : Entry) : List (Nat × Nat × Seat) :=
  match (s.task? e.launch e.task).bind (s.blockers core e.launch e.task) with
  | some xs => if xs.all (fun p => !p.2.2.isCC && decide (p.2.2.recPrio.toNat ≤ e.prio) && !s.unsavable p.2.2) then xs else []
  | none => []

/-- The entry for which a seat yields: the first in the order that waits for banks the seat holds. -/
def State.yieldsTo (s : State) (core base : Nat) : Option Entry :=
  (offerOrder (s.entries core)).find? (fun e => (s.yielders core e).any (fun p => p.1 == core && p.2.1 == base))

/-- tyield (R121): the links of the thread go (R219); the seat saves at the boundary after the convoy, its gang with it; without a context area it
has no other effect. -/
def execTyield (s : State) : Host.Outcome State Fault Refusal :=
  let t := s.fseat
  let s1 := s.retire.dropLinks s.focus.core s.active
  if t.isCC then .next s1
  else
    match s.yieldsTo s.focus.core s.focus.base with
    | none => .next s1
    | some e =>
      let me := (s.focus.core, s.focus.base, t)
      if s.unsavable t || s.freeAreas.length < s.areasNeeded (s.stopped [me]) then .next s1
      else .next (((s1.reserveFor e.launch e.task [me]).askSeats (s.stopped [me])).beginSave s.focus.core s.focus.base)

/-! ## tlbinv (R249) -/

/-- A translation-cache entry that serves the 64 KiB page of an address. -/
def TlbEntry.serves (e : TlbEntry) (va : Nat) : Bool :=
  e.va / (if e.big then 2 ^ 25 else 2 ^ 16) == va / (if e.big then 2 ^ 25 else 2 ^ 16)

/-- Invalidate entries in every quad. -/
def State.dropTlb (s : State) (f : TlbEntry → Bool) : State :=
  { s with quads := s.quads.map (fun q => (q.1, { q.2 with tlb := q.2.tlb.filter (fun e => !f e) })) }

/-- tlbinv (R249). -/
def execTlbinv (a b : BitVec 5) (s : State) : Host.Outcome State Fault Refusal :=
  let x : Enc := ⟨0x60, 0, 1, packA 0 a b⟩
  if s.active.any (fun k => (s.fbank k).rs b &&& ~~~1 != 0) then .next (s.trapSingle 0x01 (s.illegal x))
  else
    .next ((s.active.foldl (fun s' k =>
      if ((s.fbank k).rs b).getLsbD 0 then s'.dropTlb (fun _ => true)
      else s'.dropTlb (fun e => e.serves (((s.fbank k).rs a).toNat % 2 ^ 56))) s).retire)

/-! ## Scheduler state errors (R281) -/

/-- SCHEDULER_STATE_ERROR (R281): a pool entry, or both copies of a dependence counter. -/
def execSchedulerStateError (launch task : Nat) (counter : Bool) (s : State) : Host.Outcome State Fault Refusal :=
  .next (match s.launch? launch, s.task? launch task with
    | some l, some k =>
      let cause : BitVec 8 := if counter then 0x49 else 0x48
      let noted := ({ s with log := { s.log with schederr := s.log.schederr + 1 } }).logError 0x0B 2 planeControl (locOf l.sill 0 0)
        (cause.setWidth 32) 0 (BitVec.ofNat 64 task)
      if counter then
        if k.st = .waiting then (noted.recordFault launch 0x49 2 task 0 0).stopLaunch launch else s
      else if k.pooled then noted.endTask launch task .failed 0x48 0 0 else s
    | _, _ => s)

end Sys2Proof.Machine
end

