-- ==== Sys2Proof/Machine/Vote.lean ====
section
/-! DEFINITION. Sys2Proof/Machine/Vote.lean: the vote unit (R336-R341): agreement and commit, rollback, re-synchronising a minority,
replica mismatch. -/

namespace Sys2Proof.Machine

/-! ## The replicas of a task -/

/-- A replica as the vote sees it: core, base, seat, its redundancy state. -/
structure Voter where
  core : Nat
  base : Nat
  seat : Seat
  red : Replica
deriving DecidableEq, Repr

def Voter.rid (v : Voter) : Nat := v.seat.status.rid.toNat

/-- Insert by replica number. -/
def insertVoter (v : Voter) : List Voter → List Voter
  | [] => [v]
  | x :: xs => if v.rid < x.rid then v :: x :: xs else x :: insertVoter v xs

/-- The replicas of a task, by number. -/
def State.voters (s : State) (l t : Nat) : List Voter :=
  ((s.seatsOf l t).filterMap (fun p => (s.seat? p.1 p.2).bind (fun x => x.red.map (fun r => Voter.mk p.1 p.2 x r)))).foldl
    (fun r v => insertVoter v r) []

/-- Two signatures that arrived and are equal; a replica stopped by a machine check, or whose view was repaired, disagrees (R341). -/
def agreeing (a b : Voter) : Bool :=
  match a.red.hold, b.red.hold with
  | some x, some y => !a.red.suspect && !b.red.suspect && x.kind == y.kind && x.sig == y.sig
  | _, _ => false

/-- The part of a replica that stands at the release point: the one that waits for the vote, else its lowest. -/
def Seat.votePart (t : Seat) : Nat :=
  ((t.parts.find? (fun p => (p.2.map (fun x => x.wait == some .vote)).getD false)).map (·.1)).getD
    (((t.parts.find? (fun p => p.2.isSome)).map (·.1)).getD t.base)

def Voter.agent (v : Voter) : Agent := ⟨v.core, v.base, v.seat.votePart⟩

/-- Change a replica's redundancy state. -/
def State.modRed (s : State) (v : Voter) (f : Replica → Replica) : State :=
  s.setSeat? v.core v.base ((s.seat? v.core v.base).map (fun t => { t with red := t.red.map f }))

/-! ## What the vote unit waits for (R72, R73) -/

/-- The home of a shadow address. -/
def Replica.homePa (r : Replica) (va : Nat) : Nat :=
  match r.view.find? (fun v => v.page == va / 2 ^ 16) with
  | some v => v.home + va % 2 ^ 16
  | none => 0

/-- What a decision of the vote waits for: the rows of the dirty granules, at home and in each shadow, and of the vote records. -/
def voteWait (s : State) (vs : List Voter) : Option Wait :=
  vs.findSome? (fun v => (heldAt s v.red.recordPa).orElse (fun _ =>
    v.red.dirtyGranules.findSome? (fun g => (heldAt s (v.red.homePa (g.1 * 64))).orElse (fun _ => heldAt s (v.red.shadowPa (g.1 * 64))))))

/-- What copying shadow pages between replicas waits for. -/
def viewWait (s : State) (vs : List Voter) : Option Wait := vs.findSome? (fun v => v.red.view.findSome? (fun p => pageWait s p.stripe))

/-! ## Commit (R337) -/

/-- Copy the bytes of a granule that a mask names. -/
def State.copyBytes (s : State) (dst src : Nat) (mask : BitVec 64) : State :=
  (List.range 64).foldl (fun s k => if mask.getLsbD k then s.poke none (dst + k) (s.peek (src + k) 1) 1 else s) s

/-- Write a granule's dirty bytes, its poison with them; clean bytes over the whole granule clear it (R350). -/
def State.copyGranuleBytes (s : State) (dst src : Nat) (mask : BitVec 64) : State :=
  let s1 := s.copyBytes dst src mask
  if s.poisonAt src then s1.setPoison dst true else if mask = BitVec.allOnes 64 then s1.setPoison dst false else s1

/-- A replica's dirty bytes go to their homes, in ascending order (R337 step 1). -/
def State.commit (s : State) (r : Replica) : State :=
  r.dirtyGranules.foldl (fun s g => s.copyGranuleBytes (r.homePa (g.1 * 64)) (r.shadowPa (g.1 * 64)) g.2) s

/-- Let the replicas that agree pass; one performs the access. -/
def State.letGoOn (s : State) (vs : List Voter) (performer : Nat) : State :=
  vs.reverse.foldl (fun s v =>
    (s.modRed v (fun r => { r with hold := none, released := true, suspect := false, performer := v.rid == performer })).resume v.agent) s

/-- The vote agrees (R337): commit, then the performer's access and the rest run as each replica goes on. -/
def State.agree (s : State) (l t : Nat) (vs : List Voter) (p : Voter) : State :=
  ((s.commit p.red).letGoOn (p :: vs.filter (fun v => v.rid != p.rid)) p.rid).modTask l t (fun k => { k with runs := 0 })

/-! ## Rollback (R340) -/

/-- The rows that a rollback needs can be granted: they are free, and saved images in them have room to go (R324, R340 step 2). -/
def State.rowsFor (s : State) (v : Voter) : Bool :=
  match v.red.snap with
  | some x => decide (x.mg ≤ (s.quad (v.core / 4)).freeRows.length) && (s.spillWait v.core ((s.quad (v.core / 4)).freeRows.take x.mg)).isNone
  | none => true

/-- The panes of a bank as its snapshot holds them: those that were open, or to be open at their transition's end, from slot 6, the others closed. -/
def Bank.rollPanes (b snap : Bank) : List Nat → Bank
  | [] => b
  | n :: ns =>
    Bank.rollPanes
      (if (snap.pane n).holds then b.setPane n (.holding (((b.slot n 6).img).getD (snap.pane n).img)) else b.closePane n) snap ns

/-- A bank as its snapshot holds it. -/
def Bank.rolled (b snap : Bank) : Bank := (b.restored snap).rollPanes snap (List.range 12)

/-- Dirty shadow bytes come back from their homes (R340 step 3). -/
def State.restoreShadow (s : State) (r : Replica) : State :=
  r.dirtyGranules.foldl (fun s g => s.copyGranuleBytes (r.shadowPa (g.1 * 64)) (r.homePa (g.1 * 64)) g.2) s

/-- The operations of a seat created since its snapshot are cancelled and their entries freed (R340 step 4). -/
def State.dropOps (s : State) (v : Voter) (age : Nat) : State :=
  (s.opsWhere (fun o => o.core == v.core && o.base == v.base && o.launch == v.seat.launch && o.task == v.seat.task && decide (age ≤ o.age))).foldl
    (fun s i => (s.cancelOp i).modOp i (fun o => { o with live := false })) s

/-- The seat of a replica with the values of a snapshot, on given rows. -/
def Seat.rolled (t : Seat) (x : Snapshot) (rows : List Nat) : Seat :=
  { t with
    parts := x.parts.map (fun p => (p.1, p.2.map Part.saved)), status := { x.status with rid := t.status.rid, red := t.status.red }, cause := x.cause
    epc := x.epc, tval := x.tval, tvec := x.tvec, prio := x.prio, lcap := x.lcap, bars := x.bars, shape := x.shape, rows := rows
    handler := x.handler }

/-- Put a replica into the state of a snapshot (R340): its own, or the majority's (R338). -/
def State.rollTo (s : State) (v : Voter) (x : Snapshot) : State :=
  let s0 := (s.dropOps v x.opAge).restoreShadow v.red
  let s1 := (s0.releaseRows v.core v.base)
  let rows := (s1.quad (v.core / 4)).freeRows.take x.mg
  let s2 := (s1.grantRows v.core v.base rows).modQuad (v.core / 4) (fun q => fillTiles q rows x.tiles)
  let s3 := s2.modBanks v.core (fun b y => y.rolled (look Bank.empty x.banks (b - v.base))) v.seat.banks
  let s4 := s3.fillSram v.core v.base ((x.sram.zip v.seat.sram).map (fun i => ⟨i.2, i.1.bank⟩))
  (s4.dropLinks v.core v.seat.banks).setSeat? v.core v.base (some ((s4.seatAt v.core v.base).rolled x rows))

/-- Roll a replica back to its snapshot; the echoed values come again (R339, R340). -/
def State.rollBack (s : State) (v : Voter) : State :=
  match v.red.snap with
  | none => s
  | some x => (s.rollTo v x).modRed v (fun r => { r with dirty := [], hold := none, released := false, performer := false, suspect := false, rolling := false, echoPos := 0 })

/-- A replica rolled back runs again from its snapshot (R340 step 5). -/
def State.rollAndGo (s : State) (v : Voter) : State :=
  let s1 := s.rollBack v
  s1.resume ⟨v.core, v.base, (s1.seatAt v.core v.base).votePart⟩

/-- The parts of a replica that rolls back: nothing of what they were doing goes on. -/
def Seat.stalled (t : Seat) : Seat :=
  { t with parts := t.parts.map (fun p => (p.1, p.2.map (fun x => { x.saved with wait := if p.1 = t.votePart then some .vote else none }))) }

/-- A rollback starts (R340): the panes as the snapshot holds them (step 1), the current grant released (step 2), the operations created since
gone. What remains follows once the rows can be granted. -/
def State.startRoll (s : State) (v : Voter) : State :=
  match v.red.snap with
  | none => s
  | some x =>
    let s1 := (s.dropOps v x.opAge).modBanks v.core (fun b y => y.rollPanes (look Bank.empty x.banks (b - v.base)) (List.range 12)) v.seat.banks
    let s2 := s1.releaseRows v.core v.base
    (s2.setSeat? v.core v.base ((s2.seat? v.core v.base).map Seat.stalled)).modRed v (fun r =>
      { r with hold := none, released := false, performer := false, suspect := false, rolling := true })

/-- A rollback that has started goes on at once where its rows can be granted. -/
def State.tryRoll (s : State) (v : Voter) : State := if s.rowsFor v then s.rollAndGo v else s

/-! ## Disagreement (R338) -/

/-- The vote record (R338). -/
def State.voteRecord (s : State) (l t : Nat) (vs : List Voter) (v : Voter) (outcome : Nat) : State :=
  let k := s.task? l t
  let h := (vs.findSome? (fun x => x.red.hold)).getD ⟨0, 0, 0⟩
  let sig (n : Nat) : Nat := (((vs.find? (fun x => x.rid == n)).bind (fun x => x.red.hold)).map (fun x => x.sig.toNat)).getD 0
  (s.pokeImage none v.red.recordPa 128 []).pokeFields v.red.recordPa
    [(0, sig 0, 32), (32, sig 1, 32), (64, sig 2, 32), (96, h.pc.toNat, 8), (104, h.kind, 1), (105, outcome, 1), (106, (k.map (·.runs)).getD 0, 1),
      (112, s.ns, 8), (120, v.seat.taskid.toNat, 8)]

/-- A disagreement counts and is logged, with the address of its vote record where one is written (R418). -/
def State.noteVote (s : State) (core record : Nat) : State :=
  ({ s with log := { s.log with votedis := s.log.votedis + 1 } }).logError 0x0A 1 planeData (locOf core 0 0) 0 (BitVec.ofNat 64 record) 0

/-- The leader takes replica mismatch; the others hold (R338). -/
def State.mismatch (s : State) (l t : Nat) (vs : List Voter) (v : Voter) (late : Bool) : State :=
  let s1 := s.voteRecord l t vs v (if late then 3 else 1)
  let s2 := ({ s1 with log := { s1.log with mismatch := s1.log.mismatch + 1 } }).modRed v (fun r => { r with hold := none })
  (vs.foldl (fun s x => s.modRed x (fun r => { r with suspect := false })) s2).takeTrap v.agent 0x28 (BitVec.ofNat 64 v.red.recordPa) (s2.part v.agent).pc (some 0)

/-- A vote that does not agree and has no majority: a rollback the first time, replica mismatch after it. -/
def State.disagree (s : State) (l t : Nat) (vs : List Voter) (late : Bool) : State :=
  let lead := (vs.find? (fun v => v.red.lead)).orElse (fun _ => vs.head?)
  let runs := ((s.task? l t).map (·.runs)).getD 0
  match lead with
  | none => s
  | some p =>
    let s1 := (s.noteVote p.core (if runs = 0 then 0 else p.red.recordPa)).modTask l t (fun k => { k with runs := k.runs + 1 })
    if runs = 0 then vs.foldl State.tryRoll (vs.foldl State.startRoll s1) else s1.mismatch l t vs p late

/-- Two of three agree: they pass, the third waits to be re-synchronised. -/
def State.majority (s : State) (l t : Nat) (vs pair : List Voter) (p m : Voter) (late : Bool) : State :=
  let s0 := (s.noteVote m.core m.red.recordPa).modTask l t (fun k => { k with runs := k.runs + 1 })
  let s1 := (s0.voteRecord l t vs m (if late then 3 else 2)).agree l t pair p
  s1.modRed m (fun r => { r with behind := true })

/-- The first pair of a triple that agrees, lower number first. -/
def findPair : List Voter → Option (Voter × Voter × Voter)
  | [a, b, c] => if agreeing a b then some (a, b, c) else if agreeing a c then some (a, c, b) else if agreeing b c then some (b, c, a) else none
  | _ => none

/-- Decide a vote; `late`: a replica that has not arrived disagrees (R336). -/
def State.decideVote (s : State) (l t : Nat) (vs : List Voter) (late : Bool) : State :=
  match vs with
  | [] => s
  | v :: rest =>
    if !late && rest.all (agreeing v) then s.agree l t vs ((vs.find? (fun x => x.red.lead)).getD v)
    else
      match findPair vs with
      | some (a, b, m) => s.majority l t vs [a, b] a m late
      | none => s.disagree l t vs late

/-! ## Re-synchronising the minority (R338) -/

/-- Slot 6 of one replica's banks copied to another's. -/
def State.copySlot6 (s : State) (src dst : Voter) : State :=
  (List.range src.seat.size).foldl (fun s o =>
    let from_ := s.bank src.core (src.base + o)
    s.modBank dst.core (dst.base + o) (fun b => (List.range 12).foldl (fun b n => b.setSlot n 6 (from_.slot n 6)) b)) s

/-- The shadow pages of one replica copied to another's. -/
def State.copyShadows (s : State) (src dst : Voter) : State :=
  src.red.view.foldl (fun s p =>
    match (if p.role = 1 || p.role = 4 then none else dst.red.view.find? (fun q => q.page == p.page)) with
    | some q => s.copyMem q.stripe p.stripe 65536
    | none => s) s

/-- An image of one replica's pane for another: a row of a page of the view is the row of its own stripe; any other binding is to a row of the
first replica's core, and is lost (R63, R355). -/
def Replica.ownRow (src dst : Replica) (i : PaneImage) : PaneImage :=
  let lost := { i with bnd := false, row := 0 }
  if !i.bnd then i
  else
    match src.view.find? (fun p => p.role != 4 && p.stripe == i.pa / 65536 * 65536) with
    | none => lost
    | some p =>
      match dst.view.find? (fun q => q.page == p.page) with
      | none => lost
      | some q => { i with pa := q.stripe + i.pa % 65536, row := BitVec.ofNat 8 (dramRow (q.stripe + i.pa % 65536)) }

/-- The slot-6 images that a minority has taken, bound to its own rows. -/
def State.ownRows (s : State) (src m : Voter) : State :=
  s.modBanks m.core (fun _ b =>
    (List.range 12).foldl (fun x n => x.setSlot n 6 { x.slot n 6 with img := (x.slot n 6).img.map (src.red.ownRow m.red) }) b) m.seat.banks

/-- The minority takes the images, the snapshot and the shadow pages of a replica that has passed the release point; the bytes which that replica
has written since come back from their homes. It is then restored from them as a rollback does. -/
def State.resync (s : State) (src m : Voter) : State :=
  match src.red.snap with
  | none => s
  | some x =>
    let s1 := ((s.copySlot6 src m).ownRows src m).copyShadows src m
    let s2 := s1.dropOps m ((m.red.snap.map (·.opAge)).getD x.opAge)
    let y : Snapshot := { x with opAge := s2.opAge }
    (s2.modRed m (fun r => { r with dirty := src.red.dirty, echoLog := src.red.echoLog, echoPos := 0, snap := some y })).startRoll
      { m with red := { m.red with snap := some y } }

/-- The part of a minority that takes its trap: the one that stood at the release point. -/
def Snapshot.trapPart (x : Snapshot) (m : Voter) : Nat :=
  if (look none x.parts m.seat.votePart).isSome then m.seat.votePart else ((x.parts.find? (fun p => p.2.isSome)).map (·.1)).getD m.base

/-- A minority that has been restored takes replica minority (R338): it stands just past the release point. -/
def State.rejoin (s : State) (m : Voter) : State :=
  match m.red.snap with
  | none => s
  | some x =>
    let s1 := (s.rollTo m x).modRed m (fun r =>
      { r with dirty := [], hold := none, released := false, performer := false, behind := false, suspect := false, rolling := false, echoPos := 0 })
    let s2 : State := { s1 with log := { s1.log with minority := s1.log.minority + 1 } }
    let a : Agent := ⟨m.core, m.base, x.trapPart m⟩
    s2.takeTrap a 0x29 (BitVec.ofNat 64 m.red.recordPa) (s2.part a).pc (some 0)

/-! ## The events -/

/-- A replica that has gone past the release point: the minority can take its state. -/
def passedVote (vs : List Voter) : Option Voter := vs.find? (fun v => !v.red.behind && !v.red.released && !v.red.rolling)

/-- What a rollback waits for besides free rows: the rows to which saved images move (R72). -/
def State.rollWait (s : State) (v : Voter) : Option Wait :=
  match v.red.snap with
  | some x => if v.red.rolling then s.spillWait v.core ((s.quad (v.core / 4)).freeRows.take x.mg) else none
  | none => none

/-- What the vote of a task waits for. -/
def State.voteHeld (s : State) (l t : Nat) : Option Wait :=
  let vs := s.voters l t
  (voteWait s vs).orElse (fun _ => (vs.findSome? s.rollWait).orElse (fun _ => if vs.any (fun v => v.red.behind) then viewWait s vs else none))

/-- Every replica of the gang has its seat. -/
def State.allSeated (s : State) (l t : Nat) (vs : List Voter) : Bool := ((s.task? l t).map (fun k => decide (vs.length = k.replicas.length))).getD false

/-- No handler runs in a replica's seat and it is not being saved. -/
def Voter.still (v : Voter) : Bool := v.seat.handler.isNone && v.seat.phase == .issuing

/-- A rollback that has started ends: the replica runs again, or, a minority, takes its trap. -/
def State.endRoll (s : State) (v : Voter) : State := if v.red.behind then s.rejoin v else s.rollAndGo v

/-- VOTE (R337, R338, R340): a rollback whose rows can be granted ends; a minority is re-synchronised once a replica has passed; else every
signature has arrived and the vote is decided. -/
def State.vote (s : State) (l t : Nat) : State :=
  let vs := s.voters l t
  if (s.voteHeld l t).isSome then s
  else
  match vs.find? (fun v => v.red.rolling && v.still && s.rowsFor v) with
  | some v => s.endRoll v
  | none =>
    match vs.find? (fun v => v.red.behind && !v.red.rolling && v.still) with
    | some m => match passedVote vs with | some p => s.resync p m | none => s
    | none => if vs.all (fun v => v.red.hold.isSome && !v.red.behind) && s.allSeated l t vs then s.decideVote l t vs false else s

def execVote (launch task : Nat) (s : State) : Host.Outcome State Fault Refusal := .next (s.vote launch task)

/-- A part waits for a page that moves. -/
def Part.pageWaits (p : Part) : Bool := match p.wait with | some (.moving _) => true | _ => false

/-- A replica whose vote clock runs: it is in no handler, waits for no page and is not being saved (R336). -/
def Voter.clocked (v : Voter) : Bool :=
  v.seat.handler.isNone && v.seat.phase == .issuing && !(v.seat.partList.any Part.pageWaits) && !v.red.released && !v.red.behind && !v.red.rolling

/-- VOTE_TIMEOUT (R336). -/
def execVoteTimeout (launch task : Nat) (s : State) : Host.Outcome State Fault Refusal :=
  let vs := s.voters launch task
  .next (if vs.any (fun v => v.red.hold.isSome) && vs.any (fun v => v.red.hold.isNone) && vs.all (fun v => v.red.hold.isSome || v.clocked) &&
      s.allSeated launch task vs && (s.voteHeld launch task).isNone
    then s.decideVote launch task vs true else s)

end Sys2Proof.Machine
end

