-- ==== Sys2Proof/Machine/Refresh.lean ====
section
/-! DEFINITION. Sys2Proof/Machine/Refresh.lean: the ends of pane transitions (R67), claim evictions (R73), refresh (R79-R84), vertical-bond
repair (R352), the end of a translation walk (R289). -/

namespace Sys2Proof.Machine

/-! ## Pane transitions (R67) -/

/-- A pane that is in a given transition reaches the state it ends in, and shows the image it then holds (R169, R175). -/
def State.endTransition (s : State) (core bank sg : Nat) (st : PaneState) : State :=
  let p := s.pane core bank sg
  if p.st == st && !p.park then
    s.setPane core bank sg (if p.after == .closed then Pane.empty else { p with st := p.after, img := p.final, next := none })
  else s

/-- OPENING_END (R67). -/
def execOpeningEnd (core bank sg : Nat) (s : State) : Host.Outcome State Fault Refusal := .next (s.endTransition core bank sg .opening)

/-- WRITING_END (R67). -/
def execWritingEnd (core bank sg : Nat) (s : State) : Host.Outcome State Fault Refusal := .next (s.endTransition core bank sg .writing)

/-- CLOSING_END (R67); the sg of a parked pane is free again (R174). -/
def execClosingEnd (core bank sg : Nat) (s : State) : Host.Outcome State Fault Refusal :=
  let p := s.pane core bank sg
  .next (if p.park then (if p.busy then s.setPane core bank sg { p with busy := false } else s) else s.endTransition core bank sg .closing)

/-! ## Claim eviction (R73) -/

/-- An access waits on a claimed sg. -/
def State.claimWaited (s : State) (core bank sg : Nat) : Bool := s.waits.arrivals.any (fun x => x.1 == (core, bank, sg))

/-- CLAIM_EVICTION (R73): the accesses that waited are served; a row command that can begin does so first (R178). -/
def execClaimEviction (core bank sg : Nat) (s : State) : Host.Outcome State Fault Refusal :=
  .next (if s.claimWaited core bank sg then s.evictNext core bank sg else s)

/-! ## Refresh (R79-R84) -/

/-- The sg of a bank is in a transition. -/
def Pane.moving (p : Pane) : Bool := p.st == .opening || p.st == .writing || p.st == .closing || p.busy

/-- The forced refresh of an sg (R82): an open pane goes to slot 5 and comes back; the debt is paid; it counts. -/
def State.forceRefresh (s : State) (core bank sg : Nat) : State :=
  s.modBank core bank (fun b =>
    let b1 := if (b.pane sg).isOpen && !(b.pane sg).park then b.shutImage sg 5 else b
    { b1.setDebt sg 0 with forced := b1.forced + 1 })

/-- The core's DRAM refreshes itself: NAP, or the part is SHUTTERED (R83). -/
def State.selfRefresh (s : State) (core : Nat) : Bool := (s.core core).power == .nap || decide (6 ≤ s.power.depth)

/-- Debts come due to the thread: its core neither refreshes itself nor is in DOZE (R83). -/
def State.owes (s : State) (core : Nat) : Bool := !s.selfRefresh core && (s.core core).power != .doze

/-- One tick of an sg (R79). A bank without an owner, or in DOZE, has it paid at once, with what the sg still owed (R83, R84; log 56); a thread
without a handler is refreshed by force at 8 (R81). -/
def State.refreshTick (s : State) (core bank sg : Nat) : State :=
  if s.selfRefresh core then s
  else
    match s.seatOfBank core bank with
    | none => s.modBank core bank (fun b => b.setDebt sg 0)
    | some p =>
      if (s.core core).power == .doze then s.modBank core bank (fun b => b.setDebt sg 0)
      else
        let s1 := s.modBank core bank (fun b => b.setDebt sg (min 15 (b.debtOf sg + 1)))
        if p.2.tvec = 0 && decide (8 ≤ (s1.bank core bank).debtOf sg) && !(s1.pane core bank sg).moving then s1.forceRefresh core bank sg else s1

/-- REFRESH_TICK (R79). -/
def execRefreshTick (core bank sg : Nat) (s : State) : Host.Outcome State Fault Refusal :=
  .next (if core < 1536 ∧ bank < 16 ∧ sg < 12 then s.refreshTick core bank sg else s)

/-- FORCED_REFRESH (R82). -/
def execForcedRefresh (core bank sg : Nat) (s : State) : Host.Outcome State Fault Refusal :=
  .next (if (s.seatOfBank core bank).isSome && s.owes core && decide (8 ≤ (s.bank core bank).debtOf sg) && !(s.pane core bank sg).moving then
    s.forceRefresh core bank sg else s)

/-- The lowest bank and sg of a part whose debt has reached 8 (R81). -/
def State.overdue (s : State) (core : Nat) (p : Part) : Option (Nat × Nat) :=
  if !s.owes core then none
  else ((banksOf p.active).flatMap (fun b => (List.range 12).map (fun n => (b, n)))).find? (fun x => decide (8 ≤ (s.bank core x.1).debtOf x.2))

/-- A refresh-deadline trap may be taken by a part: it has a handler, and neither HOLD nor LVL holds it (R81, R345). -/
def deadlineOpen (t : Seat) : Bool := !t.isCC && t.tvec != 0 && !t.status.hold && !t.status.lvl && t.handler.isNone && t.phase == .issuing

/-- Take the deadline trap of a part at a boundary. -/
def State.deadline (s : State) (a : Agent) (x : Nat × Nat) : State := (s.modPart a Part.stopped).takeTrap a 0x18 (paneTval x.2 x.1) (s.part a).pc none

/-- A row command of a part has begun in some bank and is not complete in every active bank: nothing asynchronous is taken before it is (R167). -/
def State.rowsBegun (s : State) (a : Agent) : Bool :=
  let p := s.part a
  p.rowBegun || rowsMoving { s with focus := a } (banksOf p.active)

/-- The deadline of a part that is due and may be taken. -/
def State.deadlineDue (s : State) (a : Agent) : Option (Nat × Nat) := if deadlineOpen (s.seat a) then s.overdue a.core (s.part a) else none

/-- What is asynchronous stops a part at an element boundary, unless a trap of its own comes first (R345, R347). -/
def State.interrupt (s : State) (a : Agent) (stop : Nat) (take : State → State) : State :=
  s.asAgent a (fun s =>
    match s.ownTrap with
    | some s1 => s1
    | none =>
      let r := s.toBoundary stop
      if r.2 then take r.1 else r.1)

/-- REFRESH_DEADLINE_TRAP (R81): not while the part shuts down or resumes, when every thread stands still (R409, R410). -/
def execRefreshDeadlineTrap (core bank stop : Nat) (s : State) : Host.Outcome State Fault Refusal :=
  .next (match s.agentOfBank core bank with
    | none => s
    | some a =>
      match s.deadlineDue a with
      | some x => if s.power.phase != 0 || s.rowsBegun a then s else s.interrupt a stop (fun s => s.deadline a x)
      | none => s)

/-- PREEMPTION_TAKE (R346): a deadline that is due at the boundary comes before it (R345); none is taken while the part shuts down or resumes. -/
def execPreemptionTake (core bank stop : Nat) (s : State) : Host.Outcome State Fault Refusal :=
  .next (match s.agentOfBank core bank with
    | none => s
    | some a =>
      let t := s.seat a
      if s.power.phase != 0 || t.isCC || !t.preempt || t.phase != .issuing || preemptHeld t (s.part a) || s.rowsBegun a then s
      else
        match s.deadlineDue a with
        | some x => s.interrupt a stop (fun s => s.deadline a x)
        | none => s.interrupt a stop (fun s => s.preempt a))

/-- TEMP_SENSOR_UPDATE (R79). -/
def execTempSensorUpdate (core bank : Nat) (hot : Bool) (s : State) : Host.Outcome State Fault Refusal :=
  .next (if core < 1536 ∧ bank < 16 then s.modBank core bank (fun b => { b with hot := hot }) else s)

/-! ## Vertical-bond repair (R352) -/

/-- BOND_REPAIR (R352): no value changes; it counts and is recorded. -/
def execBondRepair (core : Nat) (s : State) : Host.Outcome State Fault Refusal :=
  .next (if core < 1536 then
    (s.modCore core (fun c => { c with bondrep := c.bondrep + 1 })).logError 0x05 1 planeData (locOf core 0 0) 0 0 0 else s)

/-! ## Translation walks (R289) -/

/-- A translation-cache entry of a walk. -/
def tlbOf (c : Ctx) (va : Nat) (r : Word × Bool) : TlbEntry :=
  let z := if r.2 then 2 ^ 25 else 2 ^ 16
  ⟨ptbrAsid c.ptbr, va / z * z, r.2, r.1⟩

/-- Fill the cache of a core's quad from a walk; a failed one leaves no entry. Its 4,096 entries leave by replacement. -/
def State.fillTlb (s : State) (c : Ctx) (va : Nat) : State :=
  match walkFrom s va 4 0 (ptbrRoot c.ptbr) with
  | .ok r => s.modQuad (tlbQuad c.core) (fun q => { q with tlb := ((tlbOf c va r) :: q.tlb.filter (fun e => e != tlbOf c va r)).take 4096 })
  | _ => s

/-- TRANSLATION_WALK_END (R289). An address that no table translates has no walk (R288, R373). -/
def execTranslationWalkEnd (core bank : Nat) (va : BitVec 64) (s : State) : Host.Outcome State Fault Refusal :=
  .next (match s.agentOfBank core bank with
    | none => s
    | some a =>
      let c := ctxOf s a
      let v := va.toNat
      if 2 ^ 56 ≤ v || windowBase ≤ v || (directBase ≤ v && v < directBase + 2 ^ 48) || (c.isCC && !c.ptbr.getLsbD 0) then s else s.fillTlb c v)

end Sys2Proof.Machine
end

