-- ==== Sys2Proof/Machine/Migrate.lean ====
section
/-! DEFINITION. Sys2Proof/Machine/Migrate.lean: mode changes of cluster SRAM banks (R291, R292) and page migration (R295, R296). -/

namespace Sys2Proof.Machine

/-! ## Cluster SRAM (R291, R292) -/

/-- Nothing of an SRAM bank stays taken ahead. -/
def State.dropBank (s : State) (q b : Nat) : State := s.dropAhead (fun x => x.meets (sramPa q b) 0x40000)

/-- A write of MODE (R292): 3 and the mode itself change nothing; a change into or out of CACHE leaves undefined bytes (log 5). -/
def State.sramMode (s : State) (q b : Nat) (mode : BitVec 2) : State :=
  let x := s.sram q b
  if mode = 3 || mode = x.mode || x.busy then s
  else if mode = 0 || x.mode = 0 then
    let f := s.freeBytes
    (f.2.dropBank q b).setSram q b { SramBank.empty with mode := mode, busy := true, holder := x.holder, undef := f.1 }
  else (s.dropBank q b).setSram q b { x with mode := mode, busy := true }

/-- SRAM_MODE_WRITE (R292). -/
def execSramModeWrite (quad bank : Nat) (mode : BitVec 2) (s : State) : Host.Outcome State Fault Refusal := .next (s.sramMode quad bank mode)

/-- CLR empties a FIFO (R291). -/
def State.sramClear (s : State) (q b : Nat) : State :=
  let x := s.sram q b
  if x.mode = 2 then s.setSram q b { x with head := 0, tail := 0, count := 0 } else s

/-- SRAM_FIFO_CLR (R291). -/
def execSramFifoClr (quad bank : Nat) (s : State) : Host.Outcome State Fault Refusal := .next (s.sramClear quad bank)

/-- SRAM_MODE_CHANGE_END (R292): BUSY clears. -/
def execSramModeChangeEnd (quad bank : Nat) (s : State) : Host.Outcome State Fault Refusal :=
  .next (if (s.sram quad bank).busy then s.setSram quad bank { s.sram quad bank with busy := false } else s)

/-! ## Migration (R295, R296) -/

/-- Queue a request. -/
def State.queueMig (s : State) (sill : Nat) (r : MigReq) : State :=
  let m := s.mig sill
  if m.queue.length < 64 then s.setMig sill { m with queue := m.queue ++ [r] } else s

/-- A write of MIGREQ takes MIGTGT with it. -/
def State.migrate (s : State) (sill : Nat) (demote : Bool) (pte : Word) : State :=
  s.queueMig sill ⟨demote, pte &&& 0x0000FFFFFFFFFFF8, (s.mig sill).tgt.toNat, false⟩

/-- MIGREQ_PROMOTE (R296). -/
def execMigreqPromote (sill : Nat) (pte : BitVec 64) (s : State) : Host.Outcome State Fault Refusal := .next (s.migrate sill false pte)

/-- MIGREQ_DEMOTE (R296). -/
def execMigreqDemote (sill : Nat) (pte : BitVec 64) (s : State) : Host.Outcome State Fault Refusal := .next (s.migrate sill true pte)

/-- A capacity-tier frame that may hold a page (R284). -/
def isFrame (pa : Nat) : Bool := regionOf pa == .cap && !isRetention pa

/-- A row stripe of stacked DRAM. -/
def isStripe (pa : Nat) : Bool := regionOf pa == .dram

/-- A pane of some bank is bound to a row of a page. -/
def State.boundPage (s : State) (pa : Nat) : Bool :=
  regionOf pa == .dram &&
    (List.range 16).any (fun b =>
      let p := s.pane (dramCore pa) b (dramSg pa)
      let i := if p.park then (((s.bank (dramCore pa) b).slot (dramSg pa) 5).img).getD p.img else p.final
      (p.park || p.st != .closed) && i.bnd && i.pa / 2 ^ 16 == pa / 2 ^ 16)

/-! ### Which address an entry serves (R287; log 91) -/

/-- The roots in use: those of launches, and of control cores that translate. -/
def State.roots (s : State) : List Nat :=
  s.launches.filterMap (fun l => l.2.map (fun x => ptbrRoot x.ptbr)) ++
    s.cores.flatMap (fun c => c.2.seats.filterMap (fun t => t.2.bind (fun x => if x.isCC && x.ptbr.getLsbD 0 then some (ptbrRoot x.ptbr) else none)))

/-- The tables that a table's pointers lead to, each with the index bits above it. -/
def ptBelow (s : State) (entries : Nat) (t : Nat × Nat) : List (Nat × Nat) :=
  (List.range entries).filterMap (fun i =>
    let e : Word := BitVec.ofNat 64 (s.peek (t.1 + 8 * i) 8)
    if pteV e && !pteLeaf e && !pteRes0 e then some (pteNext e, t.2 * 512 + i) else none)

/-- The tables of level 2 and of level 3 under the roots in use. -/
def State.bigTables (s : State) : List (Nat × Nat) := ((s.roots.map (fun r => (r, 0))).flatMap (ptBelow s 8192)).flatMap (ptBelow s 512)
def State.leafTables (s : State) : List (Nat × Nat) := s.bigTables.flatMap (ptBelow s 512)

/-- An entry that maps 32 MiB. -/
def State.bigEntry (s : State) (pte : Nat) : Bool := s.bigTables.any (fun t => t.1 == pte / 4096 * 4096)

/-- An entry of a page whose VA [27:24] is 12 to 15. -/
def State.outerEntry (s : State) (pte : Nat) : Bool :=
  s.leafTables.any (fun t => t.1 == pte / 4096 * 4096 && decide (12 ≤ (t.2 * 512 + pte % 4096 / 8) / 256 % 16))

/-- The outcome of steps 1 and 2 of R296: 0 goes on, 1 target invalid, 2 page bound, 3 wrong sg. -/
def State.migCheck (s : State) (r : MigReq) : BitVec 8 :=
  let e : Word := BitVec.ofNat 64 (s.peek r.pte.toNat 8)
  let src := ptePpn e
  if !pteV e || !pteLeaf e || ptePeer e != 0 || pteMv e then 1
  else if !(if r.demote then isFrame r.frame && isStripe src else isStripe r.frame && isFrame src) then 1
  else if !r.demote && s.bigEntry r.pte.toNat then 1
  else if src / 2 ^ 24 % 16 ≠ r.frame / 2 ^ 24 % 16 || (!r.demote && s.outerEntry r.pte.toNat) then 3
  else if s.boundPage src || s.boundPage r.frame then 2
  else 0

/-- The bit of a place: a stripe's, or a frame's after them (R295). -/
def placeBit (pa : Nat) : Nat := if isStripe pa then stripeBit pa else 1536 * 12 * 256 + (pa - 0x10000000000) / 2 ^ 16

/-- The page that an entry maps. -/
def migSource (s : State) (pte : Word) : Nat := ptePpn (BitVec.ofNat 64 (s.peek pte.toNat 8))

/-- What a migrator's next step waits for: the row of the entry, and for the copy those of both places (R72). -/
def migWait (s : State) (sill : Nat) : Option Wait :=
  match (s.mig sill).cur, (s.mig sill).queue with
  | some r, _ => ((heldAt s r.pte.toNat).orElse (fun _ => pageWait s (migSource s r.pte))).orElse (fun _ => pageWait s r.frame)
  | none, r :: _ => heldAt s r.pte.toNat
  | none, [] => none

/-- MIGRATION_START (R296 steps 1-3): the checks; the entry is marked moving and its translations go. -/
def State.migStart (s : State) (sill : Nat) : State :=
  let m := s.mig sill
  if (migWait s sill).isSome then s
  else
  match m.cur, m.queue with
  | none, r :: rest =>
    let o := s.migCheck r
    if o = 0 then
      let e : Word := BitVec.ofNat 64 (s.peek r.pte.toNat 8)
      let s1 := s.poke none r.pte.toNat (e ||| 1 <<< 48).toNat 8
      (s1.dropTlb (fun x => !x.big && ptePpn x.leaf == ptePpn e)).setMig sill { m with queue := rest, cur := some r }
    else
      let s1 := s.setMig sill { m with queue := rest, last := o }
      if r.auto then s1.setPlace sill (placeBit r.frame) true else s1
  | _, _ => s

def execMigrationStart (sill : Nat) (s : State) : Host.Outcome State Fault Refusal := .next (s.migStart sill)

/-- The entry rewritten to a new place. -/
def movedPte (e : Word) (frame : Nat) : Word := (e &&& 0xFFFE00000000FFFF) ||| BitVec.ofNat 64 (frame / 2 ^ 16 * 2 ^ 16)

/-- The pages of a view whose home has moved. -/
def Seat.moveHome (t : Seat) (old new : Nat) : Seat :=
  { t with red := t.red.map (fun r => { r with view := r.view.map (fun v => if v.role != 4 && v.home == old then { v with home := new } else v) }) }

/-- Every view of a replica, seated or saved, follows a page to its new place (R304, R312). -/
def State.moveHomes (s : State) (old new : Nat) : State :=
  { s with
    ahead := []
    cores := s.cores.map (fun c => (c.1, { c.2 with seats := c.2.seats.map (fun t => (t.1, t.2.map (fun x => x.moveHome old new))) }))
    launches := s.launches.map (fun l => (l.1, l.2.map (fun x => { x with
      tasks := x.tasks.map (fun t => (t.1, t.2.map (fun k => { k with ctx := k.ctx.map (fun c => { c with seat := c.seat.moveHome old new }) }))) }))) }

/-- MIGRATION_FINISH (R296 steps 4-7), once no pane claims a row of either place. -/
def State.migFinish (s : State) (sill : Nat) : State :=
  let m := s.mig sill
  if (migWait s sill).isSome then s
  else
  match m.cur with
  | none => s
  | some r =>
    let e : Word := BitVec.ofNat 64 (s.peek r.pte.toNat 8)
    let src := ptePpn e
    let s1 := (s.copyMem r.frame src 65536).moveHomes src (r.frame / 2 ^ 16 * 2 ^ 16)
    let s2 := { s1 with linked := s1.linked.filter (fun l => !overlaps l.pa l.size src 65536) }
    let s3 := s2.poke none r.pte.toNat (movedPte e r.frame).toNat 8
    let s4 := (if r.auto then s3.setPlace sill (placeBit src) true else s3).setMig sill { m with cur := none, last := 0 }
    s4.bumpEvent m.evt.toNat

def execMigrationFinish (sill : Nat) (s : State) : Host.Outcome State Fault Refusal := .next (s.migFinish sill)

/-- A page is hot: it has had HOT accesses within the window that runs. It is idle: it has had none for IDLE (R295; log 90). -/
def Migrator.isHot (m : Migrator) (ns pa : Nat) : Bool := (m.heatOf pa).win == ns / m.winNs && decide (max 1 m.hot ≤ (m.heatOf pa).hits)
def Migrator.isIdle (m : Migrator) (ns pa : Nat) : Bool := decide ((m.heatOf pa).last + m.idleNs ≤ ns)

/-- MIGRATION_AUTO_SELECT (R295): under AUTO the migrator promotes a hot page or demotes an idle one, and takes a free place for it. Which of
them, and which place, is the agenda's choice (log 1); a demotion never picks a bound page (R297). -/
def execMigrationAutoSelect (sill : Nat) (demote : Bool) (pte frame : BitVec 64) (s : State) : Host.Outcome State Fault Refusal :=
  let m := s.mig sill
  let e : Word := BitVec.ofNat 64 (s.peek (pte &&& 0x0000FFFFFFFFFFF8).toNat 8)
  let f := frame.toNat % 2 ^ 48 / 2 ^ 16 * 2 ^ 16
  .next (if m.auto && (if demote then m.isIdle s.ns (ptePpn e) else m.isHot s.ns (ptePpn e)) && (isStripe f || isFrame f) && s.placeFree sill (placeBit f) && decide (m.queue.length < 64) &&
      !(demote && s.boundPage (ptePpn e)) then
    (s.setPlace sill (placeBit f) false).queueMig sill ⟨demote, pte &&& 0x0000FFFFFFFFFFF8, f, true⟩ else s)

end Sys2Proof.Machine
end

