-- ==== Sys2Proof/Machine/Links.lean ====
section
/-! DEFINITION. Sys2Proof/Machine/Links.lean: the link layer's steps (R383-R399, R412-R414, R428): flits out and in, replays, width
changes and parking, training, timeouts, queue telemetry. What a flit carries out of the part is no state of the part. -/

namespace Sys2Proof.Machine

/-- The external links and the sub-links of the ten of each stack pair. -/
def isLink (l : Nat) : Bool := decide (l < 128) || (decide (1024 ≤ l) && decide ((l - 1024) % 16 < 10) && decide ((l - 1024) / 128 < (l - 1024) / 16 % 8) && decide ((l - 1024) / 16 < 64))

/-! ## Groups (R389) -/

/-- The width of a code of R384. -/
def widthOf (code : BitVec 2) : Nat := 16 / 2 ^ code.toNat

/-- Both strands of wavelengths (R383): strand s carries wavelength s div 2. -/
def strandsOf (waves : BitVec 8) : BitVec 16 :=
  (List.range 16).foldl (fun x k => if waves.getLsbD (k / 2) then x ||| (1 <<< k) else x) 0

/-- The strands b to b + w - 1. -/
def groupMask (w b : Nat) : BitVec 16 := (BitVec.ofNat 16 (2 ^ w - 1)) <<< b

/-- The largest aligned group that avoids some strands, the lowest of its width. -/
def bestGroup (bad : BitVec 16) (maxw : BitVec 2) : Option (Nat × Nat) :=
  (([16, 8, 4, 2].filter (fun w => decide (w ≤ widthOf maxw))).flatMap (fun w => (List.range (16 / w)).map (fun i => (w, i * w)))).find?
    (fun g => groupMask g.1 g.2 &&& bad == 0)

/-- Wavelengths parked by LNKCTL.PARK or by NAP (R406). -/
def Link.parked (x : Link) : BitVec 8 := x.park ||| (if x.napPark then 0xFE else 0)

/-- The strands that the transmit group must avoid (R389): dead or parked. -/
def Link.barred (x : Link) : BitVec 16 := x.txdead ||| strandsOf x.parked

/-- The strands that it cannot take now: those, and the ones dark or still waking. -/
def Link.unusable (x : Link) : BitVec 16 := x.barred ||| strandsOf (x.dark ||| x.waking)

/-- The group that the transmit direction moves to: the one asked for where it can be taken, else that of R389 among the strands that are awake,
else, until a wake ends, the one in use (R390). None: no group of 2 qualifies. -/
def Link.aim (x : Link) (asked : Option (Nat × Nat)) : Option (Nat × Nat) :=
  if (bestGroup x.barred 0).isNone then none
  else
    match asked.filter (fun (g : Nat × Nat) => decide (g.1 ≤ widthOf x.maxw) && groupMask g.1 g.2 &&& x.unusable == 0) with
    | some g => some g
    | none => some ((bestGroup x.unusable x.maxw).getD (x.w, x.b))

/-- Announce the group that a direction moves to; without one the direction fails. -/
def State.announce (s : State) (l : Nat) (asked : Option (Nat × Nat)) : State :=
  let x := s.link l
  match x.aim asked with
  | none => s.failLink l
  | some g => if g = (x.w, x.b) then s.setLink l { x with ann := none, redo := false } else s.setLink l { x with ann := some g }

/-- The group follows what is parked, dark and waking (R389, R390). -/
def State.regroup (s : State) (l : Nat) : State := if (s.link l).st == .up then s.announce l none else s

/-- Wavelengths that wake no longer; a wake without any ends with them. -/
def Link.unwake (x : Link) (m : BitVec 8) : Link :=
  { x with waking := x.waking &&& ~~~m, wakes := (x.wakes.map (fun k => k &&& ~~~m)).filter (fun k => k != 0) }

/-! ## Replay (R388, R399) -/

/-- Start a replay from the oldest held packet. -/
def Link.replay (x : Link) : Link :=
  if x.buf.isEmpty then x else { x with pos := 0, flit := 0, holdoff := some x.acked }.count 5 1

/-! ## Flits (R384, R385) -/

/-- One bit of the CRC-32 of IEEE 802.3, reflected. -/
def crcStep (c : BitVec 32) (b : Bool) : BitVec 32 := (c >>> 1) ^^^ (if c.getLsbD 0 != b then 0xEDB88320 else 0)

/-- The CRC of bytes 0 to 251, as the Ethernet FCS is computed (log 59). -/
def crc32 (x : BitVec 2016) : BitVec 32 := ~~~ ((List.range 2016).foldl (fun c i => crcStep c (x.getLsbD i)) (BitVec.allOnes 32))

/-- The fields of a flit. -/
structure FlitFields where
  kind : BitVec 4
  nf : BitVec 4
  nw : BitVec 2
  nb : BitVec 4
  rq : Bool
  seq : BitVec 16
  ack : BitVec 16
  crd : BitVec 16
  wreqW : BitVec 2
  wreqB : BitVec 4
  payload : BitVec 1920
deriving DecidableEq, Repr

/-- Bytes 0 to 251. -/
def FlitFields.body (f : FlitFields) : BitVec 2016 :=
  f.payload ++ (f.wreqB ++ f.wreqW : BitVec 6).setWidth 32 ++ f.crd ++ f.ack ++ f.seq ++ (0#1 ++ BitVec.ofBool f.rq ++ f.nb ++ f.nw ++ f.nf ++ f.kind)

/-- The 256 bytes, byte 0 lowest. -/
def FlitFields.bits (f : FlitFields) : BitVec 2048 := crc32 f.body ++ f.body

def flitFields (x : BitVec 2048) : FlitFields :=
  { kind := x.extractLsb' 0 4, nf := x.extractLsb' 4 4, nw := x.extractLsb' 8 2, nb := x.extractLsb' 10 4, rq := x.getLsbD 14, seq := x.extractLsb' 16 16
    ack := x.extractLsb' 32 16, crd := x.extractLsb' 48 16, wreqW := x.extractLsb' 64 2, wreqB := x.extractLsb' 66 4, payload := x.extractLsb' 96 1920 }

/-- What must be zero is zero: bit 15, WREQ above its fields, and, by KIND, NF, SEQ and WREQ. -/
def reservedZero (x : BitVec 2048) : Bool :=
  let f := flitFields x
  let control := f.kind == 3
  !x.getLsbD 15 && x.extractLsb' 70 26 == 0 && (control || x.extractLsb' 64 6 == 0) && (!(f.kind == 0 || control) || (f.nf == 0 && f.seq == 0))

/-- A flit whose bytes are damaged (R384): a bad CRC, a reserved KIND, a reserved field that is not zero, an NB that is no multiple of its width. -/
def spoiled (x : BitVec 2048) : Bool :=
  let f := flitFields x
  crc32 (x.setWidth 2016) != x.extractLsb' 2016 32 || decide (3 < f.kind.toNat) || !reservedZero x || f.nb.toNat % widthOf f.nw != 0

/-- The strand on which unit u of a flit travels (R385). -/
def unitStrand (w b u : Nat) : Nat := b + u % w

/-- A unit of the flit met noise. -/
def noisyFlit (f : Flit) : Bool := (List.range 16).any (fun u => f.noise.getLsbD (unitStrand f.w f.b u))

/-- The receiver decodes a flit that arrives (R389, R398): at the group that it receives at, or that training has agreed; never on a strand that it has
declared dead. Whether it has deskewed on a group that no flit announced to it is a free choice (log 59). -/
def Link.decodes (x : Link) (f : Flit) (deskewed : Bool) : Bool :=
  (x.rxw == f.w && x.rxb == f.b) || ((x.rxw == 0 || deskewed) && groupMask f.w f.b &&& x.rxdead == 0)

/-! ## Sending (R384-R386) -/

/-- Little-endian bytes as a payload, zeros above them. -/
def payloadOf (bs : List Byte) : BitVec 1920 := BitVec.ofNat 1920 (numberOf bs)

/-- What a packet carries: its header, then its data (R386). -/
def Packet.content (p : Packet) : List Byte := (List.range 32).map (Config.packetHeader p.op p.seq p.dst p.bytes.length) ++ p.bytes

/-- A flit that a link sends: the group of the next one, the request for replay, ACK and CRD that every flit carries (R384, R387); `room`: the packets
that it can still accept. -/
def Link.flitOf (x : Link) (room : Nat) (kind nf : BitVec 4) (seq : BitVec 16) (wreq : Option (Nat × Nat)) (payload : BitVec 1920) : FlitFields :=
  let g := x.ann.getD (x.w, x.b)
  { kind := kind, nf := nf, nw := BitVec.ofNat 2 (codeOf g.1), nb := BitVec.ofNat 4 g.2, rq := x.rq != 0, seq := seq, ack := x.ackOut
    crd := BitVec.ofNat 16 room, wreqW := BitVec.ofNat 2 ((wreq.map (fun q => codeOf q.1)).getD 0), wreqB := BitVec.ofNat 4 ((wreq.map (·.2)).getD 0)
    payload := payload }

/-- The packets that a link has accepted and that wait for their engine. -/
def State.unserved (s : State) (l : Nat) : Nat := (s.rxq.filter (fun p => p.1 == l)).length

/-- How many more packets a link can accept: 512, less those that wait (log 59). -/
def State.creditOf (s : State) (l : Nat) : Nat := 512 - s.unserved l

/-- The announced group comes into use at a flit boundary: WIDCHG, LNKEVT, and a replay after a strand death (R389, R390). -/
def State.switchGroup (s : State) (l : Nat) : State :=
  let x := s.link l
  match x.ann with
  | none => s
  | some g =>
    let y := ({ x with w := g.1, b := g.2, ann := none }).count 8 1
    (s.putLink l (if x.redo then { y.replay with redo := false } else y)).linkEvent l

/-- A packet's flit may be sent now: one in progress goes on, a new one needs credit (R386). -/
def Link.canSend (x : Link) : Option Packet :=
  match x.buf[x.pos]? with
  | some p => if x.flit = 0 && x.crd = 0 then none else some p
  | none => none

/-- The next flit: a control flit that asks for a group and gives RXDEAD (R398), a flit of a packet, or an idle one. -/
def Link.sendOne (x : Link) (room : Nat) : Link :=
  let y := ({ x with rq := x.rq - 1 }).count 0 1
  if y.wreq.isSome && y.flit = 0 then
    { y with wreq := none, out := some (x.flitOf room 3 0 0 x.wreq (payloadOf [x.rxdead.setWidth 8, (x.rxdead >>> 8).setWidth 8])).bits }
  else
    match y.canSend with
    | none => { y with out := some (x.flitOf room 0 0 0 none 0).bits }
    | some p =>
      let again := y.flit = 0 && decide (y.pos < y.maxSent)
      let z := if again then y.count 6 1 else y
      let f := x.flitOf room (if x.flit = 0 then 1 else 2) (BitVec.ofNat 4 (if x.flit = 0 then p.flits else x.flit)) p.seq none
        (payloadOf ((p.content.drop (240 * x.flit)).take 240))
      let z1 := { z with maxSent := max z.maxSent (z.pos + 1), out := some f.bits }
      if z1.flit + 1 < p.flits then { z1 with flit := z1.flit + 1 } else { z1 with flit := 0, pos := z1.pos + 1 }

/-- FLIT_TRANSMIT (R385). -/
def execFlitTransmit (link : Nat) (s : State) : Host.Outcome State Fault Refusal :=
  .next (if (s.link link).st == .up then ((s.putLink link ((s.link link).sendOne (s.creditOf link))).switchGroup link) else s)

/-! ## Receiving (R387) -/

/-- Clearing EN takes effect when no packet is held. -/
def State.settleDown (s : State) (l : Nat) : State :=
  let x := s.link l
  if x.dropping && x.buf.isEmpty && x.st == .up then ((s.putLink l { x with st := .down, dropping := false, halted := false, retest := false }).linkEvent l).judgePeers l else s

/-- A damaged flit: counted, its packet is lost, a replay is asked for. -/
def Link.damagedFlit (x : Link) : Link := ({ x with rq := x.rq + 1, skipping := true, rx := [], rxSeq := none }).count 2 1

/-- A whole packet is handed to its engine (R386): its header's layout is the engines' own. One between stacks has performed already (log 99). -/
def State.acceptPacket (s : State) (l : Nat) (payloads : List (BitVec 1920)) : State :=
  let x := s.link l
  let y := { x with exp := x.exp + 1, rx := [], rxSeq := none, skipping := false }
  if l < 1024 then { s.setLink l y with rxq := s.rxq ++ [(l, payloads)] } else s.setLink l { y with ackOut := x.exp }

/-- Data byte i of a packet (R384, R386): 32 bytes of header first. -/
def packetByte (ps : List (BitVec 1920)) (i : Nat) : Byte := (ps.getD ((i + 32) / 240) 0).extractLsb' (8 * ((i + 32) % 240)) 8

/-- A peer's data may be written to n bytes here: this module's own map applies (R290). -/
def State.mayReceive (s : State) (pa n : Nat) : Bool :=
  decide (n ≤ 2048) && (List.range n).all (fun k =>
    let a := pa + k
    match regionOf a with
    | .dram => true
    | .cap => !isRetention a
    | .sram => (s.sram (sramQuad a) (sramBankNo a)).mode == 1
    | _ => false)

/-- One write of a packet (R397); a granule covered whole is clean (R350). -/
def State.receive (s : State) (ps : List (BitVec 1920)) (w : Nat × Nat × Nat) : State :=
  if s.mayReceive w.1 w.2.2 then
    let s1 := (List.range w.2.2).foldl (fun x k => x.poke none (w.1 + k) (packetByte ps (w.2.1 + k)).toNat 1) s
    (List.range (w.2.2 / 64 + 1)).foldl (fun x k =>
      let g := (w.1 + 63) / 64 * 64 + 64 * k
      if g + 64 ≤ w.1 + w.2.2 && x.poisonAt g then x.setPoison g false else x) s1
  else s

/-- The stack of an address sleeps: what comes for it wakes it first (R405). -/
def napWait (s : State) (pa : Nat) : Option Wait := (homeStack pa).bind (fun h => if s.power.nap.getLsbD h then some (.wake (192 * h)) else none)

/-- What the writes of the oldest accepted packet wait for (R72, R292, R405). -/
def packetWait (s : State) : Option Wait :=
  match s.rxq with
  | [] => none
  | p :: _ => (Config.packetWrites p.2).findSome? (fun w =>
      if s.mayReceive w.1 w.2.2 then (napWait s w.1).orElse (fun _ => (heldAt s w.1).orElse (fun _ => heldAt s (w.1 + w.2.2 - 1))) else none)

/-- The receiving engine applies the oldest accepted packet; from then on its link's flits acknowledge it (R397). None while it must wait. -/
def State.servePacket (s : State) : Option State :=
  match s.rxq with
  | [] => none
  | p :: ps =>
    if (packetWait s).isSome then none
    else some (((Config.packetWrites p.2).foldl (fun (x : State) w => x.receive p.2 w) { s with rxq := ps }).modLink p.1 (fun x => { x with ackOut := x.ackOut + 1 }))

/-- A first or continuation flit. -/
def State.takePiece (s : State) (l : Nat) (f : FlitFields) : State :=
  let x := s.link l
  if f.kind = 1 then
    if f.seq ≠ x.exp || f.nf = 0 || 9 < f.nf.toNat then s.setLink l { x with rx := [], rxSeq := none, skipping := true }
    else if f.nf = 1 then s.acceptPacket l [f.payload]
    else s.setLink l { x with rx := [f.payload], rxSeq := some (f.seq, f.nf.toNat), skipping := false }
  else if f.kind = 2 then
    match x.rxSeq with
    | some (q, n) =>
      if x.skipping then s
      else if f.seq = q && f.nf.toNat = x.rx.length then
        if x.rx.length + 1 = n then s.acceptPacket l (x.rx ++ [f.payload]) else s.setLink l { x with rx := x.rx ++ [f.payload] }
      else s.setLink l { x with rx := [], rxSeq := none, skipping := true }
    | none => s
  else s

/-- The wavelengths of some strands. -/
def wavesOf (m : BitVec 16) : BitVec 8 := (List.range 8).foldl (fun (a : BitVec 8) k => if strandsOf (1 <<< k) &&& m != 0 then a ||| (1 <<< k) else a) 0

/-- A control flit asks for a group and gives the receiver's dead strands (R389, R398): a change of group that follows a death brings a replay; without
one only LNKEVT tells of it. The group that answers is the one asked for where the sender can take it (log 98). -/
def State.takeRequest (s : State) (l : Nat) (f : FlitFields) : State :=
  let x := s.link l
  let dead := f.payload.extractLsb' 0 16
  let y := { x.unwake (wavesOf dead) with txdead := dead, redo := x.redo || (dead &&& ~~~x.txdead != 0) }
  if f.wreqB.toNat % widthOf f.wreqW ≠ 0 then s
  else
    let s1 := (s.setLink l y).announce l (some (widthOf f.wreqW, f.wreqB.toNat))
    if (s1.link l).st == .up && (s1.link l).ann.isNone && dead != x.txdead then s1.linkEvent l else s1

/-- One undamaged flit: ACK, CRD, RQ, the group of the next one, then what it carries. -/
def State.takeFlit (s : State) (l : Nat) (f : FlitFields) : State :=
  let s1 := s.takeAck l f.ack
  let s2 := s1.setLink l { s1.link l with crd := f.crd.toNat, rxw := widthOf f.nw, rxb := f.nb.toNat }
  let s3 := if f.rq && (s2.link l).holdoff.isNone then s2.putLink l (s2.link l).replay else s2
  (if f.kind = 3 then s3.takeRequest l f else s3.takePiece l f).settleDown l

/-- FLIT_RECEIVE (R387): a flit that is damaged, met noise or comes at a group that the receiver does not decode is discarded whole (R384, R398). -/
def execFlitReceive (link : Nat) (flit : Flit) (s : State) : Host.Outcome State Fault Refusal :=
  .next (if (s.link link).st == .up then
    let f := s.freeBool
    let s1 := f.2.setLink link ((s.link link).count 1 1)
    (if spoiled flit.bytes || noisyFlit flit || !(s.link link).decodes flit f.1 then s1.setLink link (s1.link link).damagedFlit
     else s1.takeFlit link (flitFields flit.bytes)).sweep
   else s)

/-! ## Timeouts (R388, R391) -/

/-- ACK_TIMEOUT (R388). -/
def execAckTimeout (link : Nat) (s : State) : Host.Outcome State Fault Refusal :=
  let x := s.link link
  .next (if x.st == .up && !x.buf.isEmpty then s.putLink link (x.replay.count 9 1) else s)

/-- LINK_TIMEOUT (R391). -/
def execLinkTimeout (link : Nat) (s : State) : Host.Outcome State Fault Refusal :=
  .next (if (s.link link).st == .up && !(s.link link).buf.isEmpty then (s.failLink link).sweep else s)

/-- STRAND_DEATH (R390): the receiver declares a strand dead, asks for a narrower group and decodes at that group from then on (R398). -/
def execStrandDeath (link strand : Nat) (s : State) : Host.Outcome State Fault Refusal :=
  let x := s.link link
  .next (if x.st != .up || 16 ≤ strand || x.rxdead.getLsbD strand then s
   else
     let dead := x.rxdead ||| (1 <<< strand)
     let g := bestGroup dead x.maxw
     let r := g.getD (x.rxw, x.rxb)
     let y := { x with rxdead := dead, wreq := g, rxw := r.1, rxb := r.2 }
     let s1 := ((s.setLink link (y.count 7 1)).linkEvent link).logError 0x06 1 planeData (BitVec.ofNat 32 link) 0 0 (BitVec.ofNat 64 strand)
     if g.isNone then (s1.failLink link).sweep else s1)

/-! ### What is outstanding to a peer (R391) -/

/-- The peers that hold bytes of a range. -/
def rangePeers (s : State) (o : ChildOp) (va n : Nat) : List Nat :=
  (pagePieces va n).filterMap (fun x => match translate s (opCtx s o) .place x.1 with | .ok p => if p.peer = 0 then none else some p.peer | _ => none)

/-- The peers of an operation's next granule or train, and a collective's members' peers. -/
def nextPeers (s : State) (o : ChildOp) : List Nat :=
  match o.kind with
  | .coll _ _ _ fmt =>
    match o.blk with
    | some b =>
      let n := b.count * (fmtBits (BitVec.ofNat 4 fmt) / 8)
      remotePeers s b ++ rangePeers s o (b.srcs.headD 0).toNat n ++ rangePeers s o b.dst.toNat n
    | none => []
  | .rsct tab src n esz =>
    rangePeers s o tab.toNat (8 * n) ++ rangePeers s o src.toNat (n * 2 ^ esz) ++
      ((((trainOrder (rsctElems s o tab src (2 ^ esz) n 0).1).drop o.progress).head?).map (fun d => d.2.2.peer)).toList.filter (· != 0)
  | k =>
    match k.copyShape with
    | some c => (c.runs 4096 o.sent (min (4096 - o.sent % 4096) (c.total - o.sent))).flatMap (fun r =>
        rangePeers s o (c.srcAt r.1) r.2 ++ rangePeers s o (c.dstAt r.1) r.2)
    | none => []

/-- The peers to which an operation is outstanding: those of its held packets, and those that its next granule waits for. -/
def State.opPeers (s : State) (i : Nat) : List Nat :=
  let h := (s.op i).handle i
  (s.links.flatMap (fun l => l.2.buf.filterMap (fun (q : Packet) => if q.op == h && q.peer != 0 then some q.peer else none)) ++ nextPeers s (s.op i)).eraseDups

/-- The operations outstanding to a peer that has failed end FAULTED. -/
def State.losePeer (s : State) (n : Nat) : State :=
  let is := s.opsWhere (fun o => o.st == .running)
  s.abandon ((is.filter (fun i => (s.opPeers i).contains n)).map (fun i => (s.op i).handle i))

/-- Whether the silence of a member ends an operation (R235, R391): one on this device has never joined (true); none, for one that is paused answers
for it (false); else it is a peer's. -/
def memberSilence (s : State) (o : ChildOp) : Option Bool :=
  match o.kind, o.blk with
  | .coll .., some b =>
    match localMembers s o b with
    | none => some true
    | some ms => if ms.any (fun m => (s.op m.2).st == .paused) then some false else none
  | _, _ => none

/-- PEER_TIMEOUT (R391): the peer has failed; every operation outstanding to it ends FAULTED. Which of several peers has been silent is a free
choice (log 106). -/
def execPeerTimeout (op : Nat) (s : State) : Host.Outcome State Fault Refusal :=
  .next (if (s.op op).live && (s.op op).st == .running then
    match memberSilence s (s.op op), s.opPeers op with
    | some true, _ => (s.abandon [(s.op op).handle op]).sweep
    | some false, _ => s
    | none, [] => s
    | none, ns =>
      let f := s.freeWord
      let n := ns.getD (f.1.toNat % ns.length) 0
      ((f.2.failPeer n).losePeer n).sweep
   else s)

/-! ## Training (R428) -/

/-- A link that a training has brought UP. A fresh one starts the sequence numbers anew; a retrain and a resumption keep them (log 29), a resumption
replays what is held (R410). ACK counts what its engine has yet to apply (R397). -/
def Link.trained (x : Link) (g : Nat × Nat) (unserved : Nat) : Link :=
  let up := { x with
    st := .up, w := g.1, b := g.2, ann := none, rxw := 0, rxb := 0, dark := x.dark &&& x.parked, waking := 0, wakes := [], halted := false, retest := false
    skipping := false, rx := [], rxSeq := none, redo := false }
  if x.halted then
    let y := if g = (x.w, x.b) then up else up.count 8 1
    if x.retest then y else y.replay
  else
    { up with
      next := 0, acked := BitVec.allOnes 16, exp := 0, ackOut := BitVec.allOnes 16 - BitVec.ofNat 16 unserved, buf := [], pos := 0, flit := 0, maxSent := 0
      rq := 0, wreq := none, holdoff := none, crd := 0 }

/-- The end of a training or retrain: UP when a group works each way, else FAILED. What a retrain leaves dead, or cannot bring back, counts for HEALTH
(R422). -/
def State.trainingEnd (s : State) (l : Nat) (answered : Bool) (tx rx : BitVec 16) : State :=
  let x := s.link l
  let y := { x with txdead := tx, rxdead := rx }
  match (if answered && (bestGroup rx x.maxw).isSome then bestGroup y.barred x.maxw else none) with
  | some g =>
    let s1 := (s.putLink l (y.trained g (s.unserved l))).linkEvent l
    (if x.retest && !(tx = 0 && rx = 0) then s1.raiseHealth 1 else s1).settleDown l
  | none =>
    let s1 := ((s.setLink l y).failLink l).modLink l (fun z => { z with retest := x.retest })
    if 3 ≤ ((List.range 128).filter (fun k => (s1.link k).st == .failed && (s1.link k).retest)).length then s1.raiseHealth 2 else s1

/-- LINK_TRAINING_END (R428). -/
def execLinkTrainingEnd (link : Nat) (answered : Bool) (txDead rxDead : BitVec 16) (s : State) : Host.Outcome State Fault Refusal :=
  .next (if (s.link link).st == .training then (s.trainingEnd link answered txDead rxDead).sweep else s)

/-- EN set: a DOWN link trains. -/
def State.enSet (s : State) (l : Nat) : State :=
  let x := s.link l
  if !isLink l then s
  else if x.st == .down then (s.putLink l { x with en := true, dropping := false, halted := false, retest := false, st := .training }).linkEvent l
  else s.setLink l { x with en := true, dropping := false }

/-- LNKCTL_EN_SET (R428). -/
def execLnkctlEnSet (link : Nat) (s : State) : Host.Outcome State Fault Refusal := .next (s.enSet link)

/-- EN cleared: a link goes DOWN once its held packets are settled, one that holds none at once (R394). -/
def State.enClear (s : State) (l : Nat) : State :=
  let x := s.link l
  if x.st == .up then (s.setLink l { x with en := false, dropping := true }).settleDown l
  else if x.st == .down then s.setLink l { x with en := false, halted := false, retest := false }
  else if x.st == .training && !x.buf.isEmpty then s.setLink l { x with en := false, dropping := true }
  else ((s.putLink l { x with en := false, halted := false, retest := false, st := .down }).linkEvent l).judgePeers l

/-- LNKCTL_EN_CLEAR (R394). -/
def execLnkctlEnClear (link : Nat) (s : State) : Host.Outcome State Fault Refusal := .next (s.enClear link)

/-- RETRAIN (R390, R428): an UP link keeps its packets, a FAILED one trains afresh. -/
def State.retrain (s : State) (l : Nat) : State :=
  let x := s.link l
  if x.st == .up then (s.putLink l { x with st := .training, halted := true, retest := true }).linkEvent l
  else if x.st == .failed then (s.putLink l { x with st := .training, halted := false, retest := true }).linkEvent l
  else s

/-- LNKCTL_RETRAIN (R390). -/
def execLnkctlRetrain (link : Nat) (s : State) : Host.Outcome State Fault Refusal := .next (s.retrain link)

/-! ## Parking (R390, R406, R414) -/

/-- The wavelengths of a group's strands. -/
def wavesIn (w b : Nat) : BitVec 8 :=
  (List.range 8).foldl (fun x k => if strandsOf (1 <<< k) &&& groupMask w b != 0 then x ||| (1 <<< k) else x) 0

/-- Set what is parked (R414): waking wavelengths that park stop waking; those no longer parked that are dark, or have left the group,
wake in full, from this write on; the group follows. -/
def State.parkTo (s : State) (l : Nat) (park : BitVec 8) (nap : Bool) : State :=
  let x := s.link l
  let y := { x with park := park, napPark := nap }
  let woken := x.parked &&& ~~~y.parked &&& (x.dark ||| ~~~wavesIn x.w x.b)
  let z := { y.unwake y.parked with dark := x.dark ||| (x.waking &&& y.parked) }
  if x.st != .up || woken = 0 then (s.setLink l z).regroup l
  else (s.setLink l { z with waking := z.waking ||| woken, wakes := z.wakes ++ [woken] }).regroup l

/-- LNKCTL_PARK_WRITE (R414): wavelength 0 is never parked; sub-links have no PARK. -/
def State.parkWrite (s : State) (l : Nat) (park : BitVec 8) : State := if l < 128 then s.parkTo l (park &&& 0xFE) (s.link l).napPark else s

def execLnkctlParkWrite (link : Nat) (park : BitVec 8) (s : State) : Host.Outcome State Fault Refusal := .next (s.parkWrite link park).sweep

/-- WAVELENGTH_WAKE_END (R390): the oldest wake ends; its wavelengths join at the next flit boundary. -/
def execWavelengthWakeEnd (link : Nat) (s : State) : Host.Outcome State Fault Refusal :=
  let x := s.link link
  .next (match x.wakes with
    | [] => s
    | m :: rest => ((s.setLink link { x with dark := x.dark &&& ~~~m, waking := x.waking &&& ~~~m, wakes := rest }).regroup link).sweep)

/-- WAVELENGTH_DARK (R414): parked wavelengths that have left the group go dark. -/
def execWavelengthDark (link : Nat) (s : State) : Host.Outcome State Fault Refusal :=
  let x := s.link link
  .next (if x.ann.isSome then s else s.setLink link { x with dark := x.dark ||| (x.parked &&& ~~~wavesIn x.w x.b &&& ~~~x.waking) })

/-! ## Peers and queues (R395, R413) -/

/-- PEER_FAILED_CLEAR (R395). -/
def State.clearPeer (s : State) (n : Nat) : State := s.setPeer n { s.peer n with failed := false }

def execPeerFailedClear (n : Nat) (s : State) : Host.Outcome State Fault Refusal := .next (if (s.peer n).failed then s.clearPeer n else s)

/-- LQ_QUIET (R413). -/
def execLqQuiet (link : Nat) (s : State) : Host.Outcome State Fault Refusal :=
  let x := s.link link
  .next (if decide (link < 128) && x.watched && x.idle != 0 && decide (x.depth ≤ x.lo) && !x.quiet then
    (s.setLink link { x with quiet := true }).bumpEvent x.lqevt.toNat else s)

/-- LQCFG (R413). -/
def State.lqcfg (s : State) (l : Nat) (v : Word) : State :=
  let x := s.link l
  s.putLink l { x with hi := (v.extractLsb' 0 16).toNat, lo := (v.extractLsb' 16 16).toNat, idle := (v.extractLsb' 32 16).toNat, quiet := false }

/-- LQCFG_WRITE (R413). -/
def execLqcfgWrite (link : Nat) (v : BitVec 64) (s : State) : Host.Outcome State Fault Refusal := .next (if link < 128 then s.lqcfg link v else s)

end Sys2Proof.Machine
end

