-- ==== Sys2Proof/Machine/Power.lean ====
section
/-! DEFINITION. Sys2Proof/Machine/Power.lean: power states (R402-R406), the shutter sequence and resumption (R407-R411, R425), power caps and
throttling (R423, R424). How long a unit has been quiet, and what the sensors read, is the agenda's choice (log 1). -/

namespace Sys2Proof.Machine

/-! ## Quiet cores (R405) -/

/-- A part waits in one of the ways of R405. -/
def Part.quiet (p : Part) : Bool :=
  match p.wait, (p.convoy.bind (fun c => c.todo.head?.map (·.2)) : Option Instr) with
  | some (.op _), some (.kwait _ _ _) => true
  | some (.op _), some (.kwaitNt _ _ _) => true
  | some (.bwait _ _), _ => true
  | some (.iwait _), _ => true
  | some .await, _ => true
  | some (.sjoin _), _ => true
  | some (.fbar _ _), _ => true
  | some (.fifo _ _), _ => true
  | _, _ => false

/-- A trap is pending for a seat. -/
def State.trapPending (s : State) (core : Nat) (t : Seat) : Bool :=
  t.preempt || (t.tvec != 0 && t.partList.any (fun p => (s.overdue core p).isSome))

/-- An entry anchored to a core is READY or SAVED. -/
def State.anchored (s : State) (core : Nat) : Bool :=
  s.launches.any (fun l => (l.2.map (fun x => x.tasks.any (fun t =>
    (t.2.map (fun k => k.pooled && k.replicas.any (fun r => replicaCore k.core k.record.redund r == core))).getD false))).getD false)

/-- A core is quiet (R405). -/
def State.quiet (s : State) (core : Nat) : Bool :=
  (s.coreSeats core).all (fun p => p.2.2.phase == .issuing && p.2.2.partList.all Part.quiet && !s.trapPending core p.2.2) && !s.anchored core

/-! ## Entering and leaving power states (R402, R404, R405) -/

/-- Exit latencies in ns (R402). -/
def exitNs : PowerState → Nat
  | .run => 0
  | .idle => 19
  | .doze => 2000
  | .nap => 60000

/-- Park every open pane of a bank in slot 5 (R402). -/
def Bank.parkAll (b : Bank) : Bank :=
  (List.range 12).foldl (fun b n => if (b.pane n).isOpen && !(b.pane n).park then b.parkPane n else b) b

/-- Change every bank of a core that has been used. -/
def Core.mapBanks (c : Core) (f : Bank → Bank) : Core := { c with banks := c.banks.map (fun b => (b.1, f b.2)) }

/-- A core has a pane in transition or pinned: it does not yet leave RUN or IDLE for a deeper state. -/
def Core.panesBusy (c : Core) : Bool := c.banks.any (fun b => b.2.panes.any (fun p => p.2.moving || p.2.pins != 0))

/-- A power state may be entered: the tolerance admits its exit and no sequence runs. -/
def State.mayEnter (s : State) (p : PowerState) : Bool := decide (exitNs p ≤ s.power.lattol.toNat) && s.power.phase == 0

/-- CORE_IDLE_ENTRY (R402). -/
def execCoreIdleEntry (core : Nat) (s : State) : Host.Outcome State Fault Refusal :=
  .next (if core < 1536 ∧ (s.core core).power = .run ∧ s.mayEnter .idle ∧ s.quiet core then s.modCore core (fun c => { c with power := .idle }) else s)

/-- CORE_DOZE_ENTRY (R402): every open pane is parked. -/
def execCoreDozeEntry (core : Nat) (s : State) : Host.Outcome State Fault Refusal :=
  let c := s.core core
  .next (if core < 1536 ∧ c.power = .idle ∧ !c.waking ∧ s.mayEnter .doze ∧ s.quiet core ∧ !c.panesBusy then
    s.modCore core (fun c => { c.mapBanks Bank.parkAll with power := .doze }) else s)

/-- The external links of a stack (R2, R383). -/
def stackLinks (k : Nat) : List Nat := upFrom (k * 16) 16

/-- A stack may enter NAP: both tiers quiet below RUN, and no operation RUNNING on the sill's engines. -/
def State.mayNap (s : State) (k : Nat) : Bool :=
  s.mayEnter .nap && (stackCores k).all (fun c => ((s.core c).power == .idle || (s.core c).power == .doze) && !(s.core c).waking && s.quiet c && !(s.core c).panesBusy) &&
    !(s.ops.any (fun o => o.2.live && o.2.st == .running && o.2.kind.cls != .ts && sillOf o.2.core == k))

/-- STACK_NAP_ENTRY (R402, R406): panes parked, links narrowed. -/
def execStackNapEntry (stack : Nat) (s : State) : Host.Outcome State Fault Refusal :=
  .next (if stack < 8 ∧ s.mayNap stack then
    let s1 := (stackCores stack).foldl (fun s c => s.modCore c (fun x => { x.mapBanks Bank.parkAll with power := .nap })) s
    let s2 : State := { s1 with power := { s1.power with nap := s1.power.nap ||| ((1#8) <<< stack) } }
    ((stackLinks stack).foldl (fun s l => s.parkTo l (s.link l).park true) s2).sweep
   else s)

/-- POWER_WAKE (R405). -/
def execPowerWake (core : Nat) (s : State) : Host.Outcome State Fault Refusal := .next (if core < 1536 then s.wakeUnit core else s)

/-- The stack leaves NAP (R83, R406): its cores are in DOZE, which they leave at once where the tolerance is below its exit (R404); the links take
back their wavelengths, every debt reads 0. -/
def State.leaveNap (s : State) (k : Nat) : State :=
  let s1 := (stackCores k).foldl (fun s c => s.modCore c (fun x =>
    { x.mapBanks (fun b => { b with debt := [] }) with power := .doze, waking := decide (s.power.lattol.toNat < exitNs .doze) })) s
  let s2 : State := { s1 with power := { s1.power with nap := s1.power.nap &&& ~~~((1#8) <<< k) } }
  (stackLinks k).foldl (fun s l => s.parkTo l (s.link l).park false) s2

/-- The exit of a unit ends: the woken core runs. -/
def State.endExit (s : State) (core : Nat) : State :=
  if (s.core core).waking then
    (if (s.core core).power == .nap then s.leaveNap (core / 192) else s).modCore core (fun x => { x with power := .run, waking := false })
  else s

/-- POWER_EXIT_END (R405). -/
def execPowerExitEnd (core : Nat) (s : State) : Host.Outcome State Fault Refusal := .next (if core < 1536 then (s.endExit core).sweep else s)

/-- A core that an event wakes, its exit at once behind it. -/
def State.wakeNow (s : State) (core : Nat) : State := if core < 1536 && (s.core core).power != .run then (s.wakeUnit core).endExit core else s

/-- The latency tolerance (R404): a unit whose exit exceeds it starts its exit. -/
def State.setLattol (s : State) (v : Word) : State :=
  let s1 : State := { s with power := { s.power with lattol := v.setWidth 32 } }
  (s1.cores.map (·.1)).foldl (fun s c => if (v.setWidth 32).toNat < exitNs (s.core c).power then s.wakeUnit c else s) s1

/-- LATTOL_WRITE (R404). -/
def execLattolWrite (v : BitVec 64) (s : State) : Host.Outcome State Fault Refusal := .next (s.setLattol v)

/-! ## The shutter sequence: triggers (R408) -/

def State.setPower (s : State) (f : Power → Power) : State := { s with power := f s.power }

/-- Every unit below RUN exits (R408). -/
def State.wakeAll (s : State) : State := (s.cores.map (·.1)).foldl (fun s c => s.wakeNow c) s

/-- A shutter record (R418). -/
def State.noteShutter (s : State) : State := s.logError 0x0E 0 planeMgmt 0 0 0 0

/-- A sequence begins at a phase; only a platform power event may end by AUTO_RESUME (R425). -/
def Power.begun (p : Power) (phase : Nat) (src : BitVec 2) : Power :=
  { p with phase := phase, src := src, resume := none, dipped := src == 1, steady := false }

/-- A trigger: 1 platform, 2 management, 3 PWRCMD. In phase 7 the entry runs again from the phase whose state is current. -/
def State.trigger (s : State) (src : BitVec 2) : State :=
  if s.power.phase = 0 then (s.wakeAll.setPower (fun p => p.begun 1 src)).noteShutter
  else if s.power.phase = 7 then (s.setPower (fun p => p.begun (max 1 p.back) src)).noteShutter
  else s

/-- A resume command (R408): recorded during the entry, begun in SHUTTERED. -/
def State.askResume (s : State) (discard : Bool) : State :=
  if 1 ≤ s.power.phase ∧ s.power.phase ≤ 5 then s.setPower (fun p => { p with resume := some discard })
  else if s.power.phase = 6 then s.setPower (fun p => { p with phase := 7, back := 5, resume := some discard })
  else s

/-- PWRCMD_SHUTTER (R408). -/
def execPwrcmdShutter (s : State) : Host.Outcome State Fault Refusal := .next (s.trigger 3).sweep

/-- PWRCMD_RESUME (R410). -/
def execPwrcmdResume (s : State) : Host.Outcome State Fault Refusal := .next (s.askResume false)

/-- PWRCMD_RESUME_DISCARD (R411). -/
def execPwrcmdResumeDiscard (s : State) : Host.Outcome State Fault Refusal := .next (s.askResume true)

/-- PLATFORM_POWER_EVENT (R408). -/
def execPlatformPowerEvent (s : State) : Host.Outcome State Fault Refusal := .next (s.trigger 1).sweep

/-- SUPPLY_DIP (R425): it acts as the platform's signal; the supply is not steady. -/
def execSupplyDip (s : State) : Host.Outcome State Fault Refusal := .next ((s.trigger 1).setPower (fun p => { p with steady := false })).sweep

/-- SUPPLY_STEADY (R425). -/
def execSupplySteady (s : State) : Host.Outcome State Fault Refusal :=
  .next (if s.power.dipped then s.setPower (fun p => { p with steady := true }) else s)

/-- SUPPLY_FAIL (R402, R425): the part is OFF; a sequence not completed is recorded at the next boot. -/
def execSupplyFail (s : State) : Host.Outcome State Fault Refusal :=
  .next (s.setPower (fun p => { p with off := true, lostAtOff := p.phase != 6 }))

/-! ## The shutter sequence: phases (R409) -/

/-- A thread's part as phase 1 stops it: what it waited for has performed nothing and executes again. -/
def Part.shuttered (p : Part) : Part := { p with wait := none, got := [] }

/-- A seat as phase 1 stops it; a hold at a release point starts again (R425). -/
def Seat.stopped (t : Seat) : Seat :=
  if t.isCC then t else { t.mapParts Part.shuttered with red := t.red.map (fun r => { r with hold := none }) }

/-- Change every seat. -/
def State.mapSeats (s : State) (f : Seat → Seat) : State :=
  { s with cores := s.cores.map (fun c => (c.1, { c.2 with seats := c.2.seats.map (fun t => (t.1, t.2.map f)) })) }

/-- Change every bank. -/
def State.mapBanks (s : State) (f : Bank → Bank) : State := { s with cores := s.cores.map (fun c => (c.1, c.2.mapBanks f)) }

/-- A phase begins when the one before it has ended. -/
def State.inPhase (s : State) (n : Nat) (r : State) : Host.Outcome State Fault Refusal := .next (if s.power.phase = n then r else s)

/-- SHUTTER_PHASE_1 (R409): every thread stops; links are lost as by a pre-emption (R219, R326). -/
def execShutterPhase1 (s : State) : Host.Outcome State Fault Refusal :=
  s.inPhase 1 ({ s.mapSeats Seat.stopped with linked := [] }.setPower (fun p => { p with phase := 2 }))

/-- A pane as phase 2 leaves it: its transition over, an open one parked. -/
def Bank.shutPane (b : Bank) (n : Nat) : Bank :=
  let p := b.pane n
  if p.park then b.setPane n { p with busy := false }
  else
    let b1 := if p.moving then b.setPane n (if p.after == .closed then Pane.empty else { p with st := p.after, img := p.final, next := none }) else b
    if (b1.pane n).isOpen then (let b2 := b1.parkPane n; b2.setPane n { b2.pane n with back := true }) else b1

/-- Every pane of a bank. -/
def Bank.shutAll (b : Bank) : Bank := (List.range 12).foldl Bank.shutPane b

/-- SHUTTER_PHASE_2 (R409). A matrix operation stops at its k-step before the panes that it pins are shut. -/
def execShutterPhase2 (s : State) : Host.Outcome State Fault Refusal :=
  s.inPhase 2
    (let s1 := (s.opsWhere (fun o => o.st == .running && !o.kind.panes.isEmpty)).foldl State.pauseOp s
     (s1.mapBanks Bank.shutAll).setPower (fun p => { p with phase := 3 }))

/-- An operation whose granule is still in flight. -/
def ChildOp.inFlight (o : ChildOp) : Bool := o.live && o.st == .running && o.kind.cls != .ts && !o.atBoundary
def State.inFlight (s : State) : Bool := s.ops.any (fun o => o.2.inFlight)

/-- SHUTTER_PHASE_3 (R323, R326, R409): every operation pauses once its granule is complete; task operations are unaffected. -/
def execShutterPhase3 (s : State) : Host.Outcome State Fault Refusal :=
  s.inPhase 3
    (if s.inFlight then s
     else ((s.opsWhere (fun o => o.kind.cls != .ts)).foldl State.pauseOp s).setPower (fun p => { p with phase := 4 }))

/-- How far the packets of an operation are formed, in its own measure, when the granule after a progress index begins. -/
def ChildOp.restart (o : ChildOp) (progress : Nat) : Nat :=
  match o.kind with
  | .cpy2d _ _ _ rb _ _ _ => if o.away then progress else progress * rb
  | .rsct .. => 2 * progress
  | _ => progress

/-- The progress index of the last complete granule. An nmo performs each element exactly once (R232): it keeps those of its granule. -/
def OpKind.lastGranule (k : OpKind) (progress : Nat) : Nat :=
  match k with
  | .gath .. => progress / 256 * 256
  | .mdrain .. => progress / 128 * 128
  | _ => progress

/-- The packets of an operation complete no granule any more. -/
def State.orphanPackets (s : State) (h : BitVec 32) : State :=
  { s with links := s.links.map (fun l => (l.1, { l.2 with buf := l.2.buf.map (fun p => if p.op = h then { p with done := none } else p) })) }

/-- SHUTTER_GRANULE_TIMEOUT (R409): the operation pauses at its last complete granule, which resumption performs again from its start (R410). -/
def execShutterGranuleTimeout (op : Nat) (s : State) : Host.Outcome State Fault Refusal :=
  let o := s.op op
  s.inPhase 3 (if o.inFlight then
    ((s.orphanPackets (o.handle op)).pauseOp op).modOp op (fun o =>
      { o with progress := o.kind.lastGranule o.progress, sent := o.restart (o.kind.lastGranule o.progress) }) else s)

/-- A link that is UP sends a last flit with CRD 0; it goes DOWN and keeps what it holds. -/
def State.linkDown (s : State) (l : Nat) : State :=
  let x := s.link l
  let y := if x.st == .up then { x.count 0 1 with out := some (x.flitOf 0 0 0 0 none 0).bits } else x
  (s.putLink l { y with st := .down, halted := true, retest := false, ann := none, rx := [], rxSeq := none }).linkEvent l

/-- Every link has stopped. -/
def State.linksStopped (s : State) : Bool := s.links.all (fun l => l.2.st != .up && l.2.st != .training)

/-- SHUTTER_PHASE_4 (R409): links form no packets; one that holds none goes DOWN. The phase ends when all have. -/
def execShutterPhase4 (s : State) : Host.Outcome State Fault Refusal :=
  s.inPhase 4
    (let s1 := (s.links.map (·.1)).foldl (fun s l =>
       let x := s.link l
       if x.st == .training || (x.st == .up && x.buf.isEmpty) then s.linkDown l else if x.st == .up then s.setLink l { x with halted := true } else s) s
     if s1.linksStopped then s1.setPower (fun p => { p with phase := 5 }) else s1)

/-- SHUTTER_LINK_TIMEOUT (R409): the link goes DOWN with its packets. -/
def execShutterLinkTimeout (link : Nat) (s : State) : Host.Outcome State Fault Refusal :=
  s.inPhase 4 (if (s.link link).st == .up && (s.link link).halted then s.linkDown link else s)

/-- SHUTTER_PHASE_5 (R409): PWREVT is raised; the part is SHUTTERED, or resumes at once when that was asked. -/
def execShutterPhase5 (s : State) : Host.Outcome State Fault Refusal :=
  s.inPhase 5 ((s.bumpEvent s.power.evt.toNat).setPower (fun p => { p with phase := if p.resume.isSome then 7 else 6, back := 5 }))

/-! ## Resumption (R410, R411) -/

/-- Reopen what the sequence parked. -/
def Bank.reopenAll (b : Bank) : Bank := (List.range 12).foldl (fun b n => if (b.pane n).park && (b.pane n).back then b.unparkPane n else b) b

/-- Operations that neither a paused launch nor a saved seat holds go on. -/
def State.resumePaused (s : State) (f : ChildOp → Bool) : State :=
  (s.opsWhere (fun o => o.st == .paused && f o && !s.opPaused o && !s.opSaved o)).foldl
    (fun s i => (s.modOp i (fun o => { o with st := .running, wait := none })).pinOp (s.op i)) s

/-- Links that the sequence has stopped and that are enabled train again; they keep their sequence numbers and their packets (log 29). -/
def State.relink (s : State) : State :=
  (s.links.map (·.1)).foldl (fun s l =>
    let x := s.link l
    if x.en && x.st == .down && x.halted then (s.setLink l { x with st := .training }).linkEvent l else s) s

/-- A link that the sequence has stopped has yet to train, or trains. -/
def State.relinking (s : State) : Bool := s.links.any (fun l => l.2.halted && ((l.2.en && l.2.st == .down) || l.2.st == .training))

/-- A control core that the discard leaves in reset. -/
def Seat.discarded (t : Seat) : Seat := if t.isCC then { t with run := .held } else t

/-- Discard every context (R411): launches, images, operations and the other control cores. -/
def State.discardAll (s : State) : State :=
  let s1 := (s.launches.filter (fun l => l.2.isSome)).foldl (fun s l => s.cancelLaunch l.1) s
  let s2 := s1.mapBanks (fun b => { b with slots := [], debt := [] })
  let s3 := { s2 with ops := s2.ops.map (fun o => (o.1, { o.2 with live := false })) }
  (upFrom 1537 15).foldl (fun s c => s.setSeat? c 0 ((s.seat? c 0).map Seat.discarded)) s3

/-- The next step of a resumption (R410, R411): the phases are reversed one by one. Self-refresh exit, with the tiers and the control cores; training of
the links and replay from what they hold, which the step waits for; the operations, or, with a discard, nothing of them; the panes, and with them the
operations that need them; the threads. -/
def State.resumeStep (s : State) : State :=
  let discard := s.power.resume == some true
  match s.power.back with
  | 5 => (s.mapBanks (fun b => { b with debt := [] })).setPower (fun p => { p with back := 4 })
  | 4 => if s.relinking then s.relink else s.setPower (fun p => { p with back := 3 })
  | 3 =>
    let s1 := s.setPower (fun p => { p with back := 2 })
    if discard then s1.discardAll else s1.resumePaused (fun o => o.kind.panes.isEmpty)
  | 2 =>
    let s1 := s.setPower (fun p => { p with back := 1 })
    if discard then s1 else (s1.mapBanks Bank.reopenAll).resumePaused (fun o => !o.kind.panes.isEmpty)
  | _ =>
    let s1 := (s.mapBanks (fun b => { b with debt := [] })).setPower (fun p => { p with phase := 0, back := 0, resume := none, dipped := false, steady := false })
    (s1.retryLaunches.bumpEvent s.power.evt.toNat).noteShutter

/-- RESUMPTION_END (R410, R411): the resumption comes a step nearer its end. -/
def execResumptionEnd (s : State) : Host.Outcome State Fault Refusal := s.inPhase 7 s.resumeStep.sweep

/-- AUTO_RESUME (R425). -/
def execAutoResume (s : State) : Host.Outcome State Fault Refusal :=
  .next (if s.power.phase = 6 ∧ s.power.auto ∧ s.power.dipped ∧ s.power.steady then s.askResume false else s)

/-! ## Power caps and throttling (R423, R424) -/

/-- DUTY of a column after an update: a decrease wins over an increase, one step at most. -/
def nextDuty (p : Power) (k : Nat) : Nat :=
  let d := p.dutyOf k
  let t := look 0 p.temp k
  if p.tmax < t || (p.limit < p.pmeas && p.floor < d) then max 1 (d - 1)
  else if t + 3 ≤ p.tmax && 100 * p.pmeas < 97 * p.limit then min 64 (d + 1)
  else d

/-- New readings: temperatures by column; one under a number past the last column is the hottest DRAM die's. -/
def Power.sensed (p : Power) (temps : List (Nat × Nat)) (watts : Nat) : Power :=
  let t := (temps.filter (fun x => decide (x.1 < columns))).foldl (fun t x => put t x.1 x.2) p.temp
  { p with
    pmeas := watts, temp := t, tlogic := (t.map (·.2)).foldl max 0
    tdram := ((temps.find? (fun x => decide (columns ≤ x.1))).map (·.2)).getD p.tdram }

/-- DUTY_UPDATE (R424). Every column above FLOOR steps within one update, so the order of their measured powers leaves no trace. -/
def execDutyUpdate (temps _powers : List (Nat × Nat)) (watts : Nat) (s : State) : Host.Outcome State Fault Refusal :=
  let p := s.power.sensed temps watts
  .next (s.setPower (fun _ => { p with duty := (List.range columns).map (fun k => (k, nextDuty p k)) }))

/-- POWER_FLOOR_TIMEOUT (R424): every column one step towards 1; the record raises THREVT (R423). -/
def execPowerFloorTimeout (s : State) : Host.Outcome State Fault Refusal :=
  let p := s.power
  .next (if 11 * p.limit < 10 * p.pmeas ∧ (List.range columns).all (fun k => decide (p.dutyOf k ≤ p.floor)) then
    ((s.setPower (fun p => { p with duty := (List.range columns).map (fun k => (k, max 1 (p.dutyOf k - 1))) })).logError 0x0D 1 planeMgmt 0 0 0 0).bumpEvent
      p.threvt.toNat else s)

/-- A power limit as it is stored. -/
def clampLimit (w : Nat) : Nat := max 1000 (min 4000 w)

/-- A write of PCAP (R423). -/
def State.setPcap (s : State) (v : Word) (mgmt : Bool) : State :=
  if s.power.lock && !mgmt then s
  else s.setPower (fun p => { p with limit := clampLimit (v.extractLsb' 0 16).toNat, lock := if mgmt then v.getLsbD 31 else p.lock })

/-- PCAP_WRITE (R423). -/
def execPcapWrite (v : BitVec 64) (mgmt : Bool) (s : State) : Host.Outcome State Fault Refusal := .next (s.setPcap v mgmt)

/-- A write of THR (R423): a FLOOR of 0 stores 1. -/
def State.setThr (s : State) (v : Word) : State :=
  s.setPower (fun p => { p with tmax := (v.extractLsb' 0 8).toNat, floor := max 1 (v.extractLsb' 8 6).toNat })

/-- THR_FLOOR_WRITE (R423). -/
def execThrFloorWrite (v : BitVec 64) (s : State) : Host.Outcome State Fault Refusal := .next (s.setThr v)

end Sys2Proof.Machine
end

