-- ==== Sys2Proof/Machine/Fleet.lean ====
section
/-! DEFINITION. Sys2Proof/Machine/Fleet.lean: the management port (R417), software log records (R419), quarantine (R421). -/

namespace Sys2Proof.Machine

/-- Something leaves through the management port. -/
def State.answer (s : State) (m : MgmtOut) : State := { s with mgmtOut := s.mgmtOut ++ [m] }

/-! ## Telemetry and the log (R417, R419, R420) -/

/-- MGMT_TELEMETRY (R417). -/
def execMgmtTelemetry (s : State) : Host.Outcome State Fault Refusal := .next ({ s with telemetry := true }.answer .done)

/-- Every counter: those of the device, of each core, of each link. -/
def State.counters (s : State) : List Nat :=
  [s.log.votedis, s.log.mismatch, s.log.minority, s.log.schederr, s.log.drop] ++
    (List.range 1536).flatMap (fun c => ([0, 1, 2, 3, 4] ++ upFrom 16 16).map (coreCounter s c)) ++
    (List.range 128 ++ (List.range 64).flatMap (fun p => if p / 8 < p % 8 then (List.range 10).map (subLink (p / 8) (p % 8)) else [])).flatMap
      (fun l => (List.range 10).map (fun k => look 0 (s.link l).ctr k))

/-- TELEMETRY_SNAPSHOT (R417, R422). -/
def execTelemetrySnapshot (s : State) : Host.Outcome State Fault Refusal :=
  .next (if s.telemetry then s.answer (.snapshot s.ns s.log.health s.counters) else s)

/-- MGMT_LOG_EXPORT (R417): the records from ELEXP on that the ring still holds. -/
def execMgmtLogExport (s : State) : Host.Outcome State Fault Refusal :=
  let first := max s.log.exported (s.log.seq - 4096)
  let rs := (upFrom first (s.log.seq - first)).filterMap (fun n => look none s.log.recs (n % 4096))
  .next ({ s with mgmtOut := s.mgmtOut ++ rs.map MgmtOut.record, log := { s.log with exported := s.log.seq } }.answer .done)

/-- A record written by software (R419): SEQ, TIME and PLANE are the part's own. -/
def postRecord (p : BitVec 512) : ErrRec :=
  { seq := 0, typ := p.extractLsb' 32 8 ||| 0x80, sev := p.extractLsb' 40 8, plane := planeControl, time := 0, loc := p.extractLsb' 128 32
    cause := p.extractLsb' 160 32, addr := p.extractLsb' 192 64, index := p.extractLsb' 256 64, detail := p.extractLsb' 320 192 }

/-- The store to the last doubleword of ELPOST appends. -/
def State.postLog (s : State) (v : Word) : State :=
  let s1 := s.storeReg (.elpost 7) v
  s1.logRec (postRecord s1.log.post)

/-- ELPOST_APPEND (R419). -/
def execElpostAppend (v : BitVec 64) (s : State) : Host.Outcome State Fault Refusal := .next (s.postLog v)

/-! ## Firmware, power, memory (R411, R417) -/

/-- MGMT_FIRMWARE (R417): the inactive slot takes a signed image; another is refused. -/
def execMgmtFirmware (image : BitVec 64) (signed : Bool) (s : State) : Host.Outcome State Fault Refusal :=
  .next (if signed then { s with boot := { s.boot with inactive := some image } }.answer .done else s.answer .refused)

/-- MGMT_POWER_CAP (R417, R423). -/
def execMgmtPowerCap (limit : BitVec 16) (lock : Bool) (s : State) : Host.Outcome State Fault Refusal :=
  .next ((s.setPcap (limit.setWidth 64 ||| (if lock then 0x80000000 else 0)) true).answer .done)

/-- MGMT_SHUTTER (R417). -/
def execMgmtShutter (op : BitVec 2) (s : State) : Host.Outcome State Fault Refusal :=
  .next (if op = 1 then (s.trigger 2).sweep.answer .done
   else if op = 2 then (s.askResume false).answer .done
   else if op = 3 then (s.askResume true).answer .done
   else s.answer .refused)

/-- MGMT_OFF (R411): from SHUTTERED only. -/
def execMgmtOff (s : State) : Host.Outcome State Fault Refusal :=
  .next (if s.power.phase = 6 then (s.setPower (fun p => { p with off := true, lostAtOff := false })).answer .done else s.answer .refused)

/-- What a read of a range waits for: rows that panes claim, cores below RUN, memory that refreshes itself (R72, R405, R409). -/
def rangeWait (s : State) (pa n : Nat) : Option Wait :=
  ((List.range (n / 4096 + 2)).filter (fun k => decide (pa / 4096 * 4096 + 4096 * k < pa + n))).findSome? (fun k => heldAt s (pa / 4096 * 4096 + 4096 * k))

/-- What has been read leaves: memory as it stands at .system. -/
def State.answerRead (s : State) (pa n : Nat) : State := s.answer (.bytes pa ((List.range n).map (fun k => BitVec.ofNat 8 (s.peek (pa + k) 1))))

/-- MGMT_MEMORY_READ (R417): a read that must wait is kept, and answered when it can be made. -/
def execMgmtMemoryRead (pa n : Nat) (s : State) : Host.Outcome State Fault Refusal :=
  let ok := (List.range n).all (fun k => regionOf (pa + k) == .dram || (regionOf (pa + k) == .cap && !isRetention (pa + k)))
  .next (if !ok then s.answer .refused
   else if (rangeWait s pa n).isSome then { s with waits := { s.waits with reads := s.waits.reads ++ [(pa, n)] } }
   else s.answerRead pa n)

/-- What the oldest read that is kept waits for. -/
def readWait (s : State) : Option Wait := s.waits.reads.head?.bind (fun r => rangeWait s r.1 r.2)

/-- The oldest read that is kept, if it can be made. -/
def State.nextRead (s : State) : Option State :=
  match s.waits.reads with
  | [] => none
  | r :: rs => if (rangeWait s r.1 r.2).isSome then none else some (({ s with waits := { s.waits with reads := rs } } : State).answerRead r.1 r.2)

/-! ## Quarantine (R421, R422) -/

/-- Quarantined cores among some. -/
def State.quarCount (s : State) (cs : List Nat) : Nat := (cs.filter (fun c => (s.core c).quar)).length

/-- HEALTH after a change of a bit. -/
def State.judgeQuar (s : State) : State :=
  let all := s.quarCount (List.range 1536)
  let s1 := if all = 0 then s else s.raiseHealth 1
  if 48 ≤ all || (List.range 16).any (fun t => decide (8 < s.quarCount (upFrom (96 * t) 96))) then s1.raiseHealth 2 else s1

/-- Change a bit: each change is recorded, under the plane of the agent that made it (R418). -/
def State.setQuar (s : State) (plane : BitVec 8) (core : Nat) (on : Bool) : State :=
  if core < 1536 && (s.core core).quar != on then
    (((s.modCore core (fun c => { c with quar := on })).logError 0x10 0 plane (locOf core 0 0) 0 0 0)).judgeQuar
  else s

/-- MGMT_QUARANTINE (R421). -/
def execMgmtQuarantine (core : Nat) (on : Bool) (s : State) : Host.Outcome State Fault Refusal := .next (if core < 1536 then (s.setQuar planeMgmt core on).answer .done else s.answer .refused)

/-- A supervisor's write sets bits and clears none. -/
def State.quarWrite (s : State) (word : Nat) (v : Word) : State :=
  (List.range 64).foldl (fun s b => if v.getLsbD b then s.setQuar planeControl (64 * word + b) true else s) s

/-- QUAR_WRITE (R421). -/
def execQuarWrite (word : Nat) (v : BitVec 64) (s : State) : Host.Outcome State Fault Refusal := .next (s.quarWrite word v)

end Sys2Proof.Machine
end

