-- ==== Sys2Proof/Machine/Boot.lean ====
section
/-! DEFINITION. Sys2Proof/Machine/Boot.lean: boot (R376, R377), starting control cores and their timers (R371, R372, R379), launch control and
the context pool (R276, R380-R382), registers that only hold a value (R10). -/

namespace Sys2Proof.Machine

/-! ## Boot (R376) -/

def State.setBoot (s : State) (f : Boot → Boot) : State := { s with boot := f s.boot }

/-- A boot step fails: the sequence stops there. -/
def State.bootFails (s : State) (step : Nat) : State :=
  ((s.setBoot (fun b => { b with failed := true })).logError 0x0F 3 planeMgmt 0 0 0 (BitVec.ofNat 64 step)).answer (.notice 0x0F)

/-- A boot step ends. -/
def State.bootStep (s : State) (step : Nat) (r : State) : Host.Outcome State Fault Refusal :=
  .next (if s.boot.step + 1 = step ∧ !s.boot.failed then r else s)

/-- The machine at a new boot after OFF (R402): the management port and the flash slots remain, and after a failed shutter the log
(R417, R425). The agenda and the counter of free values are the model's own. -/
def State.reboot (s : State) : State :=
  let fresh : State := { State.reset with
    agenda := s.agenda, free := s.free, mgmtOut := s.mgmtOut
    boot := { Boot.reset with active := s.boot.inactive.getD s.boot.active, romBad := s.boot.romBad }
    log := if s.power.lostAtOff then { ErrLog.empty with recs := s.log.recs, seq := s.log.seq, exported := s.log.exported, drop := s.log.drop } else ErrLog.empty }
  if s.power.lostAtOff then fresh.logError 0x11 3 planeMgmt 0 0 0 0 else fresh

/-- POWER_ON_RESET (R376 step 1): the boot ROM checks its own image. -/
def execPowerOnReset (s : State) : Host.Outcome State Fault Refusal :=
  let s1 := if s.power.off then s.reboot else s
  s1.bootStep 1 (if s1.boot.romBad then s1.bootFails 1 else s1.setBoot (fun b => { b with step := 1 }))

/-- BOOT_FIRMWARE_LOAD (R376 step 2): from flash, or over the port when flash fails its check. -/
def execBootFirmwareLoad (_fromFlash ok : Bool) (s : State) : Host.Outcome State Fault Refusal :=
  s.bootStep 2 (if ok then s.setBoot (fun b => { b with step := 2 }) else s.bootFails 2)

/-- An entry of the harvest map without its res0 bits (R377). -/
def harvestMask (v : Word) : Word := v &&& 0x1F1F7F

/-- BOOT_SILL_INIT (R376 step 3): the fuses that are given; the others are those of log 8. -/
def execBootSillInit (fuses : List (Nat × BitVec 64)) (ok : Bool) (s : State) : Host.Outcome State Fault Refusal :=
  s.bootStep 3
    (if ok then
      { s.setBoot (fun b => { b with step := 3 }) with
        harvest := (fuses.filter (fun f => decide (f.1 < 1536))).foldl (fun t f => put t f.1 (harvestMask f.2)) s.harvest }
     else s.bootFails 3)

/-- A control core out of reset (R371, R379): its registers at their reset values. -/
def Seat.control (m : Nat) (entry : Word) : Seat :=
  { Seat.empty with
    isCC := true, run := .running, status := { Status.empty with lvl := true }, disp := m
    parts := [(0, some { Part.empty with pc := entry, active := 1, entry := true })] }

/-- A stopped control core goes on at an address, at LVL 1 (R372). -/
def Seat.restarted (t : Seat) (entry : Word) : Seat :=
  { t.setPart? 0 (some { (t.part? 0).getD Part.empty with pc := entry, wait := none, begun := 0, convoy := none, entry := true, got := [] }) with
    run := .running, status := { t.status with lvl := true }, handler := none }

/-- Start control core m. -/
def State.startControl (s : State) (m : Nat) (entry : Word) : State :=
  let c := 1536 + m
  match s.seat? c 0 with
  | some t =>
    match t.run with
    | .running => s
    | .stopped => s.setSeat? c 0 (some (t.restarted entry))
    | .held => s.setCore c { s.core c with banks := [], seats := [(0, some (Seat.control m entry))] }
  | none => s.setCore c { s.core c with banks := [], seats := [(0, some (Seat.control m entry))] }

/-- BOOT_OS_LOAD (R376 step 4): the image goes to its place and control core 1,536 starts. -/
def execBootOsLoad (image : Option OsImage) (s : State) : Host.Outcome State Fault Refusal :=
  s.bootStep 4
    (match image with
     | some x =>
       let s1 := ((s.pokeBytes none x.base x.bytes).setBoot (fun b => { b with step := 4 })).startControl 0 x.entry
       { s1 with focus := ⟨1536, 0, 0⟩ }
     | none => s.bootFails 4)

/-- BOOT_STEP5_TIMEOUT (R376). -/
def execBootStep5Timeout (s : State) : Host.Outcome State Fault Refusal :=
  .next (if s.boot.step = 4 ∧ !s.boot.done ∧ !s.boot.late then
    ((s.setBoot (fun b => { b with late := true })).logError 0x0F 3 planeMgmt 0 0 0 5).answer (.notice 0x0F) else s)

/-! ## Control cores (R371, R372, R379) -/

/-- The control cores of a mask start. -/
def State.ccstart (s : State) (mask : BitVec 16) : State :=
  (List.range 16).foldl (fun s m => if mask.getLsbD m then s.startControl m s.boot.entry else s) s

/-- CCSTART (R379). -/
def execCcstart (mask : BitVec 16) (s : State) : Host.Outcome State Fault Refusal := .next (s.ccstart mask)

/-- CCBOOT.DONE := 1: step 5 is complete. -/
def State.ccbootDone (s : State) : State := s.setBoot (fun b => { b with done := true, step := if b.step = 4 then 5 else b.step })

/-- CCBOOT_DONE (R379). -/
def execCcbootDone (s : State) : Host.Outcome State Fault Refusal := .next s.ccbootDone

/-- A store to CCBAR.COUNT: it waits for the phase in progress to complete. -/
def State.ccbarCount (s : State) (n : Nat) (count : BitVec 16) : State :=
  let b := look CcBar.empty s.ccbars n
  { s with ccbars := put s.ccbars n (if b.arrived = 0 then { b with count := count.toNat, next := none } else { b with next := some count.toNat }) }

/-- CCBAR_COUNT_WRITE (R379). -/
def execCcbarCountWrite (n : Nat) (count : BitVec 16) (s : State) : Host.Outcome State Fault Refusal := .next (if n < 16 then s.ccbarCount n count else s)

/-- The timer of a control core is due: time has come, a handler exists, HOLD is clear (R371, R372). -/
def timerDue (s : State) (t : Seat) : Bool :=
  t.isCC && t.run == .running && t.tvec != 0 && !t.status.hold && decide (t.timecmp.toNat ≤ s.ns)

/-- CC_TIMER (R371): the trap is taken at the instruction boundary that a wait or the next instruction leaves. -/
def execCcTimer (cc : Nat) (s : State) : Host.Outcome State Fault Refusal :=
  let a : Agent := ⟨cc, 0, 0⟩
  .next (if 1536 ≤ cc ∧ timerDue s (s.seat a) then
    s.asAgent a (fun s => let r := s.toBoundary 0; r.1.takeTrap a 0x38 0 (r.1.part a).pc none) else s)

/-! ## Launch control (R380) -/

/-- A command ends: RESULT, BUSY, LEVT. -/
def State.endCmd (s : State) (result : BitVec 8) : State :=
  ({ s with lctl := { s.lctl with cur := none, result := result } }).bumpEvent s.lctl.evt.toNat

/-- A command acts when none is in progress; a launch that does not exist ends it with RESULT 1. -/
def State.command (s : State) (n : Nat) (f : Launch → State) : State :=
  if s.lctl.cur.isSome then s
  else
    match s.launch? n with
    | none => s.endCmd 1
    | some l => f l

/-- Tasks of a launch that hold seats. -/
def runningTasks (n : Nat) (l : Launch) : List (Nat × Nat) :=
  (l.tasks.filter (fun t => (t.2.map (fun k => k.st == .running)).getD false)).map (fun t => (n, t.1))

/-- The launch holds a co-run set that cannot be saved (R274). -/
def Launch.holdsUnsaved (l : Launch) : Bool :=
  l.save == 0 && l.tasks.any (fun t => (t.2.map (fun k => k.record.stage != 0 && !k.st.terminal)).getD false)

/-- Every seat of a paused launch is SAVED and none of its operations runs on (R326, R380). -/
def State.stands (s : State) (n : Nat) : Bool :=
  ((s.launch? n).map (fun l => (runningTasks n l).isEmpty)).getD true &&
    !(s.ops.any (fun o => o.2.live && o.2.launch == n && decide (o.2.core < 1536) && o.2.kind.cls != .ts && o.2.st == .running))

/-- Pause: its operations pause at their boundaries, its seats are saved. -/
def State.pauseLaunch (s : State) (n : Nat) : State :=
  s.command n (fun l =>
    let ts := runningTasks n l
    if l.holdsUnsaved || decide (s.freeAreas.length < s.areasNeeded ts) then s.endCmd 5
    else
      let s1 := (s.setLaunch n (some { l with paused := true })).askSeats ts
      let s2 := (s1.opsWhere (fun o => o.launch == n && decide (o.core < 1536) && o.kind.cls != .ts)).foldl State.restOp s1
      if s2.stands n then s2.endCmd 0 else { s2 with lctl := { s2.lctl with cur := some (1, n, 0) } })

/-- LCMD_PAUSE (R380). -/
def execLcmdPause (launch : Nat) (s : State) : Host.Outcome State Fault Refusal := .next (s.pauseLaunch launch)

/-- Resume. -/
def State.resumeLaunch (s : State) (n : Nat) : State :=
  s.command n (fun l =>
    if !l.paused then s.endCmd 4
    else
      let s1 := s.setLaunch n (some { l with paused := false })
      (s1.resumePaused (fun o => o.launch == n && decide (o.core < 1536))).endCmd 0)

/-- LCMD_RESUME (R380). -/
def execLcmdResume (launch : Nat) (s : State) : Host.Outcome State Fault Refusal := .next (s.resumeLaunch launch)

/-- LCMD_CANCEL (R282). -/
def execLcmdCancel (launch : Nat) (s : State) : Host.Outcome State Fault Refusal :=
  .next (s.command launch (fun _ => (s.cancelLaunch launch).endCmd 0)).sweep

/-- The image of a slot of a context's bank. -/
def State.slotOf (s : State) (c : Context) (o n k : Nat) : Slot := (s.bank c.core (c.seat.base + o)).slot n k

/-- The user images of a context: bank offset * 96 + sg * 8 + slot. -/
def State.userImages (s : State) (c : Context) (l t : Nat) : Table (Option PaneImage) :=
  (List.range (c.seat.size * 96)).filterMap (fun e =>
    let x := s.slotOf c (e / 96) (e % 96 / 8) (e % 8)
    if e % 8 < 5 && x.owner == .user l t && x.img.isSome then some (e, x.img) else none)

/-- A context with its images in its area. -/
def State.exportContext (s : State) (c : Context) (l t : Nat) : Context :=
  { c with
    exported := s.userImages c l t
    places := c.places.map (fun p => (p.1, match p.2 with
      | .slot k => .area (((s.slotOf c (p.1 / 12) (p.1 % 12) k).img).getD PaneImage.empty)
      | x => x)) }

/-- The bytes of the exported panes and their places in the area (R276). -/
def State.writeExport (s : State) (pa : Nat) (c : Context) : State :=
  let s1 := (areaImages c).foldl (fun s i => s.pokeImage none (pa + i.1) 4096 i.2.data) s
  s1.pokeFields pa (c.places.map (fun p => (544 + 2 * p.1, p.2.word, 2)))

/-- What the export of a task waits for: the rows of its context area to which it writes (R72, R276). -/
def State.exportWait (s : State) (k : Task) : Option Wait :=
  k.area.bind (fun i => (List.range 16).findSome? (fun x => pageWait s (s.areaPa i + x * 2 ^ 16)))

/-- Export. A task that is exported already has its images in its area: nothing is left to write. -/
def State.exportTask (s : State) (n t : Nat) : State :=
  s.command n (fun l =>
    if !l.paused then s.endCmd 4
    else
      match s.task? n t with
      | some k =>
        if k.st != .saved then s.endCmd 2
        else if k.isExported then s.endCmd 0
        else if (s.exportWait k).isSome then { s with lctl := { s.lctl with cur := some (4, n, t) } }
        else
          let cs := k.ctx.map (fun c => s.exportContext c n t)
          let s1 := (s.setTask n t { k with ctx := cs, isExported := true }).freeTaskSlots n t
          let s2 := match k.area, cs.find? Context.leads with
            | some i, some c => s1.writeExport (s1.areaPa i) c
            | _, _ => s1
          s2.endCmd 0
      | none => s.endCmd 2)

/-- LCMD_EXPORT (R380). -/
def execLcmdExport (launch task : Nat) (s : State) : Host.Outcome State Fault Refusal := .next (s.exportTask launch task)

/-- Retarget: the entry moves to its anchor's new place and keeps its age; it waits while the anchor's page moves. -/
def State.retarget (s : State) (n t : Nat) : State :=
  s.command n (fun l =>
    if !l.paused then s.endCmd 4
    else
      match s.task? n t with
      | some k =>
        if k.st != .saved || !k.isExported then s.endCmd 2
        else
          match anchorSpot s n l k.record.anchor.toNat with
          | .ok pa =>
            if dramBank pa % 2 ^ k.record.sash ≠ 0 then s.endCmd 3
            else ((s.setTask n t { k with pa := pa, core := dramCore pa }).wakeFor { k with core := dramCore pa }).endCmd 0
          | .bad _ _ => s.endCmd 3
          | .wait _ => { s with lctl := { s.lctl with cur := some (5, n, t) } }
      | none => s.endCmd 2)

/-- LCMD_RETARGET (R380). -/
def execLcmdRetarget (launch task : Nat) (s : State) : Host.Outcome State Fault Refusal := .next (s.retarget launch task)

/-- What the command in progress waits for. -/
def State.cmdWait (s : State) : Option Wait :=
  match s.lctl.cur with
  | some (4, n, t) => (s.task? n t).bind s.exportWait
  | _ => none

/-- LCMD_COMPLETE (R380): every seat of the paused launch is SAVED, or the launch has ended; an export or a retarget that waited tries again. -/
def State.completeCmd (s : State) : State :=
  match s.lctl.cur with
  | some (4, n, t) => ({ s with lctl := { s.lctl with cur := none } }).exportTask n t
  | some (5, n, t) => ({ s with lctl := { s.lctl with cur := none } }).retarget n t
  | some (_, n, _) => if s.stands n then s.endCmd 0 else s
  | none => s

def execLcmdComplete (s : State) : Host.Outcome State Fault Refusal := .next s.completeCmd

/-! ## The context pool (R276) and plain registers (R10) -/

/-- A write of CTXBASE or CTXCOUNT, ignored while an area is taken. -/
def State.ctxPool (s : State) (off : Nat) (v : Word) : State :=
  if s.lctl.areas.any (fun p => p.2.isSome) then s
  else if off = 0x100 then { s with lctl := { s.lctl with ctxBase := v &&& 0x0000FFFFFF000000 } }
  else if off = 0x108 then { s with lctl := { s.lctl with ctxCount := (v.extractLsb' 0 16).toNat } }
  else s

/-- CTX_POOL_WRITE (R276). -/
def execCtxPoolWrite (off : Nat) (v : BitVec 64) (s : State) : Host.Outcome State Fault Refusal := .next (s.ctxPool off v)

/-- A changed MAXW gives an UP link the group of R389 at the next flit boundary (R394). -/
def State.capWidth (s : State) (v : Word) : DevReg → State
  | .lnkctl l => if (s.link l).maxw = v.extractLsb' 2 2 then s else ((s.storeReg (.lnkctl l) v).regroup l).sweep
  | r => s.storeReg r v

/-- REGISTER_WRITE (R10). -/
def execRegisterWrite (pa : Nat) (v : BitVec 64) (s : State) : Host.Outcome State Fault Refusal :=
  .next (match devReg (pa / 8 * 8) with | some r => s.capWidth v r | none => s)

end Sys2Proof.Machine
end

