-- ==== Sys2Proof/Machine/ScalarFp.lean ====
section
/-! DEFINITION. Sys2Proof/Machine/ScalarFp.lean: scalar floating-point instructions (R140-R143). -/

namespace Sys2Proof.Machine

/-- fadd.f32 (R141, R142). -/
def execFaddF32 (d a b : BitVec 5) (s : State) : Host.Outcome State Fault Refusal :=
  roundingOp s d (fun m x => fpAdd f32Fmt m (x.rs a) (x.rs b))

/-- fsub.f32 (R141, R142). -/
def execFsubF32 (d a b : BitVec 5) (s : State) : Host.Outcome State Fault Refusal :=
  roundingOp s d (fun m x => fpSub f32Fmt m (x.rs a) (x.rs b))

/-- fmul.f32 (R141, R142). -/
def execFmulF32 (d a b : BitVec 5) (s : State) : Host.Outcome State Fault Refusal :=
  roundingOp s d (fun m x => fpMul f32Fmt m (x.rs a) (x.rs b))

/-- fdiv.f32 (R141, R142). -/
def execFdivF32 (d a b : BitVec 5) (s : State) : Host.Outcome State Fault Refusal :=
  roundingOp s d (fun m x => fpDiv f32Fmt m (x.rs a) (x.rs b))

/-- fsqrt.f32 (R141, R142). -/
def execFsqrtF32 (d a : BitVec 5) (s : State) : Host.Outcome State Fault Refusal :=
  roundingOp s d (fun m x => fpSqrt f32Fmt m (x.rs a))

/-- fmin.f32 (R141, R142). -/
def execFminF32 (d a b : BitVec 5) (s : State) : Host.Outcome State Fault Refusal :=
  plainOp s d (fun x => fpMinMax f32Fmt false (x.rs a) (x.rs b))

/-- fmax.f32 (R141, R142). -/
def execFmaxF32 (d a b : BitVec 5) (s : State) : Host.Outcome State Fault Refusal :=
  plainOp s d (fun x => fpMinMax f32Fmt true (x.rs a) (x.rs b))

/-- feq.f32 (R141, R142). -/
def execFeqF32 (d a b : BitVec 5) (s : State) : Host.Outcome State Fault Refusal :=
  plainOp s d (fun x => fpEq f32Fmt (x.rs a) (x.rs b))

/-- flt.f32 (R141, R142). -/
def execFltF32 (d a b : BitVec 5) (s : State) : Host.Outcome State Fault Refusal :=
  plainOp s d (fun x => fpLt f32Fmt (x.rs a) (x.rs b))

/-- fle.f32 (R141, R142). -/
def execFleF32 (d a b : BitVec 5) (s : State) : Host.Outcome State Fault Refusal :=
  plainOp s d (fun x => fpLe f32Fmt (x.rs a) (x.rs b))

/-- fclass.f32: no flag (R141, R142). -/
def execFclassF32 (d a : BitVec 5) (s : State) : Host.Outcome State Fault Refusal :=
  plainOp s d (fun x => (classWord f32Fmt (encIn f32Fmt (x.rs a)), 0))

/-- fneg.f32 (R141, R142). -/
def execFnegF32 (d a : BitVec 5) (s : State) : Host.Outcome State Fault Refusal :=
  plainOp s d (fun x => fpNeg f32Fmt (x.rs a))

/-- fabs.f32 (R141, R142). -/
def execFabsF32 (d a : BitVec 5) (s : State) : Host.Outcome State Fault Refusal :=
  plainOp s d (fun x => fpAbs f32Fmt (x.rs a))

/-- fma.f32: A * B + D (R141, R142). -/
def execFmaF32 (d a b : BitVec 5) (s : State) : Host.Outcome State Fault Refusal :=
  roundingOp s d (fun m x => fpFma f32Fmt m (x.rs a) (x.rs b) (x.rs d))

/-- fms.f32: A * B - D (R141, R142). -/
def execFmsF32 (d a b : BitVec 5) (s : State) : Host.Outcome State Fault Refusal :=
  roundingOp s d (fun m x => fpFms f32Fmt m (x.rs a) (x.rs b) (x.rs d))

/-- fadd.f64 (R141, R142). -/
def execFaddF64 (d a b : BitVec 5) (s : State) : Host.Outcome State Fault Refusal :=
  roundingOp s d (fun m x => fpAdd f64Fmt m (x.rs a) (x.rs b))

/-- fsub.f64 (R141, R142). -/
def execFsubF64 (d a b : BitVec 5) (s : State) : Host.Outcome State Fault Refusal :=
  roundingOp s d (fun m x => fpSub f64Fmt m (x.rs a) (x.rs b))

/-- fmul.f64 (R141, R142). -/
def execFmulF64 (d a b : BitVec 5) (s : State) : Host.Outcome State Fault Refusal :=
  roundingOp s d (fun m x => fpMul f64Fmt m (x.rs a) (x.rs b))

/-- fdiv.f64 (R141, R142). -/
def execFdivF64 (d a b : BitVec 5) (s : State) : Host.Outcome State Fault Refusal :=
  roundingOp s d (fun m x => fpDiv f64Fmt m (x.rs a) (x.rs b))

/-- fsqrt.f64 (R141, R142). -/
def execFsqrtF64 (d a : BitVec 5) (s : State) : Host.Outcome State Fault Refusal :=
  roundingOp s d (fun m x => fpSqrt f64Fmt m (x.rs a))

/-- fmin.f64 (R141, R142). -/
def execFminF64 (d a b : BitVec 5) (s : State) : Host.Outcome State Fault Refusal :=
  plainOp s d (fun x => fpMinMax f64Fmt false (x.rs a) (x.rs b))

/-- fmax.f64 (R141, R142). -/
def execFmaxF64 (d a b : BitVec 5) (s : State) : Host.Outcome State Fault Refusal :=
  plainOp s d (fun x => fpMinMax f64Fmt true (x.rs a) (x.rs b))

/-- feq.f64 (R141, R142). -/
def execFeqF64 (d a b : BitVec 5) (s : State) : Host.Outcome State Fault Refusal :=
  plainOp s d (fun x => fpEq f64Fmt (x.rs a) (x.rs b))

/-- flt.f64 (R141, R142). -/
def execFltF64 (d a b : BitVec 5) (s : State) : Host.Outcome State Fault Refusal :=
  plainOp s d (fun x => fpLt f64Fmt (x.rs a) (x.rs b))

/-- fle.f64 (R141, R142). -/
def execFleF64 (d a b : BitVec 5) (s : State) : Host.Outcome State Fault Refusal :=
  plainOp s d (fun x => fpLe f64Fmt (x.rs a) (x.rs b))

/-- fclass.f64: no flag (R141, R142). -/
def execFclassF64 (d a : BitVec 5) (s : State) : Host.Outcome State Fault Refusal :=
  plainOp s d (fun x => (classWord f64Fmt (encIn f64Fmt (x.rs a)), 0))

/-- fneg.f64 (R141, R142). -/
def execFnegF64 (d a : BitVec 5) (s : State) : Host.Outcome State Fault Refusal :=
  plainOp s d (fun x => fpNeg f64Fmt (x.rs a))

/-- fabs.f64 (R141, R142). -/
def execFabsF64 (d a : BitVec 5) (s : State) : Host.Outcome State Fault Refusal :=
  plainOp s d (fun x => fpAbs f64Fmt (x.rs a))

/-- fma.f64: A * B + D (R141, R142). -/
def execFmaF64 (d a b : BitVec 5) (s : State) : Host.Outcome State Fault Refusal :=
  roundingOp s d (fun m x => fpFma f64Fmt m (x.rs a) (x.rs b) (x.rs d))

/-- fms.f64: A * B - D (R141, R142). -/
def execFmsF64 (d a b : BitVec 5) (s : State) : Host.Outcome State Fault Refusal :=
  roundingOp s d (fun m x => fpFms f64Fmt m (x.rs a) (x.rs b) (x.rs d))

/-- fcvt.f32.i64 (R143). -/
def execFcvtF32I64 (d a : BitVec 5) (s : State) : Host.Outcome State Fault Refusal :=
  roundingOp s d (fun m x => fpOfInt f32Fmt true m (x.rs a))

/-- fcvt.f32.n64 (R143). -/
def execFcvtF32N64 (d a : BitVec 5) (s : State) : Host.Outcome State Fault Refusal :=
  roundingOp s d (fun m x => fpOfInt f32Fmt false m (x.rs a))

/-- fcvt.i64.f32 (R143). -/
def execFcvtI64F32 (d a : BitVec 5) (s : State) : Host.Outcome State Fault Refusal :=
  roundingOp s d (fun m x => fpToInt f32Fmt true m (x.rs a))

/-- fcvt.n64.f32 (R143). -/
def execFcvtN64F32 (d a : BitVec 5) (s : State) : Host.Outcome State Fault Refusal :=
  roundingOp s d (fun m x => fpToInt f32Fmt false m (x.rs a))

/-- fcvt.f64.i64 (R143). -/
def execFcvtF64I64 (d a : BitVec 5) (s : State) : Host.Outcome State Fault Refusal :=
  roundingOp s d (fun m x => fpOfInt f64Fmt true m (x.rs a))

/-- fcvt.f64.n64 (R143). -/
def execFcvtF64N64 (d a : BitVec 5) (s : State) : Host.Outcome State Fault Refusal :=
  roundingOp s d (fun m x => fpOfInt f64Fmt false m (x.rs a))

/-- fcvt.i64.f64 (R143). -/
def execFcvtI64F64 (d a : BitVec 5) (s : State) : Host.Outcome State Fault Refusal :=
  roundingOp s d (fun m x => fpToInt f64Fmt true m (x.rs a))

/-- fcvt.n64.f64 (R143). -/
def execFcvtN64F64 (d a : BitVec 5) (s : State) : Host.Outcome State Fault Refusal :=
  roundingOp s d (fun m x => fpToInt f64Fmt false m (x.rs a))

/-- fcvt.f64.f32: exact (R143). -/
def execFcvtF64F32 (d a : BitVec 5) (s : State) : Host.Outcome State Fault Refusal :=
  plainOp s d (fun x => fpConv f32Fmt f64Fmt .rne (x.rs a))

/-- fcvt.f32.f64 (R143). -/
def execFcvtF32F64 (d a : BitVec 5) (s : State) : Host.Outcome State Fault Refusal :=
  roundingOp s d (fun m x => fpConv f64Fmt f32Fmt m (x.rs a))

/-- fcvt.bf16.f32 (R143). -/
def execFcvtBf16F32 (d a : BitVec 5) (s : State) : Host.Outcome State Fault Refusal :=
  roundingOp s d (fun m x => fpConv f32Fmt bf16Fmt m (x.rs a))

/-- fcvt.f32.bf16: exact (R143). -/
def execFcvtF32Bf16 (d a : BitVec 5) (s : State) : Host.Outcome State Fault Refusal :=
  plainOp s d (fun x => fpConv bf16Fmt f32Fmt .rne (x.rs a))

end Sys2Proof.Machine
end

