-- ==== Sys2Proof/Machine/Dispatch.lean ====
section
/-! DEFINITION. Sys2Proof/Machine/Dispatch.lean: the meaning of each instruction and of each step of the part. -/

namespace Sys2Proof.Machine

open Sys2Proof

/-- What an instruction, or a step of the part, does. -/
def exec (i : Instr) (s : State) : Host.Outcome State Fault Refusal :=
  match i with
  | .nop => Sys2Proof.Machine.execNop s
  | .brk => Sys2Proof.Machine.execBrk s
  | .ifence => Sys2Proof.Machine.execIfence s
  | .tend => Sys2Proof.Machine.execTend s
  | .tyield => Sys2Proof.Machine.execTyield s
  | .rel => Sys2Proof.Machine.execRel s
  | .echo => Sys2Proof.Machine.execEcho s
  | .claim => Sys2Proof.Machine.execClaim s
  | .eret => Sys2Proof.Machine.execEret s
  | .trap n => Sys2Proof.Machine.execTrap n s
  | .sjoin id => Sys2Proof.Machine.execSjoin id s
  | .j imm => Sys2Proof.Machine.execJ imm s
  | .jl d imm => Sys2Proof.Machine.execJl d imm s
  | .jr a => Sys2Proof.Machine.execJr a s
  | .jlr d a => Sys2Proof.Machine.execJlr d a s
  | .bEq a b off => Sys2Proof.Machine.execBEq a b off s
  | .bNe a b off => Sys2Proof.Machine.execBNe a b off s
  | .bLt a b off => Sys2Proof.Machine.execBLt a b off s
  | .bGe a b off => Sys2Proof.Machine.execBGe a b off s
  | .bLtu a b off => Sys2Proof.Machine.execBLtu a b off s
  | .bGeu a b off => Sys2Proof.Machine.execBGeu a b off s
  | .bany c a b off => Sys2Proof.Machine.execBany c a b off s
  | .ball c a b off => Sys2Proof.Machine.execBall c a b off s
  | .split id c a b off => Sys2Proof.Machine.execSplit id c a b off s
  | .getc d idx => Sys2Proof.Machine.execGetc d idx s
  | .setc d idx => Sys2Proof.Machine.execSetc d idx s
  | .rnd d => Sys2Proof.Machine.execRnd d s
  | .add d a b => Sys2Proof.Machine.execAdd d a b s
  | .sub d a b => Sys2Proof.Machine.execSub d a b s
  | .mul d a b => Sys2Proof.Machine.execMul d a b s
  | .mulh d a b => Sys2Proof.Machine.execMulh d a b s
  | .mulhu d a b => Sys2Proof.Machine.execMulhu d a b s
  | .div d a b => Sys2Proof.Machine.execDiv d a b s
  | .divu d a b => Sys2Proof.Machine.execDivu d a b s
  | .rem d a b => Sys2Proof.Machine.execRem d a b s
  | .remu d a b => Sys2Proof.Machine.execRemu d a b s
  | .and d a b => Sys2Proof.Machine.execAnd d a b s
  | .or d a b => Sys2Proof.Machine.execOr d a b s
  | .xor d a b => Sys2Proof.Machine.execXor d a b s
  | .andn d a b => Sys2Proof.Machine.execAndn d a b s
  | .sll d a b => Sys2Proof.Machine.execSll d a b s
  | .srl d a b => Sys2Proof.Machine.execSrl d a b s
  | .sra d a b => Sys2Proof.Machine.execSra d a b s
  | .rol d a b => Sys2Proof.Machine.execRol d a b s
  | .ror d a b => Sys2Proof.Machine.execRor d a b s
  | .slt d a b => Sys2Proof.Machine.execSlt d a b s
  | .sltu d a b => Sys2Proof.Machine.execSltu d a b s
  | .min d a b => Sys2Proof.Machine.execMin d a b s
  | .max d a b => Sys2Proof.Machine.execMax d a b s
  | .minu d a b => Sys2Proof.Machine.execMinu d a b s
  | .maxu d a b => Sys2Proof.Machine.execMaxu d a b s
  | .fsl d a b => Sys2Proof.Machine.execFsl d a b s
  | .fsr d a b => Sys2Proof.Machine.execFsr d a b s
  | .csel d a b => Sys2Proof.Machine.execCsel d a b s
  | .clz d a => Sys2Proof.Machine.execClz d a s
  | .ctz d a => Sys2Proof.Machine.execCtz d a s
  | .popc d a => Sys2Proof.Machine.execPopc d a s
  | .sextB d a => Sys2Proof.Machine.execSextB d a s
  | .sextH d a => Sys2Proof.Machine.execSextH d a s
  | .sextW d a => Sys2Proof.Machine.execSextW d a s
  | .zextB d a => Sys2Proof.Machine.execZextB d a s
  | .zextH d a => Sys2Proof.Machine.execZextH d a s
  | .zextW d a => Sys2Proof.Machine.execZextW d a s
  | .bswap d a => Sys2Proof.Machine.execBswap d a s
  | .addi d a imm => Sys2Proof.Machine.execAddi d a imm s
  | .andi d a imm => Sys2Proof.Machine.execAndi d a imm s
  | .ori d a imm => Sys2Proof.Machine.execOri d a imm s
  | .xori d a imm => Sys2Proof.Machine.execXori d a imm s
  | .slli d a imm => Sys2Proof.Machine.execSlli d a imm s
  | .srli d a imm => Sys2Proof.Machine.execSrli d a imm s
  | .srai d a imm => Sys2Proof.Machine.execSrai d a imm s
  | .slti d a imm => Sys2Proof.Machine.execSlti d a imm s
  | .sltiu d a imm => Sys2Proof.Machine.execSltiu d a imm s
  | .li d imm => Sys2Proof.Machine.execLi d imm s
  | .lih d imm => Sys2Proof.Machine.execLih d imm s
  | .ldB d a imm => Sys2Proof.Machine.execLdB d a imm s
  | .ldBu d a imm => Sys2Proof.Machine.execLdBu d a imm s
  | .ldH d a imm => Sys2Proof.Machine.execLdH d a imm s
  | .ldHu d a imm => Sys2Proof.Machine.execLdHu d a imm s
  | .ldW d a imm => Sys2Proof.Machine.execLdW d a imm s
  | .ldWu d a imm => Sys2Proof.Machine.execLdWu d a imm s
  | .ldD d a imm => Sys2Proof.Machine.execLdD d a imm s
  | .ldAcqW d a imm => Sys2Proof.Machine.execLdAcqW d a imm s
  | .ldAcqD d a imm => Sys2Proof.Machine.execLdAcqD d a imm s
  | .stB d a imm => Sys2Proof.Machine.execStB d a imm s
  | .stH d a imm => Sys2Proof.Machine.execStH d a imm s
  | .stW d a imm => Sys2Proof.Machine.execStW d a imm s
  | .stD d a imm => Sys2Proof.Machine.execStD d a imm s
  | .stRelW d a imm => Sys2Proof.Machine.execStRelW d a imm s
  | .stRelD d a imm => Sys2Proof.Machine.execStRelD d a imm s
  | .amoAdd d a b => Sys2Proof.Machine.execAmoAdd d a b s
  | .amoAnd d a b => Sys2Proof.Machine.execAmoAnd d a b s
  | .amoOr d a b => Sys2Proof.Machine.execAmoOr d a b s
  | .amoXor d a b => Sys2Proof.Machine.execAmoXor d a b s
  | .amoMin d a b => Sys2Proof.Machine.execAmoMin d a b s
  | .amoMax d a b => Sys2Proof.Machine.execAmoMax d a b s
  | .amoMinu d a b => Sys2Proof.Machine.execAmoMinu d a b s
  | .amoMaxu d a b => Sys2Proof.Machine.execAmoMaxu d a b s
  | .amoSwap d a b => Sys2Proof.Machine.execAmoSwap d a b s
  | .amoFadd d a b => Sys2Proof.Machine.execAmoFadd d a b s
  | .amoCas d a b => Sys2Proof.Machine.execAmoCas d a b s
  | .push a b => Sys2Proof.Machine.execPush a b s
  | .pop a b => Sys2Proof.Machine.execPop a b s
  | .faddF32 d a b => Sys2Proof.Machine.execFaddF32 d a b s
  | .fsubF32 d a b => Sys2Proof.Machine.execFsubF32 d a b s
  | .fmulF32 d a b => Sys2Proof.Machine.execFmulF32 d a b s
  | .fdivF32 d a b => Sys2Proof.Machine.execFdivF32 d a b s
  | .fsqrtF32 d a => Sys2Proof.Machine.execFsqrtF32 d a s
  | .fminF32 d a b => Sys2Proof.Machine.execFminF32 d a b s
  | .fmaxF32 d a b => Sys2Proof.Machine.execFmaxF32 d a b s
  | .feqF32 d a b => Sys2Proof.Machine.execFeqF32 d a b s
  | .fltF32 d a b => Sys2Proof.Machine.execFltF32 d a b s
  | .fleF32 d a b => Sys2Proof.Machine.execFleF32 d a b s
  | .fclassF32 d a => Sys2Proof.Machine.execFclassF32 d a s
  | .fnegF32 d a => Sys2Proof.Machine.execFnegF32 d a s
  | .fabsF32 d a => Sys2Proof.Machine.execFabsF32 d a s
  | .fmaF32 d a b => Sys2Proof.Machine.execFmaF32 d a b s
  | .fmsF32 d a b => Sys2Proof.Machine.execFmsF32 d a b s
  | .faddF64 d a b => Sys2Proof.Machine.execFaddF64 d a b s
  | .fsubF64 d a b => Sys2Proof.Machine.execFsubF64 d a b s
  | .fmulF64 d a b => Sys2Proof.Machine.execFmulF64 d a b s
  | .fdivF64 d a b => Sys2Proof.Machine.execFdivF64 d a b s
  | .fsqrtF64 d a => Sys2Proof.Machine.execFsqrtF64 d a s
  | .fminF64 d a b => Sys2Proof.Machine.execFminF64 d a b s
  | .fmaxF64 d a b => Sys2Proof.Machine.execFmaxF64 d a b s
  | .feqF64 d a b => Sys2Proof.Machine.execFeqF64 d a b s
  | .fltF64 d a b => Sys2Proof.Machine.execFltF64 d a b s
  | .fleF64 d a b => Sys2Proof.Machine.execFleF64 d a b s
  | .fclassF64 d a => Sys2Proof.Machine.execFclassF64 d a s
  | .fnegF64 d a => Sys2Proof.Machine.execFnegF64 d a s
  | .fabsF64 d a => Sys2Proof.Machine.execFabsF64 d a s
  | .fmaF64 d a b => Sys2Proof.Machine.execFmaF64 d a b s
  | .fmsF64 d a b => Sys2Proof.Machine.execFmsF64 d a b s
  | .fcvtF32I64 d a => Sys2Proof.Machine.execFcvtF32I64 d a s
  | .fcvtF32N64 d a => Sys2Proof.Machine.execFcvtF32N64 d a s
  | .fcvtI64F32 d a => Sys2Proof.Machine.execFcvtI64F32 d a s
  | .fcvtN64F32 d a => Sys2Proof.Machine.execFcvtN64F32 d a s
  | .fcvtF64I64 d a => Sys2Proof.Machine.execFcvtF64I64 d a s
  | .fcvtF64N64 d a => Sys2Proof.Machine.execFcvtF64N64 d a s
  | .fcvtI64F64 d a => Sys2Proof.Machine.execFcvtI64F64 d a s
  | .fcvtN64F64 d a => Sys2Proof.Machine.execFcvtN64F64 d a s
  | .fcvtF64F32 d a => Sys2Proof.Machine.execFcvtF64F32 d a s
  | .fcvtF32F64 d a => Sys2Proof.Machine.execFcvtF32F64 d a s
  | .fcvtBf16F32 d a => Sys2Proof.Machine.execFcvtBf16F32 d a s
  | .fcvtF32Bf16 d a => Sys2Proof.Machine.execFcvtF32Bf16 d a s
  | .amov d a => Sys2Proof.Machine.execAmov d a s
  | .aset d a z => Sys2Proof.Machine.execAset d a z s
  | .aadd d a b => Sys2Proof.Machine.execAadd d a b s
  | .amovs d a => Sys2Proof.Machine.execAmovs d a s
  | .aaddi d a imm => Sys2Proof.Machine.execAaddi d a imm s
  | .smine o => Sys2Proof.Machine.execSmine o s
  | .act n a => Sys2Proof.Machine.execAct n a s
  | .actz n => Sys2Proof.Machine.execActz n s
  | .wb n => Sys2Proof.Machine.execWb n s
  | .wbto n a => Sys2Proof.Machine.execWbto n a s
  | .pre n => Sys2Proof.Machine.execPre n s
  | .rcopy n a src => Sys2Proof.Machine.execRcopy n a src s
  | .rfsh n => Sys2Proof.Machine.execRfsh n s
  | .shut n k => Sys2Proof.Machine.execShut n k s
  | .reopen n k => Sys2Proof.Machine.execReopen n k s
  | .pstat d n => Sys2Proof.Machine.execPstat d n s
  | .rshufRot wd ws k => Sys2Proof.Machine.execRshufRot wd ws k s
  | .rshufXor wd ws k => Sys2Proof.Machine.execRshufXor wd ws k s
  | .rshufRev wd ws => Sys2Proof.Machine.execRshufRev wd ws s
  | .rshufBcast wd ws k => Sys2Proof.Machine.execRshufBcast wd ws k s
  | .vadd o => Sys2Proof.Machine.execVadd o s
  | .vsub o => Sys2Proof.Machine.execVsub o s
  | .vmul o => Sys2Proof.Machine.execVmul o s
  | .vfma o => Sys2Proof.Machine.execVfma o s
  | .vfms o => Sys2Proof.Machine.execVfms o s
  | .vfnma o => Sys2Proof.Machine.execVfnma o s
  | .vmin o => Sys2Proof.Machine.execVmin o s
  | .vmax o => Sys2Proof.Machine.execVmax o s
  | .vabs o => Sys2Proof.Machine.execVabs o s
  | .vneg o => Sys2Proof.Machine.execVneg o s
  | .vdiv o => Sys2Proof.Machine.execVdiv o s
  | .vsqrt o => Sys2Proof.Machine.execVsqrt o s
  | .vrcp o => Sys2Proof.Machine.execVrcp o s
  | .vrsq o => Sys2Proof.Machine.execVrsq o s
  | .vexp2 o => Sys2Proof.Machine.execVexp2 o s
  | .vlog2 o => Sys2Proof.Machine.execVlog2 o s
  | .vmulh o => Sys2Proof.Machine.execVmulh o s
  | .vadds o => Sys2Proof.Machine.execVadds o s
  | .vsubs o => Sys2Proof.Machine.execVsubs o s
  | .vand o => Sys2Proof.Machine.execVand o s
  | .vor o => Sys2Proof.Machine.execVor o s
  | .vxor o => Sys2Proof.Machine.execVxor o s
  | .vnot o => Sys2Proof.Machine.execVnot o s
  | .vandn o => Sys2Proof.Machine.execVandn o s
  | .vsll o => Sys2Proof.Machine.execVsll o s
  | .vsrl o => Sys2Proof.Machine.execVsrl o s
  | .vsra o => Sys2Proof.Machine.execVsra o s
  | .vfsl o => Sys2Proof.Machine.execVfsl o s
  | .vfsr o => Sys2Proof.Machine.execVfsr o s
  | .vclz o => Sys2Proof.Machine.execVclz o s
  | .vpopc o => Sys2Proof.Machine.execVpopc o s
  | .vcmpEq o => Sys2Proof.Machine.execVcmpEq o s
  | .vcmpNe o => Sys2Proof.Machine.execVcmpNe o s
  | .vcmpLt o => Sys2Proof.Machine.execVcmpLt o s
  | .vcmpLe o => Sys2Proof.Machine.execVcmpLe o s
  | .vcmpGt o => Sys2Proof.Machine.execVcmpGt o s
  | .vcmpGe o => Sys2Proof.Machine.execVcmpGe o s
  | .mand o => Sys2Proof.Machine.execMand o s
  | .mor o => Sys2Proof.Machine.execMor o s
  | .mxor o => Sys2Proof.Machine.execMxor o s
  | .mnot o => Sys2Proof.Machine.execMnot o s
  | .mpopc o => Sys2Proof.Machine.execMpopc o s
  | .mfirst o => Sys2Proof.Machine.execMfirst o s
  | .vsel o => Sys2Proof.Machine.execVsel o s
  | .vmov o => Sys2Proof.Machine.execVmov o s
  | .vbcast o => Sys2Proof.Machine.execVbcast o s
  | .vslideUp o => Sys2Proof.Machine.execVslideUp o s
  | .vslideDn o => Sys2Proof.Machine.execVslideDn o s
  | .vcompress o => Sys2Proof.Machine.execVcompress o s
  | .vidx o => Sys2Proof.Machine.execVidx o s
  | .vcvt o => Sys2Proof.Machine.execVcvt o s
  | .vwfma o => Sys2Proof.Machine.execVwfma o s
  | .vdot o => Sys2Proof.Machine.execVdot o s
  | .vqenc o => Sys2Proof.Machine.execVqenc o s
  | .vqdec o => Sys2Proof.Machine.execVqdec o s
  | .vredSum o => Sys2Proof.Machine.execVredSum o s
  | .vredMax o => Sys2Proof.Machine.execVredMax o s
  | .vredMin o => Sys2Proof.Machine.execVredMin o s
  | .vredAnd o => Sys2Proof.Machine.execVredAnd o s
  | .vredOr o => Sys2Proof.Machine.execVredOr o s
  | .vgmax o => Sys2Proof.Machine.execVgmax o s
  | .vscan o => Sys2Proof.Machine.execVscan o s
  | .vld o => Sys2Proof.Machine.execVld o s
  | .vlds o => Sys2Proof.Machine.execVlds o s
  | .vldx o => Sys2Proof.Machine.execVldx o s
  | .vst o => Sys2Proof.Machine.execVst o s
  | .vsts o => Sys2Proof.Machine.execVsts o s
  | .vstx o => Sys2Proof.Machine.execVstx o s
  | .vstb o => Sys2Proof.Machine.execVstb o s
  | .vldl o => Sys2Proof.Machine.execVldl o s
  | .vstc o => Sys2Proof.Machine.execVstc o s
  | .vspill o => Sys2Proof.Machine.execVspill o s
  | .vfill o => Sys2Proof.Machine.execVfill o s
  | .vlq o => Sys2Proof.Machine.execVlq o s
  | .cpy o => Sys2Proof.Machine.execCpy o s
  | .cpy2d o => Sys2Proof.Machine.execCpy2d o s
  | .rsct o => Sys2Proof.Machine.execRsct o s
  | .coll o => Sys2Proof.Machine.execColl o s
  | .red o => Sys2Proof.Machine.execRed o s
  | .gath o => Sys2Proof.Machine.execGath o s
  | .nmo o => Sys2Proof.Machine.execNmo o s
  | .mmma o => Sys2Proof.Machine.execMmma o s
  | .mdrain o => Sys2Proof.Machine.execMdrain o s
  | .mattach d a => Sys2Proof.Machine.execMattach d a s
  | .mdetach => Sys2Proof.Machine.execMdetach s
  | .mshape a => Sys2Proof.Machine.execMshape a s
  | .mzero d => Sys2Proof.Machine.execMzero d s
  | .kwait k path scope => Sys2Proof.Machine.execKwait k path scope s
  | .kwaitNt d k scope => Sys2Proof.Machine.execKwaitNt d k scope s
  | .kpoll d k => Sys2Proof.Machine.execKpoll d k s
  | .kcancel k => Sys2Proof.Machine.execKcancel k s
  | .kdetach d k => Sys2Proof.Machine.execKdetach d k s
  | .kadopt k a => Sys2Proof.Machine.execKadopt k a s
  | .kprio k a => Sys2Proof.Machine.execKprio k a s
  | .kinfo d k w => Sys2Proof.Machine.execKinfo d k w s
  | .fence scope => Sys2Proof.Machine.execFence scope s
  | .xfence p1 p2 scope => Sys2Proof.Machine.execXfence p1 p2 scope s
  | .fbar bid scope => Sys2Proof.Machine.execFbar bid scope s
  | .bwait bid => Sys2Proof.Machine.execBwait bid s
  | .ipost id a => Sys2Proof.Machine.execIpost id a s
  | .iwait id a => Sys2Proof.Machine.execIwait id a s
  | .await v a => Sys2Proof.Machine.execAwait v a s
  | .tspawn o => Sys2Proof.Machine.execTspawn o s
  | .launch o => Sys2Proof.Machine.execLaunch o s
  | .tlbinv a b => Sys2Proof.Machine.execTlbinv a b s
  | .issueAfterInterlock core bank => Sys2Proof.Machine.execIssueAfterInterlock core bank s
  | .openingEnd core bank sg => Sys2Proof.Machine.execOpeningEnd core bank sg s
  | .writingEnd core bank sg => Sys2Proof.Machine.execWritingEnd core bank sg s
  | .closingEnd core bank sg => Sys2Proof.Machine.execClosingEnd core bank sg s
  | .claimEviction core bank sg => Sys2Proof.Machine.execClaimEviction core bank sg s
  | .refreshTick core bank sg => Sys2Proof.Machine.execRefreshTick core bank sg s
  | .refreshDeadlineTrap core bank stop => Sys2Proof.Machine.execRefreshDeadlineTrap core bank stop s
  | .forcedRefresh core bank sg => Sys2Proof.Machine.execForcedRefresh core bank sg s
  | .tempSensorUpdate core bank hot => Sys2Proof.Machine.execTempSensorUpdate core bank hot s
  | .bondRepair core => Sys2Proof.Machine.execBondRepair core s
  | .translationWalkEnd core bank va => Sys2Proof.Machine.execTranslationWalkEnd core bank va s
  | .kwaitEnd core bank => Sys2Proof.Machine.execKwaitEnd core bank s
  | .awaitRecheck core bank => Sys2Proof.Machine.execAwaitRecheck core bank s
  | .bwaitEnd core bank => Sys2Proof.Machine.execBwaitEnd core bank s
  | .fbarArrive core bank => Sys2Proof.Machine.execFbarArrive core bank s
  | .iwaitEnd core bank => Sys2Proof.Machine.execIwaitEnd core bank s
  | .tendWaitEnd core bank => Sys2Proof.Machine.execTendWaitEnd core bank s
  | .mdetachWaitEnd core bank => Sys2Proof.Machine.execMdetachWaitEnd core bank s
  | .mzeroWaitEnd core bank => Sys2Proof.Machine.execMzeroWaitEnd core bank s
  | .xfenceWaitEnd core bank => Sys2Proof.Machine.execXfenceWaitEnd core bank s
  | .fifoWaitEnd core bank => Sys2Proof.Machine.execFifoWaitEnd core bank s
  | .opStart op => Sys2Proof.Machine.execOpStart op s
  | .copyGranule op => Sys2Proof.Machine.execCopyGranule op s
  | .rsctTrain op => Sys2Proof.Machine.execRsctTrain op s
  | .collGranule op remote => Sys2Proof.Machine.execCollGranule op remote s
  | .redGranule op => Sys2Proof.Machine.execRedGranule op s
  | .gathGranule op => Sys2Proof.Machine.execGathGranule op s
  | .nmoGranule op => Sys2Proof.Machine.execNmoGranule op s
  | .mmmaKstep op => Sys2Proof.Machine.execMmmaKstep op s
  | .mdrainGranule op => Sys2Proof.Machine.execMdrainGranule op s
  | .enginePriorityAging op => Sys2Proof.Machine.execEnginePriorityAging op s
  | .launchStart op => Sys2Proof.Machine.execLaunchStart op s
  | .tspawnStart op => Sys2Proof.Machine.execTspawnStart op s
  | .taskReady launch task => Sys2Proof.Machine.execTaskReady launch task s
  | .dispatchOffer core => Sys2Proof.Machine.execDispatchOffer core s
  | .preemptionTake core bank stop => Sys2Proof.Machine.execPreemptionTake core bank stop s
  | .preemptHandlerTimeout core bank => Sys2Proof.Machine.execPreemptHandlerTimeout core bank s
  | .seatSave core bank => Sys2Proof.Machine.execSeatSave core bank s
  | .schedulerStateError launch task counter => Sys2Proof.Machine.execSchedulerStateError launch task counter s
  | .vote launch task => Sys2Proof.Machine.execVote launch task s
  | .voteTimeout launch task => Sys2Proof.Machine.execVoteTimeout launch task s
  | .sramModeWrite quad bank mode => Sys2Proof.Machine.execSramModeWrite quad bank mode s
  | .sramFifoClr quad bank => Sys2Proof.Machine.execSramFifoClr quad bank s
  | .sramModeChangeEnd quad bank => Sys2Proof.Machine.execSramModeChangeEnd quad bank s
  | .migreqPromote sill pte => Sys2Proof.Machine.execMigreqPromote sill pte s
  | .migreqDemote sill pte => Sys2Proof.Machine.execMigreqDemote sill pte s
  | .migrationStart sill => Sys2Proof.Machine.execMigrationStart sill s
  | .migrationFinish sill => Sys2Proof.Machine.execMigrationFinish sill s
  | .migrationAutoSelect sill demote pte frame => Sys2Proof.Machine.execMigrationAutoSelect sill demote pte frame s
  | .flitTransmit link => Sys2Proof.Machine.execFlitTransmit link s
  | .flitReceive link flit => Sys2Proof.Machine.execFlitReceive link flit s
  | .ackTimeout link => Sys2Proof.Machine.execAckTimeout link s
  | .strandDeath link strand => Sys2Proof.Machine.execStrandDeath link strand s
  | .linkTimeout link => Sys2Proof.Machine.execLinkTimeout link s
  | .peerTimeout op => Sys2Proof.Machine.execPeerTimeout op s
  | .linkTrainingEnd link answered txDead rxDead => Sys2Proof.Machine.execLinkTrainingEnd link answered txDead rxDead s
  | .lnkctlEnSet link => Sys2Proof.Machine.execLnkctlEnSet link s
  | .lnkctlEnClear link => Sys2Proof.Machine.execLnkctlEnClear link s
  | .lnkctlRetrain link => Sys2Proof.Machine.execLnkctlRetrain link s
  | .lnkctlParkWrite link park => Sys2Proof.Machine.execLnkctlParkWrite link park s
  | .wavelengthWakeEnd link => Sys2Proof.Machine.execWavelengthWakeEnd link s
  | .peerFailedClear n => Sys2Proof.Machine.execPeerFailedClear n s
  | .lqQuiet link => Sys2Proof.Machine.execLqQuiet link s
  | .lqcfgWrite link v => Sys2Proof.Machine.execLqcfgWrite link v s
  | .lattolWrite v => Sys2Proof.Machine.execLattolWrite v s
  | .coreIdleEntry core => Sys2Proof.Machine.execCoreIdleEntry core s
  | .coreDozeEntry core => Sys2Proof.Machine.execCoreDozeEntry core s
  | .stackNapEntry stack => Sys2Proof.Machine.execStackNapEntry stack s
  | .powerWake core => Sys2Proof.Machine.execPowerWake core s
  | .powerExitEnd core => Sys2Proof.Machine.execPowerExitEnd core s
  | .pwrcmdShutter => Sys2Proof.Machine.execPwrcmdShutter s
  | .pwrcmdResume => Sys2Proof.Machine.execPwrcmdResume s
  | .pwrcmdResumeDiscard => Sys2Proof.Machine.execPwrcmdResumeDiscard s
  | .platformPowerEvent => Sys2Proof.Machine.execPlatformPowerEvent s
  | .supplyDip => Sys2Proof.Machine.execSupplyDip s
  | .supplyFail => Sys2Proof.Machine.execSupplyFail s
  | .shutterPhase1 => Sys2Proof.Machine.execShutterPhase1 s
  | .shutterPhase2 => Sys2Proof.Machine.execShutterPhase2 s
  | .shutterPhase3 => Sys2Proof.Machine.execShutterPhase3 s
  | .shutterGranuleTimeout op => Sys2Proof.Machine.execShutterGranuleTimeout op s
  | .shutterPhase4 => Sys2Proof.Machine.execShutterPhase4 s
  | .shutterLinkTimeout link => Sys2Proof.Machine.execShutterLinkTimeout link s
  | .shutterPhase5 => Sys2Proof.Machine.execShutterPhase5 s
  | .resumptionEnd => Sys2Proof.Machine.execResumptionEnd s
  | .autoResume => Sys2Proof.Machine.execAutoResume s
  | .dutyUpdate temps powers watts => Sys2Proof.Machine.execDutyUpdate temps powers watts s
  | .powerFloorTimeout => Sys2Proof.Machine.execPowerFloorTimeout s
  | .pcapWrite v mgmt => Sys2Proof.Machine.execPcapWrite v mgmt s
  | .thrFloorWrite v => Sys2Proof.Machine.execThrFloorWrite v s
  | .mgmtTelemetry => Sys2Proof.Machine.execMgmtTelemetry s
  | .telemetrySnapshot => Sys2Proof.Machine.execTelemetrySnapshot s
  | .mgmtLogExport => Sys2Proof.Machine.execMgmtLogExport s
  | .mgmtFirmware image signed => Sys2Proof.Machine.execMgmtFirmware image signed s
  | .mgmtPowerCap limit lock => Sys2Proof.Machine.execMgmtPowerCap limit lock s
  | .mgmtShutter op => Sys2Proof.Machine.execMgmtShutter op s
  | .mgmtOff => Sys2Proof.Machine.execMgmtOff s
  | .mgmtQuarantine core on => Sys2Proof.Machine.execMgmtQuarantine core on s
  | .mgmtMemoryRead pa n => Sys2Proof.Machine.execMgmtMemoryRead pa n s
  | .elpostAppend v => Sys2Proof.Machine.execElpostAppend v s
  | .quarWrite word v => Sys2Proof.Machine.execQuarWrite word v s
  | .powerOnReset => Sys2Proof.Machine.execPowerOnReset s
  | .bootFirmwareLoad fromFlash ok => Sys2Proof.Machine.execBootFirmwareLoad fromFlash ok s
  | .bootSillInit fuses ok => Sys2Proof.Machine.execBootSillInit fuses ok s
  | .bootOsLoad image => Sys2Proof.Machine.execBootOsLoad image s
  | .bootStep5Timeout => Sys2Proof.Machine.execBootStep5Timeout s
  | .ccstart mask => Sys2Proof.Machine.execCcstart mask s
  | .ccbootDone => Sys2Proof.Machine.execCcbootDone s
  | .ccbarCountWrite n count => Sys2Proof.Machine.execCcbarCountWrite n count s
  | .ccTimer cc => Sys2Proof.Machine.execCcTimer cc s
  | .lcmdPause launch => Sys2Proof.Machine.execLcmdPause launch s
  | .lcmdResume launch => Sys2Proof.Machine.execLcmdResume launch s
  | .lcmdCancel launch => Sys2Proof.Machine.execLcmdCancel launch s
  | .lcmdExport launch task => Sys2Proof.Machine.execLcmdExport launch task s
  | .lcmdRetarget launch task => Sys2Proof.Machine.execLcmdRetarget launch task s
  | .lcmdComplete => Sys2Proof.Machine.execLcmdComplete s
  | .ctxPoolWrite off v => Sys2Proof.Machine.execCtxPoolWrite off v s
  | .registerWrite pa v => Sys2Proof.Machine.execRegisterWrite pa v s
  | .supplySteady => Sys2Proof.Machine.execSupplySteady s
  | .wavelengthDark link => Sys2Proof.Machine.execWavelengthDark link s
  | .seatFormingEnd core bank => Sys2Proof.Machine.execSeatFormingEnd core bank s

end Sys2Proof.Machine
end

