-- ==== Sys2Proof/Machine/Turn.lean ====
section
/-! DEFINITION. Sys2Proof/Machine/Turn.lean: what moves next (log 1): the steps that an instruction or a register write has set off, the
agenda, an agent that issues (R97-R101, R345), and, with an empty agenda, the step that brings the focus on. -/

namespace Sys2Proof.Machine

/-! ## Steps that have been set off -/

/-- Run a step that has been set off. -/
def State.runDue (s : State) (d : Due) : State :=
  match d with
  | .peerLost n => (s.losePeer n).sweep
  | .launchStart i => (s.launchStart i).sweep
  | .tspawnStart i => (s.tspawnStart i).sweep
  | .sramMode q b m => s.sramMode q b m
  | .sramClr q b => s.sramClear q b
  | .migrate k d p => s.migrate k d p
  | .linkEn l => s.enSet l
  | .linkDis l => s.enClear l
  | .retrain l => s.retrain l
  | .park l p => (s.parkWrite l p).sweep
  | .peerClear n => s.clearPeer n
  | .lqcfg l v => s.lqcfg l v
  | .lattol v => s.setLattol v
  | .pwrcmd op => if op = 1 then (s.trigger 3).sweep else s.askResume (op == 3)
  | .pcap v => s.setPcap v false
  | .thr v => s.setThr v
  | .elpost v => s.postLog v
  | .quar w v => s.quarWrite w v
  | .ccstart m => s.ccstart m
  | .ccboot => s.ccbootDone
  | .ccbar n c => s.ccbarCount n c
  | .lcmd op l t =>
    if op = 1 then s.pauseLaunch l
    else if op = 2 then s.resumeLaunch l
    else if op = 3 then (s.command l (fun _ => (s.cancelLaunch l).endCmd 0)).sweep
    else if op = 4 then s.exportTask l t
    else s.retarget l t
  | .ctxPool o v => s.ctxPool o v
  | .register pa v => match devReg (pa / 8 * 8) with | some r => s.capWidth v r | none => s

/-- A step that has been set off may run: its unit is not busy with one before it (R292, R295, R380). -/
def State.dueReady (s : State) (d : Due) : Bool :=
  match d with
  | .sramMode q b _ => !(s.sram q b).busy
  | .migrate k _ _ => decide ((s.mig k).queue.length < 64)
  | .lcmd _ _ _ => s.lctl.cur.isNone
  | _ => true

/-- The next step that has been set off, and the state without it. -/
def State.nextDue (s : State) : Option (Due × State) :=
  match s.due with
  | d :: ds => if s.dueReady d then some (d, { s with due := ds }) else none
  | [] => none

/-! ## Issuing -/

/-- A minority that waits to be re-synchronised stands still (R336, R338). -/
def State.outvoted (s : State) (t : Seat) : Bool := (t.red.map (fun r => r.behind && !r.rolling)).getD false && t.handler.isNone && (passedVote (s.voters t.launch t.task)).isNone

/-- The part may issue: its seat issues or ends, no handler of another part runs (R342), the shutter sequence lets it (R409); a row command that
has begun in some bank goes on in any case (R167). -/
def State.mayIssue (s : State) (a : Agent) : Bool :=
  match s.seat? a.core a.base with
  | none => false
  | some t =>
    (t.part? a.seq).isSome && !s.outvoted t &&
      (if t.isCC then t.run == .running && (decide (s.power.depth < 6) || a.core == 1536)
       else if (s.part a).rowBegun then decide (s.power.phase < 3) && t.phase != .forming
       else (t.phase == .issuing || t.phase == .ending) && s.power.phase == 0 && (t.handler.isNone || t.handles (s.part a)))

/-- The next state of an outcome. -/
def nextOr (s : State) (r : Host.Outcome State Fault Refusal) : State := match r with | .next s' => s' | _ => s

/-- End the transition of a pane. -/
def State.settlePane (s : State) (c b n : Nat) : State :=
  let p := s.pane c b n
  match p.st with
  | .opening => nextOr s (execOpeningEnd c b n s)
  | .writing => nextOr s (execWritingEnd c b n s)
  | _ => nextOr s (execClosingEnd c b n s)

/-- The first pane of some banks in a transition. -/
def State.movingPane (s : State) (c : Nat) (bs : List Nat) : Option (Nat × Nat) :=
  (bs.flatMap (fun b => (List.range 12).map (fun n => (b, n)))).find? (fun x => (s.pane c x.1 x.2).moving)

/-- What is asynchronous and comes due at a part's boundary (R345): the refresh deadline, then the pre-emption; nothing while the part shuts down. -/
def State.asyncDue (s : State) (a : Agent) : Option State :=
  if s.power.phase != 0 then none
  else
    match s.deadlineDue a with
    | some x => some (s.deadline a x)
    | none =>
      let t := s.seat a
      if t.preempt && t.phase == .issuing && !preemptHeld t (s.part a) then some (s.preempt a) else none

/-- The asynchronous trap or pre-emption that the focus takes at its boundary, unless a trap of its own comes first (R345, R371), once a row command
that has begun is complete (R167). A minority is re-synchronised there, and a rollback that waits goes on (R338, R340), which a pre-emption may stop. -/
def State.boundary (s : State) (a : Agent) : Option State :=
  let t := s.seat a
  let rolling := (t.red.map (·.rolling)).getD false
  if t.isCC then (if timerDue s t then some (s.takeTrap a 0x38 0 (s.part a).pc none) else none)
  else if (rolling || (t.red.map (·.behind)).getD false) && t.handler.isNone then
    some ((if rolling then s.asyncDue a else none).getD (s.vote t.launch t.task))
  else
    (s.asyncDue a).bind (fun s1 =>
      if s.rowsBegun a then (s.movingPane a.core (banksOf (s.part a).active)).map (fun x => s.settlePane a.core x.1 x.2)
      else some (s.ownTrap.getD s1))

/-- The next piece of the open convoy of the focus (R101): its element phase, or its next single instruction. -/
def runConvoy (s : State) : Host.Outcome State Fault Refusal :=
  match s.fpart.convoy with
  | none => .next s
  | some c =>
    match c.elems with
    | [] => match c.todo with | i :: _ => exec i.2 s | [] => .next s
    | [i] => exec i.2 s
    | is => .next (elemPhase (fun x => convoyOps x is) s)

/-- The focus issues: a waiting instruction runs again. -/
noncomputable def issue (s : State) : Host.Outcome State Fault Refusal :=
  match ensureConvoy (s.modPart s.focus (fun p => { p with wait := none })) with
  | .opened s1 => runConvoy s1
  | .ended s1 => .next s1

/-- An agent's turn on a core that runs. -/
noncomputable def turnAwake (s : State) (a : Agent) : Host.Outcome State Fault Refusal :=
  if !s.mayIssue a then .next s
  else
    match (if (s.part a).convoy.isNone || (s.part a).wait.isSome then s.boundary a else none) with
    | some s1 => .next s1
    | none => issue s

/-- An agent's turn. A core below RUN wakes for it, but a part that waits in a way of R405 wakes it only when its wait ends. -/
noncomputable def turnOf (s : State) (a : Agent) : Host.Outcome State Fault Refusal :=
  let s0 : State := { s with focus := a }
  let r := turnAwake (s0.wakeNow a.core) a
  if (s0.core a.core).power != .run && (s0.part a).quiet && ((nextOr s0 r).part a).quiet then .next s0 else r

/-! ## With an empty agenda -/

/-- A granule of a RUNNING operation. -/
def granuleStep (s : State) (i : Nat) : Host.Outcome State Fault Refusal :=
  match (s.op i).kind with
  | .cpy .. | .cpy2d .. => execCopyGranule i s
  | .rsct .. => execRsctTrain i s
  | .coll .. => execCollGranule i [] s
  | .red .. => execRedGranule i s
  | .gath .. => execGathGranule i s
  | .nmo .. => execNmoGranule i s
  | .mmma .. => execMmmaKstep i s
  | .mdrain .. => execMdrainGranule i s
  | _ => .next s

/-! ### What holds an access -/

/-- Bring on what holds an access, but for a page that moves: a core wakes, a pane's transition ends or it is evicted, an SRAM bank changes its mode. None:
it holds nothing any more, or a pin holds it. -/
def State.driveRow (s : State) (w : Wait) : Option State :=
  match w with
  | .wake c => if (s.core c).power == .run then none else some (s.wakeNow c)
  | .claim c b n =>
    if !(s.pane c b n).claims then none
    else if (s.pane c b n).moving then some (s.settlePane c b n)
    else if (s.pane c b n).pins = 0 then some (s.evictNext c b n)
    else none
  | .sram q b => if (s.sram q b).busy then some (nextOr s (execSramModeChangeEnd q b s)) else none
  | _ => none

/-- Bring a migrator on. -/
def State.driveMig (s : State) (k : Nat) : Option State :=
  match migWait s k with
  | some w => s.driveRow w
  | none => some (if (s.mig k).cur.isSome then s.migFinish k else s.migStart k)

/-- Bring on what holds an access. -/
def State.driveHeld (s : State) (w : Wait) : Option State :=
  match w with
  | .moving pa => if notMoving s pa then none else (s.migs.find? (fun m => m.2.cur.isSome)).bind (fun m => s.driveMig m.1)
  | _ => s.driveRow w

/-- An agent of a launch that holds a seat, else what its tasks need next. -/
def State.driveLaunch (s : State) (n : Nat) : State :=
  match s.cores.findSome? (fun c => c.2.seats.findSome? (fun t => t.2.bind (fun x =>
      if !x.isCC && x.launch == n then (x.parts.find? (fun p => p.2.isSome)).map (fun p => Agent.mk c.1 t.1 p.1) else none))) with
  | some a => { s with focus := a }
  | none =>
    match (s.launch? n).bind (fun l => l.tasks.find? (fun t => (t.2.map (fun k => k.pooled || (k.st == .waiting && k.dep == 0))).getD false)) with
    | some (t, some k) =>
      if k.pooled then (((s.entryWait n t).bind (if s.waits.staging.contains (n, t) then s.driveHeld else fun _ => none)).getD ((k.replicas.foldl (fun x r => x.wakeNow (replicaCore k.core k.record.redund r)) s).offer k.core))
      else nextOr s (execTaskReady n t s)
    | _ => s

/-- Bring an operation on: what it waits for, its start, or its next granule. -/
def State.driveOp : Nat → State → Nat → State
  | 0, s, _ => s
  | fuel + 1, s, i =>
    let o := s.op i
    match o.kind, o.st, o.after with
    | _, .pending, some h => State.driveOp fuel s (entryOf h)
    | .launch _, .pending, none => nextOr s (execLaunchStart i s)
    | .tspawn _, .pending, none => nextOr s (execTspawnStart i s)
    | .launch _, .running, _ =>
      match s.launches.find? (fun l => (l.2.map (fun x => x.op == some i)).getD false) with
      | some l => s.driveLaunch l.1
      | none => s
    | .tspawn _, .running, _ =>
      match s.launches.find? (fun l => (l.2.map (fun x => x.tasks.any (fun t => (t.2.map (fun k => k.op == some i)).getD false))).getD false) with
      | some l => s.driveLaunch l.1
      | none => s
    | _, .pending, none => nextOr s (execOpStart i s)
    | _, .running, _ =>
      match o.wait with
      | some (.pane c b n) => s.settlePane c b n
      | some w => (s.driveHeld w).getD (nextOr s (granuleStep s i))
      | none => nextOr s (granuleStep s i)
    | _, _, _ => s

/-- The unit that a device write waits for; none when no unit is at work. -/
def State.driveDevices (s : State) : Option State :=
  if s.lctl.cur.isSome then
    match s.lctl.cur with
    | some (1, n, _) => some (if s.stands n then s.completeCmd else s.driveLaunch n)
    | _ => some ((s.cmdWait.bind s.driveHeld).getD s.completeCmd)
  else (s.migs.find? (fun m => m.2.cur.isSome || !m.2.queue.isEmpty)).bind (fun m => s.driveMig m.1)

/-- The focus moves. -/
def State.look (s : State) (a : Agent) : State := { s with focus := a }

/-- A seat that holds engine rows of a quad. -/
def State.rowHolder (s : State) (q : Nat) : Option Agent :=
  ((s.quad q).rows.findSome? (fun r => r.2)).bind (fun p => (s.seat? p.1 p.2).map (fun t => ⟨p.1, p.2, t.votePart⟩))

/-- Bring a vote on: the replica that performs its access, what holds the vote, one that has not arrived, the rows of a rollback. -/
def State.driveVote (s : State) (l t : Nat) : Option State :=
  let vs := s.voters l t
  match (if ((s.fseat.red.map (fun r => r.released && !r.performer)).getD false) then s.performing l t else none) with
  | some p => (vs.find? (fun v => v.core == p.1 && v.base == p.2)).map (fun v => s.look v.agent)
  | none =>
    match s.voteHeld l t with
    | some x => s.driveHeld x
    | none =>
      match vs.find? (fun v => v.red.rolling && !s.rowsFor v) with
      | some v => (s.rowHolder (v.core / 4)).map s.look
      | none =>
        if vs.any (fun v => v.red.rolling || v.red.behind) || vs.all (fun v => v.red.hold.isSome) then some (s.vote l t)
        else (vs.find? (fun v => v.red.hold.isNone && (v.core != s.focus.core || v.base != s.focus.base))).map (fun v => s.look v.agent)

/-- The step that brings on what the focus waits for; none: it tries again. -/
def State.driveWait (s : State) (w : Wait) : Option State :=
  let t := s.fseat
  match w with
  | .pane c b n => if (s.pane c b n).settled then none else some (s.settlePane c b n)
  | .pin c b n =>
    if (s.pane c b n).pins = 0 then none
    else ((s.opsWhere (fun o => o.st == .running && o.core == c && o.kind.panes.contains n)).head?).map (fun i => State.driveOp 4 s i)
  | .claim c b n =>
    if (s.pane c b n).claims && !(s.pane c b n).moving && (s.pane c b n).pins != 0 then
      ((s.opsWhere (fun o => o.st == .running && o.core == c && o.kind.panes.contains n)).head?).map (fun i => State.driveOp 4 s i)
    else s.driveRow w
  | .moving _ => s.driveHeld w
  | .sram _ _ => s.driveRow w
  | .wake _ => s.driveRow w
  | .sjoin _ =>
    (t.parts.find? (fun p => (p.2.map (fun x => p.1 != s.focus.seq && (match x.wait with | some (.sjoin _) => false | _ => true))).getD false)).map
      (fun p => { s with focus := { s.focus with seq := p.1 } })
  | .op i => if opOver s i then none else some (State.driveOp 4 s i)
  | .tend i => if opOver s i then none else some (State.driveOp 4 s i)
  | .mx i => if opOver s i then none else some (State.driveOp 4 s i)
  | .fence => (s.movingPane s.focus.core t.banks).map (fun x => s.settlePane s.focus.core x.1 x.2)
  | .vote => s.driveVote t.launch t.task
  | .echo => ((s.voters t.launch t.task).find? (fun v => v.red.lead && (v.core != s.focus.core || v.base != s.focus.base))).map (fun v => s.look v.agent)
  | .device => s.driveDevices
  | _ => none

/-- The next phase of a shutter sequence, or the next step of a resumption; none when it waits. -/
def State.drivePower (s : State) : Option (Host.Outcome State Fault Refusal) :=
  let goes (r : Host.Outcome State Fault Refusal) : Option (Host.Outcome State Fault Refusal) := if nextOr s r = s then none else some r
  match s.power.phase with
  | 1 => goes (execShutterPhase1 s)
  | 2 => goes (execShutterPhase2 s)
  | 3 =>
    match s.opsWhere (fun o => o.inFlight) with
    | i :: _ => goes (.next (State.driveOp 4 s i))
    | [] => goes (execShutterPhase3 s)
  | 4 => goes (execShutterPhase4 s)
  | 5 => goes (execShutterPhase5 s)
  | 7 => goes (execResumptionEnd s)
  | _ => none

/-- Nothing is due: reference time passes. -/
def State.idle (s : State) : State := { s with ns := s.ns + 1 }

/-- The next boot step that needs no input (R376). -/
def State.driveBoot (s : State) : Host.Outcome State Fault Refusal :=
  if s.boot.failed then .next s.idle
  else
    match s.boot.step with
    | 0 => execPowerOnReset s
    | 1 => execBootFirmwareLoad true true s
    | 2 => execBootSillInit [] true s
    | _ => .next s.idle

/-- An agent that may issue. -/
def State.anyAgent (s : State) : Option Agent :=
  s.cores.findSome? (fun c => c.2.seats.findSome? (fun t => t.2.bind (fun x =>
    (x.parts.find? (fun p => p.2.isSome && s.mayIssue ⟨c.1, t.1, p.1⟩)).map (fun p => Agent.mk c.1 t.1 p.1))))

/-- The focus cannot issue: its seat forms or saves, another part runs its handler, a power sequence or boot goes on; else another agent
comes into focus. -/
def State.driveOther (s : State) : Host.Outcome State Fault Refusal :=
  match s.drivePower with
  | some r => r
  | none =>
    match s.seat? s.focus.core s.focus.base with
    | some t =>
      match t.phase with
      | .forming => execSeatFormingEnd s.focus.core s.focus.base s
      | .saving =>
        match t.parts.find? (fun p => (p.2.map Part.rowBegun).getD false) with
        | some p => .next { s with focus := { s.focus with seq := p.1 } }
        | none =>
        match (s.saveWait t).bind s.driveHeld with
        | some s1 => .next s1
        | none => execSeatSave s.focus.core s.focus.base s
      | _ => other s
    | none => other s
where
  /-- Another agent, or boot. -/
  other (s : State) : Host.Outcome State Fault Refusal :=
    match s.anyAgent with
    | some a => .next { s with focus := a }
    | none => s.driveBoot

/-- What the part's own stores, the accepted packets and the management port's reads wait for. -/
def State.ownWait (s : State) : Option Wait :=
  (s.waits.posted.findSome? (postedWait s)).orElse (fun _ => (packetWait s).orElse (fun _ => readWait s))

/-- The step with an empty agenda. -/
noncomputable def freeTurn (s : State) : Host.Outcome State Fault Refusal :=
  match s.ownWait.bind s.driveHeld with
  | some s1 => .next s1
  | none =>
  if s.mayIssue s.focus then
    match (s.fpart.wait).bind s.driveWait with
    | some s1 => .next s1
    | none => turnOf s s.focus
  else s.driveOther

/-! ## One step -/

/-- An instruction that a part fetches is no step of the part. -/
def isEvent (i : Instr) : Bool := (encode i).isNone

/-- POWER_ON_RESET is all that happens to a part that is OFF. -/
def startsPart (i : Instr) : Bool := match i with | .powerOnReset => true | _ => false

/-- A peer has not performed an access: the operation ends FAULTED (R290). -/
def State.deny (s : State) (i va : Nat) : State :=
  let o := s.op i
  if o.live && o.st == .running && !(s.opPeers i).isEmpty then
    ((s.endOp i ⟨.faulted, 0x10, BitVec.ofNat 64 va, o.lostIndex⟩).dropMembers o).sweep
  else s

/-- An agent's path takes a granule of memory ahead of its accesses (R303, R305; log 7): whatever no edge orders before them it may then miss. Fetch is left
out, and so are replicas. -/
def State.takeAhead (s : State) (core base : Nat) (path : BitVec 4) (pa : Nat) : State :=
  let g := pa / 64
  let ok :=
    match s.seat? core base with
    | none => false
    | some t => t.red.isNone && t.phase == .issuing && decide (path.toNat ≤ 8) && path != 2
  let memory :=
    match regionOf pa with
    | .dram | .cap => true
    | .sram => modeAt s pa == 1
    | _ => false
  if ok && memory && (heldAt s pa).isNone && !s.poisonAt pa then
    { s with ahead := ⟨core, base, path, g, s.peek (64 * g) 64⟩ :: s.ahead.filter (fun x => !(x.core == core && x.base == base && x.path == path && x.gran == g)) }
  else s

/-- An entry of the agenda. -/
noncomputable def takeTurn (s : State) (t : Turn) : Host.Outcome State Fault Refusal :=
  match t with
  | .issue a => turnOf s a
  | .event i => if isEvent i then exec i s else .next s
  | .elapse ns => .next { s with ns := s.ns + ns }
  | .mismatch c b e n => .next (s.modCore c (fun x => { x with mism := some (b, e, n) }))
  | .rowError c pa => .next (s.modCore c (fun x => { x with ecc := if x.ecc.contains (pa / 64 * 64) then x.ecc else x.ecc ++ [pa / 64 * 64] }))
  | .codewords l c u => .next (s.modLink l (fun x => (x.count 3 c).count 4 u))
  | .laneFault c b e x => .next (s.modCore c (fun k => { k with esc := some (b, e, x) }))
  | .romError => .next (s.setBoot (fun b => { b with romBad := true }))
  | .denied i va => .next (s.deny i va)
  | .ahead c b p pa => .next (s.takeAhead c b p pa)

/-- A part that is OFF (R402). -/
def offTurn (s : State) : Host.Outcome State Fault Refusal :=
  match s.agenda with
  | .event i :: rest => if startsPart i then exec i { s with agenda := rest } else .next { s with agenda := rest }
  | .romError :: rest => .next ({ s with agenda := rest }.setBoot (fun b => { b with romBad := true }))
  | _ :: rest => .next { s with agenda := rest }
  | [] => .fault .off

/-! ## Those that wait for a claimed sg (R73) -/

/-- The next step of an operation. -/
def opStep (s : State) (i : Nat) : Host.Outcome State Fault Refusal :=
  match (s.op i).kind, (s.op i).st with
  | .launch _, .pending => execLaunchStart i s
  | .tspawn _, .pending => execTspawnStart i s
  | _, .pending => execOpStart i s
  | _, .running => granuleStep s i
  | _, _ => .next s

/-- An access that has waited is served. -/
noncomputable def serveWaiter (s : State) (w : Waiter) : Host.Outcome State Fault Refusal :=
  match w with
  | .part a => turnOf s a
  | .op i => opStep s i
  | .posted p => .next (if s.waits.posted.contains p then (s.performPosted p).getD s else s)
  | .packet => .next (s.servePacket.getD s)
  | .mig k => .next (if (s.mig k).cur.isSome then s.migFinish k else s.migStart k)
  | .vote l t => .next (s.vote l t)
  | .save c b => execSeatSave c b s
  | .stage l t => .next (s.stageNow l t)
  | .read => .next (s.nextRead.getD s)
  | .cmd => .next s.completeCmd

/-- The agents that wait, with what each waits for. -/
def State.partWaits (s : State) : List (Wait × Waiter) :=
  s.cores.flatMap (fun c => c.2.seats.flatMap (fun t => match t.2 with
    | none => []
    | some x => x.parts.filterMap (fun p => (p.2.bind (·.wait)).map (fun w => (w, .part ⟨c.1, t.1, p.1⟩)))))

/-- The seats that cannot yet be saved. -/
def State.saveWaits (s : State) : List (Wait × Waiter) :=
  s.cores.flatMap (fun c => c.2.seats.filterMap (fun t => t.2.bind (fun x =>
    if x.phase == .saving then (s.saveWait x).map (fun w => (w, .save c.1 t.1)) else none)))

/-- The votes that are to be decided and cannot be yet. -/
def State.voteWaits (s : State) : List (Wait × Waiter) :=
  s.launches.flatMap (fun l => match l.2 with
    | none => []
    | some x => x.tasks.filterMap (fun t => t.2.bind (fun k =>
        if k.st == .running && k.record.redund != 0 && (s.voters l.1 t.1).any (fun v => v.red.hold.isSome || v.red.behind || v.red.rolling) then
          (s.voteHeld l.1 t.1).map (fun w => (w, .vote l.1 t.1)) else none)))

/-- The entries that wait for the rows of their dispatch (R72, R329). -/
def State.stageWaits (s : State) : List (Wait × Waiter) := s.waits.staging.filterMap (fun x => (s.entryWait x.1 x.2).map (fun w => (w, .stage x.1 x.2)))

/-- An entry whose rows no longer hold it back. -/
def State.nextStaged (s : State) : Option State := (s.waits.staging.find? (fun x => (s.entryWait x.1 x.2).isNone)).map (fun x => s.stageNow x.1 x.2)

/-- Everyone who waits, with what each waits for. -/
def State.waiters (s : State) : List (Wait × Waiter) :=
  s.partWaits ++ s.ops.filterMap (fun o => if o.2.live then o.2.wait.map (fun w => (w, .op o.1)) else none) ++
    s.waits.posted.filterMap (fun p => (postedWait s p).map (fun w => (w, .posted p))) ++ ((packetWait s).map (fun w => (w, Waiter.packet))).toList ++
    s.migs.filterMap (fun m => (migWait s m.1).map (fun w => (w, .mig m.1))) ++ s.voteWaits ++ s.saveWaits ++ s.stageWaits ++
    ((readWait s).map (fun w => (w, Waiter.read))).toList ++ (s.cmdWait.map (fun w => (w, Waiter.cmd))).toList

/-- The claims among what is waited for. -/
def claimsIn (ws : List (Wait × Waiter)) : List ((Nat × Nat × Nat) × Waiter) :=
  ws.filterMap (fun w => match w.1 with | .claim c b n => some ((c, b, n), w.2) | _ => none)

/-- After a step: those that wait for a claimed sg stand in the order in which they came (R73); a core whose rows an access has met wakes (R405); an
atomic races only with one in the step before (R157; log 38). -/
def State.noteArrivals (s0 s : State) : State :=
  let ws := s.waiters
  let cs := claimsIn ws
  let old := s.waits.arrivals.filter (fun x => cs.contains x)
  let s1 := { s with
    waits := { s.waits with arrivals := old ++ cs.filter (fun x => !old.contains x) }
    lastAmo := if s.lastAmo = s0.lastAmo then none else s.lastAmo }
  ws.foldl (fun x w => match w.1 with | .wake c => x.wakeUnit c | _ => x) s1

/-! ## The step -/

/-- What happens next: who is served after an eviction, a step that has been set off, a kept store, an accepted packet's engine, a read that was kept,
an entry that was held back, the agenda's first entry, or what the focus does by itself. -/
noncomputable def nextTurn (s : State) : Host.Outcome State Fault Refusal :=
  if s.power.off then offTurn s
  else
    match s.waits.serving with
    | w :: ws => serveWaiter { s with waits := { s.waits with serving := ws } } w
    | [] =>
      match s.nextDue with
      | some d => .next (d.2.runDue d.1)
      | none =>
        match s.nextPosted.orElse (fun _ => s.servePacket.orElse (fun _ => s.nextRead.orElse (fun _ => s.nextStaged))) with
        | some s1 => .next s1
        | none =>
          match s.agenda with
          | t :: rest => takeTurn { s with agenda := rest } t
          | [] => freeTurn s

/-- A step with what follows from it. -/
noncomputable def fullTurn (s : State) : Host.Outcome State Fault Refusal :=
  match nextTurn s with
  | .next s' => .next (s.noteArrivals s')
  | r => r

end Sys2Proof.Machine
end

