-- ==== Sys2Proof/Machine/Place.lean ====
section
/-! DEFINITION. Sys2Proof/Machine/Place.lean: an instruction laid out in a line (R85, R86) for a thread that fetches it next: how the host
places one word. -/

namespace Sys2Proof.Machine

/-- Where the line lies: the first frame of the capacity tier, reached by the direct window at LVL 1 (R284, R373). -/
def placePa : Nat := 0x10000000000

/-- An element instruction without CB stands in the convoy of a nop; every other stands at the pc (R98, R104). -/
noncomputable def afterNop (ws : List (BitVec 16)) : Bool :=
  match decodeWords ws with
  | .ok i => isElement i && !((ws.head?.map headCb).getD false)
  | .error _ => false

/-- Write parcels from an address. -/
def State.pokeParcels (s : State) (pa : Nat) : List (BitVec 16) → State
  | [] => s
  | p :: ps => State.pokeParcels (s.poke none pa p.toNat 2) (pa + 2) ps

/-- A line of one or two heads, the tail at its end, and a line with a nop behind it. -/
noncomputable def State.placeLine (s : State) (ws : List (BitVec 16)) : State :=
  let heads : List (BitVec 16) := (if afterNop ws then [0x8000] else []) ++ ws.take 1
  let s1 := s.pokeImage none placePa 128 []
  let s2 := s1.pokeParcels placePa (BitVec.ofNat 16 heads.length :: heads)
  let s3 := s2.pokeParcels (placePa + 64 - 2 * (ws.length - 1)) (ws.drop 1)
  s3.pokeParcels (placePa + 64) [1, 0x8000]

/-- The thread that fetches the placed line: bank 0 of core 0, a sash of one, at LVL 1 with CLM set. -/
def placedSeat : Seat :=
  { Seat.empty with
    status := { Status.empty with lvl := true, clm := true }
    parts := [(0, some { Part.empty with pc := BitVec.ofNat 64 (directBase + placePa + 2), active := 1 })] }

/-- A machine that runs, with that thread in focus and nothing else due. -/
noncomputable def State.placeWord (s : State) (nbits w : Nat) : State :=
  let s1 := s.placeLine (tableWords nbits w)
  { s1.setSeat? 0 0 (some placedSeat) with
    power := { s1.power with phase := 0, off := false }, focus := ⟨0, 0, 0⟩, due := [], rxq := [], agenda := []
    waits := { s1.waits with serving := [], posted := [], staging := [], reads := [] } }

end Sys2Proof.Machine
end

