-- ==== Sys2Proof/Machine/Step.lean ====
section
/-! DEFINITION. Sys2Proof/Machine/Step.lean: one step of the machine, and an instruction placed where it fetches next. -/

namespace Sys2Proof.Machine

/-- One step: what has been set off, the agenda's next entry, or what the agent in focus does. -/
noncomputable def step (s : State) : Host.Outcome State Fault Refusal := fullTurn s

/-- The state with an instruction of the opcode table where `step` fetches next. -/
noncomputable def State.withFetchWord (s : State) (nbits w : Nat) : State := s.placeWord nbits w

end Sys2Proof.Machine
end

