-- ==== Sys2Proof/Safety.lean ====
section
/-! DEFINITION. Sys2Proof/Safety.lean: the terms of the statements: the canonical memory, and what a step leaves as it was around the
part of a sash that acts. -/

namespace Sys2Proof.Machine

/-- The memory is in its canonical form. -/
abbrev Memory.wf (s : State) : Bool := bytesWf s.mem

/-- No scalar result of an element instruction waits for the end of the focus's convoy (R101). -/
def Settled (s : State) : Prop := (s.part s.focus).late = []

/-- The part in focus is at the start of its single instruction: no bank has performed it or begun it (R150, R166). -/
def Fresh (s : State) : Prop := (s.part s.focus).begun = 0

/-- Register d of a bank holds v, unless d is s0; every other register, mask, token, flag, pane, slot and debt is as it was. -/
def RegOnly (d : BitVec 5) (v : Word) (x y : Bank) : Prop :=
  (∀ n, y.rs n = if n = d ∧ d ≠ 0 then v else x.rs n) ∧ { y with s := x.s } = x

/-- As `RegOnly`, with flags accrued. -/
def RegAndFlags (d : BitVec 5) (r : Word × BitVec 5) (x y : Bank) : Prop :=
  (∀ n, y.rs n = if n = d ∧ d ≠ 0 then r.1 else x.rs n) ∧ y.flags = x.flags ||| r.2 ∧ { y with s := x.s, flags := x.flags } = x

/-- Address register d of a bank holds v; the rest is as it was. -/
def AddrOnly (d : BitVec 3) (v : Word) (x y : Bank) : Prop :=
  (∀ n, y.ra n = if n = d then v else x.ra n) ∧ { y with a := x.a } = x

/-- Every core is as it was but for its banks and seats, and every seat but the one in focus. -/
structure SameCores (s t : State) : Prop where
  cores : ∀ c, { t.core c with banks := (s.core c).banks, seats := (s.core c).seats } = s.core c
  seats : ∀ c b, ¬(c = s.focus.core ∧ b = s.focus.base) → t.seat? c b = s.seat? c b

/-- The seat in focus is as it was but for the place its part has reached: pc, wait and convoy of the part in focus, the banks that have
performed the instruction, and vl where the convoy's end brings that of a cut load (R214). -/
structure SameSeat (s t : State) : Prop where
  seat : { t.seat s.focus with parts := (s.seat s.focus).parts } = s.seat s.focus
  parts : ∀ q, q ≠ s.focus.seq → (t.seat s.focus).part? q = (s.seat s.focus).part? q
  part : ∃ pc w cv g v, t.part s.focus = { s.part s.focus with pc := pc, wait := w, convoy := cv, begun := g, vl := v } ∧
    (v = (s.part s.focus).vl ∨ (s.part s.focus).convoy.bind (·.cut) = some v)

/-- What an instruction on the registers of the part in focus leaves as it was: memory byte by byte, every part of the machine that is
no core, the cores and seats around the part. Banks are told apart. -/
structure Around (s t : State) : Prop where
  rest : { t with cores := s.cores } = s
  byte : ∀ a, t.peek a 1 = s.peek a 1
  cores : SameCores s t
  seat : SameSeat s t

/-- As `Around`, the whole part in focus set apart. -/
structure AroundPart (s t : State) : Prop where
  rest : { t with cores := s.cores } = s
  byte : ∀ a, t.peek a 1 = s.peek a 1
  cores : SameCores s t
  seat : { t.seat s.focus with parts := (s.seat s.focus).parts } = s.seat s.focus
  parts : ∀ q, q ≠ s.focus.seq → (t.seat s.focus).part? q = (s.seat s.focus).part? q

/-- Every active bank of the focus's part changes by R, no other bank. -/
def OnBanks (s t : State) (R : Nat → Bank → Bank → Prop) : Prop :=
  ∀ c b, if c = s.focus.core ∧ b ∈ s.active then R b (s.bank c b) (t.bank c b) else t.bank c b = s.bank c b

/-- The part in focus has performed its instruction and goes on: with the next one of its convoy, or with the next convoy (R88,
R101). -/
def Proceeds (s t : State) : Prop := t.part s.focus = (s.part s.focus).advance

/-- An instruction completes, every active bank changing by R and nothing else. -/
def Completes (i : Instr) (s : State) (R : Bank → Bank → Prop) : Prop :=
  ∃ t, exec i s = .next t ∧ Around s t ∧ Proceeds s t ∧ OnBanks s t (fun _ => R)

/-- Nothing is taken ahead anew; some of it may be given up (R304; log 7). -/
def NoneAhead (s t : State) : Prop := ∀ x ∈ t.ahead, x ∈ s.ahead

/-- What accesses leave beside what they read and write: a migrator differs in what it has counted only (R295; log 90), and nothing is taken ahead
anew. -/
def Traces (s t : State) : Prop := (∀ k, { t.mig k with heat := (s.mig k).heat } = s.mig k) ∧ NoneAhead s t

/-- As `CompletesIn`, for an instruction that reads memory: its accesses leave their traces. -/
def ReadsIn (i : Instr) (s : State) (R : Nat → Bank → Bank → Prop) : Prop :=
  ∃ t, exec i s = .next t ∧ Around s { t with migs := s.migs, ahead := s.ahead } ∧ Traces s t ∧ Proceeds s t ∧ OnBanks s t R

/-- An instruction completes, writing sD := f in each active bank of the part, and nothing else. -/
def WritesReg (i : Instr) (s : State) (d : BitVec 5) (f : Bank → Word) : Prop :=
  Completes i s (fun x => RegOnly d (f x) x)

/-- As `WritesReg`, with the flags of the result accrued in each bank. -/
def WritesFloat (i : Instr) (s : State) (d : BitVec 5) (f : Bank → Word × BitVec 5) : Prop :=
  Completes i s (fun x => RegAndFlags d (f x) x)

/-- An instruction completes, writing aD := f in each active bank, and nothing else. -/
def WritesAddr (i : Instr) (s : State) (d : BitVec 3) (f : Bank → Word) : Prop :=
  Completes i s (fun x => AddrOnly d (f x) x)

/-- An instruction completes and changes nothing. -/
def OnlyProceeds (i : Instr) (s : State) : Prop := Completes i s (fun x y => y = x)

/-- As `Completes`, the banks told apart. -/
def CompletesIn (i : Instr) (s : State) (R : Nat → Bank → Bank → Prop) : Prop :=
  ∃ t, exec i s = .next t ∧ Around s t ∧ Proceeds s t ∧ OnBanks s t R

/-! ## Accesses to memory (R148-R151) -/

/-- n bytes at a virtual address pass checks 1 to 6 of R148 and lie in plain memory at pa: no device, no FIFO, no claimed sg. -/
structure Plain (s : State) (need : Need) (n va pa : Nat) : Prop where
  canonical : va < 2 ^ 56
  aligned : va % n = 0
  spot : ∃ p, translate s s.fctx need va = .ok p ∧ p.pa = pa ∧ p.peer = 0
  awake : asleep s pa = false
  free : claimOf s pa = none
  memory : regionOf pa = .dram ∨ regionOf pa = .cap ∨
    regionOf pa = .sram ∧ (s.sram (sramQuad pa) (sramBankNo pa)).busy = false ∧ (s.sram (sramQuad pa) (sramBankNo pa)).mode = 1

/-- What stores of the part in focus leave as it was: everything but bytes of memory and of SRAM banks, links, what migrators count, and
the banks and the place of the part, which are told apart. -/
structure AroundStores (s t : State) : Prop where
  rest : { t with cores := s.cores, mem := s.mem, quads := s.quads, linked := s.linked, migs := s.migs, ahead := s.ahead } = s
  migs : Traces s t
  quads : ∀ q, { t.quad q with sram := (s.quad q).sram } = s.quad q
  sram : ∀ q b, { t.sram q b with data := (s.sram q b).data } = s.sram q b
  cores : SameCores s t
  seat : SameSeat s t
  wf : Memory.wf s = true → Memory.wf t = true

/-- The entries (bank, pa, v) of a list have been stored, the later over the earlier, as n bytes at pa; every other byte is as before. -/
def Stored (s t : State) (n : Nat) (st : List (Nat × Nat × Nat)) : Prop :=
  (∀ a, (∀ x ∈ st, a < x.2.1 ∨ x.2.1 + n ≤ a) → t.peek a 1 = s.peek a 1) ∧
  ∀ before x after, st = before ++ x :: after → (∀ y ∈ after, y.2.1 + n ≤ x.2.1 ∨ x.2.1 + n ≤ y.2.1) →
    t.peek x.2.1 n = x.2.2 % 256 ^ n

/-- The links that such stores leave: those of the storing thread, and those whose bytes are not stored to (R219). -/
def linksAfter (s : State) (n : Nat) (st : List (Nat × Nat × Nat)) : List LinkEntry :=
  s.linked.filter (fun l => st.all (fun x =>
    (l.core == s.focus.core && l.bank == x.1) || !overlaps l.pa l.size x.2.1 n))

/-- An instruction completes with these stores, the active banks changing by R and nothing else. -/
def StoresTo (i : Instr) (s : State) (n : Nat) (st : List (Nat × Nat × Nat)) (R : Nat → Bank → Bank → Prop) : Prop :=
  ∃ t, exec i s = .next t ∧ AroundStores s t ∧ Proceeds s t ∧ OnBanks s t R ∧ Stored s t n st ∧ t.linked = linksAfter s n st

/-- What an instruction of each active bank in turn does to one doubleword it reads and writes (R150, R155): `upd` gives the new value
from the old. The atomic is noted (R157). -/
def Updates (i : Instr) (s : State) (d : BitVec 5) (pa : Nat → Nat) (upd : Nat → Word → Word × BitVec 5) : Prop :=
  ∃ (t : State) (old : Nat → Word), exec i s = .next t ∧ AroundStores s { t with lastAmo := s.lastAmo, free := s.free } ∧ Proceeds s t ∧
    OnBanks s t (fun b x => RegAndFlags d (old b, (upd b (old b)).2) x) ∧
    (∀ b ∈ s.active, (∀ c ∈ s.active, c < b → pa c ≠ pa b) → old b = BitVec.ofNat 64 (s.peek (pa b) 8)) ∧
    (∀ c ∈ s.active, ∀ b ∈ s.active, c < b → pa c = pa b → (∀ e ∈ s.active, c < e → e < b → pa e ≠ pa b) → old b = (upd c (old c)).1) ∧
    (∀ b ∈ s.active, (∀ c ∈ s.active, b < c → pa c ≠ pa b) → t.peek (pa b) 8 = (upd b (old b)).1.toNat) ∧
    (∀ a, (∀ b ∈ s.active, a < pa b ∨ pa b + 8 ≤ a) → t.peek a 1 = s.peek a 1)

/-! ## Order (R304) -/

/-- A granule taken ahead that an edge into path p of the agent in focus makes give way: on LS everybody's (R301), else the agent's own. -/
def State.onPath (s : State) (p : BitVec 4) (x : Ahead) : Prop :=
  if p = 0 then x.path = 0 else x.core = s.focus.core ∧ x.base = s.focus.base ∧ x.path = p

/-- The same for an edge into every path. -/
def State.onAny (s : State) (x : Ahead) : Prop := x.path = 0 ∨ (x.core = s.focus.core ∧ x.base = s.focus.base)

/-- What was taken ahead is as before but for the granules that give way. -/
def Orders (s t : State) (gone : Ahead → Prop) : Prop := ∀ x, x ∈ t.ahead ↔ x ∈ s.ahead ∧ ¬gone x

/-- An instruction completes and only orders: nothing changes but what was taken ahead. -/
def OnlyOrders (i : Instr) (s : State) (gone : Ahead → Prop) : Prop :=
  ∃ t, exec i s = .next t ∧ Around s { t with ahead := s.ahead } ∧ Proceeds s t ∧ OnBanks s t (fun _ x y => y = x) ∧ Orders s t gone

/-! ## Transfers of control (R88, R89) -/

/-- An address of an instruction: even, and no header. -/
def HeadAddress (a : Word) : Prop := a.toNat % 2 = 0 ∧ a.toNat % 64 / 2 ≠ 0

/-- The line at pa has a head that starts a convoy at this address (R89): number at most H, CB = 1. -/
def StartsConvoy (s : State) (pa : Nat) (a : Word) : Prop :=
  a.toNat % 64 / 2 ≤ s.peek pa 2 % 32 ∧ s.peek (pa + 2 * (a.toNat % 64 / 2)) 2 / 2 ^ 15 = 1

/-- The part in focus continues at an address, every active bank changing by R and nothing else. -/
def GoesTo (i : Instr) (s : State) (target : Word) (R : Bank → Bank → Prop) : Prop :=
  ∃ t, exec i s = .next t ∧ Around s t ∧ OnBanks s t (fun _ => R) ∧
    t.part s.focus = { (s.part s.focus).endConvoy with pc := target, wait := none, begun := 0 }

/-- The part waits at its instruction, which has done nothing (R347). -/
def Waits (i : Instr) (s : State) (w : Wait) : Prop :=
  ∃ t, exec i s = .next t ∧ Around s t ∧ OnBanks s t (fun _ x y => y = x) ∧
    t.part s.focus = { s.part s.focus with wait := some w }

/-- A transfer under the checks of R89: it takes place, or it traps with bad slot (0x03) at the target and has no other effect. A
line whose fetch must wait is waited for; one that cannot be fetched cannot be checked. -/
def TransfersTo (i : Instr) (s : State) (target : Word) (R : Bank → Bank → Prop) : Prop :=
  let line := target.toNat / 64 * 64
  (¬HeadAddress target → exec i s = .next (s.trapSingle 0x03 target)) ∧
  (HeadAddress target →
    (∀ pa, fetchPa s s.fctx line = .ok pa →
      (StartsConvoy s pa target → GoesTo i s target R) ∧ (¬StartsConvoy s pa target → exec i s = .next (s.trapSingle 0x03 target))) ∧
    (∀ w, fetchPa s s.fctx line = .wait w → Waits i s w) ∧
    ∀ o k, fetchPa s s.fctx line = .bad o k → GoesTo i s target R)

/-! ## Traps (R342) -/

/-- The part in focus can enter a handler: a task at user level, or a control core, with a handler address. -/
def HasHandler (s : State) : Prop := s.fseat.tvec ≠ 0 ∧ (s.fseat.isCC = true ∨ s.fseat.status.lvl = false)

/-- The state after the trap of a cause and class is the state before it but for what R342 says: cause, epc, tval, status, the
part that runs the handler, its pc and xidx, what its phase had begun; the links of its thread are lost (R32, R219). -/
structure EntersHandler (s t : State) (cause : BitVec 8) (cls : Nat) (tval epc : Word) (xidx : Nat) : Prop where
  rest : { t with cores := s.cores, linked := s.linked } = s
  byte : ∀ a, t.peek a 1 = s.peek a 1
  links : t.linked = s.linked.filter (fun l => !(l.core == s.focus.core && s.fseat.banks.contains l.bank))
  cores : SameCores s t
  banks : ∀ c b, t.bank c b = s.bank c b
  seat : t.seat s.focus = { s.seat s.focus with
    parts := (t.seat s.focus).parts, cause := cause, epc := epc, tval := tval, handler := some (s.part s.focus).active
    status := { (s.seat s.focus).status with
      plvl := (s.seat s.focus).status.lvl, lvl := true, hold := true, cls := BitVec.ofNat 3 cls } }
  parts : ∀ q, q ≠ s.focus.seq → (t.seat s.focus).part? q = (s.seat s.focus).part? q
  part : t.part s.focus = { (s.part s.focus).endConvoy with
    pc := (s.seat s.focus).tvec + BitVec.ofNat 64 (64 * cls) + 2, wait := none, begun := 0, entry := true, got := [], picked := [], loaded := false
    stored := [], recs := [], xidx := xidx }

/-! ## Panes and rows (R65-R78, R165-R178) -/

/-- Pane n of a bank becomes p; nothing else of the bank changes. -/
def PaneOnly (n : Nat) (p : Pane) (x y : Bank) : Prop :=
  (∀ k, y.pane k = if k = n then p else x.pane k) ∧ { y with panes := x.panes } = x

/-- A row address passes R63 in bank b with sg n; a spot of write permission for a write. -/
structure RowSpot (s : State) (need : Need) (n b va : Nat) (p : Spot) : Prop where
  canonical : va < 2 ^ 56
  spot : translate s s.fctx need va = .ok p
  here : p.peer = 0 ∧ regionOf p.pa = .dram ∧ dramCore p.pa = s.focus.core ∧ dramBank p.pa = b ∧ dramSg p.pa = n

/-- A pane that a command can write from: open and unpinned, or parked with its image in slot 5 (R73, R74). -/
def HoldsImage (x : Bank) (n : Nat) : Prop :=
  let p := x.pane n
  bytesWf p.img.data = true ∧
  ((p.park = false ∧ (p.st = .openClean ∨ p.st = .openDirty) ∧ p.pins = 0) ∨
    (p.park = true ∧ p.busy = false ∧ (x.slot n 5).img = some p.img))

/-- A command completes: in each active bank b the row at `row b` holds `bytes` and `bad` granules are poisoned, links of other threads
over the rows are lost (R219), the banks change by R; everything else is as it was but for what migrators count. -/
def WritesRows (i : Instr) (s : State) (row : Nat → Nat) (bytes : Nat → Nat → Byte) (bad : Nat → Nat → Bool)
    (R : Nat → Bank → Bank → Prop) : Prop :=
  ∃ t, exec i s = .next t ∧ { t with cores := s.cores, mem := s.mem, poison := s.poison, linked := s.linked, migs := s.migs, ahead := s.ahead } = s ∧
    Traces s t ∧ SameCores s t ∧ SameSeat s t ∧ Proceeds s t ∧ Memory.wf t = true ∧ OnBanks s t R ∧
    (∀ b ∈ s.active, (∀ i, i < 4096 → BitVec.ofNat 8 (t.peek (row b + i) 1) = bytes b i) ∧
      ∀ g, g < 64 → t.poisonAt (row b + 64 * g) = bad b g) ∧
    (∀ a, (∀ b ∈ s.active, a < row b ∨ row b + 4096 ≤ a) → t.peek a 1 = s.peek a 1 ∧ t.poisonAt a = s.poisonAt a) ∧
    t.linked = s.linked.filter (fun l => s.active.all (fun b =>
      (l.core == s.focus.core && l.bank == b) || !overlaps l.pa l.size (row b) 4096))

/-- A command begins in the banks that `ready` names, which change by R, and waits for the others, which have not changed (R166). -/
def BeginsIn (i : Instr) (s : State) (ready : Nat → Prop) (w : Wait) (R : Nat → Bank → Bank → Prop) : Prop :=
  ∃ t, exec i s = .next t ∧ Around s (t.modPart s.focus (fun p => { p with plan := (s.part s.focus).plan })) ∧
    OnBanks s t (fun b x y => (ready b → R b x y) ∧ (¬ready b → y = x)) ∧
    t.part s.focus = { s.part s.focus with wait := some w, begun := (t.part s.focus).begun, plan := (t.part s.focus).plan } ∧
    ∀ b, b < 16 → ((t.part s.focus).begun.getLsbD b = true ↔ b ∈ s.active ∧ ready b)

/-! ## Lane instructions (R33, R35, R37, R67, R188) -/

/-- A pane that a lane instruction may use at once (R67): open, unparked, and to be written neither WRITING nor pinned. -/
def Pane.Usable (p : Pane) (write : Bool) : Prop :=
  p.park = false ∧ (p.st = .openClean ∨ p.st = .openDirty ∨ (p.st = .writing ∧ write = false)) ∧ (write = true → p.pins = 0)

/-- The images of the panes are canonical and hold no poison. -/
def CleanPanes (s : State) (ks : List Nat) : Prop :=
  ∀ b ∈ s.active, ∀ k ∈ ks,
    bytesWf ((s.fbank b).pane k).img.data = true ∧ ∀ g, look none ((s.fbank b).pane k).img.poison g = none

/-- An element instruction can run to its end: v are its operands, which pass the checks made at decode (R186); the part lies in its
seat, which shows 256 to 4,096 bytes of a pane; every pane it uses is usable and clean; no lane delivers a wrong result (R351, R370). -/
structure LanesReady (i : Instr) (s : State) (v : VInfo) : Prop where
  info : vinfo i = some v
  checked : v.check s.fseat (rmField i) s.fpart.rmNow 0 0 (vstcBad i) = none
  settled : Settled s
  inSeat : ∀ b ∈ s.active, s.fseat.base ≤ b ∧ b < s.fseat.base + s.fseat.size
  lcap : 8 ≤ s.fseat.lcap ∧ s.fseat.lcap ≤ 12
  panes : ∀ u ∈ usesIn s (v.l s.fseat) s.fpart.xidx (s.evlOf (v.l s.fseat)) v.reads v.writes, ((s.fbank u.1).pane u.2.1).Usable u.2.2
  clean : CleanPanes s (v.reads ++ v.writes)
  sound : (s.core s.focus.core).mism = none ∧ (s.core s.focus.core).esc = none

/-- The sash-wide index of local element j of bank b, for L local elements. -/
def State.indexOf (s : State) (l b j : Nat) : Nat := (b - s.fseat.base) * l + j

/-- The element is processed: from xidx to evl - 1, and its mask bit is 1 (R35, R37). -/
def Processed (s : State) (l : Nat) (m : BitVec 3) (n : Bool) (b j : Nat) : Prop :=
  s.fpart.xidx ≤ s.indexOf l b j ∧ s.indexOf l b j < s.evlOf l ∧ maskAt (s.fbank b) m n l j = true

/-- What a lane instruction leaves as it was: everything but the given panes, masks and the flags of the active banks; the part
has ended its element phase, xidx 0 (R35, R101). -/
structure AroundLanes (s t : State) (ks : List Nat) (masks : List Nat) : Prop where
  rest : { t with cores := s.cores } = s
  byte : ∀ a, t.peek a 1 = s.peek a 1
  cores : SameCores s t
  seat : { t.seat s.focus with parts := (s.seat s.focus).parts } = s.seat s.focus
  parts : ∀ q, q ≠ s.focus.seq → (t.seat s.focus).part? q = (s.seat s.focus).part? q
  part : t.part s.focus = (s.part s.focus).phaseOver
  others : ∀ c b, ¬(c = s.focus.core ∧ b ∈ s.active) → t.bank c b = s.bank c b
  regs : ∀ b ∈ s.active, { t.fbank b with panes := (s.fbank b).panes, m := (s.fbank b).m, flags := (s.fbank b).flags } = s.fbank b
  masks : ∀ b ∈ s.active, ∀ k, k ∉ masks → (t.fbank b).rm k = (s.fbank b).rm k
  panes : ∀ b ∈ s.active, ∀ k, k ∉ ks → (t.fbank b).pane k = (s.fbank b).pane k
  hidden : ∀ b ∈ s.active, ∀ k x, 2 ^ s.fseat.lcap ≤ x → ((t.fbank b).pane k).img.byte x = ((s.fbank b).pane k).img.byte x
  bound : ∀ b ∈ s.active, ∀ k,
    { (t.fbank b).pane k with st := ((s.fbank b).pane k).st, img := { ((t.fbank b).pane k).img with
      data := ((s.fbank b).pane k).img.data, dirty := ((s.fbank b).pane k).img.dirty } } = (s.fbank b).pane k

/-- The flags of a bank are those it had and those of its elements (R21, R46). -/
def Accrues (s t : State) (b : Nat) (l : Nat) (on : Nat → Prop) (f : Nat → BitVec 5) : Prop :=
  ∀ k, (t.fbank b).flags.getLsbD k = true ↔ (s.fbank b).flags.getLsbD k = true ∨ ∃ j, j < l ∧ on j ∧ (f j).getLsbD k = true

/-- A pane that an element was written to is OPEN-DIRTY (R67). -/
def Dirtied (t : State) (b k : Nat) : Prop := ((t.fbank b).pane k).st = .openDirty ∧ ((t.fbank b).pane k).img.dirty = true

/-- Each processed element of the destination group has become f of its bank and local index, with its flags; each other element and
everything else is as it was (R188). -/
def LaneOut (s t : State) (v : VInfo) (wd : Nat) (m : BitVec 3) (n : Bool) (f : Nat → Nat → Nat × BitVec 5) : Prop :=
  let l := v.l s.fseat
  let bits := fmtBits v.t
  AroundLanes s t v.writes [] ∧ ∀ b ∈ s.active,
    (∀ j, j < l → (Processed s l m n b j →
        (t.fbank b).elem s.fseat bits wd j = (f b j).1 % 2 ^ bits ∧ Dirtied t b (wd + j / s.fseat.perPane bits)) ∧
      (¬Processed s l m n b j → (t.fbank b).elem s.fseat bits wd j = (s.fbank b).elem s.fseat bits wd j)) ∧
    Accrues s t b l (Processed s l m n b) (fun j => (f b j).2)

/-- An element instruction completes with `LaneOut`. -/
def LaneResult (i : Instr) (s : State) (v : VInfo) (wd : Nat) (m : BitVec 3) (n : Bool) (f : Nat → Nat → Nat × BitVec 5) : Prop :=
  ∃ t, exec i s = .next t ∧ LaneOut s t v wd m n f

/-- An instruction that writes a mask completes: bit j of md of each processed element becomes f, with its flags; every other bit and
everything else stays (R192, R193). -/
def MaskResult (i : Instr) (s : State) (v : VInfo) (md : Nat) (m : BitVec 3) (n : Bool) (f : Nat → Nat → Bool × BitVec 5) : Prop :=
  let l := v.l s.fseat
  ∃ t, exec i s = .next t ∧ AroundLanes s t [] [md] ∧ ∀ b ∈ s.active,
    (∀ j, j < 4096 → (j < l ∧ Processed s l m n b j → ((t.fbank b).rm md).getLsbD j = (f b j).1) ∧
      (¬(j < l ∧ Processed s l m n b j) → ((t.fbank b).rm md).getLsbD j = ((s.fbank b).rm md).getLsbD j)) ∧
    Accrues s t b l (Processed s l m n b) (fun j => (f b j).2)

/-- An instruction that writes sS of every bank of the part at the end of the convoy (R101, R204): at once when the convoy ends with its
element phase, else with the results that wait; `fl` accrues in the sequencer bank. -/
def ScalarResult (i : Instr) (s : State) (d : BitVec 5) (r : Word × BitVec 5) : Prop :=
  ∃ t, exec i s = .next t ∧ { t with cores := s.cores } = s ∧ SameCores s t ∧ (∀ a, t.peek a 1 = s.peek a 1) ∧
    { t.seat s.focus with parts := (s.seat s.focus).parts } = s.seat s.focus ∧
    (∀ q, q ≠ s.focus.seq → (t.seat s.focus).part? q = (s.seat s.focus).part? q) ∧
    let fl (b : Nat) : BitVec 5 := if b = s.seqBank then r.2 else 0
    match (s.part s.focus).convoy with
    | none =>
      t.part s.focus = (s.part s.focus).phaseOver ∧ OnBanks s t (fun b x => RegAndFlags d (r.1, fl b) x)
    | some c =>
      if c.todo = [] then t.part s.focus = (s.part s.focus).phaseOver ∧ OnBanks s t (fun b x => RegAndFlags d (r.1, fl b) x)
      else
        t.part s.focus = { s.part s.focus with convoy := some { c with late := s.active.map (fun b => (b, d.toNat, r.1)) } }.phaseOver ∧
          OnBanks s t (fun b x y => y = { x with flags := x.flags ||| fl b })

/-- An element instruction stops at element e: the banks of the part are as the same instruction leaves them under a vl of e, where it
ends (R35, R102); R says the rest of the state that it leaves, beside that other. -/
def StopsAt (i : Instr) (s : State) (e : Nat) (R : State → State → Prop) : Prop :=
  ∃ t u, exec i s = .next t ∧ exec i (s.modPart s.focus (fun p => { p with vl := e })) = .next u ∧
    (∀ b ∈ s.active, t.fbank b = u.fbank b) ∧ R t u

/-- The part has entered the handler of class 0 at element e of an instruction that stands alone (R102, R342). -/
def TrappedAt (s t : State) (cause : BitVec 8) (tval : Word) (e : Nat) : Prop :=
  t.fseat.cause = cause ∧ t.fseat.tval = tval ∧ t.fseat.epc = s.fpart.pc ∧ t.fseat.status.lvl = true ∧
    t.fpart.pc = s.fseat.tvec + 2 ∧ t.fpart.xidx = e

/-! ## Vector accesses (R211-R221) -/

/-- The processed elements of an execution, in ascending order of their sash-wide index. -/
def State.run (s : State) (l : Nat) (m : BitVec 3) (n : Bool) : List Nat :=
  (List.range (s.evlOf l)).filter (fun e => decide (s.fpart.xidx ≤ e) && s.active.contains (s.fseat.base + e / l) &&
    maskAt (s.fbank (s.fseat.base + e / l)) m n l (e % l))

/-- Two states differ in bytes of memory and of SRAM banks that `on` names, in poison and in links only. -/
structure OtherBytes (s t : State) (on : Nat → Prop) : Prop where
  rest : { t with mem := s.mem, poison := s.poison, quads := s.quads, linked := s.linked, ahead := s.ahead } = s
  quads : ∀ q, { t.quad q with sram := (s.quad q).sram } = s.quad q
  sram : ∀ q b, { t.sram q b with data := (s.sram q b).data } = s.sram q b
  bytes : ∀ a, ¬on a → t.peek a 1 = s.peek a 1

/-- As `Plain`, whatever n bytes at the addresses `pas` become: no entry of its translation lies among them. -/
def Firm (s : State) (pas : List Nat) (need : Need) (n va pa : Nat) : Prop :=
  ∀ t, OtherBytes s t (fun a => ∃ x ∈ pas, x ≤ a ∧ a < x + n) → Plain t need n va pa

/-- The first check of R148 and R151 that a vector access of n bytes fails: its cause. `pops` says that the instruction uses FIFO banks. -/
def ElementFault (s : State) (need : Need) (n va : Nat) (pops : Bool) (k : BitVec 8) : Prop :=
  if 2 ^ 56 ≤ va then k = 0x10
  else if va % n ≠ 0 then k = 0x12
  else
    match translate s s.fctx need va with
    | .bad _ k' => k = k'
    | .wait _ => False
    | .ok p =>
      let bank := s.sram (sramQuad p.pa) (sramBankNo p.pa)
      if p.peer ≠ 0 then k = 0x16
      else asleep s p.pa = false ∧
        ((regionOf p.pa = .sram ∧ bank.busy = false ∧ (bank.mode = 0 ∨ (bank.mode = 2 ∧ pops = false)) ∧ k = 0x13) ∨
          (regionOf p.pa = .dev ∧ k = 0x11))

/-- What a vector access waits for: a page that moves (R295), a claimed sg that is none of the part's own (R72). -/
def ElementWait (s : State) (need : Need) (n va : Nat) (w : Wait) : Prop :=
  va < 2 ^ 56 ∧ va % n = 0 ∧
    (translate s s.fctx need va = .wait w ∨
      ∃ p c b g, translate s s.fctx need va = .ok p ∧ p.peer = 0 ∧ asleep s p.pa = false ∧ regionOf p.pa = .dram ∧
        claimOf s p.pa = some w ∧ w = .claim c b g ∧ ¬(c = s.focus.core ∧ b ∈ s.active))

/-- What vector stores leave as it was, the banks told apart; the element phase has ended. -/
structure AroundVecStores (s t : State) : Prop where
  rest : { t with cores := s.cores, mem := s.mem, quads := s.quads, poison := s.poison, linked := s.linked, migs := s.migs, ahead := s.ahead } = s
  migs : Traces s t
  quads : ∀ q, { t.quad q with sram := (s.quad q).sram } = s.quad q
  sram : ∀ q b, { t.sram q b with data := (s.sram q b).data } = s.sram q b
  cores : SameCores s t
  seat : { t.seat s.focus with parts := (s.seat s.focus).parts } = s.seat s.focus
  parts : ∀ q, q ≠ s.focus.seq → (t.seat s.focus).part? q = (s.seat s.focus).part? q
  part : t.part s.focus = (s.part s.focus).phaseOver
  wf : Memory.wf s = true → Memory.wf t = true

/-- A granule stays poisoned unless the stores, with those of the phase before it was resumed, cover its 64 bytes (R350). -/
def Uncovered (s t : State) (n : Nat) (st : List (Nat × Nat × Nat)) : Prop :=
  ∀ g, t.poisonAt (64 * g) = true ↔
    s.poisonAt (64 * g) = true ∧ ¬∀ k, k < 128 →
      (∃ x ∈ st, 2 * x.2.1 ≤ 128 * g + k ∧ 128 * g + k < 2 * (x.2.1 + n)) ∨ ∃ y ∈ s.fpart.stored, y.1 ≤ 128 * g + k ∧ 128 * g + k < y.1 + y.2

/-- An element instruction completes with these stores; links, poison and the active banks as given. -/
def VecStores (i : Instr) (s : State) (n : Nat) (st : List (Nat × Nat × Nat)) (links : List LinkEntry) (R : Nat → Bank → Bank → Prop) :
    Prop :=
  ∃ t, exec i s = .next t ∧ AroundVecStores s t ∧ OnBanks s t R ∧ Stored s t n st ∧ t.linked = links ∧ Uncovered s t n st

/-! ## Child operations (R222-R248, R315) -/

/-- An instruction on child operations changes banks and the op table only. -/
structure AroundOps (s t : State) : Prop where
  rest : { t with cores := s.cores, ops := s.ops, opAge := s.opAge, free := s.free, due := s.due, ahead := s.ahead } = s
  ahead : NoneAhead s t
  cores : SameCores s t
  seat : SameSeat s t

/-- What an issuing instruction asks for: the banks that issue, those whose Kd is written, the a-registers it reads (R224, R226). -/
structure CanIssue (s : State) (o : EOps) (bs kds : List Nat) (regs : List (BitVec 3)) : Prop where
  settled : Settled s
  alone : s.fseat.red = none
  token : o.dt = true → o.kd = 0
  control : s.fseat.isCC = true → o.dt = true
  empty : o.dt = false → ∀ b ∈ kds, s.tokenLive b o.kd = false
  after : o.af = true → ∀ b ∈ bs, ∃ h, (s.fbank b).rk o.ka = some h ∧ s.liveHandle h = true ∧
    (s.op (entryOf h)).st ≠ .faulted ∧ (s.op (entryOf h)).st ≠ .cancelled
  sizes : ∀ b ∈ bs, ∀ a ∈ regs, ((s.fbank b).ra a).toNat / 2 ^ 61 < 6
  room : bs.length ≤ s.freeEntries (sillOf s.focus.core)

/-- An instruction completes and has created one operation for each entry (bank, kind, count is 0, banks whose Kd is written) of a list,
in free entries of the issuer's sill (R225, R228): PENDING, or DONE for a count of 0. -/
def Creates (i : Instr) (s : State) (o : EOps) (ops : List (Nat × OpKind × Bool × List Nat)) : Prop :=
  ∃ (t : State) (e : Nat → Nat), exec i s = .next t ∧ AroundOps s t ∧ Proceeds s t ∧ t.opAge = s.opAge + ops.length ∧
    (∀ d ∈ s.due, d ∈ t.due) ∧
    (∀ k x, ops[k]? = some x →
      e k / 4096 = sillOf s.focus.core ∧ (s.op (e k)).live = false ∧ (∀ j, j < k → e j ≠ e k) ∧
      let y := t.op (e k)
      let after : Option (BitVec 32) := (s.fbank x.1).rk o.ka
      y = { ChildOp.empty with
        gen := s.nextGen (e k), live := true, st := if x.2.2.1 then .done else .pending, kind := x.2.1
        prio := BitVec.ofNat 3 (s.fseat.prio.toNat - o.padj.toNat), aged := s.ns
        launch := s.fseat.launch, task := s.fseat.task, owner := s.fseat.task, core := s.focus.core, base := s.focus.base, bank := x.1
        sup := s.fseat.status.lvl, ptbr := s.fseat.ptbr, detached := o.dt, dt := o.dt, holders := if o.dt then 0 else x.2.2.2.length
        after := if o.af ∧ x.2.2.1 = false ∧ (s.op (entryOf (after.getD 0))).st ≠ .done then after else none
        age := s.opAge + k } ∧
      (x.2.2.1 = false → y.after = none →
        (∀ r, x.2.1 = .tspawn r → Due.tspawnStart (e k) ∈ t.due) ∧ ∀ r, x.2.1 = .launch r → Due.launchStart (e k) ∈ t.due)) ∧
    (∀ j, (∀ k, k < ops.length → e k ≠ j) → t.op j = s.op j) ∧
    OnBanks s t (fun b x y => { y with k := x.k } = x ∧ ∀ r,
      (o.dt = true ∨ r ≠ o.kd → y.rk r = x.rk r) ∧
      (o.dt = false → r = o.kd → ∀ k z, ops[k]? = some z → b ∈ z.2.2.2 → y.rk r = some (handleOf (e k) (t.op (e k)).gen)))

/-- The entry is due to be freed (R315; that of a control core with its operation, log 27). -/
def FreeDue (o : ChildOp) : Prop :=
  (1536 ≤ o.core ∧ o.st.terminal = true) ∨
    (o.holders = 0 ∧ o.mirrors = 0 ∧ ((o.detached = false ∧ (o.st = .done ∨ o.st = .cancelled)) ∨ (o.st = .faulted ∧ o.acked = true)))

/-- Token register k of every active bank b names the live operation h b. -/
def Tokens (s : State) (k : BitVec 4) (h : Nat → BitVec 32) : Prop :=
  ∀ b ∈ s.active, (s.fbank b).rk k = some (h b) ∧ s.liveHandle (h b) = true ∧ (h b).toNat / 2 ^ 15 % 2 ^ 9 = 0

/-- The registers of the part that hold a handle: how many. -/
def heldBy (s : State) (h : BitVec 32) : Nat := (s.active.map (fun b => ((s.fbank b).k.filter (fun p => p.2 == some h)).length)).sum

/-- The part's registers no longer hold these handles; their operations changed by f have so many holders less and are freed when
due; no other operation and no other register changed but sD, which R describes. -/
def LetGo (s t : State) (hs : List (BitVec 32)) (f : ChildOp → ChildOp) (R : Nat → Bank → Bank → Prop) : Prop :=
  AroundOps s t ∧ Proceeds s t ∧ (t.opAge, t.free, t.due) = (s.opAge, s.free, s.due) ∧
  OnBanks s t (fun b x y => R b { x with k := y.k } y ∧ ∀ r, y.rk r = if ∃ h ∈ hs, x.rk r = some h then none else x.rk r) ∧
  (∀ j, (∀ h ∈ hs, entryOf h ≠ j) → t.op j = s.op j) ∧
  ∀ h ∈ hs, ∃ free : Bool,
    let o := { f (s.op (entryOf h)) with holders := (f (s.op (entryOf h))).holders - heldBy s h }
    t.op (entryOf h) = { o with live := !free } ∧ (free = true ↔ FreeDue o)

/-! ## Parts of a sash (R28-R32) -/

/-- The state is as it was but for the parts of the seat in focus, the banks of its handler and, where parts merge, the part in focus. -/
structure AroundParts (s t : State) : Prop where
  rest : { t with cores := s.cores, focus := s.focus } = s
  byte : ∀ a, t.peek a 1 = s.peek a 1
  cores : SameCores s t
  banks : ∀ c b, t.bank c b = s.bank c b
  seat : { t.seat s.focus with parts := (s.seat s.focus).parts, handler := (s.seat s.focus).handler } = s.seat s.focus

/-- The conditions of R109. -/
def Cond (c : BitVec 3) (x y : Word) : Prop :=
  match c.toNat with
  | 0 => x = y
  | 1 => x ≠ y
  | 2 => x.toInt < y.toInt
  | 3 => y.toInt ≤ x.toInt
  | 4 => x.toNat < y.toNat
  | _ => y.toNat ≤ x.toNat

/-! ## Steps of the part -/

/-- Only one bank changes, by R. -/
def OneBank (s t : State) (c b : Nat) (R : Bank → Bank → Prop) : Prop :=
  { t with cores := s.cores } = s ∧ (∀ d, { t.core d with banks := (s.core d).banks } = s.core d) ∧
    (∀ d e, ¬(d = c ∧ e = b) → t.bank d e = s.bank d e) ∧ R (s.bank c b) (t.bank c b)

/-- A part that waits goes on: it issues next; nothing else changes. -/
def Resumes (i : Instr) (s : State) (a : Agent) : Prop :=
  ∃ t, exec i s = .next t ∧ t.agenda = .issue a :: s.agenda ∧ t.part a = { s.part a with wait := none } ∧
    Around { s with focus := a } { t with agenda := s.agenda, focus := a } ∧ ∀ c b, t.bank c b = s.bank c b

/-! ## Engines (R225, R229-R241, R317-R320) -/

/-- No launch can end: each has a task that is not terminal (R283). -/
def LaunchesGoOn (s : State) : Prop :=
  ∀ l ∈ s.launches, ∀ x, l.2 = some x → ∃ k ∈ x.tasks, ∃ y, k.2 = some y ∧ y.st.terminal = false

/-- An operation is served by its engine; its seat is no replica, no operation that runs is to pause, it is no orphan, and it has no completion
flag. -/
structure Serving (s : State) (i : Nat) : Prop where
  running : (s.op i).st = .running
  selected : s.selected i = true
  alone : (s.seatAt (s.op i).core (s.op i).base).red = none
  rows : (s.op i).rows = []
  going : ∀ p ∈ s.ops, p.2.live = true → p.2.st = .running → s.resting p.2 = false
  flag : ∀ b, (s.op i).blk = some b → b.flag = 0
  launches : LaunchesGoOn s
  wf : Memory.wf s = true

/-- An element of n bytes of an operation lies, whatever n' bytes at the addresses `pas` become, in plain memory at pa, unpoisoned. -/
def EngAt (s : State) (o : ChildOp) (pas : List Nat) (n' : Nat) (need : Need) (va n pa : Nat) : Prop :=
  va % n = 0 ∧ s.poisonAt pa = false ∧
    ∀ t, OtherBytes s t (fun a => ∃ x ∈ pas, x ≤ a ∧ a < x + n') → ∃ p, engSpot t o need va = .ok p ∧ p.pa = pa ∧ p.peer = 0

/-- What a granule leaves: everything but memory, SRAM bytes, tiles, poison, links, flags of the operation's sequencer bank, what migrators count,
what waits for the operation, and the operation itself. Copies and collectives send what they write into other stacks on sub-links (R393). -/
structure AroundGranule (s t : State) (i : Nat) : Prop where
  rest : { t with cores := s.cores, quads := s.quads, mem := s.mem, poison := s.poison, linked := s.linked, ops := s.ops, free := s.free,
                  due := s.due, migs := s.migs, links := s.links, ahead := s.ahead } = s
  migs : Traces s t
  links : (s.op i).carried = false → t.links = s.links
  cores : ∀ c, { t.core c with banks := (s.core c).banks } = s.core c
  banks : ∀ c b, ¬(c = (s.op i).core ∧ b = (s.op i).base) → t.bank c b = s.bank c b
  bank : { t.bank (s.op i).core (s.op i).base with flags := (s.bank (s.op i).core (s.op i).base).flags } = s.bank (s.op i).core (s.op i).base
  quads : ∀ q, { t.quad q with sram := (s.quad q).sram, tiles := (s.quad q).tiles } = s.quad q
  ops : ∀ j, j ≠ i → { t.op j with after := (s.op j).after } = s.op j
  wf : Memory.wf t = true

/-- The operation has reached element j of `total`: served, DONE at the end (R320). -/
def Reached (s t : State) (i j total : Nat) : Prop :=
  (j < total → { t.op i with sent := (s.op i).sent, cover := (s.op i).cover } =
    { s.op i with progress := j, wait := none, boost := 0, aged := s.ns }) ∧
  (j = total → (t.op i).st = .done ∧ (t.op i).progress = total)

/-- The addresses of writes lie in no other stack than the operation's (R393). -/
def Near (o : ChildOp) (pas : List Nat) : Prop := ∀ pa ∈ pas, homeStack pa = none ∨ homeStack pa = some (sillOf o.core)

/-- One granule completes: elements of n bytes have been stored, no tile and no flag changed. -/
def GranuleStores (e : Instr) (s : State) (i j total n : Nat) (st : List (Nat × Nat × Nat)) : Prop :=
  ∃ t, exec e s = .next t ∧ AroundGranule s t i ∧ Reached s t i j total ∧ Stored s t n st ∧
    (Near (s.op i) (st.map (·.2.1)) → t.links = s.links) ∧
    (∀ c b, (t.bank c b).flags = (s.bank c b).flags) ∧ ∀ q, (t.quad q).tiles = (s.quad q).tiles

/-- A record has been appended to the error log, and no other but that of an ELEVT that cannot be written (R378, R418, R419). -/
def Recorded (s t : State) (typ sev : BitVec 8) : Prop :=
  (s.log.evt = 0 ∨ sev.toNat < 2 ∨ unwritable s s.log.evt.toNat = false → t.log.seq = s.log.seq + 1) ∧
    ∃ r, look none t.log.recs (s.log.seq % 4096) = some r ∧ r.typ = typ ∧ r.sev = sev ∧ r.time = s.ns ∧ r.seq = s.log.seq % 2 ^ 32

/-! ## Numbers (R42, R45) -/

/-- The number of a finite value; 0 for the others. -/
def FV.rat : FV → ℚ
  | .num n m e => (if n then -1 else 1) * (m : ℚ) * (2 : ℚ) ^ e
  | _ => 0

/-- A finite encoding of a format. -/
def FinEnc (f : Fmt) (n : Nat) : Prop := n < 2 ^ f.bits ∧ (unpack f n).isNan = false ∧ (unpack f n).isInf = false

/-- R46, OF: x rounded to the precision of the format with unbounded exponent exceeds its largest finite number. -/
def Overflows (f : Fmt) (mode : RMode) (x : ℝ) : Prop :=
  let v (n : Nat) : ℝ := ((unpack f n).rat : ℝ)
  let last := maxEnc f
  let step := v last - v (last - 1)
  match mode with
  | .rne => v last + step / 2 < |x| ∨ (|x| = v last + step / 2 ∧ last % 2 = 1)
  | .rmm => v last + step / 2 ≤ |x|
  | .rtz => v last + step ≤ |x|
  | .rup => if x < 0 then v last + step ≤ |x| else v last < x
  | .rdn => if x < 0 then v last < |x| else v last + step ≤ x

/-- R46, UF: x rounded to the precision of the format with unbounded exponent lies below its least normal number. -/
def Tiny (f : Fmt) (mode : RMode) (x : ℝ) : Prop :=
  let v (n : Nat) : ℝ := ((unpack f n).rat : ℝ)
  let low := v (2 ^ f.mbits)
  match mode with
  | .rne | .rmm => |x| < low - v 1 / 4
  | .rtz => |x| < low
  | .rup => if x < 0 then |x| < low else x ≤ low - v 1 / 2
  | .rdn => if x < 0 then |x| ≤ low - v 1 / 2 else x < low

/-- R47: whether an overflow of this sign becomes an infinity. -/
def ToInfinity (mode : RMode) (neg : Prop) : Prop :=
  match mode with
  | .rne | .rmm => True
  | .rtz => False
  | .rup => ¬neg
  | .rdn => neg

/-- R45 to R48 for a number x that is not zero: r is x rounded into f with its sign, and the flags of that rounding. Where the format
saturates, an overflow is the largest finite number. -/
def RoundedSat (f : Fmt) (mode : RMode) (sat : Bool) (x : ℝ) (r : Nat × BitVec 5) : Prop :=
  let v (n : Nat) : ℝ := ((unpack f n).rat : ℝ)
  (r.1 / 2 ^ (f.bits - 1) = 1 ↔ x < 0) ∧ r.2.getLsbD 0 = false ∧ r.2.getLsbD 1 = false ∧
  (r.2.getLsbD 2 = true ↔ Overflows f mode x) ∧ (r.2.getLsbD 3 = true ↔ Tiny f mode x ∧ v r.1 ≠ x) ∧
  (r.2.getLsbD 4 = true ↔ ¬(FinEnc f r.1 ∧ v r.1 = x)) ∧
  (Overflows f mode x →
    (saturates f sat = false → ToInfinity mode (x < 0) → r.1 = signed f (decide (x < 0)) (infEnc f)) ∧
    (saturates f sat = true ∨ ¬ToInfinity mode (x < 0) → r.1 = signed f (decide (x < 0)) (maxEnc f))) ∧
  (¬Overflows f mode x → FinEnc f r.1 ∧
    match mode with
    | .rne => ∀ n, FinEnc f n → |v r.1 - x| ≤ |v n - x| ∧ (|v r.1 - x| = |v n - x| → v n = v r.1 ∨ r.1 % 2 = 0)
    | .rmm => ∀ n, FinEnc f n → |v r.1 - x| ≤ |v n - x| ∧ (|v r.1 - x| = |v n - x| → |v n| ≤ |v r.1|)
    | .rtz => |v r.1| ≤ |x| ∧ ∀ n, FinEnc f n → |v n| ≤ |x| → |v n| ≤ |v r.1|
    | .rup => x ≤ v r.1 ∧ ∀ n, FinEnc f n → x ≤ v n → v r.1 ≤ v n
    | .rdn => v r.1 ≤ x ∧ ∀ n, FinEnc f n → v n ≤ x → v n ≤ v r.1)

/-- As `RoundedSat` without SAT. -/
abbrev Rounded (f : Fmt) (mode : RMode) (x : ℝ) (r : Nat × BitVec 5) : Prop := RoundedSat f mode false x r

/-- R56: r is the f32 that the sum of the products of the pairs, times 2^sc, and x give: NaNs, infinities and NV first, else the exact sum
rounded once. -/
def DotResult (m : RMode) (ps : List (FV × FV)) (sc : Int) (x : FV) (r : Nat × BitVec 5) : Prop :=
  let odd (p : FV × FV) : Bool := (p.1.isZero && p.2.isInf) || (p.1.isInf && p.2.isZero)
  let nan : Prop := ∃ p ∈ ps, p.1.isNan = true ∨ p.2.isNan = true ∨ odd p = true
  let invalid : Prop := ∃ p ∈ ps, p.1.isSig = true ∨ p.2.isSig = true ∨ odd p = true
  let inf (n : Bool) : Prop := ∃ p ∈ ps, p.1.isNan = false ∧ p.2.isNan = false ∧ odd p = false ∧ (p.1.isInf || p.2.isInf) = true ∧
    (p.1.sign != p.2.sign) = n
  let sum : ℚ := (ps.map (fun p => p.1.rat * p.2.rat)).sum * 2 ^ sc
  let minus : Bool := ps.all (fun p => (p.1.isZero || p.2.isZero) && (p.1.sign != p.2.sign))
  (nan ∨ (inf true ∧ inf false) ∨ x.isNan = true ∨ (∃ n, inf n ∧ x = .inf (!n)) → r.1 = 0x7FC00000 ∧ (r.2 = 1 ∨ r.2 = 0) ∧
    (r.2 = 1 ↔ invalid ∨ x.isSig = true ∨ (¬nan ∧ inf true ∧ inf false) ∨ (¬nan ∧ ∃ n, inf n ∧ ¬inf (!n) ∧ x = .inf (!n)))) ∧
  (¬nan → x.isNan = false → ∀ n, inf n → ¬inf (!n) → x ≠ .inf (!n) → r = (signed f32Fmt n 0x7F800000, 0)) ∧
  (¬nan → (∀ n, ¬inf n) → ∀ n, x = .inf n → r = (signed f32Fmt n 0x7F800000, 0)) ∧
  (¬nan → (∀ n, ¬inf n) → x.isNan = false → x.isInf = false →
    (sum + x.rat ≠ 0 → Rounded f32Fmt m ((sum + x.rat : ℚ) : ℝ) r) ∧
    (sum + x.rat = 0 → r = (signed f32Fmt (if sum = 0 ∧ x.sign = minus then minus else decide (m = .rdn)) 0, 0)))

end Sys2Proof.Machine
end

