-- ==== Sys2Proof/Certificates/Slice0/Obligations.lean ====
section
/-! DEFINITION. Sys2Proof/Certificates/Slice0/Obligations.lean: the statements for the provers. -/

open Sys2Proof Sys2Proof.Machine

/-- R134, R135, R136 with R27 (every active bank on its own registers) and R13 (s0): the 27 instructions of OP 0x10. -/
def Obligations.IntegerResults : Prop :=
  ∀ (s : State) (d a b : BitVec 5), Settled s →
    WritesReg (.add d a b) s d (fun x => BitVec.ofNat 64 ((x.rs a).toNat + (x.rs b).toNat)) ∧
    WritesReg (.sub d a b) s d (fun x => BitVec.ofInt 64 ((x.rs a).toInt - (x.rs b).toInt)) ∧
    WritesReg (.mul d a b) s d (fun x => BitVec.ofInt 64 ((x.rs a).toInt * (x.rs b).toInt)) ∧
    WritesReg (.mulh d a b) s d (fun x => BitVec.ofInt 64 ((x.rs a).toInt * (x.rs b).toInt / 2 ^ 64)) ∧
    WritesReg (.mulhu d a b) s d (fun x => BitVec.ofNat 64 ((x.rs a).toNat * (x.rs b).toNat / 2 ^ 64)) ∧
    WritesReg (.div d a b) s d (fun x =>
      if x.rs b = 0 then (if 0 ≤ (x.rs a).toInt then 0x7FFFFFFFFFFFFFFF else 0x8000000000000000)
      else if (x.rs a).toInt = -(2 ^ 63) ∧ (x.rs b).toInt = -1 then 0x7FFFFFFFFFFFFFFF
      else BitVec.ofInt 64 (Int.tdiv (x.rs a).toInt (x.rs b).toInt)) ∧
    WritesReg (.divu d a b) s d (fun x =>
      if x.rs b = 0 then 0xFFFFFFFFFFFFFFFF else BitVec.ofNat 64 ((x.rs a).toNat / (x.rs b).toNat)) ∧
    WritesReg (.rem d a b) s d (fun x =>
      if x.rs b = 0 then x.rs a else BitVec.ofInt 64 (Int.tmod (x.rs a).toInt (x.rs b).toInt)) ∧
    WritesReg (.remu d a b) s d (fun x =>
      if x.rs b = 0 then x.rs a else BitVec.ofNat 64 ((x.rs a).toNat % (x.rs b).toNat)) ∧
    WritesReg (.and d a b) s d (fun x => x.rs a &&& x.rs b) ∧
    WritesReg (.or d a b) s d (fun x => x.rs a ||| x.rs b) ∧
    WritesReg (.xor d a b) s d (fun x => x.rs a ^^^ x.rs b) ∧
    WritesReg (.andn d a b) s d (fun x => x.rs a &&& ~~~(x.rs b)) ∧
    WritesReg (.sll d a b) s d (fun x => BitVec.ofNat 64 ((x.rs a).toNat * 2 ^ ((x.rs b).toNat % 64))) ∧
    WritesReg (.srl d a b) s d (fun x => BitVec.ofNat 64 ((x.rs a).toNat / 2 ^ ((x.rs b).toNat % 64))) ∧
    WritesReg (.sra d a b) s d (fun x => BitVec.ofInt 64 ((x.rs a).toInt / 2 ^ ((x.rs b).toNat % 64))) ∧
    WritesReg (.rol d a b) s d (fun x => ((x.rs a ++ x.rs a) <<< ((x.rs b).toNat % 64)).extractLsb' 64 64) ∧
    WritesReg (.ror d a b) s d (fun x => ((x.rs a ++ x.rs a) >>> ((x.rs b).toNat % 64)).extractLsb' 0 64) ∧
    WritesReg (.slt d a b) s d (fun x => if (x.rs a).toInt < (x.rs b).toInt then 1 else 0) ∧
    WritesReg (.sltu d a b) s d (fun x => if (x.rs a).toNat < (x.rs b).toNat then 1 else 0) ∧
    WritesReg (.min d a b) s d (fun x => BitVec.ofInt 64 (min (x.rs a).toInt (x.rs b).toInt)) ∧
    WritesReg (.max d a b) s d (fun x => BitVec.ofInt 64 (max (x.rs a).toInt (x.rs b).toInt)) ∧
    WritesReg (.minu d a b) s d (fun x => BitVec.ofNat 64 (min (x.rs a).toNat (x.rs b).toNat)) ∧
    WritesReg (.maxu d a b) s d (fun x => BitVec.ofNat 64 (max (x.rs a).toNat (x.rs b).toNat)) ∧
    WritesReg (.fsl d a b) s d (fun x => ((x.rs a ++ x.rs b) <<< ((x.rs d).toNat % 64)).extractLsb' 64 64) ∧
    WritesReg (.fsr d a b) s d (fun x => ((x.rs a ++ x.rs b) >>> ((x.rs d).toNat % 64)).extractLsb' 0 64) ∧
    WritesReg (.csel d a b) s d (fun x => if x.rs d ≠ 0 then x.rs a else x.rs b)

/-- R137: the ten instructions of OP 0x11. A count is given by what it counts. R138 and R139: OP 0x12 and 0x13. Shift counts above 63 do not decode (R138). -/
def Obligations.UnaryAndImmediateResults : Prop :=
  (∀ (s : State) (d a : BitVec 5), Settled s →
    (∃ f : Word → Word, WritesReg (.clz d a) s d (fun x => f (x.rs a)) ∧
      ∀ v, (f v).toNat ≤ 64 ∧ (∀ i, 64 ≤ i + (f v).toNat → v.getLsbD i = false) ∧ ((f v).toNat < 64 → v.getLsbD (63 - (f v).toNat) = true)) ∧
    (∃ f : Word → Word, WritesReg (.ctz d a) s d (fun x => f (x.rs a)) ∧
      ∀ v, (f v).toNat ≤ 64 ∧ (∀ i, i < (f v).toNat → v.getLsbD i = false) ∧ ((f v).toNat < 64 → v.getLsbD (f v).toNat = true)) ∧
    WritesReg (.popc d a) s d (fun x => BitVec.ofNat 64 ((List.range 64).filter (fun i => (x.rs a).getLsbD i)).length) ∧
    WritesReg (.sextB d a) s d (fun x => ((x.rs a).setWidth 8).signExtend 64) ∧
    WritesReg (.sextH d a) s d (fun x => ((x.rs a).setWidth 16).signExtend 64) ∧
    WritesReg (.sextW d a) s d (fun x => ((x.rs a).setWidth 32).signExtend 64) ∧
    WritesReg (.zextB d a) s d (fun x => BitVec.ofNat 64 ((x.rs a).toNat % 2 ^ 8)) ∧
    WritesReg (.zextH d a) s d (fun x => BitVec.ofNat 64 ((x.rs a).toNat % 2 ^ 16)) ∧
    WritesReg (.zextW d a) s d (fun x => BitVec.ofNat 64 ((x.rs a).toNat % 2 ^ 32)) ∧
    (∃ f : Word → Word, WritesReg (.bswap d a) s d (fun x => f (x.rs a)) ∧
      ∀ v k, k < 8 → (f v).extractLsb' (8 * k) 8 = v.extractLsb' (8 * (7 - k)) 8)) ∧
  (∀ (s : State) (d a : BitVec 5) (i : BitVec 22) (v : BitVec 32), Settled s →
    WritesReg (.addi d a i) s d (fun x => BitVec.ofInt 64 ((x.rs a).toInt + i.toInt)) ∧
    WritesReg (.andi d a i) s d (fun x => x.rs a &&& i.signExtend 64) ∧
    WritesReg (.ori d a i) s d (fun x => x.rs a ||| i.signExtend 64) ∧
    WritesReg (.xori d a i) s d (fun x => x.rs a ^^^ i.signExtend 64) ∧
    (i.toNat ≤ 63 →
      WritesReg (.slli d a i) s d (fun x => BitVec.ofNat 64 ((x.rs a).toNat * 2 ^ i.toNat)) ∧
      WritesReg (.srli d a i) s d (fun x => BitVec.ofNat 64 ((x.rs a).toNat / 2 ^ i.toNat)) ∧
      WritesReg (.srai d a i) s d (fun x => BitVec.ofInt 64 ((x.rs a).toInt / 2 ^ i.toNat))) ∧
    (63 < i.toNat → (Instr.slli d a i).formOk = false ∧ (Instr.srli d a i).formOk = false ∧ (Instr.srai d a i).formOk = false) ∧
    WritesReg (.slti d a i) s d (fun x => if (x.rs a).toInt < i.toInt then 1 else 0) ∧
    WritesReg (.sltiu d a i) s d (fun x => if (x.rs a).toNat < (i.signExtend 64).toNat then 1 else 0) ∧
    WritesReg (.li d v) s d (fun _ => BitVec.ofInt 64 v.toInt) ∧
    WritesReg (.lih d v) s d (fun x => v ++ (x.rs d).setWidth 32))

/-- R140, R141, R143: the scalar float instructions that round, wired to their operation, precision and operands; R21: the trap. -/
def Obligations.FloatRoundingResults : Prop :=
  ∀ (s : State) (d a b : BitVec 5), Settled s →
    let m := rmodeOf s.fpart.rmNow
    (s.fpart.rmNow.toNat < 5 →
      WritesFloat (.faddF32 d a b) s d (fun x => fpAdd f32Fmt m (x.rs a) (x.rs b)) ∧
      WritesFloat (.fsubF32 d a b) s d (fun x => fpSub f32Fmt m (x.rs a) (x.rs b)) ∧
      WritesFloat (.fmulF32 d a b) s d (fun x => fpMul f32Fmt m (x.rs a) (x.rs b)) ∧
      WritesFloat (.fdivF32 d a b) s d (fun x => fpDiv f32Fmt m (x.rs a) (x.rs b)) ∧
      WritesFloat (.fsqrtF32 d a) s d (fun x => fpSqrt f32Fmt m (x.rs a)) ∧
      WritesFloat (.fmaF32 d a b) s d (fun x => fpFma f32Fmt m (x.rs a) (x.rs b) (x.rs d)) ∧
      WritesFloat (.fmsF32 d a b) s d (fun x => fpFms f32Fmt m (x.rs a) (x.rs b) (x.rs d)) ∧
      WritesFloat (.faddF64 d a b) s d (fun x => fpAdd f64Fmt m (x.rs a) (x.rs b)) ∧
      WritesFloat (.fsubF64 d a b) s d (fun x => fpSub f64Fmt m (x.rs a) (x.rs b)) ∧
      WritesFloat (.fmulF64 d a b) s d (fun x => fpMul f64Fmt m (x.rs a) (x.rs b)) ∧
      WritesFloat (.fdivF64 d a b) s d (fun x => fpDiv f64Fmt m (x.rs a) (x.rs b)) ∧
      WritesFloat (.fsqrtF64 d a) s d (fun x => fpSqrt f64Fmt m (x.rs a)) ∧
      WritesFloat (.fmaF64 d a b) s d (fun x => fpFma f64Fmt m (x.rs a) (x.rs b) (x.rs d)) ∧
      WritesFloat (.fmsF64 d a b) s d (fun x => fpFms f64Fmt m (x.rs a) (x.rs b) (x.rs d)) ∧
      WritesFloat (.fcvtF32I64 d a) s d (fun x => fpOfInt f32Fmt true m (x.rs a)) ∧
      WritesFloat (.fcvtF32N64 d a) s d (fun x => fpOfInt f32Fmt false m (x.rs a)) ∧
      WritesFloat (.fcvtF64I64 d a) s d (fun x => fpOfInt f64Fmt true m (x.rs a)) ∧
      WritesFloat (.fcvtF64N64 d a) s d (fun x => fpOfInt f64Fmt false m (x.rs a)) ∧
      WritesFloat (.fcvtI64F32 d a) s d (fun x => fpToInt f32Fmt true m (x.rs a)) ∧
      WritesFloat (.fcvtN64F32 d a) s d (fun x => fpToInt f32Fmt false m (x.rs a)) ∧
      WritesFloat (.fcvtI64F64 d a) s d (fun x => fpToInt f64Fmt true m (x.rs a)) ∧
      WritesFloat (.fcvtN64F64 d a) s d (fun x => fpToInt f64Fmt false m (x.rs a)) ∧
      WritesFloat (.fcvtF32F64 d a) s d (fun x => fpConv f64Fmt f32Fmt m (x.rs a)) ∧
      WritesFloat (.fcvtBf16F32 d a) s d (fun x => fpConv f32Fmt bf16Fmt m (x.rs a))) ∧
    (5 ≤ s.fpart.rmNow.toNat →
      ∀ i ∈ [Instr.faddF32 d a b, .fsubF32 d a b, .fmulF32 d a b, .fdivF32 d a b, .fsqrtF32 d a, .fmaF32 d a b, .fmsF32 d a b,
          .faddF64 d a b, .fsubF64 d a b, .fmulF64 d a b, .fdivF64 d a b, .fsqrtF64 d a, .fmaF64 d a b, .fmsF64 d a b,
          .fcvtF32I64 d a, .fcvtF32N64 d a, .fcvtF64I64 d a, .fcvtF64N64 d a, .fcvtI64F32 d a, .fcvtN64F32 d a,
          .fcvtI64F64 d a, .fcvtN64F64 d a, .fcvtF32F64 d a, .fcvtBf16F32 d a],
        exec i s = .next (s.trapSingle 0x01 (fcsrWord s.fpart.rmNow (s.fbank s.seqBank).flags)))

/-- R45 to R48 for what is delivered in every format, then for sums, products and fused forms over the finite numbers of the formats with
infinities (R58, R141). -/
def Obligations.SumsAndProductsAreCorrectlyRounded : Prop :=
  (∀ (f : Fmt) (m : RMode) (sat n : Bool) (k : Nat) (e : Int), f ∈ [f32Fmt, bf16Fmt, f16Fmt, e5m2Fmt, e4m3Fmt, f64Fmt] →
    (k ≠ 0 → RoundedSat f m sat (((FV.num n k e).rat : ℚ) : ℝ) (deliver f m sat (.num n k e))) ∧
    deliver f m sat (.num n 0 e) = (if n then 2 ^ (f.bits - 1) else 0, 0) ∧
    (∀ q, deliver f m sat (.nan q) =
      ([(f32Fmt, 0x7FC00000), (bf16Fmt, 0x7FC0), (f16Fmt, 0x7E00), (e5m2Fmt, 0x7E), (e4m3Fmt, 0x7F)].foldl
        (fun r p => if f = p.1 then p.2 else r) 0x7FF8000000000000, 0)) ∧
    deliver f m sat (.inf n) =
      if f = e4m3Fmt ∨ (f = e5m2Fmt ∧ sat = true) then ((if f = e4m3Fmt then 0x7E else 0x7B) + (if n then 0x80 else 0), 0x14)
      else (signed f n (infEnc f), 0)) ∧
  (∀ (f : Fmt) (m : RMode) (a b c : Nat), f ∈ [f32Fmt, bf16Fmt, f16Fmt, e5m2Fmt, f64Fmt] → FinEnc f a → FinEnc f b → FinEnc f c →
    let x := unpack f a
    let y := unpack f b
    let z := unpack f c
    let is (q : ℚ) (r : FV × BitVec 5) : Prop :=
      r.2 = 0 ∧ (q ≠ 0 → Rounded f m (q : ℝ) (deliver f m false r.1)) ∧
        (q = 0 → x.rat ≠ 0 → y.rat ≠ 0 → z.rat ≠ 0 → deliver f m false r.1 = (signed f (decide (m = .rdn)) 0, 0))
    is (x.rat + y.rat) (fvAdd m x y) ∧ is (x.rat - y.rat) (fvAdd m x y.flip) ∧
    (x.rat * y.rat ≠ 0 → Rounded f m ((x.rat * y.rat : ℚ) : ℝ) (deliver f m false (fvMul x y).1)) ∧
    is (x.rat * y.rat + z.rat) (fvFma m x y z) ∧ is (x.rat * y.rat - z.rat) (fvFma m x y z.flip)) ∧
  ∀ (f : Fmt) (m : RMode) (a b c : Word), (f = f32Fmt ∨ f = f64Fmt) →
    let x := unpack f (a.toNat % 2 ^ f.bits)
    let y := unpack f (b.toNat % 2 ^ f.bits)
    let z := unpack f (c.toNat % 2 ^ f.bits)
    let word (r : FV × BitVec 5) : Word × BitVec 5 := (BitVec.ofNat 64 (deliver f m false r.1).1, r.2 ||| (deliver f m false r.1).2)
    fpAdd f m a b = word (fvAdd m x y) ∧ fpSub f m a b = word (fvAdd m x y.flip) ∧ fpMul f m a b = word (fvMul x y) ∧
    fpFma f m a b c = word (fvFma m x y z) ∧ fpFms f m a b c = word (fvFma m x y z.flip)

/-- R45 and R47 for a / b, 1 / a, and for a > 0 the root of a and its reciprocal (R59, R141); for 2^x and log2 x up to a margin of 2^-200
around the points where a rounding changes (that no x comes so near one is not shown). -/
def Obligations.QuotientsAndRootsAreCorrectlyRounded : Prop :=
  (∀ (f : Fmt) (m : RMode) (a : Nat), f ∈ [f32Fmt, bf16Fmt, f16Fmt] → FinEnc f a →
    let x := unpack f a
    let near (y : ℝ) (r : FV × BitVec 5) : Prop :=
      r.2 = 0 ∧ ∀ d, (∀ z : ℝ, |z - y| ≤ |y| * (2 : ℝ) ^ (-200 : ℤ) → Rounded f m z d) → deliver f m false r.1 = d
    near ((2 : ℝ) ^ (x.rat : ℝ)) (fvExp2 x) ∧
    (∀ k : Int, x.rat = k → Rounded f m ((2 : ℝ) ^ k) (deliver f m false (fvExp2 x).1)) ∧
    (0 < x.rat → x.rat ≠ 1 → near (Real.logb 2 (x.rat : ℝ)) (fvLog2 x)) ∧
    (∀ k : Int, x.rat = (2 : ℚ) ^ k → k ≠ 0 → Rounded f m ((k : ℤ) : ℝ) (deliver f m false (fvLog2 x).1)) ∧
    (x.rat = 1 → (fvLog2 x).2 = 0 ∧ deliver f m false (fvLog2 x).1 = (0, 0))) ∧
  (∀ (f : Fmt) (m : RMode) (a b : Nat), f ∈ [f32Fmt, bf16Fmt, f16Fmt, f64Fmt] → FinEnc f a → FinEnc f b →
    let x := unpack f a
    let y := unpack f b
    x.rat ≠ 0 →
    Rounded f m ((1 / x.rat : ℚ) : ℝ) (deliver f m false (fvRcp x).1) ∧
    (y.rat ≠ 0 → Rounded f m ((x.rat / y.rat : ℚ) : ℝ) (deliver f m false (fvDiv x y).1)) ∧
    (0 < x.rat →
      Rounded f m (Real.sqrt (x.rat : ℝ)) (deliver f m false (fvSqrt x).1) ∧
      Rounded f m (1 / Real.sqrt (x.rat : ℝ)) (deliver f m false (fvRsq x).1))) ∧
  ∀ (f : Fmt) (m : RMode) (a b : Word), (f = f32Fmt ∨ f = f64Fmt) →
    let x := unpack f (a.toNat % 2 ^ f.bits)
    let y := unpack f (b.toNat % 2 ^ f.bits)
    let word (r : FV × BitVec 5) : Word × BitVec 5 := (BitVec.ofNat 64 (deliver f m false r.1).1, r.2 ||| (deliver f m false r.1).2)
    fpDiv f m a b = word (fvDiv x y) ∧ fpSqrt f m a = word (fvSqrt x)

/-- R44, R46 and R59: the special values, of the scalar arithmetic and of the exact arithmetic that every format shares. The sign of a sum of
zeros of different signs is the model's choice (log 10), as is NV of a lane's 0 times infinity plus a quiet NaN (log 107). -/
def Obligations.FloatSpecialValues : Prop :=
  (∀ (m : RMode) (x y z : FV),
    let nv (p : Bool) : BitVec 5 := if p then 1 else 0
    let num (x : FV) : Bool := !x.isNan && !x.isInf
    let s := x.sign != y.sign
    let bad := (x.isZero && y.isInf) || (x.isInf && y.isZero)
    let zero (n : Bool) (r : FV × BitVec 5) : Prop := r.1.isZero = true ∧ r.1.sign = n ∧ r.2 = 0
    ((x.isNan ∨ y.isNan) → ∀ r ∈ [fvAdd m x y, fvMul x y, fvDiv x y], r = (.nan false, nv (x.isSig || y.isSig))) ∧
    ((x.isNan ∨ y.isNan ∨ z.isNan) → bad = false → fvFma m x y z = (.nan false, nv (x.isSig || y.isSig || z.isSig))) ∧
    (bad → fvMul x y = (.nan false, 1) ∧ fvFma m x y z = (.nan false, 1)) ∧
    (x.isInf → y.isInf → fvDiv x y = (.nan false, 1) ∧ fvAdd m x y = if x.sign = y.sign then (x, 0) else (.nan false, 1)) ∧
    (x.isInf → num y → fvAdd m x y = (x, 0) ∧ fvAdd m y x = (x, 0) ∧ fvDiv x y = (.inf s, 0) ∧ zero s (fvDiv y x)) ∧
    ((x.isInf ∨ y.isInf) → x.isNan = false → y.isNan = false → bad = false →
      fvMul x y = (.inf s, 0) ∧
        (z.isNan = false → fvFma m x y z = if z.isInf ∧ z.sign ≠ s then (.nan false, 1) else (.inf s, 0))) ∧
    (num x → num y → z.isInf → fvFma m x y z = (z, 0)) ∧
    (num x → num y → (x.isZero ∨ y.isZero) → zero s (fvMul x y) ∧
      (z.isZero → zero (if z.sign = s then s else decide (m = .rdn)) (fvFma m x y z))) ∧
    (x.isZero → y.isZero → zero (if x.sign = y.sign then x.sign else decide (m = .rdn)) (fvAdd m x y) ∧ fvDiv x y = (.nan false, 1)) ∧
    (num x → x.isZero = false → y.isZero → fvDiv x y = (.inf s, 2)) ∧
    (num y → y.isZero = false → x.isZero → zero s (fvDiv x y)) ∧
    (x.isNan → ∀ r ∈ [fvRcp x, fvRsq x, fvExp2 x, fvLog2 x, fvSqrt x], r = (.nan false, nv x.isSig)) ∧
    (x.isZero → fvRcp x = (.inf x.sign, 2) ∧ fvRsq x = (.inf x.sign, 2) ∧ (fvExp2 x).1.rat = 1 ∧ (fvExp2 x).2 = 0 ∧
      fvLog2 x = (.inf true, 2) ∧ zero x.sign (fvSqrt x)) ∧
    (x.isInf → zero x.sign (fvRcp x) ∧
      (x.sign = false → zero false (fvRsq x) ∧ fvExp2 x = (x, 0) ∧ fvLog2 x = (x, 0) ∧ fvSqrt x = (x, 0)) ∧
      (x.sign = true → zero false (fvExp2 x) ∧ ∀ r ∈ [fvRsq x, fvLog2 x, fvSqrt x], r = (.nan false, 1))) ∧
    (num x → x.isZero = false → x.sign → ∀ r ∈ [fvRsq x, fvLog2 x, fvSqrt x], r = (.nan false, 1))) ∧
  ∀ (f : Fmt) (m : RMode) (a b c : Word), (f = f32Fmt ∨ f = f64Fmt) →
    let x := fvIn f a
    let y := fvIn f b
    let qnan : Word := if f = f32Fmt then 0x7FC00000 else 0x7FF8000000000000
    let nv (p : Bool) : BitVec 5 := if p then 1 else 0
    ((x.isNan ∨ y.isNan) →
      let r := (qnan, nv (x.isSig || y.isSig))
      fpAdd f m a b = r ∧ fpSub f m a b = r ∧ fpMul f m a b = r ∧ fpDiv f m a b = r) ∧
    (x.isNan → fpSqrt f m a = (qnan, nv x.isSig)) ∧
    (x.isInf → y.isInf → fpDiv f m a b = (qnan, 1) ∧ (x ≠ y → fpAdd f m a b = (qnan, 1)) ∧ (x = y → fpSub f m a b = (qnan, 1))) ∧
    ((x.isZero ∧ y.isInf ∨ x.isInf ∧ y.isZero) →
      fpMul f m a b = (qnan, 1) ∧ fpFma f m a b c = (qnan, 1) ∧ fpFms f m a b c = (qnan, 1)) ∧
    (x.isZero → y.isZero → fpDiv f m a b = (qnan, 1)) ∧
    (x.isNan = false → x.isInf = false → x.isZero = false → y.isZero →
      fpDiv f m a b = (BitVec.ofNat 64 (signed f (x.sign != y.sign) (infEnc f)), 2)) ∧
    (x.isNan = false → x.sign → x.isZero = false → fpSqrt f m a = (qnan, 1)) ∧
    (x.isZero → fpSqrt f m a = (BitVec.ofNat 64 (signed f x.sign 0), 0))

/-- R50 and R141-R143: the scalar float instructions that do not round. -/
def Obligations.PlainFloatResults : Prop :=
  ∀ (s : State) (d a b : BitVec 5), Settled s →
    (∀ p ∈ [(f32Fmt, (0x7FC00000 : Word), Instr.fminF32 d a b, Instr.fmaxF32 d a b, Instr.feqF32 d a b, Instr.fltF32 d a b, Instr.fleF32 d a b,
          Instr.fclassF32 d a, Instr.fnegF32 d a, Instr.fabsF32 d a),
        (f64Fmt, 0x7FF8000000000000, .fminF64 d a b, .fmaxF64 d a b, .feqF64 d a b, .fltF64 d a b, .fleF64 d a b,
          .fclassF64 d a, .fnegF64 d a, .fabsF64 d a)],
      let f := p.1
      let qnan := p.2.1
      let enc (v : Word) : Word := BitVec.ofNat 64 (v.toNat % 2 ^ f.bits)
      let sigs (x y : FV) : BitVec 5 := if x.isSig || y.isSig then 1 else 0
      let anys (x y : FV) : BitVec 5 := if x.isNan || y.isNan then 1 else 0
      let below (x y : FV) : Prop :=
        match x, y with
        | .inf n, .inf k => n = true ∧ k = false
        | .inf n, _ => n = true
        | _, .inf k => k = false
        | x, y => x.rat < y.rat
      ∃ mn mx eq lt le cl ng ab : Word → Word → Word × BitVec 5,
        WritesFloat p.2.2.1 s d (fun x => mn (x.rs a) (x.rs b)) ∧ WritesFloat p.2.2.2.1 s d (fun x => mx (x.rs a) (x.rs b)) ∧
        WritesFloat p.2.2.2.2.1 s d (fun x => eq (x.rs a) (x.rs b)) ∧ WritesFloat p.2.2.2.2.2.1 s d (fun x => lt (x.rs a) (x.rs b)) ∧
        WritesFloat p.2.2.2.2.2.2.1 s d (fun x => le (x.rs a) (x.rs b)) ∧
        WritesFloat p.2.2.2.2.2.2.2.1 s d (fun x => cl (x.rs a) 0) ∧ WritesFloat p.2.2.2.2.2.2.2.2.1 s d (fun x => ng (x.rs a) 0) ∧
        WritesFloat p.2.2.2.2.2.2.2.2.2 s d (fun x => ab (x.rs a) 0) ∧
        ∀ u v : Word,
          let x := fvIn f u
          let y := fvIn f v
          let first := below x y ∨ (x.isZero = true ∧ y.isZero = true ∧ x.sign = true ∧ y.sign = false)
          (x.isNan → y.isNan → mn u v = (qnan, sigs x y) ∧ mx u v = (qnan, sigs x y)) ∧
          (x.isNan → y.isNan = false → mn u v = (enc v, sigs x y) ∧ mx u v = (enc v, sigs x y)) ∧
          (x.isNan = false → y.isNan → mn u v = (enc u, sigs x y) ∧ mx u v = (enc u, sigs x y)) ∧
          (x.isNan = false → y.isNan = false → first → mn u v = (enc u, 0) ∧ mx u v = (enc v, 0)) ∧
          (x.isNan = false → y.isNan = false → ¬first → mn u v = (enc v, 0) ∧ mx u v = (enc u, 0)) ∧
          (x.isNan ∨ y.isNan → eq u v = (0, sigs x y) ∧ lt u v = (0, anys x y) ∧ le u v = (0, anys x y)) ∧
          (x.isNan = false → y.isNan = false →
            (below x y → eq u v = (0, 0) ∧ lt u v = (1, 0) ∧ le u v = (1, 0)) ∧
            (below y x → eq u v = (0, 0) ∧ lt u v = (0, 0) ∧ le u v = (0, 0)) ∧
            (¬below x y → ¬below y x → eq u v = (1, 0) ∧ lt u v = (0, 0) ∧ le u v = (1, 0))) ∧
          (cl u 0).2 = 0 ∧ (cl u 0).1.toNat % 2 ^ 3 = (match x with
            | .nan sg => if sg then 5 else 4
            | .inf _ => 3
            | .num _ m _ => if m = 0 then 0 else if m < 2 ^ f.mbits then 1 else 2) ∧
          ((cl u 0).1.getLsbD 3 = u.getLsbD (f.bits - 1)) ∧ (cl u 0).1.extractLsb' 4 12 = 0 ∧ (cl u 0).1.extractLsb' 32 32 = 0 ∧
          (∀ n m e, x = .num n m e → m ≠ 0 →
            let k := ((cl u 0).1.extractLsb' 16 16).toInt
            (2 : ℚ) ^ k ≤ |x.rat| ∧ |x.rat| < 2 ^ (k + 1)) ∧
          ((x.isNan ∨ x.isInf ∨ x.isZero) → (cl u 0).1.extractLsb' 16 16 = 0) ∧
          (x.isNan → ng u 0 = (qnan, sigs x x) ∧ ab u 0 = (qnan, sigs x x)) ∧
          (x.isNan = false →
            ng u 0 = (enc u ^^^ ((1 : Word) <<< (f.bits - 1)), 0) ∧ ab u 0 = (enc u &&& ~~~((1 : Word) <<< (f.bits - 1)), 0))) ∧
    ∃ wide half : Word → Word × BitVec 5,
      WritesFloat (.fcvtF64F32 d a) s d (fun x => wide (x.rs a)) ∧ WritesFloat (.fcvtF32Bf16 d a) s d (fun x => half (x.rs a)) ∧
      ∀ u : Word,
        ((fvIn f32Fmt u).isNan → wide u = (0x7FF8000000000000, if (fvIn f32Fmt u).isSig then 1 else 0)) ∧
        ((fvIn bf16Fmt u).isNan → half u = (0x7FC00000, if (fvIn bf16Fmt u).isSig then 1 else 0)) ∧
        ((fvIn f32Fmt u).isNan = false →
          (wide u).2 = 0 ∧ (fvIn f64Fmt (wide u).1).rat = (fvIn f32Fmt u).rat ∧
            (fvIn f64Fmt (wide u).1).isInf = (fvIn f32Fmt u).isInf ∧ (fvIn f64Fmt (wide u).1).sign = (fvIn f32Fmt u).sign) ∧
        ((fvIn bf16Fmt u).isNan = false → half u = (BitVec.ofNat 64 (u.toNat % 2 ^ 16 * 2 ^ 16), 0))

/-- R49 and R143. `z` is the integer that the mode gives for the exact value. -/
def Obligations.ConversionsFollowTheirRule : Prop :=
  ∀ (m : RMode) (u : Word),
    (∀ f, (f = f32Fmt ∨ f = f64Fmt) → ∀ sgn : Bool,
      let lo : Int := if sgn then -(2 ^ 63) else 0
      let hi : Int := if sgn then 2 ^ 63 - 1 else 2 ^ 64 - 1
      let r := fpToInt f sgn m u
      ((fvIn f u).isNan → r = (0, 1)) ∧
      ((fvIn f u).isInf → r = (BitVec.ofInt 64 (if (fvIn f u).sign then lo else hi), 1)) ∧
      ((fvIn f u).isNan = false → (fvIn f u).isInf = false →
        let x := (fvIn f u).rat
        let z : Int :=
          match m with
          | .rdn => ⌊x⌋
          | .rup => ⌈x⌉
          | .rtz => if 0 ≤ x then ⌊x⌋ else ⌈x⌉
          | .rne => if x - ⌊x⌋ < 1 / 2 ∨ (x - ⌊x⌋ = 1 / 2 ∧ ⌊x⌋ % 2 = 0) then ⌊x⌋ else ⌊x⌋ + 1
          | .rmm => if x - ⌊x⌋ < 1 / 2 ∨ (x - ⌊x⌋ = 1 / 2 ∧ x < 0) then ⌊x⌋ else ⌊x⌋ + 1
        r = if z < lo then (BitVec.ofInt 64 lo, 1) else if hi < z then (BitVec.ofInt 64 hi, 1)
          else (BitVec.ofInt 64 z, if (z : ℚ) = x then 0 else 16))) ∧
    (∀ f, (f = f32Fmt ∨ f = f64Fmt) → ∀ sgn : Bool,
      let z : Int := if sgn then u.toInt else (u.toNat : Int)
      (z = 0 → fpOfInt f sgn m u = (0, 0)) ∧ (z ≠ 0 → Rounded f m (z : ℝ) ((fpOfInt f sgn m u).1.toNat, (fpOfInt f sgn m u).2))) ∧
    ∀ p ∈ [(f64Fmt, f32Fmt), (f32Fmt, bf16Fmt)],
      let x := fvIn p.1 u
      let r := fpConv p.1 p.2 m u
      (x.isNan → r = (BitVec.ofNat 64 (nanEnc p.2), if x.isSig then 1 else 0)) ∧
      (x.isInf → r = (BitVec.ofNat 64 (signed p.2 x.sign (infEnc p.2)), 0)) ∧
      (x.isZero → r = (BitVec.ofNat 64 (signed p.2 x.sign 0), 0)) ∧
      (x.isNan = false → x.isInf = false → x.isZero = false → Rounded p.2 m (x.rat : ℝ) (r.1.toNat, r.2))

/-- R121: what has no effect on the registers; R88 and R101: where the part goes on. R133: the values are free (log 2). R333 and R337: rel as a
release point of kind 1; R339: echoed values. -/
def Obligations.NoOperationsAdvanceAndRndIsFree : Prop :=
  (∀ s : State, Settled s →
    OnlyProceeds .nop s ∧ OnlyProceeds .ifence s ∧ OnlyProceeds .echo s ∧ (s.fseat.red = none → OnlyProceeds .rel s) ∧
    ∀ c, (s.part s.focus).convoy = some c →
      (∀ x, c.todo = [x] → (s.part s.focus).advance =
        { s.part s.focus with pc := c.next, wait := none, convoy := none, begun := 0, vl := c.cut.getD (s.part s.focus).vl }) ∧
      ∀ x y rest, c.todo = x :: y :: rest →
        (s.part s.focus).advance = { s.part s.focus with pc := y.1, wait := none, begun := 0, convoy := some { c with todo := y :: rest } }) ∧
  (∀ (s : State) (d : BitVec 5), Settled s → s.fseat.red = none →
    ∃ t, exec (.rnd d) s = .next t ∧ Around s { t with free := s.free } ∧ t.free = s.free + s.active.length ∧ Proceeds s t ∧
      OnBanks s t (fun b x => RegOnly d (Config.freeWord (s.free + s.active.idxOf b)) x)) ∧
  (∀ (s : State) (r : Replica), Settled s → s.fseat.red = some r →
    let keys := ((s.task? s.fseat.launch s.fseat.task).map (·.keys)).getD 0
    let behindPerformer : Prop := r.performer = false ∧ ∃ q, s.performing s.fseat.launch s.fseat.task = some q
    (r.released = false → ∀ i, s.localOp = some i → Waits .rel s (.op i)) ∧
    (r.released = false → s.localOp = none →
      ∃ t, exec .rel s = .next t ∧ { t with cores := s.cores } = s ∧ SameCores s t ∧ (∀ c b, t.bank c b = s.bank c b) ∧
        { t.seat s.focus with parts := s.fseat.parts } =
          { s.fseat with red := some { r with hold := some ⟨1, signature s r keys 1 [], s.fpart.pc⟩ } } ∧
        t.part s.focus = { s.fpart with wait := some .vote } ∧ ∀ q, q ≠ s.focus.seq → (t.seat s.focus).part? q = s.fseat.part? q) ∧
    (r.released = true → behindPerformer → Waits .rel s .vote) ∧
    (r.released = true → ¬behindPerformer →
      ∃ t z, exec .rel s = .next t ∧ { t with cores := s.cores } = s ∧ SameCores s t ∧ Proceeds s t ∧
        (t.seat s.focus).red = some { r with
          dirty := [], echoLog := r.echoLog.drop r.echoPos, echoPos := 0, hold := none, released := false, performer := false, snap := some z } ∧
        (z.parts, z.status, z.cause, z.epc, z.tval, z.tvec, z.handler, z.prio, z.lcap, z.bars, z.mg, z.shape, z.opAge) =
          ((t.seat s.focus).parts, s.fseat.status, s.fseat.cause, s.fseat.epc, s.fseat.tval, s.fseat.tvec, s.fseat.handler, s.fseat.prio,
            s.fseat.lcap, s.fseat.bars, s.fseat.rows.length, s.fseat.shape, s.opAge) ∧
        z.sram = s.fseat.sram.map (fun b => ⟨b, s.sram (s.focus.core / 4) b⟩) ∧
        (∀ c b, ¬(c = s.focus.core ∧ b ∈ s.fseat.banks) → t.bank c b = s.bank c b) ∧
        ∀ b ∈ s.fseat.banks,
          { t.fbank b with panes := (s.fbank b).panes, slots := (s.fbank b).slots } = s.fbank b ∧
          ∀ k, k < 12 →
            (((s.fbank b).pane k).park = false → (t.fbank b).pane k = (s.fbank b).pane k ∧
              (((s.fbank b).pane k).st ∈ [PaneState.opening, .openClean, .openDirty, .writing] →
                ((t.fbank b).slot k 6).img = some (((s.fbank b).pane k).next.getD ((s.fbank b).pane k).img))) ∧
            (((s.fbank b).pane k).park = true → ((t.fbank b).pane k).park = false ∧
              ∀ img, ((s.fbank b).slot k 5).img = some img → ((t.fbank b).pane k).img = img))) ∧
  ∀ (s : State) (d : BitVec 5) (r : Replica), Settled s → s.fseat.red = some r →
    let n := s.active.length
    (r.echoPos + n ≤ r.echoLog.length →
      ∃ t, exec (.rnd d) s = .next t ∧ { t with cores := s.cores } = s ∧ SameCores s t ∧ Proceeds s t ∧
        { t.seat s.focus with parts := s.fseat.parts } = { s.fseat with red := some { r with echoPos := r.echoPos + n } } ∧
        OnBanks s t (fun b x => RegOnly d (r.echoLog.getD (r.echoPos + s.active.idxOf b) 0) x)) ∧
    (r.echoLog.length ≤ r.echoPos → r.leads = false → n ≠ 0 → Waits (.rnd d) s .echo) ∧
    (r.echoLog.length = r.echoPos → r.leads = true → n = 1 → (s.seatsOf s.fseat.launch s.fseat.task).Nodup →
      ∃ t, exec (.rnd d) s = .next t ∧ t.free = s.free + n ∧ Proceeds s t ∧
        OnBanks s t (fun b x => RegOnly d (Config.freeWord (s.free + s.active.idxOf b)) x) ∧
        ∀ q ∈ s.seatsOf s.fseat.launch s.fseat.task, ∀ u, s.seat? q.1 q.2 = some u →
          ((t.seat? q.1 q.2).bind (·.red)) = u.red.map (fun x => { x with
            echoLog := x.echoLog ++ (List.range n).map (fun i => Config.freeWord (s.free + i))
            echoPos := if q = (s.focus.core, s.focus.base) then x.echoPos + n else x.echoPos }))

/-- R127 and R128 under R89. R129 and R130. -/
def Obligations.JumpsAndBranchesTransferControl : Prop :=
  (∀ (s : State) (d a : BitVec 5) (imm : BitVec 32), Settled s →
    let rel : Word := BitVec.ofInt 64 ((s.fpart.pc.toNat : Int) + 2 * imm.toInt)
    let reg : Word := (s.fbank s.seqBank).rs a
    TransfersTo (.j imm) s rel (fun x y => y = x) ∧
    TransfersTo (.jl d imm) s rel (fun x y => RegOnly d s.fpart.nextAddr x y) ∧
    (reg.toNat < 2 ^ 56 →
      TransfersTo (.jr a) s reg (fun x y => y = x) ∧ TransfersTo (.jlr d a) s reg (fun x y => RegOnly d s.fpart.nextAddr x y)) ∧
    (2 ^ 56 ≤ reg.toNat → exec (.jr a) s = .next (s.trapSingle 0x03 reg) ∧ exec (.jlr d a) s = .next (s.trapSingle 0x03 reg))) ∧
  (∀ (s : State) (a b : BitVec 5) (c : BitVec 3) (off : BitVec 22), Settled s → c.toNat ≤ 5 →
    let target : Word := BitVec.ofInt 64 ((s.fpart.pc.toNat : Int) + 2 * off.toInt)
    let q := s.fbank s.seqBank
    let branch (i : Instr) (taken : Prop) : Prop :=
      (taken → TransfersTo i s target (fun x y => y = x)) ∧ (¬taken → OnlyProceeds i s)
    branch (.bEq a b off) (q.rs a = q.rs b) ∧
    branch (.bNe a b off) (q.rs a ≠ q.rs b) ∧
    branch (.bLt a b off) ((q.rs a).toInt < (q.rs b).toInt) ∧
    branch (.bGe a b off) ((q.rs b).toInt ≤ (q.rs a).toInt) ∧
    branch (.bLtu a b off) ((q.rs a).toNat < (q.rs b).toNat) ∧
    branch (.bGeu a b off) ((q.rs b).toNat ≤ (q.rs a).toNat) ∧
    branch (.bany c a b off) (∃ k ∈ s.active, Cond c ((s.fbank k).rs a) ((s.fbank k).rs b)) ∧
    branch (.ball c a b off) (∀ k ∈ s.active, Cond c ((s.fbank k).rs a) ((s.fbank k).rs b)))

/-- R342 with R24 and the classes of R348; xidx by R103 (log 14). -/
def Obligations.TrapsEnterTheirHandler : Prop :=
  ∀ (s : State) (cause : BitVec 8) (tval epc : Word) (x : Nat), Settled s → HasHandler s →
    let cls : Nat :=
      if cause = 0x18 then 1 else if cause = 0x21 then 2 else if cause = 0x28 ∨ cause = 0x29 then 3
      else if cause = 0x38 then 4 else if cause = 0x3C then 5 else 0
    EntersHandler s (s.takeTrap s.focus cause tval epc (some x)) cause cls tval epc (if s.fseat.isCC then s.fpart.xidx else x) ∧
    EntersHandler s (s.takeTrap s.focus cause tval epc none) cause cls tval epc s.fpart.xidx ∧
    (cause ≠ 0x14 → s.trapSingle cause tval = s.takeTrap s.focus cause tval s.fpart.pc (some 0))

/-- R122. -/
def Obligations.BreakAndTrapEnterTheirHandler : Prop :=
  ∀ (s : State) (n : BitVec 6), Settled s → HasHandler s →
    let next := s.fpart.nextAddr.toNat % 2 ^ 56
    let x := if s.fseat.isCC then s.fpart.xidx else 0
    (∃ t, exec .brk s = .next t ∧ EntersHandler s t 0x31 0 (BitVec.ofNat 64 next) s.fpart.pc x) ∧
    ∃ t, exec (.trap n) s = .next t ∧ EntersHandler s t 0x30 0 (BitVec.ofNat 64 (next + n.toNat * 2 ^ 58)) s.fpart.pc x

/-- R125, R344, R346, with R102, R156 and R347 for what was stopped (log 94). A part that runs the handler is one of those the trapped part was
divided into (log 75). -/
def Obligations.EretReturnsFromATrap : Prop :=
  ∀ s : State, Settled s → (∀ x ∈ s.fseat.parts, ∀ p, x.2 = some p → p.late = []) →
    let u := s.fseat
    let n := u.epc.toNat % 64 / 2
    let line := fetchPa s s.fctx (u.epc.toNat / 64 * 64)
    let wait : Option Wait := if u.status.clm then claimWait s s.focus.core u.banks else none
    (u.status.lvl = false → exec .eret s = .next (s.trapSingle 0x04 0)) ∧
    (u.status.lvl = true → ¬HeadAddress u.epc → exec .eret s = .next (s.trapSingle 0x03 u.epc)) ∧
    (u.status.lvl = true → HeadAddress u.epc →
      (∀ w, line = .wait w → Waits .eret s w) ∧
      (∀ pa, line = .ok pa → s.peek pa 2 % 32 < n → exec .eret s = .next (s.trapSingle 0x03 u.epc)) ∧
      ((∃ o k, line = .bad o k) ∨ (∃ pa, line = .ok pa ∧ n ≤ s.peek pa 2 % 32) →
        (∀ w, wait = some w → Waits .eret s w) ∧
        (wait = none →
          ∃ t, exec .eret s = .next t ∧ SameCores s t ∧
            (∀ c b, ¬(c = s.focus.core ∧ b ∈ u.banks) → t.bank c b = s.bank c b) ∧
            (let saves : Prop := u.status.cls = 4 ∧ u.isCC = false;
              t.seat s.focus = { u with
                parts := (t.seat s.focus).parts, handler := none
                status := { u.status with lvl := u.status.plvl, hold := false, cls := 0, clm := false }
                phase := if saves then .saving else u.phase, preempt := if saves then false else u.preempt } ∧
              (¬saves → u.status.clm = false → { t with cores := s.cores } = s)) ∧
            (∀ q, (t.seat s.focus).part? q = (u.part? q).map (fun p =>
              let r : Part := if u.status.clm then
                  { p with claim := none, vl := (p.claim.map (·.1)).getD p.endConvoy.vl, xidx := (p.claim.map (·.2.1)).getD p.xidx, rm := (p.claim.map (·.2.2)).getD p.rm }
                else { p with vl := p.endConvoy.vl }
              if ∃ h, u.handler = some h ∧ p.active &&& ~~~h = 0 then
                let k := p.kept.filter (fun k => k.pc == u.epc)
                { r with
                  pc := u.epc, wait := (k.bind (·.join)).map .sjoin, convoy := none, begun := (k.map (·.begun)).getD 0, stored := (k.map (·.stored)).getD []
                  kept := none, picked := [], loaded := false, recs := [], entry := false }
              else
                { r with
                  wait := (match p.wait with | some (.sjoin id) => some (.sjoin id) | _ => none), convoy := none, picked := [], loaded := false, recs := []
                  xidx := match p.convoy with
                    | some c => if c.elems.isEmpty && c.whole && c.first == p.pc && c.done != 0 then c.done else r.xidx
                    | none => r.xidx })) ∧
            (u.status.clm = false →
              (∀ c b, t.bank c b = s.bank c b) ∧ { t with cores := s.cores, launches := s.launches, lctl := s.lctl } = s) ∧
            (u.status.clm = true →
              ((∀ b ∈ u.banks, (s.fbank b).leftTokens = [] ∧ (s.fbank b).lostTokens = []) →
                { t with cores := s.cores, launches := s.launches, lctl := s.lctl } = s) ∧
              (u.red = none → ∀ b ∈ u.banks, ∀ h ∈ (s.fbank b).leftTokens, s.liveHandle h = true → (t.op (entryOf h)).detached = true) ∧
              ∀ b ∈ u.banks, ∀ c, (s.fbank b).claim = some c →
                { t.fbank b with m := (s.fbank b).m, k := (s.fbank b).k, claim := some c, panes := (s.fbank b).panes } = s.fbank b ∧
                (t.fbank b).m = c.m ∧ (t.fbank b).k = c.k ∧ (t.fbank b).claim = none ∧
                ∀ k, k < 12 →
                  (k ∈ c.panes → ∀ img, ((s.fbank b).slot k 7).img = some img →
                    (t.fbank b).pane k = ⟨.opening, if img.dirty then .openDirty else .openClean, PaneImage.empty, 0, false, false, false, some img⟩) ∧
                  (k ∉ c.panes → 16 + k ∈ c.panes → ((s.fbank b).pane k).park = true → (t.fbank b).pane k = (s.fbank b).pane k) ∧
                  (k ∉ c.panes → (16 + k ∉ c.panes ∨ ((s.fbank b).pane k).park = false) → (t.fbank b).pane k = Pane.empty)))))

/-- R124 (R95 step 5 finds the level when the convoy is decoded). A load cut by R214 has left the vl of the next convoy. That links are lost is R219.
That a pane already parked stays parked and is recorded, in place of being closed as R124 says of every pane, is the model's choice (log 76). -/
def Obligations.ClaimParksTheVectorState : Prop :=
  ∀ s : State, Settled s →
    let u := s.fseat
    let claimed (p : Part) : Part :=
      { p with vl := 0, xidx := 0, claim := some (p.endConvoy.vl, p.xidx, p.rm), convoy := p.convoy.map (fun c => { c with cut := none }) }
    (u.status.lvl = false → exec .claim s = .next (s.trapSingle 0x04 0)) ∧
    (u.status.lvl = true → u.status.clm = true → exec .claim s = .next (s.trapSingle 0x01 u.status.word)) ∧
    (u.status.lvl = true → u.status.clm = false →
      (∀ w, claimWait s s.focus.core u.banks = some w → Waits .claim s w) ∧
      (claimWait s s.focus.core u.banks = none →
        ∃ t, exec .claim s = .next t ∧ { t with cores := s.cores, linked := s.linked } = s ∧ SameCores s t ∧ (∀ a, t.peek a 1 = s.peek a 1) ∧
          t.linked = s.linked.filter (fun l => !(l.core == s.focus.core && u.banks.contains l.bank)) ∧
          { t.seat s.focus with parts := u.parts, status := u.status } = u ∧
          (t.seat s.focus).status = { u.status with clm := true } ∧
          (∀ p, u.part? s.focus.seq = some p → t.part s.focus = (claimed p).advance) ∧
          (∀ q, q ≠ s.focus.seq → (t.seat s.focus).part? q = (u.part? q).map claimed) ∧
          (∀ c b, ¬(c = s.focus.core ∧ b ∈ u.banks) → t.bank c b = s.bank c b) ∧
          ∀ b ∈ u.banks,
            { t.fbank b with m := (s.fbank b).m, panes := (s.fbank b).panes, slots := (s.fbank b).slots, claim := (s.fbank b).claim } = s.fbank b ∧
            (∀ j, (t.fbank b).rm j = 0) ∧ (∀ k j, j < 8 → j ≠ 7 → (t.fbank b).slot k j = (s.fbank b).slot k j) ∧
            ∃ c, (t.fbank b).claim = some c ∧ c.m = (s.fbank b).m ∧ c.k = (s.fbank b).k ∧
              ∀ k, k < 12 →
                let p := (s.fbank b).pane k
                (p.isOpen = true → p.park = false →
                  k ∈ c.panes ∧ (t.fbank b).pane k = Pane.empty ∧ ((t.fbank b).slot k 7).img = some p.img) ∧
                (p.park = true → 16 + k ∈ c.panes ∧ (t.fbank b).pane k = p) ∧
                (p.isOpen = false → p.park = false → k ∉ c.panes ∧ 16 + k ∉ c.panes ∧ (t.fbank b).pane k = p)))

/-- R28, R29 and R131. R30. `findSibling` finds the other side where it waits at the matching sjoin. What becomes of a handler's banks is the
model's choice: a split leaves them to both parts (log 97), a handler that merges runs in the parent's banks (log 75). -/
def Obligations.SplitDividesAndSjoinMerges : Prop :=
  (∀ (s : State) (id c : BitVec 3) (a b : BitVec 5) (off : BitVec 22), Settled s → c.toNat ≤ 5 →
    let p := s.fpart
    let target : Word := BitVec.ofInt 64 ((p.pc.toNat : Int) + 2 * off.toInt)
    let i : Instr := .split id c a b off
    ∀ taken : BitVec 16,
      (∀ k, k < 16 → (taken.getLsbD k = true ↔ p.active.getLsbD k = true ∧ Cond c ((s.fbank k).rs a) ((s.fbank k).rs b))) →
      (p.splits.length = 4 → exec i s = .next (s.trapSingle 0x01 4)) ∧
      (p.splits.length ≠ 4 → taken ≠ 0 →
        (¬HeadAddress target → exec i s = .next (s.trapSingle 0x03 target)) ∧
        (HeadAddress target →
          (∀ w, fetchPa s s.fctx (target.toNat / 64 * 64) = .wait w → Waits i s w) ∧
          ∀ pa, fetchPa s s.fctx (target.toNat / 64 * 64) = .ok pa → ¬StartsConvoy s pa target → exec i s = .next (s.trapSingle 0x03 target))) ∧
      (p.splits.length ≠ 4 →
        (taken = 0 ∨ HeadAddress target ∧ ((∃ o k, fetchPa s s.fctx (target.toNat / 64 * 64) = .bad o k) ∨
          ∃ pa, fetchPa s s.fctx (target.toNat / 64 * 64) = .ok pa ∧ StartsConvoy s pa target)) →
        let side (banks : BitVec 16) (pc : Word) : Part :=
          { p.endConvoy with pc := pc, active := banks, splits := ⟨id.setWidth 6, p.active⟩ :: p.splits, wait := none, begun := 0 }
        let rest := p.active &&& ~~~taken
        let low (x : BitVec 16) : Nat := (banksOf x).headD 0
        ∃ t, exec i s = .next t ∧ AroundParts s t ∧ t.focus = s.focus ∧ (t.seat s.focus).handler = s.fseat.handler ∧
          ∀ q, (t.seat s.focus).part? q =
            if rest ≠ 0 ∧ q = low rest then some (side rest p.nextAddr)
            else if taken ≠ 0 ∧ q = low taken then some (side taken target)
            else if q = s.focus.seq then none else s.fseat.part? q)) ∧
  (∀ (s : State) (id : BitVec 6), Settled s →
    let p := s.fpart
    (p.splits = [] → exec (.sjoin id) s = .next (s.trapSingle 0x01 (id.setWidth 64))) ∧
    ∀ x outer, p.splits = x :: outer →
      (x.id ≠ id → exec (.sjoin id) s = .next (s.trapSingle 0x01 (id.setWidth 64))) ∧
      (x.id = id →
        let low := (banksOf x.banks).headD 0
        let others := x.banks &&& ~~~p.active
        let runs : Option (BitVec 16) := s.fseat.handler.map (fun h => if p.active &&& ~~~h = 0 then h ||| x.banks else h)
        let merged (src : Part) : Part := { src.endConvoy with pc := src.nextAddr, active := x.banks, splits := outer, wait := none, begun := 0 }
        (others = 0 →
          ∃ t, exec (.sjoin id) s = .next t ∧ AroundParts s t ∧ t.focus = ⟨s.focus.core, s.focus.base, low⟩ ∧
            (t.seat s.focus).handler = runs ∧
            ∀ q, (t.seat s.focus).part? q = if q = low then some (merged p) else if q = s.focus.seq then none else s.fseat.part? q) ∧
        (others ≠ 0 → findSibling s.fseat x others = none → Waits (.sjoin id) s (.sjoin id)) ∧
        ∀ key sib, others ≠ 0 → findSibling s.fseat x others = some (key, sib) → sib.late = [] →
          ∃ t, exec (.sjoin id) s = .next t ∧ AroundParts s t ∧ t.focus = ⟨s.focus.core, s.focus.base, low⟩ ∧
            (t.seat s.focus).handler = runs ∧
            ∀ q, (t.seat s.focus).part? q =
              if q = low then some (merged (if p.active.getLsbD low then p else sib))
              else if q = s.focus.seq ∨ q = key then none else s.fseat.part? q))

/-- R18, with the entry that leaves every bank as it was. -/
def Obligations.ControlRegisterAccessIsChecked : Prop :=
  ∀ (s : State) (d : BitVec 5) (idx : BitVec 10), Settled s → s.fseat.isCC = false →
    let i := idx.toNat
    let listed : Prop := i ≤ 0xC ∨ (0x10 ≤ i ∧ i ≤ 0x17)
    let readOnly : Prop := i = 2 ∨ i = 3 ∨ i = 4 ∨ i = 5 ∨ i = 6 ∨ i = 8 ∨ i = 9 ∨ i = 10
    let traps (j : Instr) (cause : BitVec 8) : Prop :=
      exec j s = .next (s.trapSingle cause (BitVec.ofNat 64 i)) ∧
        (HasHandler s → EntersHandler s (s.trapSingle cause (BitVec.ofNat 64 i)) cause 0 (BitVec.ofNat 64 i) s.fpart.pc 0)
    (¬listed → traps (.getc d idx) 0x01 ∧ traps (.setc d idx) 0x01) ∧
    (readOnly → traps (.setc d idx) 0x01) ∧
    (0x10 ≤ i → i ≤ 0x17 → s.fseat.status.lvl = false → traps (.getc d idx) 0x04 ∧ traps (.setc d idx) 0x04)

/-- R17 and R371 with the layouts of R21, R22, R23 and R25. The value of cycle is free (log 6). R132 with R17, R19-R23 and R371. -/
def Obligations.GetcAndSetcAccessTheControlRegister : Prop :=
  (∀ (s : State) (d : BitVec 5), Settled s →
    let u := s.fseat
    let p := s.fpart
    let bit (b : Bool) (n : Nat) : Nat := if b then 2 ^ n else 0
    let reads (idx : BitVec 10) (f : Bank → Nat) : Prop := WritesReg (.getc d idx) s d (fun x => BitVec.ofNat 64 (f x))
    let fcsr (x : Bank) : Nat := p.rmNow.toNat + x.flags.toNat * 2 ^ 8 + (if x.flags = 0 then 0 else 2 ^ 16)
    let status : Nat := bit u.status.lvl 0 + bit u.status.plvl 1 + bit u.status.clm 2 + bit u.status.hold 3 + u.status.cls.toNat * 2 ^ 4 +
      bit u.status.red 8 + u.status.rid.toNat * 2 ^ 9
    reads 0x001 fcsr ∧ reads 0x004 (fun _ => s.focus.core) ∧
    (u.isCC = false →
      reads 0x000 (fun _ => p.vlNow) ∧
      (u.log2s < 8 → u.base < 16 → p.splits.length < 8 →
        reads 0x002 (fun _ => u.log2s + u.base * 2 ^ 4 + p.splits.length * 2 ^ 8 + p.active.toNat * 2 ^ 16)) ∧
      (∃ t, exec (.getc d 0x003) s = .next t ∧ Around s t ∧ Proceeds s t ∧ OnBanks s t (fun b x => RegOnly d (BitVec.ofNat 64 b) x)) ∧
      (u.task < 2 ^ 32 → u.launch < 2 ^ 16 → reads 0x005 (fun _ => u.task + u.launch * 2 ^ 32)) ∧
      reads 0x006 (fun _ => u.stage.toNat) ∧ reads 0x007 (fun _ => u.prio.toNat) ∧
      reads 0x009 (fun x => ((List.range 12).map (fun n => min (x.debtOf n) 15 * 2 ^ (4 * n))).sum) ∧
      reads 0x00A (fun _ => u.rows.length) ∧ reads 0x00B (fun x => x.hsp.toNat) ∧ reads 0x00C (fun _ => p.xidxNow)) ∧
    (u.status.lvl = true →
      reads 0x010 (fun _ => status) ∧ reads 0x011 (fun _ => u.cause.toNat) ∧ reads 0x012 (fun _ => u.epc.toNat) ∧
      reads 0x013 (fun _ => u.tval.toNat) ∧ reads 0x014 (fun _ => u.tvec.toNat) ∧ (u.isCC = false → reads 0x015 (fun _ => u.lcap)) ∧
      reads 0x016 (fun x => x.ss0.toNat) ∧ reads 0x017 (fun x => x.ss1.toNat) ∧
      (u.isCC = true → reads 0x018 (fun _ => u.ptbr.toNat) ∧ reads 0x019 (fun _ => u.timecmp.toNat))) ∧
    (u.red = none →
      ∃ t, exec (.getc d 0x008) s = .next t ∧ Around s { t with free := s.free } ∧ t.free = s.free + 1 ∧ Proceeds s t ∧
        OnBanks s t (fun _ x => RegOnly d (Config.freeWord s.free) x))) ∧
  (∀ (s : State) (d : BitVec 5), Settled s →
    let u := s.fseat
    let p := s.part s.focus
    let v := (s.fbank s.seqBank).rs d
    let sets (idx : BitVec 10) (u' : Seat) (p' : Part) (R : Bank → Bank → Prop) : Prop :=
      ∃ t, exec (.setc d idx) s = .next t ∧ { t with cores := s.cores } = s ∧ (∀ a, t.peek a 1 = s.peek a 1) ∧ SameCores s t ∧
        { t.seat s.focus with parts := u.parts } = u' ∧ t.part s.focus = p'.advance ∧
        (∀ q, q ≠ s.focus.seq → (t.seat s.focus).part? q = u.part? q) ∧ OnBanks s t (fun _ => R)
    let same (x y : Bank) : Prop := y = x
    sets 0x001 u { p with rm := v.extractLsb' 0 3 } (fun x y => y = { x with flags := (x.rs d).extractLsb' 8 5 }) ∧
    (u.isCC = false →
      sets 0x000 u { p with vl := min v.toNat 0x100000 } same ∧
      sets 0x007 { u with prio := if u.status.lvl ∨ (v.extractLsb' 0 3).toNat < u.recPrio.toNat then v.extractLsb' 0 3 else u.recPrio } p same ∧
      sets 0x00B u p (fun x y => y = { x with hsp := x.rs d }) ∧
      sets 0x00C u { p with xidx := min v.toNat 0x100000 } same) ∧
    (u.status.lvl = true →
      sets 0x010 { u with status := { u.status with plvl := v.getLsbD 1, hold := v.getLsbD 3 } } p same ∧
      sets 0x011 { u with cause := v.extractLsb' 0 8 } p same ∧ sets 0x012 { u with epc := v } p same ∧
      sets 0x013 { u with tval := v } p same ∧ sets 0x014 { u with tvec := BitVec.ofNat 64 (v.toNat / 64 * 64) } p same ∧
      (u.isCC = false → sets 0x015 { u with lcap := max 8 (min 12 (v.toNat % 16)) } p same) ∧
      sets 0x016 u p (fun x y => y = { x with ss0 := x.rs d }) ∧ sets 0x017 u p (fun x y => y = { x with ss1 := x.rs d }) ∧
      (u.isCC = true →
        sets 0x018 { u with ptbr := v &&& 0x0000FFFFFFFF00F1 } p same ∧ sets 0x019 { u with timecmp := v } p same)))

/-- R20. -/
def Obligations.SetcStoresLimitedValues : Prop :=
  ∀ (s : State) (d : BitVec 5), Settled s → s.fseat.isCC = false →
    let v := ((s.fbank s.seqBank).rs d).toNat
    (∃ t, exec (.setc d 0x000) s = .next t ∧
      (t.part s.focus).vl = if (s.part s.focus).advance.convoy = none then ((s.part s.focus).convoy.bind (·.cut)).getD (min v 0x100000)
        else min v 0x100000) ∧
    (∃ t, exec (.setc d 0x00C) s = .next t ∧ (t.part s.focus).xidx = min v 0x100000) ∧
    (∃ t, exec (.setc d 0x007) s = .next t ∧
      (t.seat s.focus).prio.toNat = if s.fseat.status.lvl then v % 8 else min (v % 8) s.fseat.recPrio.toNat) ∧
    (s.fseat.status.lvl = true → ∃ t, exec (.setc d 0x015) s = .next t ∧
      (t.seat s.focus).lcap = if v % 16 < 8 then 8 else if 12 < v % 16 then 12 else v % 16)

/-- R152 and R153; poison by R148 (check 7) and R149; device registers by R313 and R379; echo by R121 and R339. What a migrator counts is log 90; what paths take ahead is log 7. -/
def Obligations.LoadsReadMemory : Prop :=
  ∀ (s : State) (d a : BitVec 5) (imm : BitVec 22) (pa : Nat → Nat), Settled s → Fresh s →
    let va (b : Nat) : Nat := (BitVec.ofInt 64 ((((s.fbank b).rs a).toNat : Int) + imm.toInt)).toNat
    let marked : Prop := ∃ c, (s.part s.focus).convoy = some c ∧ c.echo = true
    ∀ p ∈ [(Instr.ldB d a imm, 1, true), (.ldBu d a imm, 1, false), (.ldH d a imm, 2, true), (.ldHu d a imm, 2, false),
        (.ldW d a imm, 4, true), (.ldWu d a imm, 4, false), (.ldD d a imm, 8, true), (.ldAcqW d a imm, 4, false), (.ldAcqD d a imm, 8, false)],
      let n := p.2.1
      let extended (x : Nat) : Word := if p.2.2 then BitVec.ofInt 64 (BitVec.ofNat (8 * n) x).toInt else BitVec.ofNat 64 x
      (s.fseat.red = none ∨ ¬marked → (∀ b ∈ s.active, Plain s .read n (va b) (pa b) ∧ s.poisoned (pa b) n = false) →
        ReadsIn p.1 s (fun b x => RegOnly d (extended (s.lsSees (pa b) n)) x)) ∧
      (p.1 = .ldAcqW d a imm ∨ p.1 = .ldAcqD d a imm → s.fseat.red = none → s.active ≠ [] →
        (∀ b ∈ s.active, Plain s .read n (va b) (pa b) ∧ s.poisoned (pa b) n = false) →
        ∃ t, exec p.1 s = .next t ∧ ∀ x ∈ t.ahead, ¬s.onPath 1 x) ∧
      (s.fseat.red = none → (∀ b ∈ s.active, Plain s .read n (va b) (pa b)) →
        ∀ b ∈ s.active, s.poisoned (pa b) n = true → (∀ c ∈ s.active, c < b → s.poisoned (pa c) n = false) →
          ∃ u, exec p.1 s = .next (u.trapSingle 0x14 (BitVec.ofNat 64 (va b % 2 ^ 56 + b * 2 ^ 56))) ∧ Around s { u with migs := s.migs, ahead := s.ahead } ∧
            Traces s u ∧ u.part s.focus = s.part s.focus ∧
            OnBanks s u (fun c x y => if c < b then RegOnly d (extended (s.lsSees (pa c) n)) x y else y = x)) ∧
      (s.fseat.red = none ∨ ¬marked → (∀ b ∈ s.active, ∃ q, va b < 2 ^ 56 ∧ va b % n = 0 ∧ translate s s.fctx .read (va b) = .ok q ∧
          q.pa = pa b ∧ q.peer = 0 ∧ regionOf (pa b) = .dev) →
        ReadsIn p.1 s (fun b x => RegOnly d
          (extended (((devReg (pa b / 8 * 8)).map (devWord s)).getD 0 % 2 ^ 64 / 256 ^ (pa b % 8) % 256 ^ n)) x)) ∧
      ∀ r, s.fseat.red = some r → marked → (∀ v ∈ r.echoLog, v.toNat < 256 ^ n) → (∀ b ∈ s.active, Plain s .read n (va b) (pa b)) →
        (r.echoPos + s.active.length ≤ r.echoLog.length →
          ∃ t, exec p.1 s = .next t ∧ { t with cores := s.cores, ahead := s.ahead } = s ∧ NoneAhead s t ∧ SameCores s t ∧ Proceeds s t ∧
            { t.seat s.focus with parts := s.fseat.parts } = { s.fseat with red := some { r with echoPos := r.echoPos + s.active.length } } ∧
            OnBanks s t (fun b x => RegOnly d (extended (r.echoLog.getD (r.echoPos + s.active.idxOf b) 0).toNat) x)) ∧
        (r.echoLog.length ≤ r.echoPos → r.leads = false → s.active ≠ [] → Waits p.1 s .echo)

/-- R152 and R153; the stored bytes are those at pa of each bank. R330 and R331 for a replica; R291 and R313 for device registers. That st.rel waits
for panes OPENING, WRITING or CLOSING is the model's reading of the row writes of R153 (log 52). -/
def Obligations.StoresWriteMemory : Prop :=
  (∀ (s : State) (d a : BitVec 5) (imm : BitVec 22) (pa : Nat → Nat), Settled s → Fresh s → s.fseat.red = none → Memory.wf s = true →
    let va (b : Nat) : Nat := (BitVec.ofInt 64 ((((s.fbank b).rs a).toNat : Int) + imm.toInt)).toNat
    let stored := s.active.map (fun b => (b, pa b, ((s.fbank b).rs d).toNat))
    let moving : Prop := ∃ b ∈ s.active, ∃ k, k < 12 ∧ ((s.fbank b).pane k).st ∈ [PaneState.opening, .writing, .closing]
    (∀ p ∈ [(Instr.stB d a imm, 1), (.stH d a imm, 2), (.stW d a imm, 4), (.stD d a imm, 8)],
      (∀ b ∈ s.active, Plain s .write p.2 (va b) (pa b)) → StoresTo p.1 s p.2 stored (fun _ x y => y = x)) ∧
    (∀ p ∈ [(Instr.stRelW d a imm, 4), (.stRelD d a imm, 8)],
      (moving → Waits p.1 s .fence) ∧
      (¬moving → (∀ b ∈ s.active, Plain s .write p.2 (va b) (pa b)) → StoresTo p.1 s p.2 stored (fun _ x y => y = x) ∧
        (s.active ≠ [] → ∃ t, exec p.1 s = .next t ∧ ∀ x ∈ t.ahead, x.path ≠ 0)))) ∧
  (∀ (s : State) (d a : BitVec 5) (imm : BitVec 22) (pa : Nat → Nat) (r : Replica), Settled s → Fresh s → s.fseat.red = some r → Memory.wf s = true →
    s.seat? s.focus.core s.focus.base = some s.fseat →
    let va (b : Nat) : Nat := (BitVec.ofInt 64 ((((s.fbank b).rs a).toNat : Int) + imm.toInt)).toNat
    let marks (t : Table (BitVec 64)) (x : Nat) : Prop := (look 0 t (x / 64)).getLsbD (x % 64) = true
    let covered (b n : Nat) : Prop := ownSram s.fseat s.focus.core (pa b) = true ∨ ∀ i, i < n → declaredOut r (va b + i) = true
    ∀ p ∈ [(Instr.stB d a imm, 1), (.stH d a imm, 2), (.stW d a imm, 4), (.stD d a imm, 8)],
      (∀ b ∈ s.active, Plain s .write p.2 (va b) (pa b)) →
      ((∀ b ∈ s.active, covered b p.2) →
        ∃ t r', exec p.1 s = .next t ∧ { t with cores := s.cores, mem := s.mem, quads := s.quads, linked := s.linked, migs := s.migs, ahead := s.ahead } = s ∧ NoneAhead s t ∧
          SameCores s t ∧ Proceeds s t ∧ OnBanks s t (fun _ x y => y = x) ∧
          Stored s t p.2 (s.active.map (fun b => (b, pa b, ((s.fbank b).rs d).toNat))) ∧
          { t.seat s.focus with parts := s.fseat.parts } = { s.fseat with red := some r' } ∧ { r' with dirty := r.dirty } = r ∧
          ∀ x, marks r'.dirty x ↔ marks r.dirty x ∨
            ∃ b ∈ s.active, va b ≤ x ∧ x < va b + p.2 ∧ regionOf (pa b) ≠ .sram ∧ ∃ v ∈ r.view, v.page = va b / 2 ^ 16 ∧ v.role ≠ 1) ∧
      ∀ b ∈ s.active, ¬covered b p.2 → (∀ c ∈ s.active, c < b → covered c p.2) →
        exec p.1 s = .next (s.trapSingle 0x2A (BitVec.ofNat 64 (va b % 2 ^ 56 + b * 2 ^ 56)))) ∧
  ∀ (s : State) (d a : BitVec 5) (imm : BitVec 22) (b : Nat) (q : Spot) (r : DevReg) (x : Word), Settled s → Fresh s → s.fseat.red = none →
    s.active = [b] →
    let va : Nat := (BitVec.ofInt 64 ((((s.fbank b).rs a).toNat : Int) + imm.toInt)).toNat
    let at0 := q.pa % 8
    let v := (s.fbank b).rs d
    let kept : Word := BitVec.ofNat 64 (keptWord s r) &&& (match r with | .peer _ 0 => 0xFFFFFFFFFFFFFFFD | _ => 0xFFFFFFFFFFFFFFFF)
    let who : Who := ⟨s.focus.core, s.focus.base, b⟩
    ∀ p ∈ [(Instr.stB d a imm, 1), (.stH d a imm, 2), (.stW d a imm, 4), (.stD d a imm, 8)],
      va < 2 ^ 56 → va % p.2 = 0 → q.pa % p.2 = 0 → translate s s.fctx .write va = .ok q → q.peer = 0 → regionOf q.pa = .dev →
      (devReg (q.pa / 8 * 8) = none → OnlyProceeds p.1 s) ∧
      (devReg (q.pa / 8 * 8) = some r →
        (∀ i, i < 8 → x.extractLsb' (8 * i) 8 =
          if at0 ≤ i ∧ i < at0 + p.2 then v.extractLsb' (8 * (i - at0)) 8 else kept.extractLsb' (8 * i) 8) →
        (devDenied s (some who) r = true → exec p.1 s = .next (s.trapSingle 0x11 (BitVec.ofNat 64 (va + b * 2 ^ 56)))) ∧
        (devDenied s (some who) r = false → devHeld s r x = true ∨ s.due ≠ [] → Waits p.1 s .device) ∧
        (devDenied s (some who) r = false → devHeld s r x = false → s.due = [] →
          ∃ t, exec p.1 s = .next t ∧ Around s { t with due := s.due } ∧ t.due = devDue s r (q.pa / 8 * 8) x ∧ Proceeds s t ∧
            OnBanks s t (fun _ y z => z = y)))

/-- R155 under the order of R150. The premise on `lastAmo` is R157 (log 38). -/
def Obligations.AtomicsReadAndWriteOnce : Prop :=
  ∀ (s : State) (d a b : BitVec 5) (pa : Nat → Nat), Settled s → Fresh s → s.fseat.red = none → Memory.wf s = true →
    (∀ n, s.lastAmo = some n → n.isCC = s.fseat.isCC ∨ ∀ k ∈ s.active, n.pa ≠ pa k) →
    (∀ k ∈ s.active, Plain s .write 8 ((s.fbank k).rs a).toNat (pa k) ∧ s.poisoned (pa k) 8 = false) →
    let does (i : Instr) (f : Word → Word → Word → Word × BitVec 5) : Prop :=
      Updates i s d pa (fun k old => f old ((s.fbank k).rs b) ((s.fbank k).rs d))
    let plain (f : Word → Word → Word) : Word → Word → Word → Word × BitVec 5 := fun old x _ => (f old x, 0)
    does (.amoAdd d a b) (plain (fun old x => BitVec.ofNat 64 (old.toNat + x.toNat))) ∧
    does (.amoAnd d a b) (plain (fun old x => old &&& x)) ∧ does (.amoOr d a b) (plain (fun old x => old ||| x)) ∧
    does (.amoXor d a b) (plain (fun old x => old ^^^ x)) ∧
    does (.amoMin d a b) (plain (fun old x => BitVec.ofInt 64 (min old.toInt x.toInt))) ∧
    does (.amoMax d a b) (plain (fun old x => BitVec.ofInt 64 (max old.toInt x.toInt))) ∧
    does (.amoMinu d a b) (plain (fun old x => BitVec.ofNat 64 (min old.toNat x.toNat))) ∧
    does (.amoMaxu d a b) (plain (fun old x => BitVec.ofNat 64 (max old.toNat x.toNat))) ∧
    does (.amoSwap d a b) (plain (fun _ x => x)) ∧
    does (.amoFadd d a b) (fun old x _ => fpAdd f64Fmt .rne old x) ∧
    does (.amoCas d a b) (fun old x e => (if old = e then x else old, 0))

/-- R154; n = B - A + 1 registers. -/
def Obligations.PushAndPopMoveTheStack : Prop :=
  ∀ (s : State) (a b : BitVec 5) (pa : Nat → Nat → Nat), Settled s → Fresh s → s.fseat.red = none → Memory.wf s = true →
    1 ≤ a.toNat → a.toNat ≤ b.toNat →
    let n := b.toNat - a.toNat + 1
    let hsp (k : Nat) : Word := (s.fbank k).hsp
    let down (k : Nat) : Word := BitVec.ofInt 64 (((hsp k).toNat : Int) - 8 * n)
    let slot (base : Word) (i : Nat) : Nat := (BitVec.ofNat 64 (base.toNat + 8 * i)).toNat
    let outside (base : Word) : Prop := ∃ i, i < n ∧ (slot base i < windowBase ∨ 2 ^ 56 ≤ slot base i)
    let reg (i : Nat) : BitVec 5 := BitVec.ofNat 5 (a.toNat + i)
    let lowest (k : Nat) (bad : Nat → Prop) : Prop := k ∈ s.active ∧ bad k ∧ ∀ j ∈ s.active, j < k → ¬bad j
    let odd (k : Nat) : Prop := (hsp k).toNat % 8 ≠ 0
    let own (k i : Nat) : Prop := ownSram s.fseat s.focus.core (pa k i) = true
    let strays (j : Instr) (need : Need) (base : Nat → Word) : Prop :=
      (∀ k ∈ s.active, ¬outside (base k)) → (∀ k ∈ s.active, ∀ i, i < n → Plain s need 8 (slot (base k) i) (pa k i) ∧ regionOf (pa k i) = .sram) →
      ∀ k i, lowest k (fun c => ∃ x, x < n ∧ ¬own c x) → i < n → ¬own k i → (∀ x, x < i → own k x) →
        exec j s = .next (s.trapSingle 0x13 (BitVec.ofNat 64 (slot (base k) i + k * 2 ^ 56)))
    (∀ k, lowest k odd → exec (.push a b) s = .next (s.trapSingle 0x12 (hsp k)) ∧ exec (.pop a b) s = .next (s.trapSingle 0x12 (hsp k))) ∧
    ((∀ k ∈ s.active, ¬odd k) →
      (∀ k, lowest k (fun j => outside (down j)) → exec (.push a b) s = .next (s.trapSingle 0x13 (hsp k))) ∧
      (∀ k, lowest k (fun j => outside (hsp j)) → exec (.pop a b) s = .next (s.trapSingle 0x13 (hsp k))) ∧
      strays (.push a b) .write down ∧ strays (.pop a b) .read hsp ∧
      ((∀ k ∈ s.active, ∀ i, i < n → Plain s .write 8 (slot (down k) i) (pa k i) ∧ own k i) → (∀ k ∈ s.active, ¬outside (down k)) →
        StoresTo (.push a b) s 8
          (s.active.flatMap (fun k => (List.range n).map (fun i => (k, pa k i, ((s.fbank k).rs (reg i)).toNat))))
          (fun k x y => y = { x with hsp := down k })) ∧
      ((∀ k ∈ s.active, ∀ i, i < n → Plain s .read 8 (slot (hsp k) i) (pa k i) ∧ own k i ∧ s.poisoned (pa k i) 8 = false) →
        (∀ k ∈ s.active, ¬outside (hsp k)) →
        ReadsIn (.pop a b) s (fun k x y =>
          (∀ i, i < n → y.rs (reg i) = BitVec.ofNat 64 (s.lsSees (pa k i) 8)) ∧
          (∀ r : BitVec 5, (∀ i, i < n → r ≠ reg i) → y.rs r = x.rs r) ∧
          y.hsp = BitVec.ofNat 64 ((hsp k).toNat + 8 * n) ∧ { y with s := x.s, hsp := x.hsp } = x)))

/-- R148 and R149. `fails` is the order and cause of the first check that fails in a bank. -/
def Obligations.ScalarAccessesTrapInCheckOrder : Prop :=
  ∀ (s : State) (d a : BitVec 5) (imm : BitVec 22), Settled s → Fresh s → s.fseat.red = none →
    let va (b : Nat) : Nat := (BitVec.ofInt 64 ((((s.fbank b).rs a).toNat : Int) + imm.toInt)).toNat
    ∀ p ∈ [(Instr.ldB d a imm, 1, Need.read), (.ldBu d a imm, 1, .read), (.ldH d a imm, 2, .read), (.ldHu d a imm, 2, .read),
        (.ldW d a imm, 4, .read), (.ldWu d a imm, 4, .read), (.ldD d a imm, 8, .read), (.ldAcqW d a imm, 4, .read), (.ldAcqD d a imm, 8, .read),
        (.stB d a imm, 1, .write), (.stH d a imm, 2, .write), (.stW d a imm, 4, .write), (.stD d a imm, 8, .write)],
      let n := p.2.1
      let fails (b : Nat) (o : Nat) (k : BitVec 8) : Prop :=
        if 2 ^ 56 ≤ va b then o = 1 ∧ k = 0x10
        else if va b % n ≠ 0 then o = 2 ∧ k = 0x12
        else
          match translate s s.fctx p.2.2 (va b) with
          | .bad o' k' => o = o' ∧ k = k'
          | .wait _ => False
          | .ok q =>
            if q.peer ≠ 0 then o = 5 ∧ k = 0x16
            else asleep s q.pa = false ∧ regionOf q.pa = .sram ∧ (s.sram (sramQuad q.pa) (sramBankNo q.pa)).busy = false ∧
              (s.sram (sramQuad q.pa) (sramBankNo q.pa)).mode = 0 ∧ o = 6 ∧ k = 0x13
      (∀ b ∈ s.active, ∀ o k, fails b o k →
        (∀ c ∈ s.active, ∀ o' k', fails c o' k' → o < o' ∨ (o = o' ∧ b ≤ c)) →
        exec p.1 s = .next (s.trapSingle k (BitVec.ofNat 64 (va b % 2 ^ 56 + b * 2 ^ 56)))) ∧
      ∀ b, s.active.head? = some b →
        (∀ c ∈ s.active, ∃ q, translate s s.fctx p.2.2 (va c) = .ok q ∧ va c < 2 ^ 56 ∧ va c % n = 0 ∧ q.peer = 0 ∧ asleep s q.pa = false ∧
          (regionOf q.pa = .dram ∨ regionOf q.pa = .cap)) →
        ∀ q w, translate s s.fctx p.2.2 (va b) = .ok q → claimOf s q.pa = some w → Waits p.1 s w

/-- R293; banks that share a FIFO pop and push one after another. -/
def Obligations.FifoAccessesPopAndPush : Prop :=
  ∀ (s : State) (d a : BitVec 5) (imm : BitVec 22) (q : Nat → Spot) (n : Nat), Settled s → Fresh s → s.fseat.red = none →
    let size := 262144
    let va (b : Nat) : Nat := (BitVec.ofInt 64 ((((s.fbank b).rs a).toNat : Int) + imm.toInt)).toNat
    let fifo (b : Nat) : Nat × Nat := (sramQuad (q b).pa, sramBankNo (q b).pa)
    let bank (b : Nat) : SramBank := s.sram (fifo b).1 (fifo b).2
    let before (b : Nat) : Nat := (s.active.filter (fun c => decide (c < b) && fifo c == fifo b)).length
    let uses (bs : List Nat) (f : Nat × Nat) : Nat := (bs.filter (fun c => fifo c == f)).length
    let lower (b : Nat) : List Nat := s.active.filter (fun c => decide (c < b))
    let same (t : State) : Prop := SameCores s t ∧ SameSeat s t ∧ NoneAhead s t ∧
      { t with cores := s.cores, quads := s.quads, linked := t.linked, ahead := s.ahead } = { s with linked := t.linked } ∧
      ∀ m, { t.quad m with sram := (s.quad m).sram } = s.quad m
    let stops (i : Instr) (b : Nat) (after : State → List Nat → Prop) : Prop :=
      ∃ t, exec i s = .next t ∧ after t (lower b) ∧
        t.part s.focus = { s.part s.focus with wait := some (.fifo (fifo b).1 (fifo b).2), begun := bankMask (lower b) }
    (∀ b ∈ s.active, va b < 2 ^ 56 ∧ va b % n = 0 ∧ (q b).peer = 0 ∧ regionOf (q b).pa = .sram ∧ (bank b).busy = false ∧ (bank b).mode = 2) →
    (∀ p ∈ [(Instr.ldB d a imm, 1, true), (.ldBu d a imm, 1, false), (.ldH d a imm, 2, true), (.ldHu d a imm, 2, false),
        (.ldW d a imm, 4, true), (.ldWu d a imm, 4, false), (.ldD d a imm, 8, true), (.ldAcqW d a imm, 4, false), (.ldAcqD d a imm, 8, false)],
      p.2.1 = n → (∀ b ∈ s.active, translate s s.fctx .read (va b) = .ok (q b)) →
      let off (b i : Nat) : Nat := ((bank b).head + n * before b + i) % size
      let got (b : Nat) : Nat := ((List.range n).map (fun i => ((bank b).byte (off b i)).toNat * 256 ^ i)).sum
      let extended (x : Nat) : Word := if p.2.2 then BitVec.ofInt 64 (BitVec.ofNat (8 * n) x).toInt else BitVec.ofNat 64 x
      let short (b : Nat) : Prop := (bank b).count < n * (before b + 1)
      let bad (b : Nat) : Prop := ∃ i, i < n ∧ s.poisonAt (sramPa (fifo b).1 (fifo b).2 + off b i) = true
      let after (t : State) (bs : List Nat) : Prop := same t ∧ t.linked = s.linked ∧
        OnBanks s t (fun b x y => if b ∈ bs then RegOnly d (extended (got b)) x y else y = x) ∧
        ∀ m j, t.sram m j =
          if uses bs (m, j) = 0 then s.sram m j
          else { s.sram m j with
            head := ((s.sram m j).head + n * uses bs (m, j)) % size, count := (s.sram m j).count - n * uses bs (m, j) }
      ((∀ b ∈ s.active, ¬short b ∧ ¬bad b) → ∃ t, exec p.1 s = .next t ∧ after t s.active ∧ Proceeds s t) ∧
      ∀ b ∈ s.active, (∀ c ∈ s.active, c < b → ¬short c ∧ ¬bad c) →
        (short b → stops p.1 b after) ∧
        (¬short b → bad b → ∃ u, exec p.1 s = .next (u.trapSingle 0x14 (BitVec.ofNat 64 (va b + b * 2 ^ 56))) ∧ after u (lower b) ∧
          u.part s.focus = s.part s.focus)) ∧
    ∀ p ∈ [(Instr.stB d a imm, 1), (.stH d a imm, 2), (.stW d a imm, 4), (.stD d a imm, 8)],
      p.2 = n → (∀ b ∈ s.active, translate s s.fctx .write (va b) = .ok (q b)) →
      let off (b i : Nat) : Nat := ((bank b).tail + n * before b + i) % size
      let full (b : Nat) : Prop := size < (bank b).count + n * (before b + 1)
      let after (t : State) (bs : List Nat) : Prop := same t ∧ OnBanks s t (fun _ y z => z = y) ∧
        t.linked = s.linked.filter (fun l => bs.all (fun b =>
          (l.core == s.focus.core && l.bank == b) ||
            (List.range n).all (fun i => !overlaps l.pa l.size (sramPa (fifo b).1 (fifo b).2 + off b i) 1))) ∧
        ∀ m j,
          { t.sram m j with data := (s.sram m j).data } =
            (if uses bs (m, j) = 0 then s.sram m j
             else { s.sram m j with
              tail := ((s.sram m j).tail + n * uses bs (m, j)) % size, count := (s.sram m j).count + n * uses bs (m, j) }) ∧
          (∀ b ∈ bs, fifo b = (m, j) → ∀ i, i < n → (t.sram m j).byte (off b i) = ((s.fbank b).rs d).extractLsb' (8 * i) 8) ∧
          ∀ o, (∀ b ∈ bs, fifo b = (m, j) → ∀ i, i < n → o ≠ off b i) → (t.sram m j).byte o = (s.sram m j).byte o
      ((∀ b ∈ s.active, ¬full b) → ∃ t, exec p.1 s = .next t ∧ after t s.active ∧ Proceeds s t) ∧
      ∀ b ∈ s.active, full b → (∀ c ∈ s.active, c < b → ¬full c) → stops p.1 b after

/-- R144 and R145. R147; vl is the one read at the start of the convoy (R36). -/
def Obligations.AddressRegistersAndSmine : Prop :=
  (∀ (s : State) (d a : BitVec 3) (r b z : BitVec 5) (imm : BitVec 22), Settled s →
    let word (esz va : Nat) : Word := BitVec.ofNat 64 (esz * 2 ^ 61 + va % 2 ^ 56)
    let esz (v : Word) : Nat := v.toNat / 2 ^ 61
    let va (v : Word) : Nat := v.toNat % 2 ^ 56
    WritesAddr (.amov d a) s d (fun x => word (esz (x.ra a)) (va (x.ra a))) ∧
    (z.toNat ≤ 5 → WritesAddr (.aset d b z) s d (fun x => word z.toNat (x.rs b).toNat)) ∧
    WritesAddr (.aadd d a b) s d (fun x => word (esz (x.ra a)) (va (x.ra a) + (x.rs b).toNat)) ∧
    WritesAddr (.aaddi d a imm) s d (fun x => word (esz (x.ra a)) (((va (x.ra a) : Int) + imm.toInt + 2 ^ 56).toNat)) ∧
    WritesReg (.amovs r a) s r (fun x => x.ra a)) ∧
  (∀ (s : State) (o : SmineOps), Settled s → o.c ≠ 0 → o.n.toNat ≤ 4 → o.t.toNat ≤ 12 →
    let ps := [o.p0, o.p1, o.p2, o.p3].take o.n.toNat
    ps.Nodup →
    let size (b : Nat) (p : BitVec 3) : Nat := ((s.fbank b).ra p).toNat / 2 ^ 61
    let g := s.fpart.vlNow
    let left (b : Nat) : Nat := ((s.fbank b).rs o.c).toNat - g
    let vlmax := s.fseat.size * (2 ^ o.g.toNat * (2 ^ s.fseat.lcap * 8 / fmtBits o.t))
    let new (b : Nat) : Nat := min (left b) vlmax
    (∀ before b after, s.active = before ++ b :: after → (∀ c ∈ before, ∀ p ∈ ps, size c p < 6) →
      ∀ pre p post, ps = pre ++ p :: post → (∀ q ∈ pre, size b q < 6) → 6 ≤ size b p →
        exec (.smine o) s = .next (s.trapSingle 0x01 (BitVec.ofNat 64 p.toNat))) ∧
    ((∀ b ∈ s.active, ∀ p ∈ ps, size b p < 6) →
      ∃ t, exec (.smine o) s = .next t ∧ AroundPart s t ∧ t.part s.focus = { s.part s.focus with vl := new s.seqBank }.advance ∧
        OnBanks s t (fun b x y =>
          (∀ n, y.rs n = if n = o.d ∧ o.d ≠ 0 then BitVec.ofNat 64 (new b) else if n = o.c then BitVec.ofNat 64 (left b) else x.rs n) ∧
          (∀ p, y.ra p = if p ∈ ps then
              BitVec.ofNat 64 (size b p * 2 ^ 61 +
                ((x.ra p).toNat % 2 ^ 56 + (if size b p = 5 then (g + 1) / 2 else g * 2 ^ size b p)) % 2 ^ 56)
            else x.ra p) ∧
          { y with s := x.s, a := x.a } = x)))

/-- R190 and R191 in the integer formats; the bitwise ones on the encodings of any format. -/
def Obligations.LaneIntegerResults : Prop :=
  ∀ (s : State) (o : VOps),
    let w := fmtBits o.t
    let int (x : Nat) : Int := intOf o.t x
    let wrap (z : Int) : Nat := (z % 2 ^ w).toNat
    let lo : Int := if isSigned o.t then -(2 ^ (w - 1)) else 0
    let hi : Int := if isSigned o.t then 2 ^ (w - 1) - 1 else 2 ^ w - 1
    let lane (i : Instr) (unsigned : Bool) (f : Nat → Nat → Nat → Nat) : Prop :=
      ∀ v, LanesReady i s v → LaneResult i s v o.wd.toNat o.m o.n (fun b j =>
        let a := s.elemOf b w o.wa.toNat j
        let second := if o.sv = 0 then s.elemOf b w o.wb.toNat j else if o.sv = 1 then ((s.fbank b).rs o.s).toNat % 2 ^ w
          else wrap (if unsigned then (o.s.toNat : Int) else o.s.toInt)
        (f a second (s.elemOf b w o.wd.toNat j), 0))
    (isIN o.t = true →
      lane (.vadd o) false (fun a v _ => wrap (int a + int v)) ∧ lane (.vsub o) false (fun a v _ => wrap (int a - int v)) ∧
      lane (.vmul o) false (fun a v _ => wrap (int a * int v)) ∧
      lane (.vmin o) false (fun a v _ => wrap (min (int a) (int v))) ∧ lane (.vmax o) false (fun a v _ => wrap (max (int a) (int v))) ∧
      lane (.vabs o) false (fun a _ _ => wrap |int a|) ∧ lane (.vneg o) false (fun a _ _ => wrap (-(int a))) ∧
      lane (.vmulh o) false (fun a v _ => wrap (int a * int v / 2 ^ w)) ∧
      lane (.vadds o) false (fun a v _ => wrap (max lo (min hi (int a + int v)))) ∧
      lane (.vsubs o) false (fun a v _ => wrap (max lo (min hi (int a - int v)))) ∧
      lane (.vsll o) true (fun a v _ => a * 2 ^ (v % w) % 2 ^ w) ∧ lane (.vsrl o) true (fun a v _ => a / 2 ^ (v % w)) ∧
      lane (.vsra o) true (fun a v _ => wrap ((BitVec.ofNat w a).toInt / 2 ^ (v % w))) ∧
      lane (.vfsl o) true (fun a v d => ((a * 2 ^ w + d) * 2 ^ (v % w) / 2 ^ w) % 2 ^ w) ∧
      lane (.vfsr o) true (fun a v d => (a * 2 ^ w + d) / 2 ^ (v % w) % 2 ^ w) ∧
      lane (.vclz o) false (fun a _ _ => ((List.range w).filter (fun k => decide (a < 2 ^ k))).length) ∧
      lane (.vpopc o) false (fun a _ _ => ((List.range w).filter (fun k => a.testBit k)).length)) ∧
    lane (.vand o) false (fun a v _ => a &&& v) ∧ lane (.vor o) false (fun a v _ => a ||| v) ∧ lane (.vxor o) false (fun a v _ => a ^^^ v) ∧
    lane (.vnot o) false (fun a _ _ => a ^^^ (2 ^ w - 1)) ∧ lane (.vandn o) false (fun a v _ => a &&& (v ^^^ (2 ^ w - 1)))

/-- R190 in the floating formats. `deliver` rounds once (stated by SumsAndProductsAreCorrectlyRounded and its neighbours). -/
def Obligations.LaneFloatResults : Prop :=
  ∀ (s : State) (o : VOps) (f : Fmt), floatOf o.t = some f →
    let w := fmtBits o.t
    let mode : RMode := match o.rm.toNat with | 0 => rmodeOf s.fpart.rmNow | 1 => .rne | 2 => .rtz | _ => .rup
    let once (r : FV × BitVec 5) : Nat × BitVec 5 := ((deliver f mode o.sat r.1).1, r.2 ||| (deliver f mode o.sat r.1).2)
    let limit (r : Nat × BitVec 5) : Nat × BitVec 5 :=
      if f = e5m2Fmt ∧ o.sat = true ∧ (unpack f r.1).isInf = true then (r.1 - 1, r.2 ||| 0x14) else r
    let lane (i : Instr) (g : Nat → Nat → Nat → Nat × BitVec 5) : Prop :=
      ∀ v, LanesReady i s v → LaneResult i s v o.wd.toNat o.m o.n (fun b j =>
        let second := if o.sv = 0 then s.elemOf b w o.wb.toNat j else if o.sv = 1 then ((s.fbank b).rs o.s).toNat % 2 ^ w
          else (o.s.toInt % 2 ^ w).toNat
        g (s.elemOf b w o.wa.toNat j) second (s.elemOf b w o.wd.toNat j))
    let two (i : Instr) (g : FV → FV → FV × BitVec 5) : Prop := lane i (fun a v _ => once (g (unpack f a) (unpack f v)))
    let one (i : Instr) (g : FV → FV × BitVec 5) : Prop := lane i (fun a _ _ => once (g (unpack f a)))
    let three (i : Instr) (g : FV → FV → FV → FV × BitVec 5) : Prop := lane i (fun a v d => once (g (unpack f a) (unpack f v) (unpack f d)))
    two (.vadd o) (fvAdd mode) ∧ two (.vsub o) (fun x y => fvAdd mode x y.flip) ∧ two (.vmul o) fvMul ∧ two (.vdiv o) fvDiv ∧
    three (.vfma o) (fvFma mode) ∧ three (.vfms o) (fun x y z => fvFma mode x y z.flip) ∧ three (.vfnma o) (fun x y z => fvFma mode x.flip y z) ∧
    one (.vsqrt o) fvSqrt ∧ one (.vrcp o) fvRcp ∧ one (.vrsq o) fvRsq ∧ one (.vexp2 o) fvExp2 ∧ one (.vlog2 o) fvLog2 ∧
    lane (.vmin o) (fun a v _ => limit (minMaxEnc f false a v)) ∧ lane (.vmax o) (fun a v _ => limit (minMaxEnc f true a v)) ∧
    lane (.vabs o) (fun a _ _ => limit (if (unpack f a).isNan then (nanEnc f, if (unpack f a).isSig then 1 else 0) else (a % 2 ^ (w - 1), 0))) ∧
    lane (.vneg o) (fun a _ _ => limit (if (unpack f a).isNan then (nanEnc f, if (unpack f a).isSig then 1 else 0)
      else (a % 2 ^ (w - 1) + (if a / 2 ^ (w - 1) % 2 = 1 then 0 else 2 ^ (w - 1)), 0)))

/-- R192 and R193; R187 and R67 for the panes; R208 for poison in the sources of an element (the banks are those that the same instruction
leaves under a vl that ends at the element; in a pane that the instruction writes, the granule has not been written since it was poisoned, R350). -/
def Obligations.ComparesAndMaskLogicWriteMasks : Prop :=
  (∀ (s : State) (o : VOps) (m : MOps) (x : VxOps) (i : Instr) (v : VInfo), Settled s → s.fseat.red = none → vinfo i = some v →
    i ∈ [Instr.vadd o, .vsub o, .vmul o, .vfma o, .vfms o, .vfnma o, .vmin o, .vmax o, .vabs o, .vneg o, .vdiv o, .vsqrt o, .vrcp o, .vrsq o,
        .vexp2 o, .vlog2 o, .vmulh o, .vadds o, .vsubs o, .vand o, .vor o, .vxor o, .vnot o, .vandn o, .vsll o, .vsrl o, .vsra o, .vfsl o,
        .vfsr o, .vclz o, .vpopc o, .vcmpEq o, .vcmpNe o, .vcmpLt o, .vcmpLe o, .vcmpGt o, .vcmpGe o, .vsel o, .vmov o, .vbcast o, .vidx x,
        .vcvt o, .vwfma o, .vdot o, .vqdec o, .vredSum o, .vredMax o, .vredMin o, .vredAnd o, .vredOr o, .vscan o] ∨
      (((s.fbank s.seqBank).ra m.a).toNat / 2 ^ 61 < 6 ∧
        i ∈ [Instr.vld m, .vlds m, .vldx m, .vst m, .vsts m, .vstx m, .vstb m, .vldl m, .vstc m]) →
    let us := usesIn s (v.l s.fseat) s.fpart.xidx (s.evlOf (v.l s.fseat)) v.reads v.writes
    let pane (u : Nat × Nat × Bool) : Pane := (s.fbank u.1).pane u.2.1
    let closed (u : Nat × Nat × Bool) : Prop := (pane u).st = .closed ∨ (pane u).st = .closing
    let busy (u : Nat × Nat × Bool) : Option Wait :=
      if (pane u).park then (if (pane u).busy then some (.pane s.focus.core u.1 u.2.1) else none)
      else if (pane u).st = .opening ∨ (u.2.2 ∧ (pane u).st = .writing) then some (.pane s.focus.core u.1 u.2.1)
      else if u.2.2 ∧ (pane u).pins ≠ 0 then some (.pin s.focus.core u.1 u.2.1) else none
    (∀ u ∈ us, closed u → (∀ u' ∈ us, closed u' → u.1 < u'.1 ∨ (u.1 = u'.1 ∧ u.2.1 ≤ u'.2.1)) →
      HasHandler s → s.fpart.stored = [] → s.fpart.kept = none →
        ∃ t, exec i s = .next t ∧ EntersHandler s t 0x05 0 (BitVec.ofNat 64 (u.2.1 + 16 * u.1)) s.fpart.convoyPc s.fpart.xidx) ∧
    ((∀ u ∈ us, ¬closed u) → ∀ w, us.findSome? busy = some w → Waits i s w)) ∧
  (∀ (s : State) (o : VOps) (i : Instr) (v : VInfo) (b d : Bool), vinfo i = some v → Settled s → HasHandler s → s.fseat.isCC = false →
    s.fpart.convoy = none →
    (i, b, d) ∈ [(Instr.vadd o, true, false), (.vsub o, true, false), (.vmul o, true, false), (.vfma o, true, true), (.vfms o, true, true),
        (.vfnma o, true, true), (.vmin o, true, false), (.vmax o, true, false), (.vabs o, false, false), (.vneg o, false, false),
        (.vdiv o, true, false), (.vsqrt o, false, false), (.vrcp o, false, false), (.vrsq o, false, false), (.vexp2 o, false, false),
        (.vlog2 o, false, false), (.vmulh o, true, false), (.vadds o, true, false), (.vsubs o, true, false), (.vand o, true, false),
        (.vor o, true, false), (.vxor o, true, false), (.vnot o, false, false), (.vandn o, true, false), (.vsll o, true, false),
        (.vsrl o, true, false), (.vsra o, true, false), (.vfsl o, true, true), (.vfsr o, true, true), (.vclz o, false, false),
        (.vpopc o, false, false), (.vmov o, false, false)] →
    let l := v.l s.fseat
    let w := fmtBits o.t
    let bank (e : Nat) : Nat := s.fseat.base + e / l
    let panes (e : Nat) : List Nat := o.wa.toNat :: ((if b ∧ o.sv = 0 then [o.wb.toNat] else []) ++ if d then [o.wd.toNat] else [])
    let at_ (k e : Nat) : Nat := k + e % l / s.fseat.perPane w
    let granule (e : Nat) : Nat := e % l % s.fseat.perPane w * w / 8 / 64
    let bad (e k : Nat) : Bool := (look none ((s.fbank (bank e)).pane (at_ k e)).img.poison (granule e)).isSome
    (∀ u ∈ usesIn s l s.fpart.xidx (s.evlOf l) v.reads v.writes, ((s.fbank u.1).pane u.2.1).Usable u.2.2) →
    (s.core s.focus.core).mism = none → (s.core s.focus.core).esc = none →
    ∀ before e after k, s.run l o.m o.n = before ++ e :: after → (∀ e' ∈ before, ∀ k ∈ panes e', bad e' k = false) →
      (panes e).find? (bad e) = some k →
      (at_ k e ∉ v.writes ∨ look none ((s.fbank (bank e)).pane (at_ k e)).img.poison (granule e) = some 0) →
        StopsAt i s e (fun t _ =>
          TrappedAt s t 0x14 (BitVec.ofNat 64 (at_ k e + 16 * bank e + 256 * granule e)) e ∧
          (t.core s.focus.core).poisonCt = (s.core s.focus.core).poisonCt + 1)) ∧
  ∀ (s : State) (o : VOps),
    let w := fmtBits o.t
    let compare (i : Instr) (ints : Int → Int → Bool) (floats : FV → FV → Bool) (nanTrue quiet : Bool) : Prop :=
      ∀ v, LanesReady i s v → MaskResult i s v o.wd.toNat o.m o.n (fun b j =>
        let a := s.elemOf b w o.wa.toNat j
        let second := if o.sv = 0 then s.elemOf b w o.wb.toNat j else if o.sv = 1 then ((s.fbank b).rs o.s).toNat % 2 ^ w
          else (o.s.toInt % 2 ^ w).toNat
        match floatOf o.t with
        | none => (ints (intOf o.t a) (intOf o.t second), 0)
        | some f =>
          let x := unpack f a
          let y := unpack f second
          (if x.isNan || y.isNan then nanTrue else floats x y,
            if (if quiet then x.isSig || y.isSig else x.isNan || y.isNan) then 1 else 0))
    let logic (i : Instr) (g : Bool → Bool → Bool) : Prop :=
      ∀ v, LanesReady i s v → MaskResult i s v o.wd.toNat o.m o.n (fun b j =>
        (g (maskBit ((s.fbank b).rm o.wa.toNat) (v.l s.fseat) j) (maskBit ((s.fbank b).rm o.wb.toNat) (v.l s.fseat) j), 0))
    compare (.vcmpEq o) (fun x y => x == y) (fun x y => !fvLt x y && !fvLt y x) false true ∧
    compare (.vcmpNe o) (fun x y => x != y) (fun x y => fvLt x y || fvLt y x) true true ∧
    compare (.vcmpLt o) (fun x y => decide (x < y)) fvLt false false ∧
    compare (.vcmpLe o) (fun x y => decide (x ≤ y)) (fun x y => !fvLt y x) false false ∧
    compare (.vcmpGt o) (fun x y => decide (y < x)) (fun x y => fvLt y x) false false ∧
    compare (.vcmpGe o) (fun x y => decide (y ≤ x)) (fun x y => !fvLt x y) false false ∧
    logic (.mand o) (fun a b => a && b) ∧ logic (.mor o) (fun a b => a || b) ∧ logic (.mxor o) (fun a b => a != b) ∧
    logic (.mnot o) (fun a _ => !a)

/-- R194-R197. -/
def Obligations.MovesCopyEncodings : Prop :=
  ∀ (s : State) (o : VOps) (x : VxOps),
    let w := fmtBits o.t
    let second (b j : Nat) : Nat := if o.sv = 0 then s.elemOf b w o.wb.toNat j else if o.sv = 1 then ((s.fbank b).rs o.s).toNat % 2 ^ w
      else (o.s.toInt % 2 ^ w).toNat
    (∀ v, LanesReady (.vmov o) s v → LaneResult (.vmov o) s v o.wd.toNat o.m o.n (fun b j => (s.elemOf b w o.wa.toNat j, 0))) ∧
    (∀ v, LanesReady (.vbcast o) s v → LaneResult (.vbcast o) s v o.wd.toNat o.m o.n (fun b j => (second b j, 0))) ∧
    (∀ v, LanesReady (.vsel o) s v → LaneResult (.vsel o) s v o.wd.toNat 0 false (fun b j =>
      (if maskAt (s.fbank b) o.m o.n (v.l s.fseat) j then s.elemOf b w o.wa.toNat j else second b j, 0))) ∧
    (∀ v, LanesReady (.vidx x) s v → LaneResult (.vidx x) s v x.wd.toNat x.m false (fun b j =>
      (((x.start.toInt + (s.indexOf (v.l s.fseat) b j : Int) * x.step.toInt) % 2 ^ fmtBits x.t).toNat, 0))) ∧
    (∀ (up : Bool) (v : VInfo),
      let i : Instr := if up then .vslideUp o else .vslideDn o
      let l := v.l s.fseat
      let k := if o.sv = 1 then ((s.fbank s.seqBank).rs o.s).toNat else o.s.toNat
      let at_ (e : Nat) (old : Nat) : Nat :=
        if s.fseat.base + e / l ∈ s.active then s.elemOf (s.fseat.base + e / l) w o.wa.toNat (e % l) else old
      LanesReady i s v → (∀ b ∈ s.active, ∀ p ∈ v.reads, ((s.fbank b).pane p).Usable false) →
        ∃ t, exec i s = .next t ∧ AroundLanes s t v.writes [] ∧ ∀ b ∈ s.active,
          (t.fbank b).flags = (s.fbank b).flags ∧
          ∀ j, j < l →
            let e := s.indexOf l b j
            let old := s.elemOf b w o.wd.toNat j
            ((t.fbank b).elem s.fseat w o.wd.toNat j) =
              if s.fpart.xidx ≤ e ∧ e < s.evlOf l ∧ maskAt (s.fbank b) o.m o.n l j = true then
                (if up then (if e < k then old else at_ (e - k) old) else if s.evlOf l ≤ e + k then 0 else at_ (e + k) old)
              else old) ∧
    (∀ v, LanesReady (.vcompress o) s v → 1 ≤ s.fpart.depth → HasHandler s → s.fpart.stored = [] → s.fpart.kept = none →
      ∃ t, exec (.vcompress o) s = .next t ∧
        EntersHandler s t 0x01 0 (BitVec.ofNat 64 s.fpart.depth) s.fpart.convoyPc s.fpart.xidx) ∧
    (∀ v, LanesReady (.vcompress o) s v → s.fpart.depth = 0 → (∀ b, b ∈ s.active ↔ s.fseat.base ≤ b ∧ b < s.fseat.base + s.fseat.size) →
      (∀ b ∈ s.active, ∀ p ∈ v.writes, ((s.fbank b).pane p).Usable true) →
      let l := v.l s.fseat
      let sel (e : Nat) : Bool := maskAt (s.fbank (s.fseat.base + e / l)) o.m o.n l (e % l)
      let place (e : Nat) : Nat := ((List.range e).filter sel).length
      ∃ t, exec (.vcompress o) s = .next t ∧ AroundLanes s t v.writes [] ∧
        (∀ b ∈ s.active, (t.fbank b).flags = (s.fbank b).flags) ∧
        (∀ e, s.fpart.xidx ≤ e → e < s.evlOf l → sel e = true →
          (t.fbank (s.fseat.base + place e / l)).elem s.fseat w o.wd.toNat (place e % l) =
            s.elemOf (s.fseat.base + e / l) w o.wa.toNat (e % l)) ∧
        ∀ c, c < s.fseat.size * l → (∀ e, s.fpart.xidx ≤ e → e < s.evlOf l → sel e = true → c ≠ place e) →
          (t.fbank (s.fseat.base + c / l)).elem s.fseat w o.wd.toNat (c % l) = s.elemOf (s.fseat.base + c / l) w o.wd.toNat (c % l))

/-- R198-R200, R202, R203. That vqenc with xidx at or above evl writes nothing, and that the block which holds xidx is encoded from its start, is
the model's choice (log 41); so is that a quiet NaN operand beside infinities of both signs sets no NV (log 107). -/
def Obligations.ConversionsAndDotsPerElement : Prop :=
  let value (typ c : Nat) : ℚ :=
    if typ = 0 then (if c < 8 then c else (c : ℚ) - 16)
    else (if c < 8 then 1 else -1) * (([[0, 1/2, 1, 3/2, 2, 3, 4, 6], [0, 1/8, 1/4, 1/2, 1, 2, 4, 8], [0, 1, 2, 3, 4, 6, 8, 12]] : List (List ℚ)).getD
      (typ - 1) []).getD (c % 8) 0
  let nv (p : Prop) [Decidable p] : BitVec 5 := if p then 1 else 0
  (∀ typ c e, typ < 4 → c < 16 → e < 63 →
    (codeVal typ c).rat = value typ c ∧ (codeVal typ c).sign = decide (8 ≤ c) ∧
    (q4Val (64 * typ + e) c).rat = value typ c * 2 ^ ((e : Int) - 32) ∧ (q4Val (64 * typ + e) c).sign = decide (8 ≤ c) ∧
    (q4Val (64 * typ + 63) c).isNan = true ∧ (q4Val (64 * typ + 63) c).isSig = false) ∧
  (∀ (m : RMode) (ts : BitVec 4) (as bs : List Nat) (sa sb d : Nat), as ≠ [] → as.length = bs.length → m ∈ [RMode.rne, .rtz, .rup] →
    (∀ f, floatOf ts = some f → f = e4m3Fmt ∨ f = e5m2Fmt →
      DotResult m ((as.zip bs).map (fun p => (unpack f p.1, unpack f p.2))) 0 (unpack f32Fmt d) (dotOf ts m as bs sa sb d)) ∧
    (sa < 256 → sb < 256 → (∀ c ∈ as ++ bs, c < 16) →
      (sa % 64 = 63 ∨ sb % 64 = 63 → dotOf 7 m as bs sa sb d =
        (0x7FC00000, nv ((unpack f32Fmt d).isSig = true))) ∧
      (sa % 64 ≠ 63 → sb % 64 ≠ 63 →
        DotResult m ((as.zip bs).map (fun (p : Nat × Nat) => (codeVal (sa / 64) p.1, codeVal (sb / 64) p.2)))
          ((sa % 64 + sb % 64 : Nat) - 64 : Int) (unpack f32Fmt d) (dotOf 7 m as bs sa sb d))) ∧
    (floatOf ts = none → ts ≠ 7 →
      dotOf ts m as bs sa sb d = ((((d : Int) + ((as.zip bs).map (fun (p : Nat × Nat) => intOf ts p.1 * intOf ts p.2)).sum) % 2 ^ 32).toNat, 0))) ∧
  (∀ (typ e : Nat) (m : RMode) (x : FV), typ < 4 → e < 63 → m ∈ [RMode.rne, .rtz, .rup] → x.isNan = false →
    let r := encodeCode typ e m x
    let y : ℚ := x.rat / 2 ^ ((e : Int) - 32)
    let low : ℚ := ([-8, -6, -8, -12] : List ℚ).getD typ 0
    let high : ℚ := ([7, 6, 8, 12] : List ℚ).getD typ 0
    r.1 < 16 ∧ (typ ≠ 0 → decide (8 ≤ r.1) = x.sign) ∧
    ((x = .inf false ∨ (x.isInf = false ∧ high < y)) → r = (7, 0x14)) ∧
    ((x = .inf true ∨ (x.isInf = false ∧ y < low)) → r = (if typ = 0 then 8 else 15, 0x14)) ∧
    (x.isInf = false → low ≤ y → y ≤ high → r.2 = (if value typ r.1 = y then 0 else 16) ∧ 0 ≤ value typ r.1 * y ∧
      match m with
      | .rtz => |value typ r.1| ≤ |y| ∧ ∀ c, c < 16 → |value typ c| ≤ |y| → |value typ c| ≤ |value typ r.1|
      | .rup => y ≤ value typ r.1 ∧ ∀ c, c < 16 → y ≤ value typ c → value typ r.1 ≤ value typ c
      | _ => ∀ c, c < 16 → |value typ r.1 - y| ≤ |value typ c - y| ∧
          (|value typ r.1 - y| = |value typ c - y| → value typ c = value typ r.1 ∨ r.1 % 2 = 0))) ∧
  (∀ (typ : Nat) (m : RMode) (xs : List (Nat × FV)),
    ((∃ x ∈ xs, x.2.isNan = true) → encodeBlock typ m xs = (xs.map (fun x => (x.1, 0)), 63, nv (xs.any (fun x => x.2.isSig) = true))) ∧
    ((∀ x ∈ xs, x.2.isNan = false) → ∃ e, e < 63 ∧
      (encodeBlock typ m xs).1 = xs.map (fun x => (x.1, (encodeCode typ e m x.2).1)) ∧ (encodeBlock typ m xs).2.1 = e ∧
      ∀ c, (encodeBlock typ m xs).2.2.getLsbD c = true ↔ ∃ x ∈ xs, (encodeCode typ e m x.2).2.getLsbD c = true)) ∧
  ∀ (s : State) (o : VOps),
    let ts := tsOf o
    let sb := fmtBits ts
    let db := fmtBits o.t
    let g := groupSize o.g
    let mode : RMode := match o.rm.toNat with | 0 => rmodeOf s.fpart.rmNow | 1 => .rne | 2 => .rtz | _ => .rup
    let lane (i : Instr) (f : Nat → Nat → Nat × BitVec 5) : Prop := ∀ v, LanesReady i s v → LaneResult i s v o.wd.toNat o.m o.n f
    let a (b j : Nat) : Nat := s.elemOf b sb o.wa.toNat j
    let b' (b j : Nat) : Nat := s.elemOf b sb o.wb.toNat j
    let d (b j : Nat) : Nat := s.elemOf b db o.wd.toNat j
    lane (.vcvt o) (fun b j =>
      match floatOf ts, floatOf o.t with
      | some f, some h => ((deliver h mode o.sat (unpack f (a b j))).1,
          (if (unpack f (a b j)).isSig then 1 else 0) ||| (deliver h mode o.sat (unpack f (a b j))).2)
      | some f, none => let r := toIntIn mode (intLo o.t) (intHi o.t) (unpack f (a b j)); ((r.1 % 2 ^ db).toNat, r.2)
      | none, some h => deliver h mode o.sat (fvOfInt false (intOf ts (a b j)) 0)
      | none, none => (((if o.sat then max (intLo o.t) (min (intHi o.t) (intOf ts (a b j))) else intOf ts (a b j)) % 2 ^ db).toNat, 0)) ∧
    lane (.vwfma o) (fun b j =>
      match floatOf ts, floatOf o.t with
      | some f, some h =>
        let r := fvFma mode (unpack f (a b j)) (unpack f (b' b j)) (unpack h (d b j))
        ((deliver h mode false r.1).1, r.2 ||| (deliver h mode false r.1).2)
      | _, _ => (((intOf ts (a b j) * intOf ts (b' b j) + intOf o.t (d b j)) % 2 ^ db).toNat, 0)) ∧
    lane (.vdot o) (fun b j =>
      let r := 32 / sb
      dotOf ts mode ((upFrom (r * j) r).map (a b)) ((upFrom (r * j) r).map (b' b))
        (s.elemOf b 8 (o.wa.toNat + g) (r * j / 32)) (s.elemOf b 8 (o.wb.toNat + g) (r * j / 32)) (d b j)) ∧
    (∀ f, floatOf o.t = some f → lane (.vqdec o) (fun b j =>
      deliver f mode false (if ts = 7 then q4Val (s.elemOf b 8 (o.wa.toNat + g * 4 / db) (j / 32)) (a b j)
        else fvOfInt false (intOf 6 (a b j)) 0))) ∧
    ∀ v f, LanesReady (.vqenc o) s v → floatOf ts = some f →
      let l := v.l s.fseat
      let scale (b j : Nat) : Nat := s.elemOf b 8 (o.wd.toNat + g) (j / 32)
      let value (b j : Nat) : FV := unpack f (s.elemOf b sb o.wa.toNat j)
      let processed (e : Nat) : Prop := s.fpart.xidx < s.evlOf l ∧ s.fpart.xidx / 32 * 32 ≤ e ∧ e < s.evlOf l
      let present (b e : Nat) : List Nat :=
        ((upFrom e 32).filter (fun x => decide (x < s.evlOf l) && maskAt (s.fbank b) o.m o.n l (x % l))).map (· % l)
      let block (b e : Nat) := encodeBlock (scale b (e % l) / 64) mode ((present b e).map (fun j => (j, value b j)))
      let end_ (b e : Nat) : ℚ := [7, 6, 8, 12].getD (scale b (e % l) / 64) 7
      (∀ b ∈ s.active, ∀ p ∈ v.writes, ((s.fbank b).pane p).Usable true) → (∀ b ∈ s.active, ∀ p ∈ v.reads, ((s.fbank b).pane p).Usable false) →
        ∃ t, exec (.vqenc o) s = .next t ∧ AroundLanes s t v.writes [] ∧
          (∀ b ∈ s.active, ∀ c, (t.fbank b).flags.getLsbD c = true ↔ (s.fbank b).flags.getLsbD c = true ∨
            ∃ j, j < l ∧ processed (s.indexOf l b j / 32 * 32) ∧ (block b (s.indexOf l b j / 32 * 32)).2.2.getLsbD c = true) ∧
          ∀ b ∈ s.active, ∀ j, j < l →
            let e := s.indexOf l b j / 32 * 32
            let r := block b e
            (processed e →
              (∀ c, (j, c) ∈ r.1 → (t.fbank b).elem s.fseat 4 o.wd.toNat j = c) ∧
              ((∀ c, (j, c) ∉ r.1) → (t.fbank b).elem s.fseat 4 o.wd.toNat j = s.elemOf b 4 o.wd.toNat j) ∧
              (t.fbank b).elem s.fseat 8 (o.wd.toNat + g) (j / 32) = scale b j / 64 * 64 + r.2.1 ∧
              ((∃ x ∈ present b e, (value b x).isNan = true) → r.2.1 = 63 ∧ ∀ x ∈ r.1, x.2 = 0) ∧
              ((∀ x ∈ present b e, (value b x).isNan = false ∧ (value b x).isInf = false) →
                r.2.1 ≤ 62 ∧ (r.2.1 < 62 → ∀ x ∈ present b e, |(value b x).rat| ≤ end_ b e * 2 ^ ((r.2.1 : Int) - 32)) ∧
                ∀ k, k < r.2.1 → ∃ x ∈ present b e, end_ b e * 2 ^ ((k : Int) - 32) < |(value b x).rat|)) ∧
            (¬processed e →
              (t.fbank b).elem s.fseat 4 o.wd.toNat j = s.elemOf b 4 o.wd.toNat j ∧
              (t.fbank b).elem s.fseat 8 (o.wd.toNat + g) (j / 32) = scale b j)

/-- R193, R204-R206; the order of floating sums is that of R60 (`floatSum`), maximum and minimum are R50's. That SAT acts on e5m2 results of
reductions, scans and vgmax, with OF and NX where NV goes, is the model's reading (log 80). -/
def Obligations.ReductionsCombineTheProcessedElements : Prop :=
  (∀ (f : Fmt) (m : RMode) (sat : Bool) (xs : List (Option Nat)) (h : Nat), xs.length ≤ 2 ^ h →
    ∃ (node : Nat → Nat → Option Nat) (flags : Nat → Nat → BitVec 5),
      (∀ i, node i 0 = xs.getD i none ∧ flags i 0 = 0) ∧
      (∀ i k,
        let x := node i k
        let y := node (i + 2 ^ k) k
        let below := flags i k ||| flags (i + 2 ^ k) k
        match x, y with
        | some x, some y =>
          let r := fvAdd m (unpack f x) (unpack f y)
          node i (k + 1) = some (deliver f m sat r.1).1 ∧ flags i (k + 1) = below ||| r.2 ||| (deliver f m sat r.1).2
        | some x, none => node i (k + 1) = some x ∧ flags i (k + 1) = below
        | none, y => node i (k + 1) = y ∧ flags i (k + 1) = below) ∧
      let r := (node 0 h).getD 0
      floatSum f m sat xs = (if (unpack f r).isNan then nanEnc f else r,
        flags 0 h ||| if xs.any (fun x => (x.map (fun n => (unpack f n).isSig)).getD false) then 1 else 0)) ∧
  (∀ (f : Fmt) (isMax : Bool) (a b : Nat),
    let x := unpack f a
    let y := unpack f b
    let before : Prop :=
      match x, y with
      | .inf n, .inf k => n = true ∧ k = false
      | .inf n, _ => n = true
      | _, .inf k => k = false
      | x, y => x.rat < y.rat ∨ (x.rat = 0 ∧ y.rat = 0 ∧ x.sign = true ∧ y.sign = false)
    let r := minMaxEnc f isMax a b
    r.2 = (if x.isSig || y.isSig then 1 else 0) ∧
    (x.isNan → y.isNan → r.1 = nanEnc f) ∧ (x.isNan → y.isNan = false → r.1 = b) ∧ (x.isNan = false → y.isNan → r.1 = a) ∧
    (x.isNan = false → y.isNan = false → (before → r.1 = if isMax then b else a) ∧ (¬before → r.1 = if isMax then a else b))) ∧
  ∀ (s : State) (o : VOps) (v : VInfo),
    let w := fmtBits o.t
    let l := v.l s.fseat
    let mode : RMode := match o.rm.toNat with | 0 => rmodeOf s.fpart.rmNow | 1 => .rne | 2 => .rtz | _ => .rup
    let on (e : Nat) : Bool := decide (s.fpart.xidx ≤ e) && s.active.contains (s.fseat.base + e / l) &&
      maskAt (s.fbank (s.fseat.base + e / l)) o.m o.n l (e % l)
    let el (e : Nat) : Nat := s.elemOf (s.fseat.base + e / l) w o.wa.toNat (e % l)
    let run : List Nat := (List.range (s.evlOf l)).filter on
    let ints : List Int := run.map (fun e => intOf o.t (el e))
    let word (t : BitVec 4) (n : Nat) : Word := if isFL t then BitVec.ofNat 64 n else BitVec.ofInt 64 (intOf t n)
    let marked : List Nat := run.filter (fun e => maskBit ((s.fbank (s.fseat.base + e / l)).rm o.wa.toNat) l (e % l))
    let scalar (i : Instr) (r : Word × BitVec 5) : Prop :=
      LanesReady i s v → (s.fpart.xidx < s.evlOf l → ScalarResult i s o.s r) ∧
        (s.evlOf l ≤ s.fpart.xidx → ∃ t, exec i s = .next t ∧ AroundLanes s t [] [] ∧ ∀ b ∈ s.active, (t.fbank b).flags = (s.fbank b).flags)
    scalar (.mpopc o) (BitVec.ofNat 64 marked.length, 0) ∧
    scalar (.mfirst o) ((marked.head?.map (BitVec.ofNat 64)).getD (BitVec.allOnes 64), 0) ∧
    (floatOf o.t = none →
      scalar (.vredSum o) (word o.t (ints.sum % 2 ^ w).toNat, 0) ∧
      scalar (.vredMax o) (BitVec.ofInt 64 (ints.foldl max (intLo o.t)), 0) ∧ scalar (.vredMin o) (BitVec.ofInt 64 (ints.foldl min (intHi o.t)), 0) ∧
      scalar (.vredAnd o) (word o.t ((run.map el).foldl (· &&& ·) (2 ^ w - 1)), 0) ∧
      scalar (.vredOr o) (word o.t ((run.map el).foldl (· ||| ·) 0), 0)) ∧
    (∀ f, floatOf o.t = some f →
      let limit (r : Nat × BitVec 5) : Nat × BitVec 5 :=
        if f = e5m2Fmt ∧ o.sat = true ∧ (unpack f r.1).isInf = true then (r.1 - 1, r.2 ||| 0x14) else r
      let sum := limit (floatSum f mode o.sat ((List.range (s.evlOf l)).map (fun e => if on e then some (el e) else none)))
      let ext (isMax : Bool) : Nat × BitVec 5 :=
        limit ((run.map el).foldl (fun r x => let m := minMaxEnc f isMax r.1 x; (m.1, r.2 ||| m.2)) (nanEnc f, 0))
      scalar (.vredSum o) (BitVec.ofNat 64 sum.1, sum.2) ∧
      scalar (.vredMax o) (BitVec.ofNat 64 (ext true).1, (ext true).2) ∧ scalar (.vredMin o) (BitVec.ofNat 64 (ext false).1, (ext false).2)) ∧
    (let k : Int := if o.sv = 1 then ((s.fbank s.seqBank).rs o.s).toNat else o.s.toInt
     let group (e : Nat) : List Nat := (run.filter (fun x => x / 2 ^ k.toNat == e / 2 ^ k.toNat)).map el
     LanesReady (.vgmax o) s v → 0 ≤ k → k ≤ 20 →
      (floatOf o.t = none →
        LaneResult (.vgmax o) s v o.wd.toNat o.m o.n (fun b j =>
          ((((group (s.indexOf l b j)).map (intOf o.t)).foldl max (intLo o.t) % 2 ^ w).toNat, 0))) ∧
      ∀ f, floatOf o.t = some f →
        let most (e : Nat) : Nat × BitVec 5 :=
          (group e).foldl (fun r x => let m := minMaxEnc f true r.1 x; (m.1, r.2 ||| m.2)) (nanEnc f, 0)
        let top (e : Nat) : Nat × BitVec 5 :=
          if f = e5m2Fmt ∧ o.sat = true ∧ (unpack f (most e).1).isInf = true then ((most e).1 - 1, (most e).2 ||| 0x14) else most e
        ∃ t, exec (.vgmax o) s = .next t ∧ AroundLanes s t v.writes [] ∧
          (∀ b ∈ s.active, ∀ j, j < l → (t.fbank b).elem s.fseat w o.wd.toNat j =
            if on (s.indexOf l b j) = true ∧ s.indexOf l b j < s.evlOf l then (top (s.indexOf l b j)).1 else s.elemOf b w o.wd.toNat j) ∧
          ∀ b ∈ s.active, ∀ c, (t.fbank b).flags.getLsbD c = true ↔
            (s.fbank b).flags.getLsbD c = true ∨ (b = s.seqBank ∧ ∃ e ∈ run, (top e).2.getLsbD c = true)) ∧
    (LanesReady (.vscan o) s v →
      ∃ t, exec (.vscan o) s = .next t ∧ AroundLanes s t v.writes [] ∧
        (let flags (y : Option Nat) (e : Nat) : BitVec 5 :=
            match floatOf o.t, y with
            | none, _ => 0
            | some f, none => (if (unpack f (el e)).isSig then 1 else 0) ||| (deliver f mode o.sat (unpack f (el e))).2
            | some f, some x =>
              let r := fvAdd mode (unpack f x) (unpack f (el e))
              r.2 ||| (deliver f mode o.sat r.1).2
          ∀ b ∈ s.active, ∀ c, (t.fbank b).flags.getLsbD c = true ↔ (s.fbank b).flags.getLsbD c = true ∨
            ∃ before e after, run = before ++ e :: after ∧ s.fseat.base + e / l = b ∧
              (flags (before.getLast?.map (fun x => (t.fbank (s.fseat.base + x / l)).elem s.fseat w o.wd.toNat (x % l))) e).getLsbD c = true) ∧
        (∀ b ∈ s.active, ∀ j, j < l → on (s.indexOf l b j) = false ∨ s.evlOf l ≤ s.indexOf l b j →
          (t.fbank b).elem s.fseat w o.wd.toNat j = s.elemOf b w o.wd.toNat j) ∧
        (∀ e rest, run = e :: rest → (t.fbank (s.fseat.base + e / l)).elem s.fseat w o.wd.toNat (e % l) =
          match floatOf o.t with
          | some f => (deliver f mode o.sat (unpack f (el e))).1
          | none => el e) ∧
        ∀ before e e' after, run = before ++ e :: e' :: after →
          (t.fbank (s.fseat.base + e' / l)).elem s.fseat w o.wd.toNat (e' % l) =
            let y := (t.fbank (s.fseat.base + e / l)).elem s.fseat w o.wd.toNat (e % l)
            match floatOf o.t with
            | some f => (deliver f mode o.sat (fvAdd mode (unpack f y) (unpack f (el e'))).1).1
            | none => ((intOf o.t y + intOf o.t (el e')) % 2 ^ w).toNat)

/-- R169, R170, R175; the transition ends in an event, which makes the image that of the pane (for act log 79). `ecc`: row errors that an act would find (R177, log 58). -/
def Obligations.RowCommandsOpenPanes : Prop :=
  ∀ (s : State) (n k : BitVec 4) (a : BitVec 3), Settled s → Fresh s → Memory.wf s = true → n.toNat < 12 → k.toNat < 8 →
    (∀ b ∈ s.active, ((s.fbank b).pane n.toNat).st = .closed ∧ ((s.fbank b).pane n.toNat).park = false) →
    let va (b : Nat) : Nat := ((s.fbank b).ra a).toNat % 2 ^ 56
    let slot (b : Nat) : Slot := (s.fbank b).slot n.toNat k.toNat
    let opening (i : PaneImage) : Pane :=
      { Pane.empty with st := .opening, after := if i.dirty then .openDirty else .openClean, next := some i }
    ((∀ b ∈ s.active, ((s.fbank b).ra a).toNat / 2 ^ 61 < 6) → ∀ p : Nat → Spot, (∀ b ∈ s.active, RowSpot s .read n.toNat b (va b) (p b)) →
      (s.core s.focus.core).ecc = [] → ReadsIn (.act n a) s (fun b x y => ∃ i, PaneOnly n.toNat (opening i) x y ∧
        (∀ k, k < 4096 → i.byte k = BitVec.ofNat 8 (s.sees s.focus.core s.focus.base 1 ((p b).pa / 4096 * 4096 + k) 1)) ∧
        (∀ g, g < 64 → (look none i.poison g).isSome = s.poisonAt ((p b).pa / 4096 * 4096 + 64 * g)) ∧
        { i with data := [], poison := [] } = { PaneImage.empty with
              bnd := true, row := BitVec.ofNat 8 (dramRow (p b).pa), pa := (p b).pa / 4096 * 4096, va := BitVec.ofNat 64 (va b)
              wperm := (p b).wperm })) ∧
    CompletesIn (.actz n) s (fun _ x y => PaneOnly n.toNat (opening PaneImage.empty) x y) ∧
    ((∀ b ∈ s.active, k.toNat < 5 → (slot b).owner = .free ∨ (slot b).owner = .user s.fseat.launch s.fseat.task) →
      ∃ t, exec (.reopen n k) s = .next t ∧ Around { s with free := t.free } t ∧ Proceeds s t ∧
        OnBanks s t (fun b x y => ∃ i, PaneOnly n.toNat (opening i) x y ∧
          (if k.toNat < 5 ∧ (slot b).owner = .free then i = PaneImage.empty
           else match (slot b).img with
            | some z => i = z
            | none => { i with data := [] } = PaneImage.empty)))

/-- R169, R171, R173; a parked pane is one whose image slot 5 holds (R73, R74). That the row's bytes change when WRITING begins, and that the
binding shows when it ends, is the model's reading (log 42). -/
def Obligations.RowCommandsWriteRows : Prop :=
  ∀ (s : State) (n : BitVec 4) (a : BitVec 3) (r : BitVec 5), Settled s → Fresh s → Memory.wf s = true → s.fseat.red = none → n.toNat < 12 →
    let pane (b : Nat) : Pane := (s.fbank b).pane n.toNat
    let va (b : Nat) : Nat := ((s.fbank b).ra a).toNat % 2 ^ 56
    let from_ (b : Nat) : Nat := ((s.fbank b).rs r).toNat
    let writing (img : PaneImage) (p q : Pane) : Prop :=
      { q with back := p.back } = { p with
        st := .writing, after := .openClean, park := false, img := { p.img with dirty := false }, next := some { img with dirty := false } }
    let sizes : Prop := ∀ b ∈ s.active, ((s.fbank b).ra a).toNat / 2 ^ 61 < 6
    let opens : Prop := ∀ b ∈ s.active, HoldsImage (s.fbank b) n.toNat
    (opens →
      (∀ b ∈ s.active, (pane b).img.bnd = true ∧ (pane b).img.wperm = true ∧ (pane b).img.pa % 4096 = 0 ∧
        regionOf (pane b).img.pa = .dram ∧ dramBank (pane b).img.pa = b) →
      WritesRows (.wb n) s (fun b => (pane b).img.pa) (fun b i => (pane b).img.byte i)
        (fun b g => (look none (pane b).img.poison g).isSome)
        (fun b x y => ∃ q, PaneOnly n.toNat q x y ∧ writing (pane b).img (pane b) q)) ∧
    (∀ p : Nat → Spot, opens → sizes → (∀ b ∈ s.active, RowSpot s .write n.toNat b (va b) (p b)) →
      WritesRows (.wbto n a) s (fun b => (p b).pa / 4096 * 4096) (fun b i => (pane b).img.byte i)
        (fun b g => (look none (pane b).img.poison g).isSome)
        (fun b x y => ∃ q, PaneOnly n.toNat q x y ∧
          writing { (pane b).img with bnd := true, row := BitVec.ofNat 8 (dramRow (p b).pa), pa := (p b).pa / 4096 * 4096
                                      va := BitVec.ofNat 64 (va b), wperm := (p b).wperm } (pane b) q)) ∧
    ∀ p q : Nat → Spot, sizes → (∀ b ∈ s.active, (pane b).st = .closed ∧ (pane b).park = false) →
      (∀ b ∈ s.active, RowSpot s .read n.toNat b (from_ b) (q b) ∧ RowSpot s .write n.toNat b (va b) (p b)) →
      WritesRows (.rcopy n a r) s (fun b => (p b).pa / 4096 * 4096)
        (fun b i => BitVec.ofNat 8 (s.sees s.focus.core s.focus.base 1 ((q b).pa / 4096 * 4096 + i) 1)) (fun b g => s.poisonAt ((q b).pa / 4096 * 4096 + 64 * g))
        (fun _ x y => PaneOnly n.toNat { Pane.empty with st := .closing } x y)

/-- R172, R174, R175 and R176 with the word of R68. That pre unbinds the pane at once is log 79. -/
def Obligations.RowCommandsCloseRefreshShutAndReport : Prop :=
  ∀ (s : State) (n k : BitVec 4) (d : BitVec 5), Settled s → Fresh s → n.toNat < 12 → k.toNat < 8 →
    let pane (b : Nat) : Pane := (s.fbank b).pane n.toNat
    let slot (b : Nat) : Slot := (s.fbank b).slot n.toNat k.toNat
    let isOpen (b : Nat) : Prop := (pane b).park = false ∧ ((pane b).st = .openClean ∨ (pane b).st = .openDirty)
    ((∀ b ∈ s.active, (isOpen b ∧ (pane b).pins = 0) ∨ ((pane b).park = true ∧ (pane b).busy = false)) →
      CompletesIn (.pre n) s (fun b x y =>
        PaneOnly n.toNat (if (pane b).park then Pane.empty else { Pane.empty with st := .closing }) x y)) ∧
    ((∀ b ∈ s.active, ((pane b).park = false ∧ (pane b).st = .closed) ∨ ((pane b).park = true ∧ (pane b).busy = false)) →
      CompletesIn (.rfsh n) s (fun b x y =>
        PaneOnly n.toNat (if (pane b).park then { pane b with busy := true } else { Pane.empty with st := .closing }) { x with debt := y.debt } y ∧
        ∀ g, y.debtOf g = if g = n.toNat then x.debtOf g - 1 else x.debtOf g)) ∧
    ((∀ b ∈ s.active, isOpen b ∧ (k.toNat < 5 → (slot b).owner = .free ∨ (slot b).owner = .user s.fseat.launch s.fseat.task)) →
      CompletesIn (.shut n k) s (fun b x y =>
        PaneOnly n.toNat { pane b with st := .writing, after := if (pane b).img.dirty then .openDirty else .openClean }
          { x with slots := y.slots } y ∧
        ∀ g j, j < 8 → y.slot g j =
          if g = n.toNat ∧ j = k.toNat then
            ⟨if k.toNat < 5 then .user s.fseat.launch s.fseat.task else (slot b).owner, some (pane b).img⟩
          else x.slot g j)) ∧
    WritesReg (.pstat d n) s d (fun x =>
      let p := x.pane n.toNat
      BitVec.ofNat 64
        ((match p.st with | .closed => 0 | .opening => 1 | .openClean => 2 | .openDirty => 3 | .writing => 4 | .closing => 5)
          + (if p.pins = 0 then 0 else 2 ^ 3) + (if p.park then 2 ^ 4 else 0) + (if p.img.bnd then 2 ^ 5 + p.img.row.toNat * 2 ^ 8 else 0)))

/-- R165 to R167 with the pane states of R67 and R178, for panes that are not parked. The place of the slot's owner check and of that of wb's
permission, after the pane states, is log 78. -/
def Obligations.RowCommandsCheckAddressesThenPanes : Prop :=
  ∀ (s : State) (n k : BitVec 4) (a : BitVec 3), Settled s → n.toNat < 12 → k.toNat < 8 →
    let pane (b : Nat) : Pane := (s.fbank b).pane n.toNat
    let first (b : Nat) (bad : Nat → Prop) : Prop := ∃ before after, s.active = before ++ b :: after ∧ bad b ∧ ∀ c ∈ before, ¬bad c
    let is (l : List PaneState) (b : Nat) : Prop := (pane b).st ∈ l
    let pinned (b : Nat) : Prop := is [.openClean, .openDirty] b ∧ (pane b).pins ≠ 0
    let unbound (b : Nat) : Prop := is [.openClean, .openDirty] b ∧ (pane b).img.bnd = false
    let open_ : List PaneState := [.openClean, .openDirty, .writing]
    let traps (i : Instr) (bad : Nat → Prop) (cause : BitVec 8) : Prop :=
      ∀ b, first b bad → exec i s = .next (s.trapSingle cause (BitVec.ofNat 64 (n.toNat + b * 16)))
    let begins (i : Instr) (bad held : Nat → Prop) (R : Nat → Bank → Bank → Prop) : Prop :=
      (∀ b ∈ s.active, ¬bad b) → ∀ b, first b held → BeginsIn i s (fun c => ¬held c) (.pane s.focus.core b n.toNat) R
    let opening : Pane := { Pane.empty with st := .opening, after := .openClean, next := some PaneImage.empty }
    let rest (b : Nat) : Prop := b ∈ s.active ∧ s.fpart.begun.getLsbD b = false
    ((∀ b, rest b → (pane b).st = .closed ∧ (pane b).park = false) →
      CompletesIn (.actz n) s (fun b x y => (rest b → PaneOnly n.toNat opening x y) ∧ (¬rest b → y = x))) ∧
    (Fresh s →
      ((∃ b ∈ s.active, 6 ≤ ((s.fbank b).ra a).toNat / 2 ^ 61) → exec (.act n a) s = .next (s.trapSingle 0x01 (BitVec.ofNat 64 a.toNat))) ∧
      (∀ b p, s.active = [b] → b < 16 → ((s.fbank b).ra a).toNat / 2 ^ 61 < 6 →
        let va := ((s.fbank b).ra a).toNat % 2 ^ 56
        translate s s.fctx .read va = .ok p → p.peer = 0 →
        ∀ cause : BitVec 8,
          (if regionOf p.pa = .cap then cause = 0x15
           else if regionOf p.pa ≠ .dram then cause = 0x11
           else if dramCore p.pa ≠ s.focus.core ∨ dramBank p.pa ≠ b then cause = 0x07
           else dramSg p.pa ≠ n.toNat ∧ cause = 0x08) →
          exec (.act n a) s = .next (s.trapSingle cause (BitVec.ofNat 64 (va + b * 2 ^ 56)))) ∧
      ((∀ b ∈ s.active, (pane b).park = false) →
        ((∀ b ∈ s.active, ¬is [.opening] b) → traps (.actz n) (is open_) 0x06 ∧ traps (.reopen n k) (is open_) 0x06) ∧
        (∀ b, first b (is [.opening]) →
          Waits (.actz n) s (.pane s.focus.core b n.toNat) ∧ Waits (.reopen n k) s (.pane s.focus.core b n.toNat)) ∧
        traps (.pre n) (is [.closed, .closing]) 0x05 ∧ traps (.shut n k) (is [.closed, .closing]) 0x05 ∧
        traps (.rfsh n) (is [.opening, .openClean, .openDirty, .writing]) 0x06 ∧
        ((∀ b ∈ s.active, ¬is [.opening, .writing] b) → ∀ b, first b (fun c => is [.closed, .closing] c ∨ unbound c) →
          exec (.wb n) s = .next (s.trapSingle (if (pane b).st ∈ [PaneState.closed, .closing] then 0x05 else 0x06)
            (BitVec.ofNat 64 (n.toNat + b * 16)))) ∧
        begins (.actz n) (is (.opening :: open_)) (is [.closing]) (fun _ x y => PaneOnly n.toNat opening x y) ∧
        begins (.rfsh n) (is (.opening :: open_)) (is [.closing]) (fun _ x y =>
          PaneOnly n.toNat { Pane.empty with st := .closing } { x with debt := y.debt } y ∧
          ∀ g, y.debtOf g = if g = n.toNat then x.debtOf g - 1 else x.debtOf g) ∧
        ((∀ b ∈ s.active, ¬pinned b) → begins (.pre n) (is [.closed, .closing]) (is [.opening, .writing])
          (fun _ x y => PaneOnly n.toNat { Pane.empty with st := .closing } x y)) ∧
        ((∀ b ∈ s.active, ¬is [.closed, .closing] b) → ∀ b, first b pinned → Waits (.pre n) s (.pin s.focus.core b n.toNat)) ∧
        (5 ≤ k.toNat →
          begins (.shut n k) (is [.closed, .closing]) (is [.opening, .writing]) (fun b x y =>
            PaneOnly n.toNat { pane b with st := .writing, after := if (pane b).img.dirty then .openDirty else .openClean }
              { x with slots := y.slots } y)) ∧
        (∀ b, first b (is [.opening, .writing]) → Waits (.wb n) s (.pane s.focus.core b n.toNat)) ∧
        ((∀ b ∈ s.active, is [.openClean, .openDirty] b ∧ ¬unbound b) →
          (∀ b, first b (fun c => (pane c).img.wperm = false) → s.fseat.red = none → exec (.wb n) s =
            .next (s.trapSingle 0x11 (BitVec.ofNat 64 ((pane b).img.va.toNat % 2 ^ 56 + b * 2 ^ 56)))) ∧
          ((∀ b ∈ s.active, (pane b).img.wperm = true) → s.fseat.red = none →
            ∀ b, first b pinned → Waits (.wb n) s (.pin s.focus.core b n.toNat))) ∧
        ((∀ b ∈ s.active, is [.closing] b) → 5 ≤ k.toNat → ∀ b, s.active.head? = some b →
          BeginsIn (.reopen n k) s (fun _ => False) (.pane s.focus.core b n.toNat) (fun _ x y => y = x)) ∧
        ((∀ b ∈ s.active, is [.closed] b) → k.toNat < 5 → ∀ b, first b (fun c =>
            ((s.fbank c).slot n.toNat k.toNat).owner ≠ .free ∧ ((s.fbank c).slot n.toNat k.toNat).owner ≠ .user s.fseat.launch s.fseat.task) →
          exec (.reopen n k) s = .next (s.trapSingle 0x11 (BitVec.ofNat 64 k.toNat)))))

/-- R180 and R181; k is sS of the sequencer bank. -/
def Obligations.RshufMovesWordsBetweenBanks : Prop :=
  ∀ (s : State) (wd : BitVec 4) (ws : BitVec 3) (r : BitVec 5), Settled s → wd.toNat < 12 → wd.toNat ≠ ws.toNat →
    (∀ b ∈ s.active, s.fseat.base ≤ b ∧ b < s.fseat.base + s.fseat.size) → 8 ≤ s.fseat.lcap → s.fseat.lcap ≤ 12 →
    (∀ b ∈ s.active, ((s.fbank b).pane wd.toNat).Usable true ∧ ((s.fbank b).pane ws.toNat).Usable false) →
    CleanPanes s [wd.toNat, ws.toNat] →
    let words := 2 ^ s.fseat.lcap / 4
    let k := ((s.fbank s.seqBank).rs r).toNat
    let sz := s.fseat.size
    ∀ p ∈ [(Instr.rshufRot wd ws r, fun o : Nat => (((o : Int) - (k : Int)) % (sz : Int)).toNat), (.rshufXor wd ws r, fun o => o ^^^ (k % sz)),
        (.rshufRev wd ws, fun o => sz - 1 - o), (.rshufBcast wd ws r, fun _ => k % sz)],
      ∃ t, exec p.1 s = .next t ∧ AroundLanes s t [wd.toNat] [] ∧ ∀ b ∈ s.active,
        (t.fbank b).flags = (s.fbank b).flags ∧ ∀ j, j < words →
          let q := s.fseat.base + p.2 (b - s.fseat.base)
          let e := s.indexOf words b j
          (s.fpart.xidx ≤ e ∧ e < s.evlOf words ∧ q ∈ s.active →
            (t.fbank b).elem s.fseat 32 wd.toNat j = (s.fbank q).elem s.fseat 32 ws.toNat j ∧ Dirtied t b wd.toNat) ∧
          (¬(s.fpart.xidx ≤ e ∧ e < s.evlOf words ∧ q ∈ s.active) →
            (t.fbank b).elem s.fseat 32 wd.toNat j = (s.fbank b).elem s.fseat 32 wd.toNat j)

/-- R215 with the addresses of R211; vldl under R217, vfill under R221, vlq under R220; R213 and R214 where an access fails. -/
def Obligations.VectorLoadsReadMemory : Prop :=
  ∀ (s : State) (o : MOps) (v : VInfo) (pa : Nat → Nat), s.fseat.red = none →
    let bits := fmtBits o.t
    let n := max 1 (bits / 8)
    let l := v.l s.fseat
    let base : Nat := ((s.fbank s.seqBank).ra o.a).toNat % 2 ^ 56
    let stride : Int := ((s.fbank s.seqBank).rs o.s).toInt
    let offset (e : Nat) : Int := (BitVec.ofNat 32 (s.elemOf (s.fseat.base + e / l) 32 o.wi.toNat (e % l))).toInt
    let linear (e : Nat) : Nat := (base + e * bits / 8) % 2 ^ 64
    let strided (e : Nat) : Nat := (BitVec.ofInt 64 (base + e * stride)).toNat
    let indexed (e : Nat) : Nat := (BitVec.ofInt 64 (base + offset e)).toNat
    let run := s.run l o.m o.n
    let ready (i : Instr) (va : Nat → Nat) : Prop :=
      LanesReady i s v ∧ ((s.fbank s.seqBank).ra o.a).toNat / 2 ^ 61 < 6 ∧
        ∀ e ∈ run, Plain s .read n (va e) (pa e) ∧ s.poisoned (pa e) n = false
    let from_ (read : Nat → Nat → Nat) (b j : Nat) : Nat × BitVec 5 :=
      let e := s.indexOf l b j
      (read (pa e) n / (if bits = 4 ∧ e % 2 = 1 then 16 else 1), 0)
    let value : Nat → Nat → Nat × BitVec 5 := from_ s.lsSees
    let loads (i : Instr) : Prop :=
      ∃ t, exec i s = .next t ∧ LaneOut { s with migs := t.migs, ahead := t.ahead } t v o.w.toNat o.m o.n value ∧ Traces s t
    (ready (.vld o) linear → loads (.vld o)) ∧
    (ready (.vlds o) strided → loads (.vlds o)) ∧
    (ready (.vldx o) indexed → loads (.vldx o)) ∧
    (∀ p ∈ [(Instr.vld o, linear), (.vlds o, strided), (.vldx o, indexed), (.vldl o, indexed)], ∀ before e after,
      LanesReady p.1 s v → ((s.fbank s.seqBank).ra o.a).toNat / 2 ^ 61 < 6 → s.fpart.convoy = none → s.fpart.loaded = false →
      run = before ++ e :: after → (∀ x ∈ before, Plain s .read n (p.2 x) (pa x) ∧ s.poisoned (pa x) n = false) →
      let tval := BitVec.ofNat 64 (p.2 e % 2 ^ 56 + (s.fseat.base + e / l) % 16 * 2 ^ 56)
      (∀ k, ElementFault s .read n (p.2 e) (decide (p.1 = .vld o)) k →
        (k ≠ 0x13 ∨ before = [] → HasHandler s → s.fseat.isCC = false → StopsAt p.1 s e (fun t _ => TrappedAt s t k tval e)) ∧
        (k = 0x13 → before ≠ [] → StopsAt p.1 s e (fun t u => t.fpart = u.fpart ∧ t.fpart.vl = e ∧ t.fpart.xidx = 0))) ∧
      (Plain s .read n (p.2 e) (pa e) → s.poisoned (pa e) n = true → HasHandler s → s.fseat.isCC = false →
        StopsAt p.1 s e (fun t _ => TrappedAt s t 0x14 tval e)) ∧
      ∀ w, ElementWait s .read n (p.2 e) w → StopsAt p.1 s e (fun t _ => t.fpart.wait = some w ∧ t.fpart.xidx = e)) ∧
    (ready (.vldl o) indexed → s.fpart.xidx < s.evlOf l →
      let first : Prop := s.fpart.xidx = s.fpart.xidxNow ∧
        ∀ c o', s.fpart.convoy = some c → c.elems.findSome? (fun x => vldlOps x.2) = some o' → o' = o
      ∃ t, exec (.vldl o) s = .next t ∧ LaneOut { s with linked := t.linked, migs := t.migs, ahead := t.ahead } t v o.w.toNat o.m o.n (from_ s.peek) ∧
        Traces s t ∧
        ∀ x, x ∈ t.linked ↔
          (x ∈ s.linked ∧ ¬(x.core = s.focus.core ∧ x.bank ∈ s.active ∧
            (first ∨ ∃ e ∈ run, e % l < 4096 ∧ x.bank = s.fseat.base + e / l ∧ x.j = e % l))) ∨
          ∃ e ∈ run, e % l < 4096 ∧ x = ⟨s.focus.core, s.fseat.base + e / l, e % l, indexed e, pa e, n⟩) ∧
    (ready (.vfill o) linear → base % 64 = 0 → o.m = 0 →
      let last := (s.evlOf l + 512 / bits - 1) / (512 / bits) * (512 / bits)
      ∃ t, exec (.vfill o) s = .next t ∧ AroundLanes { s with free := t.free, migs := t.migs, ahead := t.ahead } t v.writes [] ∧ Traces s t ∧ ∀ b ∈ s.active,
        (t.fbank b).flags = (s.fbank b).flags ∧ ∀ j, j < l →
          let e := s.indexOf l b j
          (s.fpart.xidx ≤ e → e < s.evlOf l → (t.fbank b).elem s.fseat bits o.w.toNat j = (value b j).1 % 2 ^ bits) ∧
          (e < s.fpart.xidx ∨ last ≤ e → (t.fbank b).elem s.fseat bits o.w.toNat j = s.elemOf b bits o.w.toNat j)) ∧
    (Settled s → vinfo (.vlq o) = some v → WritesReg (.vlq o) s o.s (fun _ =>
      BitVec.ofNat 64 (((s.evlOf l * bits + 7) / 8 + 63) / 64 * 64)))

/-- R215, R216 and R221; R213 where an access fails. `Firm` says that no stored byte is part of a translation the stores use. -/
def Obligations.VectorStoresWriteMemory : Prop :=
  ∀ (s : State) (o : MOps) (v : VInfo) (pa : Nat → Nat), s.fseat.red = none → Memory.wf s = true →
    let bits := fmtBits o.t
    let n := max 1 (bits / 8)
    let l := v.l s.fseat
    let base : Nat := ((s.fbank s.seqBank).ra o.a).toNat % 2 ^ 56
    let stride : Int := ((s.fbank s.seqBank).rs o.s).toInt
    let limit := ((s.fbank s.seqBank).rs o.s).toNat
    let bank (e : Nat) : Nat := s.fseat.base + e / l
    let offset (e : Nat) : Int := (BitVec.ofNat 32 (s.elemOf (bank e) 32 o.wi.toNat (e % l))).toInt
    let linear (e : Nat) : Nat := (base + e * bits / 8) % 2 ^ 64
    let strided (e : Nat) : Nat := (BitVec.ofInt 64 (base + e * stride)).toNat
    let indexed (e : Nat) : Nat := (BitVec.ofInt 64 (base + offset e)).toNat
    let run := s.run l o.m o.n
    let elem (e : Nat) : Nat := s.elemOf (bank e) bits o.w.toNat (e % l)
    let ready (i : Instr) (va : Nat → Nat) : Prop :=
      LanesReady i s v ∧ ((s.fbank s.seqBank).ra o.a).toNat / 2 ^ 61 < 6 ∧ ∀ e ∈ run, Firm s (run.map pa) .write n (va e) (pa e)
    let st := run.map (fun e => (bank e, pa e, elem e))
    let whole (i : Instr) : Prop := VecStores i s n st (linksAfter s n st) (fun _ x y => y = x)
    let nibbles (i : Instr) : Prop :=
      s.poison = [] → ∃ t, exec i s = .next t ∧ AroundVecStores s t ∧ OnBanks s t (fun _ x y => y = x) ∧
        (∀ a, (∀ e ∈ run, a ≠ pa e) → t.peek a 1 = s.peek a 1) ∧
        ∀ e ∈ run, (∀ e' ∈ run, pa e' = pa e → e' / 2 = e / 2) →
          let half (x k : Nat) : Nat := x / (if k % 2 = 0 then 1 else 16) % 16
          half (t.peek (pa e) 1) e = elem e ∧
          ((∀ e' ∈ run, e' ≠ e → pa e' ≠ pa e) → half (t.peek (pa e) 1) (e + 1) = half (s.peek (pa e) 1) (e + 1))
    (ready (.vst o) linear → (bits ≠ 4 → whole (.vst o)) ∧ (bits = 4 → nibbles (.vst o))) ∧
    (ready (.vspill o) linear → base % 64 = 0 → (bits ≠ 4 → whole (.vspill o)) ∧ (bits = 4 → nibbles (.vspill o))) ∧
    (∀ p ∈ [(Instr.vst o, linear), (.vsts o, strided), (.vstx o, indexed), (.vspill o, linear)], ∀ before e after,
      LanesReady p.1 s v → ((s.fbank s.seqBank).ra o.a).toNat / 2 ^ 61 < 6 → s.fpart.convoy = none → base % 64 = 0 ∨ p.1 ≠ .vspill o →
      run = before ++ e :: after → (∀ x ∈ before, Firm s (before.map pa) .write n (p.2 x) (pa x)) →
      let later (P : State → Prop) : Prop := ∀ t, OtherBytes s t (fun a => ∃ x ∈ before, pa x ≤ a ∧ a < pa x + n) → P t
      (∀ k, later (fun t => ElementFault t .write n (p.2 e) (decide (p.1 = .vst o)) k) → HasHandler s → s.fseat.isCC = false →
        StopsAt p.1 s e (fun t u => (∀ a, t.peek a 1 = u.peek a 1) ∧
          TrappedAt s t k (BitVec.ofNat 64 (p.2 e % 2 ^ 56 + (s.fseat.base + e / l) % 16 * 2 ^ 56)) e)) ∧
      ∀ w, later (fun t => ElementWait t .write n (p.2 e) w) →
        StopsAt p.1 s e (fun t u => (∀ a, t.peek a 1 = u.peek a 1) ∧ t.fpart.wait = some w ∧ t.fpart.xidx = e)) ∧
    (ready (.vsts o) strided → whole (.vsts o)) ∧
    (ready (.vstx o) indexed → whole (.vstx o)) ∧
    (LanesReady (.vstb o) s v → ((s.fbank s.seqBank).ra o.a).toNat / 2 ^ 61 < 6 →
      let bytes (e : Nat) : List Nat := (upFrom (e * n) n).filter (fun k => decide (k < limit))
      (∀ e ∈ run, ∀ k ∈ bytes e, Firm s (run.flatMap (fun e => (bytes e).map pa)) .write 1 ((base + k) % 2 ^ 64) (pa k)) →
        let sb := run.flatMap (fun e => (bytes e).map (fun k => (bank e, pa k, elem e / 256 ^ (k - e * n))))
        VecStores (.vstb o) s 1 sb (linksAfter s 1 sb) (fun _ x y => y = x))

/-- R218; `ok` is the set of successes. -/
def Obligations.ConditionalStoresTestTheirLinks : Prop :=
  ∀ (s : State) (o : MOps) (v : VInfo) (pa : Nat → Nat), s.fseat.red = none → Memory.wf s = true → s.poison = [] →
    (s.linked.map (fun l => (l.core, l.bank, l.j))).Nodup →
    let bits := fmtBits o.t
    let n := max 1 (bits / 8)
    let l := v.l s.fseat
    let base : Nat := ((s.fbank s.seqBank).ra o.a).toNat % 2 ^ 56
    let bank (e : Nat) : Nat := s.fseat.base + e / l
    let offset (e : Nat) : Int := (BitVec.ofNat 32 (s.elemOf (bank e) 32 o.wi.toNat (e % l))).toInt
    let va (e : Nat) : Nat := (BitVec.ofInt 64 (base + offset e)).toNat
    let run := s.run l o.m o.n
    LanesReady (.vstc o) s v → ((s.fbank s.seqBank).ra o.a).toNat / 2 ^ 61 < 6 →
    (∀ e ∈ run, Firm s (run.map pa) .write n (va e) (pa e)) →
      ∃ (ok : Nat → Bool) (t : State), exec (.vstc o) s = .next t ∧ AroundVecStores s t ∧ t.poison = [] ∧
        (∀ e ∈ run, ok e = true ↔ ∃ x ∈ s.linked, x.core = s.focus.core ∧ x.bank = bank e ∧ x.j = e % l ∧ x.va = va e ∧ x.size = n ∧
          ∀ e' ∈ run, e' < e → ok e' = true → overlaps x.pa x.size (pa e') n = false) ∧
        Stored s t n ((run.filter ok).map (fun e => (bank e, pa e, s.elemOf (bank e) bits o.w.toNat (e % l)))) ∧
        (∀ x, x ∈ t.linked ↔ x ∈ s.linked ∧ (∀ e ∈ run, ¬(x.core = s.focus.core ∧ x.bank = bank e ∧ x.j = e % l)) ∧
          ∀ e ∈ run, ok e = true → overlaps x.pa x.size (pa e) n = false) ∧
        OnBanks s t (fun b x y => { y with m := x.m } = x ∧ (∀ k, k ≠ o.s.toNat % 8 → y.rm k = x.rm k) ∧
          ∀ j, j < 4096 → (y.rm (o.s.toNat % 8)).getLsbD j =
            if s.indexOf l b j ∈ run ∧ j < l then ok (s.indexOf l b j) else (x.rm (o.s.toNat % 8)).getLsbD j)

/-- R225 for the kinds of R228-R233 and R248; check 6 of R224 is the condition on the options. `rep` is R227 with the release point of
kind 7 (R333, R335): a copy or gather is outside when its range is not in the declared outputs or the replica's own grant, the others of
the seven and tspawn always. The record's words are R335's. -/
def Obligations.EngineInstructionsCreateOperations : Prop :=
  ∀ (s : State) (o : EOps),
    let n := o.opts.toNat
    let va (b : Nat) (a : BitVec 3) : Word := BitVec.ofNat 64 (((s.fbank b).ra a).toNat % 2 ^ 56)
    let c (b k : Nat) : Word := (s.fbank b).rs (BitVec.ofNat 5 (o.c.toNat + k))
    let len (b : Nat) : Nat := (c b 0).toNat
    let oper := n / 4 % 8
    let fmt := n / 32 % 16
    let floats : List Nat := [12, 11, 10, 4, 5]
    let combines : Prop := (oper ≤ 2 ∧ fmt ∈ floats) ∨ (3 ≤ oper ∧ oper ≤ 5 ∧ fmt ∈ [4, 5])
    let alone : State := s.modSeat s.focus (fun t => { t with red := none })
    let owns (va : Word) (len : Nat) : Prop := replicaOwns s s.fseat s.fctx va.toNat len = true
    let rep (i : Instr) (code : Nat) (dst : Nat → Word) (regs : List (BitVec 3)) (kind : Nat → OpKind) (empty : Nat → Bool)
        (out : Nat → Prop) : Prop :=
      ∀ r, s.fseat.red = some r → CanIssue alone o s.active s.active regs →
        ((∀ b ∈ s.active, ¬out b) → Creates i s o (s.active.map (fun b => (b, kind b, empty b, [b])))) ∧
        (r.released = false → (∃ b ∈ s.active, out b) →
          (∀ j, s.localOp = some j → Waits i s (.op j)) ∧
          (s.localOp = none → ∀ l : List Nat, l.Sublist s.active → (∀ b ∈ s.active, b ∈ l ↔ out b) →
            exec i s = .next (s.holdForVote r 7 (l.map (fun b =>
              [dst b, BitVec.ofNat 64 (code + n * 2 ^ 16), va b o.sa, if o.c = 0 then 0 else c b 0]))))) ∧
        (∀ b x rest, s.active = [b] → out b → r.released = true → r.performer = false → r.lead = false → o.dt = false →
          s.performing s.fseat.launch s.fseat.task = none → r.echoLog.drop r.echoPos = x :: rest →
          ∃ t, exec i s = .next t ∧ (t.bank s.focus.core b).rk o.kd = some (x.setWidth 32) ∧
            t.op (entryOf (x.setWidth 32)) = { s.op (entryOf (x.setWidth 32)) with mirrors := (s.op (entryOf (x.setWidth 32))).mirrors + 1 } ∧
            ∀ j, j ≠ entryOf (x.setWidth 32) → t.op j = s.op j)
    let each (i : Instr) (code : Nat) (da : BitVec 3) (regs : List (BitVec 3)) (kind : Nat → OpKind) (empty : Nat → Bool)
        (out : Nat → Prop) : Prop :=
      (CanIssue s o s.active s.active regs → Creates i s o (s.active.map (fun b => (b, kind b, empty b, [b])))) ∧
        rep i code (fun b => va b da) regs kind empty out
    let always (_ : Nat) : Prop := True
    let zero (b : Nat) : Bool := decide (len b = 0)
    (n ≤ 4 → each (.cpy o) 0x5800 o.da [o.da, o.sa] (fun b => .cpy (va b o.da) (va b o.sa) (len b) n) zero (fun b => ¬owns (va b o.da) (len b))) ∧
    (n ≤ 4 → o.c.toNat ≤ 28 →
      each (.cpy2d o) 0x5801 o.da [o.da, o.sa] (fun b => .cpy2d (va b o.da) (va b o.sa) (len b) (c b 1).toNat (c b 2) (c b 3) n) zero
        (fun b => ∃ i, i < len b ∧ replicaOwns s s.fseat s.fctx (((va b o.da).toNat : Int) + i * (c b 2).toInt).toNat (c b 1).toNat = false)) ∧
    (n ≤ 4 → each (.rsct o) 0x5802 o.da [o.da, o.sa] (fun b => .rsct (va b o.da) (va b o.sa) (len b) n) zero always) ∧
    (n < 512 → combines → each (.coll o) 0x5803 o.sa [o.sa] (fun b => .coll (va b o.sa) (n % 4) oper fmt) (fun _ => false) always) ∧
    (n < 512 → n % 4 = 0 → combines → each (.red o) 0x5804 o.sa [o.sa] (fun b => .red (va b o.sa) oper fmt) (fun _ => false) always) ∧
    (n < 16 → n % 8 ≤ 4 → o.c.toNat ≤ 30 →
      each (.gath o) 0x5805 o.da [o.da, o.sa] (fun b => .gath (va b o.da) (va b o.sa) (c b 1) (len b) (n % 8) (decide (8 ≤ n))) zero
        (fun b => ¬owns (va b o.da) (len b * 2 ^ (n % 8)))) ∧
    (n < 512 → o.c.toNat ≤ 30 →
      ((n % 4 = 0 ∧ combines) ∨ (n % 4 = 1 ∧ oper = 0 ∧ (fmt ≤ 5 ∨ (8 ≤ fmt ∧ fmt ≤ 12))) ∨ (n % 4 = 2 ∧ oper = 0 ∧ fmt ∈ floats)) →
      each (.nmo o) 0x5806 o.da [o.da, o.sa] (fun b => .nmo (va b o.da) (va b o.sa) (len b) (n % 4) oper fmt (c b 1)) zero always) ∧
    each (.tspawn o) 0x5E00 o.sa [o.sa] (fun b => .tspawn (va b o.sa)) (fun _ => false) always ∧
    (CanIssue s o [s.seqBank] [s.seqBank] [o.sa] → s.seqBank ∈ s.active →
      Creates (.launch o) s o [(s.seqBank, .launch (va s.seqBank o.sa), false, [s.seqBank])])

/-- R237, R238, R239 and R241. Which free rows are granted, and mattach's sD in every active bank, are the model's choice (log 31); that an
operand still OPENING lets mmma and mdrain be issued is its reading too (log 47). -/
def Obligations.MatrixInstructionsGrantShapeAndIssue : Prop :=
  ∀ (s : State) (o : EOps) (d a : BitVec 5), Settled s →
    let q := s.focus.core / 4
    let tile (t : State) (row tl col : Nat) : BitVec 32 := look 0 (t.quad q).tiles (row * 1024 + tl * 128 + col)
    let free : List Nat := (List.range 128).filter (fun p => (look none (s.quad q).rows p).isNone)
    let want := min ((s.fbank s.seqBank).rs a).toNat 128
    let shape := ((s.fbank s.seqBank).rs a)
    let ta := shape.toNat / 256 % 16
    let tb := shape.toNat / 4096 % 16
    let legal : Prop := shape.toNat % 256 ≠ 0 ∧ shape.toNat < 2 ^ 16 ∧ 6 ≤ ta ∧ ta ≤ 11 ∧ ta / 2 = tb / 2
    let n := o.opts.toNat
    let wa := n / 8 % 16
    let wb := n / 128 % 16
    let ga := 2 ^ (n / 2 ^ 11 % 4)
    let gb := 2 ^ (n / 2 ^ 13 % 4)
    let w := s.fseat.shape.toNat
    let stream (t blocks : Nat) : Nat := blocks * ((if t ≤ 7 then 16 else if t ≤ 9 then 32 else 64) + (if t = 7 then 1 else 0))
    let bytes (g : Nat) : Nat := s.fseat.size * g * 2 ^ s.fseat.lcap
    let rows := s.fseat.rows
    (s.fpart.depth ≠ 0 →
      ∀ i ∈ [Instr.mattach d a, .mdetach, .mshape a, .mzero d, .mmma o, .mdrain o],
        exec i s = .next (s.trapSingle 0x01 (BitVec.ofNat 64 s.fpart.depth))) ∧
    (s.fpart.depth = 0 →
      (rows ≠ [] → exec (.mattach d a) s = .next (s.trapSingle 0x01 (BitVec.ofNat 64 rows.length))) ∧
      (rows = [] → (∀ p ∈ free, look none (s.quad q).save p = none) →
        let got := free.take want
        ∃ t, exec (.mattach d a) s = .next t ∧ { t with cores := s.cores, quads := s.quads } = s ∧ SameCores s t ∧ Proceeds s t ∧
          { t.seat s.focus with parts := (s.seat s.focus).parts } = { s.seat s.focus with rows := got, shape := 0 } ∧
          OnBanks s t (fun _ => RegOnly d (BitVec.ofNat 64 got.length)) ∧ (∀ j, j ≠ q → t.quad j = s.quad j) ∧
          (∀ p, look none (t.quad q).rows p = if p ∈ got then some (s.focus.core, s.focus.base) else look none (s.quad q).rows p) ∧
          ∀ p tl c, tl < 8 → c < 128 → tile t p tl c = if p ∈ got then 0 else tile s p tl c) ∧
      (rows = [] → OnlyProceeds .mdetach s) ∧
      (rows ≠ [] → ∀ i rest, s.matrixOps = i :: rest → Waits .mdetach s (.mx i)) ∧
      (rows ≠ [] → s.matrixOps = [] →
        ∃ t, exec .mdetach s = .next t ∧ { t with cores := s.cores, quads := s.quads } = s ∧ SameCores s t ∧ Proceeds s t ∧
          { t.seat s.focus with parts := (s.seat s.focus).parts } = { s.seat s.focus with rows := [] } ∧ (∀ c b, t.bank c b = s.bank c b) ∧
          (∀ j, j ≠ q → t.quad j = s.quad j) ∧ { t.quad q with rows := (s.quad q).rows } = s.quad q ∧
          ∀ p, look none (t.quad q).rows p =
            if look none (s.quad q).rows p = some (s.focus.core, s.focus.base) then none else look none (s.quad q).rows p) ∧
      (legal → ∃ t, exec (.mshape a) s = .next t ∧ { t with cores := s.cores } = s ∧ SameCores s t ∧ Proceeds s t ∧
        { t.seat s.focus with parts := (s.seat s.focus).parts } = { s.seat s.focus with shape := shape } ∧ ∀ c b, t.bank c b = s.bank c b) ∧
      (¬legal → exec (.mshape a) s = .next (s.trapSingle 0x01 shape)) ∧
      (rows = [] → exec (.mzero d) s = .next (s.trapSingle 0x01 (BitVec.ofNat 64 d.toNat))) ∧
      (rows ≠ [] → ∀ i, s.matrixOps.find? (fun i => (s.op i).kind.tile == some d.toNat) = some i → Waits (.mzero d) s (.mx i)) ∧
      (rows ≠ [] → d.toNat < 8 → (∀ i ∈ s.matrixOps, (s.op i).kind.tile ≠ some d.toNat) →
        ∃ t, exec (.mzero d) s = .next t ∧ { t with cores := s.cores, quads := s.quads } = s ∧ SameCores s t ∧ SameSeat s t ∧ Proceeds s t ∧
          (∀ c b, t.bank c b = s.bank c b) ∧ (∀ j, j ≠ q → t.quad j = s.quad j) ∧ { t.quad q with tiles := (s.quad q).tiles } = s.quad q ∧
          ∀ p tl c, tl < 8 → c < 128 → tile t p tl c = if p ∈ rows ∧ tl = d.toNat then 0 else tile s p tl c) ∧
      (CanIssue s o [s.seqBank] s.fseat.banks [] → rows ≠ [] → w % 256 ≠ 0 → wa % ga = 0 → wa + ga ≤ 12 → wb % gb = 0 → wb + gb ≤ 12 →
        stream (w / 256 % 16) (rows.length * (w % 256)) ≤ bytes ga → stream (w / 4096 % 16) (128 * (w % 256)) ≤ bytes gb →
        (∀ b ∈ s.fseat.banks, b ∈ s.active ∧ ∀ k, (wa ≤ k ∧ k < wa + ga) ∨ (wb ≤ k ∧ k < wb + gb) →
          ((s.fbank b).pane k).park = false ∧ ((s.fbank b).pane k).st ∉ [PaneState.closed, .closing]) →
        Creates (.mmma o) s o [(s.seqBank, .mmma (n % 8) wa wb ga gb s.fseat.shape, false, s.fseat.banks)]) ∧
      (CanIssue s o [s.seqBank] s.fseat.banks [o.da] → rows ≠ [] → n / 2 ^ 7 % 16 ∈ [12, 11, 10] → (n / 8 % 8 = 0 → n / 2 ^ 6 % 2 = 0) →
        (∀ b ∈ s.fseat.banks, b ∈ s.active) →
        ∃ mask : BitVec 128,
          (∀ j, j < 128 → mask.getLsbD j =
            (decide (n / 8 % 8 = 0) || ((match (s.part s.focus).convoy with
              | some c => look 0 c.mask0 (n / 8 % 8)
              | none => (s.fbank s.seqBank).rm (n / 8 % 8)).getLsbD j != decide (n / 2 ^ 6 % 2 = 1)))) ∧
          Creates (.mdrain o) s o [(s.seqBank, .mdrain (n % 8) (n / 2 ^ 7 % 16)
            (BitVec.ofNat 64 (((s.fbank s.seqBank).ra o.da).toNat % 2 ^ 56)) ((s.fbank s.seqBank).rs o.c)
            (min s.fpart.vlNow 128) mask, false, s.fseat.banks)]))

/-- R242-R247 with the freeing of R315; what paths have taken ahead is log 7. kcancel of a tspawn, launch, red or collective, and of an operation that others wait for, see R245,
R225 and R234. That kadopt acts once per distinct handle, with one holder for each bank that names it, is the model's reading (log 45). A
replica takes the values of kpoll, kinfo and kwait.nt from its echo log (R227, R339). -/
def Obligations.TokenInstructionsReadAndReleaseOperations : Prop :=
  ∀ (s : State) (d a : BitVec 5) (k p : BitVec 4) (w : BitVec 5) (h : Nat → BitVec 32), Settled s →
    let op (b : Nat) : ChildOp := s.op (entryOf (h b))
    let code (o : ChildOp) : Nat := match o.st with | .pending => 0 | .running => 1 | .paused => 2 | .done => 3 | .faulted => 4 | .cancelled => 5
    let hs : List (BitVec 32) := s.active.map h
    let ended (b : Nat) : Prop := 3 ≤ code (op b)
    let lowest (b : Nat) (bad : Nat → Prop) : Prop := ∃ before after, s.active = before ++ b :: after ∧ bad b ∧ ∀ c ∈ before, ¬bad c
    let same (_ : Nat) (x y : Bank) : Prop := y = x
    let info (o : ChildOp) (b : Nat) : Nat :=
      match w.toNat with
      | 0 => (h b).toNat + code o * 2 ^ 32 + (if o.detached then 2 ^ 35 else 0) + o.prio.toNat * 2 ^ 36 + o.kind.cls.path.toNat * 2 ^ 40
      | 1 => o.progress
      | 2 => o.faddr.toNat % 2 ^ 56 + o.cause.toNat * 2 ^ 56
      | 3 => o.findex % 2 ^ 40 + o.fpath.toNat * 2 ^ 40
      | _ => o.ftime
    let plain (b : Nat) : Prop :=
      (op b).blk = none ∧ (op b).rows = [] ∧ (op b).kind.panes = [] ∧ (op b).kind.cls ∉ [OpClass.ts, .re] ∧
        (∀ x c d e, (op b).kind ≠ .coll x c d e) ∧ s.dependents (h b) = []
    let cancelled (o : ChildOp) : ChildOp :=
      if o.st ∈ [OpState.done, .faulted, .cancelled] then { o with acked := true }
      else { o with
        st := .cancelled, kept := [], cover := [], cause := 0x44, faddr := 0, findex := o.progress, fpath := o.kind.cls.path, ftime := s.ns }
    (s.fseat.red = none →
    ((∃ b ∈ s.active, s.tokenLive b k = false) →
      ∀ i ∈ [Instr.kwait k p w, .kwaitNt d k w, .kpoll d k, .kcancel k, .kdetach d k, .kprio k a, .kinfo d k w],
        exec i s = .next (s.trapSingle 0x20 (BitVec.ofNat 64 k.toNat))) ∧
    (Tokens s k h →
      (∀ b, lowest b (fun c => ¬ended c) → Waits (.kwait k p w) s (.op (entryOf (h b))) ∧ Waits (.kwaitNt d k w) s (.op (entryOf (h b)))) ∧
      ((∀ b ∈ s.active, ended b) →
        (∀ b, lowest b (fun c => (op c).st = .faulted) →
          exec (.kwait k p w) s = .next (s.trapSingle 0x21 (BitVec.ofNat 64 ((h b).toNat + k.toNat * 2 ^ 32)))) ∧
        ((∀ b ∈ s.active, (op b).st ≠ .faulted) → ∃ t, exec (.kwait k p w) s = .next t ∧ LetGo s t hs id same ∧ Orders s t (s.onPath p)) ∧
        ∃ t, exec (.kwaitNt d k w) s = .next t ∧ Orders s t s.onAny ∧
          LetGo s t (hs.filter (fun x => (s.op (entryOf x)).st != .faulted)) id (fun b => RegOnly d (BitVec.ofNat 64 (code (op b))))) ∧
      ((∀ b ∈ s.active, ended b ∨ plain b) → ∃ t, exec (.kcancel k) s = .next t ∧ LetGo s t hs cancelled same) ∧
      CompletesIn (.kpoll d k) s (fun b => RegOnly d (BitVec.ofNat 64 ((op b).progress % 2 ^ 56 + code (op b) * 2 ^ 61))) ∧
      (w.toNat ≤ 4 → CompletesIn (.kinfo d k w) s (fun b => RegOnly d (BitVec.ofNat 64 (info (op b) b)))) ∧
      ((∀ b ∈ s.active, (op b).st = .faulted → (op b).noted = true) → ∃ t, exec (.kdetach d k) s = .next t ∧
        LetGo s t hs (fun o => { o with detached := true }) (fun b => RegOnly d (BitVec.ofNat 64 (h b).toNat))) ∧
      ∃ t, exec (.kprio k a) s = .next t ∧ AroundOps s t ∧ Proceeds s t ∧ OnBanks s t same ∧
        (t.opAge, t.free, t.due) = (s.opAge, s.free, s.due) ∧ (∀ j, (∀ b ∈ s.active, entryOf (h b) ≠ j) → t.op j = s.op j) ∧
        ∀ b ∈ s.active, (∀ c ∈ s.active, b < c → h c ≠ h b) →
          t.op (entryOf (h b)) = { op b with prio := BitVec.ofNat 3 (min (((s.fbank b).rs a).toNat % 8) s.fseat.recPrio.toNat) }) ∧
    ((∃ b ∈ s.active, s.tokenLive b k = true) → exec (.kadopt k a) s = .next (s.trapSingle 0x20 (BitVec.ofNat 64 k.toNat))) ∧
    ((∀ b ∈ s.active, s.tokenLive b k = false) →
      let adoptable (b : Nat) : Prop :=
        (h b).toNat / 2 ^ 15 % 2 ^ 9 = 0 ∧ s.liveHandle (h b) = true ∧ (op b).detached = true ∧ (op b).dt = false ∧ (op b).launch = s.fseat.launch ∧ (op b).holders = 0
      (∀ b ∈ s.active, h b = ((s.fbank b).rs a).setWidth 32) →
      (∀ b, lowest b (fun c => ¬adoptable c) → exec (.kadopt k a) s = .next (s.trapSingle 0x20 ((s.fbank b).rs a))) ∧
      ((∀ b ∈ s.active, adoptable b) → ∃ t, exec (.kadopt k a) s = .next t ∧ AroundOps s t ∧ Proceeds s t ∧
        (t.opAge, t.free, t.due) = (s.opAge, s.free, s.due) ∧
        OnBanks s t (fun b x y => { y with k := x.k } = x ∧ ∀ r, y.rk r = if r = k then some (h b) else x.rk r) ∧
        (∀ j, (∀ b ∈ s.active, entryOf (h b) ≠ j) → t.op j = s.op j) ∧
        ∀ b ∈ s.active, t.op (entryOf (h b)) =
          { op b with detached := false, owner := s.fseat.task, holders := (s.active.filter (fun c => h c == h b)).length }))) ∧
    (∀ r b, s.fseat.red = some r → s.active = [b] → s.tokenLive b k = true → 3 ≤ code (s.op (entryOf (((s.fbank b).rk k).getD 0))) →
      ∀ i ∈ [Instr.kpoll d k, .kinfo d k w, .kwaitNt d k w],
        (∀ x rest, r.echoLog.drop r.echoPos = x :: rest →
          ∃ t, exec i s = .next t ∧ Proceeds s t ∧ (∀ n, (t.bank s.focus.core b).rs n = if n = d ∧ d ≠ 0 then x else (s.fbank b).rs n) ∧
            t.fseat.red = some { r with echoPos := r.echoPos + 1 }) ∧
        (r.echoLog.drop r.echoPos = [] → r.performer = false → r.lead = false → Waits i s .echo))

/-- R159-R163, R249, R123 and R121; the edges of R304. That fence, xfence, fbar and ipost wait for every pane in transition is the model's choice (log 52),
so is how far an edge reaches (log 7), and that tyield of a control core does nothing is its reading (log 28). -/
def Obligations.SynchronisationInstructionsWaitOrPass : Prop :=
  ∀ (s : State) (a v b : BitVec 5) (id p1 p2 : BitVec 4), Settled s → s.fseat.red = none →
    let moving (l : List Nat) : Prop := ∃ k ∈ l, ∃ n, n < 12 ∧ ((s.fbank k).pane n).st ∈ [PaneState.opening, .writing, .closing]
    let bid := id.toNat
    let t0 := s.fseat
    let lau : Launch → Nat × Nat × Nat := fun l => (look 0 l.bars bid, look 0 l.arrived bid, look 0 l.phases bid)
    let bar : Nat × Nat × Nat :=
      if t0.isCC then (let x := look CcBar.empty s.ccbars bid; (x.count, x.arrived, x.phase))
      else match s.launch? t0.launch with | some l => lau l | none => (0, 0, 0)
    let recorded : Option Nat := look none t0.bars bid
    let target := ((s.fbank s.seqBank).rs a).toNat
    let before := s.focus.core / 96 * 96 + (s.focus.core + 95) % 96
    (∀ c k p pa x, x ∈ (s.takeAhead c k p pa).ahead → x ∈ s.ahead ∨
      (x = ⟨c, k, p, pa / 64, s.peek (64 * (pa / 64)) 64⟩ ∧ p ≠ 2 ∧ ∃ t, s.seat? c k = some t ∧ t.red = none)) ∧
    (moving s.active → Waits (.fence a) s .fence ∧ Waits (.xfence 1 p2 a) s .fence) ∧
    (¬moving s.active → OnlyOrders (.fence a) s s.onAny ∧ OnlyOrders (.xfence 1 p2 a) s (s.onPath p2)) ∧
    (p1 ≠ 1 → OnlyOrders (.xfence p1 p2 a) s (s.onPath p2)) ∧
    (s.fpart.depth ≠ 0 → ∀ i ∈ [Instr.fbar id a, .bwait id, .ipost id a, .iwait id a],
      exec i s = .next (s.trapSingle 0x01 (BitVec.ofNat 64 s.fpart.depth))) ∧
    (s.fpart.depth = 0 →
      (bar.1 = 0 → exec (.fbar id a) s = .next (s.trapSingle 0x01 (BitVec.ofNat 64 bid))) ∧
      (recorded = none → exec (.bwait id) s = .next (s.trapSingle 0x01 (BitVec.ofNat 64 bid))) ∧
      (recorded = some bar.2.2 → Waits (.bwait id) s (.bwait bid bar.2.2) ∧ (bar.1 ≠ 0 → Waits (.fbar id a) s (.fbar bid bar.2.2))) ∧
      (recorded ≠ none → recorded ≠ some bar.2.2 → OnlyOrders (.bwait id) s (fun x => s.onPath 0 x ∨ s.onPath 1 x)) ∧
      (bar.1 ≠ 0 → recorded ≠ some bar.2.2 →
        (moving t0.banks → Waits (.fbar id a) s .fence) ∧
        (¬moving t0.banks → ∃ t, exec (.fbar id a) s = .next t ∧ SameCores s t ∧ Proceeds s t ∧ (∀ c k, t.bank c k = s.bank c k) ∧
          { t with cores := s.cores, launches := s.launches, ccbars := s.ccbars } = s ∧
          { t.seat s.focus with parts := (s.seat s.focus).parts, bars := (s.seat s.focus).bars } = s.seat s.focus ∧
          (∀ j, look none (t.seat s.focus).bars j = if j = bid then some bar.2.2 else look none (s.seat s.focus).bars j) ∧
          let full : Prop := bar.2.1 + 1 = bar.1
          (t0.isCC = true → t.launches = s.launches ∧ ∀ j, look CcBar.empty t.ccbars j =
            if j ≠ bid then look CcBar.empty s.ccbars j
            else
              let x := look CcBar.empty s.ccbars j
              if full then ⟨x.next.getD x.count, 0, x.phase + 1, none⟩ else { x with arrived := x.arrived + 1 }) ∧
          (t0.isCC = false → t.ccbars = s.ccbars ∧ ∀ j, j ≠ t0.launch → t.launch? j = s.launch? j) ∧
          (t0.isCC = false → ∀ l, s.launch? t0.launch = some l → ∃ l', t.launch? t0.launch = some l' ∧
            { l' with arrived := l.arrived, phases := l.phases } = l ∧
            lau l' = (bar.1, if full then 0 else bar.2.1 + 1, if full then bar.2.2 + 1 else bar.2.2) ∧
            ∀ j, j ≠ bid → look 0 l'.arrived j = look 0 l.arrived j ∧ look 0 l'.phases j = look 0 l.phases j))) ∧
      (moving t0.banks → Waits (.ipost id a) s .fence) ∧
      (¬moving t0.banks → ∃ t, exec (.ipost id a) s = .next t ∧ { t with cores := s.cores } = s ∧ Proceeds s t ∧ SameSeat s t ∧
        (∀ c k, t.bank c k = s.bank c k) ∧ (∀ c k, ¬(c = s.focus.core ∧ k = s.focus.base) → t.seat? c k = s.seat? c k) ∧
        (∀ c, { t.core c with seats := (s.core c).seats, post := (s.core c).post } = s.core c) ∧
        ∀ c j, look 0 (t.core c).post j =
          if c = s.focus.core ∧ j = bid then BitVec.ofNat 64 (max (look 0 (s.core c).post j).toNat target) else look 0 (s.core c).post j) ∧
      (target ≤ (look 0 (s.core before).post bid).toNat → OnlyOrders (.iwait id a) s (fun x => s.onPath 0 x ∨ s.onPath 1 x)) ∧
      ((look 0 (s.core before).post bid).toNat < target → Waits (.iwait id a) s (.iwait bid))) ∧
    (∀ pa : Nat → Nat, (s.part s.focus).got = [] →
      (∀ k ∈ s.active, Plain s .read 8 ((s.fbank k).rs a).toNat (pa k) ∧ s.poisoned (pa k) 8 = false) →
      let old (k : Nat) : Prop := BitVec.ofNat 64 (s.lsSees (pa k) 8) = (s.fbank k).rs v
      ((∀ k ∈ s.active, ¬old k) → ReadsIn (.await v a) s (fun k => RegOnly v (BitVec.ofNat 64 (s.lsSees (pa k) 8))) ∧
        ∃ t, exec (.await v a) s = .next t ∧ ∀ x ∈ t.ahead, ¬s.onPath 1 x) ∧
      (s.active ≠ [] → (∀ k ∈ s.active, old k) →
        ∃ t, exec (.await v a) s = .next t ∧ Around s { t with migs := s.migs, ahead := s.ahead } ∧ Traces s t ∧ OnBanks s t (fun _ x y => y = x) ∧
          t.part s.focus = { s.part s.focus with wait := some .await })) ∧
    ((∀ k ∈ s.active, ((s.fbank k).rs b).toNat < 2) → ∃ t, exec (.tlbinv a b) s = .next t ∧ SameCores s t ∧ SameSeat s t ∧ Proceeds s t ∧
      (∀ c k, t.bank c k = s.bank c k) ∧ { t with cores := s.cores, quads := s.quads } = s ∧ ∀ q,
        { t.quad q with tlb := (s.quad q).tlb } = s.quad q ∧
        (t.quad q).tlb = (s.quad q).tlb.filter (fun e => s.active.all (fun k =>
          let size := if e.big then 2 ^ 25 else 2 ^ 16
          ((s.fbank k).rs b).toNat = 0 && e.va / size != ((s.fbank k).rs a).toNat % 2 ^ 56 / size))) ∧
    (s.seat? s.focus.core s.focus.base = some t0 → t0.isCC = false → s.fpart.depth = 0 → t0.rows = [] →
      s.matrixOrphans s.focus.core s.focus.base = [] →
      (∀ k ∈ t0.banks, (∀ r ∈ (s.fbank k).k, r.2 = none) ∧ ∀ n, n < 12 →
        ((s.fbank k).pane n).st ∈ [PaneState.closed, .openClean, .openDirty] ∧ ((s.fbank k).pane n).pins = 0) →
      ∃ t, exec .tend s = .next t ∧ t.seat? s.focus.core s.focus.base = none ∧
        (∀ k ∈ t0.banks, ∀ n, (t.bank s.focus.core k).pane n = Pane.empty) ∧
        ((∃ j x, j ≠ t0.task ∧ s.task? t0.launch j = some x ∧ x.st.terminal = false) →
          ∀ x, s.task? t0.launch t0.task = some x → ∃ y, t.task? t0.launch t0.task = some y ∧ y.st = .done)) ∧
    ((t0.isCC = true ∨ s.yieldsTo s.focus.core s.focus.base = none) →
      ∃ t, exec .tyield s = .next t ∧ Around s { t with linked := s.linked } ∧ Proceeds s t ∧ (∀ c k, t.bank c k = s.bank c k) ∧
        t.linked = s.linked.filter (fun l => !(l.core == s.focus.core && s.active.contains l.bank)))

/-- The events of R67, R73, R79-R84, R289 and R352. The cap of 15 on a debt is the width of rdebt's field (R25); that a tick in DOZE, or in a
bank that no seat holds, pays all of the debt is the model's choice (log 56). -/
def Obligations.PaneAndRefreshEventsChangeTheirBank : Prop :=
  ∀ (s : State) (c b n : Nat),
    let p := s.pane c b n
    let x := s.bank c b
    let open_ : Prop := p.st ∈ [PaneState.openClean, .openDirty]
    let moving : Prop := p.st ∈ [PaneState.opening, .writing, .closing] ∨ p.busy = true
    let waited : Prop := ∃ x ∈ s.waits.arrivals, x.1 = (c, b, n)
    let settled (e : Nat) : Prop :=
      (s.pane c e n).st ∉ [PaneState.opening, .writing, .closing] ∧ ¬((s.pane c e n).park = true ∧ (s.pane c e n).busy = true)
    let command (a : Agent) : Prop := s.agentOfBank c b = some a ∧ (∃ v, (s.part a).convoy = some v ∧ v.elems = []) ∧
      (∃ e, (s.part a).wait = some (.pane c e n) ∨ (s.part a).wait = some (.pin c e n)) ∧
      if (s.part a).begun ≠ 0 then (s.part a).begun.getLsbD b = false ∧ settled b
      else ∀ e ∈ banksOf (s.part a).active, settled e ∧ (s.pane c e n).pins = 0
    let owner := s.seatOfBank c b
    let self_ : Prop := (s.core c).power = .nap ∨ 6 ≤ s.power.depth
    let owing : Prop := ¬self_ ∧ (s.core c).power ≠ .doze
    let becomes (i : Instr) (R : Bank → Bank → Prop) : Prop := ∃ t, exec i s = .next t ∧ OneBank s t c b R
    let still (i : Instr) : Prop := exec i s = .next s
    let debts (f : Nat → Nat) (x y : Bank) : Prop := ∀ g, y.debtOf g = if g = n then f (x.debtOf g) else x.debtOf g
    let owes (f : Nat → Nat) (x y : Bank) : Prop := debts f x y ∧ { y with debt := x.debt } = x
    let forced (x y : Bank) : Prop :=
      debts (fun _ => 0) x y ∧ { y with debt := x.debt, forced := x.forced, slots := x.slots } = x ∧ y.forced = x.forced + 1 ∧
        ∀ g j, j < 8 → (p.park = false ∧ open_ ∧ g = n ∧ j = 5 → y.slot g j = { x.slot n 5 with img := some p.img }) ∧
          (¬(p.park = false ∧ open_ ∧ g = n ∧ j = 5) → y.slot g j = x.slot g j)
    (∀ q ∈ [(Instr.openingEnd c b n, PaneState.opening), (.writingEnd c b n, .writing), (.closingEnd c b n, .closing)],
      (p.park = false → p.st = q.2 →
        becomes q.1 (PaneOnly n (if p.after = .closed then Pane.empty else { p with st := p.after, img := p.next.getD p.img, next := none }))) ∧
      (p.park = false → p.st ≠ q.2 → still q.1)) ∧
    (p.park = true → still (.openingEnd c b n) ∧ still (.writingEnd c b n) ∧
      (p.busy = false → still (.closingEnd c b n)) ∧ (p.busy = true → becomes (.closingEnd c b n) (PaneOnly n { p with busy := false }))) ∧
    (¬waited → still (.claimEviction c b n)) ∧
    (waited → ∀ a, command a → Resumes (.claimEviction c b n) s a) ∧
    ((∀ a, ¬command a) → ¬(open_ ∧ p.pins = 0 ∧ p.park = false) → still (.claimEviction c b n)) ∧
    (waited → (∀ a, ¬command a) → open_ → p.pins = 0 → p.park = false →
      ∃ t, exec (.claimEviction c b n) s = .next t ∧ { t with cores := s.cores, waits := s.waits } = s ∧
      t.waits = { s.waits with serving := s.waits.serving ++ (s.waits.arrivals.filter (fun x => x.1 == (c, b, n))).map (·.2) } ∧
      (∀ d, { t.core d with banks := (s.core d).banks, evict := (s.core d).evict } = s.core d) ∧
      (∀ d, (t.core d).evict = (s.core d).evict + if d = c then 1 else 0) ∧
      (∀ d e, ¬(d = c ∧ e = b) → t.bank d e = s.bank d e) ∧
      let st : PaneState := if p.img.dirty then .openDirty else .openClean
      PaneOnly n { p with st := st, after := st, park := true } { x with slots := (t.bank c b).slots } (t.bank c b) ∧
      ∀ g j, j < 8 → (t.bank c b).slot g j = if g = n ∧ j = 5 then ⟨(x.slot n 5).owner, some p.img⟩ else x.slot g j) ∧
    (c < 1536 → b < 16 → n < 12 →
      (self_ → still (.refreshTick c b n)) ∧
      (¬self_ → (owner = none ∨ (s.core c).power = .doze) → becomes (.refreshTick c b n) (owes (fun _ => 0))) ∧
      (¬self_ → ∀ o, owner = some o → (s.core c).power ≠ .doze →
        (o.2.tvec ≠ 0 ∨ x.debtOf n < 7 ∨ moving → becomes (.refreshTick c b n) (owes (fun d => min 15 (d + 1)))) ∧
        (o.2.tvec = 0 → 7 ≤ x.debtOf n → ¬moving → becomes (.refreshTick c b n) forced))) ∧
    (owner ≠ none → owing → 8 ≤ x.debtOf n → ¬moving → becomes (.forcedRefresh c b n) forced) ∧
    (owner = none ∨ ¬owing ∨ x.debtOf n < 8 ∨ moving → still (.forcedRefresh c b n)) ∧
    (∀ stop a g, s.agentOfBank c b = some a → s.focus = a → (s.part a).convoy = none → HasHandler s → (s.seat a).isCC = false →
      (s.seat a).status.hold = false → (s.seat a).status.lvl = false → (s.seat a).handler = none → (s.seat a).phase = .issuing →
      owing → s.power.phase = 0 → ((s.part a).begun = 0 ∨ ∀ d e m, (s.part a).wait ≠ some (.pane d e m)) → (∀ k ∈ s.active, ∀ m, m < 12 → ((s.fbank k).pane m).st ∉ [PaneState.opening, .writing, .closing]) →
      g < 12 → b ∈ s.active → 8 ≤ (s.fbank b).debtOf g → (∀ k ∈ s.active, ∀ m, m < 12 → 8 ≤ (s.fbank k).debtOf m → b < k ∨ (b = k ∧ g ≤ m)) →
      let join : Option (BitVec 6) := match (s.part a).wait with | some (.sjoin id) => some id | _ => none
      let kept : Option Kept :=
        if (s.part a).begun = 0 ∧ join = none ∧ (s.part a).stored = [] then none else some ⟨(s.part a).pc, (s.part a).begun, join, (s.part a).stored⟩
      ∃ t, exec (.refreshDeadlineTrap c b stop) s = .next t ∧
        EntersHandler (s.modPart a (fun p => { p with kept := kept })) t 0x18 1 (BitVec.ofNat 64 (g + b * 16)) (s.part a).pc (s.part a).xidx) ∧
    (∀ stop a, s.agentOfBank c b = some a → (s.seat a).status.hold = true ∨ s.power.phase ≠ 0 ∨ (a.core = c ∧ ¬owing) ∨
        (∃ k ∈ banksOf (s.part a).active, ∃ m, m < 12 ∧ (s.pane a.core k m).st ∈ [PaneState.opening, .writing, .closing]) →
      still (.refreshDeadlineTrap c b stop)) ∧
    (c < 1536 → b < 16 → ∀ hot, becomes (.tempSensorUpdate c b hot) (fun x y => y = { x with hot := hot })) ∧
    (c < 1536 → ∃ t, exec (.bondRepair c) s = .next t ∧ { t with cores := s.cores, log := s.log } = s ∧ Recorded s t 0x05 1 ∧
      (∀ d e, t.bank d e = s.bank d e) ∧
      ∀ d, t.core d = { s.core d with bondrep := (s.core d).bondrep + if d = c then 1 else 0 }) ∧
    ∀ (va : BitVec 64) a, s.agentOfBank c b = some a →
      let k := ctxOf s a
      let quad := if k.core < 1536 then k.core / 4 else k.core - 1152
      (∀ r, walkFrom s va.toNat 4 0 (ptbrRoot k.ptbr) = .ok r → va.toNat < directBase → k.isCC = false →
        let size := if r.2 then 2 ^ 25 else 2 ^ 16
        ∃ t, exec (.translationWalkEnd c b va) s = .next t ∧ { t with quads := s.quads } = s ∧ (∀ q, q ≠ quad → t.quad q = s.quad q) ∧
          { t.quad quad with tlb := (s.quad quad).tlb } = s.quad quad ∧
          (t.quad quad).tlb.head? = some ⟨ptbrAsid k.ptbr, va.toNat / size * size, r.2, r.1⟩ ∧
          ∀ e ∈ (t.quad quad).tlb.tail, e ∈ (s.quad quad).tlb) ∧
      ((∀ r, walkFrom s va.toNat 4 0 (ptbrRoot k.ptbr) ≠ .ok r) → still (.translationWalkEnd c b va))

/-- The waits of R70-R75, R123, R159-R163, R237, R243 and R293. That those of fence, xfence and fbar end when every pane in transition has
settled is the model's choice (log 52). -/
def Obligations.WaitsEndWhenTheirConditionHolds : Prop :=
  ∀ (s : State) (c b : Nat),
    let events : List Instr := [.issueAfterInterlock c b, .kwaitEnd c b, .awaitRecheck c b, .bwaitEnd c b, .fbarArrive c b, .iwaitEnd c b,
      .tendWaitEnd c b, .mdetachWaitEnd c b, .mzeroWaitEnd c b, .xfenceWaitEnd c b, .fifoWaitEnd c b]
    (s.agentOfBank c b = none → ∀ i ∈ events, exec i s = .next s) ∧
    ∀ a, s.agentOfBank c b = some a →
      ((s.part a).wait = none → ∀ i ∈ events, exec i s = .next s) ∧
      ∀ w, (s.part a).wait = some w →
        let x := { s with focus := a }
        let now : Option Instr := (s.part a).convoy.bind (fun v => v.todo.head?.map (·.2))
        let calm (l : List Nat) : Prop := ∀ k ∈ l, ∀ n, n < 12 → (s.pane a.core k n).st ∉ [PaneState.opening, .writing, .closing]
        let ended (i : Nat) : Prop := (s.op i).live = false ∨ (s.op i).st ∈ [OpState.done, .faulted, .cancelled]
        let ends (i : Instr) (on : Prop) : Prop := (on → Resumes i s a) ∧ (¬on → exec i s = .next s)
        ends (.issueAfterInterlock c b) (match w with
          | .pane d e n => (s.pane d e n).st ∉ [PaneState.opening, .writing, .closing] ∧ ¬((s.pane d e n).park = true ∧ (s.pane d e n).busy = true)
          | .pin d e n => (s.pane d e n).pins = 0
          | .claim d e n => ((s.pane d e n).st = .closed ∨ (s.pane d e n).park = true) ∧ (s.pane d e n).busy = false
          | .moving pa => s.peek pa 8 / 2 ^ 48 % 2 = 0
          | .sram q e => (s.sram q e).busy = false
          | .wake d => (s.core d).power = .run
          | _ => False) ∧
        ends (.kwaitEnd c b) (∃ i, w = .op i ∧ ended i) ∧
        ends (.awaitRecheck c b) (w = .await) ∧
        ends (.bwaitEnd c b) (∃ bid ph, w = .bwait bid ph ∧ (s.barrier (s.seat a) bid).2.2 ≠ ph) ∧
        ends (.fbarArrive c b) ((∃ u v, now = some (.fbar u v)) ∧
          ((∃ bid ph, w = .fbar bid ph ∧ (s.barrier (s.seat a) bid).2.2 ≠ ph) ∨ (w = .fence ∧ calm (s.seat a).banks))) ∧
        ends (.iwaitEnd c b) (∃ u v id, now = some (.iwait u v) ∧ w = .iwait id ∧
          ((x.fbank x.seqBank).rs v).toNat ≤ (look 0 (s.core (c / 96 * 96 + (c + 95) % 96)).post id).toNat) ∧
        ends (.tendWaitEnd c b) ((∃ i, w = .tend i ∧ ended i) ∨ (∃ i, w = .mx i ∧ now = some .tend ∧ ended i)) ∧
        ends (.mdetachWaitEnd c b) (now = some .mdetach ∧ (∃ i, w = .mx i) ∧ x.matrixOps = []) ∧
        ends (.mzeroWaitEnd c b) (∃ d, now = some (.mzero d) ∧ (∃ i, w = .mx i) ∧ ∀ i ∈ x.matrixOps, (s.op i).kind.tile ≠ some d.toNat) ∧
        ends (.xfenceWaitEnd c b) (w = .fence ∧ calm x.active) ∧
        ends (.fifoWaitEnd c b) (∃ q e, w = .fifo q e)

/-- The events of R229-R241, R318 and R319. That one engine per issuing core serves each class but MX and RE is the model's choice (log 23);
so are how many elements an engine reads before it writes (log 51) and that overlapping bytes of a copy are told by their virtual addresses,
with what they held kept for the rest of the copy (`lap`, `kept`; log 46), and the packets that a collective's members exchange (log 86).
A copy, reduction or collective reads a granule that its path took ahead as it was taken (log 7). -/
def Obligations.EnginesPerformTheirGranules : Prop :=
  (∀ (f a b : Nat) (m : RMode), f ∈ [4, 5, 10, 11, 12] →
    let t := BitVec.ofNat 4 f
    let w := fmtBits t
    let int (z : Int) : Nat := (z % 2 ^ w).toNat
    (∀ g, floatOf t = some g →
      combine 0 t m a b = (deliver g m false (fvAdd m (unpack g a) (unpack g b)).1).1 ∧
      combine 1 t m a b = (minMaxEnc g true a b).1 ∧ combine 2 t m a b = (minMaxEnc g false a b).1 ∧
      ∀ c, scaleAdd t c a b = (deliver g .rne false (fvFma .rne (unpack g c) (unpack g a) (unpack g b)).1).1) ∧
    (floatOf t = none →
      combine 0 t m a b = int (intOf t a + intOf t b) ∧
      combine 1 t m a b = (if intOf t a < intOf t b then b else a) ∧ combine 2 t m a b = (if intOf t b ≤ intOf t a then b else a) ∧
      ∀ c, scaleAdd t c a b = int (intOf t b + intOf t c * intOf t a)) ∧
    combine 3 t m a b = a &&& b ∧ combine 4 t m a b = a ||| b ∧ combine 5 t m a b = a ^^^ b) ∧
  (∀ (p f order x : Nat) (xs : List Nat) (m : RMode), f ∈ [4, 5, 10, 11, 12] →
    let t := BitVec.ofNat 4 f
    let all := x :: xs
    (∀ y ∈ all, y < 2 ^ fmtBits t) →
    (∀ g, floatOf t = some g →
      (order ≠ 1 → reduceAll 0 t m order all = (floatSum g m false (all.map some)).1) ∧
      (order = 1 → reduceAll 0 t m order all =
        (if (unpack g (xs.foldl (combine 0 t m) x)).isNan then nanEnc g else xs.foldl (combine 0 t m) x)) ∧
      reduceAll 1 t m order all = all.foldl (fun r y => (minMaxEnc g true r y).1) (nanEnc g) ∧
      reduceAll 2 t m order all = all.foldl (fun r y => (minMaxEnc g false r y).1) (nanEnc g)) ∧
    (floatOf t = none →
      reduceAll 0 t m order all = ((all.map (intOf t)).sum % 2 ^ fmtBits t).toNat ∧
      reduceAll 1 t m order all = ((all.map (intOf t)).foldl max (intLo t) % 2 ^ fmtBits t).toNat ∧
      reduceAll 2 t m order all = ((all.map (intOf t)).foldl min (intHi t) % 2 ^ fmtBits t).toNat) ∧
    (3 ≤ p → reduceAll p t m order all = xs.foldl (combine p t m) x)) ∧
  (∀ (as bs : List FV) (sa sb : Int) (c : Nat), as ≠ [] → as.length = bs.length →
    DotResult .rne (as.zip bs) (sa + sb) (unpack f32Fmt c) (kstepElem (as, sa) (bs, sb) c)) ∧
  (∀ (s : State) (o : ChildOp) (w g f blocks b : Nat), 6 ≤ f → f ≤ 11 →
    let size := 2 ^ (opSash s o).2
    let byte (x : Nat) : Nat := ((s.pane o.core (o.base + x / (g * size)) (w + x % (g * size) / size)).img.byte (x % size)).toNat
    let scale := byte (16 * blocks + b)
    let code (k : Nat) : Nat := byte (16 * b + k / 2) / 16 ^ (k % 2) % 16
    let pair (k : Nat) : Nat := byte (64 * b + 2 * k) + 256 * byte (64 * b + 2 * k + 1)
    block s o w g f blocks b = ((List.range 32).map (fun k =>
      match f with
      | 6 => codeVal 0 (code k)
      | 7 => if scale % 64 = 63 then .nan false else codeVal (scale / 64) (code k)
      | 8 => unpack e4m3Fmt (byte (32 * b + k))
      | 9 => unpack e5m2Fmt (byte (32 * b + k))
      | 10 => unpack f16Fmt (pair k)
      | _ => unpack bf16Fmt (pair k)), if f = 7 then (scale % 64 : Int) - 32 else 0)) ∧
  (∀ (s : State) (o : ChildOp) (tile row col f : Nat), tile < 8 → col < 128 → f ∈ [10, 11, 12] →
    let x : BitVec 32 := look 0 (s.quad (o.core / 4)).tiles (row * 1024 + tile * 128 + col)
    let v := unpack f32Fmt x.toNat
    let r := drainElem s o tile f row col
    let g : Fmt := if f = 11 then bf16Fmt else f16Fmt
    (f = 12 → r = (x.toNat, 0)) ∧
    (f ≠ 12 → (v.isNan = true → r = (nanEnc g, if v.isSig then 1 else 0)) ∧ (∀ n, v = .inf n → r = (signed g n (infEnc g), 0)) ∧
      (v.isZero = true → r = (signed g v.sign 0, 0)) ∧
      (v.isNan = false → v.isInf = false → v.isZero = false → Rounded g .rne ((v.rat : ℚ) : ℝ) r))) ∧
  (∀ (s : State) (i : Nat),
    let o := s.op i
    let eff (x : ChildOp) : Nat := min 7 (x.prio.toNat + x.boost)
    let sharer (a b : ChildOp) : Prop := a.kind.cls = b.kind.cls ∧
      (a.kind.cls = .mx → a.core / 4 = b.core / 4) ∧ (a.kind.cls = .re → sillOf a.core = sillOf b.core) ∧
      (a.kind.cls ≠ .mx → a.kind.cls ≠ .re → a.core = b.core)
    let starts (x : ChildOp) : Prop := s.power.depth < 3 ∧ x.live = true ∧ x.st = .pending ∧ x.after = none ∧ s.opPaused x = false ∧
      s.startBarred x = false ∧
      ∀ p ∈ s.ops, p.2.live = true → p.2.st = .pending → p.2.kind.cls = x.kind.cls → p.2.core = x.core → p.2.bank = x.bank →
        p.2.launch = x.launch → p.2.task = x.task → x.age ≤ p.2.age
    let serves (x : ChildOp) : Prop := x.live = true ∧ (x.st = .running ∧ (x.midGranule = true ∨ s.resting x = false) ∨ starts x) ∧
      (x.kind.cls = .mx → ∀ p ∈ s.ops, p.2.live = true → p.2.st.terminal = false → p.2.kind.cls = .mx → p.2.core = x.core → p.2.base = x.base →
        p.2.launch = x.launch → p.2.task = x.task → x.age ≤ p.2.age)
    let yields (x : ChildOp) : Prop := match x.wait with
      | some (.claim c b n) => (s.pane c b n).claims = true
      | some (.pane c b n) => (s.pane c b n).settled = false
      | some (.fifo _ _) => True
      | some .fence => True
      | _ => False
    (s.startable o = true ↔ starts o) ∧
    (s.selected i = true ↔ serves o ∧ ∀ p ∈ s.ops, p.1 ≠ i → serves p.2 → ¬yields p.2 → sharer p.2 o →
      eff p.2 < eff o ∨ (eff p.2 = eff o ∧ (o.age < p.2.age ∨ (o.age = p.2.age ∧ i < p.1))))) ∧
  ∀ (s : State) (i : Nat),
    let o := s.op i
    let served : ChildOp := { o with wait := none, boost := 0, aged := s.ns }
    let running : ChildOp := { served with st := .running }
    (¬(o.st = .running ∧ s.selected i = true) →
      ∀ e ∈ [Instr.copyGranule i, .rsctTrain i, .collGranule i [], .redGranule i, .gathGranule i, .nmoGranule i, .mmmaKstep i, .mdrainGranule i],
        exec e s = .next s) ∧
    (o.live = true → o.st.terminal = false → min 7 (o.prio.toNat + o.boost) < 7 → o.aged + 256000 * (o.boost + 1) ≤ s.ns →
      ∃ t, exec (.enginePriorityAging i) s = .next t ∧ { t with ops := s.ops } = s ∧
        ∀ j, t.op j = if j = i then { o with boost := o.boost + 1 } else s.op j) ∧
    (s.ns < o.aged + 256000 * (o.boost + 1) → exec (.enginePriorityAging i) s = .next s) ∧
    (¬(s.startable o = true ∧ s.selected i = true) → exec (.opStart i) s = .next s) ∧
    (s.startable o = true → s.selected i = true → LaunchesGoOn s →
      let starts (x : ChildOp) : Prop := ∃ t, exec (.opStart i) s = .next t ∧ { t with ops := s.ops, migs := s.migs, free := s.free } = s ∧
        Traces s t ∧ ∀ j, t.op j = if j = i then x else s.op j
      (∀ d a n z, o.kind = .cpy d a n z → n ≠ 0 →
        (d.toNat % 2 ^ z = 0 → a.toNat % 2 ^ z = 0 → n % 2 ^ z = 0 → starts running) ∧
        (d.toNat % 2 ^ z ≠ 0 → ∃ t, exec (.opStart i) s = .next t ∧
          (t.op i).st = .faulted ∧ (t.op i).cause = 0x12 ∧ (t.op i).faddr = d ∧ (t.op i).ftime = s.ns)) ∧
      (∀ d a r n u v z, o.kind = .cpy2d d a r n u v z → r * n ≠ 0 →
        d.toNat % 2 ^ z = 0 → a.toNat % 2 ^ z = 0 → n % 2 ^ z = 0 → (1 < r → u.toNat % 2 ^ z = 0 ∧ v.toNat % 2 ^ z = 0) → starts running) ∧
      ((∃ a b n z, o.kind = .rsct a b n z) ∨ (∃ a b c n z w, o.kind = .gath a b c n z w) ∨ (∃ a b n k p f x, o.kind = .nmo a b n k p f x) ∨
        (∃ a f d r c m, o.kind = .mdrain a f d r c m ∧ c ≠ 0) → starts running) ∧
      (∀ blk p f bs xs, o.kind = .red blk p f → readBlock s o false blk.toNat = .ok bs → blockOk bs false 0 p f = true →
        readTable s o (((blockOf bs).srcs.headD 0).toNat) (blockOf bs).n = .ok xs →
        starts { running with blk := some { blockOf bs with srcs := xs } }) ∧
      (∀ blk k p f bs ms r, o.kind = .coll blk k p f → readBlock s o true blk.toNat = .ok bs → blockOk bs true k p f = true →
        let b := blockOf bs
        b.group < 1024 → (s.group b.group).valid = true → (s.group b.group).count = b.n → memberTable s (s.group b.group).mtab.toNat b.n = .ok ms →
        ranksOf s ms o.core o.bank = [r] → (∀ m ∈ ms, memberBad m = false ∧ memberNode m = s.selfNode) →
        starts { running with blk := some { b with srcs := b.srcs ++ ms, rank := r, tag := (s.group b.group).tag } }) ∧
      (∀ tile wa wb ga gb shape, o.kind = .mmma tile wa wb ga gb shape → opSeated s o = true →
        let bs := upFrom o.base (s.seatAt o.core o.base).size
        let used (k : Nat) : Prop := (wa ≤ k ∧ k < wa + ga) ∨ (wb ≤ k ∧ k < wb + gb)
        wa + ga ≤ wb ∨ wb + gb ≤ wa →
        (∀ b ∈ bs, ∀ k, used k → (s.pane o.core b k).park = false ∧ (s.pane o.core b k).st ∉ [PaneState.closed, .closing, .opening]) →
        ∃ t, exec (.opStart i) s = .next t ∧ { t with ops := s.ops, cores := s.cores } = s ∧ (∀ j, t.op j = if j = i then running else s.op j) ∧
          (∀ c, { t.core c with banks := (s.core c).banks } = s.core c) ∧ (∀ c b, { t.bank c b with panes := (s.bank c b).panes } = s.bank c b) ∧
          ∀ c b k, ∃ pins, t.pane c b k = { s.pane c b k with pins := pins } ∧
            (c = o.core ∧ b ∈ bs ∧ used k → pins = (s.pane c b k).pins + 1) ∧
            (¬(c = o.core ∧ b ∈ bs ∧ used k) → pins = (s.pane c b k).pins))) ∧
    (Serving s i →
      let newest (pa n : Nat) : Prop := s.opSees o pa n = s.peek pa n
      let copies (total row : Nat) (src dst ss ds : Word) (done : Nat → Nat) : Prop :=
        ∀ ps pd : Nat, o.outst = 0 → o.kept = [] → o.away = false → o.sent < total → 0 < row →
          let x := o.sent
          let sv := (src + BitVec.ofNat 64 (x / row) * ss).toNat + x % row
          let dv := (dst + BitVec.ofNat 64 (x / row) * ds).toNat + x % row
          let n := min (min (4096 - x % row % 4096) (row - x % row)) (65536 - dv % 65536)
          let lap (k : Nat) : Prop := ∃ r, r < (if row = total then 1 else total / row) ∧
            (src + BitVec.ofNat 64 r * ss).toNat ≤ dv + k ∧ dv + k < (src + BitVec.ofNat 64 r * ss).toNat + row
          (∀ k, k < n → (∃ p, engSpot s o .read (sv + k) = .ok p ∧ p.pa = ps + k ∧ p.peer = 0 ∧ s.poisonAt (ps + k) = false) ∧
            ∀ t, OtherBytes s t (fun a => pd ≤ a ∧ a < pd + n) → ∃ p, engSpot t o .write (dv + k) = .ok p ∧ p.pa = pd + k ∧ p.peer = 0) →
          ∃ t, exec (.copyGranule i) s = .next t ∧ AroundGranule s t i ∧ (Near o ((List.range n).map (pd + ·)) → t.links = s.links) ∧
            (∀ a, a < pd ∨ pd + n ≤ a → t.peek a 1 = s.peek a 1) ∧
            (∀ k, k < n → ¬lap k → t.peek (pd + k) 1 = s.opSees o (ps + k) 1) ∧
            (x + n < total → { t.op i with kept := [], cover := o.cover } = { served with sent := x + n, progress := done (x + n) } ∧
              (∀ e ∈ (t.op i).kept, ∃ k, k < n ∧ lap k ∧ e = (dv + k, BitVec.ofNat 8 (s.opSees o (pd + k) 1), s.poisonAt (pd + k))) ∧
              ∀ k, k < n → lap k → ∃ e ∈ (t.op i).kept, e.1 = dv + k) ∧
            (x + n = total → (t.op i).st = .done ∧ (t.op i).progress = done total)
      (∀ d a n z, o.kind = .cpy d a n z → copies n n a d 0 0 id) ∧
      (∀ d a r n u v z, o.kind = .cpy2d d a r n u v z → copies (r * n) n a d u v (fun x => x / n)) ∧
      (∀ d a x n z w, ∀ pi ps pd : Nat → Nat, o.kind = .gath d a x n z w → o.progress < n →
        let sz := 2 ^ z
        let isz := if w then 8 else 4
        let js := upFrom o.progress (min (256 - o.progress % 256) (n - o.progress))
        let off (j : Nat) : Int := if w then s.peek (pi j) 8 else (BitVec.ofNat 32 (s.peek (pi j) 4)).toInt
        let dsts := js.map pd
        (∀ j ∈ js, EngAt s o dsts sz .read (x.toNat + isz * j) isz (pi j) ∧ EngAt s o dsts sz .write (d.toNat + sz * j) sz (pd j) ∧
          EngAt s o dsts sz .read (BitVec.ofInt 64 (a.toNat + off j)).toNat sz (ps j) ∧ newest (pi j) isz ∧ newest (ps j) sz) →
        (∀ j ∈ js, ∀ k ∈ js, overlaps (pd j) sz (pi k) isz = false ∧ overlaps (pd j) sz (ps k) sz = false) →
        GranuleStores (.gathGranule i) s i (o.progress + js.length) n sz (js.map (fun j => (0, pd j, s.peek (ps j) sz)))) ∧
      (∀ d a n k p f y, ∀ ps pd : Nat → Nat, o.kind = .nmo d a n k p f y → o.progress < n → f ∈ [0, 1, 2, 3, 4, 5, 8, 9, 10, 11, 12] →
        let t := BitVec.ofNat 4 f
        let sz := fmtBits t / 8
        let js := upFrom o.progress (min (256 - o.progress % 256) (n - o.progress))
        let all := js.map pd ++ (if k = 1 then js.map ps else [])
        let old (j : Nat) : Nat := s.peek (pd j) sz
        let new (j : Nat) : Nat := if k = 0 then combine p t .rne (old j) (s.peek (ps j) sz) else scaleAdd t (y.toNat % 2 ^ fmtBits t) (s.peek (ps j) sz) (old j)
        (∀ j ∈ js, EngAt s o all sz .write (d.toNat + sz * j) sz (pd j) ∧ EngAt s o all sz .read (d.toNat + sz * j) sz (pd j)) →
        (∀ j ∈ js, ∀ l ∈ js, (j ≠ l → overlaps (pd j) sz (pd l) sz = false)) →
        (k ≠ 1 → (∀ j ∈ js, EngAt s o all sz .read (a.toNat + sz * j) sz (ps j) ∧ newest (ps j) sz) →
          (∀ j ∈ js, ∀ l ∈ js, overlaps (pd j) sz (ps l) sz = false) →
          GranuleStores (.nmoGranule i) s i (o.progress + js.length) n sz (js.map (fun j => (0, pd j, new j)))) ∧
        (k = 1 → (∀ j ∈ js, EngAt s o all sz .read (a.toNat + 2 * sz * j) sz (ps j) ∧ EngAt s o all sz .write (a.toNat + 2 * sz * j) sz (ps j) ∧
            EngAt s o all sz .read (a.toNat + 2 * sz * j + sz) sz (ps j + sz) ∧ newest (ps j) sz ∧ newest (ps j + sz) sz) →
          (∀ j ∈ js, ∀ l ∈ js, overlaps (pd j) sz (ps l) (2 * sz) = false ∧ (j ≠ l → overlaps (ps j) (2 * sz) (ps l) (2 * sz) = false)) →
          GranuleStores (.nmoGranule i) s i (o.progress + js.length) n sz
            (js.flatMap (fun j => (if old j = s.peek (ps j) sz then [(0, pd j, s.peek (ps j + sz) sz)] else []) ++ [(0, ps j, old j)])))) ∧
      (∀ blk p f b, ∀ ps : Word → Nat → Nat, ∀ pd : Nat → Nat, o.kind = .red blk p f → o.blk = some b → o.kept = [] → o.progress < b.count → f ∈ [4, 5, 10, 11, 12] →
        let t := BitVec.ofNat 4 f
        let sz := fmtBits t / 8
        let js := upFrom o.progress (min (4096 / sz) (b.count - o.progress))
        (∀ e ∈ js, (∀ a ∈ b.srcs, EngAt s o [] sz .read (a.toNat + sz * e) sz (ps a e)) ∧
          EngAt s o (js.map pd) sz .write (b.dst.toNat + sz * e) sz (pd e) ∧ redOverlap b sz (b.dst.toNat + sz * e) = false) →
        GranuleStores (.redGranule i) s i (o.progress + js.length) b.count sz
          (js.map (fun e => (0, pd e, reduceAll p t (rmodeOf b.rm) b.order (b.srcs.map (fun a => s.opSees o (ps a e) sz)))))) ∧
      (∀ tab a n z, ∀ dv pt ps pd : Nat → Nat, o.kind = .rsct tab a n z → o.progress = 0 → 0 < n → o.sent = 0 → o.outst = 0 →
        let sz := 2 ^ z
        let js := upFrom 0 n
        (∀ j ∈ js, EngAt s o [] sz .read (tab.toNat + 8 * j) 8 (pt j) ∧ dv j = s.opSees o (pt j) 8 ∧
          EngAt s o (js.map pd) sz .write (dv j) sz (pd j) ∧ EngAt s o (js.map pd) sz .read (a.toNat + sz * j) sz (ps j) ∧ newest (ps j) sz) →
        (∀ j ∈ js, ∀ k ∈ js, overlaps (pd j) sz (ps k) sz = false) →
        GranuleStores (.rsctTrain i) s i n n sz (js.map (fun j => (0, pd j, s.peek (ps j) sz)))) ∧
      (∀ blk k p f b (locals : List (Nat × Nat)), ∀ ps pd : Nat → Nat → Nat, o.kind = .coll blk k p f → o.blk = some b → o.progress < b.count →
        f ∈ [4, 5, 10, 11, 12] → localMembers s o b = some locals → remoteRanks s b = [] → (∃ r, (r, i) ∈ locals) →
        let t := BitVec.ofNat 4 f
        let sz := fmtBits t / 8
        let m := b.members.length
        let blkOf (j : Nat) : ParamBlock := (s.op j).blk.getD b
        (∀ x ∈ locals, Serving s x.2 ∧ (s.op x.2).progress = o.progress ∧ (s.op x.2).outst = 0 ∧ collKey (s.op x.2) = collKey o) →
        let js := upFrom o.progress (min (4096 / sz - o.progress % (4096 / sz)) (b.count - o.progress))
        let x (r e : Nat) : Nat := s.opSees (s.op (((locals.find? (fun y => y.1 == r)).map (·.2)).getD i)) (ps r e) sz
        let all (e : Nat) : Nat := reduceAll p t (rmodeOf b.rm) 0 ((List.range m).map (fun r => x r e))
        let gets (r e : Nat) : List (Nat × Nat) := match k with
          | 0 => [(e, all e)]
          | 1 => (List.range m).map (fun q => (q * b.count + e, x q e))
          | 2 => if r * (b.count / m) ≤ e ∧ e < (r + 1) * (b.count / m) then [(e - r * (b.count / m), all e)] else []
          | _ => [(e, x 0 e)]
        let st : List (Nat × Nat × Nat) := js.flatMap (fun e => locals.flatMap (fun y => (gets y.1 e).map (fun z => (0, pd y.1 z.1, z.2))))
        (∀ e ∈ js, ∀ y ∈ locals,
          EngAt s (s.op y.2) [] sz .read (((blkOf y.2).srcs.headD 0).toNat + sz * e) sz (ps y.1 e) ∧
          ∀ z ∈ gets y.1 e, EngAt s (s.op y.2) (st.map (·.2.1)) sz .write ((blkOf y.2).dst.toNat + sz * z.1) sz (pd y.1 z.1)) →
        ∃ u, exec (.collGranule i []) s = .next u ∧
          { u with quads := s.quads, mem := s.mem, poison := s.poison, linked := s.linked, ops := s.ops, free := s.free, due := s.due, migs := s.migs,
                   links := s.links, cores := s.cores, ahead := s.ahead } = s ∧
          Traces s u ∧ (∀ c, { u.core c with banks := (s.core c).banks } = s.core c) ∧ (∀ c b, u.bank c b = s.bank c b) ∧
          (∀ q, { u.quad q with sram := (s.quad q).sram } = s.quad q) ∧ Memory.wf u = true ∧ Stored s u sz st ∧
          ((∀ y ∈ locals, Near (s.op y.2) (st.map (·.2.1))) → u.links = s.links) ∧ (∀ y ∈ locals, Reached s u y.2 (o.progress + js.length) b.count) ∧
          ∀ j, (∀ y ∈ locals, y.2 ≠ j) → { u.op j with after := (s.op j).after } = s.op j) ∧
      (∀ tile wa wb ga gb shape, o.kind = .mmma tile wa wb ga gb shape → closedPane s o = none → (opRows s o).Nodup → tile < 8 →
        (∀ p ∈ opRows s o, p < 128) →
        kstepPoison s o wa wb ga gb shape (opRows s o).length o.progress = none →
        let ks := shape.toNat % 256
        let rows := opRows s o
        let q := o.core / 4
        let at_ (x : State) (p tl c : Nat) : BitVec 32 := look 0 (x.quad q).tiles (p * 1024 + tl * 128 + c)
        let cell (r c : Nat) : Nat × BitVec 5 :=
          kstepElem (block s o wa ga (shape.toNat / 256 % 16) (rows.length * ks) (r * ks + o.progress))
            (block s o wb gb (shape.toNat / 4096 % 16) (128 * ks) (o.progress * 128 + c)) (at_ s (rows.getD r 0) tile c).toNat
        let used (k : Nat) : Prop := (wa ≤ k ∧ k < wa + ga) ∨ (wb ≤ k ∧ k < wb + gb)
        o.progress < ks → o.orphan = none → wa + ga ≤ wb ∨ wb + gb ≤ wa → opSeated s o = true →
        ∃ t, exec (.mmmaKstep i) s = .next t ∧ Reached s t i (o.progress + 1) ks ∧
          (o.progress + 1 < ks → AroundGranule s t i) ∧
          (o.progress + 1 = ks →
            { t with cores := s.cores, quads := s.quads, ops := s.ops, due := s.due, ahead := s.ahead } = s ∧ NoneAhead s t ∧ (∀ c, { t.core c with banks := (s.core c).banks } = s.core c) ∧
            (∀ j, j ≠ i → { t.op j with after := (s.op j).after } = s.op j) ∧ { t.quad q with tiles := (s.quad q).tiles } = s.quad q ∧
            ∀ c b, { t.bank c b with panes := (s.bank c b).panes, flags := (s.bank c b).flags } = s.bank c b ∧
              (¬(c = o.core ∧ b = o.base) → (t.bank c b).flags = (s.bank c b).flags) ∧
              ∀ k, t.pane c b k = (if c = o.core ∧ b ∈ upFrom o.base (s.seatAt o.core o.base).size ∧ used k then
                { s.pane c b k with pins := (s.pane c b k).pins - 1 } else s.pane c b k)) ∧
          (∀ a, t.peek a 1 = s.peek a 1) ∧
          (∀ r c, r < rows.length → c < 128 → at_ t (rows.getD r 0) tile c = BitVec.ofNat 32 (cell r c).1) ∧
          (∀ p tl c, c < 128 → tl < 8 → (p ∉ rows ∨ tl ≠ tile) → at_ t p tl c = at_ s p tl c) ∧
          (∀ j, j ≠ q → t.quad j = s.quad j) ∧
          ∀ b, (t.bank o.core o.base).flags.getLsbD b = true ↔ (s.bank o.core o.base).flags.getLsbD b = true ∨
            ∃ r c, r < rows.length ∧ c < 128 ∧ (cell r c).2.getLsbD b = true) ∧
      (∀ tile f d r cols mask, ∀ pd : Nat → Nat, o.kind = .mdrain tile f d r cols mask → f ∈ [10, 11, 12] → cols ≤ 128 → tile < 8 →
        o.progress % 128 = 0 → o.progress < 128 * (opRows s o).length →
        let t := BitVec.ofNat 4 f
        let sz := fmtBits t / 8
        let row := o.progress / 128
        let cs := (List.range 128).filter (fun c => decide (c < cols) && mask.getLsbD c)
        (∀ c ∈ cs, EngAt s o (cs.map pd) sz .write ((d + BitVec.ofNat 64 row * r).toNat + c * sz) sz (pd c)) →
        let v (c : Nat) := drainElem s o tile f ((opRows s o).getD row 0) c
        ∃ t, exec (.mdrainGranule i) s = .next t ∧ AroundGranule s t i ∧ Reached s t i (o.progress + 128) (128 * (opRows s o).length) ∧
          Stored s t sz (cs.map (fun c => (0, pd c, (v c).1))) ∧ (∀ q, (t.quad q).tiles = (s.quad q).tiles) ∧
          ∀ b, (t.bank o.core o.base).flags.getLsbD b = true ↔ (s.bank o.core o.base).flags.getLsbD b = true ∨
            (opSeated s o = true ∧ ∃ c ∈ cs, (v c).2.getLsbD b = true)))

/-- The events of R262-R272. `schedRead` reads bytes as the scheduler's loads; `recordOk` are the field limits of R261; `recordOf` reads
a record's fields; `anchor` checks are those of R63 1-3 at user level. -/
def Obligations.SchedulerStartsLaunchesTasksAndSeats : Prop :=
  ∀ (s : State) (i : Nat), LaunchesGoOn s →
    let o := s.op i
    let begun : ChildOp := { o with st := .running, wait := none, boost := 0, aged := s.ns }
    let still (e : Instr) : Prop := exec e s = .next s
    let faults (e : Instr) (cause : BitVec 8) : Prop := ∃ t, exec e s = .next t ∧ (t.op i).st = .faulted ∧ (t.op i).cause = cause
    let lowest (n : Nat) : Prop := n < 1024 ∧ s.launch? n = none ∧ ∀ m, m < n → s.launch? m ≠ none
    (s.tsWaits o = true → still (.launchStart i) ∧ still (.tspawnStart i)) ∧
    (∀ h, o.kind = .launch h → s.tsWaits o = false → h.toNat % 64 ≠ 0 → faults (.launchStart i) 0x42) ∧
    (∀ h hd bs, o.kind = .launch h → s.tsWaits o = false → h.toNat % 64 = 0 →
      schedRead s (opCtx s o) (piecesOf h.toNat 128) = .ok hd →
      let nt := fieldOf bs 2 2
      nt = fieldOf hd 2 2 → schedRead s (opCtx s o) (piecesOf h.toNat (128 + 256 * nt)) = .ok bs →
      let rec_ (k : Nat) : List Byte := (bs.drop (128 + 256 * k)).take 256
      let r (k : Nat) : TaskRec := recordOf (rec_ k)
      let loops : BitVec 16 := BitVec.ofNat 16 (fieldOf bs 4 2)
      let passes : Prop := fieldOf bs 0 2 = 1 ∧ 1 ≤ nt ∧ fieldOf bs 6 2 = 0 ∧ fieldOf bs 48 16 = 0 ∧ fieldOf bs 96 32 = 0 ∧
        (∀ k, k < nt → recordOk (rec_ k) = true ∧ (∀ j ∈ (r k).succ, j < nt ∧ j ≠ k ∧ ((r k).stage = 0 ∨ (r j).stage = 0)) ∧
          (r k).npred = ((List.range nt).map (fun j => ((r j).succ.filter (· == k)).length)).sum) ∧
        ∃ k, k < nt ∧ (r k).npred = 0
      (¬passes → faults (.launchStart i) 0x42) ∧
      (passes → (∀ n, n < 1024 → s.launch? n ≠ none) → still (.launchStart i)) ∧
      (passes → (∃ l ∈ s.launches, ∃ x, l.2 = some x ∧ x.loops &&& loops ≠ 0) → still (.launchStart i)) ∧
      (passes → Memory.wf s = true → s.waits.posted = [] → ∀ n p, lowest n → (∀ l ∈ s.launches, ∀ x, l.2 = some x → x.loops &&& loops = 0) →
        (∀ l, l.sup = o.sup → l.ptbr = o.ptbr → translate s (launchCtx n l) .write (h.toNat + 28) = .ok p) →
        p.peer = 0 → regionOf p.pa = .cap ∨ regionOf p.pa = .dram → heldAt s p.pa = none →
        ∃ t l, exec (.launchStart i) s = .next t ∧
          { t with launches := s.launches, cores := s.cores, ops := s.ops, mem := s.mem, linked := s.linked, due := s.due, taskAge := s.taskAge, ahead := s.ahead } = s ∧ NoneAhead s t ∧
          t.taskAge = s.taskAge + nt ∧
          t.launch? n = some l ∧ (∀ m, m ≠ n → t.launch? m = s.launch? m) ∧ (∀ j, t.op j = if j = i then begun else s.op j) ∧
          (∀ c, { t.core c with post := (s.core c).post } = s.core c ∧
            ∀ k, look 0 (t.core c).post k = if loops.getLsbD k then 0 else look 0 (s.core c).post k) ∧
          t.peek p.pa 4 = 0 ∧ (∀ a, a < p.pa ∨ p.pa + 4 ≤ a → t.peek a 1 = s.peek a 1) ∧
          (l.sill, l.ptbr, l.sup, l.loops, l.op, l.fcount) = (sillOf o.core, o.ptbr, o.sup, loops, some i, 0) ∧
          (l.event.toNat, l.frec.toNat, l.fcap, l.save.toNat) = (fieldOf bs 8 8, fieldOf bs 16 8, fieldOf bs 24 4, fieldOf bs 40 8) ∧
          l.hbase.toNat = fieldOf bs 32 8 / 64 * 64 ∧ l.nextTask = nt ∧
          (∀ k, k < 16 → look 0 l.bars k = fieldOf bs (64 + 2 * k) 2) ∧
          (∀ k, nt ≤ k → look none l.tasks k = none) ∧
          ∀ k, k < nt → ∃ y, look none l.tasks k = some y ∧ y.st = .waiting ∧ y.dep = (r k).npred ∧ y.prio = (r k).prio ∧ y.age = s.taskAge + k ∧ y.record = r k ∧
            let f (off len : Nat) : Nat := fieldOf bs (128 + 256 * k + off) len
            (y.record.entry.toNat, y.record.anchor.toNat, y.record.count.toNat) = (f 0 8, f 8 8, f 16 8) ∧
            (y.record.panes.toNat, y.record.sash, y.record.prio.toNat, y.record.stage.toNat) = (f 24 2, f 26 1, f 27 1, f 28 1) ∧
            (y.record.redund, y.record.sram, y.record.npred, y.record.succ.length) = (f 29 1, f 32 4, f 36 2, f 38 2) ∧
            (∀ j, j < 8 → (y.record.args.getD j 0).toNat = f (40 + 8 * j) 8) ∧ ∀ j, j < f 38 2 → y.record.succ.getD j 0 = f (216 + 2 * j) 2)) ∧
    (∀ a, o.kind = .tspawn a → s.tsWaits o = false → a.toNat % 64 ≠ 0 → faults (.tspawnStart i) 0x42) ∧
    (∀ a bs, o.kind = .tspawn a → s.tsWaits o = false → a.toNat % 64 = 0 → schedRead s (opCtx s o) (piecesOf a.toNat 256) = .ok bs →
      let r := recordOf bs
      let passes : Prop := recordOk bs = true ∧ r.npred = 0 ∧ r.succ = []
      let spawned (t : State) (y : Task) (p : BitVec 3) : Prop :=
        (y.st, y.dep, y.age, y.prio, y.op) = (.waiting, 0, s.taskAge, p, some i) ∧ { y.record with prio := r.prio } = r ∧ (∀ j, t.op j = if j = i then begun else s.op j) ∧
          t.taskAge = s.taskAge + 1 ∧ { t with launches := s.launches, ops := s.ops, due := s.due, taskAge := s.taskAge } = s
      (¬passes → faults (.tspawnStart i) 0x42) ∧
      (passes → o.core < 1536 → ∀ l x, s.launch? o.launch = some l → look none l.tasks o.task = some x →
        ∃ t y, exec (.tspawnStart i) s = .next t ∧
          spawned t y (BitVec.ofNat 3 (min r.prio.toNat x.record.prio.toNat)) ∧ (∀ m, m ≠ o.launch → t.launch? m = s.launch? m) ∧
          ∃ l', t.launch? o.launch = some l' ∧ { l' with tasks := l.tasks, nextTask := l.nextTask } = l ∧ l'.nextTask = l.nextTask + 1 ∧
            ∀ k, look none l'.tasks k = if k = l.nextTask % 2 ^ 32 then some y else look none l.tasks k) ∧
      (passes → 1536 ≤ o.core → ∀ n, lowest n →
        ∃ t l y, exec (.tspawnStart i) s = .next t ∧ spawned t y r.prio ∧ t.launch? n = some l ∧ (∀ m, m ≠ n → t.launch? m = s.launch? m) ∧
          (∀ k, look none l.tasks k = if k = 0 then some y else none) ∧ (l.ptbr, l.sup, l.event, l.hbase, l.loops, l.bars) = (o.ptbr, o.sup, 0, 0, 0, [])) ∧
      (passes → 1536 ≤ o.core → (∀ n, n < 1024 → s.launch? n ≠ none) → still (.tspawnStart i))) ∧
    (∀ n k l x, s.launch? n = some l → s.task? n k = some x →
      let place := translate s ⟨0, false, false, l.ptbr, n, []⟩ .place x.record.anchor.toNat
      let ready : Prop := x.st = .waiting ∧ x.dep = 0 ∧ s.power.depth < 3
      let fails (cause : BitVec 8) : Prop := ∃ t, exec (.taskReady n k) s = .next t ∧ ∀ y, t.task? n k = some y → y.st = .failed ∧ y.cause = cause
      (¬ready → still (.taskReady n k)) ∧
      (ready → ∀ c v, place = .bad c v → fails v) ∧
      (ready → ∀ p, place = .ok p →
        (p.peer ≠ 0 → fails 0x16) ∧ (p.peer = 0 → regionOf p.pa = .cap → fails 0x15) ∧
        (p.peer = 0 → regionOf p.pa ≠ .cap → regionOf p.pa ≠ .dram → fails 0x11) ∧
        (p.peer = 0 → regionOf p.pa = .dram →
          (dramBank p.pa % 2 ^ x.record.sash ≠ 0 → fails 0x42) ∧
          (dramBank p.pa % 2 ^ x.record.sash = 0 → 4096 ≤ s.poolSize (dramCore p.pa / 192) ∨ s.olderWaits (dramCore p.pa / 192) x.age = true →
            still (.taskReady n k)) ∧
          (dramBank p.pa % 2 ^ x.record.sash = 0 → s.poolSize (dramCore p.pa / 192) < 4096 →
              s.olderWaits (dramCore p.pa / 192) x.age = false →
            let home (r : Nat) : Nat := replicaCore (dramCore p.pa) x.record.redund r
            ∃ t, exec (.taskReady n k) s = .next t ∧ { t with launches := s.launches, cores := s.cores } = s ∧
              (∀ c, { t.core c with waking := (s.core c).waking } = s.core c ∧ ((t.core c).waking = true ↔ (s.core c).waking = true ∨
                ∃ r ∈ x.replicas, (s.core (home r)).power ≠ .run ∧
                  (c = home r ∨ (s.core (home r)).power = .nap ∧ home r / 192 * 192 ≤ c ∧ c < home r / 192 * 192 + 192))) ∧
              ∀ m j, t.task? m j =
                if m = n ∧ j = k then some { x with st := .ready, pa := p.pa, core := dramCore p.pa } else s.task? m j)))) ∧
    (∀ c, 1536 ≤ c → still (.dispatchOffer c)) ∧
    (∀ c n k l x e rest g, c < 1536 →
      let w := s
      offerOrder (s.entries c) = e :: rest → (w.core c).head = none ∨ (w.core c).head = some (n, k) →
      (e.launch, e.task) = (n, k) → w.launch? n = some l → w.task? n k = some x →
      l.paused = false → (x.st, x.core, x.replicas, x.record.redund, x.record.stage) = (.ready, c, [0], 0, 0) → w.takesSeats c = true →
      x.record.count = 0 ∨ x.record.args.headD 0 = 0 → x.record.args.length = 8 → x.record.sash ≤ 4 →
      let base := dramBank x.pa
      let size := 2 ^ x.record.sash
      let need := (x.record.sram + 262143) / 262144
      (∀ b, base ≤ b → b < base + size → w.seatOfBank c b = none ∧ w.bankReserved c b n k = false ∧ w.orphanHolds c b = false) →
      g = ((List.range 32).filter (fun b => decide ((w.sram (c / 4) b).holder = none))).take need → g.length = need →
      (∀ b ∈ g, w.sramReserved c b n k = false) →
      ∃ t u, exec (.dispatchOffer c) s = .next t ∧
        { t with launches := w.launches, cores := w.cores, quads := w.quads, free := w.free, taskAge := w.taskAge, waits := w.waits } = w ∧
        t.waits = { w.waits with staging := w.waits.staging.filter (· ≠ (n, k)) } ∧
        (∀ m j, t.task? m j = if m = n ∧ j = k then some { x with st := .running, keys := (w.free + g.length), replicas := [0] } else w.task? m j) ∧
        (let kept (d : Nat) := (w.core d).reserve.filter (fun r => r.2 != (n, k));
          (∀ d, d ≠ c → t.core d = { w.core d with reserve := kept d }) ∧
          { t.core c with banks := (w.core c).banks, seats := (w.core c).seats } = { w.core c with
            head := none, skip := 0, reserve := (kept c).filter (fun r => ((s.task? r.2.1 r.2.2).map Task.pooled).getD false) }) ∧
        (∀ b, b ≠ base → t.seat? c b = w.seat? c b) ∧ t.seat? c base = some u ∧
        (u.isCC, u.launch, u.task, u.base, u.log2s, u.phase) = (false, n, k, base, x.record.sash, .forming) ∧
        (u.tvec, u.lcap, u.prio, u.recPrio, u.stage, u.rows, u.sram) = (l.hbase, 12, x.prio, x.record.prio, 0, [], g) ∧
        u.status = Status.empty ∧ u.handler = none ∧ u.red = none ∧ u.ptbr = l.ptbr ∧
        u.parts = [(base, some { Part.empty with pc := x.record.entry, active := bankMask (upFrom base size), entry := true })] ∧
        (∀ b, (b < base ∨ base + size ≤ b) → t.bank c b = w.bank c b) ∧
        (∀ b, base ≤ b → b < base + size →
          let y := t.bank c b
          { y with
            s := (w.bank c b).s, a := (w.bank c b).a, m := (w.bank c b).m, k := (w.bank c b).k, flags := (w.bank c b).flags, hsp := (w.bank c b).hsp
            ss0 := (w.bank c b).ss0, ss1 := (w.bank c b).ss1, panes := (w.bank c b).panes, claim := (w.bank c b).claim
            debt := (w.bank c b).debt } = w.bank c b ∧
          (∀ r : BitVec 5, y.rs r =
            if r = 0 ∨ 8 < r.toNat then 0
            else if r = 1 ∧ x.record.count ≠ 0 then x.record.count else x.record.args.getD (r.toNat - 1) 0) ∧
          (∀ r : BitVec 3, y.ra r = if r = 0 then BitVec.ofNat 64 ((x.record.anchor.toNat + (b - base) * 4096) % 2 ^ 56) else 0) ∧
          (∀ r, y.rm r = 0) ∧ (∀ r, y.rk r = none) ∧ y.flags = 0 ∧ y.ss0 = 0 ∧ y.ss1 = 0 ∧ y.claim = none ∧ (∀ r, y.pane r = Pane.empty) ∧
          (∀ r, y.debtOf r = min 1 ((w.bank c b).debtOf r)) ∧
          y.hsp = match g.getLast? with | some b => BitVec.ofNat 64 (windowBase + (b + 1) * 262144) | none => 0) ∧
        ∀ q b,
          (q = c / 4 ∧ b ∈ g → (t.sram q b).mode = 1 ∧ (t.sram q b).holder = some (c, base) ∧ ((t.sram q b).busy = true ↔ (w.sram q b).mode ≠ 1)) ∧
          (¬(q = c / 4 ∧ b ∈ g) → t.sram q b = w.sram q b)) ∧
    (∀ c, c < 1536 → s.entries c = [] → ∃ t, exec (.dispatchOffer c) s = .next t ∧ { t with cores := s.cores } = s ∧
      ∀ d, t.core d = if d = c then { s.core c with
        head := none, skip := 0, reserve := (s.core c).reserve.filter (fun r => ((s.task? r.2.1 r.2.2).map Task.pooled).getD false) } else s.core d) ∧
    (∀ c e rest, c < 1536 →
      let w := s
      offerOrder (s.entries c) = e :: rest → (∀ y ∈ e :: rest, w.dispatch y.launch y.task = none ∧ w.heldBack y.launch y.task = false) →
      let head := offerHead (w.core c) (e :: rest)
      ∃ t h, head.1 = some h ∧ exec (.dispatchOffer c) s = .next t ∧ { t with cores := w.cores } = w ∧
        (t.core c).head = some (h.launch, h.task) ∧ (t.core c).skip = min 64 (head.2 + 1) ∧
        (head.2 < 64 ∨ (w.core c).head = some (h.launch, h.task)) ∧
        (∀ d b u, t.seat? d b = some u → ∃ v, w.seat? d b = some v ∧ { u with preempt := v.preempt } = v ∧
          (u.preempt ≠ v.preempt → u.preempt = true)) ∧
        (∀ d b, t.bank d b = w.bank d b) ∧
        ∀ x xs, w.task? h.launch h.task = some x → State.blockers w c h.launch h.task x = some xs →
          ((∃ p ∈ xs, x.prio.toNat ≤ p.2.2.recPrio.toNat) → ∀ d b, t.seat? d b = w.seat? d b) ∧
          ((∀ rs, x.runners w = some rs → ∀ r ∈ rs, replicaCore x.core x.record.redund r ≠ c) → ∀ d b, t.seat? d b = w.seat? d b) ∧
          (xs ≠ [] → (∃ rs, x.runners w = some rs ∧ ∃ r ∈ rs, replicaCore x.core x.record.redund r = c) → (∀ p ∈ xs, p.2.2.isCC = false ∧ p.2.2.recPrio.toNat < x.prio.toNat ∧ w.unsavable p.2.2 = false) →
            w.areasNeeded (w.stopped xs) ≤ w.freeAreas.length →
            ∀ q ∈ w.stopped xs, ∀ d ∈ w.seatsOf q.1 q.2, ∀ u, t.seat? d.1 d.2 = some u → u.phase = .saving ∨ u.preempt = true)) ∧
    ∀ c b p, s.seatOfBank c b = some p →
      (p.2.phase ≠ .forming ∨ s.power.phase ≠ 0 → still (.seatFormingEnd c b)) ∧
      (p.2.phase = .forming → s.power.phase = 0 →
        let gang := s.gang p.2.launch p.2.task
        (∀ k ∈ gang, ∀ y, s.task? p.2.launch k = some y → ∀ x ∈ y.ctx, x.seat.status.rid.toNat ∈ y.replicas) →
        ∃ t, exec (.seatFormingEnd c b) s = .next t ∧
          { t with cores := s.cores, quads := s.quads, launches := s.launches, lctl := s.lctl, ops := s.ops, due := s.due, ahead := s.ahead } = s ∧ NoneAhead s t ∧
          (∀ d e, { t.bank d e with panes := (s.bank d e).panes } = s.bank d e ∧
            ∀ n, { t.pane d e n with pins := (s.pane d e n).pins } = s.pane d e n) ∧
          (∀ j, t.op j = s.op j ∨ ((s.op j).st = .paused ∧ t.op j = { s.op j with st := .running })) ∧
          (∀ n k, t.task? n k = (s.task? n k).map (fun y =>
            if n = p.2.launch ∧ k ∈ gang then { y with ctx := [], area := none, isExported := false } else y)) ∧
          ∀ d e, t.seat? d e = (s.seat? d e).map (fun u =>
            if u.phase = .forming ∧ ∃ k ∈ gang, (d, e) ∈ s.seatsOf p.2.launch k then { u with phase := .issuing } else u))

/-- R346, R325, R281. `drainedWith` are the operations of R323; what the area holds is stated for the first 32 bytes of its header. Which free
slot keeps a pane is the model's choice (log 88); that the banks in which an instruction has performed are kept over a stop is its reading (log
94); so is that a pool without a READY entry keeps the seat SAVING (log 104). -/
def Obligations.PreemptionSavesTheSeat : Prop :=
  ∀ (s : State) (c b : Nat),
    let still (e : Instr) : Prop := exec e s = .next s
    let areas (t : State) (u : Seat) : Prop :=
      (∀ m j, t.task? m j = (s.task? m j).map (fun y =>
        if m = u.launch ∧ j = u.task ∧ y.area = none then { y with area := s.freeAreas.head? } else y)) ∧
      { t.lctl with areas := s.lctl.areas } = s.lctl
    (∀ stop, s.agentOfBank c b = none → still (.preemptionTake c b stop)) ∧
    (∀ stop a, s.agentOfBank c b = some a →
      let u := s.seat a
      let p := s.part a
      let yields : Prop := (∃ h, u.handler = some h ∧ p.active &&& ~~~h = 0) ∧ (p.wait = some .await ∨ (∃ x y, p.wait = some (.bwait x y)) ∨
        ∃ w v, p.wait = some w ∧ p.convoy = some v ∧ ∃ n x rest, v.todo = (n, x) :: rest ∧
          (((∃ i, w = .op i) ∧ ((∃ k q z, x = .kwait k q z) ∨ ∃ d k z, x = .kwaitNt d k z)) ∨
            (w = .echo ∧ ((∃ d e, x = .await d e) ∨ ∃ d k z, x = .kwaitNt d k z))))
      let begun : Prop := (p.begun ≠ 0 ∧ ∃ d e n, p.wait = some (.pane d e n)) ∨
        ∃ k ∈ banksOf p.active, ∃ n, n < 12 ∧ (s.pane a.core k n).st ∈ [PaneState.opening, .writing, .closing]
      let overdue : Prop := s.owes a.core = true ∧ ∃ k ∈ banksOf p.active, ∃ g, g < 12 ∧ 8 ≤ (s.bank a.core k).debtOf g
      let held : Prop := u.tvec ≠ 0 ∧ (u.status.hold = true ∨ u.status.lvl = true) ∧ ¬yields
      let join : Option (BitVec 6) := match p.wait with | some (.sjoin id) => some id | _ => none
      let kept : Option Kept := if p.begun = 0 ∧ join = none ∧ p.stored = [] then none else some ⟨p.pc, p.begun, join, p.stored⟩
      (u.isCC = true ∨ s.power.phase ≠ 0 ∨ u.preempt = false ∨ u.phase ≠ .issuing ∨ held ∨ begun → still (.preemptionTake c b stop)) ∧
      (u.isCC = false → s.power.phase = 0 → u.preempt = true → u.phase = .issuing → ¬held → ¬begun → u.tvec ≠ 0 → u.handler = none → overdue →
        exec (.preemptionTake c b stop) s = exec (.refreshDeadlineTrap c b stop) s) ∧
      (u.isCC = false → s.power.phase = 0 → u.preempt = true → u.phase = .issuing → ¬held → ¬begun → p.convoy = none →
        (u.tvec = 0 ∨ u.handler ≠ none →
          ∃ t, exec (.preemptionTake c b stop) s = .next t ∧
            { t with cores := s.cores, linked := s.linked, launches := s.launches, lctl := s.lctl } = s ∧ areas t u ∧
            t.linked = s.linked.filter (fun l => !(l.core == a.core && u.banks.contains l.bank)) ∧
            (∀ d e, t.bank d e = s.bank d e) ∧ (∀ d e, ¬(d = a.core ∧ e = a.base) → t.seat? d e = s.seat? d e) ∧
            { t.seat a with parts := u.parts } = { u with phase := .saving, preempt := false, epc := if u.handler = none then p.pc else u.epc } ∧
            (t.seat a).parts = u.parts) ∧
        (u.tvec ≠ 0 → u.handler = none → ¬overdue →
          ∃ t, exec (.preemptionTake c b stop) s = .next t ∧ t.focus = s.focus ∧
            EntersHandler { (s.setSeat a { u with preempt := false }).modPart a (fun p => { p with kept := kept }) with focus := a } { t with focus := a }
              0x38 4 0 p.pc p.xidx))) ∧
    (s.seatOfBank c b = none → still (.preemptHandlerTimeout c b) ∧ still (.seatSave c b)) ∧
    (∀ base u, s.seatOfBank c b = some (base, u) → s.seat? c base = some u →
      let n := u.launch
      let k := u.task
      let serving : Prop := s.power.phase = 0 ∧ u.isCC = false ∧ u.handler ≠ none ∧ u.status.cls = 4 ∧ u.phase = .issuing
      (¬serving → still (.preemptHandlerTimeout c b)) ∧
      (serving → ∃ t, exec (.preemptHandlerTimeout c b) s = .next t ∧
        { t with cores := s.cores, linked := s.linked, launches := s.launches, lctl := s.lctl } = s ∧ areas t u ∧
        t.linked = s.linked.filter (fun l => !(l.core == c && u.banks.contains l.bank)) ∧ (∀ d e, t.bank d e = s.bank d e) ∧
        ∀ d e, t.seat? d e = if d = c ∧ e = base then some { u with phase := .saving, preempt := false } else s.seat? d e) ∧
      let halfway : Prop := ∃ q ∈ u.parts, ∃ y, q.2 = some y ∧ y.begun ≠ 0 ∧ ∃ d e g, y.wait = some (.pane d e g)
      (u.phase ≠ .saving ∨ halfway ∨ s.draining c base u = true ∨ 3 ≤ s.power.depth ∨ s.saveWait u ≠ none → still (.seatSave c b)) ∧
      (∀ x, s.task? n k = some x → x.area = none → s.freeAreas = [] → still (.seatSave c b)) ∧
      (∀ x, s.task? n k = some x → 4096 ≤ s.poolSize (x.core / 192) → x.ctx.length + 1 = x.replicas.length →
        (∀ m j y, s.task? m j = some y → y.st = .ready → y.core / 192 ≠ x.core / 192) → still (.seatSave c b)) ∧
      (∀ x i, u.phase = .saving → ¬halfway → s.draining c base u = false → s.power.depth < 3 → s.saveWait u = none →
        s.poolSize (x.core / 192) < 4096 → u.red = none → u.base = base → u.sram.Nodup →
        (∀ p ∈ u.parts, ∀ y, p.2 = some y → y.late = []) → Memory.wf s = true → regionOf (s.areaPa i) ≠ .sram → s.areaPa i % 32 = 0 → c < 65536 → u.base < 256 →
        s.task? n k = some x → x.area = some i ∨ (x.area = none ∧ s.freeAreas.head? = some i) →
        ∃ t y v, exec (.seatSave c b) s = .next t ∧
          { t with cores := s.cores, quads := s.quads, ops := s.ops, mem := s.mem, linked := s.linked, launches := s.launches, lctl := s.lctl
                   free := s.free, ahead := s.ahead } = s ∧ NoneAhead s t ∧
          (∀ d e, t.seat? d e = if d = c ∧ e = base then none else s.seat? d e) ∧
          (∀ j, t.op j = if j ∈ s.opsWhere (drainedWith c base u) ∧ (s.op j).st = .running then { s.op j with st := .paused, wait := none } else s.op j) ∧
          (∀ m j, t.task? m j = if m = n ∧ j = k then some y else s.task? m j) ∧
          y = { x with ctx := x.ctx ++ [v], area := some i, st := if x.ctx.length + 1 = x.replicas.length then .saved else x.st } ∧
          (x.area = none → look none t.lctl.areas i = some (n, k)) ∧
          v.core = c ∧ { v.seat with parts := u.parts, preempt := u.preempt } = u ∧ v.seat.preempt = false ∧
          (∀ q, v.seat.part? q = (u.part? q).map (fun p =>
            { p.endConvoy with wait := none, got := [], picked := [], loaded := false, recs := [], xidx := (match p.convoy with
              | some z => if z.elems = [] ∧ z.whole = true ∧ z.first = p.pc ∧ z.done ≠ 0 then z.done else p.xidx
              | none => p.xidx) })) ∧
          v.sram = u.sram.map (fun e => ⟨e, s.sram (c / 4) e⟩) ∧
          (∀ e ∈ u.sram, { t.sram (c / 4) e with data := [], undef := 0 } = { SramBank.empty with busy := decide ((s.sram (c / 4) e).mode ≠ 0) }) ∧
          (∀ q e, ¬(q = c / 4 ∧ e ∈ u.sram) → { t.sram q e with data := (s.sram q e).data } = s.sram q e) ∧
          v.tiles = seatTiles (s.quad (c / 4)) u.rows ∧
          (∀ d e, ¬(d = c ∧ e ∈ u.banks) → { t.bank d e with panes := (s.bank d e).panes } = s.bank d e) ∧
          (∀ e ∈ u.banks,
            let old := s.bank c e
            let new := t.bank c e
            { look Bank.empty v.banks (e - base) with panes := old.panes, slots := old.slots } = old ∧
            { new with panes := old.panes, slots := old.slots, k := old.k, claim := old.claim } = old ∧
            (∀ r, new.rk r = none) ∧ new.claim = none ∧
            ∀ g, g < 12 →
              let p := old.pane g
              let open_ : Prop := p.park = true ∨ p.st ∈ [PaneState.openClean, .openDirty, .writing, .opening]
              let kept : Prop := x.record.panes.getLsbD g = true ∧ open_
              let img := if p.park then ((old.slot g 5).img).getD p.img else p.next.getD p.img
              let place := look .closed v.places ((e - base) * 12 + g)
              new.pane g = Pane.empty ∧ ((e - base) * 12 + g ∈ v.parked ↔ kept ∧ p.park = true) ∧
              (¬kept → place = .closed ∧ ∀ j, j < 8 → new.slot g j = old.slot g j) ∧
              (kept → (∀ j, j < 5 → (old.slot g j).owner ≠ .free) → place = .area img ∧ ∀ j, j < 8 → new.slot g j = old.slot g j) ∧
              ∀ j, kept → j < 5 → (old.slot g j).owner = .free → (∀ h, h < j → (old.slot g h).owner ≠ .free) →
                place = .slot j ∧ ∀ h, h < 8 → new.slot g h = if h = j then ⟨.saved n k, some img⟩ else old.slot g h) ∧
          (u.stage = 0 → (t.peek (s.areaPa i) 2, t.peek (s.areaPa i + 2) 2, t.peek (s.areaPa i + 4) 1) = (1, c, u.base) ∧
            t.peek (s.areaPa i + 16) 8 = u.shape.toNat ∧ t.peek (s.areaPa i + 24) 8 = u.taskid.toNat))) ∧
    ∀ n k counter,
      (s.task? n k = none → still (.schedulerStateError n k counter)) ∧
      ∀ x, s.task? n k = some x →
        (x.st ≠ .waiting → still (.schedulerStateError n k true)) ∧
        (x.st ≠ .ready → x.st ≠ .saved → still (.schedulerStateError n k false)) ∧
        (x.st = .waiting → ∃ t, exec (.schedulerStateError n k true) s = .next t ∧ t.log.schederr = s.log.schederr + 1 ∧
          ∀ j y z, s.task? n j = some y → y.st.terminal = false → t.task? n j = some z → z.st = .cancelled ∧ z.cause = 0x44) ∧
        (x.st = .ready ∨ x.st = .saved → ∃ t, exec (.schedulerStateError n k false) s = .next t ∧ t.log.schederr = s.log.schederr + 1 ∧
          ∀ z, t.task? n k = some z → z.st = .failed ∧ z.cause = 0x48)

/-- R380, R282 and R276. `endCmd r` is the end of a command with RESULT r; `areasNeeded` counts the tasks that need an area. -/
def Obligations.LaunchCommandsPauseResumeExportAndRetarget : Prop :=
  ∀ (s : State) (n k : Nat), LaunchesGoOn s →
    let still (e : Instr) : Prop := exec e s = .next s
    let ends (e : Instr) (r : BitVec 8) : Prop := exec e s = .next (s.endCmd r)
    let commands : List Instr := [.lcmdPause n, .lcmdResume n, .lcmdCancel n, .lcmdExport n k, .lcmdRetarget n k]
    (∀ r, (s.endCmd r).lctl = { s.lctl with cur := none, result := r } ∧
      (s.lctl.evt = 0 → s.endCmd r = { s with lctl := { s.lctl with cur := none, result := r } }) ∧
      (Memory.wf s = true → s.lctl.evt ≠ 0 → s.waits.posted = [] → heldAt s s.lctl.evt.toNat = none → regionOf s.lctl.evt.toNat = .cap ∨ regionOf s.lctl.evt.toNat = .dram → s.lctl.evt.toNat % 8 = 0 →
        (s.endCmd r).peek s.lctl.evt.toNat 8 = (s.peek s.lctl.evt.toNat 8 + 1) % 2 ^ 64 ∧
        ∀ a, a < s.lctl.evt.toNat ∨ s.lctl.evt.toNat + 8 ≤ a → (s.endCmd r).peek a 1 = s.peek a 1)) ∧
    (s.lctl.cur ≠ none → ∀ e ∈ commands, still e) ∧
    (s.lctl.cur = none → s.launch? n = none → ∀ e ∈ commands, ends e 1) ∧
    (∀ l, s.lctl.cur = none → s.launch? n = some l →
      let ours (o : ChildOp) : Bool := o.launch == n && decide (o.core < 1536)
      let running := (l.tasks.filter (fun t => (t.2.map (fun y => y.st == .running)).getD false)).map (fun t => (n, t.1))
      let unsavable : Prop := l.save = 0 ∧ ∃ t ∈ l.tasks, ∃ y, t.2 = some y ∧ y.record.stage ≠ 0 ∧ y.st.terminal = false
      (unsavable ∨ s.freeAreas.length < s.areasNeeded running → ends (.lcmdPause n) 5) ∧
      (¬unsavable → s.areasNeeded running ≤ s.freeAreas.length →
        ∃ t, exec (.lcmdPause n) s = .next t ∧ (∀ m, t.launch? m = if m = n then some { l with paused := true } else s.launch? m) ∧
          (s.ops.Pairwise (fun p q => p.1 < q.1) → ∀ j, t.op j =
            if (s.op j).live = true ∧ ours (s.op j) = true ∧ (s.op j).kind.cls ≠ .ts ∧ (s.op j).st = .running ∧ (s.op j).atBoundary = true
            then { s.op j with st := .paused, wait := none } else s.op j) ∧
          (∀ d b, { t.bank d b with panes := (s.bank d b).panes, slots := (s.bank d b).slots } = s.bank d b) ∧
          (∀ q ∈ running, ∀ d ∈ s.seatsOf q.1 q.2, ∀ u, t.seat? d.1 d.2 = some u → u.phase = .saving ∨ u.preempt = true) ∧
          (∀ d b, (t.seat? d b).isSome = (s.seat? d b).isSome ∧
            ∀ u v, s.seat? d b = some u → t.seat? d b = some v → { v with preempt := u.preempt } = u ∧
              (v.preempt ≠ u.preempt → ∃ q ∈ running, (d, b) ∈ s.seatsOf q.1 q.2)) ∧
          (s.ops.Pairwise (fun p q => p.1 < q.1) →
            let busy : Prop := running ≠ [] ∨ ∃ o ∈ s.ops, o.2.live = true ∧ ours o.2 = true ∧ o.2.kind.cls ≠ .ts ∧ o.2.st = .running ∧
              o.2.atBoundary = false
            (busy → t.lctl = { s.lctl with cur := some (1, n, 0) }) ∧
            (¬busy → t.lctl = { s.lctl with cur := none, result := 0 }))) ∧
      (l.paused = false → ends (.lcmdResume n) 4 ∧ ends (.lcmdExport n k) 4 ∧ ends (.lcmdRetarget n k) 4) ∧
      (l.paused = true →
        ∃ t, exec (.lcmdResume n) s = .next t ∧ t.lctl = { s.lctl with cur := none, result := 0 } ∧
          (∀ m, t.launch? m = if m = n then some { l with paused := false } else s.launch? m) ∧
          ∀ j, t.op j = if j ∈ s.opsWhere (fun o => o.st == .paused && ours o && !s.opSaved o) then { s.op j with st := .running, wait := none } else s.op j) ∧
      (∃ t, exec (.lcmdCancel n) s = .next t ∧ t.lctl.cur = none ∧ t.lctl.result = 0 ∧
        (∀ j y z, s.task? n j = some y → y.st.terminal = false → t.task? n j = some z → z.st = .cancelled ∧ z.cause = 0x44) ∧
        ∀ j, ours (s.op j) = true → (s.op j).live = true →
          (s.op j).kind.cls ≠ .ts ∨ (s.op j).st = .pending ∨ (∃ i y, s.task? n i = some y ∧ y.op = some j ∧ y.st.terminal = false) →
          (t.op j).live = false ∨ (t.op j).st.terminal = true) ∧
      (l.paused = true → (∀ y, s.task? n k = some y → y.st ≠ .saved) → ends (.lcmdExport n k) 2) ∧
      (l.paused = true → ∀ y, s.task? n k = some y → y.st = .saved → y.isExported = true → ends (.lcmdExport n k) 0) ∧
      (l.paused = true → ∀ y, s.task? n k = some y → y.st = .saved → y.isExported = false →
        (∃ i x, y.area = some i ∧ x < 16 ∧ pageWait s (s.areaPa i + x * 2 ^ 16) ≠ none) →
        exec (.lcmdExport n k) s = .next { s with lctl := { s.lctl with cur := some (4, n, k) } }) ∧
      (l.paused = true → ∀ y, s.task? n k = some y → y.st = .saved → y.isExported = false →
        (∀ i, y.area = some i → ∀ x < 16, pageWait s (s.areaPa i + x * 2 ^ 16) = none) →
        ∃ t, exec (.lcmdExport n k) s = .next t ∧ t.lctl.cur = none ∧ t.lctl.result = 0 ∧
          (∀ d b g j, j < 5 → (t.bank d b).slot g j =
            if ((s.bank d b).slot g j).owner = .user n k ∨ ((s.bank d b).slot g j).owner = .saved n k then Slot.empty else (s.bank d b).slot g j) ∧
          ∃ z, t.task? n k = some z ∧ { z with ctx := y.ctx, isExported := y.isExported } = y ∧ z.isExported = true ∧
            z.ctx = y.ctx.map (fun c => s.exportContext c n k) ∧
            (∀ c e, look Place.closed (s.exportContext c n k).places e =
              match look Place.closed c.places e with
              | .slot j => .area (((s.slotOf c (e / 12) (e % 12) j).img).getD PaneImage.empty)
              | p => p)) ∧
            (∀ c b g j, g < 12 → j < 8 → look none (s.exportContext c n k).exported (b * 96 + g * 8 + j) =
              if b < c.seat.size ∧ j < 5 ∧ (s.slotOf c b g j).owner = .user n k then (s.slotOf c b g j).img else none) ∧
      (l.paused = true → (∀ y, s.task? n k = some y → y.st ≠ .saved ∨ y.isExported = false) → ends (.lcmdRetarget n k) 2) ∧
      (l.paused = true → ∀ y, s.task? n k = some y → y.st = .saved → y.isExported = true →
        let place := anchorSpot s n l y.record.anchor.toNat
        ((∃ d v, place = .bad d v) ∨ (∃ pa, place = .ok pa ∧ dramBank pa % 2 ^ y.record.sash ≠ 0) → ends (.lcmdRetarget n k) 3) ∧
        (∀ pa, place = .ok pa → dramBank pa % 2 ^ y.record.sash = 0 →
          exec (.lcmdRetarget n k) s = .next (((s.setTask n k { y with pa := pa, core := dramCore pa }).wakeFor { y with core := dramCore pa }).endCmd 0)) ∧
        (∀ w, place = .wait w → exec (.lcmdRetarget n k) s = .next { s with lctl := { s.lctl with cur := some (5, n, k) } }))) ∧
    (s.lctl.cur = none → still .lcmdComplete) ∧
    (s.lctl.cur = some (4, n, k) → exec .lcmdComplete s = exec (.lcmdExport n k) { s with lctl := { s.lctl with cur := none } }) ∧
    (s.lctl.cur = some (5, n, k) → exec .lcmdComplete s = exec (.lcmdRetarget n k) { s with lctl := { s.lctl with cur := none } }) ∧
    (∀ op, op ≠ 4 → op ≠ 5 → s.lctl.cur = some (op, n, k) →
      let stands : Prop := (∀ l, s.launch? n = some l → ∀ t ∈ l.tasks, ∀ y, t.2 = some y → y.st ≠ .running) ∧
        ∀ o ∈ s.ops, ¬(o.2.live = true ∧ o.2.launch = n ∧ o.2.core < 1536 ∧ o.2.kind.cls ≠ .ts ∧ o.2.st = .running)
      (stands → ends .lcmdComplete 0) ∧ (¬stands → still .lcmdComplete)) ∧
    ∀ (off : Nat) (v : BitVec 64),
      ((∃ p ∈ s.lctl.areas, p.2 ≠ none) → still (.ctxPoolWrite off v)) ∧
      ((∀ p ∈ s.lctl.areas, p.2 = none) →
        exec (.ctxPoolWrite 0x100 v) s = .next { s with lctl := { s.lctl with ctxBase := BitVec.ofNat 64 (v.toNat % 2 ^ 48 / 2 ^ 24 * 2 ^ 24) } } ∧
        exec (.ctxPoolWrite 0x108 v) s = .next { s with lctl := { s.lctl with ctxCount := v.toNat % 2 ^ 16 } } ∧
        (off ≠ 0x100 → off ≠ 0x108 → still (.ctxPoolWrite off v)))

/-- The events of R336-R338. `agreeing`: both signatures arrived, of one kind that is not 0, and equal; `homePa` and `shadowPa` are the home of
a granule and its place in the view (R329); `recordPa` is where the vote record lies; `rowsFor` says that the rows of its snapshot can be granted.
A replica is behind as a minority not yet re-synchronised, and rolls while its rollback waits for rows. -/
def Obligations.VotesCommitRollBackOrTrap : Prop :=
  ∀ (s : State) (l k : Nat) (y0 : Task), s.task? l k = some y0 →
    let vs := s.voters l k
    let still (e : Instr) : Prop := exec e s = .next s
    let red (t : State) (v : Voter) : Option Replica := (t.seat? v.core v.base).bind (·.red)
    let passes (t : State) (v : Voter) (first : Bool) : Prop :=
      red t v = some { v.red with hold := none, released := true, suspect := false, performer := first } ∧ (t.part v.agent).wait = none ∧ .issue v.agent ∈ t.agenda
    let commits (t : State) (x : Voter) : Prop :=
      let gs := x.red.dirty.filter (fun p => p.2 != 0)
      let home (g : Nat) : Nat := x.red.homePa (g * 64)
      let shadow (g : Nat) : Nat := x.red.shadowPa (g * 64)
      let places := gs.map (fun g => home g.1) ++ gs.map (fun g => shadow g.1)
      Memory.wf s = true → places.Nodup → (∀ a ∈ places, a % 64 = 0 ∧ (regionOf a = .dram ∨ regionOf a = .cap)) →
        (∀ g ∈ gs, ∀ b, b < 64 → t.peek (home g.1 + b) 1 = s.peek ((if g.2.getLsbD b then shadow g.1 else home g.1) + b) 1) ∧
        ∀ a, (∀ g ∈ gs, a < home g.1 ∨ home g.1 + 64 ≤ a) → t.peek a 1 = s.peek a 1
    let regs (t : State) (v : Voter) (z : Snapshot) : Prop := ∀ b ∈ v.seat.banks,
      let new := t.bank v.core b
      let old := look Bank.empty z.banks (b - v.base)
      (new.s, new.a, new.m, new.k, new.flags, new.hsp, new.ss0, new.ss1, new.claim) =
        (old.s, old.a, old.m, old.k, old.flags, old.hsp, old.ss0, old.ss1, old.claim)
    let traps (t : State) (v : Voter) (cause : BitVec 8) : Prop := ∃ u, t.seat? v.core v.base = some u ∧
      u.cause = cause ∧ u.tval = BitVec.ofNat 64 v.red.recordPa ∧ u.status.lvl = true ∧ u.status.hold = true ∧ u.status.cls = 3
    let released (t : State) (v : Voter) : Prop := ∀ p, look none (t.quad (v.core / 4)).rows p ≠ some (v.core, v.base)
    let alone (v : Voter) : Prop := v.red.dirty = [] ∧ ∀ o ∈ s.ops, o.2.live = false
    let rolled (t : State) (v : Voter) (z : Snapshot) (nothing : Prop) : Prop :=
      red t v = some { v.red with dirty := [], hold := none, released := false, performer := false, suspect := false, rolling := false, echoPos := 0 } ∧
      (∃ q, .issue ⟨v.core, v.base, q⟩ ∈ t.agenda) ∧ regs t v z ∧
      (∀ b ∈ v.seat.banks, (t.bank v.core b).debt = (s.bank v.core b).debt) ∧
      (∃ u, t.seat? v.core v.base = some u ∧
        (∀ q, u.part? q = (look none z.parts q).map (fun p =>
          { p with vl := (p.convoy.bind (·.cut)).getD p.vl, xidx := p.restartXidx, wait := none, convoy := none, got := [], picked := [], loaded := false
                   recs := [] })) ∧
        u.status = { z.status with rid := v.seat.status.rid, red := v.seat.status.red } ∧ u.rows.length = z.mg ∧
        (u.cause, u.epc, u.tval, u.tvec, u.handler, u.prio, u.lcap, u.bars, u.shape) =
          (z.cause, z.epc, z.tval, z.tvec, z.handler, z.prio, z.lcap, z.bars, z.shape)) ∧
      (nothing → ∀ b ∈ v.seat.banks, ∀ n, n < 12 →
        let p := (look Bank.empty z.banks (b - v.base)).pane n
        let held : Bool := p.isOpen || p.st == .opening
        (held = false → (t.bank v.core b).pane n = Pane.empty) ∧
        ∀ img, held = true → ((s.bank v.core b).slot n 6).img = some img →
          let st : PaneState := if img.dirty then .openDirty else .openClean
          (t.bank v.core b).pane n = ⟨st, st, img, 0, false, false, false, none⟩)
    let free (v : Voter) : Nat := ((List.range 128).filter (fun p =>
      let g := look none (s.quad (v.core / 4)).rows p
      g == none || g == some (v.core, v.base))).length
    let rolls (e : Instr) : Prop := ∃ t y, exec e s = .next t ∧ t.task? l k = some y ∧ y.runs = 1 ∧ t.log.votedis = s.log.votedis + 1 ∧
      ∀ v ∈ vs, ∀ z, v.red.snap = some z → (∃ q p, z.parts.head? = some (q, some p)) →
        (z.mg ≤ free v → (s.quad (v.core / 4)).save = [] → rolled t v z (∀ w ∈ vs, alone w)) ∧
        ((∀ o ∈ s.ops, o.2.live = false) → free v < z.mg →
          red t v = some { v.red with hold := none, released := false, performer := false, suspect := false, rolling := true } ∧ released t v)
    let decides (e : Instr) : Prop := (e = .vote l k ∧ ∀ v ∈ vs, v.red.hold ≠ none) ∨
      (e = .voteTimeout l k ∧ (∃ v ∈ vs, v.red.hold ≠ none) ∧ (∃ v ∈ vs, v.red.hold = none) ∧ ∀ v ∈ vs, v.red.hold ≠ none ∨ v.clocked = true)
    (s.voteHeld l k ≠ none → still (.vote l k) ∧ still (.voteTimeout l k)) ∧
    ((∀ v ∈ vs, v.red.behind = false ∧ v.red.rolling = false) → (∃ v ∈ vs, v.red.hold = none) ∨ vs.length ≠ y0.replicas.length → still (.vote l k)) ∧
    ((∀ v ∈ vs, v.red.hold ≠ none) ∨ (∀ v ∈ vs, v.red.hold = none) ∨ vs.length ≠ y0.replicas.length ∨ (∃ v ∈ vs, v.red.hold = none ∧
      (v.seat.handler ≠ none ∨ v.seat.phase ≠ .issuing ∨ (∃ q p pa, v.seat.part? q = some p ∧ p.wait = some (.moving pa)) ∨
        v.red.released = true ∨ v.red.behind = true ∨ v.red.rolling = true)) → still (.voteTimeout l k)) ∧
    (vs.Pairwise (fun a b => a.core / 4 ≠ b.core / 4 ∧ a.rid ≠ b.rid) → vs.length = y0.replicas.length → s.voteHeld l k = none →
      (∀ v ∈ vs, v.red.behind = false ∧ v.red.rolling = false) → ∀ p ∈ vs, (∀ v ∈ vs, v.red.lead = decide (v.rid = p.rid)) →
      ((∀ v ∈ vs, v.red.hold ≠ none) → (∀ v ∈ vs, ∀ w ∈ vs, v.rid ≠ w.rid → agreeing v w = true) →
        ∃ t, exec (.vote l k) s = .next t ∧ (∀ v ∈ vs, passes t v (decide (v.rid = p.rid))) ∧ t.task? l k = some { y0 with runs := 0 } ∧
          t.log = s.log ∧ commits t p) ∧
      (∀ e, decides e → 2 ≤ vs.length → (∀ v ∈ vs, ∀ w ∈ vs, v.rid ≠ w.rid → agreeing v w = false) →
        (y0.runs = 0 → rolls e) ∧
        (0 < y0.runs → p.seat.tvec ≠ 0 → p.seat.status.lvl = false → p.seat.isCC = false →
          ∃ t, exec e s = .next t ∧ traps t p 0x28 ∧
            (∀ v ∈ vs, v.rid ≠ p.rid → t.seat? v.core v.base = some { v.seat with red := some { v.red with suspect := false } }) ∧
            t.log.votedis = s.log.votedis + 1 ∧ t.log.mismatch = s.log.mismatch + 1 ∧ t.task? l k = some { y0 with runs := y0.runs + 1 })) ∧
      (∀ e, decides e → ∀ x y z, vs = [x, y, z] → x.rid < y.rid → y.rid < z.rid → ∀ a b m, (a, b, m) ∈ [(x, y, z), (x, z, y), (y, z, x)] →
        agreeing a b = true → agreeing a m = false →
        ∃ t, exec e s = .next t ∧ passes t a true ∧ passes t b false ∧ red t m = some { m.red with behind := true } ∧
          t.log.votedis = s.log.votedis + 1 ∧ t.task? l k = some { y0 with runs := 0 })) ∧
    (s.voteHeld l k = none → vs.find? (fun v => v.red.rolling && v.still && s.rowsFor v) = none →
      (∀ m, vs.find? (fun v => v.red.behind && !v.red.rolling && v.still) = some m →
        ((∀ v ∈ vs, v.red.behind = true ∨ v.red.released = true ∨ v.red.rolling = true) → still (.vote l k)) ∧
        ∀ p z, vs.find? (fun v => !v.red.behind && !v.red.released && !v.red.rolling) = some p → p.core ≠ m.core → p.red.snap = some z →
          ∃ t, exec (.vote l k) s = .next t ∧ released t m ∧
            red t m = some { m.red with
              dirty := p.red.dirty, echoLog := p.red.echoLog, echoPos := 0, snap := some { z with opAge := s.opAge }, hold := none, released := false
              performer := false, suspect := false, rolling := true } ∧
            (∀ b ∈ m.seat.banks, ∀ o n, b = m.base + o → o < p.seat.size → n < 12 →
              let x := (s.bank p.core (p.base + o)).slot n 6
              (t.bank m.core b).slot n 6 = { x with img := x.img.map (p.red.ownRow m.red) }) ∧
            (∀ i, i.bnd = false → p.red.ownRow m.red i = i) ∧
            ∀ i u w, i.bnd = true → p.red.view.find? (fun q => q.role != 4 && q.stripe == i.pa / 65536 * 65536) = some u →
              m.red.view.find? (fun q => q.page == u.page) = some w →
              p.red.ownRow m.red i = { i with pa := w.stripe + i.pa % 65536, row := BitVec.ofNat 8 (dramRow (w.stripe + i.pa % 65536)) })) ∧
    ∀ m z, s.voteHeld l k = none → vs.find? (fun v => v.red.rolling && v.still && s.rowsFor v) = some m → m.red.snap = some z →
      (m.red.behind = false → (∃ q p, z.parts.head? = some (q, some p)) → ∃ t, exec (.vote l k) s = .next t ∧ rolled t m z (alone m) ∧ t.log.votedis = s.log.votedis) ∧
      (m.red.behind = true → z.tvec ≠ 0 → z.status.lvl = false → m.seat.isCC = false →
        ∃ t, exec (.vote l k) s = .next t ∧ traps t m 0x29 ∧ regs t m z ∧ t.log.minority = s.log.minority + 1 ∧
          red t m = some { m.red with
            dirty := [], hold := none, released := false, performer := false, behind := false, suspect := false, rolling := false, echoPos := 0 })

/-- The events of R291, R292, R295 and R296. The bytes after a change into or out of CACHE are free (log 5); which page AUTO chooses is the
agenda's (log 1). -/
def Obligations.SramModesAndMigrations : Prop :=
  ∀ s : State,
    let still (e : Instr) : Prop := exec e s = .next s
    (∀ (q b : Nat) (mode : BitVec 2),
      let x := s.sram q b
      let sets (e : Instr) (y : SramBank) : Prop := ∃ t, exec e s = .next t ∧ { t with quads := s.quads, free := s.free, ahead := s.ahead } = s ∧ NoneAhead s t ∧
        (∀ c, { t.quad c with sram := (s.quad c).sram } = s.quad c) ∧ ∀ c d, t.sram c d = if c = q ∧ d = b then y else s.sram c d
      (mode = 3 ∨ mode = x.mode ∨ x.busy = true → still (.sramModeWrite q b mode)) ∧
      (mode ≠ 3 → mode ≠ x.mode → x.busy = false →
        (mode ≠ 0 → x.mode ≠ 0 → sets (.sramModeWrite q b mode) { x with mode := mode, busy := true }) ∧
        (mode = 0 ∨ x.mode = 0 → sets (.sramModeWrite q b mode)
          { mode := mode, busy := true, head := 0, tail := 0, count := 0, holder := x.holder, data := [], undef := s.free })) ∧
      (x.mode = 2 → sets (.sramFifoClr q b) { x with head := 0, tail := 0, count := 0 }) ∧
      (x.mode ≠ 2 → still (.sramFifoClr q b)) ∧
      (x.busy = true → sets (.sramModeChangeEnd q b) { x with busy := false }) ∧
      (x.busy = false → still (.sramModeChangeEnd q b))) ∧
    ∀ sill : Nat,
      let m := s.mig sill
      let place (a : Nat) : Prop := regionOf a = .dram ∨ (regionOf a = .cap ∧ ¬(0x1FE00000000 ≤ a))
      let becomes (t : State) (y : Migrator) : Prop := ∀ k, t.mig k = if k = sill then y else s.mig k
      (∀ (dir : Bool) (pte : BitVec 64),
        let e : Instr := if dir then .migreqDemote sill pte else .migreqPromote sill pte
        (m.queue.length < 64 → ∃ t, exec e s = .next t ∧ { t with migs := s.migs } = s ∧
          becomes t { m with queue := m.queue ++ [⟨dir, BitVec.ofNat 64 (pte.toNat % 2 ^ 48 / 8 * 8), m.tgt.toNat, false⟩] }) ∧
        (64 ≤ m.queue.length → still e)) ∧
      (m.cur ≠ none ∨ m.queue = [] ∨ migWait s sill ≠ none → still (.migrationStart sill)) ∧
      (∀ r rest, m.cur = none → m.queue = r :: rest → migWait s sill = none → r.auto = false →
        let e : Word := BitVec.ofNat 64 (s.peek r.pte.toNat 8)
        let src := ptePpn e
        let valid : Prop := pteV e = true ∧ pteLeaf e = true ∧ ptePeer e = 0 ∧ pteMv e = false ∧ (r.demote = false → s.bigEntry r.pte.toNat = false) ∧
          (if r.demote then regionOf r.frame = .cap ∧ ¬(0x1FE00000000 ≤ r.frame) ∧ regionOf src = .dram
           else regionOf r.frame = .dram ∧ regionOf src = .cap ∧ ¬(0x1FE00000000 ≤ src))
        let sameSg : Prop := src / 2 ^ 24 % 16 = r.frame / 2 ^ 24 % 16 ∧ (r.demote = false → s.outerEntry r.pte.toNat = false)
        let bound : Prop := s.boundPage src = true ∨ s.boundPage r.frame = true
        let stops (o : BitVec 8) : Prop := ∃ t, exec (.migrationStart sill) s = .next t ∧ { t with migs := s.migs } = s ∧
          becomes t { m with queue := rest, last := o }
        (¬valid → stops 1) ∧ (valid → ¬sameSg → stops 3) ∧ (valid → sameSg → bound → stops 2) ∧
        (valid → sameSg → ¬bound → Memory.wf s = true → r.pte.toNat % 8 = 0 → regionOf r.pte.toNat = .dram ∨ regionOf r.pte.toNat = .cap →
          ∃ t, exec (.migrationStart sill) s = .next t ∧
            { t with migs := s.migs, mem := s.mem, quads := s.quads, linked := s.linked, ahead := s.ahead } = s ∧ NoneAhead s t ∧ becomes t { m with queue := rest, cur := some r } ∧
            t.peek r.pte.toNat 8 = e.toNat ||| 2 ^ 48 ∧ (∀ a, a < r.pte.toNat ∨ r.pte.toNat + 8 ≤ a → t.peek a 1 = s.peek a 1) ∧
            (∀ q x, x ∈ (t.quad q).tlb ↔ x ∈ (s.quad q).tlb ∧ ¬(x.big = false ∧ ptePpn x.leaf = src)) ∧
            ∀ q, { t.quad q with tlb := (s.quad q).tlb } = s.quad q)) ∧
      (m.cur = none ∨ migWait s sill ≠ none → still (.migrationFinish sill)) ∧
      (∀ r, m.cur = some r → migWait s sill = none → r.auto = false → Memory.wf s = true → s.waits.posted = [] → heldAt s m.evt.toNat = none →
        let e : Word := BitVec.ofNat 64 (s.peek r.pte.toNat 8)
        let src := ptePpn e
        let evt := m.evt.toNat
        place src → place r.frame → src % 2 ^ 16 = 0 → r.frame % 2 ^ 16 = 0 → r.frame < 2 ^ 48 → src ≠ r.frame →
        r.pte.toNat % 8 = 0 → place r.pte.toNat → r.pte.toNat / 2 ^ 16 * 2 ^ 16 ≠ r.frame → r.pte.toNat / 2 ^ 16 * 2 ^ 16 ≠ src →
        evt % 8 = 0 → (evt = 0 ∨ place evt) → evt / 2 ^ 16 * 2 ^ 16 ≠ r.frame → evt ≠ r.pte.toNat →
        ∃ t, exec (.migrationFinish sill) s = .next t ∧ becomes t { m with cur := none, last := 0 } ∧
          (∀ k, k < 2 ^ 16 → t.peek (r.frame + k) 1 = s.peek (src + k) 1) ∧
          (∀ g, g < 1024 → t.poisonAt (r.frame + 64 * g) = s.poisonAt (src + 64 * g)) ∧
          t.peek r.pte.toNat 8 = (e.toNat % 2 ^ 16 + r.frame + e.toNat / 2 ^ 49 * 2 ^ 49) ∧
          (evt ≠ 0 → t.peek evt 8 = (s.peek evt 8 + 1) % 2 ^ 64) ∧
          (∀ a, (a < r.frame ∨ r.frame + 2 ^ 16 ≤ a) → (a < r.pte.toNat ∨ r.pte.toNat + 8 ≤ a) → (evt = 0 ∨ a < evt ∨ evt + 8 ≤ a) →
            t.peek a 1 = s.peek a 1) ∧
          (∀ c b, t.seat? c b = (s.seat? c b).map (fun u => { u with red := u.red.map (fun k =>
            { k with view := k.view.map (fun v => if v.role != 4 && v.home == src then { v with home := r.frame } else v) }) })) ∧
          ∀ x ∈ t.linked, x ∈ s.linked ∧ overlaps x.pa x.size src 65536 = false ∧ overlaps x.pa x.size r.frame 65536 = false) ∧
      ∀ (dir : Bool) (pte frame : BitVec 64),
        let e : Word := BitVec.ofNat 64 (s.peek (pte.toNat % 2 ^ 48 / 8 * 8) 8)
        let f := frame.toNat % 2 ^ 48 / 2 ^ 16 * 2 ^ 16
        let bit := if regionOf f = .dram then (f / 2 ^ 28 * 12 + f / 2 ^ 24 % 16) * 256 + f / 2 ^ 16 % 256 else 1536 * 12 * 256 + (f - 2 ^ 40) / 2 ^ 16
        let byte_ := m.free.toNat % 2 ^ 48 / 64 * 64 + bit / 8
        let h := m.heatOf (ptePpn e)
        let chosen : Prop := if dir then h.last + m.idleNs ≤ s.ns else h.win = s.ns / m.winNs ∧ 1 ≤ h.hits ∧ m.hot ≤ h.hits
        let takes : Prop := m.pol.getLsbD 0 = true ∧ chosen ∧ place f ∧ s.placeFree sill bit = true ∧ m.queue.length < 64 ∧
          (dir = true → s.boundPage (ptePpn e) = false)
        (s.waits.posted = [] → s.placeFree sill bit = (s.peek byte_ 1).testBit (bit % 8)) ∧
        (¬takes → still (.migrationAutoSelect sill dir pte frame)) ∧
        (takes → Memory.wf s = true → place byte_ → s.waits.posted = [] → heldAt s byte_ = none →
          ∃ t, exec (.migrationAutoSelect sill dir pte frame) s = .next t ∧
            becomes t { m with queue := m.queue ++ [⟨dir, BitVec.ofNat 64 (pte.toNat % 2 ^ 48 / 8 * 8), f, true⟩] } ∧
            t.peek byte_ 1 = s.peek byte_ 1 - 2 ^ (bit % 8) ∧ ∀ a, a ≠ byte_ → t.peek a 1 = s.peek a 1)

/-- The events of R384-R399, R412-R414 and R428. Counters: 0 FLITTX, 1 FLITRX, 2 CRCERR, 4 FECUNC, 5 REPLAYS, 6 PKTREP, 7 STRDEAD, 8 WIDCHG,
9 ACKTMO. HIGH and QUIET are told apart. The model's choices: the order of a flit's CRC bits and what it holds where it carries nothing, when a
receiver has deskewed (log 59), the group that answers (log 98), packets between stacks (log 99), which of several peers has been silent (log 106),
what a retrain keeps (log 29). -/
def Obligations.LinksCarryReplayDegradeAndFail : Prop :=
  ∀ (s : State) (l : Nat), LaunchesGoOn s →
    let x := s.link l
    let still (e : Instr) : Prop := exec e s = .next s
    let counts (t : State) (ks : List Nat) : Prop :=
      ∀ k, look 0 (t.link l).ctr k = if k ∈ ks then (look 0 x.ctr k + 1) % 2 ^ 64 else look 0 x.ctr k
    let linkIs (t : State) (y : Link) (ks : List Nat) : Prop :=
      { t.link l with ctr := x.ctr, high := x.high, quiet := x.quiet } = { y with ctr := x.ctr, high := x.high, quiet := x.quiet } ∧ counts t ks ∧
        ∀ m, m ≠ l → t.link m = s.link m
    let becomes (e : Instr) (y : Link) (ks : List Nat) : Prop := ∃ t, exec e s = .next t ∧ { t with links := s.links } = s ∧ linkIs t y ks
    let fits (bad : BitVec 16) (mw : BitVec 2) (w b : Nat) : Prop :=
      w ∈ [16, 8, 4, 2] ∧ w ≤ 16 / 2 ^ mw.toNat ∧ b % w = 0 ∧ b + w ≤ 16 ∧ ∀ k, b ≤ k → k < b + w → bad.getLsbD k = false
    let best (bad : BitVec 16) (mw : BitVec 2) (w b : Nat) : Prop :=
      fits bad mw w b ∧ ∀ v c, fits bad mw v c → v < w ∨ (v = w ∧ b ≤ c)
    let regrouped (y z : Link) (asked : Option (Nat × Nat)) : Prop := ∃ g : Nat × Nat,
      (∀ q, asked = some q → fits y.unusable y.maxw q.1 q.2 → g = q) ∧
      ((∀ q, asked = some q → ¬fits y.unusable y.maxw q.1 q.2) →
        (∀ w b, best y.unusable y.maxw w b → g = (w, b)) ∧ ((∀ w b, ¬fits y.unusable y.maxw w b) → g = (y.w, y.b))) ∧
      z = if g = (y.w, y.b) then { y with ann := none, redo := false } else { y with ann := some g }
    let fails (e : Instr) : Prop := ∃ t, exec e s = .next t ∧ (t.link l).st = (if x.dropping then .down else .failed) ∧ (t.link l).dropping = false ∧
      (t.link l).buf = [] ∧ s.log.seq < t.log.seq ∧
      (∀ p ∈ x.buf, s.liveHandle p.op = true → (s.opOf p.op).st = .running → (t.opOf p.op).st = .faulted ∧ (t.opOf p.op).cause = 0x41) ∧
      (x.dropping = false → ∀ n, (s.peer n).valid = true → (s.peer n).list = [l] → (t.peer n).failed = true)
    let takes (e : Instr) (y : Link) (ks : List Nat) : Prop := ∃ t, exec e s = .next t ∧ { t with links := s.links, free := s.free } = s ∧
      t.free = s.free + 1 ∧ linkIs t y ks
    let room := 512 - (s.rxq.filter (fun p => p.1 == l)).length
    let sends (g : Nat × Nat) (kind nf : BitVec 4) (seq : BitVec 16) (asks : Nat × Nat) (payload : BitVec 1920) : Option (BitVec 2048) :=
      some { kind := kind, nf := nf, nw := BitVec.ofNat 2 (codeOf g.1), nb := BitVec.ofNat 4 g.2, rq := x.rq != 0, seq := seq, ack := x.ackOut
             crd := BitVec.ofNat 16 room, wreqW := BitVec.ofNat 2 (codeOf asks.1), wreqB := BitVec.ofNat 4 asks.2, payload := payload : FlitFields }.bits
    let idle (g : Nat × Nat) : Option (BitVec 2048) := sends g 0 0 0 (16, 0) 0
    (∀ bad mw, (∀ w b, bestGroup bad mw = some (w, b) ↔ best bad mw w b) ∧ (bestGroup bad mw = none ↔ ∀ w b, ¬fits bad mw w b)) ∧
    (∀ y : Link, ∀ k, k < 16 → (y.barred.getLsbD k = true ↔
      y.txdead.getLsbD k = true ∨ y.park.getLsbD (k / 2) = true ∨ (y.napPark = true ∧ 2 ≤ k))) ∧
    (∀ f : FlitFields, flitFields f.bits = f ∧ f.bits.extractLsb' 2016 32 = crc32 (f.bits.setWidth 2016) ∧ f.bits.getLsbD 15 = false ∧
      f.bits.extractLsb' 70 26 = 0) ∧
    (∀ y : Link, ∀ k, k < 16 → (y.unusable.getLsbD k = true ↔
      y.txdead.getLsbD k = true ∨ (y.park ||| y.dark ||| y.waking).getLsbD (k / 2) = true ∨ (y.napPark = true ∧ 2 ≤ k))) ∧
    (x.st ≠ .up → still (.flitTransmit l) ∧ still (.ackTimeout l) ∧ still (.linkTimeout l) ∧ (∀ k, still (.strandDeath l k)) ∧ ∀ f, still (.flitReceive l f)) ∧
    (x.st = .up → x.evt = 0 → x.lqevt = 0 →
      let y : Link := { x with rq := x.rq - 1 }
      (x.ann = none →
        (∀ g, x.wreq = some g → x.flit = 0 → becomes (.flitTransmit l)
          { y with wreq := none, out := sends (x.w, x.b) 3 0 0 g (payloadOf [x.rxdead.setWidth 8, (x.rxdead >>> 8).setWidth 8]) } [0]) ∧
        (x.wreq = none ∨ x.flit ≠ 0 →
          (x.buf[x.pos]? = none ∨ (x.flit = 0 ∧ x.crd = 0) → becomes (.flitTransmit l) { y with out := idle (x.w, x.b) } [0]) ∧
          ∀ p, x.buf[x.pos]? = some p → x.flit ≠ 0 ∨ x.crd ≠ 0 →
            let header := (List.range 32).map (Config.packetHeader p.op p.seq p.dst p.bytes.length)
            becomes (.flitTransmit l)
              { y with
                maxSent := max x.maxSent (x.pos + 1), flit := if x.flit + 1 < p.flits then x.flit + 1 else 0
                pos := if x.flit + 1 < p.flits then x.pos else x.pos + 1
                out := sends (x.w, x.b) (if x.flit = 0 then 1 else 2) (BitVec.ofNat 4 (if x.flit = 0 then p.flits else x.flit)) p.seq (16, 0)
                  (payloadOf (((header ++ p.bytes).drop (240 * x.flit)).take 240)) }
              (if x.flit = 0 ∧ x.pos < x.maxSent then [0, 6] else [0]))) ∧
      (∀ g, x.ann = some g → x.wreq = none → x.buf = [] →
        becomes (.flitTransmit l) { y with w := g.1, b := g.2, ann := none, redo := false, out := idle g } [0, 8]) ∧
      (∀ g, x.ann = some g → x.wreq = none → x.buf[x.pos]? = none ∨ (x.flit = 0 ∧ x.crd = 0) → x.buf ≠ [] → x.redo = true →
        becomes (.flitTransmit l)
          { y with w := g.1, b := g.2, ann := none, redo := false, out := idle g, pos := 0, flit := 0, holdoff := some x.acked } [0, 8, 5]) ∧
      ∀ r : Flit,
        let e : Instr := .flitReceive l r
        let f := flitFields r.bytes
        let width := 16 / 2 ^ f.nw.toNat
        let damaged : Prop := crc32 (r.bytes.setWidth 2016) ≠ r.bytes.extractLsb' 2016 32 ∨ 3 < f.kind.toNat ∨ r.bytes.getLsbD 15 = true ∨
          r.bytes.extractLsb' 70 26 ≠ 0 ∨ (f.kind ≠ 3 ∧ r.bytes.extractLsb' 64 6 ≠ 0) ∨ ((f.kind = 0 ∨ f.kind = 3) ∧ (f.nf ≠ 0 ∨ f.seq ≠ 0)) ∨
          f.nb.toNat % width ≠ 0 ∨ (∃ u, u < 16 ∧ r.noise.getLsbD (r.b + u % r.w) = true) ∨
          ¬((x.rxw = r.w ∧ x.rxb = r.b) ∨ ((x.rxw = 0 ∨ Config.freeBool s.free = true) ∧ groupMask r.w r.b &&& x.rxdead = 0))
        let heldOff := match x.holdoff with | some h => if 1 ≤ (f.ack - h).toNat ∧ (f.ack - h).toNat ≤ 512 then none else some h | none => none
        let got : Link := { x with acked := f.ack, crd := f.crd.toNat, rxw := width, rxb := f.nb.toNat, holdoff := heldOff }
        let accepts (data : List (BitVec 1920)) : Prop :=
          let z : Link := { got with exp := x.exp + 1, rx := [], rxSeq := none, skipping := false }
          (l < 1024 → ∃ t, exec e s = .next t ∧ { t with links := s.links, rxq := s.rxq, free := s.free } = s ∧ t.rxq = s.rxq ++ [(l, data)] ∧
            linkIs t z [1]) ∧
          (1024 ≤ l → takes e { z with ackOut := x.exp } [1])
        (damaged → takes e { x with rq := x.rq + 1, skipping := true, rx := [], rxSeq := none } [1, 2]) ∧
        (¬damaged → x.dropping = false →
          (x.buf = [] →
            (f.kind = 0 → takes e got [1]) ∧
            (f.kind = 1 → f.seq = x.exp → f.nf = 1 → accepts [f.payload]) ∧
            (f.kind = 1 → f.seq = x.exp → 2 ≤ f.nf.toNat → f.nf.toNat ≤ 9 →
              takes e { got with rx := [f.payload], rxSeq := some (f.seq, f.nf.toNat), skipping := false } [1]) ∧
            (f.kind = 1 → f.seq ≠ x.exp ∨ f.nf = 0 ∨ 9 < f.nf.toNat → takes e { got with rx := [], rxSeq := none, skipping := true } [1]) ∧
            (∀ q n, f.kind = 2 → x.rxSeq = some (q, n) → x.skipping = false →
              (f.seq = q → f.nf.toNat = x.rx.length → x.rx.length + 1 = n → accepts (x.rx ++ [f.payload])) ∧
              (f.seq = q → f.nf.toNat = x.rx.length → x.rx.length + 1 ≠ n → takes e { got with rx := x.rx ++ [f.payload] } [1]) ∧
              (f.seq ≠ q ∨ f.nf.toNat ≠ x.rx.length → takes e { got with rx := [], rxSeq := none, skipping := true } [1])) ∧
            (f.kind = 2 → x.rxSeq = none ∨ x.skipping = true → takes e got [1]) ∧
            (f.kind = 3 → f.wreqB.toNat % (16 / 2 ^ f.wreqW.toNat) ≠ 0 → takes e got [1]) ∧
            (f.kind = 3 → f.wreqB.toNat % (16 / 2 ^ f.wreqW.toNat) = 0 →
              let dead := f.payload.extractLsb' 0 16
              let waves := wavesOf dead
              let y : Link := { got with
                txdead := dead, redo := x.redo || dead &&& ~~~x.txdead != 0, waking := x.waking &&& ~~~waves
                wakes := (x.wakes.map (fun k => k &&& ~~~waves)).filter (fun k => k != 0) }
              (∀ k, k < 8 → waves.getLsbD k = (dead.getLsbD (2 * k) || dead.getLsbD (2 * k + 1))) ∧
              ((∀ w b, ¬fits y.barred 0 w b) → l < 1024 → fails e) ∧
              (∀ w b, fits y.barred 0 w b → ∃ z, regrouped y z (some (16 / 2 ^ f.wreqW.toNat, f.wreqB.toNat)) ∧ takes e z [1]))) ∧
          (f.kind = 0 → f.rq = true → x.buf ≠ [] → (∀ p ∈ x.buf, 512 ≤ (f.ack - p.seq).toNat) →
            (heldOff = none → takes e { got with pos := 0, flit := 0, holdoff := some f.ack } [1, 5]) ∧ (heldOff ≠ none → takes e got [1])) ∧
          ∀ p rest, f.kind = 0 → f.rq = false → x.buf = p :: rest → (f.ack - p.seq).toNat < 512 →
            (∀ q, rest.head? = some q → 512 ≤ (f.ack - q.seq).toNat) →
            ∃ t, exec e s = .next t ∧
              linkIs t { got with buf := rest, pos := x.pos - 1, flit := if x.pos = 0 then 0 else x.flit, maxSent := x.maxSent - 1 } [1] ∧
              (l < 1024 → s.liveHandle p.op = true → (s.opOf p.op).st = .running →
                let o := s.opOf p.op
                let progress := match o.kind with | .coll .. => if o.outst = 1 then o.sent else o.progress | _ => p.done.getD o.progress
                let total := match o.kind, o.blk with
                  | .coll .., some b => b.count
                  | .cpy2d _ _ rows rb _ _ _, _ => if o.away then rows * rb else rows
                  | k, _ => k.total
                let after : ChildOp := { o with outst := o.outst - 1, progress := progress }
                (progress = total ∧ o.outst = 1 → (t.opOf p.op).st = .done) ∧
                (¬(progress = total ∧ o.outst - 1 = 0) →
                  (s.resting o = false → t.opOf p.op = after) ∧
                  (s.resting o = true → p.done.isSome = true → t.opOf p.op = { after with st := .paused, wait := none })))) ∧
        (¬damaged → x.dropping = true → f.kind = 0 → f.rq = false → x.buf.length = 1 → (∀ p ∈ x.buf, (f.ack - p.seq).toNat < 512) →
          ∃ t, exec e s = .next t ∧ (t.link l).st = .down ∧ (t.link l).dropping = false ∧ (t.link l).buf = [])) ∧
    (x.st = .up → x.buf = [] → still (.ackTimeout l) ∧ still (.linkTimeout l)) ∧
    (x.st = .up → x.buf ≠ [] → (x.lqevt = 0 → becomes (.ackTimeout l) { x with pos := 0, flit := 0, holdoff := some x.acked } [5, 9]) ∧
      (l < 1024 → fails (.linkTimeout l))) ∧
    (∀ k, x.st = .up → (16 ≤ k ∨ x.rxdead.getLsbD k = true → still (.strandDeath l k)) ∧
      (k < 16 → x.rxdead.getLsbD k = false →
        let dead := x.rxdead ||| (1 <<< k)
        ((∀ w b, ¬fits dead x.maxw w b) → l < 1024 → fails (.strandDeath l k)) ∧
        ∀ w b, best dead x.maxw w b → unwritable s x.evt.toNat = false → ∃ t, exec (.strandDeath l k) s = .next t ∧ Recorded s t 0x06 1 ∧ t.free = s.free ∧
          { t.link l with ctr := x.ctr } = { x with rxdead := dead, wreq := some (w, b), rxw := w, rxb := b } ∧ counts t [7])) ∧
    (∀ i, ((s.op i).live = false ∨ (s.op i).st ≠ .running ∨ memberSilence s (s.op i) = some false ∨ (memberSilence s (s.op i) = none ∧ s.opPeers i = []) →
        still (.peerTimeout i)) ∧
      ((s.op i).live = true → (s.op i).st = .running → (s.op i).gen = genOf ((s.op i).handle i) → entryOf ((s.op i).handle i) = i →
        (memberSilence s (s.op i) = some true →
          ∃ t, exec (.peerTimeout i) s = .next t ∧ (∀ m, t.peer m = s.peer m) ∧ (t.op i).st = .faulted ∧ (t.op i).cause = 0x41) ∧
        (memberSilence s (s.op i) = none → s.opPeers i ≠ [] → s.log.evt = 0 →
          ∃ t n, exec (.peerTimeout i) s = .next t ∧ n ∈ s.opPeers i ∧ (t.peer n).failed = true ∧ (t.op i).st = .faulted ∧ (t.op i).cause = 0x41)) ∧
      (∀ l' p, (s.links.find? (fun k => k.1 == l')).map (·.2) = some (s.link l') → p ∈ (s.link l').buf → p.op = (s.op i).handle i → p.peer ≠ 0 → p.peer ∈ s.opPeers i)) ∧
    (∀ (answered : Bool) (tx rx : BitVec 16),
      let e : Instr := .linkTrainingEnd l answered tx rx
      let y : Link := { x with txdead := tx, rxdead := rx }
      let works (w b : Nat) : Prop := answered = true ∧ (∃ w b, fits rx x.maxw w b) ∧ best y.barred x.maxw w b
      (x.st ≠ .training → still e) ∧
      (x.st = .training → (∀ w b, ¬works w b) → l < 1024 → fails e ∧
        ∃ t, exec e s = .next t ∧ (t.link l).txdead = tx ∧ (t.link l).rxdead = rx ∧ (t.link l).retest = x.retest) ∧
      (∀ w b, x.st = .training → works w b → x.dropping = false → x.evt = 0 → x.lqevt = 0 →
        let up : Link := { y with
          st := .up, w := w, b := b, ann := none, rxw := 0, rxb := 0, dark := x.dark &&& x.parked, waking := 0, wakes := [], halted := false
          retest := false, skipping := false, rx := [], rxSeq := none, redo := false }
        let wider : List Nat := if (w, b) = (x.w, x.b) then [] else [8]
        ∃ t, exec e s = .next t ∧ { t with links := s.links, log := s.log } = s ∧
          (x.retest = false ∨ (tx = 0 ∧ rx = 0) → t.log = s.log) ∧ (x.retest = true → ¬(tx = 0 ∧ rx = 0) → t.log.health ≠ 0) ∧
          (x.halted = false →
            linkIs t { up with next := 0, acked := BitVec.allOnes 16, exp := 0, ackOut := BitVec.allOnes 16 - BitVec.ofNat 16 (s.rxq.filter (fun p => p.1 == l)).length, buf := [], pos := 0
                               flit := 0, maxSent := 0, rq := 0, wreq := none, holdoff := none, crd := 0 } []) ∧
          (x.halted = true → x.retest = true ∨ x.buf = [] → linkIs t up wider) ∧
          (x.halted = true → x.retest = false → x.buf ≠ [] → linkIs t { up with pos := 0, flit := 0, holdoff := some x.acked } (wider ++ [5])))) ∧
    (isLink l = false → still (.lnkctlEnSet l)) ∧
    (Memory.wf s = true → s.waits.posted = [] → heldAt s x.evt.toNat = none → x.lqevt = 0 → isLink l = true → x.st = .down → x.evt.toNat % 8 = 0 →
      regionOf x.evt.toNat = .dram ∨ regionOf x.evt.toNat = .cap → x.evt ≠ 0 →
      ∃ t, exec (.lnkctlEnSet l) s = .next t ∧ linkIs t { x with en := true, dropping := false, halted := false, retest := false, st := .training } [] ∧
        t.peek x.evt.toNat 8 = (s.peek x.evt.toNat 8 + 1) % 2 ^ 64) ∧
    (x.evt = 0 → x.lqevt = 0 →
      (isLink l = true → x.st = .down →
        becomes (.lnkctlEnSet l) { x with en := true, dropping := false, halted := false, retest := false, st := .training } []) ∧
      (isLink l = true → x.st ≠ .down → becomes (.lnkctlEnSet l) { x with en := true, dropping := false } []) ∧
      (let leaves : Prop := (s.setLink l { x with st := .down }).lostPeers l = []
       let off : Link := { x with en := false, halted := false, retest := false, st := .down }
       (x.st = .up → x.buf = [] → leaves → becomes (.lnkctlEnClear l) { off with dropping := false } []) ∧
       (x.st = .down → becomes (.lnkctlEnClear l) off []) ∧
       (x.st = .failed ∨ (x.st = .training ∧ x.buf = []) → leaves → becomes (.lnkctlEnClear l) off [])) ∧
      (x.st = .up ∨ x.st = .training → x.buf = [] → ∀ n k, (s.peer n).valid = true → k < 128 → k ≠ l → (s.peer n).list = [min k l, max k l] →
        (s.link k).st = .failed → ∃ t, exec (.lnkctlEnClear l) s = .next t ∧ (t.link l).st = .down ∧ (t.peer n).failed = true) ∧
      (x.st = .training → x.buf ≠ [] → becomes (.lnkctlEnClear l) { x with en := false, dropping := true } []) ∧
      (x.st = .up → x.buf ≠ [] → becomes (.lnkctlEnClear l) { x with en := false, dropping := true } []) ∧
      (x.st = .up → becomes (.lnkctlRetrain l) { x with st := .training, halted := true, retest := true } []) ∧
      (x.st = .failed → becomes (.lnkctlRetrain l) { x with st := .training, halted := false, retest := true } [])) ∧
    (x.st = .down ∨ x.st = .training → still (.lnkctlRetrain l)) ∧
    (∀ v : BitVec 8, (128 ≤ l → still (.lnkctlParkWrite l v)) ∧
      (l < 128 →
        let park := v &&& 0xFE
        let was := x.parked
        let now : BitVec 8 := park ||| (if x.napPark then 0xFE else 0)
        let woken : BitVec 8 := was &&& ~~~now &&& (x.dark ||| ~~~wavesIn x.w x.b)
        let y : Link := { x with park := park, dark := x.dark ||| (x.waking &&& now), waking := x.waking &&& ~~~now
                                 wakes := (x.wakes.map (fun k => k &&& ~~~now)).filter (fun k => k != 0) }
        let z : Link := if woken = 0 then y else { y with waking := y.waking ||| woken, wakes := y.wakes ++ [woken] }
        (x.st ≠ .up → becomes (.lnkctlParkWrite l v) y []) ∧
        (∀ w b, x.st = .up → fits z.barred 0 w b → ∃ u, regrouped z u none ∧ becomes (.lnkctlParkWrite l v) u []) ∧
        (x.st = .up → (∀ w b, ¬fits z.barred 0 w b) → fails (.lnkctlParkWrite l v)))) ∧
    (x.wakes = [] → still (.wavelengthWakeEnd l)) ∧
    (∀ m rest, x.wakes = m :: rest →
      let y : Link := { x with dark := x.dark &&& ~~~m, waking := x.waking &&& ~~~m, wakes := rest }
      (x.st ≠ .up → becomes (.wavelengthWakeEnd l) y []) ∧
      (∀ w b, x.st = .up → fits y.barred 0 w b → ∃ u, regrouped y u none ∧ becomes (.wavelengthWakeEnd l) u [])) ∧
    (x.ann ≠ none → still (.wavelengthDark l)) ∧
    (x.ann = none → becomes (.wavelengthDark l) { x with dark := x.dark ||| (x.parked &&& ~~~wavesIn x.w x.b &&& ~~~x.waking) } []) ∧
    (∀ n, ((s.peer n).failed = false → still (.peerFailedClear n)) ∧
      ((s.peer n).failed = true → ∃ t, exec (.peerFailedClear n) s = .next t ∧ { t with peers := s.peers } = s ∧
        ∀ m, t.peer m = if m = n then { s.peer n with failed := false } else s.peer m)) ∧
    (let due : Prop := l < 128 ∧ x.hi ≠ 0 ∧ x.lo < x.hi ∧ x.idle ≠ 0 ∧ x.depth ≤ x.lo ∧ x.quiet = false
     (¬due → still (.lqQuiet l)) ∧ (due → ∃ t, exec (.lqQuiet l) s = .next t ∧ t.link l = { x with quiet := true } ∧ (x.lqevt = 0 → { t with links := s.links } = s))) ∧
    ∀ v : BitVec 64, (128 ≤ l → still (.lqcfgWrite l v)) ∧
      (l < 128 →
        let hi := v.toNat % 2 ^ 16
        let lo := v.toNat / 2 ^ 16 % 2 ^ 16
        ∃ t, exec (.lqcfgWrite l v) s = .next t ∧
          t.link l = { x with hi := hi, lo := lo, idle := v.toNat / 2 ^ 32 % 2 ^ 16, quiet := false, high := decide (hi ≠ 0 ∧ lo < hi ∧ hi ≤ x.depth) } ∧
          (∀ m, m ≠ l → t.link m = s.link m))

/-- The events of R402-R406, R423 and R424. `quiet` is the condition of R405, `panesBusy` a pane in transition or pinned. -/
def Obligations.PowerStatesAndThrottling : Prop :=
  ∀ s : State, LaunchesGoOn s →
    let still (e : Instr) : Prop := exec e s = .next s
    let tol := s.power.lattol.toNat
    let cores (t : State) : Prop := { t with cores := s.cores } = s
    let coreIs (e : Instr) (c : Nat) (y : Core) : Prop := ∃ t, exec e s = .next t ∧ cores t ∧ ∀ d, t.core d = if d = c then y else s.core d
    (∀ v : BitVec 64, ∃ t, exec (.lattolWrite v) s = .next t ∧
      { t with cores := s.cores, power := s.power } = s ∧ t.power = { s.power with lattol := v.setWidth 32 } ∧
      let new := v.toNat % 2 ^ 32
      ∀ c, { t.core c with waking := (s.core c).waking } = s.core c ∧
        ((t.core c).waking = true ↔ (s.core c).waking = true ∨ ((s.core c).power = .idle ∧ new < 19) ∨ ((s.core c).power = .doze ∧ new < 2000) ∨
          ∃ d, d / 192 = c / 192 ∧ (s.core d).power = .nap ∧ new < 60000)) ∧
    (∀ c : Nat,
      let x := s.core c
      let idle : Prop := c < 1536 ∧ x.power = .run ∧ 19 ≤ tol ∧ s.power.phase = 0 ∧ s.quiet c = true
      let doze : Prop := c < 1536 ∧ x.power = .idle ∧ x.waking = false ∧ 2000 ≤ tol ∧ s.power.phase = 0 ∧ s.quiet c = true ∧ x.panesBusy = false
      (¬idle → still (.coreIdleEntry c)) ∧ (idle → coreIs (.coreIdleEntry c) c { x with power := .idle }) ∧
      (¬doze → still (.coreDozeEntry c)) ∧
      (doze → ∃ t, exec (.coreDozeEntry c) s = .next t ∧ cores t ∧ (∀ d, d ≠ c → t.core d = s.core d) ∧
        { t.core c with banks := x.banks } = { x with power := .doze } ∧
        ∀ b, { t.bank c b with panes := (s.bank c b).panes, slots := (s.bank c b).slots } = s.bank c b ∧ ∀ n, n < 12 →
          let p := s.pane c b n
          let st : PaneState := if p.img.dirty then .openDirty else .openClean
          let parks : Prop := p.park = false ∧ (p.st = .openClean ∨ p.st = .openDirty)
          (parks → t.pane c b n = { p with st := st, after := st, park := true } ∧ ((t.bank c b).slot n 5).img = some p.img) ∧
          (¬parks → t.pane c b n = p ∧ (t.bank c b).slot n 5 = (s.bank c b).slot n 5) ∧
          ∀ k, k < 5 → (t.bank c b).slot n k = (s.bank c b).slot n k) ∧
      (1536 ≤ c → still (.powerWake c) ∧ still (.powerExitEnd c)) ∧
      (c < 1536 →
        (x.power = .run → still (.powerWake c)) ∧
        (x.power = .idle ∨ x.power = .doze → coreIs (.powerWake c) c { x with waking := true }) ∧
        (x.power = .nap → ∃ t, exec (.powerWake c) s = .next t ∧ cores t ∧
          ∀ d, t.core d = if d / 192 = c / 192 then { s.core d with waking := true } else s.core d) ∧
        (x.waking = false → still (.powerExitEnd c)) ∧
        (x.waking = true → x.power ≠ .nap → coreIs (.powerExitEnd c) c { x with power := .run, waking := false }) ∧
        (x.waking = true → x.power = .nap → ∃ t, exec (.powerExitEnd c) s = .next t ∧
          (∀ d, (t.core d).power = if d = c then .run else if d / 192 = c / 192 then .doze else (s.core d).power) ∧
          (∀ d, d / 192 = c / 192 → (t.core d).waking = (d != c && decide (tol < 2000))) ∧
          (∀ d b n, d / 192 = c / 192 → (t.bank d b).debtOf n = 0) ∧
          (∀ k, k < 8 → t.power.nap.getLsbD k = (s.power.nap.getLsbD k && k != c / 192)) ∧
          ∀ l, l / 16 = c / 192 → (t.link l).napPark = false))) ∧
    (∀ k : Nat,
      let sleeps : Prop := k < 8 ∧ 60000 ≤ tol ∧ s.power.phase = 0 ∧
        (∀ c, c / 192 = k → ((s.core c).power = .idle ∨ (s.core c).power = .doze) ∧ (s.core c).waking = false ∧ s.quiet c = true ∧
          (s.core c).panesBusy = false) ∧
        ∀ o ∈ s.ops, ¬(o.2.live = true ∧ o.2.st = .running ∧ o.2.kind.cls ≠ .ts ∧ sillOf o.2.core = k)
      (¬sleeps → still (.stackNapEntry k)) ∧
      (sleeps → ∃ t, exec (.stackNapEntry k) s = .next t ∧ (∀ c, (t.core c).power = if c / 192 = k then .nap else (s.core c).power) ∧
        (∀ j, j < 8 → t.power.nap.getLsbD j = (s.power.nap.getLsbD j || j == k)) ∧ (∀ l, l / 16 = k → (t.link l).napPark = true) ∧
        ∀ c b n, c / 192 = k → n < 12 → (s.pane c b n).st = .openClean ∨ (s.pane c b n).st = .openDirty → (t.pane c b n).park = true)) ∧
    (∀ (temps powers : List (Nat × Nat)) (watts : Nat), (temps.map (·.1)).Nodup →
      ∃ t, exec (.dutyUpdate temps powers watts) s = .next t ∧ { t with power := s.power } = s ∧ t.power.pmeas = watts ∧
        { t.power with pmeas := s.power.pmeas, temp := s.power.temp, tlogic := s.power.tlogic, tdram := s.power.tdram, duty := s.power.duty } = s.power ∧
        ∀ k, k < columns →
          let heat := look 0 t.power.temp k
          let d := s.power.dutyOf k
          (∀ v, (k, v) ∈ temps → heat = v) ∧ ((∀ v, (k, v) ∉ temps) → heat = look 0 s.power.temp k) ∧
          t.power.dutyOf k =
            if s.power.tmax < heat ∨ (s.power.limit < watts ∧ s.power.floor < d) then max 1 (d - 1)
            else if heat + 3 ≤ s.power.tmax ∧ 100 * watts < 97 * s.power.limit then min 64 (d + 1) else d) ∧
    (let above : Prop := 11 * s.power.limit < 10 * s.power.pmeas ∧ ∀ k, k < columns → s.power.dutyOf k ≤ s.power.floor
     (¬above → still .powerFloorTimeout) ∧
     (above → ∃ t, exec .powerFloorTimeout s = .next t ∧
       (s.power.threvt = 0 ∨ unwritable s s.power.threvt.toNat = false → Recorded s t 0x0D 1) ∧ (∀ k, k < columns → t.power.dutyOf k = max 1 (s.power.dutyOf k - 1)) ∧
       { t.power with duty := s.power.duty } = s.power ∧
       (s.power.threvt = 0 → { t with power := s.power, log := s.log } = s) ∧
       (Memory.wf s = true → s.waits.posted = [] → heldAt s s.power.threvt.toNat = none → s.power.threvt ≠ 0 → s.power.threvt.toNat % 8 = 0 → regionOf s.power.threvt.toNat = .dram ∨ regionOf s.power.threvt.toNat = .cap →
         t.peek s.power.threvt.toNat 8 = (s.peek s.power.threvt.toNat 8 + 1) % 2 ^ 64))) ∧
    ∀ (v : BitVec 64) (mgmt : Bool),
      let w := v.toNat % 2 ^ 16
      (s.power.lock = true → mgmt = false → still (.pcapWrite v mgmt)) ∧
      (s.power.lock = false ∨ mgmt = true → exec (.pcapWrite v mgmt) s = .next { s with power := { s.power with
        limit := if w < 1000 then 1000 else if 4000 < w then 4000 else w, lock := if mgmt then v.getLsbD 31 else s.power.lock } }) ∧
      exec (.thrFloorWrite v) s = .next { s with power := { s.power with
        tmax := v.toNat % 2 ^ 8, floor := if v.toNat / 2 ^ 8 % 2 ^ 6 = 0 then 1 else v.toNat / 2 ^ 8 % 2 ^ 6 } }

/-- The events of R408-R411 and R425. A trigger is stated where no stack is in NAP. The links and the order of reversal follow log 29. `back`
is the phase whose state is current in PHASE 7: a trigger enters again there. -/
def Obligations.ShutterSequenceAndResumption : Prop :=
  ∀ s : State, LaunchesGoOn s →
    let still (e : Instr) : Prop := exec e s = .next s
    let ph := s.power.phase
    let evt := s.power.evt.toNat
    let raises (awake t : State) : Prop := Memory.wf s = true → s.waits.posted = [] → heldAt awake evt = none → evt ≠ 0 → evt % 8 = 0 → regionOf evt = .dram ∨ regionOf evt = .cap →
      t.peek evt 8 = (s.peek evt 8 + 1) % 2 ^ 64
    let goesDown (t : State) (l : Nat) : Prop :=
      let x := s.link l
      { t.link l with high := x.high, quiet := x.quiet, ctr := x.ctr } = { x with
        st := .down, halted := true, retest := false, ann := none, rx := [], rxSeq := none
        out := if x.st = .up then some (x.flitOf 0 0 0 0 none 0).bits else x.out } ∧
      ∀ k, look 0 (t.link l).ctr k = if x.st = .up ∧ k = 0 then (look 0 x.ctr 0 + 1) % 2 ^ 64 else look 0 x.ctr k
    let begins (e : Instr) (src : BitVec 2) (out : List MgmtOut) : Prop :=
      (ph = 0 → (∀ c, (s.core c).power ≠ .nap) → ∃ t, exec e s = .next t ∧ { t with power := s.power, log := s.log, cores := s.cores, mgmtOut := s.mgmtOut } = s ∧
        t.mgmtOut = s.mgmtOut ++ out ∧ Recorded s t 0x0E 0 ∧
        t.power = { s.power with phase := 1, src := src, resume := none, dipped := decide (src = 1), steady := false } ∧
        (∀ c, c < 1536 → (t.core c).power = .run) ∧
        ∀ c, { t.core c with power := (s.core c).power, waking := (s.core c).waking } = s.core c) ∧
      (ph = 7 → ∃ t, exec e s = .next t ∧ { t with power := s.power, log := s.log, mgmtOut := s.mgmtOut } = s ∧ t.mgmtOut = s.mgmtOut ++ out ∧ Recorded s t 0x0E 0 ∧
        t.power = { s.power with phase := max 1 s.power.back, src := src, resume := none, dipped := decide (src = 1), steady := false })
    begins .pwrcmdShutter 3 [] ∧ begins .platformPowerEvent 1 [] ∧ begins .supplyDip 1 [] ∧ begins (.mgmtShutter 1) 2 [.done] ∧
    (ph ≠ 0 → ph ≠ 7 → (∀ e ∈ [Instr.pwrcmdShutter, .platformPowerEvent], still e) ∧
      exec (.mgmtShutter 1) s = .next { s with mgmtOut := s.mgmtOut ++ [.done] } ∧
      exec .supplyDip s = .next { s with power := { s.power with steady := false } }) ∧
    (∀ e ∈ [(Instr.pwrcmdResume, false, ([] : List MgmtOut)), (.pwrcmdResumeDiscard, true, []), (.mgmtShutter 2, false, [.done]), (.mgmtShutter 3, true, [.done])],
      let said := s.mgmtOut ++ e.2.2
      (1 ≤ ph → ph ≤ 5 → exec e.1 s = .next { s with power := { s.power with resume := some e.2.1 }, mgmtOut := said }) ∧
      (ph = 6 → exec e.1 s = .next { s with power := { s.power with phase := 7, back := 5, resume := some e.2.1 }, mgmtOut := said }) ∧
      (ph = 0 ∨ 7 ≤ ph → exec e.1 s = .next { s with mgmtOut := said })) ∧
    exec (.mgmtShutter 0) s = .next { s with mgmtOut := s.mgmtOut ++ [.refused] } ∧
    (s.power.dipped = false → still .supplySteady) ∧
    (s.power.dipped = true → exec .supplySteady s = .next { s with power := { s.power with steady := true } }) ∧
    exec .supplyFail s = .next { s with power := { s.power with off := true, lostAtOff := decide (ph ≠ 6) } } ∧
    (let due : Prop := ph = 6 ∧ s.power.auto = true ∧ s.power.dipped = true ∧ s.power.steady = true
     (¬due → still .autoResume) ∧ (due → exec .autoResume s = .next { s with power := { s.power with phase := 7, back := 5, resume := some false } })) ∧
    (ph ≠ 1 → still .shutterPhase1) ∧ (ph ≠ 2 → still .shutterPhase2) ∧ (ph ≠ 3 → still .shutterPhase3) ∧ (ph ≠ 4 → still .shutterPhase4) ∧
    (ph ≠ 5 → still .shutterPhase5) ∧ (ph ≠ 7 → still .resumptionEnd) ∧
    (ph = 1 → ∃ t, exec .shutterPhase1 s = .next t ∧ { t with cores := s.cores, linked := s.linked, power := s.power } = s ∧ t.linked = [] ∧
      t.power = { s.power with phase := 2 } ∧ (∀ c b, t.bank c b = s.bank c b) ∧
      ∀ c b u, s.seat? c b = some u → (u.isCC = true → t.seat? c b = some u) ∧
        (u.isCC = false → ∃ v, t.seat? c b = some v ∧ { v with parts := u.parts, red := u.red } = u ∧
          v.red = u.red.map (fun r => { r with hold := none }) ∧
          ∀ q, v.part? q = (u.part? q).map (fun p => { p with wait := none, got := [] }))) ∧
    (ph = 2 → ∃ t, exec .shutterPhase2 s = .next t ∧ { t with cores := s.cores, ops := s.ops, power := s.power } = s ∧
      t.power = { s.power with phase := 3 } ∧
      (∀ i, t.op i = if i ∈ s.opsWhere (fun o => o.st == .running && !o.kind.panes.isEmpty) ∧ (s.op i).st = .running
        then { s.op i with st := .paused, wait := none } else s.op i) ∧
      ∀ c b n, n < 12 →
        let p := s.pane c b n
        let y := t.pane c b n
        let st := if p.moving then p.after else p.st
        let img := if p.moving then p.next.getD p.img else p.img
        let open_ : Prop := st = .openClean ∨ st = .openDirty ∨ st = .writing
        { t.bank c b with panes := (s.bank c b).panes, slots := (s.bank c b).slots } = s.bank c b ∧
        (p.park = true → { y with pins := p.pins } = { p with busy := false } ∧ (t.bank c b).slot n 5 = (s.bank c b).slot n 5) ∧
        (p.park = false → p.moving = true → p.after = .closed → y = Pane.empty) ∧
        (p.park = false → open_ → y.park = true ∧ y.back = true ∧ y.img = img ∧ ((t.bank c b).slot n 5).img = some img)) ∧
    (ph = 3 → (s.inFlight = true → still .shutterPhase3) ∧
      (s.inFlight = false → ∃ t, exec .shutterPhase3 s = .next t ∧ { t with cores := s.cores, ops := s.ops, power := s.power } = s ∧
        t.power = { s.power with phase := 4 } ∧
        ∀ i, t.op i = if i ∈ s.opsWhere (fun o => o.kind.cls != .ts) ∧ (s.op i).st = .running then { s.op i with st := .paused, wait := none } else s.op i)) ∧
    (∀ i,
      let o := s.op i
      let due : Prop := ph = 3 ∧ o.live = true ∧ o.st = .running ∧ o.kind.cls ≠ .ts ∧ o.atBoundary = false
      (¬due → still (.shutterGranuleTimeout i)) ∧
      (due → ∃ t, exec (.shutterGranuleTimeout i) s = .next t ∧
        (let whole := match o.kind with | .gath .. => o.progress / 256 * 256 | .mdrain .. => o.progress / 128 * 128 | _ => o.progress
         let formed := match o.kind with | .cpy2d _ _ _ rb _ _ _ => if o.away then whole else whole * rb | .rsct .. => 2 * whole | _ => whole
         ∀ j, t.op j = if j = i then { o with st := .paused, wait := none, progress := whole, sent := formed } else s.op j) ∧
        (∀ l, { t.link l with buf := (s.link l).buf } = s.link l ∧
          (t.link l).buf = (s.link l).buf.map (fun p => if p.op = o.handle i then { p with done := none } else p)))) ∧
    (ph = 4 → (∀ l, (s.link l).evt = 0 ∧ (s.link l).lqevt = 0) →
      ∃ t, exec .shutterPhase4 s = .next t ∧ { t with links := s.links, power := s.power } = s ∧
        t.power = { s.power with phase := if t.linksStopped then 5 else 4 } ∧
        ∀ l,
          let x := s.link l
          (x.st = .training ∨ (x.st = .up ∧ x.buf = []) → goesDown t l) ∧
          (x.st = .up → x.buf ≠ [] → t.link l = { x with halted := true }) ∧ (x.st = .down ∨ x.st = .failed → t.link l = x)) ∧
    (∀ l,
      let x := s.link l
      let due : Prop := ph = 4 ∧ x.st = .up ∧ x.halted = true
      (¬due → still (.shutterLinkTimeout l)) ∧
      (due → ∃ t, exec (.shutterLinkTimeout l) s = .next t ∧ (∀ m, m ≠ l → t.link m = s.link m) ∧
        goesDown t l)) ∧
    (ph = 5 → ∃ t, exec .shutterPhase5 s = .next t ∧ raises s t ∧ (evt = 0 → { t with power := s.power } = s) ∧
      t.power = { s.power with phase := if s.power.resume = none then 6 else 7, back := 5 }) ∧
    (ph = 7 →
      let e : Instr := .resumptionEnd
      let back := s.power.back
      let discard := s.power.resume = some true
      let steps (t : State) (n : Nat) : Prop := exec e s = .next t ∧ t.power = { s.power with back := n }
      let kept (t : State) : Prop := { t with cores := s.cores, ops := s.ops, power := s.power } = s
      let goOn (t : State) (pinned : Bool) : Prop := ∀ i, t.op i =
        if i ∈ s.opsWhere (fun o => o.st == .paused && (pinned != o.kind.panes.isEmpty) && !s.opPaused o && !s.opSaved o)
        then { s.op i with st := .running, wait := none } else s.op i
      let waits : Prop := ∃ l ∈ s.links, l.2.halted = true ∧ ((l.2.en = true ∧ l.2.st = .down) ∨ l.2.st = .training)
      (back = 5 → ∃ t, steps t 4 ∧ kept t ∧ (∀ c, { t.core c with banks := (s.core c).banks } = s.core c) ∧
        ∀ c b, { t.bank c b with debt := (s.bank c b).debt } = s.bank c b ∧ ∀ n, (t.bank c b).debtOf n = 0) ∧
      (back = 4 → ¬waits → ∃ t, steps t 3 ∧ { t with power := s.power } = s) ∧
      (back = 4 → waits → ∃ t, steps t 4 ∧ ((∀ l, (s.link l).evt = 0) → { t with links := s.links } = s) ∧ ∀ l,
        let x := s.link l
        t.link l = if x.en = true ∧ x.st = .down ∧ x.halted = true then { x with st := .training } else x) ∧
      (back = 3 → ¬discard → ∃ t, steps t 2 ∧ kept t ∧ goOn t false ∧ ∀ c b, t.bank c b = s.bank c b) ∧
      (back = 3 → discard → ∃ t, steps t 2 ∧
        (∀ i, (t.op i).live = false) ∧ (∀ c b n k, k < 5 → (t.bank c b).slot n k = Slot.empty) ∧
        (∀ n l k y, s.launch? n = some l → t.task? n k = some y → y.st.terminal = true) ∧
        ((s.cores.map (·.1)).Nodup → ∀ c u, 1536 ≤ c → c < 1552 → (s.core c).seats = [(0, some u)] → u.isCC = true →
          t.seat? c 0 = some (if c = 1536 then u else { u with run := .held }))) ∧
      (back = 2 → ¬discard → ∃ t, steps t 1 ∧ kept t ∧ goOn t true ∧ ∀ c b n img, n < 12 →
        (s.pane c b n).park = true → (s.pane c b n).back = true → ((s.bank c b).slot n 5).img = some img →
        let st : PaneState := if img.dirty then .openDirty else .openClean
        ∃ pins, t.pane c b n = { s.pane c b n with st := st, after := st, img := img, park := false, back := false, pins := pins }) ∧
      (back = 2 → discard → ∃ t, steps t 1 ∧ { t with power := s.power } = s) ∧
      (back ≤ 1 → ∃ t, exec e s = .next t ∧ t.power = { s.power with phase := 0, back := 0, resume := none, dipped := false, steady := false } ∧
        s.log.seq < t.log.seq ∧ raises t t ∧ (∀ c b n, (t.bank c b).debtOf n = 0) ∧ t.ops = s.ops ∧ t.links = s.links))

/-- The events of the management port, boot and the control cores. The fuses that
no event gives are those of log 8; the image that comes to run is the boot's own (log 32). -/
def Obligations.FleetPortBootAndControlCores : Prop :=
  ∀ s : State,
    let still (e : Instr) : Prop := exec e s = .next s
    let sends (m : MgmtOut) : State := { s with mgmtOut := s.mgmtOut ++ [m] }
    let first := max s.log.exported (s.log.seq - 4096)
    let evt := s.log.evt.toNat
    let raises (t : State) : Prop := Memory.wf s = true → s.waits.posted = [] → heldAt s evt = none → evt % 8 = 0 → regionOf evt = .dram ∨ regionOf evt = .cap → t.peek evt 8 = (s.peek evt 8 + 1) % 2 ^ 64
    exec .mgmtTelemetry s = .next { sends .done with telemetry := true } ∧
    exec .telemetrySnapshot s = .next (if s.telemetry then sends (.snapshot s.ns s.log.health s.counters) else s) ∧
    (∃ out, exec .mgmtLogExport s = .next { s with mgmtOut := s.mgmtOut ++ out ++ [.done], log := { s.log with exported := s.log.seq } } ∧
      ((∀ n, first ≤ n → n < s.log.seq → ∃ r, look none s.log.recs (n % 4096) = some r) →
        out.length = s.log.seq - first ∧
        ∀ k r, k < s.log.seq - first → look none s.log.recs ((first + k) % 4096) = some r → out[k]? = some (.record r))) ∧
    (∀ image, exec (.mgmtFirmware image true) s = .next { sends .done with boot := { s.boot with inactive := some image } } ∧
      exec (.mgmtFirmware image false) s = .next (sends .refused)) ∧
    (∀ (w : BitVec 16) (lock : Bool), exec (.mgmtPowerCap w lock) s = .next { sends .done with power := { s.power with
      limit := if w.toNat < 1000 then 1000 else if 4000 < w.toNat then 4000 else w.toNat, lock := lock } }) ∧
    (s.power.phase = 6 → exec .mgmtOff s = .next { sends .done with power := { s.power with off := true, lostAtOff := false } }) ∧
    (s.power.phase ≠ 6 → exec .mgmtOff s = .next (sends .refused)) ∧
    (∀ pa n,
      let plain : Prop := ∀ k, k < n → regionOf (pa + k) = .dram ∨ (regionOf (pa + k) = .cap ∧ isRetention (pa + k) = false)
      let free : Prop := ∀ k, pa / 4096 * 4096 + 4096 * k < pa + n → heldAt s (pa / 4096 * 4096 + 4096 * k) = none
      let read : MgmtOut := .bytes pa ((List.range n).map (fun k => BitVec.ofNat 8 (s.peek (pa + k) 1)))
      (¬plain → exec (.mgmtMemoryRead pa n) s = .next (sends .refused)) ∧
      (plain → free → exec (.mgmtMemoryRead pa n) s = .next (sends read)) ∧
      (plain → ¬free → exec (.mgmtMemoryRead pa n) s = .next { s with waits := { s.waits with reads := s.waits.reads ++ [(pa, n)] } }) ∧
      ∀ rest, s.waits.reads = (pa, n) :: rest → s.power.off = false → s.waits.serving = [] → s.due = [] → s.waits.posted = [] → s.rxq = [] → free →
        step s = .next (s.noteArrivals { sends read with waits := { s.waits with reads := rest } })) ∧
    (∀ v : BitVec 64, ∃ t r, exec (.elpostAppend v) s = .next t ∧
      (evt = 0 ∨ r.sev.toNat < 2 ∨ unwritable s evt = false → t.log.seq = s.log.seq + 1) ∧
      look none t.log.recs (s.log.seq % 4096) = some r ∧ (s.log.evt = 0 ∨ r.sev.toNat < 2 → { t with log := s.log } = s) ∧
      (evt ≠ 0 → 2 ≤ r.sev.toNat → raises t) ∧
      let p : BitVec 512 := v ++ s.log.post.extractLsb' 0 448
      r.typ = 0x80 ||| p.extractLsb' 32 8 ∧ r.sev = p.extractLsb' 40 8 ∧ r.plane = 1 ∧ r.seq = s.log.seq % 2 ^ 32 ∧ r.time = s.ns ∧
        r.loc = p.extractLsb' 128 32 ∧ r.cause = p.extractLsb' 160 32 ∧ r.addr = p.extractLsb' 192 64 ∧ r.index = p.extractLsb' 256 64 ∧
        r.detail = p.extractLsb' 320 192) ∧
    (let health (t : State) : Prop :=
       let worst := if 48 ≤ t.quarCount (List.range 1536) ∨ (List.range 16).any (fun k => decide (8 < t.quarCount (upFrom (96 * k) 96))) = true then 2
         else if 0 < t.quarCount (List.range 1536) then 1 else 0
       t.log.health.toNat = max s.log.health.toNat worst
     (∀ c on, c < 1536 → (s.core c).quar = on → exec (.mgmtQuarantine c on) s = .next (sends .done)) ∧
     (∀ c on, 1536 ≤ c → exec (.mgmtQuarantine c on) s = .next (sends .refused)) ∧
     (∀ c on, c < 1536 → (s.core c).quar ≠ on → ∃ t, exec (.mgmtQuarantine c on) s = .next t ∧ { t with cores := s.cores, log := s.log } = sends .done ∧
       Recorded s t 0x10 0 ∧ health t ∧ ∀ d, t.core d = if d = c then { s.core d with quar := on } else s.core d) ∧
     ∀ (w : Nat) (v : BitVec 64), ∃ t, exec (.quarWrite w v) s = .next t ∧ { t with cores := s.cores, log := s.log } = s ∧
       (∀ d, t.core d = { s.core d with quar := (s.core d).quar || (decide (d < 1536 ∧ d / 64 = w) && v.getLsbD (d % 64)) }) ∧
       t.log.seq = s.log.seq + ((List.range 64).filter (fun b => decide (64 * w + b < 1536) && v.getLsbD b && !(s.core (64 * w + b)).quar)).length ∧
       (t.log.seq ≠ s.log.seq → health t)) ∧
    (let inOrder (k : Nat) : Prop := s.boot.step + 1 = k ∧ s.boot.failed = false
     let fails (e : Instr) : Prop := ∃ t, exec e s = .next t ∧ t.boot = { s.boot with failed := true } ∧ Recorded s t 0x0F 3 ∧
       t.mgmtOut = s.mgmtOut ++ [.notice 0x0F] ∧ t.log.health = (if s.log.health = 3 then 3 else 2) ∧
       (evt = 0 → { t with boot := s.boot, log := s.log, mgmtOut := s.mgmtOut } = s) ∧ (evt ≠ 0 → raises t)
     let fresh (t : State) (m : Nat) (entry : Word) : Prop :=
       t.core (1536 + m) = { s.core (1536 + m) with banks := [], seats := [(0, some (Seat.control m entry))] }
     let started (t : State) (m : Nat) (entry : Word) : Prop :=
       (s.seat? (1536 + m) 0 = none → fresh t m entry) ∧
       ∀ u, s.seat? (1536 + m) 0 = some u →
         (u.run = .held → fresh t m entry) ∧ (u.run = .running → t.core (1536 + m) = s.core (1536 + m)) ∧
         (u.run = .stopped → ∃ v, t.core (1536 + m) = { s.core (1536 + m) with seats := put (s.core (1536 + m)).seats 0 (some v) } ∧
           { v with parts := u.parts } = { u with run := .running, status := { u.status with lvl := true }, handler := none } ∧
           v.part? 0 = some { (u.part? 0).getD Part.empty with pc := entry, wait := none, begun := 0, convoy := none, entry := true, got := [] })
     (s.power.off = false → ¬inOrder 1 → still .powerOnReset) ∧
     (s.power.off = false → inOrder 1 → (s.boot.romBad = false → exec .powerOnReset s = .next { s with boot := { s.boot with step := 1 } }) ∧
       (s.boot.romBad = true → fails .powerOnReset)) ∧
     (s.power.off = true → s.boot.romBad = true → ∃ t, exec .powerOnReset s = .next t ∧ t.power.off = false ∧
       t.boot = { Boot.reset with failed := true, romBad := true, active := s.boot.inactive.getD s.boot.active } ∧
       t.mgmtOut = s.mgmtOut ++ [.notice 0x0F]) ∧
     (s.power.off = true → s.boot.romBad = false → ∃ t, exec .powerOnReset s = .next t ∧
       { t with log := ErrLog.empty } = { State.reset with
         agenda := s.agenda, free := s.free, mgmtOut := s.mgmtOut
         boot := { Boot.reset with step := 1, active := s.boot.inactive.getD s.boot.active } } ∧
       (s.power.lostAtOff = false → t.log = ErrLog.empty) ∧
       (s.power.lostAtOff = true → t.log.seq = s.log.seq + 1 ∧ t.log.exported = s.log.exported ∧ t.log.health = 2 ∧
         (∃ r, look none t.log.recs (s.log.seq % 4096) = some r ∧ r.typ = 0x11 ∧ r.sev = 3) ∧
         ∀ k, k ≠ s.log.seq % 4096 → look none t.log.recs k = look none s.log.recs k)) ∧
     (∀ fl ok, (¬inOrder 2 → still (.bootFirmwareLoad fl ok)) ∧
       (inOrder 2 → exec (.bootFirmwareLoad fl true) s = .next { s with boot := { s.boot with step := 2 } } ∧ fails (.bootFirmwareLoad fl false))) ∧
     (∀ fuses ok, ¬inOrder 3 → still (.bootSillInit fuses ok)) ∧
     (∀ fuses, inOrder 3 → fails (.bootSillInit fuses false) ∧
       ((fuses.map (·.1)).Nodup → ∃ h, exec (.bootSillInit fuses true) s = .next { s with harvest := h, boot := { s.boot with step := 3 } } ∧
         (∀ f ∈ fuses, f.1 < 1536 → ∀ d, look d h f.1 = f.2 &&& 0x1F1F7F) ∧
         ∀ d c, (1536 ≤ c ∨ c ∉ fuses.map (·.1)) → look d h c = look d s.harvest c)) ∧
     (∀ image, ¬inOrder 4 → still (.bootOsLoad image)) ∧ (inOrder 4 → fails (.bootOsLoad none)) ∧
     (∀ x : OsImage, inOrder 4 → ∃ t, exec (.bootOsLoad (some x)) s = .next t ∧
       { t with cores := s.cores, mem := s.mem, quads := s.quads, linked := s.linked, boot := s.boot, focus := s.focus, ahead := s.ahead } = s ∧ NoneAhead s t ∧
       t.boot = { s.boot with step := 4 } ∧ t.focus = ⟨1536, 0, 0⟩ ∧ started t 0 x.entry ∧ (∀ c, c ≠ 1536 → t.core c = s.core c) ∧
       (Memory.wf s = true → (∀ k, k < x.bytes.length → regionOf (x.base + k) = .dram ∨ regionOf (x.base + k) = .cap) →
         (∀ k, k < x.bytes.length → t.peek (x.base + k) 1 = (x.bytes[k]?.getD 0).toNat) ∧
         ∀ a, a < x.base ∨ x.base + x.bytes.length ≤ a → t.peek a 1 = s.peek a 1)) ∧
     (let late : Prop := s.boot.step = 4 ∧ s.boot.done = false ∧ s.boot.late = false
      (¬late → still .bootStep5Timeout) ∧
      (late → ∃ t, exec .bootStep5Timeout s = .next t ∧ t.boot = { s.boot with late := true } ∧ Recorded s t 0x0F 3 ∧
        t.mgmtOut = s.mgmtOut ++ [.notice 0x0F] ∧ (evt = 0 → { t with boot := s.boot, log := s.log, mgmtOut := s.mgmtOut } = s) ∧
        (evt ≠ 0 → raises t))) ∧
     (∀ mask : BitVec 16, ∃ t, exec (.ccstart mask) s = .next t ∧ { t with cores := s.cores } = s ∧
       (∀ m, m < 16 → mask.getLsbD m = true → started t m s.boot.entry) ∧
       ∀ c, (∀ m, m < 16 → mask.getLsbD m = true → c ≠ 1536 + m) → t.core c = s.core c)) ∧
    (∀ m entry,
      let v := Seat.control m entry
      v.isCC = true ∧ v.run = .running ∧ v.status.lvl = true ∧ v.tvec = 0 ∧ v.disp = m ∧ v.timecmp = BitVec.allOnes 64 ∧
        (v.part? 0).map (fun p => (p.pc, p.active)) = some (entry, 1)) ∧
    exec .ccbootDone s = .next { s with boot := { s.boot with done := true, step := if s.boot.step = 4 then 5 else s.boot.step } } ∧
    (∀ n (count : BitVec 16), (16 ≤ n → still (.ccbarCountWrite n count)) ∧
      (n < 16 → ∃ t, exec (.ccbarCountWrite n count) s = .next t ∧ { t with ccbars := s.ccbars } = s ∧
        ∀ k, let b := look CcBar.empty s.ccbars k
          look CcBar.empty t.ccbars k = if k = n then (if b.arrived = 0 then { b with count := count.toNat, next := none } else { b with next := some count.toNat }) else b)) ∧
    (∀ c : Nat,
      let a : Agent := ⟨c, 0, 0⟩
      let u := s.seat a
      let due : Prop := 1536 ≤ c ∧ u.isCC = true ∧ u.run = .running ∧ u.tvec ≠ 0 ∧ u.status.hold = false ∧ u.timecmp.toNat ≤ s.ns
      (¬due → still (.ccTimer c)) ∧
      (due → (s.part a).convoy = none → ∃ t, exec (.ccTimer c) s = .next t ∧ t.focus = s.focus ∧
        EntersHandler { s with focus := a } { t with focus := a } 0x38 4 0 (s.part a).pc (s.part a).xidx)) ∧
    ∀ (v : BitVec 64),
      exec (.registerWrite 0xFF0004000088 v) s = .next { s with boot := { s.boot with entry := v &&& 0x00FFFFFFFFFFFFFF } } ∧
      exec (.registerWrite 0xFF0005000010 v) s = .next { s with lctl := { s.lctl with evt := v &&& 0x0000FFFFFFFFFFF8 } } ∧
      exec (.registerWrite 0xFF0006000000 v) s = .next { s with selfNode := v.setWidth 32 } ∧
      exec (.registerWrite 0xFF0009000018 v) s = .next { s with power := { s.power with evt := v &&& 0x0000FFFFFFFFFFF8 } } ∧
      exec (.registerWrite 0xFF000A000018 v) s = .next { s with log := { s.log with evt := v &&& 0x0000FFFFFFFFFFF8 } } ∧
      (∀ pa, devReg (pa / 8 * 8) = none → still (.registerWrite pa v)) ∧
      (∀ k, k < 8 → still (.registerWrite (0xFF0003000000 + 8 * k) v))

/-- Nothing due, no agenda (log 1), no wait; the core is awake; no trap or pre-emption is taken at the boundary. An element instruction
needs CB: without it the head is a remainder (R104). -/
def Obligations.StepRunsTheDecodedInstruction : Prop :=
  let quiet (s : State) : Prop := s.power.off = false ∧ s.due = [] ∧ s.rxq = [] ∧ s.agenda = [] ∧ s.waits.serving = [] ∧ s.waits.posted = [] ∧
    s.waits.staging = [] ∧ s.waits.reads = []
  let ready (s : State) : Prop := quiet s ∧ s.mayIssue s.focus = true ∧ (s.core s.focus.core).power = .run ∧ s.fpart.wait = none
  let around (s : State) (r : Host.Outcome State Fault Refusal) : Host.Outcome State Fault Refusal :=
    match r with | .next t => .next (s.noteArrivals t) | r => r
  (∀ (s : State) (h : Head) (next : Word) (i : Instr),
    let p := s.fpart
    let c : Convoy :=
      { first := p.pc, elems := if isElement i then [(h.addr, i)] else [], todo := if isElement i then [] else [(h.addr, i)], next := next
        vl := p.vl, xidx := p.xidx, rm := p.rm, mask0 := (s.fbank s.seqBank).m, whole := headCb h.head, echo := (!headCb h.head && enclosingEcho s p.pc) || i == .echo, late := [], cut := none
        done := if headCb h.head then phaseTo (convoyOps s (if isElement i then [(h.addr, i)] else [])) else 0 }
    ready s → s.boundary s.focus = none → p.convoy = none → gatherAt s s.fctx p.pc p.entry = .ok [h] next → checkHead s h = .ok i →
    (headCb h.head = false → isElement i = false) →
    step s = around s (exec i ((s.fetched [h]).setPart s.focus { p with pc := if isElement i then p.pc else h.addr, entry := false, convoy := some c }))) ∧
  (∀ (s : State) (c : Convoy) (x : Word × Instr),
    ready s → s.fpart.convoy = some c → c.elems = [x] ∨ (c.elems = [] ∧ c.todo.head? = some x) → step s = around s (exec x.2 s)) ∧
  (∀ (s : State) (k : BitVec 8) (v : Word), ready s → s.boundary s.focus = none → s.fpart.convoy = none →
    let p := s.fpart
    let stops (k : BitVec 8) (v : Word) : Prop := ∃ t, step s = around s (.next t) ∧
      (s.fseat.isCC = false → s.fseat.tvec ≠ 0 → s.fseat.status.lvl = false → EntersHandler s t k (classOf k).toNat v p.pc p.xidx)
    (gatherAt s s.fctx p.pc p.entry = .trap k v → stops k v) ∧
    ∀ hs next, gatherAt s s.fctx p.pc p.entry = .ok hs next →
      (checkHeads s hs = .error (k, v) → stops k v) ∧
      ∀ is a, checkHeads s hs = .ok is → firstBreach [] is = some a → stops 0x02 a) ∧
  (∀ (s : State) (h : Head) (i : Instr),
    let t := s.fseat
    let ill : Word := h.y ++ h.head
    let user : Prop := t.status.lvl = false
    let stops (k : BitVec 8) (v : Word) : Prop := checkHead s h = .error (k, v)
    (∀ e, decodeEnc (encOfHead h.head h.y) = .error e → stops 0x01 ill) ∧
    (decodeEnc (encOfHead h.head h.y) = .ok i →
      (t.isCC = true → controlRuns (h.head.extractLsb' 6 7) i = false → stops 0x01 ill) ∧
      (t.isCC = false ∨ controlRuns (h.head.extractLsb' 6 7) i = true →
        (∀ f, i.tCode = some f → 12 < f.toNat → stops 0x01 (f.setWidth 64)) ∧
        ((∀ f, i.tCode = some f → f.toNat ≤ 12) →
          let checks : Option (BitVec 8 × Word) := (vinfo i).bind (fun v => v.check t (rmField i) s.fpart.rm s.fcsrTval ill (vstcBad i))
          (∀ k v, checks = some (k, v) → stops k v) ∧
          (checks = none → user → i = .claim ∨ i = .eret ∨ (∃ o, i = .launch o) ∨ (∃ a b, i = .tlbinv a b) → stops 0x04 0) ∧
          (checks = none → user → ∀ n k, i = .shut n k ∨ i = .reopen n k → 5 ≤ k.toNat → stops 0x04 (k.setWidth 64)) ∧
          (checks = none → user → ∀ d x, i = .getc d x ∨ i = .setc d x → ctlListed t.isCC x.toNat = true → ctlSuper x.toNat = true →
            (∀ d, i = .setc d x → ctlReadOnly x.toNat = false) → stops 0x04 (x.setWidth 64)) ∧
          (checks = none → t.status.lvl = true → t.isCC = false → t.handles s.fpart = true → t.status.clm = false →
            isElement i = true ∨ (unitClass i = some .en ∧ h.head.extractLsb' 6 7 ≠ 0x5C) ∨ (∃ n a, i = .act n a) ∨ (∃ n, i = .actz n) ∨ (∃ n, i = .wb n) → stops 0x01 ill))))) ∧
  (∀ s t : State, (∀ w ∈ t.waiters, ∀ c, w.1 ≠ .wake c) → ∃ order, s.noteArrivals t =
    { t with waits := { t.waits with arrivals := order }, lastAmo := if t.lastAmo = s.lastAmo then none else t.lastAmo }) ∧
  (∀ (s : State) (i : Instr) (e : Enc) (line pa : Nat),
    let p := s.fpart
    let pc : Word := BitVec.ofNat 64 (line + 2)
    let ws := encodeWords true i
    line % 64 = 0 → line < 2 ^ 56 → p.pc = pc → encode i = some e → i.formOk = true → fetchPa s s.fctx line = .ok pa →
    s.peek pa 2 = 2 → s.peek (pa + 2) 2 = (headOf true e).toNat → s.peek (pa + 4) 2 = 0x8000 →
    (∀ k, k < e.tl.toNat → s.peek (pa + 64 - 2 * e.tl.toNat + 2 * k) 2 = ((ws.drop 1)[k]?.getD 0).toNat) →
    (∀ j, 3 ≤ j → j < 32 - e.tl.toNat → s.peek (pa + 2 * j) 2 = 0) →
    gatherAt s s.fctx p.pc p.entry = .ok [⟨pc, headOf true e, e.y⟩] (pc + 2)) ∧
  ∀ (s : State) (i : Instr) (e : Enc) (a : Word) (cb : Bool),
    encode i = some e → i.formOk = true → (s.fseat.isCC = true → controlRuns e.op i = true) → (∀ t, i.tCode = some t → t.toNat ≤ 12) →
    (∀ v, vinfo i = some v → v.check s.fseat (rmField i) s.fpart.rm s.fcsrTval (illegalTval (headOf cb e) e.y) (vstcBad i) = none) →
    privilegeCheck s.fseat i = none → (unclaimed s.fseat s.fpart = false ∨ beforeClaim i = true) →
    checkHead s ⟨a, headOf cb e, e.y⟩ = .ok i
/-- The form of the memory (log 4) is kept by every arm of `exec`, by what register writes set off, and by the agenda's entries. -/
def Obligations.EveryStepKeepsTheMemoryCanonical : Prop :=
  ∀ s t : State, Memory.wf s = true → step s = .next t → Memory.wf t = true
/-- `encode` is none for the steps of the part, rows 270 to 389 of the table. A format code T that the element checks reject is still decoded
(R95 orders that check behind the fields). -/
def Obligations.DecodeOfEncodeIsTheInstruction : Prop :=
  (∀ (i : Instr) (e : Enc) (cb : Bool), encode i = some e → i.formOk = true →
    decodeEnc e = .ok i ∧ decodeWords (encodeWords cb i) = .ok i ∧ (encodeWords cb i).length = 1 + e.tl.toNat ∧
    ((encodeWords cb i).head?).map headCb = some cb) ∧
  (∀ (e : Enc) (i : Instr), decodeEnc e = .ok i → encode i = some e ∧ i.formOk = true) ∧
  ∀ (i j : Instr) (e : Enc), i.formOk = true → j.formOk = true → encode i = some e → encode j = some e → i = j
/-- Words: the head, then its tail parcels, the lowest first (R86). -/
def Obligations.WordsOfTheSpecDecode : Prop :=
  decodeWords [0x4489, 0x0040, 0x4800] = .ok (.addi 9 9 64) ∧
  decodeWords [0x4201, 0xFFFE, 0x603F] = .ok (.bNe 12 0 0x3FFFFE) ∧
  decodeWords [0xF602, 0x0002, 0xC400, 0x0225] = .ok (.cpy ⟨0, 2, 4, 2, 11, true, 1, false, 2⟩) ∧
  decodeWords [0xC509, 0x0010, 0x2200] = .ok (.ldAcqD 9 4 16) ∧
  decodeWords [0xA642, 0x0420] = .ok (.aset 2 1 0) ∧
  decodeWords [0xA5C0, 0x021B] = .ok (.push 16 27) ∧
  decodeWords [0xB002, 0x0000] = .ok (.act 2 0) ∧
  decodeWords [0xD204, 0x0000, 0x01C0] = .ok (.vadd ⟨0, 4, 0, 1, 12, 0, false, 0, 0, false, 0⟩) ∧
  decodeWords [0xD404, 0x0000, 0x20C4] = .ok (.vld ⟨0, 4, 1, 0, 12, 2, false, 0⟩) ∧
  decodeWords [0xE4CC, 0xCDEF, 0x89AB, 0x0000] = .ok (.li 12 0x89ABCDEF) ∧
  decodeWords [0x80C0] = .error .unassignedOpcode ∧
  decodeWords [0x2489, 0x0000] = .error .wrongTailLength ∧
  decodeWords [0x2400, 0xFC00] = .error .unassignedFunction ∧
  decodeWords [0x2420, 0x0000] = .error .fieldNotZero ∧
  decodeWords [0xB00C, 0x0000] = .error .fieldOutOfRange
/-- Values of the spec's reset columns, read through the registers' addresses; the choices of logs 3, 4 and 8 close the list. -/
def Obligations.ResetLeavesThePartBeforeBoot : Prop :=
  let s := State.reset
  let reg (pa v : Nat) : Prop := devDword s pa = v
  s.boot.step = 0 ∧ s.boot.done = false ∧ (∀ c b, s.seat? c b = none) ∧ (∀ a, s.mayIssue a = false) ∧ (∀ n, s.launch? n = none) ∧
  (∀ i, (s.op i).live = false) ∧ s.linked = [] ∧ s.ns = 0 ∧ s.telemetry = false ∧ s.due = [] ∧
  reg 0xFF0009000000 0 ∧ reg 0xFF0009000010 0 ∧ reg 0xFF0009000018 0 ∧ reg 0xFF0009000100 4000 ∧ reg 0xFF0009000108 0 ∧
  reg 0xFF0009000110 (95 + 16 * 256) ∧ reg 0xFF0009000118 0 ∧ reg 0xFF0009000120 0 ∧ reg 0xFF0009000128 (1 + 20 * 256) ∧
  (∀ l, l < 128 → reg (0xFF0008000000 + l * 256) 0 ∧ reg (0xFF0008000008 + l * 256) 0 ∧ reg (0xFF0008000010 + l * 256) 0xFFFF0000 ∧
    ∀ k, k < 10 → reg (0xFF0008000020 + l * 256 + 8 * k) 0) ∧
  (∀ n, 1 ≤ n → n < 256 → reg (0xFF0008008000 + 32 * n) 0) ∧
  reg 0xFF000A000000 0 ∧ reg 0xFF000A000008 0 ∧ reg 0xFF000A000010 0 ∧ reg 0xFF000A000018 0 ∧ reg 0xFF000A010028 0 ∧
  (∀ k, k < 4 → reg (0xFF000A010000 + 8 * k) 0) ∧ (∀ w, w < 24 → reg (0xFF000A010100 + 8 * w) 0) ∧
  reg 0xFF0005000008 0 ∧ reg 0xFF0005000010 0 ∧ reg 0xFF0005000100 0 ∧ reg 0xFF0005000108 0 ∧ reg 0xFF0005000110 0 ∧
  (∀ n, n < 16 → reg (0xFF0004000000 + 8 * n) 0) ∧ reg 0xFF0004000088 0 ∧ reg 0xFF0004000090 0 ∧ reg 0xFF0006000000 0 ∧
  (∀ q b, q < 384 → b < 32 → reg (0xFF0001000000 + q * 0x1000 + b * 8) 0) ∧
  Memory.wf s = true ∧
  (∀ a, regionOf a ≠ .sram → s.peek a 1 = 0) ∧ (∀ c b, (∀ n, (s.bank c b).rs n = 0) ∧ ∀ n, (s.bank c b).ra n = 0) ∧ (∀ k, s.power.dutyOf k = 64) ∧
  ∀ c, c < 1536 → reg (0xFF0003000000 + 8 * c) (c % 96 + 16 * 256 + c % 96 / 4 * 65536)
end

