-- ==== Sys2Proof/Laws/State.lean ====
section
/-! SUPPORT. Sys2Proof/Laws/State.lean: what each update leaves as it was, one lemma per field and update. -/

namespace Sys2Proof.Machine

@[simp] theorem State.setCore_quads (s : State) (c : Nat) (v : Core) : (s.setCore c v).quads = s.quads := rfl
@[simp] theorem State.setCore_mem (s : State) (c : Nat) (v : Core) : (s.setCore c v).mem = s.mem := rfl
@[simp] theorem State.setCore_poison (s : State) (c : Nat) (v : Core) : (s.setCore c v).poison = s.poison := rfl
@[simp] theorem State.setCore_linked (s : State) (c : Nat) (v : Core) : (s.setCore c v).linked = s.linked := rfl
@[simp] theorem State.setCore_ahead (s : State) (c : Nat) (v : Core) : (s.setCore c v).ahead = s.ahead := rfl
@[simp] theorem State.setCore_ops (s : State) (c : Nat) (v : Core) : (s.setCore c v).ops = s.ops := rfl
@[simp] theorem State.setCore_opAge (s : State) (c : Nat) (v : Core) : (s.setCore c v).opAge = s.opAge := rfl
@[simp] theorem State.setCore_launches (s : State) (c : Nat) (v : Core) : (s.setCore c v).launches = s.launches := rfl
@[simp] theorem State.setCore_taskAge (s : State) (c : Nat) (v : Core) : (s.setCore c v).taskAge = s.taskAge := rfl
@[simp] theorem State.setCore_links (s : State) (c : Nat) (v : Core) : (s.setCore c v).links = s.links := rfl
@[simp] theorem State.setCore_peers (s : State) (c : Nat) (v : Core) : (s.setCore c v).peers = s.peers := rfl
@[simp] theorem State.setCore_rxq (s : State) (c : Nat) (v : Core) : (s.setCore c v).rxq = s.rxq := rfl
@[simp] theorem State.setCore_migs (s : State) (c : Nat) (v : Core) : (s.setCore c v).migs = s.migs := rfl
@[simp] theorem State.setCore_groups (s : State) (c : Nat) (v : Core) : (s.setCore c v).groups = s.groups := rfl
@[simp] theorem State.setCore_selfNode (s : State) (c : Nat) (v : Core) : (s.setCore c v).selfNode = s.selfNode := rfl
@[simp] theorem State.setCore_ccbars (s : State) (c : Nat) (v : Core) : (s.setCore c v).ccbars = s.ccbars := rfl
@[simp] theorem State.setCore_harvest (s : State) (c : Nat) (v : Core) : (s.setCore c v).harvest = s.harvest := rfl
@[simp] theorem State.setCore_lctl (s : State) (c : Nat) (v : Core) : (s.setCore c v).lctl = s.lctl := rfl
@[simp] theorem State.setCore_log (s : State) (c : Nat) (v : Core) : (s.setCore c v).log = s.log := rfl
@[simp] theorem State.setCore_power (s : State) (c : Nat) (v : Core) : (s.setCore c v).power = s.power := rfl
@[simp] theorem State.setCore_boot (s : State) (c : Nat) (v : Core) : (s.setCore c v).boot = s.boot := rfl
@[simp] theorem State.setCore_mgmtOut (s : State) (c : Nat) (v : Core) : (s.setCore c v).mgmtOut = s.mgmtOut := rfl
@[simp] theorem State.setCore_telemetry (s : State) (c : Nat) (v : Core) : (s.setCore c v).telemetry = s.telemetry := rfl
@[simp] theorem State.setCore_ns (s : State) (c : Nat) (v : Core) : (s.setCore c v).ns = s.ns := rfl
@[simp] theorem State.setCore_free (s : State) (c : Nat) (v : Core) : (s.setCore c v).free = s.free := rfl
@[simp] theorem State.setCore_focus (s : State) (c : Nat) (v : Core) : (s.setCore c v).focus = s.focus := rfl
@[simp] theorem State.setCore_waits (s : State) (c : Nat) (v : Core) : (s.setCore c v).waits = s.waits := rfl
@[simp] theorem State.setCore_lastAmo (s : State) (c : Nat) (v : Core) : (s.setCore c v).lastAmo = s.lastAmo := rfl
@[simp] theorem State.setCore_due (s : State) (c : Nat) (v : Core) : (s.setCore c v).due = s.due := rfl
@[simp] theorem State.setCore_agenda (s : State) (c : Nat) (v : Core) : (s.setCore c v).agenda = s.agenda := rfl

@[simp] theorem State.modCore_quads (s : State) (c : Nat) (f : Core → Core) : (s.modCore c f).quads = s.quads := rfl
@[simp] theorem State.modCore_mem (s : State) (c : Nat) (f : Core → Core) : (s.modCore c f).mem = s.mem := rfl
@[simp] theorem State.modCore_poison (s : State) (c : Nat) (f : Core → Core) : (s.modCore c f).poison = s.poison := rfl
@[simp] theorem State.modCore_linked (s : State) (c : Nat) (f : Core → Core) : (s.modCore c f).linked = s.linked := rfl
@[simp] theorem State.modCore_ahead (s : State) (c : Nat) (f : Core → Core) : (s.modCore c f).ahead = s.ahead := rfl
@[simp] theorem State.modCore_ops (s : State) (c : Nat) (f : Core → Core) : (s.modCore c f).ops = s.ops := rfl
@[simp] theorem State.modCore_opAge (s : State) (c : Nat) (f : Core → Core) : (s.modCore c f).opAge = s.opAge := rfl
@[simp] theorem State.modCore_launches (s : State) (c : Nat) (f : Core → Core) : (s.modCore c f).launches = s.launches := rfl
@[simp] theorem State.modCore_taskAge (s : State) (c : Nat) (f : Core → Core) : (s.modCore c f).taskAge = s.taskAge := rfl
@[simp] theorem State.modCore_links (s : State) (c : Nat) (f : Core → Core) : (s.modCore c f).links = s.links := rfl
@[simp] theorem State.modCore_peers (s : State) (c : Nat) (f : Core → Core) : (s.modCore c f).peers = s.peers := rfl
@[simp] theorem State.modCore_rxq (s : State) (c : Nat) (f : Core → Core) : (s.modCore c f).rxq = s.rxq := rfl
@[simp] theorem State.modCore_migs (s : State) (c : Nat) (f : Core → Core) : (s.modCore c f).migs = s.migs := rfl
@[simp] theorem State.modCore_groups (s : State) (c : Nat) (f : Core → Core) : (s.modCore c f).groups = s.groups := rfl
@[simp] theorem State.modCore_selfNode (s : State) (c : Nat) (f : Core → Core) : (s.modCore c f).selfNode = s.selfNode := rfl
@[simp] theorem State.modCore_ccbars (s : State) (c : Nat) (f : Core → Core) : (s.modCore c f).ccbars = s.ccbars := rfl
@[simp] theorem State.modCore_harvest (s : State) (c : Nat) (f : Core → Core) : (s.modCore c f).harvest = s.harvest := rfl
@[simp] theorem State.modCore_lctl (s : State) (c : Nat) (f : Core → Core) : (s.modCore c f).lctl = s.lctl := rfl
@[simp] theorem State.modCore_log (s : State) (c : Nat) (f : Core → Core) : (s.modCore c f).log = s.log := rfl
@[simp] theorem State.modCore_power (s : State) (c : Nat) (f : Core → Core) : (s.modCore c f).power = s.power := rfl
@[simp] theorem State.modCore_boot (s : State) (c : Nat) (f : Core → Core) : (s.modCore c f).boot = s.boot := rfl
@[simp] theorem State.modCore_mgmtOut (s : State) (c : Nat) (f : Core → Core) : (s.modCore c f).mgmtOut = s.mgmtOut := rfl
@[simp] theorem State.modCore_telemetry (s : State) (c : Nat) (f : Core → Core) : (s.modCore c f).telemetry = s.telemetry := rfl
@[simp] theorem State.modCore_ns (s : State) (c : Nat) (f : Core → Core) : (s.modCore c f).ns = s.ns := rfl
@[simp] theorem State.modCore_free (s : State) (c : Nat) (f : Core → Core) : (s.modCore c f).free = s.free := rfl
@[simp] theorem State.modCore_focus (s : State) (c : Nat) (f : Core → Core) : (s.modCore c f).focus = s.focus := rfl
@[simp] theorem State.modCore_waits (s : State) (c : Nat) (f : Core → Core) : (s.modCore c f).waits = s.waits := rfl
@[simp] theorem State.modCore_lastAmo (s : State) (c : Nat) (f : Core → Core) : (s.modCore c f).lastAmo = s.lastAmo := rfl
@[simp] theorem State.modCore_due (s : State) (c : Nat) (f : Core → Core) : (s.modCore c f).due = s.due := rfl
@[simp] theorem State.modCore_agenda (s : State) (c : Nat) (f : Core → Core) : (s.modCore c f).agenda = s.agenda := rfl

@[simp] theorem State.setBank_quads (s : State) (c b : Nat) (v : Bank) : (s.setBank c b v).quads = s.quads := rfl
@[simp] theorem State.setBank_mem (s : State) (c b : Nat) (v : Bank) : (s.setBank c b v).mem = s.mem := rfl
@[simp] theorem State.setBank_poison (s : State) (c b : Nat) (v : Bank) : (s.setBank c b v).poison = s.poison := rfl
@[simp] theorem State.setBank_linked (s : State) (c b : Nat) (v : Bank) : (s.setBank c b v).linked = s.linked := rfl
@[simp] theorem State.setBank_ahead (s : State) (c b : Nat) (v : Bank) : (s.setBank c b v).ahead = s.ahead := rfl
@[simp] theorem State.setBank_ops (s : State) (c b : Nat) (v : Bank) : (s.setBank c b v).ops = s.ops := rfl
@[simp] theorem State.setBank_opAge (s : State) (c b : Nat) (v : Bank) : (s.setBank c b v).opAge = s.opAge := rfl
@[simp] theorem State.setBank_launches (s : State) (c b : Nat) (v : Bank) : (s.setBank c b v).launches = s.launches := rfl
@[simp] theorem State.setBank_taskAge (s : State) (c b : Nat) (v : Bank) : (s.setBank c b v).taskAge = s.taskAge := rfl
@[simp] theorem State.setBank_links (s : State) (c b : Nat) (v : Bank) : (s.setBank c b v).links = s.links := rfl
@[simp] theorem State.setBank_peers (s : State) (c b : Nat) (v : Bank) : (s.setBank c b v).peers = s.peers := rfl
@[simp] theorem State.setBank_rxq (s : State) (c b : Nat) (v : Bank) : (s.setBank c b v).rxq = s.rxq := rfl
@[simp] theorem State.setBank_migs (s : State) (c b : Nat) (v : Bank) : (s.setBank c b v).migs = s.migs := rfl
@[simp] theorem State.setBank_groups (s : State) (c b : Nat) (v : Bank) : (s.setBank c b v).groups = s.groups := rfl
@[simp] theorem State.setBank_selfNode (s : State) (c b : Nat) (v : Bank) : (s.setBank c b v).selfNode = s.selfNode := rfl
@[simp] theorem State.setBank_ccbars (s : State) (c b : Nat) (v : Bank) : (s.setBank c b v).ccbars = s.ccbars := rfl
@[simp] theorem State.setBank_harvest (s : State) (c b : Nat) (v : Bank) : (s.setBank c b v).harvest = s.harvest := rfl
@[simp] theorem State.setBank_lctl (s : State) (c b : Nat) (v : Bank) : (s.setBank c b v).lctl = s.lctl := rfl
@[simp] theorem State.setBank_log (s : State) (c b : Nat) (v : Bank) : (s.setBank c b v).log = s.log := rfl
@[simp] theorem State.setBank_power (s : State) (c b : Nat) (v : Bank) : (s.setBank c b v).power = s.power := rfl
@[simp] theorem State.setBank_boot (s : State) (c b : Nat) (v : Bank) : (s.setBank c b v).boot = s.boot := rfl
@[simp] theorem State.setBank_mgmtOut (s : State) (c b : Nat) (v : Bank) : (s.setBank c b v).mgmtOut = s.mgmtOut := rfl
@[simp] theorem State.setBank_telemetry (s : State) (c b : Nat) (v : Bank) : (s.setBank c b v).telemetry = s.telemetry := rfl
@[simp] theorem State.setBank_ns (s : State) (c b : Nat) (v : Bank) : (s.setBank c b v).ns = s.ns := rfl
@[simp] theorem State.setBank_free (s : State) (c b : Nat) (v : Bank) : (s.setBank c b v).free = s.free := rfl
@[simp] theorem State.setBank_focus (s : State) (c b : Nat) (v : Bank) : (s.setBank c b v).focus = s.focus := rfl
@[simp] theorem State.setBank_waits (s : State) (c b : Nat) (v : Bank) : (s.setBank c b v).waits = s.waits := rfl
@[simp] theorem State.setBank_lastAmo (s : State) (c b : Nat) (v : Bank) : (s.setBank c b v).lastAmo = s.lastAmo := rfl
@[simp] theorem State.setBank_due (s : State) (c b : Nat) (v : Bank) : (s.setBank c b v).due = s.due := rfl
@[simp] theorem State.setBank_agenda (s : State) (c b : Nat) (v : Bank) : (s.setBank c b v).agenda = s.agenda := rfl

@[simp] theorem State.modBank_quads (s : State) (c b : Nat) (f : Bank → Bank) : (s.modBank c b f).quads = s.quads := rfl
@[simp] theorem State.modBank_mem (s : State) (c b : Nat) (f : Bank → Bank) : (s.modBank c b f).mem = s.mem := rfl
@[simp] theorem State.modBank_poison (s : State) (c b : Nat) (f : Bank → Bank) : (s.modBank c b f).poison = s.poison := rfl
@[simp] theorem State.modBank_linked (s : State) (c b : Nat) (f : Bank → Bank) : (s.modBank c b f).linked = s.linked := rfl
@[simp] theorem State.modBank_ahead (s : State) (c b : Nat) (f : Bank → Bank) : (s.modBank c b f).ahead = s.ahead := rfl
@[simp] theorem State.modBank_ops (s : State) (c b : Nat) (f : Bank → Bank) : (s.modBank c b f).ops = s.ops := rfl
@[simp] theorem State.modBank_opAge (s : State) (c b : Nat) (f : Bank → Bank) : (s.modBank c b f).opAge = s.opAge := rfl
@[simp] theorem State.modBank_launches (s : State) (c b : Nat) (f : Bank → Bank) : (s.modBank c b f).launches = s.launches := rfl
@[simp] theorem State.modBank_taskAge (s : State) (c b : Nat) (f : Bank → Bank) : (s.modBank c b f).taskAge = s.taskAge := rfl
@[simp] theorem State.modBank_links (s : State) (c b : Nat) (f : Bank → Bank) : (s.modBank c b f).links = s.links := rfl
@[simp] theorem State.modBank_peers (s : State) (c b : Nat) (f : Bank → Bank) : (s.modBank c b f).peers = s.peers := rfl
@[simp] theorem State.modBank_rxq (s : State) (c b : Nat) (f : Bank → Bank) : (s.modBank c b f).rxq = s.rxq := rfl
@[simp] theorem State.modBank_migs (s : State) (c b : Nat) (f : Bank → Bank) : (s.modBank c b f).migs = s.migs := rfl
@[simp] theorem State.modBank_groups (s : State) (c b : Nat) (f : Bank → Bank) : (s.modBank c b f).groups = s.groups := rfl
@[simp] theorem State.modBank_selfNode (s : State) (c b : Nat) (f : Bank → Bank) : (s.modBank c b f).selfNode = s.selfNode := rfl
@[simp] theorem State.modBank_ccbars (s : State) (c b : Nat) (f : Bank → Bank) : (s.modBank c b f).ccbars = s.ccbars := rfl
@[simp] theorem State.modBank_harvest (s : State) (c b : Nat) (f : Bank → Bank) : (s.modBank c b f).harvest = s.harvest := rfl
@[simp] theorem State.modBank_lctl (s : State) (c b : Nat) (f : Bank → Bank) : (s.modBank c b f).lctl = s.lctl := rfl
@[simp] theorem State.modBank_log (s : State) (c b : Nat) (f : Bank → Bank) : (s.modBank c b f).log = s.log := rfl
@[simp] theorem State.modBank_power (s : State) (c b : Nat) (f : Bank → Bank) : (s.modBank c b f).power = s.power := rfl
@[simp] theorem State.modBank_boot (s : State) (c b : Nat) (f : Bank → Bank) : (s.modBank c b f).boot = s.boot := rfl
@[simp] theorem State.modBank_mgmtOut (s : State) (c b : Nat) (f : Bank → Bank) : (s.modBank c b f).mgmtOut = s.mgmtOut := rfl
@[simp] theorem State.modBank_telemetry (s : State) (c b : Nat) (f : Bank → Bank) : (s.modBank c b f).telemetry = s.telemetry := rfl
@[simp] theorem State.modBank_ns (s : State) (c b : Nat) (f : Bank → Bank) : (s.modBank c b f).ns = s.ns := rfl
@[simp] theorem State.modBank_free (s : State) (c b : Nat) (f : Bank → Bank) : (s.modBank c b f).free = s.free := rfl
@[simp] theorem State.modBank_focus (s : State) (c b : Nat) (f : Bank → Bank) : (s.modBank c b f).focus = s.focus := rfl
@[simp] theorem State.modBank_waits (s : State) (c b : Nat) (f : Bank → Bank) : (s.modBank c b f).waits = s.waits := rfl
@[simp] theorem State.modBank_lastAmo (s : State) (c b : Nat) (f : Bank → Bank) : (s.modBank c b f).lastAmo = s.lastAmo := rfl
@[simp] theorem State.modBank_due (s : State) (c b : Nat) (f : Bank → Bank) : (s.modBank c b f).due = s.due := rfl
@[simp] theorem State.modBank_agenda (s : State) (c b : Nat) (f : Bank → Bank) : (s.modBank c b f).agenda = s.agenda := rfl

@[simp] theorem State.setPane_quads (s : State) (c b n : Nat) (p : Pane) : (s.setPane c b n p).quads = s.quads := rfl
@[simp] theorem State.setPane_mem (s : State) (c b n : Nat) (p : Pane) : (s.setPane c b n p).mem = s.mem := rfl
@[simp] theorem State.setPane_poison (s : State) (c b n : Nat) (p : Pane) : (s.setPane c b n p).poison = s.poison := rfl
@[simp] theorem State.setPane_linked (s : State) (c b n : Nat) (p : Pane) : (s.setPane c b n p).linked = s.linked := rfl
@[simp] theorem State.setPane_ahead (s : State) (c b n : Nat) (p : Pane) : (s.setPane c b n p).ahead = s.ahead := rfl
@[simp] theorem State.setPane_ops (s : State) (c b n : Nat) (p : Pane) : (s.setPane c b n p).ops = s.ops := rfl
@[simp] theorem State.setPane_opAge (s : State) (c b n : Nat) (p : Pane) : (s.setPane c b n p).opAge = s.opAge := rfl
@[simp] theorem State.setPane_launches (s : State) (c b n : Nat) (p : Pane) : (s.setPane c b n p).launches = s.launches := rfl
@[simp] theorem State.setPane_taskAge (s : State) (c b n : Nat) (p : Pane) : (s.setPane c b n p).taskAge = s.taskAge := rfl
@[simp] theorem State.setPane_links (s : State) (c b n : Nat) (p : Pane) : (s.setPane c b n p).links = s.links := rfl
@[simp] theorem State.setPane_peers (s : State) (c b n : Nat) (p : Pane) : (s.setPane c b n p).peers = s.peers := rfl
@[simp] theorem State.setPane_rxq (s : State) (c b n : Nat) (p : Pane) : (s.setPane c b n p).rxq = s.rxq := rfl
@[simp] theorem State.setPane_migs (s : State) (c b n : Nat) (p : Pane) : (s.setPane c b n p).migs = s.migs := rfl
@[simp] theorem State.setPane_groups (s : State) (c b n : Nat) (p : Pane) : (s.setPane c b n p).groups = s.groups := rfl
@[simp] theorem State.setPane_selfNode (s : State) (c b n : Nat) (p : Pane) : (s.setPane c b n p).selfNode = s.selfNode := rfl
@[simp] theorem State.setPane_ccbars (s : State) (c b n : Nat) (p : Pane) : (s.setPane c b n p).ccbars = s.ccbars := rfl
@[simp] theorem State.setPane_harvest (s : State) (c b n : Nat) (p : Pane) : (s.setPane c b n p).harvest = s.harvest := rfl
@[simp] theorem State.setPane_lctl (s : State) (c b n : Nat) (p : Pane) : (s.setPane c b n p).lctl = s.lctl := rfl
@[simp] theorem State.setPane_log (s : State) (c b n : Nat) (p : Pane) : (s.setPane c b n p).log = s.log := rfl
@[simp] theorem State.setPane_power (s : State) (c b n : Nat) (p : Pane) : (s.setPane c b n p).power = s.power := rfl
@[simp] theorem State.setPane_boot (s : State) (c b n : Nat) (p : Pane) : (s.setPane c b n p).boot = s.boot := rfl
@[simp] theorem State.setPane_mgmtOut (s : State) (c b n : Nat) (p : Pane) : (s.setPane c b n p).mgmtOut = s.mgmtOut := rfl
@[simp] theorem State.setPane_telemetry (s : State) (c b n : Nat) (p : Pane) : (s.setPane c b n p).telemetry = s.telemetry := rfl
@[simp] theorem State.setPane_ns (s : State) (c b n : Nat) (p : Pane) : (s.setPane c b n p).ns = s.ns := rfl
@[simp] theorem State.setPane_free (s : State) (c b n : Nat) (p : Pane) : (s.setPane c b n p).free = s.free := rfl
@[simp] theorem State.setPane_focus (s : State) (c b n : Nat) (p : Pane) : (s.setPane c b n p).focus = s.focus := rfl
@[simp] theorem State.setPane_waits (s : State) (c b n : Nat) (p : Pane) : (s.setPane c b n p).waits = s.waits := rfl
@[simp] theorem State.setPane_lastAmo (s : State) (c b n : Nat) (p : Pane) : (s.setPane c b n p).lastAmo = s.lastAmo := rfl
@[simp] theorem State.setPane_due (s : State) (c b n : Nat) (p : Pane) : (s.setPane c b n p).due = s.due := rfl
@[simp] theorem State.setPane_agenda (s : State) (c b n : Nat) (p : Pane) : (s.setPane c b n p).agenda = s.agenda := rfl

@[simp] theorem State.setSeat?_quads (s : State) (c b : Nat) (v : Option Seat) : (s.setSeat? c b v).quads = s.quads := rfl
@[simp] theorem State.setSeat?_mem (s : State) (c b : Nat) (v : Option Seat) : (s.setSeat? c b v).mem = s.mem := rfl
@[simp] theorem State.setSeat?_poison (s : State) (c b : Nat) (v : Option Seat) : (s.setSeat? c b v).poison = s.poison := rfl
@[simp] theorem State.setSeat?_linked (s : State) (c b : Nat) (v : Option Seat) : (s.setSeat? c b v).linked = s.linked := rfl
@[simp] theorem State.setSeat?_ahead (s : State) (c b : Nat) (v : Option Seat) : (s.setSeat? c b v).ahead = s.ahead := rfl
@[simp] theorem State.setSeat?_ops (s : State) (c b : Nat) (v : Option Seat) : (s.setSeat? c b v).ops = s.ops := rfl
@[simp] theorem State.setSeat?_opAge (s : State) (c b : Nat) (v : Option Seat) : (s.setSeat? c b v).opAge = s.opAge := rfl
@[simp] theorem State.setSeat?_launches (s : State) (c b : Nat) (v : Option Seat) : (s.setSeat? c b v).launches = s.launches := rfl
@[simp] theorem State.setSeat?_taskAge (s : State) (c b : Nat) (v : Option Seat) : (s.setSeat? c b v).taskAge = s.taskAge := rfl
@[simp] theorem State.setSeat?_links (s : State) (c b : Nat) (v : Option Seat) : (s.setSeat? c b v).links = s.links := rfl
@[simp] theorem State.setSeat?_peers (s : State) (c b : Nat) (v : Option Seat) : (s.setSeat? c b v).peers = s.peers := rfl
@[simp] theorem State.setSeat?_rxq (s : State) (c b : Nat) (v : Option Seat) : (s.setSeat? c b v).rxq = s.rxq := rfl
@[simp] theorem State.setSeat?_migs (s : State) (c b : Nat) (v : Option Seat) : (s.setSeat? c b v).migs = s.migs := rfl
@[simp] theorem State.setSeat?_groups (s : State) (c b : Nat) (v : Option Seat) : (s.setSeat? c b v).groups = s.groups := rfl
@[simp] theorem State.setSeat?_selfNode (s : State) (c b : Nat) (v : Option Seat) : (s.setSeat? c b v).selfNode = s.selfNode := rfl
@[simp] theorem State.setSeat?_ccbars (s : State) (c b : Nat) (v : Option Seat) : (s.setSeat? c b v).ccbars = s.ccbars := rfl
@[simp] theorem State.setSeat?_harvest (s : State) (c b : Nat) (v : Option Seat) : (s.setSeat? c b v).harvest = s.harvest := rfl
@[simp] theorem State.setSeat?_lctl (s : State) (c b : Nat) (v : Option Seat) : (s.setSeat? c b v).lctl = s.lctl := rfl
@[simp] theorem State.setSeat?_log (s : State) (c b : Nat) (v : Option Seat) : (s.setSeat? c b v).log = s.log := rfl
@[simp] theorem State.setSeat?_power (s : State) (c b : Nat) (v : Option Seat) : (s.setSeat? c b v).power = s.power := rfl
@[simp] theorem State.setSeat?_boot (s : State) (c b : Nat) (v : Option Seat) : (s.setSeat? c b v).boot = s.boot := rfl
@[simp] theorem State.setSeat?_mgmtOut (s : State) (c b : Nat) (v : Option Seat) : (s.setSeat? c b v).mgmtOut = s.mgmtOut := rfl
@[simp] theorem State.setSeat?_telemetry (s : State) (c b : Nat) (v : Option Seat) : (s.setSeat? c b v).telemetry = s.telemetry := rfl
@[simp] theorem State.setSeat?_ns (s : State) (c b : Nat) (v : Option Seat) : (s.setSeat? c b v).ns = s.ns := rfl
@[simp] theorem State.setSeat?_free (s : State) (c b : Nat) (v : Option Seat) : (s.setSeat? c b v).free = s.free := rfl
@[simp] theorem State.setSeat?_focus (s : State) (c b : Nat) (v : Option Seat) : (s.setSeat? c b v).focus = s.focus := rfl
@[simp] theorem State.setSeat?_waits (s : State) (c b : Nat) (v : Option Seat) : (s.setSeat? c b v).waits = s.waits := rfl
@[simp] theorem State.setSeat?_lastAmo (s : State) (c b : Nat) (v : Option Seat) : (s.setSeat? c b v).lastAmo = s.lastAmo := rfl
@[simp] theorem State.setSeat?_due (s : State) (c b : Nat) (v : Option Seat) : (s.setSeat? c b v).due = s.due := rfl
@[simp] theorem State.setSeat?_agenda (s : State) (c b : Nat) (v : Option Seat) : (s.setSeat? c b v).agenda = s.agenda := rfl

@[simp] theorem State.setSeat_quads (s : State) (a : Agent) (v : Seat) : (s.setSeat a v).quads = s.quads := rfl
@[simp] theorem State.setSeat_mem (s : State) (a : Agent) (v : Seat) : (s.setSeat a v).mem = s.mem := rfl
@[simp] theorem State.setSeat_poison (s : State) (a : Agent) (v : Seat) : (s.setSeat a v).poison = s.poison := rfl
@[simp] theorem State.setSeat_linked (s : State) (a : Agent) (v : Seat) : (s.setSeat a v).linked = s.linked := rfl
@[simp] theorem State.setSeat_ahead (s : State) (a : Agent) (v : Seat) : (s.setSeat a v).ahead = s.ahead := rfl
@[simp] theorem State.setSeat_ops (s : State) (a : Agent) (v : Seat) : (s.setSeat a v).ops = s.ops := rfl
@[simp] theorem State.setSeat_opAge (s : State) (a : Agent) (v : Seat) : (s.setSeat a v).opAge = s.opAge := rfl
@[simp] theorem State.setSeat_launches (s : State) (a : Agent) (v : Seat) : (s.setSeat a v).launches = s.launches := rfl
@[simp] theorem State.setSeat_taskAge (s : State) (a : Agent) (v : Seat) : (s.setSeat a v).taskAge = s.taskAge := rfl
@[simp] theorem State.setSeat_links (s : State) (a : Agent) (v : Seat) : (s.setSeat a v).links = s.links := rfl
@[simp] theorem State.setSeat_peers (s : State) (a : Agent) (v : Seat) : (s.setSeat a v).peers = s.peers := rfl
@[simp] theorem State.setSeat_rxq (s : State) (a : Agent) (v : Seat) : (s.setSeat a v).rxq = s.rxq := rfl
@[simp] theorem State.setSeat_migs (s : State) (a : Agent) (v : Seat) : (s.setSeat a v).migs = s.migs := rfl
@[simp] theorem State.setSeat_groups (s : State) (a : Agent) (v : Seat) : (s.setSeat a v).groups = s.groups := rfl
@[simp] theorem State.setSeat_selfNode (s : State) (a : Agent) (v : Seat) : (s.setSeat a v).selfNode = s.selfNode := rfl
@[simp] theorem State.setSeat_ccbars (s : State) (a : Agent) (v : Seat) : (s.setSeat a v).ccbars = s.ccbars := rfl
@[simp] theorem State.setSeat_harvest (s : State) (a : Agent) (v : Seat) : (s.setSeat a v).harvest = s.harvest := rfl
@[simp] theorem State.setSeat_lctl (s : State) (a : Agent) (v : Seat) : (s.setSeat a v).lctl = s.lctl := rfl
@[simp] theorem State.setSeat_log (s : State) (a : Agent) (v : Seat) : (s.setSeat a v).log = s.log := rfl
@[simp] theorem State.setSeat_power (s : State) (a : Agent) (v : Seat) : (s.setSeat a v).power = s.power := rfl
@[simp] theorem State.setSeat_boot (s : State) (a : Agent) (v : Seat) : (s.setSeat a v).boot = s.boot := rfl
@[simp] theorem State.setSeat_mgmtOut (s : State) (a : Agent) (v : Seat) : (s.setSeat a v).mgmtOut = s.mgmtOut := rfl
@[simp] theorem State.setSeat_telemetry (s : State) (a : Agent) (v : Seat) : (s.setSeat a v).telemetry = s.telemetry := rfl
@[simp] theorem State.setSeat_ns (s : State) (a : Agent) (v : Seat) : (s.setSeat a v).ns = s.ns := rfl
@[simp] theorem State.setSeat_free (s : State) (a : Agent) (v : Seat) : (s.setSeat a v).free = s.free := rfl
@[simp] theorem State.setSeat_focus (s : State) (a : Agent) (v : Seat) : (s.setSeat a v).focus = s.focus := rfl
@[simp] theorem State.setSeat_waits (s : State) (a : Agent) (v : Seat) : (s.setSeat a v).waits = s.waits := rfl
@[simp] theorem State.setSeat_lastAmo (s : State) (a : Agent) (v : Seat) : (s.setSeat a v).lastAmo = s.lastAmo := rfl
@[simp] theorem State.setSeat_due (s : State) (a : Agent) (v : Seat) : (s.setSeat a v).due = s.due := rfl
@[simp] theorem State.setSeat_agenda (s : State) (a : Agent) (v : Seat) : (s.setSeat a v).agenda = s.agenda := rfl

@[simp] theorem State.modSeat_quads (s : State) (a : Agent) (f : Seat → Seat) : (s.modSeat a f).quads = s.quads := rfl
@[simp] theorem State.modSeat_mem (s : State) (a : Agent) (f : Seat → Seat) : (s.modSeat a f).mem = s.mem := rfl
@[simp] theorem State.modSeat_poison (s : State) (a : Agent) (f : Seat → Seat) : (s.modSeat a f).poison = s.poison := rfl
@[simp] theorem State.modSeat_linked (s : State) (a : Agent) (f : Seat → Seat) : (s.modSeat a f).linked = s.linked := rfl
@[simp] theorem State.modSeat_ahead (s : State) (a : Agent) (f : Seat → Seat) : (s.modSeat a f).ahead = s.ahead := rfl
@[simp] theorem State.modSeat_ops (s : State) (a : Agent) (f : Seat → Seat) : (s.modSeat a f).ops = s.ops := rfl
@[simp] theorem State.modSeat_opAge (s : State) (a : Agent) (f : Seat → Seat) : (s.modSeat a f).opAge = s.opAge := rfl
@[simp] theorem State.modSeat_launches (s : State) (a : Agent) (f : Seat → Seat) : (s.modSeat a f).launches = s.launches := rfl
@[simp] theorem State.modSeat_taskAge (s : State) (a : Agent) (f : Seat → Seat) : (s.modSeat a f).taskAge = s.taskAge := rfl
@[simp] theorem State.modSeat_links (s : State) (a : Agent) (f : Seat → Seat) : (s.modSeat a f).links = s.links := rfl
@[simp] theorem State.modSeat_peers (s : State) (a : Agent) (f : Seat → Seat) : (s.modSeat a f).peers = s.peers := rfl
@[simp] theorem State.modSeat_rxq (s : State) (a : Agent) (f : Seat → Seat) : (s.modSeat a f).rxq = s.rxq := rfl
@[simp] theorem State.modSeat_migs (s : State) (a : Agent) (f : Seat → Seat) : (s.modSeat a f).migs = s.migs := rfl
@[simp] theorem State.modSeat_groups (s : State) (a : Agent) (f : Seat → Seat) : (s.modSeat a f).groups = s.groups := rfl
@[simp] theorem State.modSeat_selfNode (s : State) (a : Agent) (f : Seat → Seat) : (s.modSeat a f).selfNode = s.selfNode := rfl
@[simp] theorem State.modSeat_ccbars (s : State) (a : Agent) (f : Seat → Seat) : (s.modSeat a f).ccbars = s.ccbars := rfl
@[simp] theorem State.modSeat_harvest (s : State) (a : Agent) (f : Seat → Seat) : (s.modSeat a f).harvest = s.harvest := rfl
@[simp] theorem State.modSeat_lctl (s : State) (a : Agent) (f : Seat → Seat) : (s.modSeat a f).lctl = s.lctl := rfl
@[simp] theorem State.modSeat_log (s : State) (a : Agent) (f : Seat → Seat) : (s.modSeat a f).log = s.log := rfl
@[simp] theorem State.modSeat_power (s : State) (a : Agent) (f : Seat → Seat) : (s.modSeat a f).power = s.power := rfl
@[simp] theorem State.modSeat_boot (s : State) (a : Agent) (f : Seat → Seat) : (s.modSeat a f).boot = s.boot := rfl
@[simp] theorem State.modSeat_mgmtOut (s : State) (a : Agent) (f : Seat → Seat) : (s.modSeat a f).mgmtOut = s.mgmtOut := rfl
@[simp] theorem State.modSeat_telemetry (s : State) (a : Agent) (f : Seat → Seat) : (s.modSeat a f).telemetry = s.telemetry := rfl
@[simp] theorem State.modSeat_ns (s : State) (a : Agent) (f : Seat → Seat) : (s.modSeat a f).ns = s.ns := rfl
@[simp] theorem State.modSeat_free (s : State) (a : Agent) (f : Seat → Seat) : (s.modSeat a f).free = s.free := rfl
@[simp] theorem State.modSeat_focus (s : State) (a : Agent) (f : Seat → Seat) : (s.modSeat a f).focus = s.focus := rfl
@[simp] theorem State.modSeat_waits (s : State) (a : Agent) (f : Seat → Seat) : (s.modSeat a f).waits = s.waits := rfl
@[simp] theorem State.modSeat_lastAmo (s : State) (a : Agent) (f : Seat → Seat) : (s.modSeat a f).lastAmo = s.lastAmo := rfl
@[simp] theorem State.modSeat_due (s : State) (a : Agent) (f : Seat → Seat) : (s.modSeat a f).due = s.due := rfl
@[simp] theorem State.modSeat_agenda (s : State) (a : Agent) (f : Seat → Seat) : (s.modSeat a f).agenda = s.agenda := rfl

@[simp] theorem State.setPart_quads (s : State) (a : Agent) (p : Part) : (s.setPart a p).quads = s.quads := rfl
@[simp] theorem State.setPart_mem (s : State) (a : Agent) (p : Part) : (s.setPart a p).mem = s.mem := rfl
@[simp] theorem State.setPart_poison (s : State) (a : Agent) (p : Part) : (s.setPart a p).poison = s.poison := rfl
@[simp] theorem State.setPart_linked (s : State) (a : Agent) (p : Part) : (s.setPart a p).linked = s.linked := rfl
@[simp] theorem State.setPart_ahead (s : State) (a : Agent) (p : Part) : (s.setPart a p).ahead = s.ahead := rfl
@[simp] theorem State.setPart_ops (s : State) (a : Agent) (p : Part) : (s.setPart a p).ops = s.ops := rfl
@[simp] theorem State.setPart_opAge (s : State) (a : Agent) (p : Part) : (s.setPart a p).opAge = s.opAge := rfl
@[simp] theorem State.setPart_launches (s : State) (a : Agent) (p : Part) : (s.setPart a p).launches = s.launches := rfl
@[simp] theorem State.setPart_taskAge (s : State) (a : Agent) (p : Part) : (s.setPart a p).taskAge = s.taskAge := rfl
@[simp] theorem State.setPart_links (s : State) (a : Agent) (p : Part) : (s.setPart a p).links = s.links := rfl
@[simp] theorem State.setPart_peers (s : State) (a : Agent) (p : Part) : (s.setPart a p).peers = s.peers := rfl
@[simp] theorem State.setPart_rxq (s : State) (a : Agent) (p : Part) : (s.setPart a p).rxq = s.rxq := rfl
@[simp] theorem State.setPart_migs (s : State) (a : Agent) (p : Part) : (s.setPart a p).migs = s.migs := rfl
@[simp] theorem State.setPart_groups (s : State) (a : Agent) (p : Part) : (s.setPart a p).groups = s.groups := rfl
@[simp] theorem State.setPart_selfNode (s : State) (a : Agent) (p : Part) : (s.setPart a p).selfNode = s.selfNode := rfl
@[simp] theorem State.setPart_ccbars (s : State) (a : Agent) (p : Part) : (s.setPart a p).ccbars = s.ccbars := rfl
@[simp] theorem State.setPart_harvest (s : State) (a : Agent) (p : Part) : (s.setPart a p).harvest = s.harvest := rfl
@[simp] theorem State.setPart_lctl (s : State) (a : Agent) (p : Part) : (s.setPart a p).lctl = s.lctl := rfl
@[simp] theorem State.setPart_log (s : State) (a : Agent) (p : Part) : (s.setPart a p).log = s.log := rfl
@[simp] theorem State.setPart_power (s : State) (a : Agent) (p : Part) : (s.setPart a p).power = s.power := rfl
@[simp] theorem State.setPart_boot (s : State) (a : Agent) (p : Part) : (s.setPart a p).boot = s.boot := rfl
@[simp] theorem State.setPart_mgmtOut (s : State) (a : Agent) (p : Part) : (s.setPart a p).mgmtOut = s.mgmtOut := rfl
@[simp] theorem State.setPart_telemetry (s : State) (a : Agent) (p : Part) : (s.setPart a p).telemetry = s.telemetry := rfl
@[simp] theorem State.setPart_ns (s : State) (a : Agent) (p : Part) : (s.setPart a p).ns = s.ns := rfl
@[simp] theorem State.setPart_free (s : State) (a : Agent) (p : Part) : (s.setPart a p).free = s.free := rfl
@[simp] theorem State.setPart_focus (s : State) (a : Agent) (p : Part) : (s.setPart a p).focus = s.focus := rfl
@[simp] theorem State.setPart_waits (s : State) (a : Agent) (p : Part) : (s.setPart a p).waits = s.waits := rfl
@[simp] theorem State.setPart_lastAmo (s : State) (a : Agent) (p : Part) : (s.setPart a p).lastAmo = s.lastAmo := rfl
@[simp] theorem State.setPart_due (s : State) (a : Agent) (p : Part) : (s.setPart a p).due = s.due := rfl
@[simp] theorem State.setPart_agenda (s : State) (a : Agent) (p : Part) : (s.setPart a p).agenda = s.agenda := rfl

@[simp] theorem State.modPart_quads (s : State) (a : Agent) (f : Part → Part) : (s.modPart a f).quads = s.quads := rfl
@[simp] theorem State.modPart_mem (s : State) (a : Agent) (f : Part → Part) : (s.modPart a f).mem = s.mem := rfl
@[simp] theorem State.modPart_poison (s : State) (a : Agent) (f : Part → Part) : (s.modPart a f).poison = s.poison := rfl
@[simp] theorem State.modPart_linked (s : State) (a : Agent) (f : Part → Part) : (s.modPart a f).linked = s.linked := rfl
@[simp] theorem State.modPart_ahead (s : State) (a : Agent) (f : Part → Part) : (s.modPart a f).ahead = s.ahead := rfl
@[simp] theorem State.modPart_ops (s : State) (a : Agent) (f : Part → Part) : (s.modPart a f).ops = s.ops := rfl
@[simp] theorem State.modPart_opAge (s : State) (a : Agent) (f : Part → Part) : (s.modPart a f).opAge = s.opAge := rfl
@[simp] theorem State.modPart_launches (s : State) (a : Agent) (f : Part → Part) : (s.modPart a f).launches = s.launches := rfl
@[simp] theorem State.modPart_taskAge (s : State) (a : Agent) (f : Part → Part) : (s.modPart a f).taskAge = s.taskAge := rfl
@[simp] theorem State.modPart_links (s : State) (a : Agent) (f : Part → Part) : (s.modPart a f).links = s.links := rfl
@[simp] theorem State.modPart_peers (s : State) (a : Agent) (f : Part → Part) : (s.modPart a f).peers = s.peers := rfl
@[simp] theorem State.modPart_rxq (s : State) (a : Agent) (f : Part → Part) : (s.modPart a f).rxq = s.rxq := rfl
@[simp] theorem State.modPart_migs (s : State) (a : Agent) (f : Part → Part) : (s.modPart a f).migs = s.migs := rfl
@[simp] theorem State.modPart_groups (s : State) (a : Agent) (f : Part → Part) : (s.modPart a f).groups = s.groups := rfl
@[simp] theorem State.modPart_selfNode (s : State) (a : Agent) (f : Part → Part) : (s.modPart a f).selfNode = s.selfNode := rfl
@[simp] theorem State.modPart_ccbars (s : State) (a : Agent) (f : Part → Part) : (s.modPart a f).ccbars = s.ccbars := rfl
@[simp] theorem State.modPart_harvest (s : State) (a : Agent) (f : Part → Part) : (s.modPart a f).harvest = s.harvest := rfl
@[simp] theorem State.modPart_lctl (s : State) (a : Agent) (f : Part → Part) : (s.modPart a f).lctl = s.lctl := rfl
@[simp] theorem State.modPart_log (s : State) (a : Agent) (f : Part → Part) : (s.modPart a f).log = s.log := rfl
@[simp] theorem State.modPart_power (s : State) (a : Agent) (f : Part → Part) : (s.modPart a f).power = s.power := rfl
@[simp] theorem State.modPart_boot (s : State) (a : Agent) (f : Part → Part) : (s.modPart a f).boot = s.boot := rfl
@[simp] theorem State.modPart_mgmtOut (s : State) (a : Agent) (f : Part → Part) : (s.modPart a f).mgmtOut = s.mgmtOut := rfl
@[simp] theorem State.modPart_telemetry (s : State) (a : Agent) (f : Part → Part) : (s.modPart a f).telemetry = s.telemetry := rfl
@[simp] theorem State.modPart_ns (s : State) (a : Agent) (f : Part → Part) : (s.modPart a f).ns = s.ns := rfl
@[simp] theorem State.modPart_free (s : State) (a : Agent) (f : Part → Part) : (s.modPart a f).free = s.free := rfl
@[simp] theorem State.modPart_focus (s : State) (a : Agent) (f : Part → Part) : (s.modPart a f).focus = s.focus := rfl
@[simp] theorem State.modPart_waits (s : State) (a : Agent) (f : Part → Part) : (s.modPart a f).waits = s.waits := rfl
@[simp] theorem State.modPart_lastAmo (s : State) (a : Agent) (f : Part → Part) : (s.modPart a f).lastAmo = s.lastAmo := rfl
@[simp] theorem State.modPart_due (s : State) (a : Agent) (f : Part → Part) : (s.modPart a f).due = s.due := rfl
@[simp] theorem State.modPart_agenda (s : State) (a : Agent) (f : Part → Part) : (s.modPart a f).agenda = s.agenda := rfl

@[simp] theorem State.setQuad_cores (s : State) (q : Nat) (v : Quad) : (s.setQuad q v).cores = s.cores := rfl
@[simp] theorem State.setQuad_mem (s : State) (q : Nat) (v : Quad) : (s.setQuad q v).mem = s.mem := rfl
@[simp] theorem State.setQuad_poison (s : State) (q : Nat) (v : Quad) : (s.setQuad q v).poison = s.poison := rfl
@[simp] theorem State.setQuad_linked (s : State) (q : Nat) (v : Quad) : (s.setQuad q v).linked = s.linked := rfl
@[simp] theorem State.setQuad_ahead (s : State) (q : Nat) (v : Quad) : (s.setQuad q v).ahead = s.ahead := rfl
@[simp] theorem State.setQuad_ops (s : State) (q : Nat) (v : Quad) : (s.setQuad q v).ops = s.ops := rfl
@[simp] theorem State.setQuad_opAge (s : State) (q : Nat) (v : Quad) : (s.setQuad q v).opAge = s.opAge := rfl
@[simp] theorem State.setQuad_launches (s : State) (q : Nat) (v : Quad) : (s.setQuad q v).launches = s.launches := rfl
@[simp] theorem State.setQuad_taskAge (s : State) (q : Nat) (v : Quad) : (s.setQuad q v).taskAge = s.taskAge := rfl
@[simp] theorem State.setQuad_links (s : State) (q : Nat) (v : Quad) : (s.setQuad q v).links = s.links := rfl
@[simp] theorem State.setQuad_peers (s : State) (q : Nat) (v : Quad) : (s.setQuad q v).peers = s.peers := rfl
@[simp] theorem State.setQuad_rxq (s : State) (q : Nat) (v : Quad) : (s.setQuad q v).rxq = s.rxq := rfl
@[simp] theorem State.setQuad_migs (s : State) (q : Nat) (v : Quad) : (s.setQuad q v).migs = s.migs := rfl
@[simp] theorem State.setQuad_groups (s : State) (q : Nat) (v : Quad) : (s.setQuad q v).groups = s.groups := rfl
@[simp] theorem State.setQuad_selfNode (s : State) (q : Nat) (v : Quad) : (s.setQuad q v).selfNode = s.selfNode := rfl
@[simp] theorem State.setQuad_ccbars (s : State) (q : Nat) (v : Quad) : (s.setQuad q v).ccbars = s.ccbars := rfl
@[simp] theorem State.setQuad_harvest (s : State) (q : Nat) (v : Quad) : (s.setQuad q v).harvest = s.harvest := rfl
@[simp] theorem State.setQuad_lctl (s : State) (q : Nat) (v : Quad) : (s.setQuad q v).lctl = s.lctl := rfl
@[simp] theorem State.setQuad_log (s : State) (q : Nat) (v : Quad) : (s.setQuad q v).log = s.log := rfl
@[simp] theorem State.setQuad_power (s : State) (q : Nat) (v : Quad) : (s.setQuad q v).power = s.power := rfl
@[simp] theorem State.setQuad_boot (s : State) (q : Nat) (v : Quad) : (s.setQuad q v).boot = s.boot := rfl
@[simp] theorem State.setQuad_mgmtOut (s : State) (q : Nat) (v : Quad) : (s.setQuad q v).mgmtOut = s.mgmtOut := rfl
@[simp] theorem State.setQuad_telemetry (s : State) (q : Nat) (v : Quad) : (s.setQuad q v).telemetry = s.telemetry := rfl
@[simp] theorem State.setQuad_ns (s : State) (q : Nat) (v : Quad) : (s.setQuad q v).ns = s.ns := rfl
@[simp] theorem State.setQuad_free (s : State) (q : Nat) (v : Quad) : (s.setQuad q v).free = s.free := rfl
@[simp] theorem State.setQuad_focus (s : State) (q : Nat) (v : Quad) : (s.setQuad q v).focus = s.focus := rfl
@[simp] theorem State.setQuad_waits (s : State) (q : Nat) (v : Quad) : (s.setQuad q v).waits = s.waits := rfl
@[simp] theorem State.setQuad_lastAmo (s : State) (q : Nat) (v : Quad) : (s.setQuad q v).lastAmo = s.lastAmo := rfl
@[simp] theorem State.setQuad_due (s : State) (q : Nat) (v : Quad) : (s.setQuad q v).due = s.due := rfl
@[simp] theorem State.setQuad_agenda (s : State) (q : Nat) (v : Quad) : (s.setQuad q v).agenda = s.agenda := rfl

@[simp] theorem State.setSram_cores (s : State) (q b : Nat) (v : SramBank) : (s.setSram q b v).cores = s.cores := rfl
@[simp] theorem State.setSram_mem (s : State) (q b : Nat) (v : SramBank) : (s.setSram q b v).mem = s.mem := rfl
@[simp] theorem State.setSram_poison (s : State) (q b : Nat) (v : SramBank) : (s.setSram q b v).poison = s.poison := rfl
@[simp] theorem State.setSram_linked (s : State) (q b : Nat) (v : SramBank) : (s.setSram q b v).linked = s.linked := rfl
@[simp] theorem State.setSram_ahead (s : State) (q b : Nat) (v : SramBank) : (s.setSram q b v).ahead = s.ahead := rfl
@[simp] theorem State.setSram_ops (s : State) (q b : Nat) (v : SramBank) : (s.setSram q b v).ops = s.ops := rfl
@[simp] theorem State.setSram_opAge (s : State) (q b : Nat) (v : SramBank) : (s.setSram q b v).opAge = s.opAge := rfl
@[simp] theorem State.setSram_launches (s : State) (q b : Nat) (v : SramBank) : (s.setSram q b v).launches = s.launches := rfl
@[simp] theorem State.setSram_taskAge (s : State) (q b : Nat) (v : SramBank) : (s.setSram q b v).taskAge = s.taskAge := rfl
@[simp] theorem State.setSram_links (s : State) (q b : Nat) (v : SramBank) : (s.setSram q b v).links = s.links := rfl
@[simp] theorem State.setSram_peers (s : State) (q b : Nat) (v : SramBank) : (s.setSram q b v).peers = s.peers := rfl
@[simp] theorem State.setSram_rxq (s : State) (q b : Nat) (v : SramBank) : (s.setSram q b v).rxq = s.rxq := rfl
@[simp] theorem State.setSram_migs (s : State) (q b : Nat) (v : SramBank) : (s.setSram q b v).migs = s.migs := rfl
@[simp] theorem State.setSram_groups (s : State) (q b : Nat) (v : SramBank) : (s.setSram q b v).groups = s.groups := rfl
@[simp] theorem State.setSram_selfNode (s : State) (q b : Nat) (v : SramBank) : (s.setSram q b v).selfNode = s.selfNode := rfl
@[simp] theorem State.setSram_ccbars (s : State) (q b : Nat) (v : SramBank) : (s.setSram q b v).ccbars = s.ccbars := rfl
@[simp] theorem State.setSram_harvest (s : State) (q b : Nat) (v : SramBank) : (s.setSram q b v).harvest = s.harvest := rfl
@[simp] theorem State.setSram_lctl (s : State) (q b : Nat) (v : SramBank) : (s.setSram q b v).lctl = s.lctl := rfl
@[simp] theorem State.setSram_log (s : State) (q b : Nat) (v : SramBank) : (s.setSram q b v).log = s.log := rfl
@[simp] theorem State.setSram_power (s : State) (q b : Nat) (v : SramBank) : (s.setSram q b v).power = s.power := rfl
@[simp] theorem State.setSram_boot (s : State) (q b : Nat) (v : SramBank) : (s.setSram q b v).boot = s.boot := rfl
@[simp] theorem State.setSram_mgmtOut (s : State) (q b : Nat) (v : SramBank) : (s.setSram q b v).mgmtOut = s.mgmtOut := rfl
@[simp] theorem State.setSram_telemetry (s : State) (q b : Nat) (v : SramBank) : (s.setSram q b v).telemetry = s.telemetry := rfl
@[simp] theorem State.setSram_ns (s : State) (q b : Nat) (v : SramBank) : (s.setSram q b v).ns = s.ns := rfl
@[simp] theorem State.setSram_free (s : State) (q b : Nat) (v : SramBank) : (s.setSram q b v).free = s.free := rfl
@[simp] theorem State.setSram_focus (s : State) (q b : Nat) (v : SramBank) : (s.setSram q b v).focus = s.focus := rfl
@[simp] theorem State.setSram_waits (s : State) (q b : Nat) (v : SramBank) : (s.setSram q b v).waits = s.waits := rfl
@[simp] theorem State.setSram_lastAmo (s : State) (q b : Nat) (v : SramBank) : (s.setSram q b v).lastAmo = s.lastAmo := rfl
@[simp] theorem State.setSram_due (s : State) (q b : Nat) (v : SramBank) : (s.setSram q b v).due = s.due := rfl
@[simp] theorem State.setSram_agenda (s : State) (q b : Nat) (v : SramBank) : (s.setSram q b v).agenda = s.agenda := rfl

@[simp] theorem State.setOp_cores (s : State) (i : Nat) (v : ChildOp) : (s.setOp i v).cores = s.cores := rfl
@[simp] theorem State.setOp_quads (s : State) (i : Nat) (v : ChildOp) : (s.setOp i v).quads = s.quads := rfl
@[simp] theorem State.setOp_mem (s : State) (i : Nat) (v : ChildOp) : (s.setOp i v).mem = s.mem := rfl
@[simp] theorem State.setOp_poison (s : State) (i : Nat) (v : ChildOp) : (s.setOp i v).poison = s.poison := rfl
@[simp] theorem State.setOp_linked (s : State) (i : Nat) (v : ChildOp) : (s.setOp i v).linked = s.linked := rfl
@[simp] theorem State.setOp_ahead (s : State) (i : Nat) (v : ChildOp) : (s.setOp i v).ahead = s.ahead := rfl
@[simp] theorem State.setOp_opAge (s : State) (i : Nat) (v : ChildOp) : (s.setOp i v).opAge = s.opAge := rfl
@[simp] theorem State.setOp_launches (s : State) (i : Nat) (v : ChildOp) : (s.setOp i v).launches = s.launches := rfl
@[simp] theorem State.setOp_taskAge (s : State) (i : Nat) (v : ChildOp) : (s.setOp i v).taskAge = s.taskAge := rfl
@[simp] theorem State.setOp_links (s : State) (i : Nat) (v : ChildOp) : (s.setOp i v).links = s.links := rfl
@[simp] theorem State.setOp_peers (s : State) (i : Nat) (v : ChildOp) : (s.setOp i v).peers = s.peers := rfl
@[simp] theorem State.setOp_rxq (s : State) (i : Nat) (v : ChildOp) : (s.setOp i v).rxq = s.rxq := rfl
@[simp] theorem State.setOp_migs (s : State) (i : Nat) (v : ChildOp) : (s.setOp i v).migs = s.migs := rfl
@[simp] theorem State.setOp_groups (s : State) (i : Nat) (v : ChildOp) : (s.setOp i v).groups = s.groups := rfl
@[simp] theorem State.setOp_selfNode (s : State) (i : Nat) (v : ChildOp) : (s.setOp i v).selfNode = s.selfNode := rfl
@[simp] theorem State.setOp_ccbars (s : State) (i : Nat) (v : ChildOp) : (s.setOp i v).ccbars = s.ccbars := rfl
@[simp] theorem State.setOp_harvest (s : State) (i : Nat) (v : ChildOp) : (s.setOp i v).harvest = s.harvest := rfl
@[simp] theorem State.setOp_lctl (s : State) (i : Nat) (v : ChildOp) : (s.setOp i v).lctl = s.lctl := rfl
@[simp] theorem State.setOp_log (s : State) (i : Nat) (v : ChildOp) : (s.setOp i v).log = s.log := rfl
@[simp] theorem State.setOp_power (s : State) (i : Nat) (v : ChildOp) : (s.setOp i v).power = s.power := rfl
@[simp] theorem State.setOp_boot (s : State) (i : Nat) (v : ChildOp) : (s.setOp i v).boot = s.boot := rfl
@[simp] theorem State.setOp_mgmtOut (s : State) (i : Nat) (v : ChildOp) : (s.setOp i v).mgmtOut = s.mgmtOut := rfl
@[simp] theorem State.setOp_telemetry (s : State) (i : Nat) (v : ChildOp) : (s.setOp i v).telemetry = s.telemetry := rfl
@[simp] theorem State.setOp_ns (s : State) (i : Nat) (v : ChildOp) : (s.setOp i v).ns = s.ns := rfl
@[simp] theorem State.setOp_free (s : State) (i : Nat) (v : ChildOp) : (s.setOp i v).free = s.free := rfl
@[simp] theorem State.setOp_focus (s : State) (i : Nat) (v : ChildOp) : (s.setOp i v).focus = s.focus := rfl
@[simp] theorem State.setOp_waits (s : State) (i : Nat) (v : ChildOp) : (s.setOp i v).waits = s.waits := rfl
@[simp] theorem State.setOp_lastAmo (s : State) (i : Nat) (v : ChildOp) : (s.setOp i v).lastAmo = s.lastAmo := rfl
@[simp] theorem State.setOp_due (s : State) (i : Nat) (v : ChildOp) : (s.setOp i v).due = s.due := rfl
@[simp] theorem State.setOp_agenda (s : State) (i : Nat) (v : ChildOp) : (s.setOp i v).agenda = s.agenda := rfl

@[simp] theorem State.modOp_cores (s : State) (i : Nat) (f : ChildOp → ChildOp) : (s.modOp i f).cores = s.cores := rfl
@[simp] theorem State.modOp_quads (s : State) (i : Nat) (f : ChildOp → ChildOp) : (s.modOp i f).quads = s.quads := rfl
@[simp] theorem State.modOp_mem (s : State) (i : Nat) (f : ChildOp → ChildOp) : (s.modOp i f).mem = s.mem := rfl
@[simp] theorem State.modOp_poison (s : State) (i : Nat) (f : ChildOp → ChildOp) : (s.modOp i f).poison = s.poison := rfl
@[simp] theorem State.modOp_linked (s : State) (i : Nat) (f : ChildOp → ChildOp) : (s.modOp i f).linked = s.linked := rfl
@[simp] theorem State.modOp_ahead (s : State) (i : Nat) (f : ChildOp → ChildOp) : (s.modOp i f).ahead = s.ahead := rfl
@[simp] theorem State.modOp_opAge (s : State) (i : Nat) (f : ChildOp → ChildOp) : (s.modOp i f).opAge = s.opAge := rfl
@[simp] theorem State.modOp_launches (s : State) (i : Nat) (f : ChildOp → ChildOp) : (s.modOp i f).launches = s.launches := rfl
@[simp] theorem State.modOp_taskAge (s : State) (i : Nat) (f : ChildOp → ChildOp) : (s.modOp i f).taskAge = s.taskAge := rfl
@[simp] theorem State.modOp_links (s : State) (i : Nat) (f : ChildOp → ChildOp) : (s.modOp i f).links = s.links := rfl
@[simp] theorem State.modOp_peers (s : State) (i : Nat) (f : ChildOp → ChildOp) : (s.modOp i f).peers = s.peers := rfl
@[simp] theorem State.modOp_rxq (s : State) (i : Nat) (f : ChildOp → ChildOp) : (s.modOp i f).rxq = s.rxq := rfl
@[simp] theorem State.modOp_migs (s : State) (i : Nat) (f : ChildOp → ChildOp) : (s.modOp i f).migs = s.migs := rfl
@[simp] theorem State.modOp_groups (s : State) (i : Nat) (f : ChildOp → ChildOp) : (s.modOp i f).groups = s.groups := rfl
@[simp] theorem State.modOp_selfNode (s : State) (i : Nat) (f : ChildOp → ChildOp) : (s.modOp i f).selfNode = s.selfNode := rfl
@[simp] theorem State.modOp_ccbars (s : State) (i : Nat) (f : ChildOp → ChildOp) : (s.modOp i f).ccbars = s.ccbars := rfl
@[simp] theorem State.modOp_harvest (s : State) (i : Nat) (f : ChildOp → ChildOp) : (s.modOp i f).harvest = s.harvest := rfl
@[simp] theorem State.modOp_lctl (s : State) (i : Nat) (f : ChildOp → ChildOp) : (s.modOp i f).lctl = s.lctl := rfl
@[simp] theorem State.modOp_log (s : State) (i : Nat) (f : ChildOp → ChildOp) : (s.modOp i f).log = s.log := rfl
@[simp] theorem State.modOp_power (s : State) (i : Nat) (f : ChildOp → ChildOp) : (s.modOp i f).power = s.power := rfl
@[simp] theorem State.modOp_boot (s : State) (i : Nat) (f : ChildOp → ChildOp) : (s.modOp i f).boot = s.boot := rfl
@[simp] theorem State.modOp_mgmtOut (s : State) (i : Nat) (f : ChildOp → ChildOp) : (s.modOp i f).mgmtOut = s.mgmtOut := rfl
@[simp] theorem State.modOp_telemetry (s : State) (i : Nat) (f : ChildOp → ChildOp) : (s.modOp i f).telemetry = s.telemetry := rfl
@[simp] theorem State.modOp_ns (s : State) (i : Nat) (f : ChildOp → ChildOp) : (s.modOp i f).ns = s.ns := rfl
@[simp] theorem State.modOp_free (s : State) (i : Nat) (f : ChildOp → ChildOp) : (s.modOp i f).free = s.free := rfl
@[simp] theorem State.modOp_focus (s : State) (i : Nat) (f : ChildOp → ChildOp) : (s.modOp i f).focus = s.focus := rfl
@[simp] theorem State.modOp_waits (s : State) (i : Nat) (f : ChildOp → ChildOp) : (s.modOp i f).waits = s.waits := rfl
@[simp] theorem State.modOp_lastAmo (s : State) (i : Nat) (f : ChildOp → ChildOp) : (s.modOp i f).lastAmo = s.lastAmo := rfl
@[simp] theorem State.modOp_due (s : State) (i : Nat) (f : ChildOp → ChildOp) : (s.modOp i f).due = s.due := rfl
@[simp] theorem State.modOp_agenda (s : State) (i : Nat) (f : ChildOp → ChildOp) : (s.modOp i f).agenda = s.agenda := rfl

@[simp] theorem State.setLaunch_cores (s : State) (n : Nat) (v : Option Launch) : (s.setLaunch n v).cores = s.cores := rfl
@[simp] theorem State.setLaunch_quads (s : State) (n : Nat) (v : Option Launch) : (s.setLaunch n v).quads = s.quads := rfl
@[simp] theorem State.setLaunch_mem (s : State) (n : Nat) (v : Option Launch) : (s.setLaunch n v).mem = s.mem := rfl
@[simp] theorem State.setLaunch_poison (s : State) (n : Nat) (v : Option Launch) : (s.setLaunch n v).poison = s.poison := rfl
@[simp] theorem State.setLaunch_linked (s : State) (n : Nat) (v : Option Launch) : (s.setLaunch n v).linked = s.linked := rfl
@[simp] theorem State.setLaunch_ahead (s : State) (n : Nat) (v : Option Launch) : (s.setLaunch n v).ahead = s.ahead := rfl
@[simp] theorem State.setLaunch_ops (s : State) (n : Nat) (v : Option Launch) : (s.setLaunch n v).ops = s.ops := rfl
@[simp] theorem State.setLaunch_opAge (s : State) (n : Nat) (v : Option Launch) : (s.setLaunch n v).opAge = s.opAge := rfl
@[simp] theorem State.setLaunch_taskAge (s : State) (n : Nat) (v : Option Launch) : (s.setLaunch n v).taskAge = s.taskAge := rfl
@[simp] theorem State.setLaunch_links (s : State) (n : Nat) (v : Option Launch) : (s.setLaunch n v).links = s.links := rfl
@[simp] theorem State.setLaunch_peers (s : State) (n : Nat) (v : Option Launch) : (s.setLaunch n v).peers = s.peers := rfl
@[simp] theorem State.setLaunch_rxq (s : State) (n : Nat) (v : Option Launch) : (s.setLaunch n v).rxq = s.rxq := rfl
@[simp] theorem State.setLaunch_migs (s : State) (n : Nat) (v : Option Launch) : (s.setLaunch n v).migs = s.migs := rfl
@[simp] theorem State.setLaunch_groups (s : State) (n : Nat) (v : Option Launch) : (s.setLaunch n v).groups = s.groups := rfl
@[simp] theorem State.setLaunch_selfNode (s : State) (n : Nat) (v : Option Launch) : (s.setLaunch n v).selfNode = s.selfNode := rfl
@[simp] theorem State.setLaunch_ccbars (s : State) (n : Nat) (v : Option Launch) : (s.setLaunch n v).ccbars = s.ccbars := rfl
@[simp] theorem State.setLaunch_harvest (s : State) (n : Nat) (v : Option Launch) : (s.setLaunch n v).harvest = s.harvest := rfl
@[simp] theorem State.setLaunch_lctl (s : State) (n : Nat) (v : Option Launch) : (s.setLaunch n v).lctl = s.lctl := rfl
@[simp] theorem State.setLaunch_log (s : State) (n : Nat) (v : Option Launch) : (s.setLaunch n v).log = s.log := rfl
@[simp] theorem State.setLaunch_power (s : State) (n : Nat) (v : Option Launch) : (s.setLaunch n v).power = s.power := rfl
@[simp] theorem State.setLaunch_boot (s : State) (n : Nat) (v : Option Launch) : (s.setLaunch n v).boot = s.boot := rfl
@[simp] theorem State.setLaunch_mgmtOut (s : State) (n : Nat) (v : Option Launch) : (s.setLaunch n v).mgmtOut = s.mgmtOut := rfl
@[simp] theorem State.setLaunch_telemetry (s : State) (n : Nat) (v : Option Launch) : (s.setLaunch n v).telemetry = s.telemetry := rfl
@[simp] theorem State.setLaunch_ns (s : State) (n : Nat) (v : Option Launch) : (s.setLaunch n v).ns = s.ns := rfl
@[simp] theorem State.setLaunch_free (s : State) (n : Nat) (v : Option Launch) : (s.setLaunch n v).free = s.free := rfl
@[simp] theorem State.setLaunch_focus (s : State) (n : Nat) (v : Option Launch) : (s.setLaunch n v).focus = s.focus := rfl
@[simp] theorem State.setLaunch_waits (s : State) (n : Nat) (v : Option Launch) : (s.setLaunch n v).waits = s.waits := rfl
@[simp] theorem State.setLaunch_lastAmo (s : State) (n : Nat) (v : Option Launch) : (s.setLaunch n v).lastAmo = s.lastAmo := rfl
@[simp] theorem State.setLaunch_due (s : State) (n : Nat) (v : Option Launch) : (s.setLaunch n v).due = s.due := rfl
@[simp] theorem State.setLaunch_agenda (s : State) (n : Nat) (v : Option Launch) : (s.setLaunch n v).agenda = s.agenda := rfl

@[simp] theorem State.setLink_cores (s : State) (n : Nat) (v : Link) : (s.setLink n v).cores = s.cores := rfl
@[simp] theorem State.setLink_quads (s : State) (n : Nat) (v : Link) : (s.setLink n v).quads = s.quads := rfl
@[simp] theorem State.setLink_mem (s : State) (n : Nat) (v : Link) : (s.setLink n v).mem = s.mem := rfl
@[simp] theorem State.setLink_poison (s : State) (n : Nat) (v : Link) : (s.setLink n v).poison = s.poison := rfl
@[simp] theorem State.setLink_linked (s : State) (n : Nat) (v : Link) : (s.setLink n v).linked = s.linked := rfl
@[simp] theorem State.setLink_ahead (s : State) (n : Nat) (v : Link) : (s.setLink n v).ahead = s.ahead := rfl
@[simp] theorem State.setLink_ops (s : State) (n : Nat) (v : Link) : (s.setLink n v).ops = s.ops := rfl
@[simp] theorem State.setLink_opAge (s : State) (n : Nat) (v : Link) : (s.setLink n v).opAge = s.opAge := rfl
@[simp] theorem State.setLink_launches (s : State) (n : Nat) (v : Link) : (s.setLink n v).launches = s.launches := rfl
@[simp] theorem State.setLink_taskAge (s : State) (n : Nat) (v : Link) : (s.setLink n v).taskAge = s.taskAge := rfl
@[simp] theorem State.setLink_peers (s : State) (n : Nat) (v : Link) : (s.setLink n v).peers = s.peers := rfl
@[simp] theorem State.setLink_rxq (s : State) (n : Nat) (v : Link) : (s.setLink n v).rxq = s.rxq := rfl
@[simp] theorem State.setLink_migs (s : State) (n : Nat) (v : Link) : (s.setLink n v).migs = s.migs := rfl
@[simp] theorem State.setLink_groups (s : State) (n : Nat) (v : Link) : (s.setLink n v).groups = s.groups := rfl
@[simp] theorem State.setLink_selfNode (s : State) (n : Nat) (v : Link) : (s.setLink n v).selfNode = s.selfNode := rfl
@[simp] theorem State.setLink_ccbars (s : State) (n : Nat) (v : Link) : (s.setLink n v).ccbars = s.ccbars := rfl
@[simp] theorem State.setLink_harvest (s : State) (n : Nat) (v : Link) : (s.setLink n v).harvest = s.harvest := rfl
@[simp] theorem State.setLink_lctl (s : State) (n : Nat) (v : Link) : (s.setLink n v).lctl = s.lctl := rfl
@[simp] theorem State.setLink_log (s : State) (n : Nat) (v : Link) : (s.setLink n v).log = s.log := rfl
@[simp] theorem State.setLink_power (s : State) (n : Nat) (v : Link) : (s.setLink n v).power = s.power := rfl
@[simp] theorem State.setLink_boot (s : State) (n : Nat) (v : Link) : (s.setLink n v).boot = s.boot := rfl
@[simp] theorem State.setLink_mgmtOut (s : State) (n : Nat) (v : Link) : (s.setLink n v).mgmtOut = s.mgmtOut := rfl
@[simp] theorem State.setLink_telemetry (s : State) (n : Nat) (v : Link) : (s.setLink n v).telemetry = s.telemetry := rfl
@[simp] theorem State.setLink_ns (s : State) (n : Nat) (v : Link) : (s.setLink n v).ns = s.ns := rfl
@[simp] theorem State.setLink_free (s : State) (n : Nat) (v : Link) : (s.setLink n v).free = s.free := rfl
@[simp] theorem State.setLink_focus (s : State) (n : Nat) (v : Link) : (s.setLink n v).focus = s.focus := rfl
@[simp] theorem State.setLink_waits (s : State) (n : Nat) (v : Link) : (s.setLink n v).waits = s.waits := rfl
@[simp] theorem State.setLink_lastAmo (s : State) (n : Nat) (v : Link) : (s.setLink n v).lastAmo = s.lastAmo := rfl
@[simp] theorem State.setLink_due (s : State) (n : Nat) (v : Link) : (s.setLink n v).due = s.due := rfl
@[simp] theorem State.setLink_agenda (s : State) (n : Nat) (v : Link) : (s.setLink n v).agenda = s.agenda := rfl

@[simp] theorem State.setPeer_cores (s : State) (n : Nat) (v : Peer) : (s.setPeer n v).cores = s.cores := rfl
@[simp] theorem State.setPeer_quads (s : State) (n : Nat) (v : Peer) : (s.setPeer n v).quads = s.quads := rfl
@[simp] theorem State.setPeer_mem (s : State) (n : Nat) (v : Peer) : (s.setPeer n v).mem = s.mem := rfl
@[simp] theorem State.setPeer_poison (s : State) (n : Nat) (v : Peer) : (s.setPeer n v).poison = s.poison := rfl
@[simp] theorem State.setPeer_linked (s : State) (n : Nat) (v : Peer) : (s.setPeer n v).linked = s.linked := rfl
@[simp] theorem State.setPeer_ahead (s : State) (n : Nat) (v : Peer) : (s.setPeer n v).ahead = s.ahead := rfl
@[simp] theorem State.setPeer_ops (s : State) (n : Nat) (v : Peer) : (s.setPeer n v).ops = s.ops := rfl
@[simp] theorem State.setPeer_opAge (s : State) (n : Nat) (v : Peer) : (s.setPeer n v).opAge = s.opAge := rfl
@[simp] theorem State.setPeer_launches (s : State) (n : Nat) (v : Peer) : (s.setPeer n v).launches = s.launches := rfl
@[simp] theorem State.setPeer_taskAge (s : State) (n : Nat) (v : Peer) : (s.setPeer n v).taskAge = s.taskAge := rfl
@[simp] theorem State.setPeer_links (s : State) (n : Nat) (v : Peer) : (s.setPeer n v).links = s.links := rfl
@[simp] theorem State.setPeer_rxq (s : State) (n : Nat) (v : Peer) : (s.setPeer n v).rxq = s.rxq := rfl
@[simp] theorem State.setPeer_migs (s : State) (n : Nat) (v : Peer) : (s.setPeer n v).migs = s.migs := rfl
@[simp] theorem State.setPeer_groups (s : State) (n : Nat) (v : Peer) : (s.setPeer n v).groups = s.groups := rfl
@[simp] theorem State.setPeer_selfNode (s : State) (n : Nat) (v : Peer) : (s.setPeer n v).selfNode = s.selfNode := rfl
@[simp] theorem State.setPeer_ccbars (s : State) (n : Nat) (v : Peer) : (s.setPeer n v).ccbars = s.ccbars := rfl
@[simp] theorem State.setPeer_harvest (s : State) (n : Nat) (v : Peer) : (s.setPeer n v).harvest = s.harvest := rfl
@[simp] theorem State.setPeer_lctl (s : State) (n : Nat) (v : Peer) : (s.setPeer n v).lctl = s.lctl := rfl
@[simp] theorem State.setPeer_log (s : State) (n : Nat) (v : Peer) : (s.setPeer n v).log = s.log := rfl
@[simp] theorem State.setPeer_power (s : State) (n : Nat) (v : Peer) : (s.setPeer n v).power = s.power := rfl
@[simp] theorem State.setPeer_boot (s : State) (n : Nat) (v : Peer) : (s.setPeer n v).boot = s.boot := rfl
@[simp] theorem State.setPeer_mgmtOut (s : State) (n : Nat) (v : Peer) : (s.setPeer n v).mgmtOut = s.mgmtOut := rfl
@[simp] theorem State.setPeer_telemetry (s : State) (n : Nat) (v : Peer) : (s.setPeer n v).telemetry = s.telemetry := rfl
@[simp] theorem State.setPeer_ns (s : State) (n : Nat) (v : Peer) : (s.setPeer n v).ns = s.ns := rfl
@[simp] theorem State.setPeer_free (s : State) (n : Nat) (v : Peer) : (s.setPeer n v).free = s.free := rfl
@[simp] theorem State.setPeer_focus (s : State) (n : Nat) (v : Peer) : (s.setPeer n v).focus = s.focus := rfl
@[simp] theorem State.setPeer_waits (s : State) (n : Nat) (v : Peer) : (s.setPeer n v).waits = s.waits := rfl
@[simp] theorem State.setPeer_lastAmo (s : State) (n : Nat) (v : Peer) : (s.setPeer n v).lastAmo = s.lastAmo := rfl
@[simp] theorem State.setPeer_due (s : State) (n : Nat) (v : Peer) : (s.setPeer n v).due = s.due := rfl
@[simp] theorem State.setPeer_agenda (s : State) (n : Nat) (v : Peer) : (s.setPeer n v).agenda = s.agenda := rfl

@[simp] theorem State.setMig_cores (s : State) (n : Nat) (v : Migrator) : (s.setMig n v).cores = s.cores := rfl
@[simp] theorem State.setMig_quads (s : State) (n : Nat) (v : Migrator) : (s.setMig n v).quads = s.quads := rfl
@[simp] theorem State.setMig_mem (s : State) (n : Nat) (v : Migrator) : (s.setMig n v).mem = s.mem := rfl
@[simp] theorem State.setMig_poison (s : State) (n : Nat) (v : Migrator) : (s.setMig n v).poison = s.poison := rfl
@[simp] theorem State.setMig_linked (s : State) (n : Nat) (v : Migrator) : (s.setMig n v).linked = s.linked := rfl
@[simp] theorem State.setMig_ahead (s : State) (n : Nat) (v : Migrator) : (s.setMig n v).ahead = s.ahead := rfl
@[simp] theorem State.setMig_ops (s : State) (n : Nat) (v : Migrator) : (s.setMig n v).ops = s.ops := rfl
@[simp] theorem State.setMig_opAge (s : State) (n : Nat) (v : Migrator) : (s.setMig n v).opAge = s.opAge := rfl
@[simp] theorem State.setMig_launches (s : State) (n : Nat) (v : Migrator) : (s.setMig n v).launches = s.launches := rfl
@[simp] theorem State.setMig_taskAge (s : State) (n : Nat) (v : Migrator) : (s.setMig n v).taskAge = s.taskAge := rfl
@[simp] theorem State.setMig_links (s : State) (n : Nat) (v : Migrator) : (s.setMig n v).links = s.links := rfl
@[simp] theorem State.setMig_peers (s : State) (n : Nat) (v : Migrator) : (s.setMig n v).peers = s.peers := rfl
@[simp] theorem State.setMig_rxq (s : State) (n : Nat) (v : Migrator) : (s.setMig n v).rxq = s.rxq := rfl
@[simp] theorem State.setMig_groups (s : State) (n : Nat) (v : Migrator) : (s.setMig n v).groups = s.groups := rfl
@[simp] theorem State.setMig_selfNode (s : State) (n : Nat) (v : Migrator) : (s.setMig n v).selfNode = s.selfNode := rfl
@[simp] theorem State.setMig_ccbars (s : State) (n : Nat) (v : Migrator) : (s.setMig n v).ccbars = s.ccbars := rfl
@[simp] theorem State.setMig_harvest (s : State) (n : Nat) (v : Migrator) : (s.setMig n v).harvest = s.harvest := rfl
@[simp] theorem State.setMig_lctl (s : State) (n : Nat) (v : Migrator) : (s.setMig n v).lctl = s.lctl := rfl
@[simp] theorem State.setMig_log (s : State) (n : Nat) (v : Migrator) : (s.setMig n v).log = s.log := rfl
@[simp] theorem State.setMig_power (s : State) (n : Nat) (v : Migrator) : (s.setMig n v).power = s.power := rfl
@[simp] theorem State.setMig_boot (s : State) (n : Nat) (v : Migrator) : (s.setMig n v).boot = s.boot := rfl
@[simp] theorem State.setMig_mgmtOut (s : State) (n : Nat) (v : Migrator) : (s.setMig n v).mgmtOut = s.mgmtOut := rfl
@[simp] theorem State.setMig_telemetry (s : State) (n : Nat) (v : Migrator) : (s.setMig n v).telemetry = s.telemetry := rfl
@[simp] theorem State.setMig_ns (s : State) (n : Nat) (v : Migrator) : (s.setMig n v).ns = s.ns := rfl
@[simp] theorem State.setMig_free (s : State) (n : Nat) (v : Migrator) : (s.setMig n v).free = s.free := rfl
@[simp] theorem State.setMig_focus (s : State) (n : Nat) (v : Migrator) : (s.setMig n v).focus = s.focus := rfl
@[simp] theorem State.setMig_waits (s : State) (n : Nat) (v : Migrator) : (s.setMig n v).waits = s.waits := rfl
@[simp] theorem State.setMig_lastAmo (s : State) (n : Nat) (v : Migrator) : (s.setMig n v).lastAmo = s.lastAmo := rfl
@[simp] theorem State.setMig_due (s : State) (n : Nat) (v : Migrator) : (s.setMig n v).due = s.due := rfl
@[simp] theorem State.setMig_agenda (s : State) (n : Nat) (v : Migrator) : (s.setMig n v).agenda = s.agenda := rfl

@[simp] theorem State.modBanks_quads (s : State) (c : Nat) (f : Nat → Bank → Bank) (bs : List Nat) : (s.modBanks c f bs).quads = s.quads := by
  induction bs generalizing s with
  | nil => rfl
  | cons b bs ih => simp [State.modBanks, ih]
@[simp] theorem State.onActive_quads (s : State) (f : Nat → Bank → Bank) : (s.onActive f).quads = s.quads := by simp [State.onActive]
@[simp] theorem State.flushLate_quads (s : State) (c : Nat) (l : List (Nat × Nat × Word)) : (s.flushLate c l).quads = s.quads := by
  induction l generalizing s with
  | nil => rfl
  | cons b bs ih => simp [State.flushLate, ih]
@[simp] theorem State.modBanks_mem (s : State) (c : Nat) (f : Nat → Bank → Bank) (bs : List Nat) : (s.modBanks c f bs).mem = s.mem := by
  induction bs generalizing s with
  | nil => rfl
  | cons b bs ih => simp [State.modBanks, ih]
@[simp] theorem State.onActive_mem (s : State) (f : Nat → Bank → Bank) : (s.onActive f).mem = s.mem := by simp [State.onActive]
@[simp] theorem State.flushLate_mem (s : State) (c : Nat) (l : List (Nat × Nat × Word)) : (s.flushLate c l).mem = s.mem := by
  induction l generalizing s with
  | nil => rfl
  | cons b bs ih => simp [State.flushLate, ih]
@[simp] theorem State.modBanks_poison (s : State) (c : Nat) (f : Nat → Bank → Bank) (bs : List Nat) : (s.modBanks c f bs).poison = s.poison := by
  induction bs generalizing s with
  | nil => rfl
  | cons b bs ih => simp [State.modBanks, ih]
@[simp] theorem State.onActive_poison (s : State) (f : Nat → Bank → Bank) : (s.onActive f).poison = s.poison := by simp [State.onActive]
@[simp] theorem State.flushLate_poison (s : State) (c : Nat) (l : List (Nat × Nat × Word)) : (s.flushLate c l).poison = s.poison := by
  induction l generalizing s with
  | nil => rfl
  | cons b bs ih => simp [State.flushLate, ih]
@[simp] theorem State.modBanks_linked (s : State) (c : Nat) (f : Nat → Bank → Bank) (bs : List Nat) : (s.modBanks c f bs).linked = s.linked := by
  induction bs generalizing s with
  | nil => rfl
  | cons b bs ih => simp [State.modBanks, ih]
@[simp] theorem State.onActive_linked (s : State) (f : Nat → Bank → Bank) : (s.onActive f).linked = s.linked := by simp [State.onActive]
@[simp] theorem State.flushLate_linked (s : State) (c : Nat) (l : List (Nat × Nat × Word)) : (s.flushLate c l).linked = s.linked := by
  induction l generalizing s with
  | nil => rfl
  | cons b bs ih => simp [State.flushLate, ih]
@[simp] theorem State.modBanks_ahead (s : State) (c : Nat) (f : Nat → Bank → Bank) (bs : List Nat) : (s.modBanks c f bs).ahead = s.ahead := by
  induction bs generalizing s with
  | nil => rfl
  | cons b bs ih => simp [State.modBanks, ih]
@[simp] theorem State.onActive_ahead (s : State) (f : Nat → Bank → Bank) : (s.onActive f).ahead = s.ahead := by simp [State.onActive]
@[simp] theorem State.flushLate_ahead (s : State) (c : Nat) (l : List (Nat × Nat × Word)) : (s.flushLate c l).ahead = s.ahead := by
  induction l generalizing s with
  | nil => rfl
  | cons b bs ih => simp [State.flushLate, ih]
@[simp] theorem State.modBanks_ops (s : State) (c : Nat) (f : Nat → Bank → Bank) (bs : List Nat) : (s.modBanks c f bs).ops = s.ops := by
  induction bs generalizing s with
  | nil => rfl
  | cons b bs ih => simp [State.modBanks, ih]
@[simp] theorem State.onActive_ops (s : State) (f : Nat → Bank → Bank) : (s.onActive f).ops = s.ops := by simp [State.onActive]
@[simp] theorem State.flushLate_ops (s : State) (c : Nat) (l : List (Nat × Nat × Word)) : (s.flushLate c l).ops = s.ops := by
  induction l generalizing s with
  | nil => rfl
  | cons b bs ih => simp [State.flushLate, ih]
@[simp] theorem State.modBanks_opAge (s : State) (c : Nat) (f : Nat → Bank → Bank) (bs : List Nat) : (s.modBanks c f bs).opAge = s.opAge := by
  induction bs generalizing s with
  | nil => rfl
  | cons b bs ih => simp [State.modBanks, ih]
@[simp] theorem State.onActive_opAge (s : State) (f : Nat → Bank → Bank) : (s.onActive f).opAge = s.opAge := by simp [State.onActive]
@[simp] theorem State.flushLate_opAge (s : State) (c : Nat) (l : List (Nat × Nat × Word)) : (s.flushLate c l).opAge = s.opAge := by
  induction l generalizing s with
  | nil => rfl
  | cons b bs ih => simp [State.flushLate, ih]
@[simp] theorem State.modBanks_launches (s : State) (c : Nat) (f : Nat → Bank → Bank) (bs : List Nat) : (s.modBanks c f bs).launches = s.launches := by
  induction bs generalizing s with
  | nil => rfl
  | cons b bs ih => simp [State.modBanks, ih]
@[simp] theorem State.onActive_launches (s : State) (f : Nat → Bank → Bank) : (s.onActive f).launches = s.launches := by simp [State.onActive]
@[simp] theorem State.flushLate_launches (s : State) (c : Nat) (l : List (Nat × Nat × Word)) : (s.flushLate c l).launches = s.launches := by
  induction l generalizing s with
  | nil => rfl
  | cons b bs ih => simp [State.flushLate, ih]
@[simp] theorem State.modBanks_taskAge (s : State) (c : Nat) (f : Nat → Bank → Bank) (bs : List Nat) : (s.modBanks c f bs).taskAge = s.taskAge := by
  induction bs generalizing s with
  | nil => rfl
  | cons b bs ih => simp [State.modBanks, ih]
@[simp] theorem State.onActive_taskAge (s : State) (f : Nat → Bank → Bank) : (s.onActive f).taskAge = s.taskAge := by simp [State.onActive]
@[simp] theorem State.flushLate_taskAge (s : State) (c : Nat) (l : List (Nat × Nat × Word)) : (s.flushLate c l).taskAge = s.taskAge := by
  induction l generalizing s with
  | nil => rfl
  | cons b bs ih => simp [State.flushLate, ih]
@[simp] theorem State.modBanks_links (s : State) (c : Nat) (f : Nat → Bank → Bank) (bs : List Nat) : (s.modBanks c f bs).links = s.links := by
  induction bs generalizing s with
  | nil => rfl
  | cons b bs ih => simp [State.modBanks, ih]
@[simp] theorem State.onActive_links (s : State) (f : Nat → Bank → Bank) : (s.onActive f).links = s.links := by simp [State.onActive]
@[simp] theorem State.flushLate_links (s : State) (c : Nat) (l : List (Nat × Nat × Word)) : (s.flushLate c l).links = s.links := by
  induction l generalizing s with
  | nil => rfl
  | cons b bs ih => simp [State.flushLate, ih]
@[simp] theorem State.modBanks_peers (s : State) (c : Nat) (f : Nat → Bank → Bank) (bs : List Nat) : (s.modBanks c f bs).peers = s.peers := by
  induction bs generalizing s with
  | nil => rfl
  | cons b bs ih => simp [State.modBanks, ih]
@[simp] theorem State.onActive_peers (s : State) (f : Nat → Bank → Bank) : (s.onActive f).peers = s.peers := by simp [State.onActive]
@[simp] theorem State.flushLate_peers (s : State) (c : Nat) (l : List (Nat × Nat × Word)) : (s.flushLate c l).peers = s.peers := by
  induction l generalizing s with
  | nil => rfl
  | cons b bs ih => simp [State.flushLate, ih]
@[simp] theorem State.modBanks_rxq (s : State) (c : Nat) (f : Nat → Bank → Bank) (bs : List Nat) : (s.modBanks c f bs).rxq = s.rxq := by
  induction bs generalizing s with
  | nil => rfl
  | cons b bs ih => simp [State.modBanks, ih]
@[simp] theorem State.onActive_rxq (s : State) (f : Nat → Bank → Bank) : (s.onActive f).rxq = s.rxq := by simp [State.onActive]
@[simp] theorem State.flushLate_rxq (s : State) (c : Nat) (l : List (Nat × Nat × Word)) : (s.flushLate c l).rxq = s.rxq := by
  induction l generalizing s with
  | nil => rfl
  | cons b bs ih => simp [State.flushLate, ih]
@[simp] theorem State.modBanks_migs (s : State) (c : Nat) (f : Nat → Bank → Bank) (bs : List Nat) : (s.modBanks c f bs).migs = s.migs := by
  induction bs generalizing s with
  | nil => rfl
  | cons b bs ih => simp [State.modBanks, ih]
@[simp] theorem State.onActive_migs (s : State) (f : Nat → Bank → Bank) : (s.onActive f).migs = s.migs := by simp [State.onActive]
@[simp] theorem State.flushLate_migs (s : State) (c : Nat) (l : List (Nat × Nat × Word)) : (s.flushLate c l).migs = s.migs := by
  induction l generalizing s with
  | nil => rfl
  | cons b bs ih => simp [State.flushLate, ih]
@[simp] theorem State.modBanks_groups (s : State) (c : Nat) (f : Nat → Bank → Bank) (bs : List Nat) : (s.modBanks c f bs).groups = s.groups := by
  induction bs generalizing s with
  | nil => rfl
  | cons b bs ih => simp [State.modBanks, ih]
@[simp] theorem State.onActive_groups (s : State) (f : Nat → Bank → Bank) : (s.onActive f).groups = s.groups := by simp [State.onActive]
@[simp] theorem State.flushLate_groups (s : State) (c : Nat) (l : List (Nat × Nat × Word)) : (s.flushLate c l).groups = s.groups := by
  induction l generalizing s with
  | nil => rfl
  | cons b bs ih => simp [State.flushLate, ih]
@[simp] theorem State.modBanks_selfNode (s : State) (c : Nat) (f : Nat → Bank → Bank) (bs : List Nat) : (s.modBanks c f bs).selfNode = s.selfNode := by
  induction bs generalizing s with
  | nil => rfl
  | cons b bs ih => simp [State.modBanks, ih]
@[simp] theorem State.onActive_selfNode (s : State) (f : Nat → Bank → Bank) : (s.onActive f).selfNode = s.selfNode := by simp [State.onActive]
@[simp] theorem State.flushLate_selfNode (s : State) (c : Nat) (l : List (Nat × Nat × Word)) : (s.flushLate c l).selfNode = s.selfNode := by
  induction l generalizing s with
  | nil => rfl
  | cons b bs ih => simp [State.flushLate, ih]
@[simp] theorem State.modBanks_ccbars (s : State) (c : Nat) (f : Nat → Bank → Bank) (bs : List Nat) : (s.modBanks c f bs).ccbars = s.ccbars := by
  induction bs generalizing s with
  | nil => rfl
  | cons b bs ih => simp [State.modBanks, ih]
@[simp] theorem State.onActive_ccbars (s : State) (f : Nat → Bank → Bank) : (s.onActive f).ccbars = s.ccbars := by simp [State.onActive]
@[simp] theorem State.flushLate_ccbars (s : State) (c : Nat) (l : List (Nat × Nat × Word)) : (s.flushLate c l).ccbars = s.ccbars := by
  induction l generalizing s with
  | nil => rfl
  | cons b bs ih => simp [State.flushLate, ih]
@[simp] theorem State.modBanks_harvest (s : State) (c : Nat) (f : Nat → Bank → Bank) (bs : List Nat) : (s.modBanks c f bs).harvest = s.harvest := by
  induction bs generalizing s with
  | nil => rfl
  | cons b bs ih => simp [State.modBanks, ih]
@[simp] theorem State.onActive_harvest (s : State) (f : Nat → Bank → Bank) : (s.onActive f).harvest = s.harvest := by simp [State.onActive]
@[simp] theorem State.flushLate_harvest (s : State) (c : Nat) (l : List (Nat × Nat × Word)) : (s.flushLate c l).harvest = s.harvest := by
  induction l generalizing s with
  | nil => rfl
  | cons b bs ih => simp [State.flushLate, ih]
@[simp] theorem State.modBanks_lctl (s : State) (c : Nat) (f : Nat → Bank → Bank) (bs : List Nat) : (s.modBanks c f bs).lctl = s.lctl := by
  induction bs generalizing s with
  | nil => rfl
  | cons b bs ih => simp [State.modBanks, ih]
@[simp] theorem State.onActive_lctl (s : State) (f : Nat → Bank → Bank) : (s.onActive f).lctl = s.lctl := by simp [State.onActive]
@[simp] theorem State.flushLate_lctl (s : State) (c : Nat) (l : List (Nat × Nat × Word)) : (s.flushLate c l).lctl = s.lctl := by
  induction l generalizing s with
  | nil => rfl
  | cons b bs ih => simp [State.flushLate, ih]
@[simp] theorem State.modBanks_log (s : State) (c : Nat) (f : Nat → Bank → Bank) (bs : List Nat) : (s.modBanks c f bs).log = s.log := by
  induction bs generalizing s with
  | nil => rfl
  | cons b bs ih => simp [State.modBanks, ih]
@[simp] theorem State.onActive_log (s : State) (f : Nat → Bank → Bank) : (s.onActive f).log = s.log := by simp [State.onActive]
@[simp] theorem State.flushLate_log (s : State) (c : Nat) (l : List (Nat × Nat × Word)) : (s.flushLate c l).log = s.log := by
  induction l generalizing s with
  | nil => rfl
  | cons b bs ih => simp [State.flushLate, ih]
@[simp] theorem State.modBanks_power (s : State) (c : Nat) (f : Nat → Bank → Bank) (bs : List Nat) : (s.modBanks c f bs).power = s.power := by
  induction bs generalizing s with
  | nil => rfl
  | cons b bs ih => simp [State.modBanks, ih]
@[simp] theorem State.onActive_power (s : State) (f : Nat → Bank → Bank) : (s.onActive f).power = s.power := by simp [State.onActive]
@[simp] theorem State.flushLate_power (s : State) (c : Nat) (l : List (Nat × Nat × Word)) : (s.flushLate c l).power = s.power := by
  induction l generalizing s with
  | nil => rfl
  | cons b bs ih => simp [State.flushLate, ih]
@[simp] theorem State.modBanks_boot (s : State) (c : Nat) (f : Nat → Bank → Bank) (bs : List Nat) : (s.modBanks c f bs).boot = s.boot := by
  induction bs generalizing s with
  | nil => rfl
  | cons b bs ih => simp [State.modBanks, ih]
@[simp] theorem State.onActive_boot (s : State) (f : Nat → Bank → Bank) : (s.onActive f).boot = s.boot := by simp [State.onActive]
@[simp] theorem State.flushLate_boot (s : State) (c : Nat) (l : List (Nat × Nat × Word)) : (s.flushLate c l).boot = s.boot := by
  induction l generalizing s with
  | nil => rfl
  | cons b bs ih => simp [State.flushLate, ih]
@[simp] theorem State.modBanks_mgmtOut (s : State) (c : Nat) (f : Nat → Bank → Bank) (bs : List Nat) : (s.modBanks c f bs).mgmtOut = s.mgmtOut := by
  induction bs generalizing s with
  | nil => rfl
  | cons b bs ih => simp [State.modBanks, ih]
@[simp] theorem State.onActive_mgmtOut (s : State) (f : Nat → Bank → Bank) : (s.onActive f).mgmtOut = s.mgmtOut := by simp [State.onActive]
@[simp] theorem State.flushLate_mgmtOut (s : State) (c : Nat) (l : List (Nat × Nat × Word)) : (s.flushLate c l).mgmtOut = s.mgmtOut := by
  induction l generalizing s with
  | nil => rfl
  | cons b bs ih => simp [State.flushLate, ih]
@[simp] theorem State.modBanks_telemetry (s : State) (c : Nat) (f : Nat → Bank → Bank) (bs : List Nat) : (s.modBanks c f bs).telemetry = s.telemetry := by
  induction bs generalizing s with
  | nil => rfl
  | cons b bs ih => simp [State.modBanks, ih]
@[simp] theorem State.onActive_telemetry (s : State) (f : Nat → Bank → Bank) : (s.onActive f).telemetry = s.telemetry := by simp [State.onActive]
@[simp] theorem State.flushLate_telemetry (s : State) (c : Nat) (l : List (Nat × Nat × Word)) : (s.flushLate c l).telemetry = s.telemetry := by
  induction l generalizing s with
  | nil => rfl
  | cons b bs ih => simp [State.flushLate, ih]
@[simp] theorem State.modBanks_ns (s : State) (c : Nat) (f : Nat → Bank → Bank) (bs : List Nat) : (s.modBanks c f bs).ns = s.ns := by
  induction bs generalizing s with
  | nil => rfl
  | cons b bs ih => simp [State.modBanks, ih]
@[simp] theorem State.onActive_ns (s : State) (f : Nat → Bank → Bank) : (s.onActive f).ns = s.ns := by simp [State.onActive]
@[simp] theorem State.flushLate_ns (s : State) (c : Nat) (l : List (Nat × Nat × Word)) : (s.flushLate c l).ns = s.ns := by
  induction l generalizing s with
  | nil => rfl
  | cons b bs ih => simp [State.flushLate, ih]
@[simp] theorem State.modBanks_free (s : State) (c : Nat) (f : Nat → Bank → Bank) (bs : List Nat) : (s.modBanks c f bs).free = s.free := by
  induction bs generalizing s with
  | nil => rfl
  | cons b bs ih => simp [State.modBanks, ih]
@[simp] theorem State.onActive_free (s : State) (f : Nat → Bank → Bank) : (s.onActive f).free = s.free := by simp [State.onActive]
@[simp] theorem State.flushLate_free (s : State) (c : Nat) (l : List (Nat × Nat × Word)) : (s.flushLate c l).free = s.free := by
  induction l generalizing s with
  | nil => rfl
  | cons b bs ih => simp [State.flushLate, ih]
@[simp] theorem State.modBanks_focus (s : State) (c : Nat) (f : Nat → Bank → Bank) (bs : List Nat) : (s.modBanks c f bs).focus = s.focus := by
  induction bs generalizing s with
  | nil => rfl
  | cons b bs ih => simp [State.modBanks, ih]
@[simp] theorem State.onActive_focus (s : State) (f : Nat → Bank → Bank) : (s.onActive f).focus = s.focus := by simp [State.onActive]
@[simp] theorem State.flushLate_focus (s : State) (c : Nat) (l : List (Nat × Nat × Word)) : (s.flushLate c l).focus = s.focus := by
  induction l generalizing s with
  | nil => rfl
  | cons b bs ih => simp [State.flushLate, ih]
@[simp] theorem State.modBanks_waits (s : State) (c : Nat) (f : Nat → Bank → Bank) (bs : List Nat) : (s.modBanks c f bs).waits = s.waits := by
  induction bs generalizing s with
  | nil => rfl
  | cons b bs ih => simp [State.modBanks, ih]
@[simp] theorem State.onActive_waits (s : State) (f : Nat → Bank → Bank) : (s.onActive f).waits = s.waits := by simp [State.onActive]
@[simp] theorem State.flushLate_waits (s : State) (c : Nat) (l : List (Nat × Nat × Word)) : (s.flushLate c l).waits = s.waits := by
  induction l generalizing s with
  | nil => rfl
  | cons b bs ih => simp [State.flushLate, ih]
@[simp] theorem State.modBanks_lastAmo (s : State) (c : Nat) (f : Nat → Bank → Bank) (bs : List Nat) : (s.modBanks c f bs).lastAmo = s.lastAmo := by
  induction bs generalizing s with
  | nil => rfl
  | cons b bs ih => simp [State.modBanks, ih]
@[simp] theorem State.onActive_lastAmo (s : State) (f : Nat → Bank → Bank) : (s.onActive f).lastAmo = s.lastAmo := by simp [State.onActive]
@[simp] theorem State.flushLate_lastAmo (s : State) (c : Nat) (l : List (Nat × Nat × Word)) : (s.flushLate c l).lastAmo = s.lastAmo := by
  induction l generalizing s with
  | nil => rfl
  | cons b bs ih => simp [State.flushLate, ih]
@[simp] theorem State.modBanks_due (s : State) (c : Nat) (f : Nat → Bank → Bank) (bs : List Nat) : (s.modBanks c f bs).due = s.due := by
  induction bs generalizing s with
  | nil => rfl
  | cons b bs ih => simp [State.modBanks, ih]
@[simp] theorem State.onActive_due (s : State) (f : Nat → Bank → Bank) : (s.onActive f).due = s.due := by simp [State.onActive]
@[simp] theorem State.flushLate_due (s : State) (c : Nat) (l : List (Nat × Nat × Word)) : (s.flushLate c l).due = s.due := by
  induction l generalizing s with
  | nil => rfl
  | cons b bs ih => simp [State.flushLate, ih]
@[simp] theorem State.modBanks_agenda (s : State) (c : Nat) (f : Nat → Bank → Bank) (bs : List Nat) : (s.modBanks c f bs).agenda = s.agenda := by
  induction bs generalizing s with
  | nil => rfl
  | cons b bs ih => simp [State.modBanks, ih]
@[simp] theorem State.onActive_agenda (s : State) (f : Nat → Bank → Bank) : (s.onActive f).agenda = s.agenda := by simp [State.onActive]
@[simp] theorem State.flushLate_agenda (s : State) (c : Nat) (l : List (Nat × Nat × Word)) : (s.flushLate c l).agenda = s.agenda := by
  induction l generalizing s with
  | nil => rfl
  | cons b bs ih => simp [State.flushLate, ih]

@[simp] theorem State.retire_quads (s : State)  : (s.retire).quads = s.quads := by
  unfold State.retire
  simp only []
  split <;> simp
@[simp] theorem State.jumpTo_quads (s : State) (t : Word) : (s.jumpTo t).quads = s.quads := by simp [State.jumpTo]
@[simp] theorem State.waitOn_quads (s : State) (w : Wait) : (s.waitOn w).quads = s.quads := by simp [State.waitOn]
@[simp] theorem State.retire_mem (s : State)  : (s.retire).mem = s.mem := by
  unfold State.retire
  simp only []
  split <;> simp
@[simp] theorem State.jumpTo_mem (s : State) (t : Word) : (s.jumpTo t).mem = s.mem := by simp [State.jumpTo]
@[simp] theorem State.waitOn_mem (s : State) (w : Wait) : (s.waitOn w).mem = s.mem := by simp [State.waitOn]
@[simp] theorem State.retire_poison (s : State)  : (s.retire).poison = s.poison := by
  unfold State.retire
  simp only []
  split <;> simp
@[simp] theorem State.jumpTo_poison (s : State) (t : Word) : (s.jumpTo t).poison = s.poison := by simp [State.jumpTo]
@[simp] theorem State.waitOn_poison (s : State) (w : Wait) : (s.waitOn w).poison = s.poison := by simp [State.waitOn]
@[simp] theorem State.retire_linked (s : State)  : (s.retire).linked = s.linked := by
  unfold State.retire
  simp only []
  split <;> simp
@[simp] theorem State.jumpTo_linked (s : State) (t : Word) : (s.jumpTo t).linked = s.linked := by simp [State.jumpTo]
@[simp] theorem State.waitOn_linked (s : State) (w : Wait) : (s.waitOn w).linked = s.linked := by simp [State.waitOn]
@[simp] theorem State.retire_ahead (s : State)  : (s.retire).ahead = s.ahead := by
  unfold State.retire
  simp only []
  split <;> simp
@[simp] theorem State.jumpTo_ahead (s : State) (t : Word) : (s.jumpTo t).ahead = s.ahead := by simp [State.jumpTo]
@[simp] theorem State.waitOn_ahead (s : State) (w : Wait) : (s.waitOn w).ahead = s.ahead := by simp [State.waitOn]
@[simp] theorem State.retire_ops (s : State)  : (s.retire).ops = s.ops := by
  unfold State.retire
  simp only []
  split <;> simp
@[simp] theorem State.jumpTo_ops (s : State) (t : Word) : (s.jumpTo t).ops = s.ops := by simp [State.jumpTo]
@[simp] theorem State.waitOn_ops (s : State) (w : Wait) : (s.waitOn w).ops = s.ops := by simp [State.waitOn]
@[simp] theorem State.retire_opAge (s : State)  : (s.retire).opAge = s.opAge := by
  unfold State.retire
  simp only []
  split <;> simp
@[simp] theorem State.jumpTo_opAge (s : State) (t : Word) : (s.jumpTo t).opAge = s.opAge := by simp [State.jumpTo]
@[simp] theorem State.waitOn_opAge (s : State) (w : Wait) : (s.waitOn w).opAge = s.opAge := by simp [State.waitOn]
@[simp] theorem State.retire_launches (s : State)  : (s.retire).launches = s.launches := by
  unfold State.retire
  simp only []
  split <;> simp
@[simp] theorem State.jumpTo_launches (s : State) (t : Word) : (s.jumpTo t).launches = s.launches := by simp [State.jumpTo]
@[simp] theorem State.waitOn_launches (s : State) (w : Wait) : (s.waitOn w).launches = s.launches := by simp [State.waitOn]
@[simp] theorem State.retire_taskAge (s : State)  : (s.retire).taskAge = s.taskAge := by
  unfold State.retire
  simp only []
  split <;> simp
@[simp] theorem State.jumpTo_taskAge (s : State) (t : Word) : (s.jumpTo t).taskAge = s.taskAge := by simp [State.jumpTo]
@[simp] theorem State.waitOn_taskAge (s : State) (w : Wait) : (s.waitOn w).taskAge = s.taskAge := by simp [State.waitOn]
@[simp] theorem State.retire_links (s : State)  : (s.retire).links = s.links := by
  unfold State.retire
  simp only []
  split <;> simp
@[simp] theorem State.jumpTo_links (s : State) (t : Word) : (s.jumpTo t).links = s.links := by simp [State.jumpTo]
@[simp] theorem State.waitOn_links (s : State) (w : Wait) : (s.waitOn w).links = s.links := by simp [State.waitOn]
@[simp] theorem State.retire_peers (s : State)  : (s.retire).peers = s.peers := by
  unfold State.retire
  simp only []
  split <;> simp
@[simp] theorem State.jumpTo_peers (s : State) (t : Word) : (s.jumpTo t).peers = s.peers := by simp [State.jumpTo]
@[simp] theorem State.waitOn_peers (s : State) (w : Wait) : (s.waitOn w).peers = s.peers := by simp [State.waitOn]
@[simp] theorem State.retire_rxq (s : State)  : (s.retire).rxq = s.rxq := by
  unfold State.retire
  simp only []
  split <;> simp
@[simp] theorem State.jumpTo_rxq (s : State) (t : Word) : (s.jumpTo t).rxq = s.rxq := by simp [State.jumpTo]
@[simp] theorem State.waitOn_rxq (s : State) (w : Wait) : (s.waitOn w).rxq = s.rxq := by simp [State.waitOn]
@[simp] theorem State.retire_migs (s : State)  : (s.retire).migs = s.migs := by
  unfold State.retire
  simp only []
  split <;> simp
@[simp] theorem State.jumpTo_migs (s : State) (t : Word) : (s.jumpTo t).migs = s.migs := by simp [State.jumpTo]
@[simp] theorem State.waitOn_migs (s : State) (w : Wait) : (s.waitOn w).migs = s.migs := by simp [State.waitOn]
@[simp] theorem State.retire_groups (s : State)  : (s.retire).groups = s.groups := by
  unfold State.retire
  simp only []
  split <;> simp
@[simp] theorem State.jumpTo_groups (s : State) (t : Word) : (s.jumpTo t).groups = s.groups := by simp [State.jumpTo]
@[simp] theorem State.waitOn_groups (s : State) (w : Wait) : (s.waitOn w).groups = s.groups := by simp [State.waitOn]
@[simp] theorem State.retire_selfNode (s : State)  : (s.retire).selfNode = s.selfNode := by
  unfold State.retire
  simp only []
  split <;> simp
@[simp] theorem State.jumpTo_selfNode (s : State) (t : Word) : (s.jumpTo t).selfNode = s.selfNode := by simp [State.jumpTo]
@[simp] theorem State.waitOn_selfNode (s : State) (w : Wait) : (s.waitOn w).selfNode = s.selfNode := by simp [State.waitOn]
@[simp] theorem State.retire_ccbars (s : State)  : (s.retire).ccbars = s.ccbars := by
  unfold State.retire
  simp only []
  split <;> simp
@[simp] theorem State.jumpTo_ccbars (s : State) (t : Word) : (s.jumpTo t).ccbars = s.ccbars := by simp [State.jumpTo]
@[simp] theorem State.waitOn_ccbars (s : State) (w : Wait) : (s.waitOn w).ccbars = s.ccbars := by simp [State.waitOn]
@[simp] theorem State.retire_harvest (s : State)  : (s.retire).harvest = s.harvest := by
  unfold State.retire
  simp only []
  split <;> simp
@[simp] theorem State.jumpTo_harvest (s : State) (t : Word) : (s.jumpTo t).harvest = s.harvest := by simp [State.jumpTo]
@[simp] theorem State.waitOn_harvest (s : State) (w : Wait) : (s.waitOn w).harvest = s.harvest := by simp [State.waitOn]
@[simp] theorem State.retire_lctl (s : State)  : (s.retire).lctl = s.lctl := by
  unfold State.retire
  simp only []
  split <;> simp
@[simp] theorem State.jumpTo_lctl (s : State) (t : Word) : (s.jumpTo t).lctl = s.lctl := by simp [State.jumpTo]
@[simp] theorem State.waitOn_lctl (s : State) (w : Wait) : (s.waitOn w).lctl = s.lctl := by simp [State.waitOn]
@[simp] theorem State.retire_log (s : State)  : (s.retire).log = s.log := by
  unfold State.retire
  simp only []
  split <;> simp
@[simp] theorem State.jumpTo_log (s : State) (t : Word) : (s.jumpTo t).log = s.log := by simp [State.jumpTo]
@[simp] theorem State.waitOn_log (s : State) (w : Wait) : (s.waitOn w).log = s.log := by simp [State.waitOn]
@[simp] theorem State.retire_power (s : State)  : (s.retire).power = s.power := by
  unfold State.retire
  simp only []
  split <;> simp
@[simp] theorem State.jumpTo_power (s : State) (t : Word) : (s.jumpTo t).power = s.power := by simp [State.jumpTo]
@[simp] theorem State.waitOn_power (s : State) (w : Wait) : (s.waitOn w).power = s.power := by simp [State.waitOn]
@[simp] theorem State.retire_boot (s : State)  : (s.retire).boot = s.boot := by
  unfold State.retire
  simp only []
  split <;> simp
@[simp] theorem State.jumpTo_boot (s : State) (t : Word) : (s.jumpTo t).boot = s.boot := by simp [State.jumpTo]
@[simp] theorem State.waitOn_boot (s : State) (w : Wait) : (s.waitOn w).boot = s.boot := by simp [State.waitOn]
@[simp] theorem State.retire_mgmtOut (s : State)  : (s.retire).mgmtOut = s.mgmtOut := by
  unfold State.retire
  simp only []
  split <;> simp
@[simp] theorem State.jumpTo_mgmtOut (s : State) (t : Word) : (s.jumpTo t).mgmtOut = s.mgmtOut := by simp [State.jumpTo]
@[simp] theorem State.waitOn_mgmtOut (s : State) (w : Wait) : (s.waitOn w).mgmtOut = s.mgmtOut := by simp [State.waitOn]
@[simp] theorem State.retire_telemetry (s : State)  : (s.retire).telemetry = s.telemetry := by
  unfold State.retire
  simp only []
  split <;> simp
@[simp] theorem State.jumpTo_telemetry (s : State) (t : Word) : (s.jumpTo t).telemetry = s.telemetry := by simp [State.jumpTo]
@[simp] theorem State.waitOn_telemetry (s : State) (w : Wait) : (s.waitOn w).telemetry = s.telemetry := by simp [State.waitOn]
@[simp] theorem State.retire_ns (s : State)  : (s.retire).ns = s.ns := by
  unfold State.retire
  simp only []
  split <;> simp
@[simp] theorem State.jumpTo_ns (s : State) (t : Word) : (s.jumpTo t).ns = s.ns := by simp [State.jumpTo]
@[simp] theorem State.waitOn_ns (s : State) (w : Wait) : (s.waitOn w).ns = s.ns := by simp [State.waitOn]
@[simp] theorem State.retire_free (s : State)  : (s.retire).free = s.free := by
  unfold State.retire
  simp only []
  split <;> simp
@[simp] theorem State.jumpTo_free (s : State) (t : Word) : (s.jumpTo t).free = s.free := by simp [State.jumpTo]
@[simp] theorem State.waitOn_free (s : State) (w : Wait) : (s.waitOn w).free = s.free := by simp [State.waitOn]
@[simp] theorem State.retire_focus (s : State)  : (s.retire).focus = s.focus := by
  unfold State.retire
  simp only []
  split <;> simp
@[simp] theorem State.jumpTo_focus (s : State) (t : Word) : (s.jumpTo t).focus = s.focus := by simp [State.jumpTo]
@[simp] theorem State.waitOn_focus (s : State) (w : Wait) : (s.waitOn w).focus = s.focus := by simp [State.waitOn]
@[simp] theorem State.retire_waits (s : State)  : (s.retire).waits = s.waits := by
  unfold State.retire
  simp only []
  split <;> simp
@[simp] theorem State.jumpTo_waits (s : State) (t : Word) : (s.jumpTo t).waits = s.waits := by simp [State.jumpTo]
@[simp] theorem State.waitOn_waits (s : State) (w : Wait) : (s.waitOn w).waits = s.waits := by simp [State.waitOn]
@[simp] theorem State.retire_lastAmo (s : State)  : (s.retire).lastAmo = s.lastAmo := by
  unfold State.retire
  simp only []
  split <;> simp
@[simp] theorem State.jumpTo_lastAmo (s : State) (t : Word) : (s.jumpTo t).lastAmo = s.lastAmo := by simp [State.jumpTo]
@[simp] theorem State.waitOn_lastAmo (s : State) (w : Wait) : (s.waitOn w).lastAmo = s.lastAmo := by simp [State.waitOn]
@[simp] theorem State.retire_due (s : State)  : (s.retire).due = s.due := by
  unfold State.retire
  simp only []
  split <;> simp
@[simp] theorem State.jumpTo_due (s : State) (t : Word) : (s.jumpTo t).due = s.due := by simp [State.jumpTo]
@[simp] theorem State.waitOn_due (s : State) (w : Wait) : (s.waitOn w).due = s.due := by simp [State.waitOn]
@[simp] theorem State.retire_agenda (s : State)  : (s.retire).agenda = s.agenda := by
  unfold State.retire
  simp only []
  split <;> simp
@[simp] theorem State.jumpTo_agenda (s : State) (t : Word) : (s.jumpTo t).agenda = s.agenda := by simp [State.jumpTo]
@[simp] theorem State.waitOn_agenda (s : State) (w : Wait) : (s.waitOn w).agenda = s.agenda := by simp [State.waitOn]

@[simp] theorem Bank.ws_a (x : Bank) (n : BitVec 5) (v : Word) : (x.ws n v).a = x.a := by unfold Bank.ws; split <;> rfl
@[simp] theorem Bank.ws_m (x : Bank) (n : BitVec 5) (v : Word) : (x.ws n v).m = x.m := by unfold Bank.ws; split <;> rfl
@[simp] theorem Bank.ws_k (x : Bank) (n : BitVec 5) (v : Word) : (x.ws n v).k = x.k := by unfold Bank.ws; split <;> rfl
@[simp] theorem Bank.ws_flags (x : Bank) (n : BitVec 5) (v : Word) : (x.ws n v).flags = x.flags := by unfold Bank.ws; split <;> rfl
@[simp] theorem Bank.ws_hsp (x : Bank) (n : BitVec 5) (v : Word) : (x.ws n v).hsp = x.hsp := by unfold Bank.ws; split <;> rfl
@[simp] theorem Bank.ws_ss0 (x : Bank) (n : BitVec 5) (v : Word) : (x.ws n v).ss0 = x.ss0 := by unfold Bank.ws; split <;> rfl
@[simp] theorem Bank.ws_ss1 (x : Bank) (n : BitVec 5) (v : Word) : (x.ws n v).ss1 = x.ss1 := by unfold Bank.ws; split <;> rfl
@[simp] theorem Bank.ws_panes (x : Bank) (n : BitVec 5) (v : Word) : (x.ws n v).panes = x.panes := by unfold Bank.ws; split <;> rfl
@[simp] theorem Bank.ws_slots (x : Bank) (n : BitVec 5) (v : Word) : (x.ws n v).slots = x.slots := by unfold Bank.ws; split <;> rfl
@[simp] theorem Bank.ws_debt (x : Bank) (n : BitVec 5) (v : Word) : (x.ws n v).debt = x.debt := by unfold Bank.ws; split <;> rfl
@[simp] theorem Bank.ws_hot (x : Bank) (n : BitVec 5) (v : Word) : (x.ws n v).hot = x.hot := by unfold Bank.ws; split <;> rfl
@[simp] theorem Bank.ws_forced (x : Bank) (n : BitVec 5) (v : Word) : (x.ws n v).forced = x.forced := by unfold Bank.ws; split <;> rfl
@[simp] theorem Bank.ws_claim (x : Bank) (n : BitVec 5) (v : Word) : (x.ws n v).claim = x.claim := by unfold Bank.ws; split <;> rfl

@[simp] theorem Bank.wa_s (x : Bank) (n : BitVec 3) (v : Word) : (x.wa n v).s = x.s := rfl
@[simp] theorem Bank.wa_m (x : Bank) (n : BitVec 3) (v : Word) : (x.wa n v).m = x.m := rfl
@[simp] theorem Bank.wa_k (x : Bank) (n : BitVec 3) (v : Word) : (x.wa n v).k = x.k := rfl
@[simp] theorem Bank.wa_flags (x : Bank) (n : BitVec 3) (v : Word) : (x.wa n v).flags = x.flags := rfl
@[simp] theorem Bank.wa_hsp (x : Bank) (n : BitVec 3) (v : Word) : (x.wa n v).hsp = x.hsp := rfl
@[simp] theorem Bank.wa_ss0 (x : Bank) (n : BitVec 3) (v : Word) : (x.wa n v).ss0 = x.ss0 := rfl
@[simp] theorem Bank.wa_ss1 (x : Bank) (n : BitVec 3) (v : Word) : (x.wa n v).ss1 = x.ss1 := rfl
@[simp] theorem Bank.wa_panes (x : Bank) (n : BitVec 3) (v : Word) : (x.wa n v).panes = x.panes := rfl
@[simp] theorem Bank.wa_slots (x : Bank) (n : BitVec 3) (v : Word) : (x.wa n v).slots = x.slots := rfl
@[simp] theorem Bank.wa_debt (x : Bank) (n : BitVec 3) (v : Word) : (x.wa n v).debt = x.debt := rfl
@[simp] theorem Bank.wa_hot (x : Bank) (n : BitVec 3) (v : Word) : (x.wa n v).hot = x.hot := rfl
@[simp] theorem Bank.wa_forced (x : Bank) (n : BitVec 3) (v : Word) : (x.wa n v).forced = x.forced := rfl
@[simp] theorem Bank.wa_claim (x : Bank) (n : BitVec 3) (v : Word) : (x.wa n v).claim = x.claim := rfl

@[simp] theorem Bank.wm_s (x : Bank) (n : Nat) (v : BitVec 4096) : (x.wm n v).s = x.s := rfl
@[simp] theorem Bank.wm_a (x : Bank) (n : Nat) (v : BitVec 4096) : (x.wm n v).a = x.a := rfl
@[simp] theorem Bank.wm_k (x : Bank) (n : Nat) (v : BitVec 4096) : (x.wm n v).k = x.k := rfl
@[simp] theorem Bank.wm_flags (x : Bank) (n : Nat) (v : BitVec 4096) : (x.wm n v).flags = x.flags := rfl
@[simp] theorem Bank.wm_hsp (x : Bank) (n : Nat) (v : BitVec 4096) : (x.wm n v).hsp = x.hsp := rfl
@[simp] theorem Bank.wm_ss0 (x : Bank) (n : Nat) (v : BitVec 4096) : (x.wm n v).ss0 = x.ss0 := rfl
@[simp] theorem Bank.wm_ss1 (x : Bank) (n : Nat) (v : BitVec 4096) : (x.wm n v).ss1 = x.ss1 := rfl
@[simp] theorem Bank.wm_panes (x : Bank) (n : Nat) (v : BitVec 4096) : (x.wm n v).panes = x.panes := rfl
@[simp] theorem Bank.wm_slots (x : Bank) (n : Nat) (v : BitVec 4096) : (x.wm n v).slots = x.slots := rfl
@[simp] theorem Bank.wm_debt (x : Bank) (n : Nat) (v : BitVec 4096) : (x.wm n v).debt = x.debt := rfl
@[simp] theorem Bank.wm_hot (x : Bank) (n : Nat) (v : BitVec 4096) : (x.wm n v).hot = x.hot := rfl
@[simp] theorem Bank.wm_forced (x : Bank) (n : Nat) (v : BitVec 4096) : (x.wm n v).forced = x.forced := rfl
@[simp] theorem Bank.wm_claim (x : Bank) (n : Nat) (v : BitVec 4096) : (x.wm n v).claim = x.claim := rfl

@[simp] theorem Bank.wk_s (x : Bank) (n : BitVec 4) (v : Option (BitVec 32)) : (x.wk n v).s = x.s := rfl
@[simp] theorem Bank.wk_a (x : Bank) (n : BitVec 4) (v : Option (BitVec 32)) : (x.wk n v).a = x.a := rfl
@[simp] theorem Bank.wk_m (x : Bank) (n : BitVec 4) (v : Option (BitVec 32)) : (x.wk n v).m = x.m := rfl
@[simp] theorem Bank.wk_flags (x : Bank) (n : BitVec 4) (v : Option (BitVec 32)) : (x.wk n v).flags = x.flags := rfl
@[simp] theorem Bank.wk_hsp (x : Bank) (n : BitVec 4) (v : Option (BitVec 32)) : (x.wk n v).hsp = x.hsp := rfl
@[simp] theorem Bank.wk_ss0 (x : Bank) (n : BitVec 4) (v : Option (BitVec 32)) : (x.wk n v).ss0 = x.ss0 := rfl
@[simp] theorem Bank.wk_ss1 (x : Bank) (n : BitVec 4) (v : Option (BitVec 32)) : (x.wk n v).ss1 = x.ss1 := rfl
@[simp] theorem Bank.wk_panes (x : Bank) (n : BitVec 4) (v : Option (BitVec 32)) : (x.wk n v).panes = x.panes := rfl
@[simp] theorem Bank.wk_slots (x : Bank) (n : BitVec 4) (v : Option (BitVec 32)) : (x.wk n v).slots = x.slots := rfl
@[simp] theorem Bank.wk_debt (x : Bank) (n : BitVec 4) (v : Option (BitVec 32)) : (x.wk n v).debt = x.debt := rfl
@[simp] theorem Bank.wk_hot (x : Bank) (n : BitVec 4) (v : Option (BitVec 32)) : (x.wk n v).hot = x.hot := rfl
@[simp] theorem Bank.wk_forced (x : Bank) (n : BitVec 4) (v : Option (BitVec 32)) : (x.wk n v).forced = x.forced := rfl
@[simp] theorem Bank.wk_claim (x : Bank) (n : BitVec 4) (v : Option (BitVec 32)) : (x.wk n v).claim = x.claim := rfl

@[simp] theorem Bank.accrue_s (x : Bank) (f : BitVec 5) : (x.accrue f).s = x.s := rfl
@[simp] theorem Bank.accrue_a (x : Bank) (f : BitVec 5) : (x.accrue f).a = x.a := rfl
@[simp] theorem Bank.accrue_m (x : Bank) (f : BitVec 5) : (x.accrue f).m = x.m := rfl
@[simp] theorem Bank.accrue_k (x : Bank) (f : BitVec 5) : (x.accrue f).k = x.k := rfl
@[simp] theorem Bank.accrue_hsp (x : Bank) (f : BitVec 5) : (x.accrue f).hsp = x.hsp := rfl
@[simp] theorem Bank.accrue_ss0 (x : Bank) (f : BitVec 5) : (x.accrue f).ss0 = x.ss0 := rfl
@[simp] theorem Bank.accrue_ss1 (x : Bank) (f : BitVec 5) : (x.accrue f).ss1 = x.ss1 := rfl
@[simp] theorem Bank.accrue_panes (x : Bank) (f : BitVec 5) : (x.accrue f).panes = x.panes := rfl
@[simp] theorem Bank.accrue_slots (x : Bank) (f : BitVec 5) : (x.accrue f).slots = x.slots := rfl
@[simp] theorem Bank.accrue_debt (x : Bank) (f : BitVec 5) : (x.accrue f).debt = x.debt := rfl
@[simp] theorem Bank.accrue_hot (x : Bank) (f : BitVec 5) : (x.accrue f).hot = x.hot := rfl
@[simp] theorem Bank.accrue_forced (x : Bank) (f : BitVec 5) : (x.accrue f).forced = x.forced := rfl
@[simp] theorem Bank.accrue_claim (x : Bank) (f : BitVec 5) : (x.accrue f).claim = x.claim := rfl

@[simp] theorem Bank.setPane_s (x : Bank) (n : Nat) (p : Pane) : (x.setPane n p).s = x.s := rfl
@[simp] theorem Bank.setPane_a (x : Bank) (n : Nat) (p : Pane) : (x.setPane n p).a = x.a := rfl
@[simp] theorem Bank.setPane_m (x : Bank) (n : Nat) (p : Pane) : (x.setPane n p).m = x.m := rfl
@[simp] theorem Bank.setPane_k (x : Bank) (n : Nat) (p : Pane) : (x.setPane n p).k = x.k := rfl
@[simp] theorem Bank.setPane_flags (x : Bank) (n : Nat) (p : Pane) : (x.setPane n p).flags = x.flags := rfl
@[simp] theorem Bank.setPane_hsp (x : Bank) (n : Nat) (p : Pane) : (x.setPane n p).hsp = x.hsp := rfl
@[simp] theorem Bank.setPane_ss0 (x : Bank) (n : Nat) (p : Pane) : (x.setPane n p).ss0 = x.ss0 := rfl
@[simp] theorem Bank.setPane_ss1 (x : Bank) (n : Nat) (p : Pane) : (x.setPane n p).ss1 = x.ss1 := rfl
@[simp] theorem Bank.setPane_slots (x : Bank) (n : Nat) (p : Pane) : (x.setPane n p).slots = x.slots := rfl
@[simp] theorem Bank.setPane_debt (x : Bank) (n : Nat) (p : Pane) : (x.setPane n p).debt = x.debt := rfl
@[simp] theorem Bank.setPane_hot (x : Bank) (n : Nat) (p : Pane) : (x.setPane n p).hot = x.hot := rfl
@[simp] theorem Bank.setPane_forced (x : Bank) (n : Nat) (p : Pane) : (x.setPane n p).forced = x.forced := rfl
@[simp] theorem Bank.setPane_claim (x : Bank) (n : Nat) (p : Pane) : (x.setPane n p).claim = x.claim := rfl

@[simp] theorem Bank.setSlot_s (x : Bank) (n k : Nat) (v : Slot) : (x.setSlot n k v).s = x.s := rfl
@[simp] theorem Bank.setSlot_a (x : Bank) (n k : Nat) (v : Slot) : (x.setSlot n k v).a = x.a := rfl
@[simp] theorem Bank.setSlot_m (x : Bank) (n k : Nat) (v : Slot) : (x.setSlot n k v).m = x.m := rfl
@[simp] theorem Bank.setSlot_k (x : Bank) (n k : Nat) (v : Slot) : (x.setSlot n k v).k = x.k := rfl
@[simp] theorem Bank.setSlot_flags (x : Bank) (n k : Nat) (v : Slot) : (x.setSlot n k v).flags = x.flags := rfl
@[simp] theorem Bank.setSlot_hsp (x : Bank) (n k : Nat) (v : Slot) : (x.setSlot n k v).hsp = x.hsp := rfl
@[simp] theorem Bank.setSlot_ss0 (x : Bank) (n k : Nat) (v : Slot) : (x.setSlot n k v).ss0 = x.ss0 := rfl
@[simp] theorem Bank.setSlot_ss1 (x : Bank) (n k : Nat) (v : Slot) : (x.setSlot n k v).ss1 = x.ss1 := rfl
@[simp] theorem Bank.setSlot_panes (x : Bank) (n k : Nat) (v : Slot) : (x.setSlot n k v).panes = x.panes := rfl
@[simp] theorem Bank.setSlot_debt (x : Bank) (n k : Nat) (v : Slot) : (x.setSlot n k v).debt = x.debt := rfl
@[simp] theorem Bank.setSlot_hot (x : Bank) (n k : Nat) (v : Slot) : (x.setSlot n k v).hot = x.hot := rfl
@[simp] theorem Bank.setSlot_forced (x : Bank) (n k : Nat) (v : Slot) : (x.setSlot n k v).forced = x.forced := rfl
@[simp] theorem Bank.setSlot_claim (x : Bank) (n k : Nat) (v : Slot) : (x.setSlot n k v).claim = x.claim := rfl

@[simp] theorem Bank.setDebt_s (x : Bank) (n v : Nat) : (x.setDebt n v).s = x.s := rfl
@[simp] theorem Bank.setDebt_a (x : Bank) (n v : Nat) : (x.setDebt n v).a = x.a := rfl
@[simp] theorem Bank.setDebt_m (x : Bank) (n v : Nat) : (x.setDebt n v).m = x.m := rfl
@[simp] theorem Bank.setDebt_k (x : Bank) (n v : Nat) : (x.setDebt n v).k = x.k := rfl
@[simp] theorem Bank.setDebt_flags (x : Bank) (n v : Nat) : (x.setDebt n v).flags = x.flags := rfl
@[simp] theorem Bank.setDebt_hsp (x : Bank) (n v : Nat) : (x.setDebt n v).hsp = x.hsp := rfl
@[simp] theorem Bank.setDebt_ss0 (x : Bank) (n v : Nat) : (x.setDebt n v).ss0 = x.ss0 := rfl
@[simp] theorem Bank.setDebt_ss1 (x : Bank) (n v : Nat) : (x.setDebt n v).ss1 = x.ss1 := rfl
@[simp] theorem Bank.setDebt_panes (x : Bank) (n v : Nat) : (x.setDebt n v).panes = x.panes := rfl
@[simp] theorem Bank.setDebt_slots (x : Bank) (n v : Nat) : (x.setDebt n v).slots = x.slots := rfl
@[simp] theorem Bank.setDebt_hot (x : Bank) (n v : Nat) : (x.setDebt n v).hot = x.hot := rfl
@[simp] theorem Bank.setDebt_forced (x : Bank) (n v : Nat) : (x.setDebt n v).forced = x.forced := rfl
@[simp] theorem Bank.setDebt_claim (x : Bank) (n v : Nat) : (x.setDebt n v).claim = x.claim := rfl

@[simp] theorem Seat.setPart?_isCC (t : Seat) (q : Nat) (p : Option Part) : (t.setPart? q p).isCC = t.isCC := rfl
@[simp] theorem Seat.setPart?_launch (t : Seat) (q : Nat) (p : Option Part) : (t.setPart? q p).launch = t.launch := rfl
@[simp] theorem Seat.setPart?_task (t : Seat) (q : Nat) (p : Option Part) : (t.setPart? q p).task = t.task := rfl
@[simp] theorem Seat.setPart?_base (t : Seat) (q : Nat) (p : Option Part) : (t.setPart? q p).base = t.base := rfl
@[simp] theorem Seat.setPart?_log2s (t : Seat) (q : Nat) (p : Option Part) : (t.setPart? q p).log2s = t.log2s := rfl
@[simp] theorem Seat.setPart?_phase (t : Seat) (q : Nat) (p : Option Part) : (t.setPart? q p).phase = t.phase := rfl
@[simp] theorem Seat.setPart?_run (t : Seat) (q : Nat) (p : Option Part) : (t.setPart? q p).run = t.run := rfl
@[simp] theorem Seat.setPart?_status (t : Seat) (q : Nat) (p : Option Part) : (t.setPart? q p).status = t.status := rfl
@[simp] theorem Seat.setPart?_cause (t : Seat) (q : Nat) (p : Option Part) : (t.setPart? q p).cause = t.cause := rfl
@[simp] theorem Seat.setPart?_epc (t : Seat) (q : Nat) (p : Option Part) : (t.setPart? q p).epc = t.epc := rfl
@[simp] theorem Seat.setPart?_tval (t : Seat) (q : Nat) (p : Option Part) : (t.setPart? q p).tval = t.tval := rfl
@[simp] theorem Seat.setPart?_tvec (t : Seat) (q : Nat) (p : Option Part) : (t.setPart? q p).tvec = t.tvec := rfl
@[simp] theorem Seat.setPart?_lcap (t : Seat) (q : Nat) (p : Option Part) : (t.setPart? q p).lcap = t.lcap := rfl
@[simp] theorem Seat.setPart?_prio (t : Seat) (q : Nat) (p : Option Part) : (t.setPart? q p).prio = t.prio := rfl
@[simp] theorem Seat.setPart?_recPrio (t : Seat) (q : Nat) (p : Option Part) : (t.setPart? q p).recPrio = t.recPrio := rfl
@[simp] theorem Seat.setPart?_stage (t : Seat) (q : Nat) (p : Option Part) : (t.setPart? q p).stage = t.stage := rfl
@[simp] theorem Seat.setPart?_taskid (t : Seat) (q : Nat) (p : Option Part) : (t.setPart? q p).taskid = t.taskid := rfl
@[simp] theorem Seat.setPart?_rows (t : Seat) (q : Nat) (p : Option Part) : (t.setPart? q p).rows = t.rows := rfl
@[simp] theorem Seat.setPart?_shape (t : Seat) (q : Nat) (p : Option Part) : (t.setPart? q p).shape = t.shape := rfl
@[simp] theorem Seat.setPart?_sram (t : Seat) (q : Nat) (p : Option Part) : (t.setPart? q p).sram = t.sram := rfl
@[simp] theorem Seat.setPart?_bars (t : Seat) (q : Nat) (p : Option Part) : (t.setPart? q p).bars = t.bars := rfl
@[simp] theorem Seat.setPart?_handler (t : Seat) (q : Nat) (p : Option Part) : (t.setPart? q p).handler = t.handler := rfl
@[simp] theorem Seat.setPart?_preempt (t : Seat) (q : Nat) (p : Option Part) : (t.setPart? q p).preempt = t.preempt := rfl
@[simp] theorem Seat.setPart?_disp (t : Seat) (q : Nat) (p : Option Part) : (t.setPart? q p).disp = t.disp := rfl
@[simp] theorem Seat.setPart?_ptbr (t : Seat) (q : Nat) (p : Option Part) : (t.setPart? q p).ptbr = t.ptbr := rfl
@[simp] theorem Seat.setPart?_timecmp (t : Seat) (q : Nat) (p : Option Part) : (t.setPart? q p).timecmp = t.timecmp := rfl
@[simp] theorem Seat.setPart?_red (t : Seat) (q : Nat) (p : Option Part) : (t.setPart? q p).red = t.red := rfl

@[simp] theorem Part.advance_xidx (p : Part) : p.advance.xidx = p.xidx := by unfold Part.advance; split <;> (try split) <;> rfl
@[simp] theorem Part.advance_rm (p : Part) : p.advance.rm = p.rm := by unfold Part.advance; split <;> (try split) <;> rfl
@[simp] theorem Part.advance_active (p : Part) : p.advance.active = p.active := by unfold Part.advance; split <;> (try split) <;> rfl
@[simp] theorem Part.advance_splits (p : Part) : p.advance.splits = p.splits := by unfold Part.advance; split <;> (try split) <;> rfl
@[simp] theorem Part.advance_claim (p : Part) : p.advance.claim = p.claim := by unfold Part.advance; split <;> (try split) <;> rfl
@[simp] theorem Part.advance_entry (p : Part) : p.advance.entry = p.entry := by unfold Part.advance; split <;> (try split) <;> rfl
@[simp] theorem Part.advance_got (p : Part) : p.advance.got = p.got := by unfold Part.advance; split <;> (try split) <;> rfl
@[simp] theorem Part.advance_loaded (p : Part) : p.advance.loaded = p.loaded := by unfold Part.advance; split <;> (try split) <;> rfl
@[simp] theorem Part.advance_stored (p : Part) : p.advance.stored = p.stored := by unfold Part.advance; split <;> (try split) <;> rfl
@[simp] theorem Part.advance_recs (p : Part) : p.advance.recs = p.recs := by unfold Part.advance; split <;> (try split) <;> rfl
@[simp] theorem Part.advance_wait (p : Part) : p.advance.wait = none := by unfold Part.advance; split <;> (try split) <;> rfl
@[simp] theorem Part.advance_begun (p : Part) : p.advance.begun = 0 := by unfold Part.advance; split <;> (try split) <;> rfl
@[simp] theorem Part.endConvoy_pc (p : Part) : p.endConvoy.pc = p.pc := rfl
@[simp] theorem Part.endConvoy_xidx (p : Part) : p.endConvoy.xidx = p.xidx := rfl
@[simp] theorem Part.endConvoy_rm (p : Part) : p.endConvoy.rm = p.rm := rfl
@[simp] theorem Part.endConvoy_active (p : Part) : p.endConvoy.active = p.active := rfl
@[simp] theorem Part.endConvoy_splits (p : Part) : p.endConvoy.splits = p.splits := rfl
@[simp] theorem Part.endConvoy_wait (p : Part) : p.endConvoy.wait = p.wait := rfl
@[simp] theorem Part.endConvoy_claim (p : Part) : p.endConvoy.claim = p.claim := rfl
@[simp] theorem Part.endConvoy_entry (p : Part) : p.endConvoy.entry = p.entry := rfl
@[simp] theorem Part.endConvoy_got (p : Part) : p.endConvoy.got = p.got := rfl
@[simp] theorem Part.endConvoy_begun (p : Part) : p.endConvoy.begun = p.begun := rfl
@[simp] theorem Part.endConvoy_loaded (p : Part) : p.endConvoy.loaded = p.loaded := rfl
@[simp] theorem Part.endConvoy_stored (p : Part) : p.endConvoy.stored = p.stored := rfl
@[simp] theorem Part.endConvoy_recs (p : Part) : p.endConvoy.recs = p.recs := rfl
@[simp] theorem Part.endConvoy_convoy (p : Part) : p.endConvoy.convoy = none := rfl

@[simp] theorem State.touch_cores (s : State) (pa : Nat) : (s.touch pa).cores = s.cores := by unfold State.touch; split <;> rfl
@[simp] theorem State.noteBegun_quads (s : State) (x : BitVec 16) : (s.noteBegun x).quads = s.quads := rfl
@[simp] theorem State.touch_quads (s : State) (pa : Nat) : (s.touch pa).quads = s.quads := by unfold State.touch; split <;> rfl
@[simp] theorem State.noteBegun_mem (s : State) (x : BitVec 16) : (s.noteBegun x).mem = s.mem := rfl
@[simp] theorem State.touch_mem (s : State) (pa : Nat) : (s.touch pa).mem = s.mem := by unfold State.touch; split <;> rfl
@[simp] theorem State.noteBegun_poison (s : State) (x : BitVec 16) : (s.noteBegun x).poison = s.poison := rfl
@[simp] theorem State.touch_poison (s : State) (pa : Nat) : (s.touch pa).poison = s.poison := by unfold State.touch; split <;> rfl
@[simp] theorem State.noteBegun_linked (s : State) (x : BitVec 16) : (s.noteBegun x).linked = s.linked := rfl
@[simp] theorem State.touch_linked (s : State) (pa : Nat) : (s.touch pa).linked = s.linked := by unfold State.touch; split <;> rfl
@[simp] theorem State.noteBegun_ahead (s : State) (x : BitVec 16) : (s.noteBegun x).ahead = s.ahead := rfl
@[simp] theorem State.touch_ahead (s : State) (pa : Nat) : (s.touch pa).ahead = s.ahead := by unfold State.touch; split <;> rfl
@[simp] theorem State.noteBegun_ops (s : State) (x : BitVec 16) : (s.noteBegun x).ops = s.ops := rfl
@[simp] theorem State.touch_ops (s : State) (pa : Nat) : (s.touch pa).ops = s.ops := by unfold State.touch; split <;> rfl
@[simp] theorem State.noteBegun_opAge (s : State) (x : BitVec 16) : (s.noteBegun x).opAge = s.opAge := rfl
@[simp] theorem State.touch_opAge (s : State) (pa : Nat) : (s.touch pa).opAge = s.opAge := by unfold State.touch; split <;> rfl
@[simp] theorem State.noteBegun_launches (s : State) (x : BitVec 16) : (s.noteBegun x).launches = s.launches := rfl
@[simp] theorem State.touch_launches (s : State) (pa : Nat) : (s.touch pa).launches = s.launches := by unfold State.touch; split <;> rfl
@[simp] theorem State.noteBegun_taskAge (s : State) (x : BitVec 16) : (s.noteBegun x).taskAge = s.taskAge := rfl
@[simp] theorem State.touch_taskAge (s : State) (pa : Nat) : (s.touch pa).taskAge = s.taskAge := by unfold State.touch; split <;> rfl
@[simp] theorem State.noteBegun_links (s : State) (x : BitVec 16) : (s.noteBegun x).links = s.links := rfl
@[simp] theorem State.touch_links (s : State) (pa : Nat) : (s.touch pa).links = s.links := by unfold State.touch; split <;> rfl
@[simp] theorem State.noteBegun_peers (s : State) (x : BitVec 16) : (s.noteBegun x).peers = s.peers := rfl
@[simp] theorem State.touch_peers (s : State) (pa : Nat) : (s.touch pa).peers = s.peers := by unfold State.touch; split <;> rfl
@[simp] theorem State.noteBegun_rxq (s : State) (x : BitVec 16) : (s.noteBegun x).rxq = s.rxq := rfl
@[simp] theorem State.touch_rxq (s : State) (pa : Nat) : (s.touch pa).rxq = s.rxq := by unfold State.touch; split <;> rfl
@[simp] theorem State.noteBegun_migs (s : State) (x : BitVec 16) : (s.noteBegun x).migs = s.migs := rfl
@[simp] theorem State.noteBegun_groups (s : State) (x : BitVec 16) : (s.noteBegun x).groups = s.groups := rfl
@[simp] theorem State.touch_groups (s : State) (pa : Nat) : (s.touch pa).groups = s.groups := by unfold State.touch; split <;> rfl
@[simp] theorem State.noteBegun_selfNode (s : State) (x : BitVec 16) : (s.noteBegun x).selfNode = s.selfNode := rfl
@[simp] theorem State.touch_selfNode (s : State) (pa : Nat) : (s.touch pa).selfNode = s.selfNode := by unfold State.touch; split <;> rfl
@[simp] theorem State.noteBegun_ccbars (s : State) (x : BitVec 16) : (s.noteBegun x).ccbars = s.ccbars := rfl
@[simp] theorem State.touch_ccbars (s : State) (pa : Nat) : (s.touch pa).ccbars = s.ccbars := by unfold State.touch; split <;> rfl
@[simp] theorem State.noteBegun_harvest (s : State) (x : BitVec 16) : (s.noteBegun x).harvest = s.harvest := rfl
@[simp] theorem State.touch_harvest (s : State) (pa : Nat) : (s.touch pa).harvest = s.harvest := by unfold State.touch; split <;> rfl
@[simp] theorem State.noteBegun_lctl (s : State) (x : BitVec 16) : (s.noteBegun x).lctl = s.lctl := rfl
@[simp] theorem State.touch_lctl (s : State) (pa : Nat) : (s.touch pa).lctl = s.lctl := by unfold State.touch; split <;> rfl
@[simp] theorem State.noteBegun_log (s : State) (x : BitVec 16) : (s.noteBegun x).log = s.log := rfl
@[simp] theorem State.touch_log (s : State) (pa : Nat) : (s.touch pa).log = s.log := by unfold State.touch; split <;> rfl
@[simp] theorem State.noteBegun_power (s : State) (x : BitVec 16) : (s.noteBegun x).power = s.power := rfl
@[simp] theorem State.touch_power (s : State) (pa : Nat) : (s.touch pa).power = s.power := by unfold State.touch; split <;> rfl
@[simp] theorem State.noteBegun_boot (s : State) (x : BitVec 16) : (s.noteBegun x).boot = s.boot := rfl
@[simp] theorem State.touch_boot (s : State) (pa : Nat) : (s.touch pa).boot = s.boot := by unfold State.touch; split <;> rfl
@[simp] theorem State.noteBegun_mgmtOut (s : State) (x : BitVec 16) : (s.noteBegun x).mgmtOut = s.mgmtOut := rfl
@[simp] theorem State.touch_mgmtOut (s : State) (pa : Nat) : (s.touch pa).mgmtOut = s.mgmtOut := by unfold State.touch; split <;> rfl
@[simp] theorem State.noteBegun_telemetry (s : State) (x : BitVec 16) : (s.noteBegun x).telemetry = s.telemetry := rfl
@[simp] theorem State.touch_telemetry (s : State) (pa : Nat) : (s.touch pa).telemetry = s.telemetry := by unfold State.touch; split <;> rfl
@[simp] theorem State.noteBegun_ns (s : State) (x : BitVec 16) : (s.noteBegun x).ns = s.ns := rfl
@[simp] theorem State.touch_ns (s : State) (pa : Nat) : (s.touch pa).ns = s.ns := by unfold State.touch; split <;> rfl
@[simp] theorem State.noteBegun_free (s : State) (x : BitVec 16) : (s.noteBegun x).free = s.free := rfl
@[simp] theorem State.touch_free (s : State) (pa : Nat) : (s.touch pa).free = s.free := by unfold State.touch; split <;> rfl
@[simp] theorem State.noteBegun_focus (s : State) (x : BitVec 16) : (s.noteBegun x).focus = s.focus := rfl
@[simp] theorem State.touch_focus (s : State) (pa : Nat) : (s.touch pa).focus = s.focus := by unfold State.touch; split <;> rfl
@[simp] theorem State.noteBegun_waits (s : State) (x : BitVec 16) : (s.noteBegun x).waits = s.waits := rfl
@[simp] theorem State.touch_waits (s : State) (pa : Nat) : (s.touch pa).waits = s.waits := by unfold State.touch; split <;> rfl
@[simp] theorem State.noteBegun_lastAmo (s : State) (x : BitVec 16) : (s.noteBegun x).lastAmo = s.lastAmo := rfl
@[simp] theorem State.touch_lastAmo (s : State) (pa : Nat) : (s.touch pa).lastAmo = s.lastAmo := by unfold State.touch; split <;> rfl
@[simp] theorem State.noteBegun_due (s : State) (x : BitVec 16) : (s.noteBegun x).due = s.due := rfl
@[simp] theorem State.touch_due (s : State) (pa : Nat) : (s.touch pa).due = s.due := by unfold State.touch; split <;> rfl
@[simp] theorem State.noteBegun_agenda (s : State) (x : BitVec 16) : (s.noteBegun x).agenda = s.agenda := rfl
@[simp] theorem State.touch_agenda (s : State) (pa : Nat) : (s.touch pa).agenda = s.agenda := by unfold State.touch; split <;> rfl
@[simp] theorem State.dropAhead_cores (s : State) (g : Ahead → Bool) : (s.dropAhead g).cores = s.cores := rfl
@[simp] theorem State.dropAhead_quads (s : State) (g : Ahead → Bool) : (s.dropAhead g).quads = s.quads := rfl
@[simp] theorem State.dropAhead_mem (s : State) (g : Ahead → Bool) : (s.dropAhead g).mem = s.mem := rfl
@[simp] theorem State.dropAhead_poison (s : State) (g : Ahead → Bool) : (s.dropAhead g).poison = s.poison := rfl
@[simp] theorem State.dropAhead_linked (s : State) (g : Ahead → Bool) : (s.dropAhead g).linked = s.linked := rfl
@[simp] theorem State.dropAhead_ops (s : State) (g : Ahead → Bool) : (s.dropAhead g).ops = s.ops := rfl
@[simp] theorem State.dropAhead_opAge (s : State) (g : Ahead → Bool) : (s.dropAhead g).opAge = s.opAge := rfl
@[simp] theorem State.dropAhead_launches (s : State) (g : Ahead → Bool) : (s.dropAhead g).launches = s.launches := rfl
@[simp] theorem State.dropAhead_taskAge (s : State) (g : Ahead → Bool) : (s.dropAhead g).taskAge = s.taskAge := rfl
@[simp] theorem State.dropAhead_links (s : State) (g : Ahead → Bool) : (s.dropAhead g).links = s.links := rfl
@[simp] theorem State.dropAhead_peers (s : State) (g : Ahead → Bool) : (s.dropAhead g).peers = s.peers := rfl
@[simp] theorem State.dropAhead_rxq (s : State) (g : Ahead → Bool) : (s.dropAhead g).rxq = s.rxq := rfl
@[simp] theorem State.dropAhead_migs (s : State) (g : Ahead → Bool) : (s.dropAhead g).migs = s.migs := rfl
@[simp] theorem State.dropAhead_groups (s : State) (g : Ahead → Bool) : (s.dropAhead g).groups = s.groups := rfl
@[simp] theorem State.dropAhead_selfNode (s : State) (g : Ahead → Bool) : (s.dropAhead g).selfNode = s.selfNode := rfl
@[simp] theorem State.dropAhead_ccbars (s : State) (g : Ahead → Bool) : (s.dropAhead g).ccbars = s.ccbars := rfl
@[simp] theorem State.dropAhead_harvest (s : State) (g : Ahead → Bool) : (s.dropAhead g).harvest = s.harvest := rfl
@[simp] theorem State.dropAhead_lctl (s : State) (g : Ahead → Bool) : (s.dropAhead g).lctl = s.lctl := rfl
@[simp] theorem State.dropAhead_log (s : State) (g : Ahead → Bool) : (s.dropAhead g).log = s.log := rfl
@[simp] theorem State.dropAhead_power (s : State) (g : Ahead → Bool) : (s.dropAhead g).power = s.power := rfl
@[simp] theorem State.dropAhead_boot (s : State) (g : Ahead → Bool) : (s.dropAhead g).boot = s.boot := rfl
@[simp] theorem State.dropAhead_mgmtOut (s : State) (g : Ahead → Bool) : (s.dropAhead g).mgmtOut = s.mgmtOut := rfl
@[simp] theorem State.dropAhead_telemetry (s : State) (g : Ahead → Bool) : (s.dropAhead g).telemetry = s.telemetry := rfl
@[simp] theorem State.dropAhead_ns (s : State) (g : Ahead → Bool) : (s.dropAhead g).ns = s.ns := rfl
@[simp] theorem State.dropAhead_free (s : State) (g : Ahead → Bool) : (s.dropAhead g).free = s.free := rfl
@[simp] theorem State.dropAhead_focus (s : State) (g : Ahead → Bool) : (s.dropAhead g).focus = s.focus := rfl
@[simp] theorem State.dropAhead_waits (s : State) (g : Ahead → Bool) : (s.dropAhead g).waits = s.waits := rfl
@[simp] theorem State.dropAhead_lastAmo (s : State) (g : Ahead → Bool) : (s.dropAhead g).lastAmo = s.lastAmo := rfl
@[simp] theorem State.dropAhead_due (s : State) (g : Ahead → Bool) : (s.dropAhead g).due = s.due := rfl
@[simp] theorem State.dropAhead_agenda (s : State) (g : Ahead → Bool) : (s.dropAhead g).agenda = s.agenda := rfl

end Sys2Proof.Machine
end

