-- ==== Sys2Proof/Laws/Table.lean ====
section
/-! SUPPORT. Sys2Proof/Laws/Table.lean: reading after writing a table, and the canonical form of the memory: every operation that
changes the memory's list keeps it. -/

namespace Sys2Proof.Machine

/-! ## Reading after writing -/

@[simp] theorem look_put_same {α : Type} (d : α) (t : Table α) (k : Nat) (v : α) : look d (put t k v) k = v := by
  induction t with
  | nil => simp [put, look]
  | cons p t ih =>
    obtain ⟨k', v'⟩ := p
    unfold put
    split
    · simp [look]
    · split
      · simp [look]
      · rename_i h1 h2
        simp [look, h1, h2, ih]

theorem look_put_other {α : Type} (d : α) (t : Table α) (k j : Nat) (v : α) (h : j ≠ k) : look d (put t k v) j = look d t j := by
  induction t with
  | nil =>
    simp only [put, look, if_neg h]
    split <;> rfl
  | cons p t ih =>
    obtain ⟨k', v'⟩ := p
    unfold put
    split
    · subst_vars
      simp [look, h]
    · split
      · simp only [look, if_neg h]
        by_cases h1 : j < k
        · have h2 : j ≠ k' := by omega
          have h3 : j < k' := by omega
          simp [h1, h2, h3]
        · simp [h1]
      · simp only [look, ih]

theorem look_put {α : Type} (d : α) (t : Table α) (k j : Nat) (v : α) : look d (put t k v) j = if j = k then v else look d t j := by
  by_cases h : j = k
  · subst h; simp
  · simp [h, look_put_other d t k j v h]

/-! ## The canonical form -/

theorem bytesFrom_le {t : Table Byte} {lo hi : Nat} (h : bytesFrom hi t = true) (hl : lo ≤ hi) : bytesFrom lo t = true := by
  cases t with
  | nil => rfl
  | cons p t =>
    obtain ⟨k, v⟩ := p
    simp only [bytesFrom, Bool.and_eq_true, decide_eq_true_eq] at h ⊢
    exact ⟨⟨by omega, h.1.2⟩, h.2⟩

/-- A listed memory reads zero below its first address. -/
theorem look_below {t : Table Byte} {lo a : Nat} (h : bytesFrom lo t = true) (ha : a < lo) : look 0 t a = 0 := by
  cases t with
  | nil => rfl
  | cons p t =>
    obtain ⟨k, v⟩ := p
    simp only [bytesFrom, Bool.and_eq_true, decide_eq_true_eq] at h
    have h1 : a ≠ k := by omega
    have h2 : a < k := by omega
    simp [look, h1, h2]

theorem bytesFrom_put {t : Table Byte} {lo k : Nat} {v : Byte} (h : bytesFrom lo t = true) (hk : lo ≤ k) (hv : v ≠ 0) :
    bytesFrom lo (put t k v) = true := by
  induction t generalizing lo with
  | nil => simpa [put, bytesFrom, hk] using hv
  | cons p t ih =>
    obtain ⟨k', v'⟩ := p
    simp only [bytesFrom, Bool.and_eq_true, decide_eq_true_eq] at h
    unfold put
    split
    · subst_vars
      simpa [bytesFrom, h] using hv
    · split
      · rename_i h1 h2
        simp only [bytesFrom, Bool.and_eq_true, decide_eq_true_eq]
        exact ⟨⟨hk, by simpa using hv⟩, ⟨by omega, h.1.2⟩, h.2⟩
      · rename_i h1 h2
        simp only [bytesFrom, Bool.and_eq_true, decide_eq_true_eq]
        exact ⟨⟨h.1.1, h.1.2⟩, ih h.2 (by omega)⟩

/-- Dropping entries below a bound keeps the form. -/
theorem bytesFrom_dropWhile {t : Table Byte} {lo k : Nat} (h : bytesFrom lo t = true) :
    bytesFrom lo (t.dropWhile (fun p => p.1 ≤ k)) = true := by
  induction t generalizing lo with
  | nil => simpa using h
  | cons p t ih =>
    obtain ⟨k', v'⟩ := p
    simp only [List.dropWhile_cons]
    split
    · simp only [bytesFrom, Bool.and_eq_true, decide_eq_true_eq] at h
      exact bytesFrom_le (ih h.2) (by omega)
    · exact h

theorem bytesFrom_del {t : Table Byte} {lo k : Nat} (h : bytesFrom lo t = true) : bytesFrom lo (del t k) = true := by
  induction t generalizing lo with
  | nil => simpa [del] using h
  | cons p t ih =>
    obtain ⟨k', v'⟩ := p
    unfold del
    split
    · simp only [bytesFrom, Bool.and_eq_true, decide_eq_true_eq] at h
      exact bytesFrom_dropWhile (bytesFrom_le h.2 (by omega))
    · split
      · exact h
      · simp only [bytesFrom, Bool.and_eq_true, decide_eq_true_eq] at h ⊢
        exact ⟨h.1, ih h.2⟩

theorem bytesFrom_putByte {t : Table Byte} {lo k : Nat} {v : Byte} (h : bytesFrom lo t = true) (hk : lo ≤ k) :
    bytesFrom lo (putByte t k v) = true := by
  unfold putByte
  split
  · exact bytesFrom_del h
  · exact bytesFrom_put h hk (by assumption)

/-- Writing one byte keeps the canonical form. -/
theorem bytesWf_putByte {t : Table Byte} {k : Nat} {v : Byte} (h : bytesWf t = true) : bytesWf (putByte t k v) = true :=
  bytesFrom_putByte h (Nat.zero_le k)

/-- Writing n bytes keeps the canonical form. -/
theorem bytesWf_writeLE {t : Table Byte} (a v n : Nat) (h : bytesWf t = true) : bytesWf (writeLE t a v n) = true := by
  induction n generalizing t a v with
  | zero => exact h
  | succ n ih => exact ih _ _ (bytesWf_putByte h)

theorem bytesFrom_filter {t : Table Byte} {lo : Nat} (f : Nat × Byte → Bool) (h : bytesFrom lo t = true) :
    bytesFrom lo (t.filter f) = true := by
  induction t generalizing lo with
  | nil => simpa using h
  | cons p t ih =>
    obtain ⟨k, v⟩ := p
    simp only [bytesFrom, Bool.and_eq_true, decide_eq_true_eq] at h
    simp only [List.filter_cons]
    split
    · simp only [bytesFrom, Bool.and_eq_true, decide_eq_true_eq]
      exact ⟨h.1, ih h.2⟩
    · exact bytesFrom_le (ih h.2) (by omega)

/-- Erasing a range keeps the canonical form. -/
theorem bytesWf_erase {t : Table Byte} (a n : Nat) (h : bytesWf t = true) : bytesWf (erase t a n) = true :=
  bytesFrom_filter _ h

theorem bytesWf_pasteBytes {t : Table Byte} (a n : Nat) (img : Table Byte) (h : bytesWf t = true) :
    bytesWf (pasteBytes t a n img) = true := by
  induction img generalizing t with
  | nil => exact h
  | cons p img ih =>
    obtain ⟨k, v⟩ := p
    simp only [pasteBytes]
    split
    · exact ih (bytesWf_putByte h)
    · exact ih h

/-- Replacing a range by an image keeps the canonical form. -/
theorem bytesWf_paste {t : Table Byte} (a n : Nat) (img : Table Byte) (h : bytesWf t = true) : bytesWf (paste t a n img) = true :=
  bytesWf_pasteBytes a n img (bytesWf_erase a n h)

/-! ## Reading bytes back -/

theorem look_del_other {t : Table Byte} {lo k j : Nat} (h : bytesFrom lo t = true) (hj : j ≠ k) : look 0 (del t k) j = look 0 t j := by
  induction t generalizing lo with
  | nil => rfl
  | cons p t ih =>
    obtain ⟨k', v'⟩ := p
    simp only [bytesFrom, Bool.and_eq_true, decide_eq_true_eq] at h
    unfold del
    split
    · rename_i hk
      subst hk
      have ht : t.dropWhile (fun p => decide (p.1 ≤ k)) = t := by
        cases t with
        | nil => rfl
        | cons q t =>
          obtain ⟨k2, v2⟩ := q
          have h2 := h.2
          simp only [bytesFrom, Bool.and_eq_true, decide_eq_true_eq] at h2
          have h3 : ¬ k2 ≤ k := by omega
          simp [h3]
      simp only [ht, look, if_neg hj]
      by_cases h1 : j < k
      · simp only [h1, if_true]
        exact look_below h.2 (by omega)
      · simp [h1]
    · split
      · rfl
      · simp only [look, ih h.2]

theorem look_del_same {t : Table Byte} {lo k : Nat} (h : bytesFrom lo t = true) : look 0 (del t k) k = 0 := by
  induction t generalizing lo with
  | nil => rfl
  | cons p t ih =>
    obtain ⟨k', v'⟩ := p
    simp only [bytesFrom, Bool.and_eq_true, decide_eq_true_eq] at h
    unfold del
    split
    · rename_i hk
      subst hk
      exact look_below (lo := k + 1) (bytesFrom_dropWhile h.2) (by omega)
    · split
      · rename_i h1 h2
        simp [look, h1, h2]
      · rename_i h1 h2
        simp only [look, if_neg h1, if_neg h2, ih h.2]

/-- A byte reads back as written, and no other byte changes. -/
theorem look_putByte {t : Table Byte} {k j : Nat} {v : Byte} (h : bytesWf t = true) :
    look 0 (putByte t k v) j = if j = k then v else look 0 t j := by
  unfold putByte
  split
  · rename_i hv
    by_cases hj : j = k
    · subst hj
      rw [look_del_same h, if_pos rfl, hv]
    · rw [look_del_other h hj, if_neg hj]
  · exact look_put 0 t k j v

/-- n bytes written leave every other byte as it was. -/
theorem look_writeLE_other {t : Table Byte} (a v n j : Nat) (h : bytesWf t = true) (hj : j < a ∨ a + n ≤ j) :
    look 0 (writeLE t a v n) j = look 0 t j := by
  induction n generalizing t a v with
  | zero => rfl
  | succ n ih =>
    simp only [writeLE]
    rw [ih (a + 1) (v / 256) (bytesWf_putByte h) (by omega), look_putByte h, if_neg (by omega)]

/-- Byte i of a number written at a. -/
theorem look_writeLE {t : Table Byte} (a v n i : Nat) (h : bytesWf t = true) (hi : i < n) :
    look 0 (writeLE t a v n) (a + i) = BitVec.ofNat 8 (v / 256 ^ i) := by
  induction n generalizing t a v i with
  | zero => omega
  | succ n ih =>
    simp only [writeLE]
    cases i with
    | zero =>
      rw [look_writeLE_other (a + 1) (v / 256) n (a + 0) (bytesWf_putByte h) (by omega), look_putByte h]
      simp
    | succ i =>
      have := ih (t := putByte t a (BitVec.ofNat 8 v)) (a + 1) (v / 256) i (bytesWf_putByte h) (by omega)
      rw [show a + (i + 1) = a + 1 + i by omega, this, Nat.div_div_eq_div_mul, Nat.pow_succ, Nat.mul_comm]

/-- A number reads back as written, modulo its bytes. -/
theorem readLE_writeLE {t : Table Byte} (a v n : Nat) (h : bytesWf t = true) : readLE (writeLE t a v n) a n = v % 256 ^ n := by
  induction n generalizing t a v with
  | zero => simp [readLE, Nat.mod_one]
  | succ n ih =>
    simp only [writeLE, readLE]
    rw [ih (a + 1) (v / 256) (bytesWf_putByte h), look_writeLE_other (a + 1) (v / 256) n a (bytesWf_putByte h) (by omega), look_putByte h]
    rw [if_pos rfl, BitVec.toNat_ofNat, show 256 ^ (n + 1) = 256 * 256 ^ n by rw [Nat.pow_succ, Nat.mul_comm], Nat.mod_mul]

end Sys2Proof.Machine
end

