-- ==== Sys2Proof/Laws/Access.lean ====
section
/-! SUPPORT. Sys2Proof/Laws/Access.lean: reading a part of the state after writing one: cores, banks, seats, parts, registers. -/

namespace Sys2Proof.Machine

/-! ## Cores, banks, seats -/

theorem State.core_setCore (s : State) (c d : Nat) (v : Core) : (s.setCore c v).core d = if d = c then v else s.core d := by
  simp [State.core, State.setCore, look_put]

@[simp] theorem State.core_setCore_same (s : State) (c : Nat) (v : Core) : (s.setCore c v).core c = v := by simp [core_setCore]

theorem State.bank_setBank (s : State) (c b d e : Nat) (v : Bank) :
    (s.setBank c b v).bank d e = if d = c ∧ e = b then v else s.bank d e := by
  unfold State.bank State.setBank State.modCore
  rw [core_setCore]
  by_cases hd : d = c
  · subst hd
    simp [look_put]
  · simp [hd]

@[simp] theorem State.bank_setBank_same (s : State) (c b : Nat) (v : Bank) : (s.setBank c b v).bank c b = v := by simp [bank_setBank]

theorem State.bank_modBank (s : State) (c b d e : Nat) (f : Bank → Bank) :
    (s.modBank c b f).bank d e = if d = c ∧ e = b then f (s.bank d e) else s.bank d e := by
  unfold State.modBank
  rw [bank_setBank]
  split
  · rename_i h
    rw [h.1, h.2]
  · rfl

@[simp] theorem State.bank_modBank_same (s : State) (c b : Nat) (f : Bank → Bank) : (s.modBank c b f).bank c b = f (s.bank c b) := by
  simp [bank_modBank]

/-- Each bank of the list is changed once, the others not at all. -/
theorem State.bank_modBanks (s : State) (c : Nat) (f : Nat → Bank → Bank) (bs : List Nat) (d e : Nat) (h : bs.Nodup) :
    (s.modBanks c f bs).bank d e = if d = c ∧ e ∈ bs then f e (s.bank d e) else s.bank d e := by
  induction bs generalizing s with
  | nil => simp [State.modBanks]
  | cons b bs ih =>
    rw [List.nodup_cons] at h
    simp only [State.modBanks]
    rw [ih _ h.2, bank_modBank]
    by_cases hd : d = c
    · subst hd
      by_cases he : e = b
      · subst he
        simp [h.1]
      · simp [he]
    · simp [hd]

theorem State.seat?_setSeat? (s : State) (c b d e : Nat) (v : Option Seat) :
    (s.setSeat? c b v).seat? d e = if d = c ∧ e = b then v else s.seat? d e := by
  unfold State.seat? State.setSeat? State.modCore
  rw [core_setCore]
  by_cases hd : d = c
  · subst hd
    simp [look_put]
  · simp [hd]

@[simp] theorem State.bank_setSeat? (s : State) (c b d e : Nat) (v : Option Seat) : (s.setSeat? c b v).bank d e = s.bank d e := by
  unfold State.bank State.setSeat? State.modCore
  rw [core_setCore]
  split <;> simp_all [State.core]

@[simp] theorem State.seat?_setBank (s : State) (c b d e : Nat) (v : Bank) : (s.setBank c b v).seat? d e = s.seat? d e := by
  unfold State.seat? State.setBank State.modCore
  rw [core_setCore]
  split <;> simp_all [State.core]

@[simp] theorem State.seat?_modBank (s : State) (c b d e : Nat) (f : Bank → Bank) : (s.modBank c b f).seat? d e = s.seat? d e := by
  simp [State.modBank]

@[simp] theorem State.seat?_modBanks (s : State) (c : Nat) (f : Nat → Bank → Bank) (bs : List Nat) (d e : Nat) :
    (s.modBanks c f bs).seat? d e = s.seat? d e := by
  induction bs generalizing s with
  | nil => rfl
  | cons b bs ih => simp [State.modBanks, ih]

@[simp] theorem State.seat_modBank (s : State) (c b : Nat) (a : Agent) (f : Bank → Bank) : (s.modBank c b f).seat a = s.seat a := by
  simp [State.seat, State.seatAt]

@[simp] theorem State.seat_modBanks (s : State) (c : Nat) (f : Nat → Bank → Bank) (bs : List Nat) (a : Agent) :
    (s.modBanks c f bs).seat a = s.seat a := by simp [State.seat, State.seatAt]

@[simp] theorem State.part_modBank (s : State) (c b : Nat) (a : Agent) (f : Bank → Bank) : (s.modBank c b f).part a = s.part a := by
  simp [State.part]

@[simp] theorem State.part_modBanks (s : State) (c : Nat) (f : Nat → Bank → Bank) (bs : List Nat) (a : Agent) :
    (s.modBanks c f bs).part a = s.part a := by simp [State.part]

@[simp] theorem State.seat_setSeat (s : State) (a : Agent) (v : Seat) : (s.setSeat a v).seat a = v := by
  simp [State.seat, State.seatAt, State.setSeat, seat?_setSeat?]

@[simp] theorem State.bank_setSeat (s : State) (a : Agent) (v : Seat) (d e : Nat) : (s.setSeat a v).bank d e = s.bank d e := by
  simp [State.setSeat]

@[simp] theorem State.bank_modSeat (s : State) (a : Agent) (f : Seat → Seat) (d e : Nat) : (s.modSeat a f).bank d e = s.bank d e := by
  simp [State.modSeat]

@[simp] theorem State.seat_modSeat (s : State) (a : Agent) (f : Seat → Seat) : (s.modSeat a f).seat a = f (s.seat a) := by
  simp [State.modSeat]

@[simp] theorem Seat.part?_setPart? (t : Seat) (q r : Nat) (p : Option Part) :
    (t.setPart? q p).part? r = if r = q then p else t.part? r := by simp [Seat.part?, Seat.setPart?, look_put]

@[simp] theorem State.part_setPart (s : State) (a : Agent) (p : Part) : (s.setPart a p).part a = p := by
  simp [State.part, State.setPart]

@[simp] theorem State.bank_setPart (s : State) (a : Agent) (p : Part) (d e : Nat) : (s.setPart a p).bank d e = s.bank d e := by
  simp [State.setPart]

@[simp] theorem State.bank_modPart (s : State) (a : Agent) (f : Part → Part) (d e : Nat) : (s.modPart a f).bank d e = s.bank d e := by
  simp [State.modPart]

@[simp] theorem State.part_modPart (s : State) (a : Agent) (f : Part → Part) : (s.modPart a f).part a = f (s.part a) := by
  simp [State.modPart]

/-- A part's update leaves its seat's other fields. -/
theorem State.seat_setPart (s : State) (a : Agent) (p : Part) : (s.setPart a p).seat a = (s.seat a).setPart? a.seq (some p) := by
  simp [State.setPart]

/-! ## The banks of a part -/

theorem banksOf_nodup (x : BitVec 16) : (banksOf x).Nodup := List.Nodup.filter _ List.nodup_range

theorem State.active_nodup (s : State) : s.active.Nodup := banksOf_nodup _

/-- A change of every active bank: each once, no other bank. -/
theorem State.bank_onActive (s : State) (f : Nat → Bank → Bank) (d e : Nat) :
    (s.onActive f).bank d e = if d = s.focus.core ∧ e ∈ s.active then f e (s.bank d e) else s.bank d e :=
  s.bank_modBanks _ f _ d e s.active_nodup

@[simp] theorem State.part_onActive (s : State) (f : Nat → Bank → Bank) (a : Agent) : (s.onActive f).part a = s.part a := by
  simp [State.onActive]

@[simp] theorem State.seat_onActive (s : State) (f : Nat → Bank → Bank) (a : Agent) : (s.onActive f).seat a = s.seat a := by
  simp [State.onActive]

/-! ## Registers -/

/-- An s-register reads back; s0 reads zero and a write of it is discarded (R13). -/
theorem Bank.rs_ws (b : Bank) (n m : BitVec 5) (v : Word) : (b.ws n v).rs m = if m = n ∧ n ≠ 0 then v else b.rs m := by
  unfold Bank.ws
  by_cases hn : n = 0
  · simp [hn]
  · rw [if_neg hn]
    unfold Bank.rs
    simp only [look_put]
    by_cases hm : m = n
    · subst hm
      rw [if_neg hn, if_pos rfl, if_pos ⟨rfl, hn⟩]
    · have : m.toNat ≠ n.toNat := fun h => hm (BitVec.eq_of_toNat_eq h)
      simp [hm, this]

@[simp] theorem Bank.rs_zero (b : Bank) : b.rs 0 = 0 := by simp [Bank.rs]

theorem Bank.ra_wa (b : Bank) (n m : BitVec 3) (v : Word) : (b.wa n v).ra m = if m = n then aMask v else b.ra m := by
  unfold Bank.wa Bank.ra
  simp only [look_put]
  by_cases hm : m = n
  · simp [hm]
  · have : m.toNat ≠ n.toNat := fun h => hm (BitVec.eq_of_toNat_eq h)
    simp [hm, this]

theorem Bank.rm_wm (b : Bank) (n m : Nat) (v : BitVec 4096) : (b.wm n v).rm m = if m = n then v else b.rm m := by
  simp [Bank.wm, Bank.rm, look_put]

theorem Bank.rk_wk (b : Bank) (n m : BitVec 4) (v : Option (BitVec 32)) : (b.wk n v).rk m = if m = n then v else b.rk m := by
  unfold Bank.wk Bank.rk
  simp only [look_put]
  by_cases hm : m = n
  · simp [hm]
  · have : m.toNat ≠ n.toNat := fun h => hm (BitVec.eq_of_toNat_eq h)
    simp [hm, this]

theorem Bank.pane_setPane (b : Bank) (n m : Nat) (p : Pane) : (b.setPane n p).pane m = if m = n then p else b.pane m := by
  simp [Bank.setPane, Bank.pane, look_put]

/-! ## Operations, links, launches -/

theorem State.op_setOp (s : State) (i j : Nat) (v : ChildOp) : (s.setOp i v).op j = if j = i then v else s.op j := by
  simp [State.op, State.setOp, look_put]

theorem State.link_setLink (s : State) (i j : Nat) (v : Link) : (s.setLink i v).link j = if j = i then v else s.link j := by
  simp [State.link, State.setLink, look_put]

theorem State.peer_setPeer (s : State) (i j : Nat) (v : Peer) : (s.setPeer i v).peer j = if j = i then v else s.peer j := by
  simp [State.peer, State.setPeer, look_put]

theorem State.mig_setMig (s : State) (i j : Nat) (v : Migrator) : (s.setMig i v).mig j = if j = i then v else s.mig j := by
  simp [State.mig, State.setMig, look_put]

theorem State.launch?_setLaunch (s : State) (i j : Nat) (v : Option Launch) :
    (s.setLaunch i v).launch? j = if j = i then v else s.launch? j := by
  simp [State.launch?, State.setLaunch, look_put]

theorem State.quad_setQuad (s : State) (i j : Nat) (v : Quad) : (s.setQuad i v).quad j = if j = i then v else s.quad j := by
  simp [State.quad, State.setQuad, look_put]

end Sys2Proof.Machine
end

