-- ==== Sys2Proof/Laws/Fields.lean ====
section
/-! SUPPORT. Sys2Proof/Laws/Fields.lean: every field read back from the tail or the head it was packed into (R91, R93). -/

namespace Sys2Proof

theorem ext_hi {n m : Nat} (x : BitVec n) (y : BitVec m) (lo w : Nat) (h : m ≤ lo) : (x ++ y).extractLsb' lo w = x.extractLsb' (lo - m) w := by
  rw [BitVec.extractLsb'_append_eq_of_le h]

theorem ext_lo {n m : Nat} (x : BitVec n) (y : BitVec m) (lo w : Nat) (h : lo + w ≤ m) : (x ++ y).extractLsb' lo w = y.extractLsb' lo w := by
  rw [BitVec.extractLsb'_append_eq_of_add_le h]

theorem ext_all {n : Nat} (x : BitVec n) : x.extractLsb' 0 n = x := by simp

@[simp] theorem xD_pack (d : BitVec 5) : xD (0#1 ++ d) = d := by
  unfold xD
  repeat (first | rw [ext_hi _ _ _ _ (by omega)] | rw [ext_lo _ _ _ _ (by omega)])
  exact ext_all _

@[simp] theorem xD3_pack (d : BitVec 3) : xD3 (0#3 ++ d) = d := by
  unfold xD3
  repeat (first | rw [ext_hi _ _ _ _ (by omega)] | rw [ext_lo _ _ _ _ (by omega)])
  exact ext_all _

@[simp] theorem xN_pack (d : BitVec 4) : xN (0#2 ++ d) = d := by
  unfold xN
  repeat (first | rw [ext_hi _ _ _ _ (by omega)] | rw [ext_lo _ _ _ _ (by omega)])
  exact ext_all _

@[simp] theorem xC_pack0 (c : BitVec 3) : xC (0#3 ++ c) = c := by
  unfold xC
  repeat (first | rw [ext_hi _ _ _ _ (by omega)] | rw [ext_lo _ _ _ _ (by omega)])
  exact ext_all _

@[simp] theorem xC_pack1 (c : BitVec 3) : xC (1#3 ++ c) = c := by
  unfold xC
  repeat (first | rw [ext_hi _ _ _ _ (by omega)] | rw [ext_lo _ _ _ _ (by omega)])
  exact ext_all _

@[simp] theorem xC_pack (i c : BitVec 3) : xC (i ++ c) = c := by
  unfold xC
  repeat (first | rw [ext_hi _ _ _ _ (by omega)] | rw [ext_lo _ _ _ _ (by omega)])
  exact ext_all _

@[simp] theorem xId_pack (i c : BitVec 3) : xId (i ++ c) = i := by
  unfold xId
  repeat (first | rw [ext_hi _ _ _ _ (by omega)] | rw [ext_lo _ _ _ _ (by omega)])
  exact ext_all _

@[simp] theorem aF_pack (f : BitVec 6) (a b : BitVec 5) : aF (packA f a b) = f := by
  unfold aF packA
  repeat (first | rw [ext_hi _ _ _ _ (by omega)] | rw [ext_lo _ _ _ _ (by omega)])
  exact ext_all _

@[simp] theorem aA_pack (f : BitVec 6) (a b : BitVec 5) : aA (packA f a b) = a := by
  unfold aA packA
  repeat (first | rw [ext_hi _ _ _ _ (by omega)] | rw [ext_lo _ _ _ _ (by omega)])
  exact ext_all _

@[simp] theorem aB_pack (f : BitVec 6) (a b : BitVec 5) : aB (packA f a b) = b := by
  unfold aB packA
  repeat (first | rw [ext_hi _ _ _ _ (by omega)] | rw [ext_lo _ _ _ _ (by omega)])
  exact ext_all _

@[simp] theorem aA3_pack (f : BitVec 6) (a : BitVec 3) (b : BitVec 5) : aA3 (packA f (0#2 ++ a) b) = a := by
  unfold aA3 packA
  repeat (first | rw [ext_hi _ _ _ _ (by omega)] | rw [ext_lo _ _ _ _ (by omega)])
  exact ext_all _

@[simp] theorem kP_pack (f : BitVec 6) (a : BitVec 4) (b : BitVec 5) : kP (packA f (0#1 ++ a) b) = a := by
  unfold kP packA
  repeat (first | rw [ext_hi _ _ _ _ (by omega)] | rw [ext_lo _ _ _ _ (by omega)])
  exact ext_all _

@[simp] theorem acF_pack (f : BitVec 6) (i : BitVec 10) : aF (packAC f i) = f := by
  unfold aF packAC
  repeat (first | rw [ext_hi _ _ _ _ (by omega)] | rw [ext_lo _ _ _ _ (by omega)])
  exact ext_all _

@[simp] theorem acIdx_pack (f : BitVec 6) (i : BitVec 10) : acIdx (packAC f i) = i := by
  unfold acIdx packAC
  repeat (first | rw [ext_hi _ _ _ _ (by omega)] | rw [ext_lo _ _ _ _ (by omega)])
  exact ext_all _

@[simp] theorem bA_pack (a f : BitVec 5) (i : BitVec 22) : bA (packB a f i) = a := by
  unfold bA packB
  repeat (first | rw [ext_hi _ _ _ _ (by omega)] | rw [ext_lo _ _ _ _ (by omega)])
  exact ext_all _

@[simp] theorem bF_pack (a f : BitVec 5) (i : BitVec 22) : bF (packB a f i) = f := by
  unfold bF packB
  repeat (first | rw [ext_hi _ _ _ _ (by omega)] | rw [ext_lo _ _ _ _ (by omega)])
  exact ext_all _

@[simp] theorem bImm_pack (a f : BitVec 5) (i : BitVec 22) : bImm (packB a f i) = i := by
  unfold bImm packB
  repeat (first | rw [ext_hi _ _ _ _ (by omega)] | rw [ext_lo _ _ _ _ (by omega)])
  exact ext_all _

@[simp] theorem bA3_pack (a : BitVec 3) (f : BitVec 5) (i : BitVec 22) : bA3 (packB (0#2 ++ a) f i) = a := by
  unfold bA3 packB
  repeat (first | rw [ext_hi _ _ _ _ (by omega)] | rw [ext_lo _ _ _ _ (by omega)])
  exact ext_all _

@[simp] theorem cF_pack (f : BitVec 16) (i : BitVec 32) : cF (packC f i) = f := by
  unfold cF packC
  repeat (first | rw [ext_hi _ _ _ _ (by omega)] | rw [ext_lo _ _ _ _ (by omega)])
  exact ext_all _

@[simp] theorem cImm_pack (f : BitVec 16) (i : BitVec 32) : cImm (packC f i) = i := by
  unfold cImm packC
  repeat (first | rw [ext_hi _ _ _ _ (by omega)] | rw [ext_lo _ _ _ _ (by omega)])
  exact ext_all _

@[simp] theorem jA_pack (a b : BitVec 5) (o : BitVec 22) : jA (packJ a b o) = a := by
  unfold jA packJ
  repeat (first | rw [ext_hi _ _ _ _ (by omega)] | rw [ext_lo _ _ _ _ (by omega)])
  exact ext_all _

@[simp] theorem jB_pack (a b : BitVec 5) (o : BitVec 22) : jB (packJ a b o) = b := by
  unfold jB packJ
  repeat (first | rw [ext_hi _ _ _ _ (by omega)] | rw [ext_lo _ _ _ _ (by omega)])
  exact ext_all _

@[simp] theorem jOff_pack (a b : BitVec 5) (o : BitVec 22) : jOff (packJ a b o) = o := by
  unfold jOff packJ
  repeat (first | rw [ext_hi _ _ _ _ (by omega)] | rw [ext_lo _ _ _ _ (by omega)])
  exact ext_all _

@[simp] theorem wA_pack (a : BitVec 3) (s : BitVec 5) (f k : BitVec 4) : wA (packW a s f k) = a := by
  unfold wA packW
  repeat (first | rw [ext_hi _ _ _ _ (by omega)] | rw [ext_lo _ _ _ _ (by omega)])
  exact ext_all _

@[simp] theorem wS_pack (a : BitVec 3) (s : BitVec 5) (f k : BitVec 4) : wS (packW a s f k) = s := by
  unfold wS packW
  repeat (first | rw [ext_hi _ _ _ _ (by omega)] | rw [ext_lo _ _ _ _ (by omega)])
  exact ext_all _

@[simp] theorem wF_pack (a : BitVec 3) (s : BitVec 5) (f k : BitVec 4) : wF (packW a s f k) = f := by
  unfold wF packW
  repeat (first | rw [ext_hi _ _ _ _ (by omega)] | rw [ext_lo _ _ _ _ (by omega)])
  exact ext_all _

@[simp] theorem wK_pack (a : BitVec 3) (s : BitVec 5) (f k : BitVec 4) : wK (packW a s f k) = k := by
  unfold wK packW
  repeat (first | rw [ext_hi _ _ _ _ (by omega)] | rw [ext_lo _ _ _ _ (by omega)])
  exact ext_all _

@[simp] theorem vF_pack (o : VOps) (f : BitVec 6) : vF (packV o f) = f := by
  unfold vF packV
  repeat (first | rw [ext_hi _ _ _ _ (by omega)] | rw [ext_lo _ _ _ _ (by omega)])
  exact ext_all _

@[simp] theorem mF_pack (o : MOps) (f : BitVec 4) : mF (packM o f) = f := by
  unfold mF packM
  repeat (first | rw [ext_hi _ _ _ _ (by omega)] | rw [ext_lo _ _ _ _ (by omega)])
  exact ext_all _

@[simp] theorem eF_pack (o : EOps) (f : BitVec 6) : eF (packE o f) = f := by
  unfold eF packE
  repeat (first | rw [ext_hi _ _ _ _ (by omega)] | rw [ext_lo _ _ _ _ (by omega)])
  exact ext_all _

theorem vy_n (o : VOps) (f : BitVec 6) : (packV o f).getLsbD 16 = o.n := by
  unfold packV bit
  repeat rw [BitVec.getLsbD_append]
  cases h : o.n <;> simp

theorem vy_sat (o : VOps) (f : BitVec 6) : (packV o f).getLsbD 2 = o.sat := by
  unfold packV bit
  repeat rw [BitVec.getLsbD_append]
  cases h : o.sat <;> simp

@[simp] theorem parseV_pack (o : VOps) (f : BitVec 6) : parseV (o.g ++ o.wd) (packV o f) = o := by
  unfold parseV
  rw [vy_n, vy_sat]
  cases o
  unfold packV
  congr 1
  all_goals
    repeat (first | rw [ext_hi _ _ _ _ (by omega)] | rw [ext_lo _ _ _ _ (by omega)])
    exact ext_all _

@[simp] theorem parseVx_pack (o : VxOps) : parseVx (o.g ++ o.wd) (o.start ++ o.step ++ o.t ++ o.m ++ 0#1) = o := by
  cases o
  unfold parseVx
  congr 1
  all_goals
    repeat (first | rw [ext_hi _ _ _ _ (by omega)] | rw [ext_lo _ _ _ _ (by omega)])
    exact ext_all _

theorem my_n (o : MOps) (f : BitVec 4) : (packM o f).getLsbD 16 = o.n := by
  unfold packM bit
  repeat rw [BitVec.getLsbD_append]
  cases h : o.n <;> simp

@[simp] theorem parseM_pack (o : MOps) (f : BitVec 4) : parseM (o.g ++ o.w) (packM o f) = o := by
  unfold parseM
  rw [my_n]
  cases o
  unfold packM
  congr 1
  all_goals
    repeat (first | rw [ext_hi _ _ _ _ (by omega)] | rw [ext_lo _ _ _ _ (by omega)])
    exact ext_all _

theorem ey_af (o : EOps) (f : BitVec 6) : (packE o f).getLsbD 30 = o.af := by
  unfold packE bit
  repeat rw [BitVec.getLsbD_append]
  cases h : o.af <;> simp

theorem ey_dt (o : EOps) (f : BitVec 6) : (packE o f).getLsbD 25 = o.dt := by
  unfold packE bit
  repeat rw [BitVec.getLsbD_append]
  cases h : o.dt <;> simp

@[simp] theorem parseE_pack (o : EOps) (f : BitVec 6) : parseE (o.padj ++ o.kd) (packE o f) = o := by
  unfold parseE
  rw [ey_af, ey_dt]
  cases o
  unfold packE
  congr 1
  all_goals
    repeat (first | rw [ext_hi _ _ _ _ (by omega)] | rw [ext_lo _ _ _ _ (by omega)])
    exact ext_all _

@[simp] theorem parseSmine_pack (o : SmineOps) : parseSmine (0#1 ++ o.d) (packC (o.c ++ o.n ++ o.t ++ o.g ++ 0#2) (0#20 ++ o.p3 ++ o.p2 ++ o.p1 ++ o.p0)) = o := by
  cases o
  unfold parseSmine packC xD
  congr 1
  all_goals
    repeat (first | rw [ext_hi _ _ _ _ (by omega)] | rw [ext_lo _ _ _ _ (by omega)])
    exact ext_all _

end Sys2Proof
end

