-- ==== Sys2Proof/Laws/Ops.lean ====
section
/-! SUPPORT. Sys2Proof/Laws/Ops.lean: what the shared operations do: retiring, transferring control, waiting, changing the active
banks. -/

namespace Sys2Proof.Machine

theorem State.core_modCore (s : State) (c d : Nat) (f : Core → Core) : (s.modCore c f).core d = if d = c then f (s.core d) else s.core d := by
  unfold State.modCore
  rw [core_setCore]
  split
  · subst_vars; rfl
  · rfl

/-- A change of a seat or of a bank leaves the rest of every core. -/
theorem SameCores.refl (s : State) : SameCores s s := ⟨fun _ => rfl, fun _ _ _ => rfl⟩

theorem SameCores.setSeat {s t : State} (h : SameCores s t) (v : Seat) : SameCores s (t.setSeat s.focus v) := by
  constructor
  · intro c
    unfold State.setSeat State.setSeat?
    rw [State.core_modCore]
    split
    · exact h.cores c
    · exact h.cores c
  · intro c b hb
    unfold State.setSeat
    rw [State.seat?_setSeat?, if_neg hb]
    exact h.seats c b hb

theorem SameCores.setPart {s t : State} (h : SameCores s t) (p : Part) : SameCores s (t.setPart s.focus p) :=
  h.setSeat _

theorem SameCores.modBank {s t : State} (h : SameCores s t) (c b : Nat) (f : Bank → Bank) : SameCores s (t.modBank c b f) := by
  constructor
  · intro d
    unfold State.modBank State.setBank
    rw [State.core_modCore]
    split
    · exact h.cores d
    · exact h.cores d
  · intro d e he
    rw [State.seat?_modBank]
    exact h.seats d e he

theorem SameCores.modBanks {s t : State} (h : SameCores s t) (c : Nat) (f : Nat → Bank → Bank) (bs : List Nat) :
    SameCores s (t.modBanks c f bs) := by
  induction bs generalizing t with
  | nil => exact h
  | cons b bs ih => exact ih (h.modBank c b (f b))

/-- The place a part has reached. -/
theorem SameSeat.setPart {s t : State} (ht : t.seat s.focus = s.seat s.focus) (pc : Word) (w : Option Wait) (cv : Option Convoy)
    (g : BitVec 16) (v : Nat) (hv : v = (s.part s.focus).vl ∨ (s.part s.focus).convoy.bind (·.cut) = some v) :
    SameSeat s (t.setPart s.focus { s.part s.focus with pc := pc, wait := w, convoy := cv, begun := g, vl := v }) := by
  constructor
  · simp only [State.seat_setPart, ht]
    rfl
  · intro q hq
    simp only [State.seat_setPart, ht, Seat.part?_setPart?, if_neg hq]
  · exact ⟨pc, w, cv, g, v, by simp, hv⟩

/-- The vl after the convoy: that of a cut load, else as it was (R214). -/
theorem Part.endConvoy_vl (p : Part) : p.endConvoy.vl = p.vl ∨ p.convoy.bind (·.cut) = some p.endConvoy.vl := by
  unfold Part.endConvoy
  cases p.convoy.bind (·.cut) with
  | none => exact .inl rfl
  | some v => exact .inr rfl

theorem Part.advance_eq (p : Part) : ∃ pc cv v, p.advance = { p with pc := pc, wait := none, convoy := cv, begun := 0, vl := v } ∧
    (v = p.vl ∨ p.convoy.bind (·.cut) = some v) := by
  unfold Part.advance
  split
  · exact ⟨p.pc, p.convoy, p.vl, by rename_i h; rw [h], .inl rfl⟩
  · split
    · exact ⟨_, _, _, rfl, p.endConvoy_vl⟩
    · exact ⟨_, _, p.vl, rfl, .inl rfl⟩

/-- Only the cores differ. -/
theorem Around.of {s t : State} (hr : { t with cores := s.cores } = s) (hc : SameCores s t) (hs : SameSeat s t) : Around s t := by
  refine ⟨hr, ?_, hc, hs⟩
  intro a
  have hm : t.mem = s.mem := by rw [← hr]
  have hq : t.quads = s.quads := by rw [← hr]
  simp only [State.peek, State.sram, State.quad, hm, hq]

/-- A change of the active banks and the end of the instruction, with no late result (R27, R101). -/
theorem retire_onActive {s : State} (h : Settled s) (f : Nat → Bank → Bank) :
    Around s (s.onActive f).retire ∧ Proceeds s (s.onActive f).retire ∧
      ∀ c b, ((s.onActive f).retire).bank c b = if c = s.focus.core ∧ b ∈ s.active then f b (s.bank c b) else s.bank c b := by
  obtain ⟨pc, cv, v, hp, hv⟩ := Part.advance_eq (s.part s.focus)
  have hr : (s.onActive f).retire =
      (s.onActive f).setPart s.focus { s.part s.focus with pc := pc, wait := none, convoy := cv, begun := 0, vl := v } := by
    unfold State.retire
    simp only [State.onActive_focus, State.part_onActive, hp]
    split
    · rw [show (s.part s.focus).late = [] from h]
      rfl
    · rfl
  rw [hr]
  refine ⟨Around.of ?_ ((SameCores.modBanks (SameCores.refl s) _ _ _).setPart _) (SameSeat.setPart (by simp) _ _ _ _ _ hv), by simp [Proceeds, hp], ?_⟩
  · have : ∀ t : State, { t with cores := s.cores } = s →
        { t.setPart s.focus { s.part s.focus with pc := pc, wait := none, convoy := cv, begun := 0, vl := v } with cores := s.cores } = s := by
      intro t ht
      rw [← ht]
      rfl
    apply this
    unfold State.onActive
    generalize s.active = bs
    have : ∀ t : State, { t with cores := s.cores } = s → { t.modBanks s.focus.core f bs with cores := s.cores } = s := by
      induction bs with
      | nil => intro t ht; exact ht
      | cons b bs ih =>
        intro t ht
        exact ih _ (by rw [← ht]; rfl)
    exact this s rfl
  · intro c b
    rw [State.bank_setPart, State.bank_onActive]

/-- An instruction on the registers of each active bank (R27): all it does. -/
theorem perBank_next {s : State} (h : Settled s) (f : Bank → Bank) :
    ∃ t, s.perBank f = .next t ∧ Around s t ∧ Proceeds s t ∧
      ∀ c b, t.bank c b = if c = s.focus.core ∧ b ∈ s.active then f (s.bank c b) else s.bank c b :=
  ⟨_, rfl, retire_onActive h (fun _ b => f b)⟩

theorem regOnly_ws (d : BitVec 5) (v : Word) (x : Bank) : RegOnly d v x (x.ws d v) := by
  refine ⟨fun n => Bank.rs_ws x d n v, ?_⟩
  unfold Bank.ws
  split <;> rfl

theorem regAndFlags_ws (d : BitVec 5) (r : Word × BitVec 5) (x : Bank) : RegAndFlags d r x ((x.ws d r.1).accrue r.2) := by
  refine ⟨fun n => ?_, ?_, ?_⟩
  · exact Bank.rs_ws x d n r.1
  · simp [Bank.accrue]
  · unfold Bank.ws Bank.accrue
    split <;> rfl

theorem addrOnly_wa (d : BitVec 3) (v : Word) (x : Bank) : AddrOnly d (aMask v) x (x.wa d v) :=
  ⟨fun n => Bank.ra_wa x d n v, rfl⟩

/-- sD := f(bank), in every active bank. -/
theorem writesReg_of {s : State} (h : Settled s) {i : Instr} {d : BitVec 5} {f : Bank → Word} (hi : exec i s = s.setReg d f) :
    WritesReg i s d f := by
  obtain ⟨t, ht, ha, hp, hb⟩ := perBank_next h (fun b => b.ws d (f b))
  refine ⟨t, hi.trans ht, ha, hp, fun c b => ?_⟩
  rw [hb c b]
  split
  · exact regOnly_ws d _ _
  · rfl

/-- The end of a wait: the part waits, nothing else changes (R347). -/
theorem around_waitOn (s : State) (w : Wait) : Around s (s.waitOn w) := by
  unfold State.waitOn State.modPart
  exact Around.of rfl ((SameCores.refl s).setPart _) (SameSeat.setPart rfl _ _ _ _ _ (.inl rfl))

end Sys2Proof.Machine
end

