-- ==== Sys2Proof/Laws/PerInstr.lean ====
section
/-! SUPPORT. Sys2Proof/Laws/PerInstr.lean: per constructor: the decoder's tables read an instruction's encoding as that instruction,
under the tail length of its opcode's form. -/

namespace Sys2Proof.Laws.Reads

/-- The opcode's form gives the encoding's tail length (R92), and the function tables read it as the instruction (R105). A step of the part
has no encoding. -/
def Statement (i : Instr) : Prop := ∀ e, encode i = some e → formTl e.op = some e.tl ∧ parseOp e.op e.x e.y = some i

theorem nop  : Statement (.nop) := by
  intro e h
  cases h
  exact ⟨rfl, by simp [parseOp, parse00]⟩

theorem brk  : Statement (.brk) := by
  intro e h
  cases h
  exact ⟨rfl, by simp [parseOp, parse00]⟩

theorem ifence  : Statement (.ifence) := by
  intro e h
  cases h
  exact ⟨rfl, by simp [parseOp, parse00]⟩

theorem tend  : Statement (.tend) := by
  intro e h
  cases h
  exact ⟨rfl, by simp [parseOp, parse00]⟩

theorem tyield  : Statement (.tyield) := by
  intro e h
  cases h
  exact ⟨rfl, by simp [parseOp, parse00]⟩

theorem rel  : Statement (.rel) := by
  intro e h
  cases h
  exact ⟨rfl, by simp [parseOp, parse00]⟩

theorem echo  : Statement (.echo) := by
  intro e h
  cases h
  exact ⟨rfl, by simp [parseOp, parse00]⟩

theorem claim  : Statement (.claim) := by
  intro e h
  cases h
  exact ⟨rfl, by simp [parseOp, parse00]⟩

theorem eret  : Statement (.eret) := by
  intro e h
  cases h
  exact ⟨rfl, by simp [parseOp, parse00]⟩

theorem trap (n : BitVec 6) : Statement (.trap n) := by
  intro e h
  cases h
  exact ⟨rfl, by simp [parseOp, parse01]⟩

theorem sjoin (id : BitVec 6) : Statement (.sjoin id) := by
  intro e h
  cases h
  exact ⟨rfl, by simp [parseOp, parse02]⟩

theorem j (imm : BitVec 32) : Statement (.j imm) := by
  intro e h
  cases h
  exact ⟨rfl, by simp [parseOp, parse04]⟩

theorem jl (d : BitVec 5) (imm : BitVec 32) : Statement (.jl d imm) := by
  intro e h
  cases h
  exact ⟨rfl, by simp [parseOp, parse05]⟩

theorem jr (a : BitVec 5) : Statement (.jr a) := by
  intro e h
  cases h
  exact ⟨rfl, by simp [parseOp, parse06]⟩

theorem jlr (d a : BitVec 5) : Statement (.jlr d a) := by
  intro e h
  cases h
  exact ⟨rfl, by simp [parseOp, parse06]⟩

theorem bEq (a b : BitVec 5) (off : BitVec 22) : Statement (.bEq a b off) := by
  intro e h
  cases h
  exact ⟨rfl, by simp [parseOp, parse08, xC]⟩

theorem bNe (a b : BitVec 5) (off : BitVec 22) : Statement (.bNe a b off) := by
  intro e h
  cases h
  exact ⟨rfl, by simp [parseOp, parse08, xC]⟩

theorem bLt (a b : BitVec 5) (off : BitVec 22) : Statement (.bLt a b off) := by
  intro e h
  cases h
  exact ⟨rfl, by simp [parseOp, parse08, xC]⟩

theorem bGe (a b : BitVec 5) (off : BitVec 22) : Statement (.bGe a b off) := by
  intro e h
  cases h
  exact ⟨rfl, by simp [parseOp, parse08, xC]⟩

theorem bLtu (a b : BitVec 5) (off : BitVec 22) : Statement (.bLtu a b off) := by
  intro e h
  cases h
  exact ⟨rfl, by simp [parseOp, parse08, xC]⟩

theorem bGeu (a b : BitVec 5) (off : BitVec 22) : Statement (.bGeu a b off) := by
  intro e h
  cases h
  exact ⟨rfl, by simp [parseOp, parse08, xC]⟩

theorem bany (c : BitVec 3) (a b : BitVec 5) (off : BitVec 22) : Statement (.bany c a b off) := by
  intro e h
  cases h
  exact ⟨rfl, by simp [parseOp, parse09]⟩

theorem ball (c : BitVec 3) (a b : BitVec 5) (off : BitVec 22) : Statement (.ball c a b off) := by
  intro e h
  cases h
  exact ⟨rfl, by simp [parseOp, parse09]⟩

theorem split (id c : BitVec 3) (a b : BitVec 5) (off : BitVec 22) : Statement (.split id c a b off) := by
  intro e h
  cases h
  exact ⟨rfl, by simp [parseOp, parse0A]⟩

theorem getc (d : BitVec 5) (idx : BitVec 10) : Statement (.getc d idx) := by
  intro e h
  cases h
  exact ⟨rfl, by simp [parseOp, parse0C]⟩

theorem setc (d : BitVec 5) (idx : BitVec 10) : Statement (.setc d idx) := by
  intro e h
  cases h
  exact ⟨rfl, by simp [parseOp, parse0C]⟩

theorem rnd (d : BitVec 5) : Statement (.rnd d) := by
  intro e h
  cases h
  exact ⟨rfl, by simp [parseOp, parse0D]⟩

theorem add (d a b : BitVec 5) : Statement (.add d a b) := by
  intro e h
  cases h
  exact ⟨rfl, by simp [parseOp, parse10]⟩

theorem sub (d a b : BitVec 5) : Statement (.sub d a b) := by
  intro e h
  cases h
  exact ⟨rfl, by simp [parseOp, parse10]⟩

theorem mul (d a b : BitVec 5) : Statement (.mul d a b) := by
  intro e h
  cases h
  exact ⟨rfl, by simp [parseOp, parse10]⟩

theorem mulh (d a b : BitVec 5) : Statement (.mulh d a b) := by
  intro e h
  cases h
  exact ⟨rfl, by simp [parseOp, parse10]⟩

theorem mulhu (d a b : BitVec 5) : Statement (.mulhu d a b) := by
  intro e h
  cases h
  exact ⟨rfl, by simp [parseOp, parse10]⟩

theorem div (d a b : BitVec 5) : Statement (.div d a b) := by
  intro e h
  cases h
  exact ⟨rfl, by simp [parseOp, parse10]⟩

theorem divu (d a b : BitVec 5) : Statement (.divu d a b) := by
  intro e h
  cases h
  exact ⟨rfl, by simp [parseOp, parse10]⟩

theorem rem (d a b : BitVec 5) : Statement (.rem d a b) := by
  intro e h
  cases h
  exact ⟨rfl, by simp [parseOp, parse10]⟩

theorem remu (d a b : BitVec 5) : Statement (.remu d a b) := by
  intro e h
  cases h
  exact ⟨rfl, by simp [parseOp, parse10]⟩

theorem and (d a b : BitVec 5) : Statement (.and d a b) := by
  intro e h
  cases h
  exact ⟨rfl, by simp [parseOp, parse10]⟩

theorem or (d a b : BitVec 5) : Statement (.or d a b) := by
  intro e h
  cases h
  exact ⟨rfl, by simp [parseOp, parse10]⟩

theorem xor (d a b : BitVec 5) : Statement (.xor d a b) := by
  intro e h
  cases h
  exact ⟨rfl, by simp [parseOp, parse10]⟩

theorem andn (d a b : BitVec 5) : Statement (.andn d a b) := by
  intro e h
  cases h
  exact ⟨rfl, by simp [parseOp, parse10]⟩

theorem sll (d a b : BitVec 5) : Statement (.sll d a b) := by
  intro e h
  cases h
  exact ⟨rfl, by simp [parseOp, parse10]⟩

theorem srl (d a b : BitVec 5) : Statement (.srl d a b) := by
  intro e h
  cases h
  exact ⟨rfl, by simp [parseOp, parse10]⟩

theorem sra (d a b : BitVec 5) : Statement (.sra d a b) := by
  intro e h
  cases h
  exact ⟨rfl, by simp [parseOp, parse10]⟩

theorem rol (d a b : BitVec 5) : Statement (.rol d a b) := by
  intro e h
  cases h
  exact ⟨rfl, by simp [parseOp, parse10]⟩

theorem ror (d a b : BitVec 5) : Statement (.ror d a b) := by
  intro e h
  cases h
  exact ⟨rfl, by simp [parseOp, parse10]⟩

theorem slt (d a b : BitVec 5) : Statement (.slt d a b) := by
  intro e h
  cases h
  exact ⟨rfl, by simp [parseOp, parse10]⟩

theorem sltu (d a b : BitVec 5) : Statement (.sltu d a b) := by
  intro e h
  cases h
  exact ⟨rfl, by simp [parseOp, parse10]⟩

theorem min (d a b : BitVec 5) : Statement (.min d a b) := by
  intro e h
  cases h
  exact ⟨rfl, by simp [parseOp, parse10]⟩

theorem max (d a b : BitVec 5) : Statement (.max d a b) := by
  intro e h
  cases h
  exact ⟨rfl, by simp [parseOp, parse10]⟩

theorem minu (d a b : BitVec 5) : Statement (.minu d a b) := by
  intro e h
  cases h
  exact ⟨rfl, by simp [parseOp, parse10]⟩

theorem maxu (d a b : BitVec 5) : Statement (.maxu d a b) := by
  intro e h
  cases h
  exact ⟨rfl, by simp [parseOp, parse10]⟩

theorem fsl (d a b : BitVec 5) : Statement (.fsl d a b) := by
  intro e h
  cases h
  exact ⟨rfl, by simp [parseOp, parse10]⟩

theorem fsr (d a b : BitVec 5) : Statement (.fsr d a b) := by
  intro e h
  cases h
  exact ⟨rfl, by simp [parseOp, parse10]⟩

theorem csel (d a b : BitVec 5) : Statement (.csel d a b) := by
  intro e h
  cases h
  exact ⟨rfl, by simp [parseOp, parse10]⟩

theorem clz (d a : BitVec 5) : Statement (.clz d a) := by
  intro e h
  cases h
  exact ⟨rfl, by simp [parseOp, parse11]⟩

theorem ctz (d a : BitVec 5) : Statement (.ctz d a) := by
  intro e h
  cases h
  exact ⟨rfl, by simp [parseOp, parse11]⟩

theorem popc (d a : BitVec 5) : Statement (.popc d a) := by
  intro e h
  cases h
  exact ⟨rfl, by simp [parseOp, parse11]⟩

theorem sextB (d a : BitVec 5) : Statement (.sextB d a) := by
  intro e h
  cases h
  exact ⟨rfl, by simp [parseOp, parse11]⟩

theorem sextH (d a : BitVec 5) : Statement (.sextH d a) := by
  intro e h
  cases h
  exact ⟨rfl, by simp [parseOp, parse11]⟩

theorem sextW (d a : BitVec 5) : Statement (.sextW d a) := by
  intro e h
  cases h
  exact ⟨rfl, by simp [parseOp, parse11]⟩

theorem zextB (d a : BitVec 5) : Statement (.zextB d a) := by
  intro e h
  cases h
  exact ⟨rfl, by simp [parseOp, parse11]⟩

theorem zextH (d a : BitVec 5) : Statement (.zextH d a) := by
  intro e h
  cases h
  exact ⟨rfl, by simp [parseOp, parse11]⟩

theorem zextW (d a : BitVec 5) : Statement (.zextW d a) := by
  intro e h
  cases h
  exact ⟨rfl, by simp [parseOp, parse11]⟩

theorem bswap (d a : BitVec 5) : Statement (.bswap d a) := by
  intro e h
  cases h
  exact ⟨rfl, by simp [parseOp, parse11]⟩

theorem addi (d a : BitVec 5) (imm : BitVec 22) : Statement (.addi d a imm) := by
  intro e h
  cases h
  exact ⟨rfl, by simp [parseOp, parse12]⟩

theorem andi (d a : BitVec 5) (imm : BitVec 22) : Statement (.andi d a imm) := by
  intro e h
  cases h
  exact ⟨rfl, by simp [parseOp, parse12]⟩

theorem ori (d a : BitVec 5) (imm : BitVec 22) : Statement (.ori d a imm) := by
  intro e h
  cases h
  exact ⟨rfl, by simp [parseOp, parse12]⟩

theorem xori (d a : BitVec 5) (imm : BitVec 22) : Statement (.xori d a imm) := by
  intro e h
  cases h
  exact ⟨rfl, by simp [parseOp, parse12]⟩

theorem slli (d a : BitVec 5) (imm : BitVec 22) : Statement (.slli d a imm) := by
  intro e h
  cases h
  exact ⟨rfl, by simp [parseOp, parse12]⟩

theorem srli (d a : BitVec 5) (imm : BitVec 22) : Statement (.srli d a imm) := by
  intro e h
  cases h
  exact ⟨rfl, by simp [parseOp, parse12]⟩

theorem srai (d a : BitVec 5) (imm : BitVec 22) : Statement (.srai d a imm) := by
  intro e h
  cases h
  exact ⟨rfl, by simp [parseOp, parse12]⟩

theorem slti (d a : BitVec 5) (imm : BitVec 22) : Statement (.slti d a imm) := by
  intro e h
  cases h
  exact ⟨rfl, by simp [parseOp, parse12]⟩

theorem sltiu (d a : BitVec 5) (imm : BitVec 22) : Statement (.sltiu d a imm) := by
  intro e h
  cases h
  exact ⟨rfl, by simp [parseOp, parse12]⟩

theorem li (d : BitVec 5) (imm : BitVec 32) : Statement (.li d imm) := by
  intro e h
  cases h
  exact ⟨rfl, by simp [parseOp, parse13]⟩

theorem lih (d : BitVec 5) (imm : BitVec 32) : Statement (.lih d imm) := by
  intro e h
  cases h
  exact ⟨rfl, by simp [parseOp, parse13]⟩

theorem ldB (d a : BitVec 5) (imm : BitVec 22) : Statement (.ldB d a imm) := by
  intro e h
  cases h
  exact ⟨rfl, by simp [parseOp, parse14]⟩

theorem ldBu (d a : BitVec 5) (imm : BitVec 22) : Statement (.ldBu d a imm) := by
  intro e h
  cases h
  exact ⟨rfl, by simp [parseOp, parse14]⟩

theorem ldH (d a : BitVec 5) (imm : BitVec 22) : Statement (.ldH d a imm) := by
  intro e h
  cases h
  exact ⟨rfl, by simp [parseOp, parse14]⟩

theorem ldHu (d a : BitVec 5) (imm : BitVec 22) : Statement (.ldHu d a imm) := by
  intro e h
  cases h
  exact ⟨rfl, by simp [parseOp, parse14]⟩

theorem ldW (d a : BitVec 5) (imm : BitVec 22) : Statement (.ldW d a imm) := by
  intro e h
  cases h
  exact ⟨rfl, by simp [parseOp, parse14]⟩

theorem ldWu (d a : BitVec 5) (imm : BitVec 22) : Statement (.ldWu d a imm) := by
  intro e h
  cases h
  exact ⟨rfl, by simp [parseOp, parse14]⟩

theorem ldD (d a : BitVec 5) (imm : BitVec 22) : Statement (.ldD d a imm) := by
  intro e h
  cases h
  exact ⟨rfl, by simp [parseOp, parse14]⟩

theorem ldAcqW (d a : BitVec 5) (imm : BitVec 22) : Statement (.ldAcqW d a imm) := by
  intro e h
  cases h
  exact ⟨rfl, by simp [parseOp, parse14]⟩

theorem ldAcqD (d a : BitVec 5) (imm : BitVec 22) : Statement (.ldAcqD d a imm) := by
  intro e h
  cases h
  exact ⟨rfl, by simp [parseOp, parse14]⟩

theorem stB (d a : BitVec 5) (imm : BitVec 22) : Statement (.stB d a imm) := by
  intro e h
  cases h
  exact ⟨rfl, by simp [parseOp, parse15]⟩

theorem stH (d a : BitVec 5) (imm : BitVec 22) : Statement (.stH d a imm) := by
  intro e h
  cases h
  exact ⟨rfl, by simp [parseOp, parse15]⟩

theorem stW (d a : BitVec 5) (imm : BitVec 22) : Statement (.stW d a imm) := by
  intro e h
  cases h
  exact ⟨rfl, by simp [parseOp, parse15]⟩

theorem stD (d a : BitVec 5) (imm : BitVec 22) : Statement (.stD d a imm) := by
  intro e h
  cases h
  exact ⟨rfl, by simp [parseOp, parse15]⟩

theorem stRelW (d a : BitVec 5) (imm : BitVec 22) : Statement (.stRelW d a imm) := by
  intro e h
  cases h
  exact ⟨rfl, by simp [parseOp, parse15]⟩

theorem stRelD (d a : BitVec 5) (imm : BitVec 22) : Statement (.stRelD d a imm) := by
  intro e h
  cases h
  exact ⟨rfl, by simp [parseOp, parse15]⟩

theorem amoAdd (d a b : BitVec 5) : Statement (.amoAdd d a b) := by
  intro e h
  cases h
  exact ⟨rfl, by simp [parseOp, parse16]⟩

theorem amoAnd (d a b : BitVec 5) : Statement (.amoAnd d a b) := by
  intro e h
  cases h
  exact ⟨rfl, by simp [parseOp, parse16]⟩

theorem amoOr (d a b : BitVec 5) : Statement (.amoOr d a b) := by
  intro e h
  cases h
  exact ⟨rfl, by simp [parseOp, parse16]⟩

theorem amoXor (d a b : BitVec 5) : Statement (.amoXor d a b) := by
  intro e h
  cases h
  exact ⟨rfl, by simp [parseOp, parse16]⟩

theorem amoMin (d a b : BitVec 5) : Statement (.amoMin d a b) := by
  intro e h
  cases h
  exact ⟨rfl, by simp [parseOp, parse16]⟩

theorem amoMax (d a b : BitVec 5) : Statement (.amoMax d a b) := by
  intro e h
  cases h
  exact ⟨rfl, by simp [parseOp, parse16]⟩

theorem amoMinu (d a b : BitVec 5) : Statement (.amoMinu d a b) := by
  intro e h
  cases h
  exact ⟨rfl, by simp [parseOp, parse16]⟩

theorem amoMaxu (d a b : BitVec 5) : Statement (.amoMaxu d a b) := by
  intro e h
  cases h
  exact ⟨rfl, by simp [parseOp, parse16]⟩

theorem amoSwap (d a b : BitVec 5) : Statement (.amoSwap d a b) := by
  intro e h
  cases h
  exact ⟨rfl, by simp [parseOp, parse16]⟩

theorem amoFadd (d a b : BitVec 5) : Statement (.amoFadd d a b) := by
  intro e h
  cases h
  exact ⟨rfl, by simp [parseOp, parse16]⟩

theorem amoCas (d a b : BitVec 5) : Statement (.amoCas d a b) := by
  intro e h
  cases h
  exact ⟨rfl, by simp [parseOp, parse16]⟩

theorem push (a b : BitVec 5) : Statement (.push a b) := by
  intro e h
  cases h
  exact ⟨rfl, by simp [parseOp, parse17]⟩

theorem pop (a b : BitVec 5) : Statement (.pop a b) := by
  intro e h
  cases h
  exact ⟨rfl, by simp [parseOp, parse17]⟩

theorem faddF32 (d a b : BitVec 5) : Statement (.faddF32 d a b) := by
  intro e h
  cases h
  exact ⟨rfl, by simp [parseOp, parse18]⟩

theorem fsubF32 (d a b : BitVec 5) : Statement (.fsubF32 d a b) := by
  intro e h
  cases h
  exact ⟨rfl, by simp [parseOp, parse18]⟩

theorem fmulF32 (d a b : BitVec 5) : Statement (.fmulF32 d a b) := by
  intro e h
  cases h
  exact ⟨rfl, by simp [parseOp, parse18]⟩

theorem fdivF32 (d a b : BitVec 5) : Statement (.fdivF32 d a b) := by
  intro e h
  cases h
  exact ⟨rfl, by simp [parseOp, parse18]⟩

theorem fsqrtF32 (d a : BitVec 5) : Statement (.fsqrtF32 d a) := by
  intro e h
  cases h
  exact ⟨rfl, by simp [parseOp, parse18]⟩

theorem fminF32 (d a b : BitVec 5) : Statement (.fminF32 d a b) := by
  intro e h
  cases h
  exact ⟨rfl, by simp [parseOp, parse18]⟩

theorem fmaxF32 (d a b : BitVec 5) : Statement (.fmaxF32 d a b) := by
  intro e h
  cases h
  exact ⟨rfl, by simp [parseOp, parse18]⟩

theorem feqF32 (d a b : BitVec 5) : Statement (.feqF32 d a b) := by
  intro e h
  cases h
  exact ⟨rfl, by simp [parseOp, parse18]⟩

theorem fltF32 (d a b : BitVec 5) : Statement (.fltF32 d a b) := by
  intro e h
  cases h
  exact ⟨rfl, by simp [parseOp, parse18]⟩

theorem fleF32 (d a b : BitVec 5) : Statement (.fleF32 d a b) := by
  intro e h
  cases h
  exact ⟨rfl, by simp [parseOp, parse18]⟩

theorem fclassF32 (d a : BitVec 5) : Statement (.fclassF32 d a) := by
  intro e h
  cases h
  exact ⟨rfl, by simp [parseOp, parse18]⟩

theorem fnegF32 (d a : BitVec 5) : Statement (.fnegF32 d a) := by
  intro e h
  cases h
  exact ⟨rfl, by simp [parseOp, parse18]⟩

theorem fabsF32 (d a : BitVec 5) : Statement (.fabsF32 d a) := by
  intro e h
  cases h
  exact ⟨rfl, by simp [parseOp, parse18]⟩

theorem fmaF32 (d a b : BitVec 5) : Statement (.fmaF32 d a b) := by
  intro e h
  cases h
  exact ⟨rfl, by simp [parseOp, parse18]⟩

theorem fmsF32 (d a b : BitVec 5) : Statement (.fmsF32 d a b) := by
  intro e h
  cases h
  exact ⟨rfl, by simp [parseOp, parse18]⟩

theorem faddF64 (d a b : BitVec 5) : Statement (.faddF64 d a b) := by
  intro e h
  cases h
  exact ⟨rfl, by simp [parseOp, parse18]⟩

theorem fsubF64 (d a b : BitVec 5) : Statement (.fsubF64 d a b) := by
  intro e h
  cases h
  exact ⟨rfl, by simp [parseOp, parse18]⟩

theorem fmulF64 (d a b : BitVec 5) : Statement (.fmulF64 d a b) := by
  intro e h
  cases h
  exact ⟨rfl, by simp [parseOp, parse18]⟩

theorem fdivF64 (d a b : BitVec 5) : Statement (.fdivF64 d a b) := by
  intro e h
  cases h
  exact ⟨rfl, by simp [parseOp, parse18]⟩

theorem fsqrtF64 (d a : BitVec 5) : Statement (.fsqrtF64 d a) := by
  intro e h
  cases h
  exact ⟨rfl, by simp [parseOp, parse18]⟩

theorem fminF64 (d a b : BitVec 5) : Statement (.fminF64 d a b) := by
  intro e h
  cases h
  exact ⟨rfl, by simp [parseOp, parse18]⟩

theorem fmaxF64 (d a b : BitVec 5) : Statement (.fmaxF64 d a b) := by
  intro e h
  cases h
  exact ⟨rfl, by simp [parseOp, parse18]⟩

theorem feqF64 (d a b : BitVec 5) : Statement (.feqF64 d a b) := by
  intro e h
  cases h
  exact ⟨rfl, by simp [parseOp, parse18]⟩

theorem fltF64 (d a b : BitVec 5) : Statement (.fltF64 d a b) := by
  intro e h
  cases h
  exact ⟨rfl, by simp [parseOp, parse18]⟩

theorem fleF64 (d a b : BitVec 5) : Statement (.fleF64 d a b) := by
  intro e h
  cases h
  exact ⟨rfl, by simp [parseOp, parse18]⟩

theorem fclassF64 (d a : BitVec 5) : Statement (.fclassF64 d a) := by
  intro e h
  cases h
  exact ⟨rfl, by simp [parseOp, parse18]⟩

theorem fnegF64 (d a : BitVec 5) : Statement (.fnegF64 d a) := by
  intro e h
  cases h
  exact ⟨rfl, by simp [parseOp, parse18]⟩

theorem fabsF64 (d a : BitVec 5) : Statement (.fabsF64 d a) := by
  intro e h
  cases h
  exact ⟨rfl, by simp [parseOp, parse18]⟩

theorem fmaF64 (d a b : BitVec 5) : Statement (.fmaF64 d a b) := by
  intro e h
  cases h
  exact ⟨rfl, by simp [parseOp, parse18]⟩

theorem fmsF64 (d a b : BitVec 5) : Statement (.fmsF64 d a b) := by
  intro e h
  cases h
  exact ⟨rfl, by simp [parseOp, parse18]⟩

theorem fcvtF32I64 (d a : BitVec 5) : Statement (.fcvtF32I64 d a) := by
  intro e h
  cases h
  exact ⟨rfl, by simp [parseOp, parse18]⟩

theorem fcvtF32N64 (d a : BitVec 5) : Statement (.fcvtF32N64 d a) := by
  intro e h
  cases h
  exact ⟨rfl, by simp [parseOp, parse18]⟩

theorem fcvtI64F32 (d a : BitVec 5) : Statement (.fcvtI64F32 d a) := by
  intro e h
  cases h
  exact ⟨rfl, by simp [parseOp, parse18]⟩

theorem fcvtN64F32 (d a : BitVec 5) : Statement (.fcvtN64F32 d a) := by
  intro e h
  cases h
  exact ⟨rfl, by simp [parseOp, parse18]⟩

theorem fcvtF64I64 (d a : BitVec 5) : Statement (.fcvtF64I64 d a) := by
  intro e h
  cases h
  exact ⟨rfl, by simp [parseOp, parse18]⟩

theorem fcvtF64N64 (d a : BitVec 5) : Statement (.fcvtF64N64 d a) := by
  intro e h
  cases h
  exact ⟨rfl, by simp [parseOp, parse18]⟩

theorem fcvtI64F64 (d a : BitVec 5) : Statement (.fcvtI64F64 d a) := by
  intro e h
  cases h
  exact ⟨rfl, by simp [parseOp, parse18]⟩

theorem fcvtN64F64 (d a : BitVec 5) : Statement (.fcvtN64F64 d a) := by
  intro e h
  cases h
  exact ⟨rfl, by simp [parseOp, parse18]⟩

theorem fcvtF64F32 (d a : BitVec 5) : Statement (.fcvtF64F32 d a) := by
  intro e h
  cases h
  exact ⟨rfl, by simp [parseOp, parse18]⟩

theorem fcvtF32F64 (d a : BitVec 5) : Statement (.fcvtF32F64 d a) := by
  intro e h
  cases h
  exact ⟨rfl, by simp [parseOp, parse18]⟩

theorem fcvtBf16F32 (d a : BitVec 5) : Statement (.fcvtBf16F32 d a) := by
  intro e h
  cases h
  exact ⟨rfl, by simp [parseOp, parse18]⟩

theorem fcvtF32Bf16 (d a : BitVec 5) : Statement (.fcvtF32Bf16 d a) := by
  intro e h
  cases h
  exact ⟨rfl, by simp [parseOp, parse18]⟩

theorem amov (d a : BitVec 3) : Statement (.amov d a) := by
  intro e h
  cases h
  exact ⟨rfl, by simp [parseOp, parse19]⟩

theorem aset (d : BitVec 3) (a z : BitVec 5) : Statement (.aset d a z) := by
  intro e h
  cases h
  exact ⟨rfl, by simp [parseOp, parse19]⟩

theorem aadd (d a : BitVec 3) (b : BitVec 5) : Statement (.aadd d a b) := by
  intro e h
  cases h
  exact ⟨rfl, by simp [parseOp, parse19]⟩

theorem amovs (d : BitVec 5) (a : BitVec 3) : Statement (.amovs d a) := by
  intro e h
  cases h
  exact ⟨rfl, by simp [parseOp, parse19]⟩

theorem aaddi (d a : BitVec 3) (imm : BitVec 22) : Statement (.aaddi d a imm) := by
  intro e h
  cases h
  exact ⟨rfl, by simp [parseOp, parse1A]⟩

theorem smine (o : SmineOps) : Statement (.smine o) := by
  intro e h
  cases h
  exact ⟨rfl, by simp [parseOp, parse1B]⟩

theorem act (n : BitVec 4) (a : BitVec 3) : Statement (.act n a) := by
  intro e h
  cases h
  exact ⟨rfl, by simp [parseOp, parse40]⟩

theorem actz (n : BitVec 4) : Statement (.actz n) := by
  intro e h
  cases h
  exact ⟨rfl, by simp [parseOp, parse40]⟩

theorem wb (n : BitVec 4) : Statement (.wb n) := by
  intro e h
  cases h
  exact ⟨rfl, by simp [parseOp, parse40]⟩

theorem wbto (n : BitVec 4) (a : BitVec 3) : Statement (.wbto n a) := by
  intro e h
  cases h
  exact ⟨rfl, by simp [parseOp, parse40]⟩

theorem pre (n : BitVec 4) : Statement (.pre n) := by
  intro e h
  cases h
  exact ⟨rfl, by simp [parseOp, parse40]⟩

theorem rcopy (n : BitVec 4) (a : BitVec 3) (src : BitVec 5) : Statement (.rcopy n a src) := by
  intro e h
  cases h
  exact ⟨rfl, by simp [parseOp, parse40]⟩

theorem rfsh (n : BitVec 4) : Statement (.rfsh n) := by
  intro e h
  cases h
  exact ⟨rfl, by simp [parseOp, parse40]⟩

theorem shut (n k : BitVec 4) : Statement (.shut n k) := by
  intro e h
  cases h
  exact ⟨rfl, by simp [parseOp, parse40]⟩

theorem reopen (n k : BitVec 4) : Statement (.reopen n k) := by
  intro e h
  cases h
  exact ⟨rfl, by simp [parseOp, parse40]⟩

theorem pstat (d : BitVec 5) (n : BitVec 4) : Statement (.pstat d n) := by
  intro e h
  cases h
  exact ⟨rfl, by simp [parseOp, parse40]⟩

theorem rshufRot (wd : BitVec 4) (ws : BitVec 3) (k : BitVec 5) : Statement (.rshufRot wd ws k) := by
  intro e h
  cases h
  exact ⟨rfl, by simp [parseOp, parse41]⟩

theorem rshufXor (wd : BitVec 4) (ws : BitVec 3) (k : BitVec 5) : Statement (.rshufXor wd ws k) := by
  intro e h
  cases h
  exact ⟨rfl, by simp [parseOp, parse41]⟩

theorem rshufRev (wd : BitVec 4) (ws : BitVec 3) : Statement (.rshufRev wd ws) := by
  intro e h
  cases h
  exact ⟨rfl, by simp [parseOp, parse41]⟩

theorem rshufBcast (wd : BitVec 4) (ws : BitVec 3) (k : BitVec 5) : Statement (.rshufBcast wd ws k) := by
  intro e h
  cases h
  exact ⟨rfl, by simp [parseOp, parse41]⟩

theorem vadd (o : VOps) : Statement (.vadd o) := by
  intro e h
  cases h
  exact ⟨rfl, by simp [parseOp, parse48]⟩

theorem vsub (o : VOps) : Statement (.vsub o) := by
  intro e h
  cases h
  exact ⟨rfl, by simp [parseOp, parse48]⟩

theorem vmul (o : VOps) : Statement (.vmul o) := by
  intro e h
  cases h
  exact ⟨rfl, by simp [parseOp, parse48]⟩

theorem vfma (o : VOps) : Statement (.vfma o) := by
  intro e h
  cases h
  exact ⟨rfl, by simp [parseOp, parse48]⟩

theorem vfms (o : VOps) : Statement (.vfms o) := by
  intro e h
  cases h
  exact ⟨rfl, by simp [parseOp, parse48]⟩

theorem vfnma (o : VOps) : Statement (.vfnma o) := by
  intro e h
  cases h
  exact ⟨rfl, by simp [parseOp, parse48]⟩

theorem vmin (o : VOps) : Statement (.vmin o) := by
  intro e h
  cases h
  exact ⟨rfl, by simp [parseOp, parse48]⟩

theorem vmax (o : VOps) : Statement (.vmax o) := by
  intro e h
  cases h
  exact ⟨rfl, by simp [parseOp, parse48]⟩

theorem vabs (o : VOps) : Statement (.vabs o) := by
  intro e h
  cases h
  exact ⟨rfl, by simp [parseOp, parse48]⟩

theorem vneg (o : VOps) : Statement (.vneg o) := by
  intro e h
  cases h
  exact ⟨rfl, by simp [parseOp, parse48]⟩

theorem vdiv (o : VOps) : Statement (.vdiv o) := by
  intro e h
  cases h
  exact ⟨rfl, by simp [parseOp, parse48]⟩

theorem vsqrt (o : VOps) : Statement (.vsqrt o) := by
  intro e h
  cases h
  exact ⟨rfl, by simp [parseOp, parse48]⟩

theorem vrcp (o : VOps) : Statement (.vrcp o) := by
  intro e h
  cases h
  exact ⟨rfl, by simp [parseOp, parse48]⟩

theorem vrsq (o : VOps) : Statement (.vrsq o) := by
  intro e h
  cases h
  exact ⟨rfl, by simp [parseOp, parse48]⟩

theorem vexp2 (o : VOps) : Statement (.vexp2 o) := by
  intro e h
  cases h
  exact ⟨rfl, by simp [parseOp, parse48]⟩

theorem vlog2 (o : VOps) : Statement (.vlog2 o) := by
  intro e h
  cases h
  exact ⟨rfl, by simp [parseOp, parse48]⟩

theorem vmulh (o : VOps) : Statement (.vmulh o) := by
  intro e h
  cases h
  exact ⟨rfl, by simp [parseOp, parse49]⟩

theorem vadds (o : VOps) : Statement (.vadds o) := by
  intro e h
  cases h
  exact ⟨rfl, by simp [parseOp, parse49]⟩

theorem vsubs (o : VOps) : Statement (.vsubs o) := by
  intro e h
  cases h
  exact ⟨rfl, by simp [parseOp, parse49]⟩

theorem vand (o : VOps) : Statement (.vand o) := by
  intro e h
  cases h
  exact ⟨rfl, by simp [parseOp, parse49]⟩

theorem vor (o : VOps) : Statement (.vor o) := by
  intro e h
  cases h
  exact ⟨rfl, by simp [parseOp, parse49]⟩

theorem vxor (o : VOps) : Statement (.vxor o) := by
  intro e h
  cases h
  exact ⟨rfl, by simp [parseOp, parse49]⟩

theorem vnot (o : VOps) : Statement (.vnot o) := by
  intro e h
  cases h
  exact ⟨rfl, by simp [parseOp, parse49]⟩

theorem vandn (o : VOps) : Statement (.vandn o) := by
  intro e h
  cases h
  exact ⟨rfl, by simp [parseOp, parse49]⟩

theorem vsll (o : VOps) : Statement (.vsll o) := by
  intro e h
  cases h
  exact ⟨rfl, by simp [parseOp, parse49]⟩

theorem vsrl (o : VOps) : Statement (.vsrl o) := by
  intro e h
  cases h
  exact ⟨rfl, by simp [parseOp, parse49]⟩

theorem vsra (o : VOps) : Statement (.vsra o) := by
  intro e h
  cases h
  exact ⟨rfl, by simp [parseOp, parse49]⟩

theorem vfsl (o : VOps) : Statement (.vfsl o) := by
  intro e h
  cases h
  exact ⟨rfl, by simp [parseOp, parse49]⟩

theorem vfsr (o : VOps) : Statement (.vfsr o) := by
  intro e h
  cases h
  exact ⟨rfl, by simp [parseOp, parse49]⟩

theorem vclz (o : VOps) : Statement (.vclz o) := by
  intro e h
  cases h
  exact ⟨rfl, by simp [parseOp, parse49]⟩

theorem vpopc (o : VOps) : Statement (.vpopc o) := by
  intro e h
  cases h
  exact ⟨rfl, by simp [parseOp, parse49]⟩

theorem vcmpEq (o : VOps) : Statement (.vcmpEq o) := by
  intro e h
  cases h
  exact ⟨rfl, by simp [parseOp, parse4A]⟩

theorem vcmpNe (o : VOps) : Statement (.vcmpNe o) := by
  intro e h
  cases h
  exact ⟨rfl, by simp [parseOp, parse4A]⟩

theorem vcmpLt (o : VOps) : Statement (.vcmpLt o) := by
  intro e h
  cases h
  exact ⟨rfl, by simp [parseOp, parse4A]⟩

theorem vcmpLe (o : VOps) : Statement (.vcmpLe o) := by
  intro e h
  cases h
  exact ⟨rfl, by simp [parseOp, parse4A]⟩

theorem vcmpGt (o : VOps) : Statement (.vcmpGt o) := by
  intro e h
  cases h
  exact ⟨rfl, by simp [parseOp, parse4A]⟩

theorem vcmpGe (o : VOps) : Statement (.vcmpGe o) := by
  intro e h
  cases h
  exact ⟨rfl, by simp [parseOp, parse4A]⟩

theorem mand (o : VOps) : Statement (.mand o) := by
  intro e h
  cases h
  exact ⟨rfl, by simp [parseOp, parse4A]⟩

theorem mor (o : VOps) : Statement (.mor o) := by
  intro e h
  cases h
  exact ⟨rfl, by simp [parseOp, parse4A]⟩

theorem mxor (o : VOps) : Statement (.mxor o) := by
  intro e h
  cases h
  exact ⟨rfl, by simp [parseOp, parse4A]⟩

theorem mnot (o : VOps) : Statement (.mnot o) := by
  intro e h
  cases h
  exact ⟨rfl, by simp [parseOp, parse4A]⟩

theorem mpopc (o : VOps) : Statement (.mpopc o) := by
  intro e h
  cases h
  exact ⟨rfl, by simp [parseOp, parse4A]⟩

theorem mfirst (o : VOps) : Statement (.mfirst o) := by
  intro e h
  cases h
  exact ⟨rfl, by simp [parseOp, parse4A]⟩

theorem vsel (o : VOps) : Statement (.vsel o) := by
  intro e h
  cases h
  exact ⟨rfl, by simp [parseOp, parse4A]⟩

theorem vmov (o : VOps) : Statement (.vmov o) := by
  intro e h
  cases h
  exact ⟨rfl, by simp [parseOp, parse4A]⟩

theorem vbcast (o : VOps) : Statement (.vbcast o) := by
  intro e h
  cases h
  exact ⟨rfl, by simp [parseOp, parse4A]⟩

theorem vslideUp (o : VOps) : Statement (.vslideUp o) := by
  intro e h
  cases h
  exact ⟨rfl, by simp [parseOp, parse4A]⟩

theorem vslideDn (o : VOps) : Statement (.vslideDn o) := by
  intro e h
  cases h
  exact ⟨rfl, by simp [parseOp, parse4A]⟩

theorem vcompress (o : VOps) : Statement (.vcompress o) := by
  intro e h
  cases h
  exact ⟨rfl, by simp [parseOp, parse4A]⟩

theorem vidx (o : VxOps) : Statement (.vidx o) := by
  intro e h
  cases h
  exact ⟨rfl, by simp [parseOp, parse4B]⟩

theorem vcvt (o : VOps) : Statement (.vcvt o) := by
  intro e h
  cases h
  exact ⟨rfl, by simp [parseOp, parse4C]⟩

theorem vwfma (o : VOps) : Statement (.vwfma o) := by
  intro e h
  cases h
  exact ⟨rfl, by simp [parseOp, parse4C]⟩

theorem vdot (o : VOps) : Statement (.vdot o) := by
  intro e h
  cases h
  exact ⟨rfl, by simp [parseOp, parse4C]⟩

theorem vqenc (o : VOps) : Statement (.vqenc o) := by
  intro e h
  cases h
  exact ⟨rfl, by simp [parseOp, parse4C]⟩

theorem vqdec (o : VOps) : Statement (.vqdec o) := by
  intro e h
  cases h
  exact ⟨rfl, by simp [parseOp, parse4C]⟩

theorem vredSum (o : VOps) : Statement (.vredSum o) := by
  intro e h
  cases h
  exact ⟨rfl, by simp [parseOp, parse4D]⟩

theorem vredMax (o : VOps) : Statement (.vredMax o) := by
  intro e h
  cases h
  exact ⟨rfl, by simp [parseOp, parse4D]⟩

theorem vredMin (o : VOps) : Statement (.vredMin o) := by
  intro e h
  cases h
  exact ⟨rfl, by simp [parseOp, parse4D]⟩

theorem vredAnd (o : VOps) : Statement (.vredAnd o) := by
  intro e h
  cases h
  exact ⟨rfl, by simp [parseOp, parse4D]⟩

theorem vredOr (o : VOps) : Statement (.vredOr o) := by
  intro e h
  cases h
  exact ⟨rfl, by simp [parseOp, parse4D]⟩

theorem vgmax (o : VOps) : Statement (.vgmax o) := by
  intro e h
  cases h
  exact ⟨rfl, by simp [parseOp, parse4D]⟩

theorem vscan (o : VOps) : Statement (.vscan o) := by
  intro e h
  cases h
  exact ⟨rfl, by simp [parseOp, parse4D]⟩

theorem vld (o : MOps) : Statement (.vld o) := by
  intro e h
  cases h
  exact ⟨rfl, by simp [parseOp, parse50]⟩

theorem vlds (o : MOps) : Statement (.vlds o) := by
  intro e h
  cases h
  exact ⟨rfl, by simp [parseOp, parse50]⟩

theorem vldx (o : MOps) : Statement (.vldx o) := by
  intro e h
  cases h
  exact ⟨rfl, by simp [parseOp, parse50]⟩

theorem vst (o : MOps) : Statement (.vst o) := by
  intro e h
  cases h
  exact ⟨rfl, by simp [parseOp, parse50]⟩

theorem vsts (o : MOps) : Statement (.vsts o) := by
  intro e h
  cases h
  exact ⟨rfl, by simp [parseOp, parse50]⟩

theorem vstx (o : MOps) : Statement (.vstx o) := by
  intro e h
  cases h
  exact ⟨rfl, by simp [parseOp, parse50]⟩

theorem vstb (o : MOps) : Statement (.vstb o) := by
  intro e h
  cases h
  exact ⟨rfl, by simp [parseOp, parse50]⟩

theorem vldl (o : MOps) : Statement (.vldl o) := by
  intro e h
  cases h
  exact ⟨rfl, by simp [parseOp, parse50]⟩

theorem vstc (o : MOps) : Statement (.vstc o) := by
  intro e h
  cases h
  exact ⟨rfl, by simp [parseOp, parse50]⟩

theorem vspill (o : MOps) : Statement (.vspill o) := by
  intro e h
  cases h
  exact ⟨rfl, by simp [parseOp, parse50]⟩

theorem vfill (o : MOps) : Statement (.vfill o) := by
  intro e h
  cases h
  exact ⟨rfl, by simp [parseOp, parse50]⟩

theorem vlq (o : MOps) : Statement (.vlq o) := by
  intro e h
  cases h
  exact ⟨rfl, by simp [parseOp, parse50]⟩

theorem cpy (o : EOps) : Statement (.cpy o) := by
  intro e h
  cases h
  exact ⟨rfl, by simp [parseOp, parse58]⟩

theorem cpy2d (o : EOps) : Statement (.cpy2d o) := by
  intro e h
  cases h
  exact ⟨rfl, by simp [parseOp, parse58]⟩

theorem rsct (o : EOps) : Statement (.rsct o) := by
  intro e h
  cases h
  exact ⟨rfl, by simp [parseOp, parse58]⟩

theorem coll (o : EOps) : Statement (.coll o) := by
  intro e h
  cases h
  exact ⟨rfl, by simp [parseOp, parse58]⟩

theorem red (o : EOps) : Statement (.red o) := by
  intro e h
  cases h
  exact ⟨rfl, by simp [parseOp, parse58]⟩

theorem gath (o : EOps) : Statement (.gath o) := by
  intro e h
  cases h
  exact ⟨rfl, by simp [parseOp, parse58]⟩

theorem nmo (o : EOps) : Statement (.nmo o) := by
  intro e h
  cases h
  exact ⟨rfl, by simp [parseOp, parse58]⟩

theorem mmma (o : EOps) : Statement (.mmma o) := by
  intro e h
  cases h
  exact ⟨rfl, by simp [parseOp, parse59]⟩

theorem mdrain (o : EOps) : Statement (.mdrain o) := by
  intro e h
  cases h
  exact ⟨rfl, by simp [parseOp, parse59]⟩

theorem mattach (d a : BitVec 5) : Statement (.mattach d a) := by
  intro e h
  cases h
  exact ⟨rfl, by simp [parseOp, parse5A]⟩

theorem mdetach  : Statement (.mdetach) := by
  intro e h
  cases h
  exact ⟨rfl, by simp [parseOp, parse5A]⟩

theorem mshape (a : BitVec 5) : Statement (.mshape a) := by
  intro e h
  cases h
  exact ⟨rfl, by simp [parseOp, parse5A]⟩

theorem mzero (d : BitVec 5) : Statement (.mzero d) := by
  intro e h
  cases h
  exact ⟨rfl, by simp [parseOp, parse5A]⟩

theorem kwait (k path : BitVec 4) (scope : BitVec 5) : Statement (.kwait k path scope) := by
  intro e h
  cases h
  exact ⟨rfl, by simp [parseOp, parse5C]⟩

theorem kwaitNt (d : BitVec 5) (k : BitVec 4) (scope : BitVec 5) : Statement (.kwaitNt d k scope) := by
  intro e h
  cases h
  exact ⟨rfl, by simp [parseOp, parse5C]⟩

theorem kpoll (d : BitVec 5) (k : BitVec 4) : Statement (.kpoll d k) := by
  intro e h
  cases h
  exact ⟨rfl, by simp [parseOp, parse5C]⟩

theorem kcancel (k : BitVec 4) : Statement (.kcancel k) := by
  intro e h
  cases h
  exact ⟨rfl, by simp [parseOp, parse5C]⟩

theorem kdetach (d : BitVec 5) (k : BitVec 4) : Statement (.kdetach d k) := by
  intro e h
  cases h
  exact ⟨rfl, by simp [parseOp, parse5C]⟩

theorem kadopt (k : BitVec 4) (a : BitVec 5) : Statement (.kadopt k a) := by
  intro e h
  cases h
  exact ⟨rfl, by simp [parseOp, parse5C]⟩

theorem kprio (k : BitVec 4) (a : BitVec 5) : Statement (.kprio k a) := by
  intro e h
  cases h
  exact ⟨rfl, by simp [parseOp, parse5C]⟩

theorem kinfo (d : BitVec 5) (k : BitVec 4) (w : BitVec 5) : Statement (.kinfo d k w) := by
  intro e h
  cases h
  exact ⟨rfl, by simp [parseOp, parse5C]⟩

theorem fence (scope : BitVec 5) : Statement (.fence scope) := by
  intro e h
  cases h
  exact ⟨rfl, by simp [parseOp, parse5D]⟩

theorem xfence (p1 p2 : BitVec 4) (scope : BitVec 5) : Statement (.xfence p1 p2 scope) := by
  intro e h
  cases h
  exact ⟨rfl, by simp [parseOp, parse5D]⟩

theorem fbar (bid : BitVec 4) (scope : BitVec 5) : Statement (.fbar bid scope) := by
  intro e h
  cases h
  exact ⟨rfl, by simp [parseOp, parse5D]⟩

theorem bwait (bid : BitVec 4) : Statement (.bwait bid) := by
  intro e h
  cases h
  exact ⟨rfl, by simp [parseOp, parse5D]⟩

theorem ipost (id : BitVec 4) (a : BitVec 5) : Statement (.ipost id a) := by
  intro e h
  cases h
  exact ⟨rfl, by simp [parseOp, parse5D]⟩

theorem iwait (id : BitVec 4) (a : BitVec 5) : Statement (.iwait id a) := by
  intro e h
  cases h
  exact ⟨rfl, by simp [parseOp, parse5D]⟩

theorem await (v a : BitVec 5) : Statement (.await v a) := by
  intro e h
  cases h
  exact ⟨rfl, by simp [parseOp, parse5D]⟩

theorem tspawn (o : EOps) : Statement (.tspawn o) := by
  intro e h
  cases h
  exact ⟨rfl, by simp [parseOp, parse5E]⟩

theorem launch (o : EOps) : Statement (.launch o) := by
  intro e h
  cases h
  exact ⟨rfl, by simp [parseOp, parse5E]⟩

theorem tlbinv (a b : BitVec 5) : Statement (.tlbinv a b) := by
  intro e h
  cases h
  exact ⟨rfl, by simp [parseOp, parse60]⟩

theorem issueAfterInterlock (core bank : Nat) : Statement (.issueAfterInterlock core bank) := by
  intro e h
  cases h

theorem openingEnd (core bank sg : Nat) : Statement (.openingEnd core bank sg) := by
  intro e h
  cases h

theorem writingEnd (core bank sg : Nat) : Statement (.writingEnd core bank sg) := by
  intro e h
  cases h

theorem closingEnd (core bank sg : Nat) : Statement (.closingEnd core bank sg) := by
  intro e h
  cases h

theorem claimEviction (core bank sg : Nat) : Statement (.claimEviction core bank sg) := by
  intro e h
  cases h

theorem refreshTick (core bank sg : Nat) : Statement (.refreshTick core bank sg) := by
  intro e h
  cases h

theorem refreshDeadlineTrap (core bank stop : Nat) : Statement (.refreshDeadlineTrap core bank stop) := by
  intro e h
  cases h

theorem forcedRefresh (core bank sg : Nat) : Statement (.forcedRefresh core bank sg) := by
  intro e h
  cases h

theorem tempSensorUpdate (core bank : Nat) (hot : Bool) : Statement (.tempSensorUpdate core bank hot) := by
  intro e h
  cases h

theorem bondRepair (core : Nat) : Statement (.bondRepair core) := by
  intro e h
  cases h

theorem translationWalkEnd (core bank : Nat) (va : BitVec 64) : Statement (.translationWalkEnd core bank va) := by
  intro e h
  cases h

theorem kwaitEnd (core bank : Nat) : Statement (.kwaitEnd core bank) := by
  intro e h
  cases h

theorem awaitRecheck (core bank : Nat) : Statement (.awaitRecheck core bank) := by
  intro e h
  cases h

theorem bwaitEnd (core bank : Nat) : Statement (.bwaitEnd core bank) := by
  intro e h
  cases h

theorem fbarArrive (core bank : Nat) : Statement (.fbarArrive core bank) := by
  intro e h
  cases h

theorem iwaitEnd (core bank : Nat) : Statement (.iwaitEnd core bank) := by
  intro e h
  cases h

theorem tendWaitEnd (core bank : Nat) : Statement (.tendWaitEnd core bank) := by
  intro e h
  cases h

theorem mdetachWaitEnd (core bank : Nat) : Statement (.mdetachWaitEnd core bank) := by
  intro e h
  cases h

theorem mzeroWaitEnd (core bank : Nat) : Statement (.mzeroWaitEnd core bank) := by
  intro e h
  cases h

theorem xfenceWaitEnd (core bank : Nat) : Statement (.xfenceWaitEnd core bank) := by
  intro e h
  cases h

theorem fifoWaitEnd (core bank : Nat) : Statement (.fifoWaitEnd core bank) := by
  intro e h
  cases h

theorem opStart (op : Nat) : Statement (.opStart op) := by
  intro e h
  cases h

theorem copyGranule (op : Nat) : Statement (.copyGranule op) := by
  intro e h
  cases h

theorem rsctTrain (op : Nat) : Statement (.rsctTrain op) := by
  intro e h
  cases h

theorem collGranule (op : Nat) (remote : List RemoteMember) : Statement (.collGranule op remote) := by
  intro e h
  cases h

theorem redGranule (op : Nat) : Statement (.redGranule op) := by
  intro e h
  cases h

theorem gathGranule (op : Nat) : Statement (.gathGranule op) := by
  intro e h
  cases h

theorem nmoGranule (op : Nat) : Statement (.nmoGranule op) := by
  intro e h
  cases h

theorem mmmaKstep (op : Nat) : Statement (.mmmaKstep op) := by
  intro e h
  cases h

theorem mdrainGranule (op : Nat) : Statement (.mdrainGranule op) := by
  intro e h
  cases h

theorem enginePriorityAging (op : Nat) : Statement (.enginePriorityAging op) := by
  intro e h
  cases h

theorem launchStart (op : Nat) : Statement (.launchStart op) := by
  intro e h
  cases h

theorem tspawnStart (op : Nat) : Statement (.tspawnStart op) := by
  intro e h
  cases h

theorem taskReady (launch task : Nat) : Statement (.taskReady launch task) := by
  intro e h
  cases h

theorem dispatchOffer (core : Nat) : Statement (.dispatchOffer core) := by
  intro e h
  cases h

theorem preemptionTake (core bank stop : Nat) : Statement (.preemptionTake core bank stop) := by
  intro e h
  cases h

theorem preemptHandlerTimeout (core bank : Nat) : Statement (.preemptHandlerTimeout core bank) := by
  intro e h
  cases h

theorem seatSave (core bank : Nat) : Statement (.seatSave core bank) := by
  intro e h
  cases h

theorem schedulerStateError (launch task : Nat) (counter : Bool) : Statement (.schedulerStateError launch task counter) := by
  intro e h
  cases h

theorem vote (launch task : Nat) : Statement (.vote launch task) := by
  intro e h
  cases h

theorem voteTimeout (launch task : Nat) : Statement (.voteTimeout launch task) := by
  intro e h
  cases h

theorem sramModeWrite (quad bank : Nat) (mode : BitVec 2) : Statement (.sramModeWrite quad bank mode) := by
  intro e h
  cases h

theorem sramFifoClr (quad bank : Nat) : Statement (.sramFifoClr quad bank) := by
  intro e h
  cases h

theorem sramModeChangeEnd (quad bank : Nat) : Statement (.sramModeChangeEnd quad bank) := by
  intro e h
  cases h

theorem migreqPromote (sill : Nat) (pte : BitVec 64) : Statement (.migreqPromote sill pte) := by
  intro e h
  cases h

theorem migreqDemote (sill : Nat) (pte : BitVec 64) : Statement (.migreqDemote sill pte) := by
  intro e h
  cases h

theorem migrationStart (sill : Nat) : Statement (.migrationStart sill) := by
  intro e h
  cases h

theorem migrationFinish (sill : Nat) : Statement (.migrationFinish sill) := by
  intro e h
  cases h

theorem migrationAutoSelect (sill : Nat) (demote : Bool) (pte frame : BitVec 64) : Statement (.migrationAutoSelect sill demote pte frame) := by
  intro e h
  cases h

theorem flitTransmit (link : Nat) : Statement (.flitTransmit link) := by
  intro e h
  cases h

theorem flitReceive (link : Nat) (flit : Flit) : Statement (.flitReceive link flit) := by
  intro e h
  cases h

theorem ackTimeout (link : Nat) : Statement (.ackTimeout link) := by
  intro e h
  cases h

theorem strandDeath (link strand : Nat) : Statement (.strandDeath link strand) := by
  intro e h
  cases h

theorem linkTimeout (link : Nat) : Statement (.linkTimeout link) := by
  intro e h
  cases h

theorem peerTimeout (op : Nat) : Statement (.peerTimeout op) := by
  intro e h
  cases h

theorem linkTrainingEnd (link : Nat) (answered : Bool) (txDead rxDead : BitVec 16) : Statement (.linkTrainingEnd link answered txDead rxDead) := by
  intro e h
  cases h

theorem lnkctlEnSet (link : Nat) : Statement (.lnkctlEnSet link) := by
  intro e h
  cases h

theorem lnkctlEnClear (link : Nat) : Statement (.lnkctlEnClear link) := by
  intro e h
  cases h

theorem lnkctlRetrain (link : Nat) : Statement (.lnkctlRetrain link) := by
  intro e h
  cases h

theorem lnkctlParkWrite (link : Nat) (park : BitVec 8) : Statement (.lnkctlParkWrite link park) := by
  intro e h
  cases h

theorem wavelengthWakeEnd (link : Nat) : Statement (.wavelengthWakeEnd link) := by
  intro e h
  cases h

theorem peerFailedClear (n : Nat) : Statement (.peerFailedClear n) := by
  intro e h
  cases h

theorem lqQuiet (link : Nat) : Statement (.lqQuiet link) := by
  intro e h
  cases h

theorem lqcfgWrite (link : Nat) (v : BitVec 64) : Statement (.lqcfgWrite link v) := by
  intro e h
  cases h

theorem lattolWrite (v : BitVec 64) : Statement (.lattolWrite v) := by
  intro e h
  cases h

theorem coreIdleEntry (core : Nat) : Statement (.coreIdleEntry core) := by
  intro e h
  cases h

theorem coreDozeEntry (core : Nat) : Statement (.coreDozeEntry core) := by
  intro e h
  cases h

theorem stackNapEntry (stack : Nat) : Statement (.stackNapEntry stack) := by
  intro e h
  cases h

theorem powerWake (core : Nat) : Statement (.powerWake core) := by
  intro e h
  cases h

theorem powerExitEnd (core : Nat) : Statement (.powerExitEnd core) := by
  intro e h
  cases h

theorem pwrcmdShutter  : Statement (.pwrcmdShutter) := by
  intro e h
  cases h

theorem pwrcmdResume  : Statement (.pwrcmdResume) := by
  intro e h
  cases h

theorem pwrcmdResumeDiscard  : Statement (.pwrcmdResumeDiscard) := by
  intro e h
  cases h

theorem platformPowerEvent  : Statement (.platformPowerEvent) := by
  intro e h
  cases h

theorem supplyDip  : Statement (.supplyDip) := by
  intro e h
  cases h

theorem supplyFail  : Statement (.supplyFail) := by
  intro e h
  cases h

theorem shutterPhase1  : Statement (.shutterPhase1) := by
  intro e h
  cases h

theorem shutterPhase2  : Statement (.shutterPhase2) := by
  intro e h
  cases h

theorem shutterPhase3  : Statement (.shutterPhase3) := by
  intro e h
  cases h

theorem shutterGranuleTimeout (op : Nat) : Statement (.shutterGranuleTimeout op) := by
  intro e h
  cases h

theorem shutterPhase4  : Statement (.shutterPhase4) := by
  intro e h
  cases h

theorem shutterLinkTimeout (link : Nat) : Statement (.shutterLinkTimeout link) := by
  intro e h
  cases h

theorem shutterPhase5  : Statement (.shutterPhase5) := by
  intro e h
  cases h

theorem resumptionEnd  : Statement (.resumptionEnd) := by
  intro e h
  cases h

theorem autoResume  : Statement (.autoResume) := by
  intro e h
  cases h

theorem dutyUpdate (temps powers : List (Nat × Nat)) (watts : Nat) : Statement (.dutyUpdate temps powers watts) := by
  intro e h
  cases h

theorem powerFloorTimeout  : Statement (.powerFloorTimeout) := by
  intro e h
  cases h

theorem pcapWrite (v : BitVec 64) (mgmt : Bool) : Statement (.pcapWrite v mgmt) := by
  intro e h
  cases h

theorem thrFloorWrite (v : BitVec 64) : Statement (.thrFloorWrite v) := by
  intro e h
  cases h

theorem mgmtTelemetry  : Statement (.mgmtTelemetry) := by
  intro e h
  cases h

theorem telemetrySnapshot  : Statement (.telemetrySnapshot) := by
  intro e h
  cases h

theorem mgmtLogExport  : Statement (.mgmtLogExport) := by
  intro e h
  cases h

theorem mgmtFirmware (image : BitVec 64) (signed : Bool) : Statement (.mgmtFirmware image signed) := by
  intro e h
  cases h

theorem mgmtPowerCap (limit : BitVec 16) (lock : Bool) : Statement (.mgmtPowerCap limit lock) := by
  intro e h
  cases h

theorem mgmtShutter (op : BitVec 2) : Statement (.mgmtShutter op) := by
  intro e h
  cases h

theorem mgmtOff  : Statement (.mgmtOff) := by
  intro e h
  cases h

theorem mgmtQuarantine (core : Nat) (on : Bool) : Statement (.mgmtQuarantine core on) := by
  intro e h
  cases h

theorem mgmtMemoryRead (pa n : Nat) : Statement (.mgmtMemoryRead pa n) := by
  intro e h
  cases h

theorem elpostAppend (v : BitVec 64) : Statement (.elpostAppend v) := by
  intro e h
  cases h

theorem quarWrite (word : Nat) (v : BitVec 64) : Statement (.quarWrite word v) := by
  intro e h
  cases h

theorem powerOnReset  : Statement (.powerOnReset) := by
  intro e h
  cases h

theorem bootFirmwareLoad (fromFlash ok : Bool) : Statement (.bootFirmwareLoad fromFlash ok) := by
  intro e h
  cases h

theorem bootSillInit (fuses : List (Nat × BitVec 64)) (ok : Bool) : Statement (.bootSillInit fuses ok) := by
  intro e h
  cases h

theorem bootOsLoad (image : Option OsImage) : Statement (.bootOsLoad image) := by
  intro e h
  cases h

theorem bootStep5Timeout  : Statement (.bootStep5Timeout) := by
  intro e h
  cases h

theorem ccstart (mask : BitVec 16) : Statement (.ccstart mask) := by
  intro e h
  cases h

theorem ccbootDone  : Statement (.ccbootDone) := by
  intro e h
  cases h

theorem ccbarCountWrite (n : Nat) (count : BitVec 16) : Statement (.ccbarCountWrite n count) := by
  intro e h
  cases h

theorem ccTimer (cc : Nat) : Statement (.ccTimer cc) := by
  intro e h
  cases h

theorem lcmdPause (launch : Nat) : Statement (.lcmdPause launch) := by
  intro e h
  cases h

theorem lcmdResume (launch : Nat) : Statement (.lcmdResume launch) := by
  intro e h
  cases h

theorem lcmdCancel (launch : Nat) : Statement (.lcmdCancel launch) := by
  intro e h
  cases h

theorem lcmdExport (launch task : Nat) : Statement (.lcmdExport launch task) := by
  intro e h
  cases h

theorem lcmdRetarget (launch task : Nat) : Statement (.lcmdRetarget launch task) := by
  intro e h
  cases h

theorem lcmdComplete  : Statement (.lcmdComplete) := by
  intro e h
  cases h

theorem ctxPoolWrite (off : Nat) (v : BitVec 64) : Statement (.ctxPoolWrite off v) := by
  intro e h
  cases h

theorem registerWrite (pa : Nat) (v : BitVec 64) : Statement (.registerWrite pa v) := by
  intro e h
  cases h

theorem supplySteady  : Statement (.supplySteady) := by
  intro e h
  cases h

theorem wavelengthDark (link : Nat) : Statement (.wavelengthDark link) := by
  intro e h
  cases h

theorem seatFormingEnd (core bank : Nat) : Statement (.seatFormingEnd core bank) := by
  intro e h
  cases h

end Sys2Proof.Laws.Reads
end

