-- ==== Sys2Proof/Laws/Phys.lean ====
section
/-! SUPPORT. Sys2Proof/Laws/Phys.lean: the operations on memory keep its canonical form, and a byte reads back as it was written. `mem`
is set by State.poke, State.pokeImage and State.reset alone. -/

namespace Sys2Proof.Machine

theorem Memory.wf_reset : Memory.wf State.reset = true := rfl

/-- The form depends on the bytes alone. -/
theorem Memory.wf_of_mem {s t : State} (h : t.mem = s.mem) (hs : Memory.wf s = true) : Memory.wf t = true := by
  unfold Memory.wf at *
  rw [h]
  exact hs

/-! ## Stores -/

theorem State.poke_mem (s : State) (w : Option (Nat × Nat)) (pa v n : Nat) :
    (s.poke w pa v n).mem = if regionOf pa = .sram then s.mem else writeLE s.mem pa v n := by
  unfold State.poke
  split <;> rfl

theorem Memory.wf_poke {s : State} (w : Option (Nat × Nat)) (pa v n : Nat) (h : Memory.wf s = true) : Memory.wf (s.poke w pa v n) = true := by
  unfold Memory.wf at *
  rw [State.poke_mem]
  split
  · exact h
  · exact bytesWf_writeLE pa v n h

theorem Memory.wf_pokeBytes (w : Option (Nat × Nat)) (bs : List Byte) :
    ∀ {s : State} (pa : Nat), Memory.wf s = true → Memory.wf (s.pokeBytes w pa bs) = true := by
  induction bs with
  | nil => intro s pa h; exact h
  | cons b bs ih => intro s pa h; exact ih (pa + 1) (Memory.wf_poke w pa b.toNat 1 h)

theorem Memory.wf_pokeImage {s : State} (w : Option (Nat × Nat)) (pa n : Nat) (img : Table Byte) (h : Memory.wf s = true) :
    Memory.wf (s.pokeImage w pa n img) = true := bytesWf_paste pa n img h

theorem Memory.wf_setPoison {s : State} (pa : Nat) (v : Bool) (h : Memory.wf s = true) : Memory.wf (s.setPoison pa v) = true := h

theorem State.carryPoison_mem (s : State) (pa : Nat) (p : Table (Option (BitVec 128))) (n : Nat) : (s.carryPoison pa p n).mem = s.mem := by
  induction n with
  | zero => rfl
  | succ n ih => exact ih

theorem Memory.wf_carryPoison {s : State} (pa : Nat) (p : Table (Option (BitVec 128))) (n : Nat) (h : Memory.wf s = true) :
    Memory.wf (s.carryPoison pa p n) = true := Memory.wf_of_mem (State.carryPoison_mem s pa p n) h

theorem Memory.wf_writeRow {s : State} (w : Option (Nat × Nat)) (pa : Nat) (i : PaneImage) (h : Memory.wf s = true) :
    Memory.wf (s.writeRow w pa i) = true := Memory.wf_carryPoison _ _ _ (Memory.wf_pokeImage _ _ _ _ h)

theorem State.evict_mem (s : State) (c b n : Nat) : (s.evict c b n).mem = s.mem := by
  unfold State.evict
  dsimp only
  split
  · rfl
  · rfl

theorem Memory.wf_evict {s : State} (c b n : Nat) (h : Memory.wf s = true) : Memory.wf (s.evict c b n) = true :=
  Memory.wf_of_mem (State.evict_mem s c b n) h

theorem State.appendRec_mem (s : State) (r : ErrRec) : (s.appendRec r).mem = s.mem := rfl

theorem Memory.wf_tryCount {s t : State} (pa : Nat) (h : Memory.wf s = true) (ht : s.tryCount pa = some t) : Memory.wf t = true := by
  unfold State.tryCount at ht
  split at ht
  · cases ht
  · cases ht
    split
    · exact h
    · exact Memory.wf_poke _ _ _ _ h

/-- What a step may do at once, or else keep for later, keeps the form when both do. -/
theorem Memory.wf_getD {s : State} {o : Option State} (hs : Memory.wf s = true) (ho : ∀ t, o = some t → Memory.wf t = true) :
    Memory.wf (o.getD s) = true := by
  cases o with
  | none => exact hs
  | some t => exact ho t rfl

theorem Memory.wf_bumpEvent {s : State} (pa : Nat) (h : Memory.wf s = true) : Memory.wf (s.bumpEvent pa) = true := by
  unfold State.bumpEvent
  split
  · exact h
  · split
    · exact h
    · exact Memory.wf_getD h (fun t ht => Memory.wf_tryCount pa h ht)

theorem Memory.wf_pokeFields (pa : Nat) (fs : List (Nat × Nat × Nat)) : ∀ {s : State}, Memory.wf s = true → Memory.wf (s.pokeFields pa fs) = true := by
  induction fs with
  | nil => intro s h; exact h
  | cons f fs ih => intro s h; exact ih (Memory.wf_poke none (pa + f.1) f.2.1 f.2.2 h)

theorem Memory.wf_pokeParcels (ps : List (BitVec 16)) : ∀ {s : State} (pa : Nat), Memory.wf s = true → Memory.wf (s.pokeParcels pa ps) = true := by
  induction ps with
  | nil => intro s pa h; exact h
  | cons p ps ih => intro s pa h; exact ih (pa + 2) (Memory.wf_poke none pa p.toNat 2 h)

/-- A fold of operations that each keep the form. -/
theorem Memory.wf_foldl {α : Type} (f : State → α → State) (hf : ∀ s x, Memory.wf s = true → Memory.wf (f s x) = true) (xs : List α) :
    ∀ {s : State}, Memory.wf s = true → Memory.wf (xs.foldl f s) = true := by
  induction xs with
  | nil => intro s h; exact h
  | cons x xs ih => intro s h; exact ih (hf s x h)

theorem Memory.wf_copyMem {s : State} (dst src n : Nat) (h : Memory.wf s = true) : Memory.wf (s.copyMem dst src n) = true := by
  unfold State.copyMem
  refine Memory.wf_foldl _ (fun t g ht => ?_) _ (Memory.wf_pokeImage _ _ _ _ h)
  split
  · exact ht
  · exact ht

theorem Memory.wf_tryPosted {s t : State} (p : Posted) (h : Memory.wf s = true) (ht : s.tryPosted p = some t) : Memory.wf t = true := by
  unfold State.tryPosted at ht
  split at ht
  · split at ht <;> cases ht
    · split <;> exact h
    · exact h
  · split at ht <;> cases ht
    · exact Memory.wf_poke _ _ _ _ h
    · exact h
  · split at ht <;> cases ht
    · exact Memory.wf_poke _ _ _ _ h
    · exact h
  · exact Memory.wf_tryCount _ h ht
  · split at ht <;> cases ht
    exact Memory.wf_poke _ _ _ _ h

/-- A store of the part's own keeps the form (R72, R378). -/
theorem Memory.wf_post {s : State} (p : Posted) (h : Memory.wf s = true) : Memory.wf (s.post p) = true := by
  unfold State.post
  split
  · exact h
  · exact Memory.wf_getD h (fun t ht => Memory.wf_tryPosted p h ht)

theorem Memory.wf_storeVa {s : State} (c : Ctx) (va v n : Nat) (h : Memory.wf s = true) : Memory.wf (s.storeVa c va v n) = true :=
  Memory.wf_post _ h

/-! ## Reading after writing -/

/-- Plain memory: a store of n bytes reads back, modulo its bytes. -/
theorem State.peek_poke_same {s : State} (w : Option (Nat × Nat)) (pa v n : Nat) (hr : regionOf pa ≠ .sram) (h : Memory.wf s = true) :
    (s.poke w pa v n).peek pa n = v % 256 ^ n := by
  unfold State.peek
  rw [if_neg hr, State.poke_mem, if_neg hr]
  exact readLE_writeLE pa v n h

theorem State.poke_quad {s : State} (w : Option (Nat × Nat)) (pa v n : Nat) (hr : regionOf pa ≠ .sram) : (s.poke w pa v n).quads = s.quads := by
  unfold State.poke
  rw [if_neg hr]

/-- A store to plain memory leaves every byte outside it as it was. -/
theorem State.peek_poke_other {s : State} (w : Option (Nat × Nat)) (pa v n a : Nat) (hr : regionOf pa ≠ .sram) (h : Memory.wf s = true)
    (ha : a < pa ∨ pa + n ≤ a) : (s.poke w pa v n).peek a 1 = s.peek a 1 := by
  have hq : ∀ q b, (s.poke w pa v n).sram q b = s.sram q b := by
    intro q b
    unfold State.sram State.quad
    rw [State.poke_quad w pa v n hr]
  unfold State.peek
  split
  · rw [hq]
  · rw [State.poke_mem, if_neg hr]
    simp only [readLE, look_writeLE_other pa v n a h ha]

/-- An instruction that writes no memory leaves every byte as it was. -/
theorem State.peek_congr {s t : State} (hm : t.mem = s.mem) (hq : t.quads = s.quads) (pa n : Nat) : t.peek pa n = s.peek pa n := by
  unfold State.peek State.sram State.quad
  rw [hm, hq]

/-! ## What a path has taken ahead (R303-R305) -/

/-- With nothing taken ahead of it, an access reads memory. -/
theorem State.sees_peek {s : State} {core base : Nat} {path : BitVec 4} {pa : Nat} (n : Nat) (h : s.aheadAt core base path pa = none) :
    s.sees core base path pa n = s.peek pa n := by
  unfold State.sees
  rw [h]

@[simp] theorem State.peek_dropAhead (s : State) (f : Ahead → Bool) (pa n : Nat) : (s.dropAhead f).peek pa n = s.peek pa n := rfl

theorem State.mem_dropAhead {s : State} {f : Ahead → Bool} {x : Ahead} : x ∈ (s.dropAhead f).ahead ↔ x ∈ s.ahead ∧ f x = false := by
  simp [State.dropAhead, List.mem_filter]

/-- After the accesses of an agent have been ordered before a path, what the path reads is memory. -/
theorem State.aheadAt_orderPath (s : State) (core base : Nat) (p : BitVec 4) (pa : Nat) :
    (s.orderPath core base p).aheadAt core base p pa = none := by
  unfold State.aheadAt
  rw [Option.map_eq_none_iff, List.find?_eq_none]
  intro x hx
  obtain ⟨-, hf⟩ := State.mem_dropAhead.1 hx
  by_cases h0 : p = 0
  · subst h0
    simp_all
  · simp only [h0, if_false] at hf
    simp_all

/-- The writes of an accepted packet keep the form (R397). -/
theorem Memory.wf_receive {s : State} (ps : List (BitVec 1920)) (w : Nat × Nat × Nat) (h : Memory.wf s = true) :
    Memory.wf (s.receive ps w) = true := by
  unfold State.receive
  split
  · refine Memory.wf_foldl _ (fun t k ht => ?_) _ (Memory.wf_foldl _ (fun t k ht => Memory.wf_poke _ _ _ _ ht) _ h)
    dsimp only
    split
    · exact ht
    · exact ht
  · exact h

end Sys2Proof.Machine
end

