-- ==== Sys2Proof/Laws/Traps.lean ====
section
/-! SUPPORT. Sys2Proof/Laws/Traps.lean: taking a trap (R342), transferring control (R88, R89) and the three ends of a single instruction: all each
does, said once. -/

namespace Sys2Proof.Machine

/-! ## The ends of a single instruction -/

@[simp] theorem finishSingle_ok (s : State) : finishSingle (s, .ok) = .next s.retire := rfl
@[simp] theorem finishSingle_trap (s : State) (c : BitVec 8) (v : Word) : finishSingle (s, .trap c v) = .next (s.trapSingle c v) := rfl
@[simp] theorem finishSingle_wait (s : State) (w : Wait) : finishSingle (s, .wait w) = .next (s.waitOn w) := rfl

/-- A single instruction never ends in a fault or a refusal. -/
theorem finishSingle_next (r : State × Done) : ∃ t, finishSingle r = .next t := by
  unfold finishSingle
  split <;> exact ⟨_, rfl⟩

/-- A trap other than that of poison is the plain one, with xidx 0 (R103). -/
theorem trapSingle_eq (s : State) (c : BitVec 8) (v : Word) (h : c ≠ 0x14) :
    s.trapSingle c v = s.takeTrap s.focus c v (s.part s.focus).pc (some 0) := by
  unfold State.trapSingle State.notePoison
  rw [if_neg h]
  dsimp only
  rw [if_neg h]

/-! ## Transfers -/

/-- A change of the active banks and a transfer of control, with no late result (R27, R88). -/
theorem jumpTo_onActive {s : State} (h : Settled s) (f : Nat → Bank → Bank) (target : Word) :
    Around s ((s.onActive f).jumpTo target) ∧
      ((s.onActive f).jumpTo target).part s.focus = { (s.part s.focus).endConvoy with pc := target, wait := none, begun := 0 } ∧
      ∀ c b, ((s.onActive f).jumpTo target).bank c b = if c = s.focus.core ∧ b ∈ s.active then f b (s.bank c b) else s.bank c b := by
  have hr : (s.onActive f).jumpTo target =
      (s.onActive f).setPart s.focus { (s.part s.focus).endConvoy with pc := target, wait := none, begun := 0 } := by
    unfold State.jumpTo
    simp only [State.onActive_focus, State.part_onActive]
    rw [show (s.part s.focus).late = [] from h]
    rfl
  rw [hr]
  refine ⟨Around.of ?_ ((SameCores.modBanks (SameCores.refl s) _ _ _).setPart _) (SameSeat.setPart (by simp) _ _ _ _ _ (s.part s.focus).endConvoy_vl), by simp, ?_⟩
  · have : ∀ t : State, { t with cores := s.cores } = s →
        { t.setPart s.focus { (s.part s.focus).endConvoy with pc := target, wait := none, begun := 0 } with cores := s.cores } = s := by
      intro t ht
      rw [← ht]
      rfl
    apply this
    unfold State.onActive
    generalize s.active = bs
    have : ∀ t : State, { t with cores := s.cores } = s → { t.modBanks s.focus.core f bs with cores := s.cores } = s := by
      induction bs with
      | nil => intro t ht; exact ht
      | cons b bs ih =>
        intro t ht
        exact ih _ (by rw [← ht]; rfl)
    exact this s rfl
  · intro c b
    rw [State.bank_setPart, State.bank_onActive]

/-! ## Entering a handler -/

theorem handlerPc_eq (v : Word) (c : BitVec 3) : handlerPc v c = v + BitVec.ofNat 64 (64 * c.toNat) + 2 := by
  unfold handlerPc
  congr 2

/-- A trap of the part in focus that has a handler and no late result: R342, all of it. -/
theorem takeTrap_enters {s : State} (hs : Settled s) (hh : HasHandler s) (cause : BitVec 8) (tval epc : Word) (xidx : Option Nat)
    (hx : s.fseat.isCC = true → xidx = none) :
    EntersHandler s (s.takeTrap s.focus cause tval epc xidx) cause (classOf cause).toNat tval epc (xidx.getD (s.part s.focus).xidx) := by
  have hv : s.fseat.tvec ≠ 0 := hh.1
  have e : s.takeTrap s.focus cause tval epc xidx = (s.dropLinks s.focus.core s.fseat.banks).enterHandler s.focus cause tval epc xidx := by
    unfold State.takeTrap
    dsimp only
    rw [show (s.part s.focus).late = [] from hs]
    change (if s.fseat.isCC = true then _ else _) = _
    cases hc : s.fseat.isCC with
    | true =>
      rw [hx hc, if_pos rfl, if_neg (by exact hv)]
      rfl
    | false =>
      have hl : s.fseat.status.lvl = false := by
        rcases hh.2 with h | h
        · rw [hc] at h; cases h
        · exact h
      rw [if_neg (by simp), if_neg]
      · rfl
      · change ¬((decide (s.fseat.tvec = 0) || s.fseat.status.lvl) = true)
        rw [hl, Bool.or_false, decide_eq_true_eq]
        exact hv
  rw [e]
  have hd : ∀ v, SameCores s ((s.dropLinks s.focus.core s.fseat.banks).setSeat s.focus v) := fun v =>
    SameCores.setSeat (s := s) (t := s.dropLinks s.focus.core s.fseat.banks) ⟨fun _ => rfl, fun _ _ _ => rfl⟩ v
  unfold State.enterHandler
  dsimp only
  constructor
  · rfl
  · intro a; rfl
  · rfl
  · exact hd _
  · intro c b
    rw [State.bank_setSeat]
    rfl
  · simp only [State.seat_setSeat]
    rw [BitVec.ofNat_toNat, BitVec.setWidth_eq]
    rfl
  · intro q hq
    simp only [State.seat_setSeat, Seat.part?_setPart?, if_neg hq]
    rfl
  · unfold State.part
    simp only [State.seat_setSeat, Seat.part?_setPart?, if_true, Option.getD_some]
    rw [handlerPc_eq]
    rfl

end Sys2Proof.Machine
end

