-- ==== Sys2Proof/Tests/Slice0.lean ====
section
/-! SUPPORT. Sys2Proof/Tests/Slice0.lean: tests: one ill-formed term for each check of WellFormed, words written out from the spec's encodings,
single steps with results worked out by hand, and for each statement a state and operands that meet its hypotheses. -/

namespace Sys2Proof.Tests

set_option Elab.async false

open Sys2Proof Sys2Proof.Machine

/-! ## Each check of WellFormed refuses (R40, R93, R94, R185, R209) -/

def vops (wd wa wb : BitVec 4) (sv : BitVec 2) : VOps := ⟨0, wd, wa, wb, 2, 0, false, 0, 0, false, sv⟩
def mops (w wi : BitVec 4) (a : BitVec 3) (s : BitVec 5) : MOps := ⟨0, w, a, s, 12, 0, false, wi⟩

theorem test_ill_formed_panes : (Instr.actz 12).formOk = false ∧ (Instr.act 13 0).formOk = false ∧ (Instr.rcopy 15 0 1).formOk = false ∧
    (Instr.shut 12 0).formOk = false ∧ (Instr.reopen 0 8).formOk = false ∧ (Instr.pstat 1 12).formOk = false ∧
    (Instr.rshufRev 3 3).formOk = false ∧ (Instr.vidx ⟨0, 12, 0, 1, 2, 0⟩).formOk = false := by decide

theorem test_ill_formed_vectors : (Instr.vadd (vops 12 0 0 0)).formOk = false ∧ (Instr.vadd (vops 0 0 0 3)).formOk = false ∧
    (Instr.vadd { vops 0 0 0 0 with n := true }).formOk = false ∧ (Instr.vabs (vops 0 0 1 0)).formOk = false ∧
    (Instr.vbcast (vops 0 1 0 1)).formOk = false ∧ (Instr.vcmpEq (vops 0 0 0 0)).formOk = false ∧ (Instr.mand (vops 1 8 1 0)).formOk = false ∧
    (Instr.mnot (vops 1 1 1 0)).formOk = false ∧ (Instr.mpopc (vops 1 1 0 0)).formOk = false ∧ (Instr.vcvt { vops 0 0 0 0 with s := 16 }).formOk = false ∧
    (Instr.vdot (vops 0 0 12 0)).formOk = false ∧ (Instr.vredSum (vops 1 0 0 0)).formOk = false := by decide

theorem test_ill_formed_memory : (Instr.vld (mops 12 0 0 0)).formOk = false ∧ (Instr.vld (mops 0 1 0 0)).formOk = false ∧
    (Instr.vld (mops 0 0 0 1)).formOk = false ∧ (Instr.vldx (mops 0 12 0 0)).formOk = false ∧ (Instr.vlq (mops 0 0 1 0)).formOk = false ∧
    (Instr.vfill { mops 0 0 0 0 with m := 1 }).formOk = false := by decide

theorem test_ill_formed_engines : (Instr.cpy ⟨0, 0, 0, 0, 0, false, 1, false, 0⟩).formOk = false ∧
    (Instr.red ⟨0, 0, 1, 0, 0, false, 0, false, 0⟩).formOk = false ∧ (Instr.tspawn ⟨0, 0, 0, 0, 0, false, 0, false, 1⟩).formOk = false ∧
    (Instr.mmma ⟨0, 0, 0, 0, 0, false, 0, false, 0x8000⟩).formOk = false ∧ (Instr.mdrain ⟨0, 0, 0, 0, 0, false, 0, false, 0x800⟩).formOk = false ∧
    (Instr.mzero 8).formOk = false := by decide

theorem test_ill_formed_scalars : (Instr.bany 6 1 1 0).formOk = false ∧ (Instr.split 0 6 1 1 0).formOk = false ∧ (Instr.slli 1 1 64).formOk = false ∧
    (Instr.push 0 1).formOk = false ∧ (Instr.pop 3 2).formOk = false ∧ (Instr.aset 0 1 6).formOk = false ∧
    (Instr.smine ⟨1, 0, 0, 2, 0, 0, 0, 0, 0⟩).formOk = false ∧ (Instr.smine ⟨1, 2, 2, 2, 0, 1, 1, 0, 0⟩).formOk = false ∧
    (Instr.smine ⟨1, 2, 1, 2, 0, 1, 1, 0, 0⟩).formOk = false := by decide

theorem test_ill_formed_tokens : (Instr.kwait 0 9 0).formOk = false ∧ (Instr.kwaitNt 1 0 12).formOk = false ∧ (Instr.kinfo 1 0 5).formOk = false ∧
    (Instr.fence 12).formOk = false ∧ (Instr.fbar 0 12).formOk = false ∧ (Instr.xfence 9 1 0).formOk = false ∧ (Instr.await 0 1).formOk = false ∧
    (Instr.vadd { vops 0 0 0 0 with t := 13 }).wellFormed = false := by decide

/-! ## Words of the spec's encodings (R86, R91-R93, R105): the head, then its tail parcels, lowest first -/

theorem test_words_control : decodeWords [0x8003] = .ok .tend ∧ decodeWords [0x8045] = .ok (.trap 5) ∧ decodeWords [0x8081] = .ok (.sjoin 1) ∧
    decodeWords [0xE100, 0x0010, 0x0000, 0x0000] = .ok (.j 16) ∧ decodeWords [0xA185, 0x0460] = .ok (.jlr 5 3) ∧
    decodeWords [0x4201, 0xFFFE, 0x603F] = .ok (.bNe 12 0 0x3FFFFE) ∧ decodeWords [0xC289, 0x0002, 0x5800] = .ok (.split 1 1 11 0 2) ∧
    decodeWords [0xA301, 0x0400] = .ok (.setc 1 0) ∧ decodeWords [0x8347] = .ok (.rnd 7) := ⟨rfl, rfl, rfl, rfl, rfl, rfl, rfl, rfl, rfl⟩

theorem test_words_scalar : decodeWords [0xA403, 0x0022] = .ok (.add 3 1 2) ∧ decodeWords [0x4489, 0x0040, 0x4800] = .ok (.addi 9 9 64) ∧
    decodeWords [0xE4CC, 0xCDEF, 0x89AB, 0x0000] = .ok (.li 12 0x89ABCDEF) ∧ decodeWords [0xC509, 0x0010, 0x2200] = .ok (.ldAcqD 9 4 16) ∧
    decodeWords [0xC54A, 0x0000, 0xA0C0] = .ok (.stD 10 20 0) ∧ decodeWords [0xA5C0, 0x021B] = .ok (.push 16 27) ∧
    decodeWords [0xA642, 0x0420] = .ok (.aset 2 1 0) ∧ decodeWords [0xE6C9, 0x0001, 0x0000, 0x09C0] = .ok (.smine ⟨9, 1, 1, 12, 0, 1, 0, 0, 0⟩) :=
  ⟨rfl, rfl, rfl, rfl, rfl, rfl, rfl, rfl⟩

theorem test_words_rows : decodeWords [0xB002, 0x0000] = .ok (.act 2 0) ∧ decodeWords [0xB046, 0x8901] = .ok (.rshufXor 6 4 9) := ⟨rfl, rfl⟩

theorem test_words_vector : decodeWords [0xD204, 0x0000, 0x01C0] = .ok (.vadd ⟨0, 4, 0, 1, 12, 0, false, 0, 0, false, 0⟩) ∧
    decodeWords [0xD314, 0x0160, 0x20C0] = .ok (.vcvt ⟨1, 4, 2, 0, 12, 0, false, 11, 0, false, 0⟩) ∧
    decodeWords [0xF2C0, 0x0140, 0x0000, 0x0000] = .ok (.vidx ⟨0, 0, 0, 1, 4, 0⟩) := ⟨rfl, rfl, rfl⟩

theorem test_words_memory : decodeWords [0xD404, 0x0000, 0x20C4] = .ok (.vld ⟨0, 4, 1, 0, 12, 2, false, 0⟩) ∧
    decodeWords [0xD404, 0x7000, 0x4040] = .ok (.vldl ⟨0, 4, 2, 0, 4, 0, false, 0⟩) := ⟨rfl, rfl⟩

theorem test_words_engines : decodeWords [0xF602, 0x0002, 0xC400, 0x0225] = .ok (.cpy ⟨0, 2, 4, 2, 11, true, 1, false, 2⟩) ∧
    decodeWords [0xF601, 0x0180, 0x0000, 0x1030] = .ok (.red ⟨0, 1, 0, 3, 0, false, 0, false, 384⟩) ∧
    decodeWords [0xB702, 0x0007] = .ok (.kwait 2 0 7) ∧ decodeWords [0xB740, 0x0446] = .ok (.xfence 0 2 6) ∧
    decodeWords [0xB743, 0x0806] = .ok (.fbar 3 6) ∧ decodeWords [0xB740, 0x1889] = .ok (.await 9 4) := ⟨rfl, rfl, rfl, rfl, rfl, rfl⟩

/-! ## Single steps on small states -/

/-- A bank with registers and address registers. -/
def bankWith (r : List (Nat × Word)) (a : List (Nat × Word)) : Bank := { Bank.empty with s := r, a := a }

/-- A seat of bank 0 of core 0: one part, at address 2, with a handler. -/
def user : Seat := { Seat.empty with tvec := 0x1000, prio := 1, recPrio := 3, parts := [(0, some { Part.empty with pc := 2, active := 1, vl := 4 })] }

/-- The same at LVL 1, after claim: it reaches memory through the direct window (R373). -/
def sup : Seat := { user with status := { Status.empty with lvl := true, clm := true } }

/-- A part alone in bank 0 of core 0. -/
def lone (u : Seat) (x : Bank) : State :=
  { State.reset with cores := [(0, { Core.empty with banks := [(0, x)], seats := [(0, some u)] })], focus := ⟨0, 0, 0⟩ }

/-- A virtual address of the direct window: capacity-tier memory, row 0 of sg 0 of core 0's bank 0. -/
def capVa : Word := 0xFE010000000000
def rowVa : Word := 0xFE000000000000

def regAfter (r : Host.Outcome State Fault Refusal) (n : BitVec 5) : Option Word :=
  match r with | .next t => some ((t.bank 0 0).rs n) | _ => none

def causeAfter (r : Host.Outcome State Fault Refusal) : Option (BitVec 8 × Word × Word) :=
  match r with | .next t => some ((t.seatAt 0 0).cause, (t.seatAt 0 0).tval, (t.part ⟨0, 0, 0⟩).pc) | _ => none

theorem test_add_wraps : regAfter (exec (.add 3 1 2) (lone user (bankWith [(1, 0xFFFFFFFFFFFFFFFF), (2, 3)] []))) 3 = some 2 := by decide +kernel

theorem test_s0_discards : regAfter (exec (.add 0 1 2) (lone user (bankWith [(1, 5), (2, 3)] []))) 0 = some 0 := by decide +kernel

theorem test_div_by_zero : regAfter (exec (.div 3 1 2) (lone user (bankWith [(1, 0xFFFFFFFFFFFFFFFF)] []))) 3 = some 0x8000000000000000 := by decide +kernel

theorem test_store_then_load :
    (match exec (.stH 2 1 2) (lone sup (bankWith [(1, capVa), (2, 0xABCDEF)] [])) with
     | .next t => regAfter (exec (.ldH 3 1 2) t) 3
     | _ => none) = some 0xFFFFFFFFFFFFCDEF := by decide +kernel

theorem test_misaligned_load : causeAfter (exec (.ldW 3 1 2) (lone { sup with isCC := true } (bankWith [(1, capVa)] []))) = some (0x12, capVa + 2, 0x1002) := by
  decide +kernel

theorem test_jump_to_an_odd_address_traps :
    causeAfter (exec (.jr 1) (lone user (bankWith [(1, 3)] []))) = some (0x03, 3, 0x1002) := by decide +kernel

theorem test_trap_number : causeAfter (exec (.trap 5) (lone user Bank.empty)) = some (0x30, 0x1400000000000004, 0x1002) := by decide +kernel

theorem test_step_runs_the_word :
    (match step (State.reset.withFetchWord 32 0xA4030000) with | .next t => (t.part ⟨0, 0, 0⟩).pc | _ => 0) = capVa + 64 + 2 := by decide +kernel

theorem test_f32_add : (fpAdd f32Fmt .rne 0x3F800000 0x40000000).1 = 0x40400000 ∧ (fpDiv f32Fmt .rne 0x3F800000 0).2 = 2 := by decide +kernel

/-! ## States and operands that meet the hypotheses of the statements: scalar instructions -/

/-- A part whose convoy holds single instructions. -/
def inConvoy (todo : List (Word × Instr)) : Part :=
  { Part.empty with pc := 2, active := 1, convoy := some ⟨2, [], todo, 6, 0, 0, 0, [], true, false, [], none, 0⟩ }
def seatOf (p : Part) : Seat := { user with parts := [(0, some p)] }

theorem test_meets_IntegerResults : Settled (lone user Bank.empty) := rfl

theorem test_meets_UnaryAndImmediateResults : Settled (lone user Bank.empty) ∧ (63#22).toNat ≤ 63 ∧ 63 < (64#22).toNat := ⟨rfl, by decide, by decide⟩

theorem test_meets_FloatRoundingResults : Settled (lone user Bank.empty) ∧ (lone user Bank.empty).fpart.rmNow.toNat < 5 ∧
    5 ≤ (lone (seatOf { Part.empty with active := 1, rm := 5 }) Bank.empty).fpart.rmNow.toNat := ⟨rfl, by decide, by decide⟩

theorem test_meets_SumsAndProductsAreCorrectlyRounded : FinEnc f32Fmt 0x3F800000 ∧ FinEnc e5m2Fmt 0x7B ∧ FinEnc f64Fmt 0 := by
  unfold FinEnc; decide +kernel

theorem test_meets_QuotientsAndRootsAreCorrectlyRounded : FinEnc f32Fmt 0x3F800000 ∧ FinEnc bf16Fmt 1 ∧ unpack f32Fmt 0x3F800000 = .num false 0x800000 (-23) := by
  unfold FinEnc; decide +kernel

theorem test_meets_FloatSpecialValues : (fvIn f32Fmt 0x7FC00000).isNan ∧ (fvIn f32Fmt 0x7F800000).isInf ∧ (fvIn f32Fmt 0x80000000).isZero ∧
    (fvIn f32Fmt 0xBF800000).sign ∧ (fvIn f64Fmt 0x7FF0000000000000).isInf := by decide +kernel

theorem test_meets_ConversionsFollowTheirRule : (fvIn f64Fmt 0x7FF8000000000000).isNan ∧ (fvIn f32Fmt 0xFF800000).isInf ∧ (fvIn f64Fmt 0).isZero ∧
    (fvIn f32Fmt 0x40200000).isNan = false ∧ (fvIn f32Fmt 0x40200000).isInf = false ∧ (fvIn f32Fmt 0x40200000).isZero = false ∧ (0#64).toInt = 0 ∧
    (0xFFFFFFFFFFFFFFFF#64).toInt ≠ 0 ∧ (fpToInt f32Fmt true .rne 0x40200000) = (2, 16) ∧ (fpToInt f32Fmt false .rtz 0xBF800000) = (0, 1) := by decide +kernel

theorem test_meets_PlainFloatResults : Settled (lone user Bank.empty) := rfl

theorem test_meets_NoOperationsAdvanceAndRndIsFree :
    let s := lone (seatOf (inConvoy [(2, .nop), (4, .add 1 2 3)])) Bank.empty
    Settled s ∧ s.fseat.red = none ∧ ((s.part s.focus).convoy.map (fun c => c.todo.length)) = some 2 ∧ Settled (lone user Bank.empty) := ⟨rfl, rfl, rfl, rfl⟩

theorem test_meets_JumpsAndBranchesTransferControl : Settled (lone user Bank.empty) ∧ ((lone user (bankWith [(1, 0xFFFFFFFFFFFFFE)] [])).fbank 0).rs 1 = 0xFFFFFFFFFFFFFE ∧
    (0xFFFFFFFFFFFFFE : Word).toNat < 2 ^ 56 ∧ 2 ^ 56 ≤ (0x100000000000000 : Word).toNat ∧ (5#3).toNat ≤ 5 := by
  exact ⟨rfl, by decide +kernel, by decide, by decide, by decide⟩

theorem test_meets_TrapsEnterTheirHandler : Settled (lone user Bank.empty) ∧ HasHandler (lone user Bank.empty) ∧
    HasHandler (lone { sup with isCC := true } Bank.empty) := ⟨rfl, ⟨by decide, .inr (by decide)⟩, ⟨by decide, .inl (by decide)⟩⟩

theorem test_meets_BreakAndTrapEnterTheirHandler : Settled (lone user Bank.empty) ∧ HasHandler (lone user Bank.empty) := ⟨rfl, ⟨by decide, .inr (by decide)⟩⟩

/-- A result is the given one. -/
def isOk {α : Type} [DecidableEq α] (r : Res α) (p : α) : Bool := match r with | .ok x => decide (x = p) | _ => false

theorem ok_of {α : Type} [DecidableEq α] {r : Res α} {p : α} (h : isOk r p = true) : r = .ok p := by
  cases r <;> simp_all [isOk]

/-- The same machine with a line of one head in capacity-tier memory. -/
def lined (s : State) : State := { s with mem := [(0x10000000000, 1), (0x10000000003, 0x80)] }

/-- What the fetch of a line gives: 0 its place, 1 a wait, 2 a failure. -/
def fetches (s : State) (line : Nat) : Nat := match fetchPa s s.fctx line with | .ok _ => 0 | .wait _ => 1 | .bad _ _ => 2

/-- A supervisor seat that returns to an address. -/
def backTo (epc : Word) (clm : Bool) : Seat := { sup with epc := epc, handler := some 1, status := { sup.status with clm := clm } }

theorem test_meets_EretReturnsFromATrap : Settled (lone sup Bank.empty) ∧ (lone user Bank.empty).fseat.status.lvl = false ∧
    (backTo (capVa + 1) false).status.lvl = true ∧ ¬HeadAddress (capVa + 1) ∧ HeadAddress (capVa + 2) ∧ HeadAddress (capVa + 4) ∧
    fetchPa (lined (lone (backTo (capVa + 2) true) Bank.empty)) (lone (backTo (capVa + 2) true) Bank.empty).fctx capVa.toNat = .ok 0x10000000000 ∧
    (lined (lone sup Bank.empty)).peek 0x10000000000 2 % 32 = 1 ∧ claimWait (lone (backTo (capVa + 2) true) Bank.empty) 0 [0] = none ∧
    claimWait (lone sup { Bank.empty with panes := [(1, { Pane.empty with st := .opening })] }) 0 [0] = some (.pane 0 0 1) ∧
    Bank.empty.leftTokens = [] ∧ Bank.empty.lostTokens = [] ∧ (∀ x ∈ (lone (backTo 2 true) Bank.empty).fseat.parts, ∀ p, x.2 = some p → p.late = []) ∧
    fetches (lone (backTo 2 false) Bank.empty) 0 = 2 ∧
    fetches (lone (backTo (rowVa + 2) true) { Bank.empty with panes := [(0, { Pane.empty with st := .openClean })] }) rowVa.toNat = 1 := by
  refine ⟨rfl, rfl, rfl, ?_, ?_, ?_, ok_of (by decide +kernel), by decide +kernel, by decide +kernel, by decide +kernel, rfl, rfl, by decide +kernel,
    by decide +kernel, by decide +kernel⟩ <;> unfold HeadAddress <;> decide

theorem test_meets_ClaimParksTheVectorState : Settled (lone sup Bank.empty) ∧ sup.status.clm = true ∧ (backTo 2 false).status.lvl = true ∧
    (backTo 2 false).status.clm = false ∧ ((backTo 2 false).part? 0).isSome = true ∧ claimWait (lone (backTo 2 false) Bank.empty) 0 [0] = none ∧
    claimWait (lone (backTo 2 false) { Bank.empty with panes := [(11, { Pane.empty with st := .writing })] }) 0 [0] = some (.pane 0 0 11) := by
  exact ⟨rfl, rfl, rfl, rfl, by decide +kernel, by decide +kernel, by decide +kernel⟩

/-- A part inside one split, and its sibling at the sjoin. -/
def splitSeat (others : List (Nat × Option Part)) : Seat :=
  { user with log2s := 1, parts := (0, some { Part.empty with pc := 2, active := 1, splits := [⟨1, 3⟩] }) :: others }

theorem test_meets_SplitDividesAndSjoinMerges :
    let whole := lone { user with log2s := 1, parts := [(0, some { Part.empty with active := 3 })] } Bank.empty
    let waiting : Part := { Part.empty with active := 2, splits := [⟨1, 3⟩], wait := some (.sjoin 1) }
    Settled whole ∧ whole.fpart.splits.length ≠ 4 ∧ (∀ k, k < 16 → ((3#16).getLsbD k = true ↔ whole.fpart.active.getLsbD k = true ∧ (0 : Word) = 0)) ∧
    (lone (seatOf { Part.empty with active := 1, splits := List.replicate 4 ⟨0, 1⟩ }) Bank.empty).fpart.splits.length = 4 ∧
    findSibling (splitSeat []) ⟨1, 3⟩ 2 = none ∧ findSibling (splitSeat [(1, some waiting)]) ⟨1, 3⟩ 2 = some (1, waiting) ∧ waiting.late = [] := by
  exact ⟨rfl, by decide, by decide, rfl, by decide +kernel, by decide +kernel, rfl⟩

theorem test_meets_ControlRegisterAccessIsChecked : Settled (lone user Bank.empty) ∧ (lone user Bank.empty).fseat.isCC = false ∧
    HasHandler (lone user Bank.empty) ∧ (lone user Bank.empty).fseat.status.lvl = false := ⟨rfl, rfl, ⟨by decide, .inr (by decide)⟩, rfl⟩

theorem test_meets_GetcAndSetcAccessTheControlRegister : Settled (lone user Bank.empty) ∧ Settled (lone sup Bank.empty) ∧ sup.status.lvl = true ∧
    ({ sup with isCC := true } : Seat).isCC = true ∧ user.log2s < 8 ∧ user.base < 16 ∧ user.task < 2 ^ 32 ∧ user.launch < 2 ^ 16 ∧ user.red = none := by
  exact ⟨rfl, rfl, rfl, rfl, by decide, by decide, by decide, by decide, rfl⟩

theorem test_meets_SetcStoresLimitedValues : Settled (lone sup Bank.empty) ∧ (lone sup Bank.empty).fseat.isCC = false ∧ (lone sup Bank.empty).fseat.status.lvl = true :=
  ⟨rfl, rfl, rfl⟩

/-- A part at LVL 1 whose s1 is the address of plain memory. -/
def atCap : State := lone sup (bankWith [(1, capVa), (2, 5)] [(1, capVa)])

theorem atCap_plain (need : Need) (n : Nat) (hn : n = 1 ∨ n = 2 ∨ n = 4 ∨ n = 8) (h : need = .read ∨ need = .write) :
    Plain atCap need n capVa.toNat 0x10000000000 := by
  rcases hn with rfl | rfl | rfl | rfl <;> rcases h with rfl | rfl <;>
    exact ⟨by decide, by decide, ⟨⟨0x10000000000, 0, false, true, false⟩, ok_of (by decide +kernel), rfl, rfl⟩, by decide +kernel, by decide +kernel, .inr (.inl (by decide +kernel))⟩

theorem test_meets_LoadsReadMemory : Settled atCap ∧ Fresh atCap ∧ atCap.fseat.red = none ∧ ∀ b ∈ atCap.active,
    Plain atCap .read 8 (BitVec.ofInt 64 ((((atCap.fbank b).rs 1).toNat : Int) + (0#22).toInt)).toNat 0x10000000000 ∧ atCap.poisoned 0x10000000000 8 = false := by
  refine ⟨rfl, rfl, rfl, fun b h => ?_⟩
  obtain rfl : b = 0 := by revert b; decide +kernel
  exact ⟨atCap_plain .read 8 (by simp) (by simp), by decide +kernel⟩

theorem test_meets_StoresWriteMemory : Settled atCap ∧ Fresh atCap ∧ atCap.fseat.red = none ∧ Memory.wf atCap = true ∧ Plain atCap .write 8 capVa.toNat 0x10000000000 ∧
    (((lone sup { Bank.empty with panes := [(11, { Pane.empty with st := .closing })] }).fbank 0).pane 11).st ∈ [PaneState.opening, .writing, .closing] :=
  ⟨rfl, rfl, rfl, by decide, atCap_plain .write 8 (by simp) (by simp), by decide⟩

theorem test_meets_AtomicsReadAndWriteOnce : Settled atCap ∧ Fresh atCap ∧ atCap.lastAmo = none ∧ atCap.fseat.red = none ∧ Memory.wf atCap = true ∧ ∀ k ∈ atCap.active,
    Plain atCap .write 8 ((atCap.fbank k).rs 1).toNat 0x10000000000 ∧ atCap.poisoned 0x10000000000 8 = false := by
  refine ⟨rfl, rfl, rfl, rfl, by decide, fun b h => ?_⟩
  obtain rfl : b = 0 := by revert b; decide +kernel
  exact ⟨atCap_plain .write 8 (by simp) (by simp), by decide +kernel⟩

/-- A seat with cluster SRAM bank 0 of quad 0 in a mode, and s1 and hsp in the scratch window. -/
def atScratch (mode : BitVec 2) (hsp : Word) (count : Nat) : State :=
  { lone { user with sram := [0] } { bankWith [(1, 0xFFFFFFFF800000)] [] with hsp := hsp } with
    quads := [(0, { Quad.empty with sram := [(0, { SramBank.empty with mode := mode, holder := some (0, 0), count := count })] })] }

theorem atScratch_plain (need : Need) (h : need = .read ∨ need = .write) (k : Nat) (hk : k = 0 ∨ k = 8) :
    Plain (atScratch 1 0xFFFFFFFF800008 0) need 8 (windowBase + k) (sramBase + k) := by
  rcases h with rfl | rfl <;> rcases hk with rfl | rfl <;>
    first
    | exact ⟨by decide, by decide, ⟨⟨sramBase + 0, 0, true, true, false⟩, ok_of (by decide +kernel), rfl, rfl⟩, by decide +kernel, by decide +kernel,
        .inr (.inr (by decide +kernel))⟩
    | exact ⟨by decide, by decide, ⟨⟨sramBase + 8, 0, true, true, false⟩, ok_of (by decide +kernel), rfl, rfl⟩, by decide +kernel, by decide +kernel,
        .inr (.inr (by decide +kernel))⟩

theorem test_meets_PushAndPopMoveTheStack :
    let s := atScratch 1 0xFFFFFFFF800008 0
    Settled s ∧ Fresh s ∧ s.fseat.red = none ∧ Memory.wf s = true ∧ s.active = [0] ∧ (s.fbank 0).hsp.toNat % 8 = 0 ∧
    ownSram s.fseat s.focus.core sramBase = true ∧ ownSram user 0 sramBase = false ∧
    Plain s .write 8 windowBase sramBase ∧ Plain s .read 8 (windowBase + 8) (sramBase + 8) ∧
    BitVec.ofInt 64 (((s.fbank 0).hsp.toNat : Int) - 8 * 1) = BitVec.ofNat 64 windowBase ∧ ((atScratch 1 0xFFFFFFFF800001 0).fbank 0).hsp.toNat % 8 = 1 ∧
    ((atScratch 1 0xFFFFFFFF800000 0).fbank 0).hsp.toNat - 8 < windowBase ∧ 2 ^ 56 ≤ ((atScratch 1 0x100000000000000 0).fbank 0).hsp.toNat := by
  exact ⟨rfl, rfl, rfl, by decide +kernel, by decide +kernel, by decide +kernel, by decide +kernel, by decide +kernel, atScratch_plain .write (by simp) 0 (by simp), atScratch_plain .read (by simp) 8 (by simp),
    by decide +kernel, by decide +kernel, by decide +kernel, by decide +kernel⟩

theorem test_meets_ScalarAccessesTrapInCheckOrder :
    let va (r : Word) : Nat := r.toNat
    Settled atCap ∧ Fresh atCap ∧ 2 ^ 56 ≤ va 0x100000000000000 ∧ va (capVa + 1) % 2 ≠ 0 ∧ isOk (translate atCap atCap.fctx .read capVa.toNat) ⟨0x10000000000, 0, false, true, false⟩ = true ∧
    (match translate (lone user Bank.empty) (lone user Bank.empty).fctx .read 0 with | .bad o k => (o, k) | _ => (0, 0)) = (3, 0x10) ∧
    regionOf sramBase = .sram ∧ ((atScratch 0 0 0).sram 0 0).mode = 0 ∧ claimOf (lone sup { Bank.empty with panes := [(0, { Pane.empty with st := .openClean })] }) 0 =
      some (.claim 0 0 0) := by
  exact ⟨rfl, rfl, by decide, by decide, by decide +kernel, by decide +kernel, by decide +kernel, by decide +kernel, by decide +kernel⟩

theorem test_meets_FifoAccessesPopAndPush :
    let s := atScratch 2 0 8
    Settled s ∧ Fresh s ∧ s.poisonAt (sramPa 0 0) = false ∧ { s with poison := [(sramPa 0 0 / 64, true)] }.poisonAt (sramPa 0 0) = true ∧ s.fseat.red = none ∧ s.active = [0] ∧ windowBase < 2 ^ 56 ∧ windowBase % 8 = 0 ∧ regionOf sramBase = .sram ∧ (s.sram 0 0).busy = false ∧
    (s.sram 0 0).mode = 2 ∧ 8 ≤ (s.sram 0 0).count ∧ ((atScratch 2 0 7).sram 0 0).count < 8 ∧ 262144 < ((atScratch 2 0 262137).sram 0 0).count + 8 ∧
    isOk (translate s s.fctx .read windowBase) ⟨sramBase, 0, true, true, false⟩ = true ∧ isOk (translate s s.fctx .write windowBase) ⟨sramBase, 0, true, true, false⟩ = true := by
  exact ⟨rfl, rfl, by decide +kernel, by decide +kernel, rfl, by decide +kernel, by decide, by decide, by decide +kernel, by decide +kernel, by decide +kernel,
    by decide +kernel, by decide +kernel, by decide +kernel, by decide +kernel, by decide +kernel⟩

theorem test_meets_AddressRegistersAndSmine :
    let s := lone user (bankWith [(2, 4)] [(1, 0x4000000000000000), (2, 0xC000000000000000)])
    Settled s ∧ (5#5).toNat ≤ 5 ∧ (1 : BitVec 5) ≠ 0 ∧ (4#3).toNat ≤ 4 ∧ (12#4).toNat ≤ 12 ∧ [1#3].Nodup ∧ s.active = [0] ∧
    ((s.fbank 0).ra 1).toNat / 2 ^ 61 < 6 ∧ 6 ≤ ((s.fbank 0).ra 2).toNat / 2 ^ 61 := by
  exact ⟨rfl, by decide, by decide, by decide, by decide, by decide, by decide +kernel, by decide +kernel, by decide +kernel⟩

/-! ## Lane instructions, rows and vector memory -/

/-- Panes 0-5 open and clean, m1 all ones; s1 and a1 name plain memory. -/
def lanes : State :=
  lone sup { bankWith [(1, 4)] [(1, capVa)] with
    m := [(1, BitVec.allOnes 4096)], panes := (List.range 6).map (fun n => (n, { Pane.empty with st := .openClean, after := .openClean })) }

def usable (p : Pane) (w : Bool) : Bool :=
  !p.park && (p.st == .openClean || p.st == .openDirty || (p.st == .writing && !w)) && (!w || p.pins == 0)

/-- What `LanesReady` asks of an instruction in the state `lanes`, as a check. -/
def laneCheck (i : Instr) : Bool :=
  match vinfo i with
  | none => false
  | some v =>
    (v.check lanes.fseat (rmField i) lanes.fpart.rmNow 0 0 (vstcBad i)).isNone &&
      (usesIn lanes (v.l lanes.fseat) lanes.fpart.xidx (lanes.evlOf (v.l lanes.fseat)) v.reads v.writes).all
        (fun u => usable ((lanes.fbank u.1).pane u.2.1) u.2.2) &&
      (v.reads ++ v.writes).all (fun k => decide (((lanes.fbank 0).pane k).img = PaneImage.empty))

theorem lanes_active : lanes.active = [0] := by decide +kernel

theorem lanesReady_of {i : Instr} (h : laneCheck i = true) : ∃ v, vinfo i = some v ∧ LanesReady i lanes v := by
  unfold laneCheck at h
  cases hv : vinfo i with
  | none => simp [hv] at h
  | some v =>
    simp only [hv, Bool.and_eq_true, List.all_eq_true, decide_eq_true_eq] at h
    refine ⟨v, rfl, hv, by simpa using h.1.1, rfl, ?_, by decide +kernel, ?_, ?_, ⟨rfl, rfl⟩⟩
    · intro b hb
      rw [lanes_active] at hb
      obtain rfl : b = 0 := by simpa using hb
      decide
    · intro u hu
      have := h.1.2 u hu
      simp only [usable, Bool.and_eq_true, Bool.or_eq_true, Bool.not_eq_true', beq_iff_eq] at this
      exact ⟨this.1.1, by simpa [or_assoc] using this.1.2, fun hw => by simpa [hw] using this.2⟩
    · intro b hb k hk
      rw [lanes_active] at hb
      obtain rfl : b = 0 := by simpa using hb
      rw [h.2 k hk]
      exact ⟨rfl, fun g => rfl⟩

def i32 (wd wa wb : BitVec 4) : VOps := ⟨0, wd, wa, wb, 4, 0, false, 0, 0, false, 0⟩
def f32 (wd wa wb : BitVec 4) : VOps := ⟨0, wd, wa, wb, 12, 1, false, 0, 0, false, 0⟩
def mem32 (wi : BitVec 4) : MOps := ⟨0, 2, 1, 0, 4, 0, false, wi⟩

theorem test_meets_LaneIntegerResults : isIN (i32 2 0 1).t = true ∧ (∃ v, vinfo (.vadd (i32 2 0 1)) = some v ∧ LanesReady (.vadd (i32 2 0 1)) lanes v) ∧
    ∃ v, vinfo (.vabs (i32 2 0 0)) = some v ∧ LanesReady (.vabs (i32 2 0 0)) lanes v :=
  ⟨by decide, lanesReady_of (by decide +kernel), lanesReady_of (by decide +kernel)⟩

theorem test_meets_LaneFloatResults : (floatOf (f32 2 0 1).t).isSome = true ∧
    (∃ v, vinfo (.vfma (f32 2 0 1)) = some v ∧ LanesReady (.vfma (f32 2 0 1)) lanes v) ∧
    ∃ v, vinfo (.vexp2 (f32 2 0 0)) = some v ∧ LanesReady (.vexp2 (f32 2 0 0)) lanes v :=
  ⟨by decide, lanesReady_of (by decide +kernel), lanesReady_of (by decide +kernel)⟩

theorem test_meets_ComparesAndMaskLogicWriteMasks :
    (∃ v, vinfo (.vcmpLt (i32 2 0 1)) = some v ∧ LanesReady (.vcmpLt (i32 2 0 1)) lanes v) ∧
    ∃ v, vinfo (.mand (i32 2 1 1)) = some v ∧ LanesReady (.mand (i32 2 1 1)) lanes v :=
  ⟨lanesReady_of (by decide +kernel), lanesReady_of (by decide +kernel)⟩

theorem test_meets_MovesCopyEncodings :
    (∃ v, vinfo (.vsel (f32 2 0 1)) = some v ∧ LanesReady (.vsel (f32 2 0 1)) lanes v) ∧ lanes.fpart.depth = 0 ∧
    (∃ v, vinfo (.vcompress (f32 2 0 0)) = some v ∧ LanesReady (.vcompress (f32 2 0 0)) lanes v) ∧
    (∃ v, vinfo (.vslideUp { i32 2 0 0 with s := 1, sv := 2 }) = some v ∧ LanesReady (.vslideUp { i32 2 0 0 with s := 1, sv := 2 }) lanes v) ∧
    ∃ v, vinfo (.vidx ⟨0, 2, 0, 1, 4, 0⟩) = some v ∧ LanesReady (.vidx ⟨0, 2, 0, 1, 4, 0⟩) lanes v :=
  ⟨lanesReady_of (by decide +kernel), rfl, lanesReady_of (by decide +kernel), lanesReady_of (by decide +kernel), lanesReady_of (by decide +kernel)⟩

theorem test_meets_ConversionsAndDotsPerElement :
    (∃ v, vinfo (.vcvt { f32 2 0 0 with s := 4 }) = some v ∧ LanesReady (.vcvt { f32 2 0 0 with s := 4 }) lanes v) ∧
    (∃ v, vinfo (.vdot { i32 4 0 1 with s := 0 }) = some v ∧ LanesReady (.vdot { i32 4 0 1 with s := 0 }) lanes v) ∧
    ∃ v, vinfo (.vqenc { f32 4 0 0 with t := 7, s := 11, m := 0 }) = some v ∧ LanesReady (.vqenc { f32 4 0 0 with t := 7, s := 11, m := 0 }) lanes v :=
  ⟨lanesReady_of (by decide +kernel), lanesReady_of (by decide +kernel), lanesReady_of (by decide +kernel)⟩

theorem test_meets_ReductionsCombineTheProcessedElements :
    (∃ v, vinfo (.vredSum { i32 0 1 0 with s := 5 }) = some v ∧ LanesReady (.vredSum { i32 0 1 0 with s := 5 }) lanes v) ∧
    (∃ v, vinfo (.mfirst { i32 0 1 0 with s := 5 }) = some v ∧ LanesReady (.mfirst { i32 0 1 0 with s := 5 }) lanes v) ∧
    (∃ v, vinfo (.vscan (f32 2 0 0)) = some v ∧ LanesReady (.vscan (f32 2 0 0)) lanes v) ∧ lanes.fpart.xidx < lanes.evlOf 1024 :=
  ⟨lanesReady_of (by decide +kernel), lanesReady_of (by decide +kernel), lanesReady_of (by decide +kernel), by decide +kernel⟩

theorem test_meets_RshufMovesWordsBetweenBanks : Settled lanes ∧ (2#4).toNat ≠ (1#3).toNat ∧ ((lanes.fbank 0).pane 2).Usable true ∧ ((lanes.fbank 0).pane 1).Usable false ∧
    CleanPanes lanes [2, 1] := by
  refine ⟨rfl, by decide, by unfold Pane.Usable; decide +kernel, by unfold Pane.Usable; decide +kernel, fun b hb k hk => ?_⟩
  rw [lanes_active] at hb
  obtain rfl : b = 0 := by simpa using hb
  have : ((lanes.fbank 0).pane k).img = PaneImage.empty := by
    have h : ∀ k ∈ [2, 1], ((lanes.fbank 0).pane k).img = PaneImage.empty := by decide +kernel
    exact h k hk
  rw [this]
  exact ⟨rfl, fun g => rfl⟩

theorem test_meets_RowCommandsOpenPanes :
    let s := lone sup (bankWith [] [(1, rowVa)])
    Settled s ∧ Fresh s ∧ Memory.wf s = true ∧ (11#4).toNat < 12 ∧ (7#4).toNat < 8 ∧ (∀ b ∈ s.active, ((s.fbank b).pane 0).st = .closed ∧ ((s.fbank b).pane 0).park = false) ∧
    (∀ b ∈ s.active, ((s.fbank b).ra 1).toNat / 2 ^ 61 < 6 ∧ ((s.fbank b).slot 0 7).owner = .free) ∧ (s.core s.focus.core).ecc = [] ∧ RowSpot s .read 0 0 rowVa.toNat ⟨0, 0, false, true, false⟩ := by
  exact ⟨rfl, rfl, by decide, by decide, by decide, by decide +kernel, by decide +kernel, rfl, by decide, ok_of (by decide +kernel), by decide +kernel⟩

theorem test_meets_RowCommandsWriteRows :
    let img : PaneImage := { PaneImage.empty with bnd := true, wperm := true }
    let s := lone sup { bankWith [(2, rowVa)] [(1, rowVa)] with panes := [(0, { Pane.empty with st := .openDirty, img := img })] }
    Settled s ∧ Fresh s ∧ Memory.wf s = true ∧ s.fseat.red = none ∧ HoldsImage (s.fbank 0) 0 ∧ ((s.fbank 0).pane 0).img.bnd = true ∧ regionOf ((s.fbank 0).pane 0).img.pa = .dram ∧
    dramBank ((s.fbank 0).pane 0).img.pa = 0 ∧ RowSpot (lone sup (bankWith [] [(1, rowVa)])) .write 0 0 rowVa.toNat ⟨0, 0, false, true, false⟩ := by
  refine ⟨rfl, rfl, by decide, rfl, by unfold HoldsImage; decide +kernel, by decide +kernel, by decide +kernel, by decide +kernel, by decide, ok_of (by decide +kernel),
    by decide +kernel⟩

theorem test_meets_RowCommandsCloseRefreshShutAndReport : Settled lanes ∧ Fresh lanes ∧ ((lanes.fbank 0).pane 5).st = .openClean ∧ ((lanes.fbank 0).pane 5).pins = 0 ∧
    ((lanes.fbank 0).pane 11).st = .closed ∧ ((lanes.fbank 0).slot 5 4).owner = .free ∧
    ((lone user { Bank.empty with panes := [(3, { Pane.empty with park := true })] }).fbank 0).pane 3 = { Pane.empty with park := true } := by
  exact ⟨rfl, rfl, by decide +kernel, by decide +kernel, by decide +kernel, by decide +kernel, by decide +kernel⟩

theorem test_meets_RowCommandsCheckAddressesThenPanes : Settled lanes ∧ Fresh lanes ∧ ((lanes.fbank 0).slot 0 4).owner = .free ∧
    (let s := lone (seatOf { Part.empty with active := 3, begun := 1 }) Bank.empty
     s.fpart.begun.getLsbD 1 = false ∧ s.fpart.begun.getLsbD 0 = true ∧ ((s.fbank 1).pane 0).st = .closed) ∧ lanes.active = [0] ∧ ((lanes.fbank 0).pane 5).st ∈ [PaneState.openClean, .openDirty, .writing] ∧
    ((lanes.fbank 0).pane 6).st ∈ [PaneState.closed, .closing] ∧ ((lanes.fbank 0).pane 5).img.bnd = false ∧
    (∀ b ∈ lanes.active, ((lanes.fbank b).pane 0).park = false) ∧ 6 ≤ (0xC000000000000000 : Word).toNat / 2 ^ 61 ∧
    isOk (translate atCap atCap.fctx .read capVa.toNat) ⟨0x10000000000, 0, false, true, false⟩ = true ∧ regionOf 0x10000000000 = .cap := by
  exact ⟨rfl, rfl, by decide +kernel, by decide +kernel, lanes_active, by decide +kernel, by decide +kernel, by decide +kernel, by decide +kernel, by decide,
    by decide +kernel, by decide +kernel⟩

theorem lanes_plain (need : Need) (h : need = .read ∨ need = .write) (k : Nat) (hk : k ∈ [0, 4, 8, 12]) :
    Plain lanes need 4 (capVa.toNat + k) (0x10000000000 + k) := by
  have hk' : k = 0 ∨ k = 4 ∨ k = 8 ∨ k = 12 := by simpa using hk
  rcases h with rfl | rfl <;> rcases hk' with rfl | rfl | rfl | rfl <;>
    refine ⟨by decide, by decide, ⟨⟨0x10000000000 + _, 0, false, true, false⟩, ok_of (by decide +kernel), rfl, rfl⟩, by decide +kernel, by decide +kernel, .inr (.inl (by decide +kernel))⟩

theorem lanes_firm (pas : List Nat) (k : Nat) (hk : k ∈ [0, 4, 8, 12]) : Firm lanes pas .write 4 (capVa.toNat + k) (0x10000000000 + k) := by
  intro t h
  have ht : t = { lanes with mem := t.mem, poison := t.poison, quads := t.quads, linked := t.linked, ahead := t.ahead } := by
    conv_lhs => rw [show t = { { t with mem := lanes.mem, poison := lanes.poison, quads := lanes.quads, linked := lanes.linked, ahead := lanes.ahead } with
      mem := t.mem, poison := t.poison, quads := t.quads, linked := t.linked, ahead := t.ahead } from rfl, h.rest]
  have hc : t.cores = lanes.cores := by rw [ht]
  have hf : t.fctx = lanes.fctx := by rw [ht]; rfl
  have hp : t.power = lanes.power := by rw [ht]
  have p := lanes_plain .write (by simp) k hk
  have hk' : k < 16 := by revert hk; simp; omega
  have hs : translate t t.fctx .write (capVa.toNat + k) = translate lanes lanes.fctx .write (capVa.toNat + k) := by
    have e : capVa.toNat = directBase + 0x10000000000 := by decide
    unfold Machine.translate
    rw [hf, e]
    have h1 : ¬ 2 ^ 56 ≤ directBase + 0x10000000000 + k := by unfold directBase; omega
    have h2 : ¬ windowBase ≤ directBase + 0x10000000000 + k := by unfold directBase windowBase; omega
    have h3 : directBase ≤ directBase + 0x10000000000 + k ∧ directBase + 0x10000000000 + k < directBase + 2 ^ 48 := by unfold directBase; omega
    simp only [if_neg h1, if_neg h2, if_pos h3]
  have hw : claimOf t (0x10000000000 + k) = claimOf lanes (0x10000000000 + k) := by
    unfold claimOf State.pane State.bank State.core
    rw [hc]
  refine ⟨p.canonical, p.aligned, ?_, ?_, ?_, .inr (.inl ?_)⟩
  · rw [hs]; exact p.spot
  · have := p.awake
    unfold asleep at *
    rwa [hp]
  · rw [hw]; exact p.free
  · have hk2 : k = 0 ∨ k = 4 ∨ k = 8 ∨ k = 12 := by simpa using hk
    rcases hk2 with rfl | rfl | rfl | rfl <;> decide +kernel

theorem test_meets_VectorLoadsReadMemory :
    (∃ v, vinfo (.vld (mem32 0)) = some v ∧ LanesReady (.vld (mem32 0)) lanes v) ∧ (∃ v, vinfo (.vldx (mem32 3)) = some v ∧ LanesReady (.vldx (mem32 3)) lanes v) ∧
    lanes.fseat.red = none ∧ lanes.run 1024 0 false = [0, 1, 2, 3] ∧ Plain lanes .read 4 (capVa.toNat + 12) (0x10000000000 + 12) ∧ lanes.poisoned 0x10000000000 4 = false :=
  ⟨lanesReady_of (by decide +kernel), lanesReady_of (by decide +kernel), rfl, by decide +kernel, lanes_plain .read (by simp) 12 (by simp), by decide +kernel⟩

theorem test_meets_VectorStoresWriteMemory :
    (∃ v, vinfo (.vst (mem32 0)) = some v ∧ LanesReady (.vst (mem32 0)) lanes v) ∧ (∃ v, vinfo (.vstb (mem32 0)) = some v ∧ LanesReady (.vstb (mem32 0)) lanes v) ∧
    Memory.wf lanes = true ∧ lanes.poison = [] ∧ lanes.run 1024 0 false = [0, 1, 2, 3] ∧ Firm lanes ((lanes.run 1024 0 false).map (fun e => 0x10000000000 + 4 * e)) .write 4 (capVa.toNat + 12) (0x10000000000 + 12) :=
  ⟨lanesReady_of (by decide +kernel), lanesReady_of (by decide +kernel), by decide, rfl, by decide +kernel, lanes_firm _ 12 (by simp)⟩

theorem test_meets_ConditionalStoresTestTheirLinks :
    (∃ v, vinfo (.vstc { mem32 3 with s := 2 }) = some v ∧ LanesReady (.vstc { mem32 3 with s := 2 }) lanes v) ∧
    lanes.fseat.red = none ∧ Memory.wf lanes = true ∧ lanes.poison = [] ∧ (lanes.linked.map (fun l => (l.core, l.bank, l.j))).Nodup ∧
    Firm lanes ((lanes.run 1024 0 false).map (fun _ => 0x10000000000)) .write 4 (capVa.toNat + 0) (0x10000000000 + 0) :=
  ⟨lanesReady_of (by decide +kernel), rfl, by decide, rfl, by decide, lanes_firm _ 0 (by simp)⟩

/-! ## Operations, synchronisation and the steps of parts -/

/-- A machine with one operation in entry 5 of sill 0's table. -/
def withOp (s : State) (o : ChildOp) : State := { s with ops := [(5, o)] }

/-- A live operation of the seat of bank 0 of core 0. -/
def liveOp (st : OpState) (kind : OpKind) : ChildOp := { ChildOp.empty with live := true, st := st, kind := kind, sup := true }

theorem goesOn (s : State) (h : s.launches = []) : LaunchesGoOn s := by
  intro l hl
  simp [h] at hl

theorem canIssue : CanIssue (lone user Bank.empty) ⟨0, 1, 0, 1, 2, false, 0, false, 0⟩ [0] [0] [0, 1] := by
  refine ⟨rfl, rfl, by decide, by decide, fun _ b hb => ?_, by decide, fun b hb a ha => ?_, by decide +kernel⟩
  · obtain rfl : b = 0 := by simpa using hb
    decide +kernel
  · obtain rfl : b = 0 := by simpa using hb
    revert a
    decide +kernel

theorem test_meets_EngineInstructionsCreateOperations : (lone user Bank.empty).active = [0] ∧ (lone user Bank.empty).seqBank = 0 ∧
    CanIssue (lone user Bank.empty) ⟨0, 1, 0, 1, 2, false, 0, false, 0⟩ [0] [0] [0, 1] ∧ (4 : Nat) ≤ 4 ∧ (28#5).toNat ≤ 28 ∧ (30#5).toNat ≤ 30 :=
  ⟨by decide +kernel, by decide +kernel, canIssue, by decide, by decide, by decide⟩

/-- A seat with one engine row and a shape; the panes of mmma's groups open. -/
def matrixPart (rows : List Nat) : State :=
  lone { user with rows := rows, shape := 0x9901 } { Bank.empty with panes := (List.range 8).map (fun n => (n, { Pane.empty with st := .openClean })) }

theorem test_meets_MatrixInstructionsGrantShapeAndIssue :
    let s := lone (splitSeat []) (bankWith [(1, 0x9904)] [])
    Settled (matrixPart [7]) ∧ s.fpart.depth ≠ 0 ∧ (matrixPart []).fpart.depth = 0 ∧ (matrixPart []).fseat.rows = [] ∧ (matrixPart [7]).fseat.rows ≠ [] ∧
    (matrixPart [7]).matrixOps = [] ∧ (6 ≤ (0x9904 : Word).toNat / 256 % 16 ∧ (0x9904 : Word).toNat / 256 % 16 ≤ 11) ∧
    (withOp (matrixPart [7]) (liveOp .pending (.mmma 3 0 1 1 1 0x9901))).matrixOps = [5] ∧
    CanIssue (matrixPart [7]) ⟨0, 1, 0, 0, 0, false, 0, false, 128⟩ [0] [0] [] ∧
    (∀ b ∈ (matrixPart [7]).fseat.banks, b ∈ (matrixPart [7]).active ∧ ((matrixPart [7]).fbank b).pane 1 = { Pane.empty with st := .openClean }) ∧
    32 ≤ 1 * 1 * 2 ^ (matrixPart [7]).fseat.lcap := by
  refine ⟨rfl, by decide +kernel, by decide +kernel, rfl, by decide, by decide +kernel, by decide, by decide +kernel, ?_, by decide +kernel, by decide⟩
  refine ⟨rfl, rfl, by decide, by decide, fun _ b hb => ?_, by decide, fun b hb a ha => ?_, by decide +kernel⟩
  · obtain rfl : b = 0 := by simpa using hb
    decide +kernel
  · simp at ha

/-- A part whose k2 holds the handle of the operation. -/
def holding (st : OpState) : State :=
  withOp (lone user { Bank.empty with k := [(2, some (handleOf 5 0))] }) { liveOp st (.cpy 0 0 64 0) with holders := 1 }

theorem test_meets_TokenInstructionsReadAndReleaseOperations :
    Settled (holding .running) ∧ (holding .running).fseat.red = none ∧ Tokens (holding .running) 2 (fun _ => handleOf 5 0) ∧ (holding .running).active = [0] ∧
    ((holding .done).op (entryOf (handleOf 5 0))).st = .done ∧ ((holding .faulted).op 5).st = .faulted ∧ (holding .running).dependents (handleOf 5 0) = [] ∧
    ((holding .running).op 5).kind.cls ≠ .ts ∧ (holding .running).tokenLive 0 3 = false ∧ (4#5).toNat ≤ 4 ∧
    (withOp (lone user (bankWith [(1, (handleOf 5 0).setWidth 64)] [])) { liveOp .running (.cpy 0 0 64 0) with detached := true }).liveHandle (handleOf 5 0) = true := by
  refine ⟨rfl, rfl, fun b hb => ?_, by decide +kernel, by decide +kernel, by decide +kernel, by decide +kernel, by decide, by decide +kernel, by decide, by decide +kernel⟩
  obtain rfl : b = 0 := by revert b; decide +kernel
  decide +kernel

/-- A launch whose barrier 3 has two participants, one task running in the seat of `lone`. -/
def aTask (st : TaskState) : Task :=
  { record := ⟨2, rowVa, 0, 1, 0, 1, 0, 0, 0, 0, List.replicate 8 0, [], []⟩, st := st, cause := 0, dep := 0, age := 0, prio := 1, pa := 0, core := 0, ctx := []
    area := none, isExported := false, op := none, keys := 0, runs := 0, replicas := [0], left := [] }
def aLaunch (tasks : Table (Option Task)) (save : Word) (paused : Bool) : Launch :=
  { sill := 0, ptbr := 0, sup := true, event := 0, frec := 0, fcap := 0, fcountVa := 0, fcount := 0, hbase := 0x1000, save := save, loops := 0, bars := [(3, 2)]
    arrived := [], phases := [(3, 1)], tasks := tasks, nextTask := 2, paused := paused, cancelled := false, op := none }
def launched (u : Seat) (tasks : Table (Option Task)) : State := { lone u (bankWith [(1, 1)] []) with launches := [(0, some (aLaunch tasks 0 false))] }

theorem test_meets_SynchronisationInstructionsWaitOrPass :
    let s := launched { user with bars := [(2, some 0)] } [(0, some (aTask .running)), (1, some (aTask .waiting))]
    Settled s ∧ s.fseat.red = none ∧ (lone (splitSeat []) Bank.empty).fpart.depth ≠ 0 ∧ s.fpart.depth = 0 ∧ (s.launch? 0).map (fun l => look 0 l.bars 3) = some 2 ∧
    (s.launch? 0).map (fun l => look 0 l.bars 0) = some 0 ∧ look none s.fseat.bars 2 = some 0 ∧ look none s.fseat.bars 3 = none ∧
    (0 : Nat) < ((s.fbank 0).rs 1).toNat ∧ (s.part s.focus).got = [] ∧ Plain atCap .read 8 capVa.toNat 0x10000000000 ∧ ((s.fbank 0).rs 2).toNat < 2 ∧
    (s.seat? 0 0).isSome = true ∧ (s.task? 0 1).map (fun x => x.st.terminal) = some false ∧ s.yieldsTo 0 0 = none ∧
    s.matrixOrphans 0 0 = [] := by
  exact ⟨rfl, rfl, by decide +kernel, by decide +kernel, by decide +kernel, by decide +kernel, by decide +kernel, by decide +kernel, by decide +kernel, rfl,
    atCap_plain .read 8 (by simp) (by simp), by decide +kernel, by decide +kernel, by decide +kernel, by decide +kernel, by decide +kernel⟩

/-- Pane 3 of bank 0, and a bank that owes 8 steps of sg 3. -/
def withPane (p : Pane) (debt : Nat) : State := lone user { Bank.empty with panes := [(3, p)], debt := [(3, debt)] }

theorem test_meets_PaneAndRefreshEventsChangeTheirBank :
    let s := withPane Pane.empty 8
    (withPane { Pane.empty with st := .opening } 0).pane 0 0 3 = { Pane.empty with st := .opening } ∧ ((withPane { Pane.empty with park := true, busy := true } 0).pane 0 0 3).busy = true ∧
    (s.seatOfBank 0 0).isSome = true ∧ (s.seatOfBank 0 1) = none ∧ 8 ≤ (s.bank 0 0).debtOf 3 ∧ s.agentOfBank 0 0 = some ⟨0, 0, 0⟩ ∧ s.focus = ⟨0, 0, 0⟩ ∧ HasHandler s ∧
    (s.part s.focus).convoy = none ∧ s.fseat.handler = none ∧ s.fseat.phase = .issuing ∧ s.fseat.status.hold = false ∧ s.owes 0 = true ∧ (s.part s.focus).begun = 0 ∧ (∀ m ∈ List.range 12, (s.pane 0 0 m).moving = false) ∧
    (∀ k ∈ s.active, ∀ m, m < 12 → 8 ≤ (s.fbank k).debtOf m → 0 < k ∨ (0 = k ∧ 3 ≤ m)) ∧
    (let w := lone { user with parts := [(0, some { Part.empty with pc := 2, active := 1, wait := some (.claim 0 0 3) })] } { Bank.empty with panes := [(3, { Pane.empty with st := .openDirty })] }
     ((0, 0, 3), Waiter.part ⟨0, 0, 0⟩) ∈ (w.noteArrivals w).waits.arrivals ∧
     (let v := lone (seatOf { inConvoy [(2, .shut 3 6)] with wait := some (.pin 0 0 3) }) { Bank.empty with panes := [(3, { Pane.empty with st := .openDirty })] }
      v.agentOfBank 0 0 = some ⟨0, 0, 0⟩ ∧ v.fpart.wait = some (.pin 0 0 3) ∧ (v.pane 0 0 3).pins = 0) ∧ (w.pane 0 0 3).st ∈ [PaneState.openClean, .openDirty] ∧ (w.pane 0 0 3).pins = 0) ∧
    (match walkFrom { State.reset with mem := [(0, 1), (1, 0x10), (0x1000, 1), (0x1001, 0x20), (0x2000, 1), (0x2001, 0x30), (0x3000, 0x37), (0x3002, 1)] } 0 4 0 0 with
     | .ok (e, big) => (e, big)
     | _ => (0, true)) = (0x10037, false) := by
  exact ⟨by decide +kernel, by decide +kernel, by decide +kernel, by decide +kernel, by decide +kernel, by decide +kernel, rfl, ⟨by decide, .inr (by decide)⟩, rfl, rfl, rfl, rfl,
    by decide +kernel, rfl, by decide +kernel, by decide +kernel, by decide +kernel, by decide +kernel⟩

/-- A part that waits, the instruction that waits first in its convoy. -/
def waiting (w : Wait) (i : Instr) : State :=
  lone (seatOf { inConvoy [(2, i)] with wait := some w }) Bank.empty

theorem test_meets_WaitsEndWhenTheirConditionHolds :
    (waiting .fence (.fence 0)).agentOfBank 0 0 = some ⟨0, 0, 0⟩ ∧ (waiting .fence (.fence 0)).agentOfBank 0 1 = none ∧
    ((waiting (.op 5) (.kwait 1 0 0)).part ⟨0, 0, 0⟩).wait = some (.op 5) ∧ ((waiting (.op 5) (.kwait 1 0 0)).op 5).live = false ∧
    (waiting (.mx 5) .mdetach).matrixOps = [] ∧ ((lone user Bank.empty).part ⟨0, 0, 0⟩).wait = none ∧
    ((waiting (.iwait 0) (.iwait 0 1)).part ⟨0, 0, 0⟩).wait = some (.iwait 0) := by
  exact ⟨by decide +kernel, by decide +kernel, by decide +kernel, by decide +kernel, by decide +kernel, by decide +kernel, by decide +kernel⟩

/-! ## Engines and the scheduler -/

theorem serving (s : State) (h : s.launches = []) (st : (s.op 5).st = .running) (sel : s.selected 5 = true) (red : (s.seatAt (s.op 5).core (s.op 5).base).red = none)
    (rows : (s.op 5).rows = []) (going : ∀ p ∈ s.ops, p.2.live = true → p.2.st = .running → s.resting p.2 = false) (blk : ∀ b, (s.op 5).blk = some b → b.flag = 0) (wf : Memory.wf s = true) : Serving s 5 :=
  ⟨st, sel, red, rows, going, blk, goesOn s h, wf⟩

/-- Where an engine's access leads. -/
def engSpotAt (s : State) (need : Need) (va : Nat) : Option Nat :=
  match engSpot s (s.op 5) need va with | .ok p => if p.peer = 0 then some p.pa else none | _ => none

/-- A copy of 64 bytes within the capacity tier, at LVL 1. -/
def copying (st : OpState) : State := withOp (lone sup Bank.empty) (liveOp st (.cpy (capVa + 64) capVa 64 0))

/-- A collective of one member, this bank, in plain memory. -/
def groupOfOne : ParamBlock := ⟨1, 4, capVa + 64, 0, [capVa, 0], 0, 0, 0, 0, 0⟩
def gathered : State := withOp (lone sup Bank.empty) { liveOp .running (.coll capVa 0 0 4) with blk := some groupOfOne }

theorem test_meets_EnginesPerformTheirGranules :
    Serving (copying .running) 5 ∧ (copying .pending).startable ((copying .pending).op 5) = true ∧ (copying .pending).selected 5 = true ∧ LaunchesGoOn (copying .pending) ∧
    ((copying .running).op 5).outst = 0 ∧ ((copying .running).op 5).kept = [] ∧ ((copying .running).op 5).sent < 64 ∧
    localMembers gathered (gathered.op 5) groupOfOne = some [(0, 5)] ∧ remoteRanks gathered groupOfOne = [] ∧ groupOfOne.members.length = 1 ∧
    (∀ k ∈ List.range 64, engSpotAt (copying .running) .read (capVa.toNat + k) = some (0x10000000000 + k) ∧
      engSpotAt (copying .running) .write (capVa.toNat + 64 + k) = some (0x10000000040 + k)) ∧
    (copying .running).poisonAt 0x10000000000 = false ∧
    { copying .running with ns := 256000 }.ns ≥ ((copying .running).op 5).aged + 256000 * (((copying .running).op 5).boost + 1) ∧
    Serving (withOp (lone sup Bank.empty) { liveOp .running (.red capVa 0 4) with blk := some ⟨1, 1, capVa, 0, [capVa], 0, 0, 0, 0, 0⟩ }) 5 := by
  refine ⟨serving _ rfl (by decide +kernel) (by decide +kernel) (by decide +kernel) (by decide +kernel) (by decide +kernel) (by decide +kernel) (by decide +kernel), by decide +kernel, by decide +kernel,
    goesOn _ rfl, by decide +kernel, by decide +kernel, by decide +kernel, by decide +kernel, by decide +kernel, rfl, by decide +kernel, by decide +kernel, by decide +kernel,
    ?_⟩
  exact serving _ rfl (by decide +kernel) (by decide +kernel) (by decide +kernel) (by decide +kernel) (by decide +kernel) (fun b hb => by
    have : (some ⟨1, 1, capVa, 0, [capVa], 0, 0, 0, 0, 0⟩ : Option ParamBlock) = some b := hb
    obtain rfl := Option.some.inj this
    rfl) (by decide +kernel)

/-! ## Launches, votes, links and the fleet -/

/-- A PENDING TS operation at LVL 1, over a header of one task whose record is all zero. -/
def headed (k : OpKind) : State := { withOp (lone sup Bank.empty) (liveOp .pending k) with mem := [(0x10000000000, 1), (0x10000000002, 1)] }

/-- What the scheduler reads of `n` bytes at the header. -/
def readAt (s : State) (n : Nat) : List Byte := match schedRead s (opCtx s (s.op 5)) (piecesOf capVa.toNat n) with | .ok b => b | _ => []

/-- The capacity-tier address a scheduler's access leads to. -/
def schedSpot (s : State) (va : Nat) : Option Nat := match translate s (opCtx s (s.op 5)) .write va with | .ok p => if p.peer = 0 then some p.pa else none | _ => none

/-- A launch with one task, anchored to bank 0 of core 0, which holds no seat. -/
def offered (st : TaskState) : State := { launched user [(0, some (aTask st))] with cores := [] }

theorem test_meets_SchedulerStartsLaunchesTasksAndSeats :
    LaunchesGoOn (headed (.launch capVa)) ∧ (headed (.launch capVa)).tsWaits ((headed (.launch capVa)).op 5) = false ∧
    (let bs := readAt (headed (.launch capVa)) 384
     bs.length = 384 ∧ fieldOf bs 0 2 = 1 ∧ fieldOf bs 2 2 = 1 ∧ recordOk (bs.drop 128) = true ∧ (recordOf (bs.drop 128)).npred = 0 ∧ (recordOf (bs.drop 128)).succ = []) ∧
    fieldOf (readAt (headed (.launch capVa)) 128) 2 2 = 1 ∧ schedSpot (headed (.launch capVa)) (capVa.toNat + 28) = some 0x1000000001C ∧
    (headed (.launch capVa)).launch? 0 = none ∧ capVa.toNat % 64 = 0 ∧ (capVa + 1).toNat % 64 ≠ 0 ∧
    recordOk (readAt (headed (.tspawn (capVa + 64))) 256) = true ∧ (headed (.tspawn (capVa + 64))).tsWaits ((headed (.tspawn (capVa + 64))).op 5) = false ∧
    (offered .waiting).task? 0 0 = some (aTask .waiting) ∧ (offered .waiting).power.phase = 0 ∧
    (match translate (offered .waiting) ⟨0, false, false, 0, 0, []⟩ .place rowVa.toNat with | .bad c _ => c | _ => 0) ≠ 0 ∧
    (let s := offered .ready
     offerOrder (s.entries 0) = [⟨0, 0, 1, 0⟩] ∧ (s.core 0).head = none ∧ s.takesSeats 0 = true ∧ s.task? 0 0 = some (aTask .ready) ∧
     s.seatOfBank 0 0 = none ∧ s.bankReserved 0 0 0 0 = false ∧ (aTask .ready).record.sram = 0 ∧ dramBank (aTask .ready).pa = 0) ∧
    (offered .waiting).entries 0 = [] ∧
    (let s := launched user [(0, some (aTask .ready))]
     offerOrder (s.entries 0) = [⟨0, 0, 1, 0⟩] ∧ s.dispatch 0 0 = none ∧ ((s.blockers 0 0 0 (aTask .ready)).map (·.length)) = some 1) ∧
    ((lone { user with phase := .forming } Bank.empty).seatOfBank 0 0).map (fun p => p.2.phase) = some .forming := by
  refine ⟨goesOn _ rfl, ?_⟩
  decide +kernel

/-- A seat that holds task 0 of launch 0, at LVL 0, in a state of one area of the pool. -/
def seated (u : Seat) (st : TaskState) (paused : Bool) : State :=
  { launched u [(0, some (aTask st))] with launches := [(0, some (aLaunch [(0, some (aTask st))] 0 paused))], lctl := { LaunchCtl.empty with ctxCount := 1 } }

theorem test_meets_PreemptionSavesTheSeat :
    (seated user .running false).agentOfBank 0 1 = none ∧ (seated { user with preempt := true } .running false).agentOfBank 0 0 = some ⟨0, 0, 0⟩ ∧
    (user.status.hold = false ∧ user.status.lvl = false ∧ user.phase = .issuing ∧ user.tvec ≠ 0 ∧ user.handler = none) ∧
    ((seated { user with preempt := true } .running false).part ⟨0, 0, 0⟩).convoy = none ∧
    (let s := seated { user with handler := some 1, status := { user.status with cls := 4, hold := true } } .running false
     s.seatOfBank 0 1 = none ∧ (s.seatOfBank 0 0).isSome = true) ∧
    (let s := seated { user with phase := .saving } .running false
     s.seatOfBank 0 0 = some (0, { user with phase := .saving }) ∧ s.draining 0 0 { user with phase := .saving } = false ∧ s.saveWait { user with phase := .saving } = none ∧ s.power.phase < 3 ∧ user.base = 0 ∧
     s.task? 0 0 = some (aTask .running) ∧ (aTask .running).area = none ∧ s.freeAreas.head? = some 0 ∧ Memory.wf s = true ∧ regionOf (s.areaPa 0) ≠ .sram ∧
     s.areaPa 0 % 32 = 0 ∧ ({ s with lctl := LaunchCtl.empty } : State).freeAreas = []) ∧
    (seated user .running false).task? 0 1 = none ∧ (seated user .waiting false).task? 0 0 = some (aTask .waiting) ∧
    (seated user .ready false).task? 0 0 = some (aTask .ready) := by decide +kernel

/-- A page table of three pointer levels and one leaf: VA 0 leads to DRAM address 0x10000. -/
def paged (s : State) : State := { s with mem := [(0, 1), (1, 0x10), (0x1000, 1), (0x1001, 0x20), (0x2000, 1), (0x2001, 0x30), (0x3000, 0x37), (0x3002, 1)] }

theorem test_meets_LaunchCommandsPauseResumeExportAndRetarget :
    (let s := seated user .running false
     s.lctl.cur = none ∧ s.launch? 1 = none ∧ s.launch? 0 = some (aLaunch [(0, some (aTask .running))] 0 false) ∧
     s.areasNeeded [(0, 0)] ≤ s.freeAreas.length ∧ (aTask .running).record.stage = 0 ∧ (∀ p ∈ s.lctl.areas, p.2 = none) ∧
     ({ s with lctl := LaunchCtl.empty } : State).freeAreas.length < s.areasNeeded [(0, 0)]) ∧
    LaunchesGoOn (lone user Bank.empty) ∧
    (let y : Task := { aTask .saved with isExported := true, record := { (aTask .saved).record with anchor := 0 } }
     let l := aLaunch [(0, some y)] 0 true
     let s : State := paged { seated user .running false with launches := [(0, some l)] }
     s.task? 0 0 = some y ∧ isOk (anchorSpot s 0 l 0) 0x10000 = true ∧ dramBank 0x10000 % 2 ^ y.record.sash = 0 ∧
     (match anchorSpot (seated user .running false) 0 l 0 with | .bad _ c => c | _ => 0) ≠ 0) ∧
    (let s : State := { seated user .running false with lctl := { LaunchCtl.empty with cur := some (1, 0, 0), evt := 0x10000000000 } }
     s.lctl.cur = some (1, 0, 0) ∧ s.waits.posted = [] ∧ heldAt s s.lctl.evt.toNat = none ∧ (s.ops.map (·.1)).Pairwise (· < ·) ∧ regionOf s.lctl.evt.toNat = .cap ∧ s.lctl.evt.toNat % 8 = 0 ∧ Memory.wf s = true) := by
  refine ⟨by decide +kernel, goesOn _ rfl, by decide +kernel, by decide +kernel⟩

/-- A replica that holds at a release with signature x, its snapshot of one part. -/
def replica (lead : Bool) (hold : Option Release) (snap : Option Snapshot) : Replica :=
  ⟨[], [], [], hold, false, false, lead, false, false, false, [], 0, snap⟩
def signed (x : BitVec 256) : Option Release := some ⟨1, x, 2⟩
def snapped : Snapshot := ⟨[(0, some { Part.empty with pc := 2, active := 1 })], Status.empty, 0, 0, 0, 0x1000, none, 1, 12, [], [], 0, 0, [], [], 0⟩
def replicaSeat (n : BitVec 2) (r : Replica) : Seat := { user with status := { Status.empty with red := true, rid := n }, red := some r }

/-- Task 0 with its replicas in cores 0, 4 and 8. -/
def voting (rs : List Replica) (runs : Nat) : State :=
  { launched user [(0, some { aTask .running with replicas := List.range rs.length, runs := runs })] with
    cores := rs.mapIdx (fun i r => (4 * i, { Core.empty with banks := [(0, Bank.empty)], seats := [(0, some (replicaSeat (BitVec.ofNat 2 i) r))] })) }

theorem test_meets_VotesCommitRollBackOrTrap :
    (let s := voting [replica true (signed 7) (some snapped), replica false (signed 7) (some snapped)] 0
     (s.task? 0 0).isSome = true ∧ s.voteHeld 0 0 = none ∧ s.voters 0 0 = [⟨0, 0, replicaSeat 0 (replica true (signed 7) (some snapped)), replica true (signed 7) (some snapped)⟩,
       ⟨4, 0, replicaSeat 1 (replica false (signed 7) (some snapped)), replica false (signed 7) (some snapped)⟩] ∧
     (match s.voters 0 0 with | [x, y] => agreeing x y && s.rowsFor x && s.rowsFor y && x.rid != y.rid && x.core / 4 != y.core / 4 && x.red.lead && !y.red.lead &&
       !x.red.behind && !y.red.behind && !x.red.rolling && !y.red.rolling | _ => false) = true) ∧
    ({ voting [replica true (signed 7) (some snapped), replica false (signed 7) (some snapped)] 0 with
       power := { Power.reset with phase := 6 } }).voteHeld 0 0 = some .power ∧
    (voting [replica true (signed 7) (some snapped), replica false (signed 8) (some snapped)] 1).voteHeld 0 0 = none ∧
    (match (voting [replica true (signed 7) (some snapped), replica false (signed 8) (some snapped)] 1).voters 0 0 with
     | [x, y] => !agreeing x y && x.seat.tvec != 0 && !x.seat.status.lvl && !x.seat.isCC
     | _ => false) = true ∧
    (match (voting [replica true (signed 7) (some snapped), replica false none (some snapped)] 0).voters 0 0 with
     | [x, y] => x.red.hold.isSome && y.red.hold.isNone && y.clocked
     | _ => false) = true ∧
    (match (voting [replica true (signed 7) none, replica false (signed 7) none, replica false (signed 8) none] 0).voters 0 0 with
     | [x, y, z] => agreeing x y && !agreeing x z && decide (x.rid < y.rid) && decide (y.rid < z.rid) && x.core != y.core && x.core != z.core && y.core != z.core
     | _ => false) = true ∧
    (let s := voting [replica true none (some snapped), replica false (signed 7) (some snapped), { replica false (signed 8) none with behind := true }] 0
     (s.voters 0 0).find? (fun v => v.red.rolling && v.still && s.rowsFor v) = none ∧ s.voteHeld 0 0 = none ∧
     ((s.voters 0 0).find? (fun v => v.red.behind && !v.red.rolling && v.still)).map (fun m => (m.core, m.seat.tvec == 0, m.seat.isCC)) = some (8, false, false) ∧
     ((s.voters 0 0).find? (fun v => !v.red.behind && !v.red.released && !v.red.rolling)).map (fun p => (p.core, p.red.snap)) = some (0, some snapped)) ∧
    (let held : Replica := { replica false none (some snapped) with rolling := true }
     let s := voting [replica true none (some snapped), replica false (signed 7) (some snapped), held] 0
     let u := voting [replica true none (some snapped), replica false (signed 7) (some snapped), { held with behind := true }] 0
     ((s.voters 0 0).find? (fun v => v.red.rolling && v.still && s.rowsFor v)).map (fun m => (m.core, m.red.behind, m.red.snap)) = some (8, false, some snapped) ∧
     ((u.voters 0 0).find? (fun v => v.red.rolling && v.still && u.rowsFor v)).map (fun m => (m.core, m.red.behind, m.red.snap)) = some (8, true, some snapped)) ∧
    snapped.tvec ≠ 0 ∧ snapped.status.lvl = false ∧ (snapped.parts.head?).isSome = true := by decide +kernel

/-- The migrator of sill 0 with its queue and its current entry; the entry at 0x3000 leads to the DRAM page 0x10000. -/
def migrating (queue : List MigReq) (cur : Option MigReq) : State :=
  { paged (lone user Bank.empty) with migs := [(0, { Migrator.empty with pol := 1, free := 0x20000, evt := 0x10000010000, queue := queue, cur := cur })] }
def demotion : MigReq := ⟨true, 0x3000, 0x10000000000, false⟩

theorem test_meets_SramModesAndMigrations :
    (let x := State.reset.sram 0 0
     x.mode = 0 ∧ x.busy = false ∧ (1#2) ≠ 3 ∧ (1#2) ≠ x.mode ∧ ((atScratch 2 0 0).sram 0 0).mode = 2) ∧
    ((migrating [demotion] none).mig 0).cur = none ∧ ((migrating [] none).mig 0).queue = [] ∧
    (let s := migrating [demotion] none
     let e : Word := BitVec.ofNat 64 (s.peek 0x3000 8)
     (s.mig 0).queue = [demotion] ∧ pteV e = true ∧ pteLeaf e = true ∧ ptePeer e = 0 ∧ pteMv e = false ∧ ptePpn e = 0x10000 ∧ regionOf 0x10000 = .dram ∧
     regionOf demotion.frame = .cap ∧ demotion.frame < 0x1FE00000000 ∧ 0x10000 / 2 ^ 24 % 16 = demotion.frame / 2 ^ 24 % 16 ∧ s.boundPage 0x10000 = false ∧
     s.boundPage demotion.frame = false ∧ migWait s 0 = none ∧ Memory.wf s = true) ∧
    (let s := { migrating [demotion] none with power := { Power.reset with phase := 6 } }
     migWait s 0 = some .power) ∧
    (let s := migrating [] (some demotion)
     (s.mig 0).cur = some demotion ∧ migWait s 0 = none ∧ s.waits.posted = [] ∧ heldAt s (s.mig 0).evt.toNat = none ∧ demotion.frame % 2 ^ 16 = 0 ∧ demotion.frame < 2 ^ 48 ∧ 0x10000000000 ≠ (0x3000 : Nat) ∧
     regionOf 0x10000010000 = .cap ∧ (s.mig 0).evt.toNat % 8 = 0 ∧ (s.mig 0).evt.toNat / 2 ^ 16 * 2 ^ 16 ≠ demotion.frame) ∧
    (let s : State := { migrating [] none with mem := [(0x20000, 2)] }
     (s.mig 0).pol.getLsbD 0 = true ∧ s.placeFree 0 1 = true ∧ s.waits.posted = [] ∧ heldAt s 0x20000 = none ∧ (s.mig 0).isIdle s.ns 0x10000 = true ∧
     ((s.mig 0).touch s.ns 0x10000).isHot s.ns 0x10000 = true ∧ (s.peek 0x20000 1).testBit 1 = true ∧ ((0x10000 / 2 ^ 28 * 12 + 0x10000 / 2 ^ 24 % 16) * 256 + 0x10000 / 2 ^ 16 % 256 : Nat) = 1 ∧
     (s.mig 0).queue.length < 64) := by decide +kernel

/-- Link 0 alone. -/
def linkOf (x : Link) : State := { lone user Bank.empty with links := [(0, x)] }
def upLink : Link := { Link.empty with en := true, st := .up, crd := 1 }
def packet (n : BitVec 16) : Packet := ⟨n, 2, 1, handleOf 5 0, 0, [], none⟩
def flit (kind nf : BitVec 4) (q ack : BitVec 16) (rq : Bool) : Flit := ⟨FlitFields.bits ⟨kind, nf, 0, 0, rq, q, ack, 1, 0, 0, 0⟩, 16, 0, 0⟩

theorem test_meets_LinksCarryReplayDegradeAndFail :
    LaunchesGoOn (linkOf upLink) ∧
    ((linkOf upLink).link 0).st = .up ∧ upLink.evt = 0 ∧ upLink.lqevt = 0 ∧ upLink.ann = none ∧ upLink.wreq = none ∧ upLink.buf = [] ∧ isLink 0 = true ∧ isLink 1000 = false ∧
    ((linkOf { upLink with buf := [packet 0, packet 1] }).link 0).buf[0]? = some (packet 0) ∧
    ((linkOf { upLink with ann := some (8, 0) }).link 0).ann = some (8, 0) ∧
    (let f := flit 1 1 0 0 false
     spoiled f.bytes = false ∧ noisyFlit f = false ∧ upLink.decodes f false = true ∧ (flitFields f.bytes).seq = upLink.exp ∧ (flitFields f.bytes).nf = 1) ∧
    spoiled ((flit 1 1 0 0 false).bytes ^^^ 1) = true ∧ noisyFlit { flit 1 1 0 0 false with noise := 4 } = true ∧
    ({ upLink with rxw := 8, rxb := 8, rxdead := 1 } : Link).decodes (flit 1 1 0 0 false) true = false ∧ spoiled (flit 0 1 0 0 false).bytes = true ∧
    ((0 : BitVec 16) - (packet 0).seq).toNat < 512 ∧ 512 ≤ ((0 : BitVec 16) - (packet 1).seq).toNat ∧ (flitFields (flit 0 0 0 0 true).bytes).rq = true ∧
    bestGroup 0 0 = some (16, 0) ∧ bestGroup 1 0 = some (8, 8) ∧ bestGroup 0xFFFF 0 = none ∧
    (flitFields (flit 3 0 0 0 false).bytes).wreqB.toNat % 16 = 0 ∧ ({ upLink with txdead := 0x20 } : Link).aim (some (8, 8)) = some (8, 8) ∧
    ({ upLink with park := 0xFC, dark := 0xFC, txdead := 4 } : Link).aim (some (8, 8)) = some (2, 0) ∧
    ({ upLink with park := 0xFC, dark := 0xFC, txdead := 9 } : Link).aim (some (8, 8)) = none ∧
    ({ upLink with dark := 0xFC, waking := 0xFC, txdead := 9 } : Link).aim none = some (16, 0) ∧
    (let s : State := { linkOf upLink with links := [(0, upLink), (1, { upLink with st := .failed })], peers := [(1, ⟨true, false, 0, 3⟩)] }
     (s.peer 1).list = [0, 1] ∧ (s.link 1).st = .failed ∧ (s.setLink 0 { upLink with st := .down }).lostPeers 0 = [1] ∧
     ((linkOf upLink).setLink 0 { upLink with st := .down }).lostPeers 0 = []) ∧
    ({ upLink with st := .training, buf := [packet 0] } : Link).buf ≠ [] := by
  refine ⟨goesOn _ rfl, ?_⟩
  decide +kernel

theorem test_meets_LinksCarryReplayDegradeAndFail_2 :
    (let x := { Link.empty with en := true, evt := 0x10000000000 }
     x.st = .down ∧ x.evt.toNat % 8 = 0 ∧ regionOf x.evt.toNat = .cap ∧ Memory.wf (linkOf x) = true ∧ heldAt (linkOf x) x.evt.toNat = none ∧ (linkOf x).waits.posted = [] ∧
     unwritable (linkOf x) x.evt.toNat = false) ∧
    (let x := { upLink with rxdead := 0x3FFF }
     bestGroup (x.rxdead ||| (1 <<< 14)) 0 = none ∧ bestGroup (upLink.rxdead ||| (1 <<< 3)) 0 = some (8, 8)) ∧
    (let x := { upLink with st := .training, halted := true }
     bestGroup { x with txdead := 1, rxdead := 0 }.barred x.maxw = some (8, 8) ∧ x.retest = false) ∧
    bestGroup { upLink with park := 0xF0 }.unusable 0 = some (8, 0) ∧ ({ upLink with dark := 4, waking := 4, wakes := [4] } : Link).wakes = [4] ∧ bestGroup { upLink with waking := 0 }.barred 0 = some (16, 0) ∧
    (let s := { withOp (lone sup Bank.empty) (liveOp .running (.cpy (0xFE010000000000) 0xFE010000000000 64 0)) with peers := [(1, ⟨true, true, 0, 1⟩)] }
     (s.op 5).st = .running ∧ genOf ((s.op 5).handle 5) = (s.op 5).gen ∧ entryOf ((s.op 5).handle 5) = 5 ∧ (s.peer 1).failed = true ∧ memberSilence s (s.op 5) = none ∧ ({ s with links := [(0, { upLink with buf := [packet 0] })] } : State).opPeers 5 = [1] ∧
     memberSilence (withOp s { liveOp .running (.coll capVa 0 0 4) with blk := some { groupOfOne with srcs := [capVa, 0x100000000] } })
       { liveOp .running (.coll capVa 0 0 4) with blk := some { groupOfOne with srcs := [capVa, 0x100000000] } } = some true ∧ s.opPaused (s.op 5) = false) ∧
    (let x := { upLink with hi := 4, lo := 2, idle := 1 }
     x.hi ≠ 0 ∧ x.lo < x.hi ∧ x.idle ≠ 0 ∧ (linkOf x).link 0 = x ∧ x.quiet = false ∧ x.depth ≤ x.lo) := by
  decide +kernel

/-- Core 0 in a power state, the tolerance 2,000 ns. -/
def powered (p : PowerState) (waking : Bool) : State :=
  { State.reset with cores := [(0, { Core.empty with power := p, waking := waking })], power := { Power.reset with lattol := 2000 } }

/-- A table that gives v at each of n keys from a on. -/
def evenly {α : Type} (v : α) (a n : Nat) : Table α := (List.range' a n).map (fun k => (k, v))

theorem look_evenly {α : Type} (d v : α) (k n : Nat) : ∀ a, a ≤ k → k < a + n → look d (evenly v a n) k = v := by
  induction n with
  | zero => intro a h g; omega
  | succ n ih =>
    intro a h g
    rw [evenly, List.range'_succ, List.map_cons, look]
    by_cases e : k = a
    · simp [e]
    · rw [if_neg e, if_neg (by omega)]
      exact ih (a + 1) (by omega) (by omega)

/-- Every core of stack 0 in DOZE. -/
def dozing : State := { State.reset with cores := evenly { Core.empty with power := .doze } 0 192, power := { Power.reset with lattol := 60000 } }

/-- Every column at its floor, the power above 1.1 times the limit. -/
def slowed : Power := { Power.reset with pmeas := 4401, duty := evenly 16 0 columns }

theorem test_meets_PowerStatesAndThrottling :
    LaunchesGoOn State.reset ∧
    (let s := powered .run false
     (s.core 0).power = .run ∧ 19 ≤ s.power.lattol.toNat ∧ s.power.phase = 0 ∧ s.quiet 0 = true) ∧
    (let s := powered .idle false
     (s.core 0).power = .idle ∧ 2000 ≤ s.power.lattol.toNat ∧ s.quiet 0 = true ∧ (s.core 0).panesBusy = false) ∧
    ((powered .nap false).core 0).power = .nap ∧ ((powered .nap true).core 0).waking = true ∧ ((powered .doze true).core 0).waking = true ∧
    (60000 ≤ dozing.power.lattol.toNat ∧ (∀ c, c < 192 → (dozing.core c).power = .doze ∧ (dozing.core c).waking = false) ∧ dozing.ops = []) ∧
    dozing.quiet 0 = true ∧ (dozing.core 0).panesBusy = false ∧
    95 < 96 ∧ 92 + 3 ≤ Power.reset.tmax ∧ 100 * 3879 < 97 * Power.reset.limit ∧
    (11 * slowed.limit < 10 * slowed.pmeas ∧ ∀ k, k < columns → slowed.dutyOf k ≤ slowed.floor) ∧ Power.reset.lock = false := by
  have core (c : Nat) (h : c < 192) : dozing.core c = { Core.empty with power := .doze } := look_evenly _ _ _ _ _ (by omega) (by omega)
  refine ⟨goesOn _ rfl, by decide +kernel, by decide +kernel, by decide +kernel, by decide +kernel, by decide +kernel,
    ⟨by decide, fun c h => by rw [core c h]; exact ⟨rfl, rfl⟩, rfl⟩, by decide +kernel, by decide +kernel, by decide, by decide, by decide, ⟨by decide, fun k h => ?_⟩, rfl⟩
  exact Nat.le_of_eq (look_evenly _ _ _ _ _ (by omega) (by omega))

/-- Reset with the sequence in a phase. -/
def inPhase (n : Nat) : State := { lone user Bank.empty with power := { Power.reset with phase := n } }

theorem test_meets_ShutterSequenceAndResumption :
    LaunchesGoOn (inPhase 0) ∧ (∀ n ∈ List.range 8, (inPhase n).power.phase = n) ∧ (∀ p ∈ (inPhase 0).cores, p.2.power ≠ .nap) ∧
    (let s : State := { inPhase 6 with power := { (inPhase 6).power with dipped := true, steady := true } }
     s.power.auto = true ∧ s.power.dipped = true ∧ s.power.steady = true) ∧
    ((inPhase 1).seat? 0 0).isSome = true ∧ (inPhase 3).inFlight = false ∧
    (let s : State := { withOp (inPhase 3) { liveOp .running (.cpy capVa capVa 64 0) with outst := 1 } with power := { Power.reset with phase := 3 } }
     s.inFlight = true ∧ (s.op 5).live = true ∧ (s.op 5).kind.cls ≠ .ts ∧ (s.op 5).atBoundary = false) ∧
    ((withOp (inPhase 3) { liveOp .running (.gath capVa capVa 64 400 0 false) with progress := 300 }).op 5).atBoundary = false ∧
    (let s : State := { linkOf { upLink with halted := true } with power := { Power.reset with phase := 4 } }
     (s.link 0).st = .up ∧ (s.link 0).halted = true ∧ (s.link 0).evt = 0 ∧ (s.link 1).evt = 0) ∧
    (let p : Pane := { Pane.empty with park := true, back := true, img := { PaneImage.empty with dirty := true } }
     let s : State := { lone user { Bank.empty with panes := [(3, p)], slots := [(29, ⟨.free, some p.img⟩)] } with power := { Power.reset with phase := 7 } }
     (s.pane 0 0 3).park = true ∧ (s.pane 0 0 3).back = true ∧ s.power.evt = 0 ∧ s.power.resume ≠ some true ∧ ((s.bank 0 0).slot 3 5).img ≠ none) ∧
    ({ (inPhase 7) with power := { Power.reset with phase := 7, resume := some true } } : State).power.resume = some true ∧
    (let s : State := { inPhase 7 with cores := [(1536, { Core.empty with seats := [(0, some (Seat.control 0 0x1000))] })] }
     (s.cores.map (·.1)).Nodup ∧ ((s.core 1536).seats = [(0, some (Seat.control 0 0x1000))]) ∧ (Seat.control 0 0x1000).isCC = true) := by
  refine ⟨goesOn _ rfl, ?_⟩
  decide +kernel

/-- Reset with boot at a step. -/
def booting (n : Nat) : State := { State.reset with boot := { Boot.reset with step := n } }

theorem test_meets_FleetPortBootAndControlCores :
    (∀ n ∈ List.range 5, (booting n).boot.step + 1 = n + 1 ∧ (booting n).boot.failed = false) ∧ (booting 4).boot.done = false ∧ (booting 4).boot.late = false ∧
    (inPhase 6).power.phase = 6 ∧ State.reset.boot.romBad = false ∧ State.reset.waits.posted = [] ∧ asleep State.reset 0x10000000000 = false ∧
    (∀ k ∈ List.range 8, heldAt State.reset (0x10000000000 + k) = none) ∧ (∀ k ∈ List.range 8, regionOf (0x10000000000 + k) = .cap ∧ isRetention (0x10000000000 + k) = false) ∧
    isRetention 0x1FE00000000 = true ∧ (State.reset.core 5).quar = false ∧ ([(3, 0x1F1F7F), (4, 0)] : List (Nat × Nat)).map (·.1) = [3, 4] ∧
    ({ State.reset with power := { Power.reset with off := true, lostAtOff := true } } : State).power.off = true ∧ State.reset.power.off = false ∧
    (0x10000000000 : Nat) % 8 = 0 ∧ (look CcBar.empty State.reset.ccbars 0).arrived = 0 ∧ regionOf 0x1000 = .dram ∧
    (let s : State := { State.reset with ns := 10, cores := [(1536, { Core.empty with seats := [(0, some { Seat.control 0 0x1000 with timecmp := 5, tvec := 0x2000 })] })] }
     let u := s.seat ⟨1536, 0, 0⟩
     u.isCC = true ∧ u.run = .running ∧ u.tvec ≠ 0 ∧ u.status.hold = false ∧ u.timecmp.toNat ≤ s.ns ∧ (s.part ⟨1536, 0, 0⟩).convoy = none) ∧
    devReg 0xFF0004000098 = none := by decide +kernel

/-! ## The whole machine -/

/-- A line in capacity memory: header 2, the head of `add s3, s1, s2` with CB, then nop with CB; its tail at the line's end. -/
def oneLine : State :=
  { lone { sup with parts := [(0, some { Part.empty with pc := capVa + 2, active := 1, vl := 4 })] } (bankWith [(1, 1), (2, 2)] []) with
    mem := [(0x10000000000, 2), (0x10000000002, 3), (0x10000000003, 0xA4), (0x10000000005, 0x80), (0x1000000003E, 0x22)] }

/-- What is gathered at a pc: the heads, each with its address, and the address behind. -/
noncomputable def gatheredAt (s : State) : List (Word × BitVec 16) × Word :=
  match gatherAt s s.fctx s.fpart.pc s.fpart.entry with | .ok hs next => (hs.map (fun h => (h.addr, h.head)), next) | _ => ([], 0)

theorem test_meets_StepRunsTheDecodedInstruction :
    (let s := oneLine
     s.power.off = false ∧ s.due = [] ∧ s.rxq = [] ∧ s.agenda = [] ∧ s.waits.serving = [] ∧ s.waits.posted = [] ∧ (∀ w ∈ s.waiters, w.1 = .vote) ∧ s.mayIssue s.focus = true ∧ (s.core s.focus.core).power = .run ∧ s.fpart.wait = none ∧
     s.boundary s.focus = none ∧ s.fpart.convoy = none ∧ (gatheredAt s).1 = [(capVa + 2, 0xA403)] ∧ (gatheredAt s).2 = capVa + 4) ∧
    (let s := lone (seatOf (inConvoy [(2, .nop)])) Bank.empty
     s.mayIssue s.focus = true ∧ (s.core s.focus.core).power = .run ∧ s.fpart.wait = none ∧
     s.fpart.convoy.map (fun c => (c.elems, c.todo.head?)) = some ([], some (2, .nop))) ∧
    (match step oneLine with | .next t => (t.bank 0 0).rs 3 == 3 | _ => false) = true := by decide +kernel

theorem test_meets_EveryStepKeepsTheMemoryCanonical : Memory.wf oneLine = true ∧ (match step oneLine with | .next _ => true | _ => false) = true := by decide +kernel

theorem test_meets_DecodeOfEncodeIsTheInstruction :
    (Instr.add 3 1 2).formOk = true ∧ (encode (.add 3 1 2)).isSome = true ∧ decodeEnc ((encode (.add 3 1 2)).getD ⟨0, 0, 0, 0⟩) = .ok (.add 3 1 2) ∧
    encodeWords true (.add 3 1 2) = [0xA403, 0x0022] ∧ encode (.supplyDip) = none := ⟨rfl, rfl, rfl, rfl, rfl⟩

/-- R351: a third mismatch at element 2 retires the lane and takes the machine check there; elements 0 and 1 stay written. -/
theorem test_machine_check :
    let s := ({ lanes with cores := (lone user ((lanes.fbank 0).ws 1 4)).cores }.modBank 0 0 (fun _ => lanes.fbank 0)).modCore 0
      (fun c => { c with mism := some (0, 2, 3) })
    (match exec (.vadd { i32 2 0 1 with sv := 2, s := 7 }) s with
     | .next t => (((t.seatAt 0 0).cause, (t.seatAt 0 0).tval, (t.part ⟨0, 0, 0⟩).pc), (t.part ⟨0, 0, 0⟩).xidx,
         ((t.core 0).silmis, (t.core 0).laneret, t.log.seq), (List.range 4).map (fun j => t.elemOf 0 32 2 j))
     | _ => ((0, 0, 0), 0, (0, 0, 0), [])) = ((0x3C, 0xFF000A080040, 0x1142), 2, (1, 1, 2), [7, 7, 0, 0]) := by decide +kernel

/-- R351: a second mismatch goes on on the spare lane. -/
theorem test_lane_retired :
    let s := lanes.modCore 0 (fun c => { c with mism := some (0, 2, 2) })
    (match exec (.vadd { i32 2 0 1 with sv := 2, s := 7 }) s with
     | .next t => (((t.core 0).silmis, (t.core 0).laneret, (t.core 0).spare), t.log.seq, (List.range 4).map (fun j => t.elemOf 0 32 2 j))
     | _ => ((0, 0, 0), 0, [])) = ((1, 1, 1), 1, [7, 7, 7, 7]) := by decide +kernel

/-- R177: act poisons the granule with the failure and does not trap. -/
theorem test_act_finds_a_row_error :
    let s := (lone sup (bankWith [] [(1, rowVa)])).modCore 0 (fun c => { c with ecc := [64] })
    (match exec (.act 0 1) s with
     | .next t => ((look none ((t.bank 0 0).pane 0).final.poison 1).isSome, (look none ((t.bank 0 0).pane 0).final.poison 0).isSome, t.log.seq, (t.core 0).ecc)
     | _ => (false, false, 0, [1])) = (true, false, 1, []) := by decide +kernel

/-! ## What the wider statements assume -/

theorem test_meets_SumsAndProductsAreCorrectlyRounded_2 : e5m2Fmt ∈ [f32Fmt, bf16Fmt, f16Fmt, e5m2Fmt, e4m3Fmt, f64Fmt] ∧ (3 : Nat) ≠ 0 ∧
    deliver e5m2Fmt .rne true (.num false 1 20) = (0x7B, 0x14) ∧ deliver e5m2Fmt .rne false (.num false 1 20) = (0x7C, 0x14) ∧
    deliver e4m3Fmt .rne false (.num true 1 9) = (0xFE, 0x14) := by decide +kernel

theorem test_meets_QuotientsAndRootsAreCorrectlyRounded_2 : FinEnc f16Fmt 0x4000 ∧ (unpack f16Fmt 0x4000).rat = 2 ∧ (unpack f16Fmt 0x3C00).rat = 1 ∧
    (unpack f16Fmt 0x4200).rat = 3 := by
  refine ⟨by unfold FinEnc; decide +kernel, ?_, ?_, ?_⟩
  · rw [show unpack f16Fmt 0x4000 = .num false 1024 (-9) by decide +kernel]; norm_num [FV.rat]
  · rw [show unpack f16Fmt 0x3C00 = .num false 1024 (-10) by decide +kernel]; norm_num [FV.rat]
  · rw [show unpack f16Fmt 0x4200 = .num false 1536 (-9) by decide +kernel]; norm_num [FV.rat]

theorem test_meets_FloatSpecialValues_2 :
    let nan : FV := .nan true
    let inf : FV := .inf true
    let zero : FV := .num true 0 0
    let one : FV := .num false 1 0
    nan.isNan = true ∧ nan.isSig = true ∧ inf.isInf = true ∧ inf.isNan = false ∧ zero.isZero = true ∧ one.isZero = false ∧ one.isNan = false ∧
    ((zero.isZero && inf.isInf) || (zero.isInf && inf.isZero)) = true ∧ inf.sign = true ∧ (FV.inf false).sign = false ∧ one.sign = false := by decide

/-- The first of two replicas is in focus. -/
def asReplica (r other : Replica) : State := voting [r, other] 0

theorem test_meets_NoOperationsAdvanceAndRndIsFree_2 :
    let other := replica false none none
    let r := replica true none none
    let local_ : OpKind := .mmma 3 0 1 1 1 0x9901
    Settled (asReplica r other) ∧ (asReplica r other).fseat.red = some r ∧ r.released = false ∧ (asReplica r other).localOp = none ∧
    (withOp (asReplica r other) (liveOp .running local_)).localOp = some 5 ∧
    (asReplica { other with released := true } { r with released := true, performer := true }).performing 0 0 = some (4, 0) ∧
    (asReplica { r with released := true, performer := true } other).performing 0 0 = some (0, 0) ∧
    ({ r with echoLog := [7] } : Replica).echoPos + 1 ≤ ({ r with echoLog := [7] } : Replica).echoLog.length ∧ other.leads = false ∧ r.leads = true ∧
    (asReplica r other).active = [0] ∧ ((asReplica r other).seatsOf 0 0).Nodup := by
  refine ⟨rfl, ?_⟩
  decide +kernel

/-- A part stopped half-way through a scalar instruction, in a handler of class 4 that returns to it. -/
def stopped (k : Kept) : Seat := { backTo 2 false with parts := [(0, some { Part.empty with pc := 0x1142, active := 1, kept := some k })] }

theorem test_meets_EretReturnsFromATrap_2 : (stopped ⟨2, 1, none, []⟩).epc = 2 ∧ (stopped ⟨2, 1, none, []⟩).handler = some 1 ∧
    ((stopped ⟨2, 1, none, [(0, 32)]⟩).part? 0).bind (fun p => p.kept.filter (fun k => k.pc == 2)) = some ⟨2, 1, none, [(0, 32)]⟩ ∧
    ((stopped ⟨2, 0, some 1, []⟩).part? 0).bind (fun p => p.kept.bind (·.join)) = some 1 := by decide +kernel

/-- A replica at LVL 1 in a convoy that echo marks; s1 names plain memory. -/
def echoing (r : Replica) : State :=
  lone { sup with red := some r, parts := [(0, some { inConvoy [] with convoy := (inConvoy []).convoy.map (fun c => { c with echo := true }) })] } (bankWith [(1, capVa)] [])

theorem test_meets_LoadsReadMemory_2 :
    let r := { replica false none none with echoLog := [7] }
    Settled (echoing r) ∧ Fresh (echoing r) ∧ (echoing r).fseat.red = some r ∧ (((echoing r).part (echoing r).focus).convoy.map (·.echo)) = some true ∧
    (∀ v ∈ r.echoLog, v.toNat < 256 ^ 1) ∧ (echoing r).active = [0] ∧ r.echoPos + 1 ≤ r.echoLog.length ∧ r.leads = false ∧
    (replica false none none).echoLog.length ≤ (replica false none none).echoPos ∧
    Plain (echoing r) .read 8 capVa.toNat 0x10000000000 ∧ ({ atCap with poison := [(0x10000000000 / 64, true)] } : State).poisoned 0x10000000000 8 = true ∧
    (let dev : Nat := 0xFEFF0004000098
     dev < 2 ^ 56 ∧ dev % 8 = 0 ∧ isOk (translate atCap atCap.fctx .read dev) ⟨0xFF0004000098, 0, false, true, false⟩ = true ∧ regionOf 0xFF0004000098 = .dev) := by
  refine ⟨by unfold Settled; decide +kernel, by unfold Fresh; decide +kernel, by decide +kernel, by decide +kernel, by simp, by decide +kernel, by decide +kernel,
    by decide +kernel, by decide +kernel, ?_, by decide +kernel, by decide +kernel⟩
  exact ⟨by decide +kernel, by decide +kernel, ⟨⟨0x10000000000, 0, false, true, false⟩, ok_of (by decide +kernel), rfl, rfl⟩, by decide +kernel, by decide +kernel,
    .inr (.inl (by decide +kernel))⟩

/-- A replica whose s1 names its own SRAM bank. -/
def ownScratch (r : Replica) : State :=
  { lone { user with sram := [0], red := some r } (bankWith [(1, 0xFFFFFFFF800000)] []) with
    quads := [(0, { Quad.empty with sram := [(0, { SramBank.empty with mode := 1, holder := some (0, 0) })] })] }

theorem test_meets_StoresWriteMemory_2 :
    let r := replica true none none
    let s := ownScratch r
    Settled s ∧ Fresh s ∧ s.fseat.red = some r ∧ Memory.wf s = true ∧ s.seat? s.focus.core s.focus.base = some s.fseat ∧ Plain s .write 8 windowBase sramBase ∧
    ownSram s.fseat s.focus.core sramBase = true ∧ ownSram (lone { user with red := some r } Bank.empty).fseat 0 0x10000000000 = false ∧ declaredOut r 0x10000000000 = false ∧
    (let dev : Nat := 0xFEFF0004000098
     isOk (translate atCap atCap.fctx .write dev) ⟨0xFF0004000098, 0, false, true, false⟩ = true ∧ devReg 0xFF0004000098 = none ∧ devReg 0xFF0002000000 = some (.mig 0 0)) ∧
    devDenied atCap (some ⟨0, 0, 0⟩) (.mig 0 0) = false ∧ devHeld atCap (.mig 0 0) 1 = false ∧ atCap.due = [] ∧
    devDenied (lone user Bank.empty) (some ⟨0, 0, 0⟩) (.sram 1 0) = true := by
  refine ⟨rfl, rfl, rfl, by decide, by decide +kernel, ?_, by decide +kernel, by decide +kernel, by decide +kernel, by decide +kernel, by decide +kernel, by decide +kernel, rfl, by decide +kernel⟩
  exact ⟨by decide, by decide, ⟨⟨sramBase + 0, 0, true, true, false⟩, ok_of (by decide +kernel), rfl, rfl⟩, by decide +kernel, by decide +kernel, .inr (.inr (by decide +kernel))⟩

/-- Two banks of a sash that share a FIFO of `count` bytes. -/
def sharing (count : Nat) : State :=
  let x := bankWith [(1, 0xFFFFFFFF800000)] []
  { lone { user with log2s := 1, sram := [0], parts := [(0, some { Part.empty with pc := 2, active := 3, vl := 4 })] } x with
    cores := [(0, { Core.empty with banks := [(0, x), (1, x)], seats := [(0, some { user with log2s := 1, sram := [0], parts := [(0, some { Part.empty with pc := 2, active := 3, vl := 4 })] })] })]
    quads := [(0, { Quad.empty with sram := [(0, { SramBank.empty with mode := 2, holder := some (0, 0), count := count })] })] }

theorem test_meets_FifoAccessesPopAndPush_2 :
    let s := sharing 12
    Settled s ∧ Fresh s ∧ s.fseat.red = none ∧ s.active = [0, 1] ∧ (∀ b ∈ s.active, ((s.fbank b).rs 1).toNat = windowBase) ∧
    isOk (translate s s.fctx .read windowBase) ⟨sramBase, 0, true, true, false⟩ = true ∧ (s.sram 0 0).mode = 2 ∧ (s.sram 0 0).busy = false ∧
    8 ≤ (s.sram 0 0).count ∧ (s.sram 0 0).count < 8 * 2 ∧ (sharing 16).poisonAt (sramPa 0 0) = false ∧ 4 * 2 ≤ (s.sram 0 0).count ∧
    ((sharing 262136).sram 0 0).count + 8 ≤ 262144 ∧ 262144 < ((sharing 262136).sram 0 0).count + 8 * 2 := by
  refine ⟨rfl, rfl, rfl, ?_⟩
  decide +kernel

/-- At LVL 0 with a handler: pane 0 is closed, pane 1 opens, pane 2 is open with poison in its first granule. -/
def guarded : State :=
  lone user { bankWith [(1, 4)] [] with
    panes := [(1, { Pane.empty with st := .opening }), (2, { Pane.empty with st := .openClean, img := { PaneImage.empty with poison := [(0, some 0)] } }),
      (3, { Pane.empty with st := .openClean })] }

theorem test_meets_ComparesAndMaskLogicWriteMasks_2 :
    let s := guarded
    let us (wd wa wb : BitVec 4) : Option (List (Nat × Nat × Bool)) :=
      (vinfo (.vadd (i32 wd wa wb))).map (fun v => usesIn s (v.l s.fseat) s.fpart.xidx (s.evlOf (v.l s.fseat)) v.reads v.writes)
    Settled s ∧ HasHandler s ∧ s.fseat.red = none ∧ s.fpart.stored = [] ∧ s.fpart.kept = none ∧ s.fseat.isCC = false ∧ s.fpart.convoy = none ∧
    us 3 0 2 = some [(0, 3, true), (0, 0, false), (0, 2, false)] ∧ (s.pane 0 0 0).st = .closed ∧ us 3 1 2 = some [(0, 3, true), (0, 1, false), (0, 2, false)] ∧
    (s.pane 0 0 1).st = .opening ∧ (s.pane 0 0 3).pins = 0 ∧ s.run 1024 0 false = [0, 1, 2, 3] ∧ (look none (s.pane 0 0 2).img.poison 0).isSome = true ∧
    (s.core s.focus.core).mism = none ∧ (s.core s.focus.core).esc = none := by
  refine ⟨rfl, ⟨by decide, .inr (by decide)⟩, ?_⟩
  decide +kernel

theorem test_meets_MovesCopyEncodings_2 :
    1 ≤ ({ lanes with cores := [(0, { Core.empty with seats := [(0, some (splitSeat []))] })] } : State).fpart.depth ∧ HasHandler guarded := by
  exact ⟨by decide +kernel, by decide, .inr (by decide)⟩

theorem test_meets_ConversionsAndDotsPerElement_2 :
    ([1, 2] : List Nat) ≠ [] ∧ ([1, 2] : List Nat).length = ([3, 4] : List Nat).length ∧ floatOf 8 = some e4m3Fmt ∧ floatOf 4 = none ∧ (255 : Nat) % 64 = 63 ∧
    (encodeCode 1 32 .rne (.num false 7 0)) = (7, 0x14) ∧ (encodeCode 1 32 .rne (.num false 6 0)) = (7, 0) ∧ (FV.num false 7 0).isNan = false ∧
    (encodeBlock 1 .rne [(0, .nan true), (1, .num false 1 0)]) = ([(0, 0), (1, 0)], 63, 1) := by decide +kernel

theorem test_meets_ReductionsCombineTheProcessedElements_2 : ([some 0x3F800000, none, some 0x40000000] : List (Option Nat)).length ≤ 2 ^ 2 ∧
    (floatSum f32Fmt .rne false [some 0x3F800000, none, some 0x40000000]) = (0x40400000, 0) ∧ (minMaxEnc f32Fmt true 0x80000000 0).1 = 0 := by decide +kernel

theorem test_meets_RowCommandsCheckAddressesThenPanes_2 :
    let one (p : Pane) : State := lone user { Bank.empty with panes := [(0, p)] }
    ((one { Pane.empty with st := .opening }).pane 0 0 0).st ∈ [PaneState.opening, .writing] ∧
    ((one { Pane.empty with st := .openDirty }).pane 0 0 0).img.bnd = false ∧
    ((one { Pane.empty with st := .openDirty, img := { PaneImage.empty with bnd := true } }).pane 0 0 0).img.wperm = false ∧
    ((one { Pane.empty with st := .openDirty, img := { PaneImage.empty with bnd := true, wperm := true }, pins := 1 }).pane 0 0 0).pins ≠ 0 ∧
    (∀ b ∈ (one { Pane.empty with st := .closing }).active, ((one { Pane.empty with st := .closing }).pane 0 b 0).st = .closing) ∧ 5 ≤ (5#4).toNat := by
  decide +kernel

/-- Pane 0 of bank 0 of core 1 claims its sg. -/
def claimed : State :=
  { lone sup Bank.empty with
    cores := (lone sup Bank.empty).cores ++ [(1, { Core.empty with banks := [(0, { Bank.empty with panes := [(0, { Pane.empty with st := .openClean })] })] })] }

theorem claimed_waits : ElementWait claimed .read 4 (rowVa.toNat + 0x10000000) (.claim 1 0 0) :=
  ⟨by decide, by decide, .inr ⟨⟨0x10000000, 0, false, true, false⟩, 1, 0, 0, ok_of (by decide +kernel), rfl, by decide +kernel, by decide +kernel, by decide +kernel,
    rfl, by decide +kernel⟩⟩

/-- An address that is none (R150), a misaligned one, and one in a claimed sg. -/
theorem test_meets_VectorLoadsReadMemory_2 :
    ElementFault lanes .read 4 (2 ^ 56) true 0x10 ∧ ElementFault lanes .read 4 (capVa.toNat + 2) true 0x12 ∧ HasHandler guarded ∧
    (lone user Bank.empty).fseat.isCC = false ∧ lanes.run 1024 0 false = [] ++ 0 :: [1, 2, 3] ∧ lanes.run 1024 0 false = [0] ++ 1 :: [2, 3] ∧
    lanes.fpart.loaded = false ∧ lanes.fpart.convoy = none ∧ ((lanes.fbank lanes.seqBank).ra 1).toNat / 2 ^ 61 < 6 ∧
    ElementWait claimed .read 4 (rowVa.toNat + 0x10000000) (.claim 1 0 0) := by
  refine ⟨?_, ?_, ⟨by decide, .inr (by decide)⟩, rfl, by decide +kernel, by decide +kernel, rfl, rfl, by decide +kernel, ?_⟩
  · simp [ElementFault]
  · unfold ElementFault
    rw [if_neg (by decide), if_pos (by decide)]
  · exact claimed_waits

theorem test_meets_VectorStoresWriteMemory_2 : ∀ t, OtherBytes claimed t (fun a => ∃ x ∈ ([] : List Nat), x ≤ a ∧ a < x + 4) → ElementFault t .write 4 (2 ^ 56) true 0x10 := by
  intro t _
  simp [ElementFault]

/-- A replica with entry options for E-form instructions: a1 names memory that no region covers. -/
def issuing (r : Replica) : State := lone { user with red := some r } (bankWith [(1, 64)] [(1, capVa)])

theorem test_meets_EngineInstructionsCreateOperations_2 :
    let r := replica true none none
    let o : EOps := ⟨0, 1, 0, 1, 1, false, 0, false, 0⟩
    (issuing r).fseat.red = some r ∧ r.released = false ∧ (issuing r).localOp = none ∧ (issuing r).active = [0] ∧
    replicaOwns (issuing r) (issuing r).fseat (issuing r).fctx capVa.toNat 64 = false ∧ replicaOwns (issuing r) (issuing r).fseat (issuing r).fctx capVa.toNat 0 = true ∧
    (withOp (issuing r) (liveOp .running (.mmma 3 0 1 1 1 0x9901))).localOp = some 5 ∧
    CanIssue ((issuing r).modSeat (issuing r).focus (fun t => { t with red := none })) o [0] [0] [1] ∧
    (let follower : Replica := { replica false none none with released := true, echoLog := [7] }
     let s := asReplica follower (replica true none none)
     s.active = [0] ∧ follower.performer = false ∧ follower.lead = false ∧ o.dt = false ∧ s.performing s.fseat.launch s.fseat.task = none ∧
     follower.echoLog.drop follower.echoPos = 7 :: []) := by
  refine ⟨rfl, rfl, by decide +kernel, by decide +kernel, by decide +kernel, by decide +kernel, by decide +kernel, ?_, by decide +kernel⟩
  refine ⟨rfl, rfl, by decide, by decide, fun _ b hb => ?_, by decide, fun b hb a ha => ?_, by decide +kernel⟩
  · obtain rfl : b = 0 := by simpa using hb
    decide +kernel
  · obtain rfl : b = 0 := by simpa using hb
    obtain rfl : a = 1 := by simpa using ha
    decide +kernel

theorem test_meets_TokenInstructionsReadAndReleaseOperations_2 :
    let held (r : Replica) : State :=
      withOp (lone { user with red := some r } { Bank.empty with k := [(2, some (handleOf 5 0))] }) { liveOp .done (.cpy 0 0 64 0) with holders := 1 }
    let r := { replica false none none with echoLog := [7] }
    (held r).fseat.red = some r ∧ (held r).active = [0] ∧ (held r).tokenLive 0 2 = true ∧ ((held r).op 5).st.code = 3 ∧ r.echoLog.drop r.echoPos = [7] ∧
    (replica false none none).echoLog.drop 0 = [] ∧ r.performer = false ∧ r.lead = false ∧
    (let o := (holding .running).op 5
     o.blk = none ∧ o.rows = [] ∧ o.kind.panes = [] ∧ o.kind.cls ∉ [OpClass.ts, .re] ∧ (holding .running).dependents (handleOf 5 0) = []) := by decide +kernel

theorem test_meets_PaneAndRefreshEventsChangeTheirBank_2 :
    let v := lone (seatOf { inConvoy [(2, .pre 3)] with wait := some (.pane 0 0 3), begun := 2 }) { Bank.empty with panes := [(3, { Pane.empty with st := .openDirty })] }
    let a : Agent := ⟨0, 0, 0⟩
    v.agentOfBank 0 0 = some a ∧ (v.part a).wait = some (.pane 0 0 3) ∧ (v.part a).begun ≠ 0 ∧ (v.part a).begun.getLsbD 0 = false ∧
    (v.pane 0 0 3).st ∉ [PaneState.opening, .writing, .closing] ∧ (v.pane 0 0 3).park = false ∧
    (let w := lone (seatOf { inConvoy [(2, .sjoin 1)] with wait := some (.sjoin 1), stored := [(0, 32)] }) { Bank.empty with debt := [(3, 8)] }
     w.owes 0 = true ∧ w.power.phase = 0 ∧ (w.part a).begun = 0 ∧ (w.part a).wait = some (.sjoin 1) ∧ (w.part a).stored = [(0, 32)]) := by decide +kernel

/-- The last k-step of an mmma, and one that is due to start. -/
theorem test_meets_EnginesPerformTheirGranules_2 :
    (let s := copying .pending
     s.power.depth < 3 ∧ (s.op 5).live = true ∧ (s.op 5).st = .pending ∧ (s.op 5).after = none ∧ s.opPaused (s.op 5) = false ∧ s.startBarred (s.op 5) = false ∧
     s.startable (s.op 5) = true ∧ s.selected 5 = true) ∧
    (∀ p ∈ (copying .running).ops, p.2.live = true → p.2.st = .running → (copying .running).resting p.2 = false) ∧
    (copying .running).selected 5 = true ∧ ((copying .running).op 5).away = false ∧ ([1, 2] : List Nat).all (fun y => decide (y < 2 ^ fmtBits 4)) = true ∧
    remoteRanks gathered groupOfOne = [] ∧ (gathered.op 5).progress < groupOfOne.count ∧
    (∀ e ∈ List.range 4, engSpotAt gathered .read (capVa.toNat + 4 * e) = some (0x10000000000 + 4 * e) ∧
      engSpotAt gathered .write (capVa.toNat + 64 + 4 * e) = some (0x10000000040 + 4 * e)) ∧
    (let s := withOp (matrixPart [7]) { liveOp .running (.mmma 3 0 1 1 1 0x9901) with progress := 0 }
     (s.op 5).orphan.isNone = true ∧ opSeated s (s.op 5) = true ∧ s.selected 5 = true) := by decide +kernel

theorem test_meets_SchedulerStartsLaunchesTasksAndSeats_2 :
    (let s := offered .ready
     offerOrder (s.entries 0) = [⟨0, 0, 1, 0⟩] ∧ s.heldBack 0 0 = false ∧ s.dispatch 0 0 ≠ none) ∧
    (let s := launched user [(0, some (aTask .ready))]
     s.dispatch 0 0 = none ∧ s.heldBack 0 0 = false ∧ (aTask .ready).runners s = some [0] ∧ replicaCore (aTask .ready).core (aTask .ready).record.redund 0 = 0 ∧
     user.isCC = false ∧ ¬user.recPrio.toNat < (aTask .ready).prio.toNat ∧ s.unsavable user = false) ∧
    (offered .waiting).power.depth < 3 := by decide +kernel

theorem test_meets_PreemptionSavesTheSeat_2 :
    let u := { user with preempt := true, status := { user.status with hold := true } }
    (u.tvec ≠ 0 ∧ u.status.hold = true ∧ u.phase = .issuing) ∧ (seated u .running false).agentOfBank 0 0 = some ⟨0, 0, 0⟩ ∧
    (let p : Part := { inConvoy [(2, .pre 3)] with wait := some (.pane 0 0 3), begun := 2 }
     p.begun ≠ 0 ∧ p.wait = some (.pane 0 0 3)) ∧
    (let s := seated { user with phase := .saving } .running false
     s.power.depth < 3 ∧ s.poolSize 0 < 4096 ∧ user.red = none ∧ user.sram.Nodup ∧ (s.ops.Pairwise (fun p q => p.1 < q.1)) ∧
     ∀ q ∈ user.parts, ∀ y, q.2 = some y → y.begun = 0) := by decide +kernel

theorem test_meets_LaunchCommandsPauseResumeExportAndRetarget_2 :
    (let y : Task := { aTask .saved with isExported := true }
     let s : State := { seated user .running false with launches := [(0, some (aLaunch [(0, some y)] 0 true))] }
     s.task? 0 0 = some y ∧ y.st = .saved ∧ y.isExported = true) ∧
    (let y : Task := { aTask .saved with area := some 0 }
     let l := aLaunch [(0, some y)] 0 true
     let s : State := { seated user .running false with launches := [(0, some l)] }
     let moved : State := { s with cores := [(0, { Core.empty with banks := [(0, { Bank.empty with panes := [(0, { Pane.empty with st := .openClean })] })] })] }
     l.paused = true ∧ s.task? 0 0 = some y ∧ y.isExported = false ∧ (List.range 16).all (fun x => (pageWait s (s.areaPa 0 + x * 2 ^ 16)).isNone) = true ∧
     (List.range 16).any (fun x => (pageWait moved (moved.areaPa 0 + x * 2 ^ 16)).isSome) = true ∧
     ({ s with lctl := { s.lctl with cur := some (4, 0, 0) } } : State).lctl.cur = some (4, 0, 0)) := by decide +kernel

theorem test_meets_PowerStatesAndThrottling_2 :
    let s := { powered .nap true with cores := [(0, { Core.empty with power := .nap, waking := true })] }
    (s.core 0).power = .nap ∧ (s.core 0).waking = true := by decide +kernel

theorem test_meets_ShutterSequenceAndResumption_2 :
    let going (back : Nat) (discard : Bool) : State := { lone user Bank.empty with power := { Power.reset with phase := 7, back := back, resume := some discard } }
    (∀ n ∈ List.range 6, (going n false).power.back = n) ∧ (going 3 true).power.resume = some true ∧
    ({ going 4 false with links := [(0, { upLink with st := .down, halted := true })] } : State).relinking = true ∧ (going 4 false).relinking = false ∧
    (let s := withOp (going 3 false) (liveOp .paused (.cpy capVa capVa 64 0))
     5 ∈ s.opsWhere (fun o => o.st == .paused && o.kind.panes.isEmpty && !s.opPaused o && !s.opSaved o)) := by decide +kernel

theorem test_meets_FleetPortBootAndControlCores_2 :
    let asked (cores : Table Core) : State := { State.reset with cores := cores, waits := { State.reset.waits with reads := [(0x1000, 8)] } }
    heldAt (asked [(0, { Core.empty with banks := [(1, { Bank.empty with panes := [(0, { Pane.empty with st := .openClean })] })] })]) 0x1000 ≠ none ∧
    (asked []).waits.reads = [(0x1000, 8)] ∧ heldAt (asked []) 0x1000 = none ∧ (asked []).power.off = false ∧ (asked []).waits.serving = [] ∧ (asked []).due = [] ∧
    (asked []).rxq = [] := by decide +kernel

/-- What decoding of an instruction alone answers at LVL 0: the trap it takes. -/
noncomputable def decodeTrap (s : State) (i : Instr) : Option (BitVec 8 × Word) :=
  match encode i with
  | some e => (match checkHead s ⟨2, headOf true e, e.y⟩ with | .error x => some x | .ok _ => none)
  | none => none

theorem test_meets_StepRunsTheDecodedInstruction_2 :
    let s := lone user Bank.empty
    s.fseat.isCC = false ∧ s.fseat.tvec ≠ 0 ∧ s.fseat.status.lvl = false ∧ s.waits.staging = [] ∧ s.waits.reads = [] ∧
    decodeTrap s .eret = some (4, 0) ∧ decodeTrap s (.shut 1 5) = some (4, 5) ∧ decodeTrap s (.shut 1 4) = none ∧ decodeTrap s (.reopen 1 7) = some (4, 7) ∧
    (decodeTrap s (.vadd { vops 0 0 0 0 with t := 13 })).map (·.1) = some 1 ∧ (match gatherAt s s.fctx s.fpart.pc s.fpart.entry with | .trap k _ => k | _ => 0) = 0x10 ∧
    (match decodeEnc (encOfHead 0x803F 0) with | .error _ => true | .ok _ => false) = true := by decide +kernel

/-! ## What paths have taken ahead (R303-R305) -/

/-- `atCap` with the granule at its address, in which a byte is 7, taken ahead on a path; memory holds 0 (R305). -/
def aheadOn (p : BitVec 4) : State := { atCap with ahead := [⟨0, 0, p, 0x10000000000 / 64, 7⟩] }

def aheadAfter (r : Host.Outcome State Fault Refusal) : List (BitVec 4) := match r with | .next t => t.ahead.map (·.path) | _ => []

/-- R244, 14_memory_hierarchy_translation.md:140: without an xfence cp, ls a load may miss what a copy has written. -/
theorem test_load_ahead : regAfter (exec (.ldW 3 1 0) (aheadOn 0)) 3 = some 7 ∧ regAfter (exec (.ldW 3 1 0) (aheadOn 4)) 3 = some 0 := by decide +kernel

/-- R366, row 5: a reduction without an xfence ls, re may miss what its thread has stored. -/
theorem test_red_ahead :
    ((aheadOn 6).opSees (liveOp .running (.red capVa 0 4)) 0x10000000000 4, (aheadOn 0).opSees (liveOp .running (.red capVa 0 4)) 0x10000000000 4) = (7, 0) := by
  decide +kernel

/-- R159 and R304: the path that xfence names gives up what it took, LS a fence, ROW an acquire. -/
theorem test_xfence_orders :
    [aheadAfter (exec (.xfence 4 0 7) (aheadOn 0)), aheadAfter (exec (.xfence 0 4 7) (aheadOn 0)), aheadAfter (exec (.fence 7) (aheadOn 6)),
      aheadAfter (exec (.ldAcqD 3 1 0) (aheadOn 1)), aheadAfter (exec (.ldAcqD 3 1 0) (aheadOn 6))] = [[], [0], [], [], [6]] := by decide +kernel

/-- R301, R302 and R366: a thread's store comes before every LS access and its own ROW accesses, but no engine's. -/
theorem test_store_orders :
    [aheadAfter (exec (.stD 2 1 0) (aheadOn 0)), aheadAfter (exec (.stD 2 1 0) (aheadOn 1)), aheadAfter (exec (.stD 2 1 0) (aheadOn 6))] = [[], [], [6]] := by
  decide +kernel

theorem test_meets_SynchronisationInstructionsWaitOrPass_3 :
    (∃ x ∈ (aheadOn 0).ahead, (aheadOn 0).onPath 0 x) ∧ (∃ x ∈ (aheadOn 4).ahead, ¬(aheadOn 4).onPath 0 x) ∧ (aheadOn 6).active ≠ [] ∧
    (atCap.takeAhead 0 0 4 0x10000000020).ahead = [⟨0, 0, 4, 0x10000000000 / 64, 0⟩] := by
  refine ⟨⟨_, .head _, rfl⟩, ⟨_, .head _, ?_⟩, by decide +kernel, by decide +kernel⟩
  simp [State.onPath, aheadOn]

theorem test_meets_EnginesPerformTheirGranules_3 :
    (copying .running).opSees ((copying .running).op 5) 0x10000000000 64 = (copying .running).peek 0x10000000000 64 := by decide +kernel

end Sys2Proof.Tests
end

section
/-! The memory stays canonical (O57).

`mem` is set by `State.poke`, `State.pokeImage` and `State.reset` alone, and each of them keeps the canonical form (Laws/Phys). So
every function of the model that answers a state has one rule: from a canonical memory it leaves a canonical memory. `Canon.f` is the
rule of the function `f`. Its proof splits as `f` splits, and each branch is the chain of the rules of what `f` calls there, in the
order of the calls. A function that answers an outcome, an option, an element or an access has a rule of the same kind, stated by
`InNext`, `InSome`, `InElem` or `All`. -/

namespace Sys2Proof.Machine

/-- The memory is canonical. -/
def Canon (m : Table Byte) : Prop := bytesWf m = true

/-- The next state, if the outcome has one, has a canonical memory. -/
def InNext (r : Host.Outcome State Fault Refusal) : Prop := match r with | .next t => Canon t.mem | _ => True

/-- The state, if there is one, has a canonical memory. -/
def InSome (o : Option State) : Prop := match o with | some t => Canon t.mem | none => True

/-- The state that an optional result brings with it has a canonical memory. -/
def InPair {α : Type} (o : Option (α × State)) : Prop := match o with | some r => Canon r.2.mem | none => True

/-- The element, unless it stops, leaves a canonical memory. -/
def InElem (r : Elem) : Prop := match r with | .ok t => Canon t.mem | .stop _ => True

/-- Opened or ended, the convoy leaves a canonical memory. -/
def InOpening (r : Opening) : Prop := match r with | .opened t => Canon t.mem | .ended t => Canon t.mem

/-- The value that a check or an access gives, if it gives one, is such that P. -/
def Res.All {α : Type} (P : α → Prop) (r : Res α) : Prop := match r with | .ok a => P a | _ => True

/-- The value that an access of an engine gives, if it gives one, is such that P. -/
def Eng.All {α : Type} (P : α → Prop) (r : Eng α) : Prop := match r with | .ok a => P a | _ => True

/-- An element instruction keeps the memory canonical. -/
structure ElemOp.Keeps (o : ElemOp) : Prop where
  step : ∀ {e s}, Canon s.mem → InElem (o.step e s)
  act : ∀ {s}, Canon s.mem → InElem (o.act s)
  fin : ∀ {e s}, Canon s.mem → Canon (o.fin e s).mem

variable {s : State}

/-- An update of the state that leaves its memory as it is. -/
theorem Canon.upd {t : State} (h : Canon s.mem) (e : t.mem = s.mem := by rfl) : Canon t.mem := Memory.wf_of_mem e h

/-! A field set over a computed state has its rule here: where `h` alone is given, unification would compare the old and the new value of
the field. -/

theorem Canon.withOps (h : Canon s.mem) {x} : Canon ({ s with ops := x } : State).mem := h

theorem Canon.withTaskAge (h : Canon s.mem) {x} : Canon ({ s with taskAge := x } : State).mem := h

theorem Canon.withLinked (h : Canon s.mem) {x} : Canon ({ s with linked := x } : State).mem := h

theorem Canon.withLog (h : Canon s.mem) {x} : Canon ({ s with log := x } : State).mem := h

theorem Canon.withPower (h : Canon s.mem) {x} : Canon ({ s with power := x } : State).mem := h

theorem Canon.withHarvest (h : Canon s.mem) {x} : Canon ({ s with harvest := x } : State).mem := h

theorem Canon.ite {c : Prop} [Decidable c] {a b : State} (ha : Canon a.mem) (hb : Canon b.mem) : Canon (if c then a else b).mem := by
  split
  · exact ha
  · exact hb

theorem Canon.foldl {α : Type} {f : State → α → State} {xs : List α} (h : Canon s.mem) (hf : ∀ {t x}, Canon t.mem → Canon (f t x).mem) :
    Canon (xs.foldl f s).mem := Memory.wf_foldl f (fun _ _ => hf) xs h

theorem InSome.none : InSome .none := trivial

theorem InSome.of_forall {o : Option State} (h : ∀ t, o = some t → Canon t.mem) : InSome o := by
  cases o with
  | none => trivial
  | some t => exact h t rfl

theorem InSome.of_eq {o : Option State} {t : State} (h : InSome o) (e : o = some t) : Canon t.mem := by
  subst e
  exact h

theorem InSome.getD {o : Option State} (ho : InSome o) (h : Canon s.mem) : Canon (o.getD s).mem := by
  cases o with
  | none => exact h
  | some t => exact ho

theorem InSome.ite {c : Prop} [Decidable c] {a b : Option State} (ha : InSome a) (hb : InSome b) : InSome (if c then a else b) := by
  split
  · exact ha
  · exact hb

theorem InSome.bind {α : Type} {o : Option α} {f : α → Option State} (h : ∀ {x}, InSome (f x)) : InSome (o.bind f) := by
  cases o with
  | none => trivial
  | some x => exact h

theorem InSome.map {α : Type} {o : Option α} {f : α → State} (h : ∀ {x}, Canon (f x).mem) : InSome (o.map f) := by
  cases o with
  | none => trivial
  | some x => exact h

theorem InSome.findSome? {α : Type} {xs : List α} {f : α → Option State} (h : ∀ x, InSome (f x)) : InSome (xs.findSome? f) := by
  induction xs with
  | nil => trivial
  | cons x xs ih =>
    rw [List.findSome?_cons]
    have hx := h x
    split
    next he => exact he ▸ hx
    next => exact ih

theorem InSome.orElse {o : Option State} {f : Unit → Option State} (ho : InSome o) (hf : InSome (f ())) : InSome (o.orElse f) := by
  cases o with
  | none => exact hf
  | some t => exact ho

theorem Canon.of_fst {α : Type} {p : State × α} {x : α} {t : State} (h : Canon p.1.mem) (e : p = (t, x)) : Canon t.mem := by
  subst e
  exact h

theorem InPair.of_eq {α : Type} {o : Option (α × State)} {r : α × State} (h : InPair o) (e : o = some r) : Canon r.2.mem := by
  subst e
  exact h

theorem InPair.mk {α β : Type} {o : Option β} {f : β → α × State} (h : ∀ {x}, Canon (f x).2.mem) : InPair (o.map f) := by
  cases o with
  | none => trivial
  | some x => exact h

theorem InPair.map {α β : Type} {o : Option (α × State)} {f : α × State → β × State} (ho : InPair o)
    (hf : ∀ {r}, Canon r.2.mem → Canon (f r).2.mem) : InPair (o.map f) := by
  cases o with
  | none => trivial
  | some r => exact hf ho

theorem InPair.bind {α β : Type} {o : Option (α × State)} {f : α × State → Option (β × State)} (ho : InPair o)
    (hf : ∀ {r}, Canon r.2.mem → InPair (f r)) : InPair (o.bind f) := by
  cases o with
  | none => trivial
  | some r => exact hf ho

theorem InPair.findSome? {α β : Type} {xs : List β} {f : β → Option (α × State)} (h : ∀ x, InPair (f x)) : InPair (xs.findSome? f) := by
  induction xs with
  | nil => trivial
  | cons x xs ih =>
    rw [List.findSome?_cons]
    have hx := h x
    split
    next he => exact he ▸ hx
    next => exact ih

theorem InPair.state {α : Type} {o : Option (α × State)} {f : α × State → State} (ho : InPair o)
    (hf : ∀ {r}, Canon r.2.mem → Canon (f r).mem) : InSome (o.map f) := by
  cases o with
  | none => trivial
  | some r => exact hf ho

theorem InSome.andThen {o : Option State} {f : State → Option State} (ho : InSome o) (hf : ∀ {t}, Canon t.mem → InSome (f t)) :
    InSome (o.bind f) := by
  cases o with
  | none => trivial
  | some t => exact hf ho

theorem InSome.after {o : Option State} {f : State → State} (ho : InSome o) (hf : ∀ {t}, Canon t.mem → Canon (f t).mem) : InSome (o.map f) := by
  cases o with
  | none => trivial
  | some t => exact hf ho

theorem Res.All.bad {α : Type} {P : α → Prop} {k c} : (Res.bad k c : Res α).All P := trivial

theorem Res.All.wait {α : Type} {P : α → Prop} {w} : (Res.wait w : Res α).All P := trivial

theorem Res.All.of_eq {α : Type} {P : α → Prop} {r : Res α} {a : α} (h : r.All P) (e : r = .ok a) : P a := by
  subst e
  exact h

theorem Res.All.andThen {α β : Type} {Q : α → Prop} {P : β → Prop} {r : Res α} {f : α → Res β} (hr : r.All Q)
    (hf : ∀ {a}, Q a → (f a).All P) : (r.andThen f).All P := by
  cases r with
  | ok a => exact hf hr
  | bad => trivial
  | wait => trivial

theorem Res.all_andThen {α β : Type} {P : β → Prop} {r : Res α} {f : α → Res β} (hf : ∀ {a}, (f a).All P) : (r.andThen f).All P := by
  cases r with
  | ok a => exact hf
  | bad => trivial
  | wait => trivial

theorem Res.All.ite {α : Type} {P : α → Prop} {c : Prop} [Decidable c] {a b : Res α} (ha : a.All P) (hb : b.All P) :
    (if c then a else b).All P := by
  split
  · exact ha
  · exact hb

theorem Eng.All.wait {α : Type} {P : α → Prop} {w} : (Eng.wait w : Eng α).All P := trivial

theorem Eng.All.of_eq {α : Type} {P : α → Prop} {r : Eng α} {a : α} (h : r.All P) (e : r = .ok a) : P a := by
  subst e
  exact h

theorem Eng.All.andThen {α β : Type} {Q : α → Prop} {P : β → Prop} {r : Eng α} {f : α → Eng β} (hr : r.All Q)
    (hf : ∀ {a}, Q a → (f a).All P) : (r.andThen f).All P := by
  cases r with
  | ok a => exact hf hr
  | bad => trivial
  | wait => trivial

theorem Eng.all_andThen {α β : Type} {P : β → Prop} {r : Eng α} {f : α → Eng β} (hf : ∀ {a}, (f a).All P) : (r.andThen f).All P := by
  cases r with
  | ok a => exact hf
  | bad => trivial
  | wait => trivial

theorem Eng.All.ite {α : Type} {P : α → Prop} {c : Prop} [Decidable c] {a b : Eng α} (ha : a.All P) (hb : b.All P) :
    (if c then a else b).All P := by
  split
  · exact ha
  · exact hb

theorem InElem.stop {x} : InElem (.stop x) := trivial

theorem InElem.of_eq {r : Elem} {t : State} (h : InElem r) (e : r = .ok t) : Canon t.mem := by
  subst e
  exact h

theorem InElem.ite {c : Prop} [Decidable c] {a b : Elem} (ha : InElem a) (hb : InElem b) : InElem (if c then a else b) := by
  split
  · exact ha
  · exact hb

theorem InOpening.ite {c : Prop} [Decidable c] {a b : Opening} (ha : InOpening a) (hb : InOpening b) : InOpening (if c then a else b) := by
  split
  · exact ha
  · exact hb

theorem InNext.ite {c : Prop} [Decidable c] {a b : Host.Outcome State Fault Refusal} (ha : InNext a) (hb : InNext b) :
    InNext (if c then a else b) := by
  split
  · exact ha
  · exact hb

/-! ### The state and the operations that many others use -/

theorem Canon.setCore (h : Canon s.mem) {c v} : Canon (s.setCore c v).mem := h

theorem Canon.modCore (h : Canon s.mem) {c f} : Canon (s.modCore c f).mem := h.setCore

theorem Canon.setBank (h : Canon s.mem) {c b v} : Canon (s.setBank c b v).mem := h.modCore

theorem Canon.modBank (h : Canon s.mem) {c b f} : Canon (s.modBank c b f).mem := h.setBank

theorem Canon.modBanks (h : Canon s.mem) {c f bs} : Canon (s.modBanks c f bs).mem := by
  rw [State.modBanks_mem]
  exact h

theorem Canon.setPane (h : Canon s.mem) {c b n p} : Canon (s.setPane c b n p).mem := h.modBank

theorem Canon.setSeat? (h : Canon s.mem) {c base v} : Canon (s.setSeat? c base v).mem := h.modCore

theorem Canon.setSeat (h : Canon s.mem) {a v} : Canon (s.setSeat a v).mem := h.setSeat?

theorem Canon.modSeat (h : Canon s.mem) {a f} : Canon (s.modSeat a f).mem := h.setSeat

theorem Canon.setPart (h : Canon s.mem) {a p} : Canon (s.setPart a p).mem := h.modSeat

theorem Canon.modPart (h : Canon s.mem) {a f} : Canon (s.modPart a f).mem := h.setPart

theorem Canon.noteBegun (h : Canon s.mem) {x} : Canon (s.noteBegun x).mem := h.modPart

theorem Canon.onActive (h : Canon s.mem) {f} : Canon (s.onActive f).mem := h.modBanks

theorem Canon.resume (h : Canon s.mem) {a} : Canon (s.resume a).mem := h

theorem Canon.setQuad (h : Canon s.mem) {q v} : Canon (s.setQuad q v).mem := h

theorem Canon.modQuad (h : Canon s.mem) {q f} : Canon (s.modQuad q f).mem := h.setQuad

theorem Canon.setSram (h : Canon s.mem) {q b v} : Canon (s.setSram q b v).mem := h.modQuad

theorem Canon.setOp (h : Canon s.mem) {i v} : Canon (s.setOp i v).mem := h

theorem Canon.modOp (h : Canon s.mem) {i f} : Canon (s.modOp i f).mem := h.setOp

theorem Canon.setLaunch (h : Canon s.mem) {n v} : Canon (s.setLaunch n v).mem := h

theorem Canon.modLaunch (h : Canon s.mem) {n f} : Canon (s.modLaunch n f).mem := by
  unfold State.modLaunch
  split
  · exact h.setLaunch
  · exact h

theorem Canon.setTask (h : Canon s.mem) {l t v} : Canon (s.setTask l t v).mem := h.modLaunch

theorem Canon.modTask (h : Canon s.mem) {l t f} : Canon (s.modTask l t f).mem := by
  unfold State.modTask
  split
  · exact h.setTask
  · exact h

theorem Canon.setLink (h : Canon s.mem) {n v} : Canon (s.setLink n v).mem := h

theorem Canon.modLink (h : Canon s.mem) {n f} : Canon (s.modLink n f).mem := h.setLink

theorem Canon.setPeer (h : Canon s.mem) {n v} : Canon (s.setPeer n v).mem := h

theorem Canon.setMig (h : Canon s.mem) {n v} : Canon (s.setMig n v).mem := h

theorem Canon.touch (h : Canon s.mem) {pa} : Canon (s.touch pa).mem := .ite h.upd h

theorem Canon.freeWord (h : Canon s.mem) : Canon s.freeWord.2.mem := h

theorem Canon.freeBytes (h : Canon s.mem) : Canon s.freeBytes.2.mem := h

theorem Canon.freeBool (h : Canon s.mem) : Canon s.freeBool.2.mem := h

theorem Canon.writeLinks (h : Canon s.mem) {w pa n} : Canon (s.writeLinks w pa n).mem := h

theorem Canon.dropAhead (h : Canon s.mem) {f} : Canon (s.dropAhead f).mem := h

theorem Canon.orderPath (h : Canon s.mem) {core base p} : Canon (s.orderPath core base p).mem := h.dropAhead

theorem Canon.orderRows (h : Canon s.mem) {core base} : Canon (s.orderRows core base).mem := h.orderPath.orderPath

theorem Canon.orderAll (h : Canon s.mem) {core base} : Canon (s.orderAll core base).mem := h.dropAhead

theorem Canon.orderByte (h : Canon s.mem) {core base other pa n} : Canon (s.orderByte core base other pa n).mem := h.dropAhead

theorem Canon.poke (h : Canon s.mem) {w pa v n} : Canon (s.poke w pa v n).mem := Memory.wf_poke w pa v n h

theorem Canon.pokeBytes (h : Canon s.mem) {w pa bs} : Canon (s.pokeBytes w pa bs).mem := Memory.wf_pokeBytes w bs pa h

theorem Canon.pokeImage (h : Canon s.mem) {w pa n img} : Canon (s.pokeImage w pa n img).mem := Memory.wf_pokeImage w pa n img h

theorem Canon.setPoison (h : Canon s.mem) {pa v} : Canon (s.setPoison pa v).mem := h

theorem Canon.writeRow (h : Canon s.mem) {w pa i} : Canon (s.writeRow w pa i).mem := Memory.wf_writeRow w pa i h

theorem Canon.evict (h : Canon s.mem) {c b n} : Canon (s.evict c b n).mem := Memory.wf_evict c b n h

theorem Canon.evictNext (h : Canon s.mem) {core bank sg} : Canon (s.evictNext core bank sg).mem := by
  unfold State.evictNext
  split
  · exact h.resume
  · exact h.evict

theorem Canon.raiseHealth (h : Canon s.mem) {h'} : Canon (s.raiseHealth h').mem := h

theorem Canon.appendRec (h : Canon s.mem) {r} : Canon (s.appendRec r).mem := h

theorem Canon.bumpEvent (h : Canon s.mem) {pa} : Canon (s.bumpEvent pa).mem := Memory.wf_bumpEvent pa h

theorem Canon.logRec (h : Canon s.mem) {r} : Canon (s.logRec r).mem := (Canon.ite h.appendRec.bumpEvent h.appendRec).raiseHealth

theorem Canon.logError (h : Canon s.mem) {typ sev plane loc cause addr index} : Canon (s.logError typ sev plane loc cause addr index).mem :=
  h.logRec

theorem Canon.putOp (h : Canon s.mem) {i o} : Canon (s.putOp i o).mem := h.setOp

theorem Canon.wakeUnit (h : Canon s.mem) {core} : Canon (s.wakeUnit core).mem := by
  unfold State.wakeUnit
  split
  · exact h
  · exact h.foldl (·.modCore)
  · exact h.modCore

theorem Canon.tryPosted (h : Canon s.mem) {p} : InSome (s.tryPosted p) := .of_forall fun _ => Memory.wf_tryPosted p h

theorem Canon.post (h : Canon s.mem) {p} : Canon (s.post p).mem := Memory.wf_post p h

theorem Canon.performPosted (h : Canon s.mem) {p} : InSome (s.performPosted p) := .ite .none h.upd.tryPosted

theorem Canon.nextPosted (h : Canon s.mem) : InSome s.nextPosted := .findSome? fun _ => h.performPosted

theorem Canon.storeVa (h : Canon s.mem) {c va v n} : Canon (s.storeVa c va v n).mem := Memory.wf_storeVa c va v n h

theorem Canon.storeEvent (h : Canon s.mem) {c loc va v} : Canon (s.storeEvent c loc va v).mem := h.post

theorem Canon.recordFault (h : Canon s.mem) {ln cause kind task addr index} : Canon (s.recordFault ln cause kind task addr index).mem := by
  unfold State.recordFault
  split
  · exact h
  · extract_lets c at0 s1 s2
    have h1 : Canon s1.mem := .ite h.storeVa.storeVa.storeVa.storeVa h
    have h2 : Canon s2.mem := .ite h1 h1.storeVa
    exact h2.modLaunch

theorem Canon.unpinOp (h : Canon s.mem) {o} : Canon (s.unpinOp o).mem := .ite h.modBanks h

theorem Canon.pinOp (h : Canon s.mem) {o} : Canon (s.pinOp o).mem := h.modBanks

theorem Canon.closeOrphan (h : Canon s.mem) {o} : Canon (s.closeOrphan o).mem := .ite h.modBanks h

theorem Canon.storeFlag (h : Canon s.mem) {o st} : Canon (s.storeFlag o st).mem := by
  unfold State.storeFlag
  split
  · exact .ite h h.storeEvent
  · exact h.post
  · exact h.post
  · exact h

theorem Canon.freeOrphanRows (h : Canon s.mem) {i o} : Canon (s.freeOrphanRows i o).mem := .ite h h.modQuad

theorem Canon.unlinkOp (h : Canon s.mem) {i} : Canon (s.unlinkOp i).mem := .ite h.upd h

theorem Canon.finishOp (h : Canon s.mem) {i e} : Canon (s.finishOp i e).mem := by
  unfold State.finishOp
  extract_lets o s1 told o1 s2
  have h1 : Canon s1.mem := h.unpinOp.closeOrphan.freeOrphanRows.storeFlag.unlinkOp
  have h2 : Canon s2.mem := .ite h1.recordFault h1
  exact h2.putOp

theorem Canon.dueStart (h : Canon s.mem) {i} : Canon (s.dueStart i).mem := by
  unfold State.dueStart
  split
  · exact .ite h h
  · exact .ite h h
  · exact h

theorem Canon.endOpGo {fuel} : ∀ {s : State} {i e}, Canon s.mem → Canon (State.endOpGo fuel s i e).mem := by
  induction fuel with
  | zero => exact id
  | succ fuel ih =>
    intro s i e h
    exact .ite (h.finishOp.foldl (·.modOp.orderPath.dueStart)) (h.finishOp.foldl ih)

theorem Canon.endOp (h : Canon s.mem) {i e} : Canon (s.endOp i e).mem := h.endOpGo

theorem Canon.dropMembers (h : Canon s.mem) {o} : Canon (s.dropMembers o).mem := by
  unfold State.dropMembers
  split
  · exact h
  · exact .ite (h.foldl (·.endOp)) h

theorem Canon.cancelOp (h : Canon s.mem) {i} : Canon (s.cancelOp i).mem := .ite h.endOp.dropMembers h

theorem Canon.releaseRows (h : Canon s.mem) {core base} : Canon (s.releaseRows core base).mem := h.modQuad

theorem Canon.releaseSram {core bs} (h : Canon s.mem) : Canon (s.releaseSram core bs).mem := by
  induction bs generalizing s with
  | nil => exact h
  | cons b bs ih => exact ih h.freeBytes.setSram

theorem Canon.setPlace (h : Canon s.mem) {sill bit free} : Canon (s.setPlace sill bit free).mem := h.post

theorem Canon.freeView {vs} (h : Canon s.mem) : Canon (s.freeView vs).mem := by
  induction vs generalizing s with
  | nil => exact h
  | cons v vs ih => exact ih h.setPlace

theorem Canon.dropLinks (h : Canon s.mem) {core bs} : Canon (s.dropLinks core bs).mem := h

theorem Canon.keepOrphanRows (h : Canon s.mem) {core base} : Canon (s.keepOrphanRows core base).mem := by
  unfold State.keepOrphanRows
  extract_lets is
  split
  · exact (h.foldl (·.modOp)).modQuad
  · exact h

theorem Canon.letGo (h : Canon s.mem) {core base t h'} : Canon (s.letGo core base t h').mem := .ite h.putOp h

theorem Canon.discardSeat (h : Canon s.mem) {core base} : Canon (s.discardSeat core base).mem := by
  unfold State.discardSeat
  split
  · exact h
  · extract_lets s0 keep s1 s2 s3
    have h0 : Canon s0.mem := h.foldl (·.letGo)
    have h1 : Canon s1.mem := h0.keepOrphanRows.modBanks
    have h2 : Canon s2.mem := h1.releaseRows.releaseSram.dropLinks
    have h3 : Canon s3.mem := h2.freeView
    exact h3.setSeat?

theorem Canon.freeTaskSlots (h : Canon s.mem) {l t} : Canon (s.freeTaskSlots l t).mem := h

theorem Canon.releaseArea (h : Canon s.mem) {l t} : Canon (s.releaseArea l t).mem := h

theorem Canon.dropSaves (h : Canon s.mem) {l t} : Canon (s.dropSaves l t).mem := h

theorem Canon.dropContext (h : Canon s.mem) {c} : Canon (s.dropContext c).mem := h.foldl (·.letGo)

theorem Canon.closeTask (h : Canon s.mem) {l t st cause} : Canon (s.closeTask l t st cause).mem := by
  unfold State.closeTask
  split
  · exact h
  · extract_lets s0 s1
    have h0 : Canon s0.mem := (h.foldl (·.freeView.dropContext)).freeView
    have h1 : Canon s1.mem := h0.freeTaskSlots.releaseArea.dropSaves.setTask
    split
    · exact h1
    · split
      · exact h1
      · split <;> exact h1.endOp

theorem Canon.cascade {fuel l} (h : Canon s.mem) : Canon (State.cascade fuel s l).mem := by
  induction fuel generalizing s with
  | zero => exact h
  | succ fuel ih =>
    unfold State.cascade
    split
    · exact h
    · exact ih h.closeTask

theorem Canon.retryLaunches (h : Canon s.mem) : Canon s.retryLaunches.mem := h.foldl (fun ht => .ite ht.dueStart ht)

theorem Canon.endLaunch (h : Canon s.mem) {n l} : Canon (s.endLaunch n l).mem := by
  unfold State.endLaunch
  extract_lets e s1 s2 s3
  have h1 : Canon s1.mem := .ite h h.storeEvent
  have h2 : Canon s2.mem := h1
  have h3 : Canon s3.mem := h2.setLaunch.retryLaunches
  split
  · exact h3
  · exact .ite h3.endOp h3

theorem Canon.sweepLaunches {fuel} (h : Canon s.mem) : Canon (State.sweepLaunches fuel s).mem := by
  induction fuel generalizing s with
  | zero => exact h
  | succ fuel ih =>
    unfold State.sweepLaunches
    split
    · exact ih h.endLaunch
    · exact h

theorem Canon.sweep (h : Canon s.mem) : Canon s.sweep.mem := h.sweepLaunches

theorem Canon.releaseSuccs (h : Canon s.mem) {l succ} : Canon (s.releaseSuccs l succ).mem := h.foldl (·.modTask.upd)

theorem Canon.stopWith (h : Canon s.mem) {kill n} (hk : ∀ {t i}, Canon t.mem → Canon (kill t i).mem) : Canon (State.stopWith kill s n).mem := by
  unfold State.stopWith
  split
  · exact h
  · exact ((h.foldl fun ht => (ht.foldl (·.discardSeat)).closeTask).foldl hk).sweep

theorem Canon.killGo {fuel} : ∀ {s : State} {i}, Canon s.mem → Canon (State.killGo fuel s i).mem := by
  induction fuel with
  | zero => exact id
  | succ fuel ih =>
    intro s i h
    unfold State.killGo
    extract_lets o
    split
    · exact h.putOp
    · split
      · split
        · exact .ite h.closeTask.sweep h
        · exact h
      · split
        · exact h.modLaunch.stopWith ih
        · exact h
      · exact h.cancelOp

theorem Canon.killOp (h : Canon s.mem) {i} : Canon (s.killOp i).mem := h.killGo

theorem Canon.stopLaunch (h : Canon s.mem) {n} : Canon (s.stopLaunch n).mem := h.stopWith (·.killOp)

theorem Canon.freeOrphans (h : Canon s.mem) {l t} : Canon (s.freeOrphans l t).mem := h.foldl (·.modOp)

theorem Canon.endTask (h : Canon s.mem) {l t st cause addr index} : Canon (s.endTask l t st cause addr index).mem := by
  unfold State.endTask
  extract_lets s1 s2 s3 s4 s5
  have h1 : Canon s1.mem := .ite h (h.foldl (·.killOp))
  have h2 : Canon s2.mem := (h1.foldl (·.discardSeat)).freeOrphans
  have h3 : Canon s3.mem := h2.closeTask
  have h4 : Canon s4.mem := .ite h3.recordFault h3
  have h5 : Canon s5.mem := .ite h4.releaseSuccs h4.cascade
  exact h5.sweep

theorem Canon.newLeader (h : Canon s.mem) {l t} : Canon (s.newLeader l t).mem := h.foldl (·.setSeat?)

theorem Canon.cancelLaunch (h : Canon s.mem) {n} : Canon (s.cancelLaunch n).mem := h.modLaunch.stopLaunch

theorem Canon.failSeat (h : Canon s.mem) {core base cause addr index} : Canon (s.failSeat core base cause addr index).mem := by
  unfold State.failSeat
  extract_lets t
  split
  · exact .ite (h.foldl (·.cancelOp)).setSeat?.discardSeat.modTask.newLeader h.endTask
  · exact h.endTask
  · exact h.discardSeat

/-! ### Memory, caches and devices -/

theorem Canon.devRead (h : Canon s.mem) {pa n} : Canon (devRead s pa n).2.mem := h

theorem Canon.storeReg (h : Canon s.mem) {r v} : Canon (s.storeReg r v).mem := by
  unfold State.storeReg
  split <;> exact h

/-- `devWrite` is unfolded as a function: where it is applied, the kernel would compute `devReg` of an open address. -/
theorem Canon.devWrite (h : Canon s.mem) {w pa v n} : (devWrite s w pa v n).All (Canon ·.mem) := by
  generalize e : @Machine.devWrite = f
  delta Machine.devWrite at e
  subst e
  beta_reduce
  split
  · exact h
  · exact .ite trivial (.ite trivial h.upd)

theorem Canon.fifoPop (h : Canon s.mem) {q b n} : (fifoPop s q b n).All (Canon ·.2.mem) := .ite .wait (.ite .bad h.setSram)

theorem Canon.pushLinks (h : Canon s.mem) {w q b off n} : Canon (s.pushLinks w q b off n).mem := h.foldl (·.writeLinks)

theorem Canon.fifoPush (h : Canon s.mem) {w q b v n} : (fifoPush s w q b v n).All (Canon ·.mem) := .ite .wait h.pushLinks.setSram

theorem Canon.readSpot (h : Canon s.mem) {p n} : (readSpot s p n).All (Canon ·.2.mem) := by
  unfold Machine.readSpot
  split
  · trivial
  · split
    · exact h.devRead
    · exact Res.All.ite h.fifoPop (.ite Res.All.bad h)
    · exact Res.All.ite Res.All.bad h.orderByte.touch

theorem Canon.markDirty (h : Canon s.mem) {core base va n} : Canon (s.markDirty core base va n).mem := by
  unfold State.markDirty
  split
  · split
    · exact .ite h.setSeat? h
    · exact h
  · exact h

theorem Canon.writeSpot (h : Canon s.mem) {w va p v n} : (writeSpot s w va p v n).All (Canon ·.mem) := by
  unfold Machine.writeSpot
  split
  · trivial
  · split
    · exact h.devWrite
    · exact .ite h.fifoPush h.poke
    · exact h.poke.markDirty.touch

theorem Canon.accessOne (h : Canon s.mem) {s0 c t x a act} (hact : ∀ {t p a}, Canon t.mem → (act t p a).All (Canon ·.mem)) :
    (accessOne s0 s c t x a act).All (Canon ·.mem) := Res.all_andThen (hact h)

theorem Canon.performAll {s0 c t x act as done} (hact : ∀ {t p a}, Canon t.mem → (act t p a).All (Canon ·.mem)) (h : Canon s.mem) :
    Canon (performAll s0 c t x act as done s).1.mem := by
  induction as generalizing s done with
  | nil => exact h
  | cons a as ih =>
    unfold Machine.performAll
    split
    next he => exact ih ((h.accessOne hact).of_eq he)
    next => exact h.noteBegun
    next => exact .ite h.noteBegun h

theorem Canon.accessAll (h : Canon s.mem) {c t x act as} (hact : ∀ {t p a}, Canon t.mem → (act t p a).All (Canon ·.mem)) :
    Canon (s.accessAll c t x act as).1.mem := .performAll hact h

theorem Canon.scalarAccess (h : Canon s.mem) {c t x as act} (hact : ∀ {t x y}, Canon t.mem → (act t x y).All (Canon ·.mem)) :
    Canon (scalarAccess s c t x as act).1.mem := by
  unfold Machine.scalarAccess
  split
  · exact h
  · exact h
  · exact h.accessAll hact

theorem Canon.flushLate (h : Canon s.mem) {c l} : Canon (s.flushLate c l).mem := by
  rw [State.flushLate_mem]
  exact h

theorem Canon.retire (h : Canon s.mem) : Canon s.retire.mem := .ite h.setPart.flushLate h.setPart

theorem Canon.jumpTo (h : Canon s.mem) {target} : Canon (s.jumpTo target).mem := h.setPart.flushLate

theorem Canon.waitOn (h : Canon s.mem) {w} : Canon (s.waitOn w).mem := h.modPart

theorem Canon.stopControl (h : Canon s.mem) {a cause tval epc} : Canon (s.stopControl a cause tval epc).mem := h.setSeat.logError

theorem Canon.enterHandler (h : Canon s.mem) {a cause tval epc xidx} : Canon (s.enterHandler a cause tval epc xidx).mem := h.setSeat

theorem Canon.takeTrap (h : Canon s.mem) {a cause tval epc xidx} : Canon (s.takeTrap a cause tval epc xidx).mem := by
  unfold State.takeTrap
  extract_lets t p s1
  have h1 : Canon s1.mem := h.flushLate.dropLinks
  exact .ite (.ite h1.stopControl h1.enterHandler) (.ite h1.failSeat h1.enterHandler)

theorem Canon.notePoison (h : Canon s.mem) {pane cause tval} : Canon (s.notePoison pane cause tval).mem := .ite h.modCore.logError h

theorem Canon.suspectNow (h : Canon s.mem) : Canon s.suspectNow.mem := by
  unfold State.suspectNow
  split
  · exact h.modSeat
  · exact h

theorem Canon.repairView (h : Canon s.mem) {va} : InSome (s.repairView va) := by
  refine InSome.bind (InSome.map ?_)
  intro v
  extract_lets off src
  split
  · exact h.waitOn
  · exact h.pokeBytes.setPoison.setSeat

theorem Canon.trapSingle (h : Canon s.mem) {cause tval} : Canon (s.trapSingle cause tval).mem := by
  unfold State.trapSingle
  split
  next he => exact (InSome.ite h.repairView .none).of_eq he
  · exact h.notePoison.takeTrap

theorem Canon.finishSingle {r : State × Done} (h : Canon r.1.mem) : InNext (finishSingle r) := by
  unfold Machine.finishSingle
  split
  · exact h.retire
  · exact h.trapSingle
  · exact h.waitOn

theorem Canon.perBank (h : Canon s.mem) {f} : InNext (s.perBank f) := h.onActive.retire

theorem Canon.setReg (h : Canon s.mem) {d f} : InNext (s.setReg d f) := h.perBank

theorem Canon.afterSlot {t : State} (h : Canon s.mem) (ht : Canon t.mem) {cb target} : InNext (afterSlot s cb target t) := by
  unfold Machine.afterSlot
  split
  · exact ht
  · exact h.trapSingle
  · exact h.waitOn

theorem Canon.transfer (h : Canon s.mem) {target link} (hlink : ∀ {t}, Canon t.mem → Canon (link t).mem) : InNext (transfer s target link) :=
  h.afterSlot (hlink h).jumpTo

theorem Canon.appendEcho (h : Canon s.mem) {l t v} : Canon (s.appendEcho l t v).mem :=
  h.foldl fun ht => by
    split
    · exact ht.setSeat?
    · exact ht

theorem Canon.passEcho (h : Canon s.mem) : Canon s.passEcho.mem := h.modSeat

theorem Canon.echoed (h : Canon s.mem) {mk} (hmk : ∀ {t}, Canon t.mem → Canon (mk t).2.mem) : (s.echoed mk).All (Canon ·.2.mem) := by
  unfold State.echoed
  split
  · exact hmk h
  · split
    · exact h.passEcho
    · exact Res.All.ite (hmk h).appendEcho.passEcho Res.All.wait

theorem Canon.echoInto {d mk bs} {s0 : State} (h0 : Canon s0.mem) (hmk : ∀ {b t}, Canon t.mem → Canon (mk b t).2.mem) (h : Canon s.mem) :
    Canon (echoInto s0 d mk bs s).1.mem := by
  induction bs generalizing s with
  | nil => exact h
  | cons b bs ih =>
    unfold Machine.echoInto
    split
    next he => exact ih ((h.echoed hmk).of_eq he).modBank
    next => exact h0
    next => exact h0

theorem Canon.atDepth0 (h : Canon s.mem) {r} (hr : InNext r) : InNext (atDepth0 s r) := .ite hr h.trapSingle

theorem Canon.execSmine (h : Canon s.mem) {o} : InNext (execSmine o s) := by
  unfold Machine.execSmine
  split
  · exact h.trapSingle
  · exact h.onActive.modPart.retire

theorem Canon.roundingOp (h : Canon s.mem) {d f} : InNext (roundingOp s d f) := .ite h.trapSingle h.perBank

theorem Canon.plainOp (h : Canon s.mem) {d f} : InNext (plainOp s d f) := h.perBank

theorem Canon.flushParts {core ps} (h : Canon s.mem) : Canon (s.flushParts core ps).mem := by
  induction ps generalizing s with
  | nil => exact h
  | cons p ps ih =>
    unfold State.flushParts
    split
    · exact ih h.flushLate
    · exact ih h

theorem Canon.afterRelease (h : Canon s.mem) : Canon s.afterRelease.mem := by
  unfold State.afterRelease
  extract_lets t
  split
  · exact h
  · exact h.modBanks.modSeat

theorem Canon.finishRelease {r : State × Done} (h : Canon r.1.mem) : InNext (finishRelease r) := by
  unfold Machine.finishRelease
  split
  · exact h.retire.afterRelease
  · exact h.trapSingle
  · exact h.waitOn

theorem Canon.holdForVote (h : Canon s.mem) {r kind recs} : Canon (s.holdForVote r kind recs).mem := h.modSeat.waitOn

theorem Canon.withRelease (h : Canon s.mem) {kind recs body} (hbody : ∀ {x}, Canon (body x).1.mem) : InNext (withRelease s kind recs body) := by
  unfold Machine.withRelease
  split
  · exact hbody.finishSingle
  · split
    · exact .ite h.waitOn hbody.finishRelease
    · split
      · exact h.waitOn
      · exact h.holdForVote

/-! ### Instructions that work element by element -/

/-- Every instruction of an element phase keeps the memory canonical. -/
def AllKeep (os : List ElemOp) : Prop := ∀ o ∈ os, o.Keeps

theorem AllKeep.head {o : ElemOp} {os : List ElemOp} (k : AllKeep (o :: os)) : o.Keeps := k o (.head os)

theorem AllKeep.tail {o : ElemOp} {os : List ElemOp} (k : AllKeep (o :: os)) : AllKeep os := fun x hx => k x (.tail o hx)

theorem Canon.retireLane (h : Canon s.mem) {b i} : Canon (s.retireLane b i).mem := .ite h.modCore.logError.raiseHealth h.modCore.logError

theorem Canon.noteMismatch (h : Canon s.mem) {b i retire} : Canon (s.noteMismatch b i retire).mem := .ite h.modCore.retireLane h.modCore

theorem Canon.selfCheck (h : Canon s.mem) {hit go} (hgo : ∀ {t}, Canon t.mem → InElem (go t)) : InElem (s.selfCheck hit go) := by
  unfold State.selfCheck
  split
  · exact hgo h
  · exact .ite (hgo h) (.ite (hgo h.noteMismatch) (.ite (hgo h.noteMismatch) InElem.stop))

theorem Canon.reopenUses {us} (h : Canon s.mem) : Canon (reopenUses s us).mem := by
  induction us generalizing s with
  | nil => exact h
  | cons u us ih => exact ih (.ite h.modBank h)

theorem Canon.phaseChecks {os} (h : Canon s.mem) : Canon (phaseChecks os s).1.mem := by
  induction os generalizing s with
  | nil => exact h
  | cons o os ih =>
    unfold Machine.phaseChecks
    split
    · exact h
    · split
      · exact h
      · split
        · exact h
        · exact ih h.reopenUses

theorem Canon.phaseStep {os e} {t : State} (k : AllKeep os) (h : Canon s.mem) (he : phaseStep e os s = .ok t) : Canon t.mem := by
  induction os generalizing s with
  | nil =>
    cases he
    exact h
  | cons o os ih =>
    unfold Machine.phaseStep at he
    split at he
    · split at he
      next hs => exact ih k.tail ((k.head.step h).of_eq hs) he
      next => cases he
    · exact ih k.tail h he

theorem Canon.phaseLoop {os fuel e} (k : AllKeep os) (h : Canon s.mem) : Canon (phaseLoop os fuel e s).1.mem := by
  induction fuel generalizing s e with
  | zero => exact h
  | succ fuel ih =>
    unfold Machine.phaseLoop
    split
    next he => exact ih (.phaseStep k h he)
    next => exact h

theorem Canon.phaseRun (h : Canon s.mem) {os fuel e} (k : AllKeep os) : Canon (phaseRun os fuel e s).1.mem := by
  unfold Machine.phaseRun
  split
  next he => exact (Canon.phaseLoop k h).of_fst he
  next he =>
    split
    · exact .phaseLoop k h
    · exact (Canon.phaseLoop k h).of_fst he

theorem Canon.wholeActs {os} (k : AllKeep os) (h : Canon s.mem) : InElem (wholeActs os s) := by
  induction os generalizing s with
  | nil => exact h
  | cons o os ih =>
    unfold Machine.wholeActs
    split
    next he => exact ih k.tail ((k.head.act h).of_eq he)
    next => trivial

theorem AllKeep.earlyWhole {os : List ElemOp} (k : AllKeep os) : AllKeep (earlyWhole os) :=
  fun o ho => k o ((List.takeWhile_prefix _).subset (List.mem_of_mem_filter ho))

theorem AllKeep.lateWhole {os : List ElemOp} (k : AllKeep os) : AllKeep (lateWhole os) :=
  fun o ho => k o ((List.dropWhile_suffix _).subset (List.mem_of_mem_filter ho))

theorem Canon.phaseFins {os e} (k : AllKeep os) (h : Canon s.mem) : Canon (phaseFins e os s).mem := by
  induction os generalizing s with
  | nil => exact h
  | cons o os ih => exact ih k.tail (k.head.fin h)

theorem Canon.runPhase (h : Canon s.mem) {os limit} (k : AllKeep os) : Canon (runPhase os limit s).1.mem := by
  unfold Machine.runPhase
  extract_lets anyWhole
  split
  · exact h
  next hc =>
    have h1 := h.phaseChecks.of_fst hc
    split
    · exact h
    next he =>
      have h2 := (Canon.wholeActs k.earlyWhole h1).of_eq he
      split
      next hr =>
        split
        · exact h
        · exact .phaseFins k ((h2.phaseRun k).of_fst hr)
      next hr =>
        have h3 := (h2.phaseRun k).of_fst hr
        split
        · exact .phaseFins k h3
        · split
          · exact h
          next hl => exact .phaseFins k ((Canon.wholeActs k.lateWhole h3).of_eq hl)

theorem Canon.phaseOver (h : Canon s.mem) : Canon s.phaseOver.mem := .ite h.setPart.flushLate h.setPart

theorem Canon.addLate (h : Canon s.mem) {b r v} : Canon (s.addLate b r v).mem := by
  unfold State.addLate
  split
  · exact h.modBank
  · exact h.modPart

theorem Canon.cutAt (h : Canon s.mem) {e} : Canon (s.cutAt e).mem := h.modPart

theorem Canon.withVl (h : Canon s.mem) {e} : Canon (s.withVl e).mem := h.modPart

theorem Canon.runCut (h : Canon s.mem) {mk limit} (k : ∀ s, AllKeep (mk s)) : Canon (runCut mk limit s).1.mem := by
  unfold Machine.runCut
  split
  · extract_lets vl
    split
    next he => exact ((h.withVl.runPhase (k _)).of_fst he).withVl
    next he => exact ((h.withVl.runPhase (k _)).of_fst he).withVl
  · exact h.runPhase (k s)

theorem Canon.phaseAt (h : Canon s.mem) {e} : Canon (s.phaseAt e).mem := h.modPart

theorem Canon.machineCheck (h : Canon s.mem) {b i epc xidx} : Canon (s.machineCheck b i epc xidx).mem := h.suspectNow.logError.takeTrap

theorem Canon.phaseStop (h : Canon s.mem) {e x} : Canon (s.phaseStop e x).mem := by
  unfold State.phaseStop
  extract_lets epc
  split
  · split
    next he =>
      split
      · exact ((InSome.ite h.repairView .none).of_eq he).phaseAt
      · exact (InSome.ite h.repairView .none).of_eq he
    · exact h.notePoison.modPart.takeTrap
  · exact h.notePoison.modPart.takeTrap
  · split
    · exact h.phaseAt.waitOn
    · exact h.waitOn
  · exact h.cutAt.phaseOver
  · exact h.noteMismatch.modPart.machineCheck

theorem Canon.finishPhase {r} (hr : Canon r.1.mem) : Canon (finishPhase r).mem := by
  unfold Machine.finishPhase
  split
  · exact hr.phaseOver
  · exact hr.phaseAt.modPart
  · exact hr.phaseStop
  · exact hr.phaseStop

theorem Canon.elemPhase (h : Canon s.mem) {mk} (k : ∀ s, AllKeep (mk s)) : Canon (elemPhase mk s).mem := by
  have hc : Canon (Machine.runCut mk none s).1.mem := h.runCut k
  unfold Machine.elemPhase
  split
  · split
    · exact h.waitOn
    · exact h.waitOn
    · split
      · exact hc.finishPhase
      · split
        · exact h.waitOn
        · exact h.holdForVote
    · exact hc.finishPhase
  · extract_lets x
    split
    · exact hc.finishPhase
    · exact hc.finishPhase
    · exact .ite hc.finishPhase.afterRelease hc.finishPhase

theorem Canon.elemAlone (h : Canon s.mem) {o : State → ElemOp} (k : ∀ t, (o t).Keeps) : InNext (elemAlone o s) :=
  h.elemPhase fun t _ hx => List.mem_singleton.1 hx ▸ k t

theorem InElem.elementOp {t : State} {v m n i} {body : Nat → Nat → Nat → State → Elem} (h : Canon t.mem)
    (hb : ∀ {b j}, InElem (body i b j t)) : InElem ((elementOp s v body m n).step i t) := by
  dsimp only [Machine.elementOp]
  split
  · exact hb
  · exact h

theorem Canon.escape (h : Canon s.mem) {v i b j} : Canon (s.escape v i b j).mem := by
  unfold State.escape
  split
  · exact h
  · split
    · extract_lets s1
      have h1 : Canon s1.mem := h.modCore
      split
      · exact h1.modBank
      · exact h1
    · exact h

theorem InElem.delivered {r : Elem} (hr : InElem r) {v i b j} : InElem (r.delivered v i b j) := by
  cases r with
  | ok t => exact hr.escape
  | stop x => trivial

theorem InElem.vectorOp {t : State} {v m n i} {body : Nat → Nat → Nat → State → Elem} (h : Canon t.mem)
    (hb : ∀ {i b j t}, Canon t.mem → InElem (body i b j t)) : InElem ((vectorOp s v body m n).step i t) :=
  .elementOp h (h.selfCheck hb).delivered

theorem ElemOp.Keeps.vectorOp {v m n} {body : Nat → Nat → Nat → State → Elem} (hb : ∀ {i b j t}, Canon t.mem → InElem (body i b j t)) :
    (vectorOp s v body m n).Keeps where
  step h := .vectorOp h hb
  act h := h
  fin h := h

/-! ### Scalar, lane and memory instructions -/

theorem InElem.unlessPoison {xs} {k : Elem} (hk : InElem k) : InElem (unlessPoison s xs k) := by
  unfold Machine.unlessPoison
  split
  · trivial
  · exact hk

theorem Canon.putElem (h : Canon s.mem) {b bits w j r} : Canon (s.putElem b bits w j r).mem := h.modBank

theorem ElemOp.Keeps.binaryOp {v o unsigned f} : (binaryOp v o unsigned f s).Keeps := .vectorOp fun h => .unlessPoison h.putElem

theorem ElemOp.Keeps.unaryOp {v o f} : (unaryOp v o f s).Keeps := .vectorOp fun h => .unlessPoison h.putElem

theorem Canon.putMask (h : Canon s.mem) {b md j v f} : Canon (s.putMask b md j v f).mem := h.modBank

theorem ElemOp.Keeps.compareOp {v o c} : (compareOp v o c s).Keeps := .vectorOp fun h => .unlessPoison h.putMask

theorem ElemOp.Keeps.logicOp {v o f} : (logicOp v o f s).Keeps := .vectorOp fun h => h.putMask

theorem ElemOp.Keeps.wholeOp {v o act} (ha : ∀ {t}, Canon t.mem → InElem (act t)) : (wholeOp s v o act).Keeps where
  step h := by
    dsimp only [Machine.wholeOp]
    exact .elementOp h h
  act h := .ite h (h.selfCheck ha)
  fin h := h

theorem Canon.lateAll {r v bs} (h : Canon s.mem) : Canon (s.lateAll r v bs).mem := by
  induction bs generalizing s with
  | nil => exact h
  | cons b bs ih => exact ih h.addLate

theorem ElemOp.Keeps.mpopcOp {o} : (mpopcOp o s).Keeps := .wholeOp fun h => h.lateAll

theorem ElemOp.Keeps.mfirstOp {o} : (mfirstOp o s).Keeps := .wholeOp fun h => h.lateAll

theorem ElemOp.Keeps.vselOp {o} : (vselOp o s).Keeps := .vectorOp fun h => .ite (.unlessPoison h.putElem) (.unlessPoison h.putElem)

theorem ElemOp.Keeps.vbcastOp {o} : (vbcastOp o s).Keeps := .vectorOp fun h => h.putElem

theorem ElemOp.Keeps.slideOp {o up} : (slideOp o up s).Keeps where
  step h := by
    dsimp only [Machine.slideOp]
    exact .vectorOp h fun h => .ite (.ite h (.ite (.unlessPoison h.putElem) h)) (.ite h.putElem (.ite (.unlessPoison h.putElem) h))
  act h := h
  fin h := h

theorem Canon.pick (h : Canon s.mem) {i} : Canon (s.pick i).mem := h.modPart

theorem Canon.unpick (h : Canon s.mem) : Canon s.unpick.mem := h.modPart

theorem ElemOp.Keeps.picking {x : ElemOp} (k : x.Keeps) : x.picking.Keeps where
  step h := k.step (.ite h.unpick h)
  act := k.act
  fin := k.fin

theorem ElemOp.Keeps.vcompressOp {o} : (vcompressOp o s).Keeps where
  step h := by
    dsimp only [Machine.vcompressOp, ElemOp.picking]
    exact .vectorOp (.ite h.unpick h) fun h => .unlessPoison h.putElem.pick
  act h := h
  fin h := h

theorem ElemOp.Keeps.vidxOp {o} : (vidxOp o s).Keeps := .vectorOp fun h => h.putElem

theorem ElemOp.Keeps.vcvtOp {o} : (vcvtOp o s).Keeps := .vectorOp fun h => .unlessPoison h.putElem

theorem ElemOp.Keeps.vwfmaOp {o} : (vwfmaOp o s).Keeps := .vectorOp fun h => .unlessPoison h.putElem

theorem ElemOp.Keeps.vdotOp {o} : (vdotOp o s).Keeps := .vectorOp fun h => .unlessPoison h.putElem

theorem Canon.vqencBlock (h : Canon s.mem) {o s0 i b l js} : InElem (vqencBlock o s0 i b l js s) := by
  unfold Machine.vqencBlock
  exact h.selfCheck fun ht => .unlessPoison (ht.foldl (·.putElem)).putElem

theorem ElemOp.Keeps.vqencOp {o} : (vqencOp o s).Keeps := by
  refine .picking ⟨fun {e t} h => ?_, fun h => h, fun h => h⟩
  extract_lets base
  dsimp -zeta only
  extract_lets b s1
  have h1 : Canon s1.mem := .ite h.pick h
  refine .ite h1 (.ite h1.unpick ?_)
  split
  next he => exact (h1.vqencBlock.of_eq he).unpick
  next => trivial

theorem ElemOp.Keeps.vqdecOp {o} : (vqdecOp o s).Keeps := .vectorOp fun h => .unlessPoison h.putElem

theorem ElemOp.Keeps.reduceOp {o f} : (reduceOp o f s).Keeps := .wholeOp fun h => by
  split
  · trivial
  · exact h.modBank.lateAll

theorem ElemOp.Keeps.vgmaxOp {o} : (vgmaxOp o s).Keeps where
  step h := by
    dsimp only [Machine.vgmaxOp, Machine.wholeOp]
    exact .elementOp h h
  act h := by
    refine .ite h (h.selfCheck fun h => ?_)
    split
    · trivial
    · exact h.foldl (·.putElem.modBank)
  fin h := h

theorem Canon.scanList {t mode sat wd bits xs y} (h : Canon s.mem) : Canon (scanList t mode sat wd bits xs y s).mem := by
  induction xs generalizing s y with
  | nil => exact h
  | cons x xs ih => exact ih h.putElem

theorem ElemOp.Keeps.vscanOp {o} : (vscanOp o s).Keeps := .wholeOp fun h => by
  split
  · trivial
  · exact h.scanList

theorem Canon.execRel (h : Canon s.mem) : InNext (execRel s) := h.withRelease h

theorem Canon.execClaim (h : Canon s.mem) : InNext (execClaim s) := by
  unfold Machine.execClaim
  extract_lets t
  split
  · exact h.trapSingle
  · split
    · exact h.trapSingle
    · split
      · exact h.waitOn
      · exact h.modBanks.dropLinks.modSeat.retire

theorem Canon.linkTo (h : Canon s.mem) {d} : Canon (linkTo d s).mem := h.onActive

theorem Canon.transferReg (h : Canon s.mem) {a link} (hlink : ∀ {t}, Canon t.mem → Canon (link t).mem) : InNext (transferReg s a link) :=
  .ite h.trapSingle (h.transfer hlink)

theorem Canon.branchIf (h : Canon s.mem) {taken off} : InNext (branchIf s taken off) := .ite (h.transfer id) h.retire

theorem Canon.divide (h : Canon s.mem) {id taken target} : Canon (s.divide id taken target).mem := h.modSeat.flushLate

theorem Canon.execSplit (h : Canon s.mem) {id c a b off} : InNext (execSplit id c a b off s) := by
  unfold Machine.execSplit
  exact .ite h.trapSingle (.ite h.divide (h.afterSlot h.divide))

theorem Canon.merge (h : Canon s.mem) {x other} : Canon (s.merge x other).mem := h.setSeat.flushLate.flushLate

theorem Canon.execSjoin (h : Canon s.mem) {id} : InNext (execSjoin id s) := by
  unfold Machine.execSjoin
  split
  · exact h.trapSingle
  · split
    · exact h.trapSingle
    · split
      · exact h.merge
      · split
        · exact h.merge
        · exact h.waitOn

theorem Canon.execGetc (h : Canon s.mem) {d idx} : InNext (execGetc d idx s) := by
  unfold Machine.execGetc
  split
  · exact h.trapSingle
  · split
    · split
      next he => exact ((h.echoed (·.freeWord)).of_eq he).onActive.retire
      · exact h.waitOn
      · exact h.trapSingle
    · exact h.onActive.retire

theorem Canon.execSetc (h : Canon s.mem) {d idx} : InNext (execSetc d idx s) := by
  unfold Machine.execSetc
  split
  · exact h.trapSingle
  · exact h.onActive.modSeat.modPart.retire

theorem Canon.reopenParked {n bs} (h : Canon s.mem) : Canon (s.reopenParked n bs).mem := by
  induction bs generalizing s with
  | nil => exact h
  | cons b bs ih => exact ih (.ite h.modBank h)

theorem Canon.eachBank {bs f} (h : Canon s.mem) (hf : ∀ {b t}, Canon t.mem → Canon (f b t).mem) : Canon (eachBank f bs s).mem := by
  induction bs generalizing s with
  | nil => exact h
  | cons b bs ih => exact ih (hf h)

theorem Canon.beginBanks (h : Canon s.mem) {n gate plan bs one} (hone : ∀ {x y t}, Canon t.mem → Canon (one x y t).mem) :
    Canon (beginBanks s n gate plan bs one).mem := by
  unfold Machine.beginBanks
  extract_lets ready s1
  have h1 : Canon s1.mem := h.eachBank hone
  split
  · exact h1.retire
  · exact h1.noteBegun.modPart.waitOn

theorem Canon.paneCommand (h : Canon s.mem) {n gate reopen extra plan one} (hone : ∀ {x y t}, Canon t.mem → Canon (one x y t).mem) :
    InNext (paneCommand s n gate reopen extra plan one) := by
  unfold Machine.paneCommand
  extract_lets rest s1
  have h1 : Canon s1.mem := .ite h.reopenParked h
  split
  · exact h1.beginBanks hone
  · split
    · exact h.waitOn
    · split
      · exact h1.trapSingle
      · split
        · exact h1.trapSingle
        · split
          · exact h.waitOn
          · exact h1.beginBanks hone

theorem Canon.rowCommand (h : Canon s.mem) {a checks go} (hgo : InNext go) : InNext (rowCommand s a checks go) := by
  unfold Machine.rowCommand
  split
  · exact hgo
  · split
    · exact h.trapSingle
    · split
      · exact h.trapSingle
      · exact h.waitOn
      · exact hgo

theorem Canon.findErrors (h : Canon s.mem) {b n} : Canon (s.findErrors b n).mem := (Canon.ite h h.modCore).foldl (·.modBank.logError)

theorem Canon.ownRow (h : Canon s.mem) {pa} : Canon (s.ownRow pa).mem := h.orderByte

theorem Canon.writePane (h : Canon s.mem) {b n img} : Canon (s.writePane b n img).mem := h.writeRow.markDirty.setPane.touch

theorem Canon.copyRow (h : Canon s.mem) {w dst src} : Canon (s.copyRow w dst src).mem := h.ownRow.writeRow

theorem Canon.execRcopy (h : Canon s.mem) {n a src} : InNext (execRcopy n a src s) := by
  unfold Machine.execRcopy
  exact h.rowCommand (h.paneCommand (·.copyRow.markDirty.setPane.touch.touch))

theorem Canon.echoedRead (h : Canon s.mem) {rd} (hrd : rd.All (Canon ·.2.mem)) : (echoedRead s rd).All (Canon ·.2.mem) := by
  unfold Machine.echoedRead
  split
  · exact hrd
  · split
    · exact h.passEcho
    · exact Res.All.ite (hrd.andThen (·.appendEcho.passEcho)) Res.All.wait

theorem Canon.readMarked (h : Canon s.mem) {p n} : (readMarked s p n).All (Canon ·.2.mem) := .ite (h.echoedRead h.readSpot) h.readSpot

theorem Canon.loadAct (h : Canon s.mem) {d sgn n p a} : (loadAct d sgn n s p a).All (Canon ·.mem) := h.readMarked.andThen (·.modBank)

theorem Canon.load (h : Canon s.mem) {d a imm sgn n} : InNext (load s d a imm sgn n) := (h.scalarAccess (·.loadAct)).finishSingle

theorem Canon.loadAcqAct (h : Canon s.mem) {d n p a} : (loadAcqAct d n s p a).All (Canon ·.mem) := h.loadAct.andThen (·.orderPath)

theorem Canon.loadAcq (h : Canon s.mem) {d a imm n} : InNext (loadAcq s d a imm n) := (h.scalarAccess (·.loadAcqAct)).finishSingle

theorem Canon.storeAct (h : Canon s.mem) {n p a} : (storeAct n s p a).All (Canon ·.mem) := h.writeSpot

theorem Canon.store (h : Canon s.mem) {d a imm n} : InNext (store s d a imm n) := (h.scalarAccess (·.storeAct)).finishSingle

theorem Canon.writeHome (h : Canon s.mem) {w va p v n} : (writeHome s w va p v n).All (Canon ·.mem) := by
  unfold Machine.writeHome
  split
  · extract_lets pas
    split
    · trivial
    · exact h.foldl (·.poke)
  · exact h.writeSpot

theorem Canon.storeRelAct (h : Canon s.mem) {perform n p a} : (storeRelAct perform n s p a).All (Canon ·.mem) :=
  .ite (h.writeHome.andThen (·.orderPath)) h

theorem Canon.storeRel (h : Canon s.mem) {d a imm f n} : InNext (storeRel s d a imm f n) := by
  unfold Machine.storeRel
  extract_lets as
  split
  · exact h.waitOn
  · split
    · exact h.trapSingle
    · exact h.waitOn
    · exact h.withRelease (h.accessAll (·.storeRelAct))

theorem Canon.shareEcho (h : Canon s.mem) {v} : Canon (s.shareEcho v).mem := .ite h.appendEcho.passEcho h

theorem Canon.amoFinds (h : Canon s.mem) {cc p old} : Canon (s.amoFinds cc p old).2.2.mem := by
  unfold State.amoFinds
  split
  · exact h
  · extract_lets lost mine
    split <;> exact h.freeBool.freeBool

theorem Canon.noteAmo (h : Canon s.mem) {cc p old new} : Canon (s.noteAmo cc p old new).mem := h

theorem Canon.amoAct (h : Canon s.mem) {op d b perform p a} : (amoAct op d b perform s p a).All (Canon ·.mem) := by
  unfold Machine.amoAct
  extract_lets x
  exact .ite (h.orderByte.readSpot.andThen (·.amoFinds.writeHome.andThen (·.modBank.shareEcho.noteAmo)))
    ((h.echoedRead Res.All.wait).andThen (·.modBank))

theorem Canon.atomic (h : Canon s.mem) {op d a b} : InNext (atomic s op d a b) := by
  unfold Machine.atomic
  extract_lets as
  split
  · exact h.trapSingle
  · exact h.waitOn
  · exact h.withRelease (h.accessAll (·.amoAct))

theorem Canon.popAct (h : Canon s.mem) {s0 a p x} : (popAct s0 a s p x).All (Canon ·.mem) := h.readMarked.andThen (·.modBank)

theorem Canon.stackOp (h : Canon s.mem) {isPush a b} : InNext (stackOp s isPush a b) := by
  unfold Machine.stackOp
  extract_lets n as r
  have hr : Canon r.1.mem := by
    dsimp only [r]
    split
    · exact h.scalarAccess (·.storeAct)
    · exact h.scalarAccess (·.popAct)
  split
  · exact h.trapSingle
  · split
    · exact h.trapSingle
    · split
      · exact hr.onActive.retire
      · exact h.trapSingle
      · exact hr.waitOn

theorem Canon.withOwnClaim (h : Canon s.mem) {α : Type} {keep pa} {f : State → Res (α × State)}
    (hf : ∀ {t}, Canon t.mem → (f t).All (Canon ·.2.mem)) : (withOwnClaim s keep pa f).All (Canon ·.2.mem) := by
  unfold Machine.withOwnClaim
  split
  · exact .ite ((hf h.evict).andThen (·.modBank)) (hf h)
  · exact hf h

theorem InElem.elemFail {i b va load k} : InElem (elemFail s i b va load k) := .ite trivial trivial

theorem Canon.readElem (h : Canon s.mem) {o keep p i} : (readElem s o keep p i).All (Canon ·.2.mem) :=
  h.withOwnClaim fun ht => ht.readMarked.andThen id

theorem Canon.writeElem (h : Canon s.mem) {o keep b va p i v} : (writeElem s o keep b va p i v).All (Canon ·.mem) :=
  (h.withOwnClaim fun ht => ht.writeSpot.andThen id).andThen id

theorem InElem.elemOut {i b va load} {r : Res State} (hr : r.All (Canon ·.mem)) : InElem (elemOut s i b va load r) := by
  cases r with
  | ok t => exact hr
  | bad => exact .elemFail
  | wait => trivial

theorem Canon.noteStored (h : Canon s.mem) {x} : Canon (s.noteStored x).mem := .ite h.modPart h

theorem Canon.clearCovered (h : Canon s.mem) : Canon s.clearCovered.mem := h.foldl (fun ht => .ite ht.setPoison ht)

theorem Canon.readsFrom (h : Canon s.mem) {link pa n} : Canon (s.readsFrom link pa n).mem := .ite h.orderByte h

theorem ElemOp.Keeps.loadOp {v o md fifo link} : (loadOp s v o md fifo link).Keeps where
  step h := by
    dsimp only [Machine.loadOp]
    refine .elementOp h (.unlessPoison (.elemOut (Res.all_andThen (h.readsFrom.readElem.andThen fun h => ?_))))
    exact Canon.ite h h
  act h := h
  fin h := h

theorem ElemOp.Keeps.storeOp {v o md fifo} : (storeOp s v o md fifo).Keeps where
  step h := by
    dsimp only [Machine.storeOp]
    exact .elementOp h (.unlessPoison (.elemOut (Res.all_andThen (h.writeElem.andThen (·.noteStored)))))
  act h := h
  fin h := h.clearCovered

theorem Canon.vstbPut {o keep b v i ks} (h : Canon s.mem) : (vstbPut o keep b v i ks s).All (Canon ·.mem) := by
  induction ks generalizing s with
  | nil => exact h
  | cons k ks ih =>
    refine Res.all_andThen (Res.All.andThen (Q := (Canon ·.mem)) ?_ ih)
    exact (h.withOwnClaim fun ht => ht.writeSpot.andThen id).andThen (·.noteStored)

theorem ElemOp.Keeps.vstbOp {o} : (vstbOp o s).Keeps where
  step h := by
    dsimp only [Machine.vstbOp]
    refine .elementOp h (.ite h (.unlessPoison ?_))
    split
    · trivial
    · trivial
    · exact .elemOut h.vstbPut
  act h := h
  fin h := h.clearCovered

theorem Canon.clearLinks (h : Canon s.mem) : Canon s.clearLinks.mem := h.dropLinks

theorem ElemOp.Keeps.vldlOp {o} : (vldlOp o s).Keeps where
  step h := ElemOp.Keeps.loadOp.step (.ite h.clearLinks h)
  act h := h
  fin h := h

theorem Canon.unlink (h : Canon s.mem) {b j} : Canon (s.unlink b j).mem := h

theorem Canon.breakLinks (h : Canon s.mem) {pa n} : Canon (s.breakLinks pa n).mem := h

theorem Canon.vstcFail (h : Canon s.mem) {keep va p go} (hgo : ∀ {t}, Canon t.mem → Canon (go t).mem) :
    (vstcFail s keep va p go).All (Canon ·.mem) := by
  unfold Machine.vstcFail
  split
  · split
    · trivial
    · exact hgo h
  · refine (h.withOwnClaim fun ht => ?_).andThen id
    split
    · trivial
    · exact hgo ht

theorem Canon.vstcPerform (h : Canon s.mem) {o keep b j va p i v} : (vstcPerform s o keep b j va p i v).All (Canon ·.mem) := by
  unfold Machine.vstcPerform
  split
  · split
    · split
      · exact h.writeHome.andThen (·.breakLinks.unlink.putMask.shareEcho.noteStored)
      · exact h.writeElem.andThen (·.breakLinks.unlink.putMask.shareEcho.noteStored)
    · exact h.vstcFail (·.unlink.putMask.shareEcho)
  · exact h.vstcFail (·.putMask.shareEcho)

theorem Canon.vstcFollow (h : Canon s.mem) {o b j} : (vstcFollow s o b j).All (Canon ·.mem) :=
  (h.echoedRead .wait).andThen (·.unlink.putMask)

theorem Canon.noteRecord (h : Canon s.mem) {va v} : Canon (s.noteRecord va v).mem := .ite h.modPart h

theorem ElemOp.Keeps.vstcOp {o} : (vstcOp o s).Keeps where
  step h := by
    dsimp only [Machine.vstcOp]
    exact .elementOp h (.unlessPoison (.elemOut (Res.all_andThen ((Res.All.ite h.vstcPerform h.vstcFollow).andThen (·.noteRecord)))))
  act h := h
  fin h := h.clearCovered

theorem ElemOp.Keeps.vspillOp {o} : (vspillOp o s).Keeps where
  step h := (ElemOp.Keeps.storeOp (fifo := false)).step h
  act h := h
  fin h := h.clearCovered

theorem Canon.freeElems {f bits w l n} : ∀ {s : State} {a}, Canon s.mem → Canon (freeElems f bits w l a n s).mem := by
  induction n with
  | zero => exact id
  | succ n ih => exact fun h => ih h.putElem

theorem Canon.fillRest (h : Canon s.mem) {v w evl} : Canon (fillRest v w evl s).mem := .ite h h.freeBytes.freeElems

theorem ElemOp.Keeps.vfillOp {o} : (vfillOp o s).Keeps where
  step h := ElemOp.Keeps.loadOp.step h
  act h := h
  fin h := .ite h.fillRest h

theorem ElemOp.Keeps.rshufOp {p wd ws k} : (rshufOp p wd ws k s).Keeps where
  step h := .ite h.modBank h
  act h := h
  fin h := h

/-- Every element instruction keeps the memory canonical (R98, R101). -/
theorem ElemOp.Keeps.elemOpOf {i : Instr} {f : State → ElemOp} (hf : elemOpOf i = some f) : (f s).Keeps := by
  cases i <;> cases hf
  case vadd | vsub | vmul | vfma | vfms | vfnma | vmin | vmax | vdiv | vmulh | vadds | vsubs | vand | vor | vxor | vandn | vsll | vsrl | vsra
      | vfsl | vfsr => exact .binaryOp
  case vabs | vneg | vsqrt | vrcp | vrsq | vexp2 | vlog2 | vnot | vclz | vpopc | vmov => exact .unaryOp
  case vcmpEq | vcmpNe | vcmpLt | vcmpLe | vcmpGt | vcmpGe => exact .compareOp
  case mand | mor | mxor | mnot => exact .logicOp
  case mpopc => exact .mpopcOp
  case mfirst => exact .mfirstOp
  case vsel => exact .vselOp
  case vbcast => exact .vbcastOp
  case vslideUp | vslideDn => exact .slideOp
  case vcompress => exact .vcompressOp
  case vidx => exact .vidxOp
  case vcvt => exact .vcvtOp
  case vwfma => exact .vwfmaOp
  case vdot => exact .vdotOp
  case vqenc => exact .vqencOp
  case vqdec => exact .vqdecOp
  case vredSum | vredMax | vredMin | vredAnd | vredOr => exact .reduceOp
  case vgmax => exact .vgmaxOp
  case vscan => exact .vscanOp
  case vld | vlds | vldx => exact .loadOp
  case vst | vsts | vstx => exact .storeOp
  case vstb => exact .vstbOp
  case vldl => exact .vldlOp
  case vstc => exact .vstcOp
  case vspill => exact .vspillOp
  case vfill => exact .vfillOp
  case rshufRot | rshufXor | rshufRev | rshufBcast => exact .rshufOp

theorem AllKeep.convoyOps {is} : AllKeep (convoyOps s is) := by
  intro o ho
  obtain ⟨f, hf, rfl⟩ := List.mem_map.1 ho
  obtain ⟨i, -, hi⟩ := List.mem_filterMap.1 hf
  exact .elemOpOf hi

theorem Canon.trapDecode (h : Canon s.mem) {cause tval} : Canon (s.trapDecode cause tval).mem := h.modPart.takeTrap

theorem Canon.fetched (h : Canon s.mem) {hs} : Canon (s.fetched hs).mem := h.foldl fun ht => by
    split
    · exact ht.touch
    · exact ht

theorem Canon.openConvoy (h : Canon s.mem) : InOpening (openConvoy s) := by
  unfold Machine.openConvoy
  extract_lets p
  split
  · exact h.trapDecode
  · exact h.waitOn
  · split
    · exact h.trapDecode
    · split
      · exact h.trapDecode
      · exact h.fetched.modPart

theorem Canon.ensureConvoy (h : Canon s.mem) : InOpening (ensureConvoy s) := InOpening.ite h h.openConvoy

/-! ### Tokens, matrix units, links and engines -/

theorem Canon.pickEntry (h : Canon s.mem) {sill} : Canon (s.pickEntry sill).2.mem := h.freeWord

theorem Canon.giveHandle (h : Canon s.mem) {k h' bs} : Canon (s.giveHandle k h' bs).mem := h.modBanks

theorem Canon.createOp (h : Canon s.mem) {o n} : Canon (s.createOp o n).2.mem := by
  unfold State.createOp
  extract_lets t e st h' x s0 s1 s2
  have h_e : Canon e.2.mem := h.pickEntry
  have h1 : Canon s1.mem := .ite h_e.orderPath h_e
  have h2 : Canon s2.mem := h1.setOp
  exact .ite (Canon.ite h2.upd h2.upd.giveHandle).endOp (Canon.ite h2.upd h2.upd.giveHandle).dueStart

theorem Canon.mirrorHandle (h : Canon s.mem) {k h' bs} : Canon (s.mirrorHandle k h' bs).mem := h.giveHandle.modOp

theorem Canon.createAll {t : State} {o perform ns} (h : Canon s.mem) (ht : Canon t.mem) : Canon (createAll s o perform ns t).1.mem := by
  induction ns generalizing t with
  | nil => exact ht
  | cons n ns ih =>
    unfold Machine.createAll
    split
    · exact ih (.ite ht.createOp (.ite ht.createOp.shareEcho ht.createOp))
    · split
      · exact ih ht
      · split
        next he => exact ih (((ht.echoedRead .wait).of_eq he).mirrorHandle)
        next => exact h
        next => exact h

theorem Canon.createOps (h : Canon s.mem) {i o da ns} : InNext (createOps s i o da ns) := by
  unfold Machine.createOps
  extract_lets ext
  exact .ite (h.withRelease (h.createAll h)) (h.createAll h).finishSingle

theorem Canon.perBankOp (h : Canon s.mem) {i o fields da regs mk empty} : InNext (perBankOp s i o fields da regs mk empty) := by
  unfold Machine.perBankOp
  split
  · exact h.trapSingle
  · exact h.createOps

theorem Canon.execMmma (h : Canon s.mem) {o} : InNext (execMmma o s) := by
  unfold Machine.execMmma
  split
  · exact h.atDepth0 h.trapSingle
  · exact h.atDepth0 h.reopenUses.createOps

theorem Canon.execMdrain (h : Canon s.mem) {o} : InNext (execMdrain o s) := by
  unfold Machine.execMdrain
  split
  · exact h.atDepth0 h.trapSingle
  · exact h.atDepth0 h.createOps

theorem Canon.execLaunch (h : Canon s.mem) {o} : InNext (execLaunch o s) := by
  unfold Machine.execLaunch
  split
  · exact h.trapSingle
  · exact h.createOps

theorem Canon.withTokens (h : Canon s.mem) {k body} (hbody : ∀ {x}, InNext (body x)) : InNext (withTokens s k body) :=
  .ite hbody h.trapSingle

theorem Canon.unhold (h : Canon s.mem) {h' n} : Canon (s.unhold h' n).mem := h.putOp

theorem Canon.emptyToken (h : Canon s.mem) {h'} : Canon (s.emptyToken h').mem := h.onActive.unhold

theorem Canon.emptyTokens (h : Canon s.mem) {hs} : Canon (s.emptyTokens hs).mem := h.foldl (·.emptyToken)

theorem Canon.execKwait (h : Canon s.mem) {k path scope} : InNext (execKwait k path scope s) := by
  refine h.withTokens ?_
  intro hs
  split
  · exact h.waitOn
  · split
    · exact h.trapSingle
    · exact h.emptyTokens.orderPath.retire

theorem Canon.execKwaitNt (h : Canon s.mem) {d k scope} : InNext (execKwaitNt d k scope s) := by
  refine h.withTokens ?_
  intro hs
  split
  · exact h.waitOn
  · split
    next he => exact ((h.echoInto id h).of_fst he).emptyTokens.orderAll.finishSingle
    next => exact (h.echoInto id h).finishSingle

theorem Canon.detachOp (h : Canon s.mem) {h'} : Canon (s.detachOp h').mem := .ite h (.ite h.modOp.recordFault h.modOp)

theorem Canon.adopt (h : Canon s.mem) {h' k bs} : Canon (s.adopt h' k bs).mem := .ite h.giveHandle.modOp h.giveHandle.modOp

theorem Canon.execKadopt (h : Canon s.mem) {k a} : InNext (execKadopt k a s) := by
  unfold Machine.execKadopt
  extract_lets leads hOf
  split
  · exact h.trapSingle
  · split
    · exact h.trapSingle
    · exact (h.foldl (·.adopt)).retire

theorem Canon.spillRow (h : Canon s.mem) {q p} : Canon (s.spillRow q p).mem := by
  unfold State.spillRow
  extract_lets s1
  have h1 : Canon s1.mem := h.modQuad
  split
  · exact .ite h1 h
  · exact h1.pokeImage

theorem Canon.grantRows {core base ps} (h : Canon s.mem) : Canon (s.grantRows core base ps).mem := by
  induction ps generalizing s with
  | nil => exact h
  | cons p ps ih => exact ih h.spillRow.modQuad

theorem Canon.execMattach (h : Canon s.mem) {d a} : InNext (execMattach d a s) := by
  refine h.atDepth0 (.ite ?_ h.trapSingle)
  extract_lets rows
  split
  · exact h.waitOn
  · exact h.grantRows.modSeat.onActive.retire

theorem Canon.execMdetach (h : Canon s.mem) : InNext (execMdetach s) := by
  unfold Machine.execMdetach
  split
  · exact h.atDepth0 h.retire
  · split
    · exact h.atDepth0 h.waitOn
    · exact h.atDepth0 h.releaseRows.modSeat.retire

theorem Canon.execMzero (h : Canon s.mem) {d} : InNext (execMzero d s) := by
  unfold Machine.execMzero
  split
  · exact h.atDepth0 h.trapSingle
  · split
    · exact h.atDepth0 h.waitOn
    · exact h.atDepth0 h.modQuad.retire

theorem Canon.kstep (h : Canon s.mem) {o tile wa wb ga gb shape step} : Canon (s.kstep o tile wa wb ga gb shape step).mem :=
  .ite h.setQuad.modBank h.setQuad

theorem Canon.linkEvent (h : Canon s.mem) {l} : Canon (s.linkEvent l).mem := h.bumpEvent

theorem Canon.putLink (h : Canon s.mem) {l x} : Canon (s.putLink l x).mem := .ite h.setLink.bumpEvent h.setLink

theorem Canon.failPeer (h : Canon s.mem) {n} : Canon (s.failPeer n).mem := .ite h h.setPeer.logError

theorem Canon.queuePacket (h : Canon s.mem) {l n op dst bytes done} : Canon (s.queuePacket l n op dst bytes done).mem := h.putLink

theorem Canon.formPacket (h : Canon s.mem) {l n op dst bytes done} : Canon (s.formPacket l n op dst bytes done).mem := h.queuePacket.modOp

theorem Canon.inPackets {form fuel bs} (h : Canon s.mem) (hf : ∀ {t x}, Canon t.mem → Canon (form t x).mem) :
    Canon (inPackets form fuel bs s).mem := by
  induction fuel generalizing s bs with
  | zero => exact h
  | succ fuel ih => exact .ite h (ih (hf h))

theorem Canon.pauseOp (h : Canon s.mem) {i} : Canon (s.pauseOp i).mem := .ite h.unpinOp.setOp h

theorem Canon.restOp (h : Canon s.mem) {i} : Canon (s.restOp i).mem := .ite h.pauseOp h

theorem Canon.restAll (h : Canon s.mem) : Canon s.restAll.mem := h.foldl (·.restOp)

theorem Canon.packetDone (h : Canon s.mem) {p} : Canon (s.packetDone p).mem :=
  .ite (.ite h.modOp.endOp (.ite h.modOp.pauseOp h.modOp.restOp)) h

theorem Canon.takeAck (h : Canon s.mem) {l a} : Canon (s.takeAck l a).mem := .ite (h.putLink.foldl (·.packetDone)) h.putLink

theorem Canon.abandon (h : Canon s.mem) {hs} : Canon (s.abandon hs).mem := h.foldl (fun ht => .ite ht.endOp.dropMembers ht)

theorem Canon.judgePeers (h : Canon s.mem) {l} : Canon (s.judgePeers l).mem := h.foldl (·.failPeer)

theorem Canon.failLink (h : Canon s.mem) {l} : Canon (s.failLink l).mem := by
  unfold State.failLink
  extract_lets x hs s1 s2 s3 s4
  have h1 : Canon s1.mem := h.putLink
  have h2 : Canon s2.mem := h1.abandon.linkEvent
  have h3 : Canon s3.mem := h2.logError
  have h4 : Canon s4.mem := h3.judgePeers
  exact .ite h4 (.ite h4.logError h4)

theorem Canon.serve (h : Canon s.mem) {i} : Canon (s.serve i).mem := h.modOp

theorem Canon.blockOp (h : Canon s.mem) {i w} : Canon (s.blockOp i w).mem := h.modOp

theorem Canon.touchVa (h : Canon s.mem) {o va} : Canon (s.touchVa o va).mem := by
  unfold State.touchVa
  split
  · exact .ite h.touch h
  · exact h

theorem Canon.touchVas (h : Canon s.mem) {o vas} : Canon (s.touchVas o vas).mem := h.foldl (·.touchVa)

theorem Canon.engPut (h : Canon s.mem) {o p va v n} : Canon (s.engPut o p va v n).mem := by
  have hp : Canon (s.poke none p.pa v n).mem := h.poke
  unfold State.engPut
  exact .ite h (.ite hp.upd.touch.markDirty hp.upd.touch)

theorem Canon.settlePoison (h : Canon s.mem) {i ws} : Canon (s.settlePoison i ws).mem := by
  unfold State.settlePoison
  exact h.foldl (fun ht => by
    extract_lets old now
    split
    · exact .ite ht (.ite ht.modOp.setPoison (.ite ht.modOp.setPoison ht.modOp))
    · exact ht)

theorem Canon.crossStacks (h : Canon s.mem) {i ws} : Canon (s.crossStacks i ws).mem := by
  unfold State.crossStacks
  extract_lets o xs
  exact h.foldl (fun ht => by
    split
    · exact ht
    · exact ht.inPackets (·.queuePacket))

theorem Canon.settleWrites (h : Canon s.mem) {i ws} : Canon (s.settleWrites i ws).mem := h.settlePoison.crossStacks

theorem Canon.noteConsumed (h : Canon s.mem) {o cause va} : Canon (s.noteConsumed o cause va).mem := .ite h.logError h

theorem Canon.noteUnreached (h : Canon s.mem) {o cause va} : Canon (s.noteUnreached o cause va).mem := by
  unfold State.noteUnreached
  split
  · split
    · split
      · exact h
      · split
        · exact h.failPeer
        · exact h
    · exact h
  · exact h

theorem Canon.faultOp (h : Canon s.mem) {i cause va idx} : Canon (s.faultOp i cause va idx).mem :=
  h.noteConsumed.noteUnreached.endOp.dropMembers

theorem Canon.close {r : Run} (h : Canon r.s.mem) {i total} : Canon (r.close i total).mem := by
  unfold Run.close
  extract_lets s1
  have h1 : Canon s1.mem := h.settleWrites.modOp
  split
  · exact h1.serve.faultOp
  · exact h1.blockOp
  · exact .ite h1.serve.endOp h1.serve

theorem Canon.runElems {f n} {r : Run} (h : Canon r.s.mem) (hf : ∀ {t j}, Canon t.mem → (f t j).All (Canon ·.1.mem)) :
    Canon (runElems f n r).s.mem := by
  induction n generalizing r with
  | zero => exact h
  | succ n ih =>
    unfold Machine.runElems
    split
    next he => exact ih ((hf h).of_eq he)
    next => exact h
    next => exact h

theorem Canon.elemGranule (h : Canon s.mem) {i per total f} (hf : ∀ {t j}, Canon t.mem → (f t j).All (Canon ·.1.mem)) :
    Canon (elemGranule s i per total f).mem := .close (.runElems h hf)

theorem Canon.granuleOf (h : Canon s.mem) {i f} (hf : ∀ {x}, Canon (f x).mem) : InNext (granuleOf s i f) := Canon.ite hf.restAll.sweep h

theorem Canon.touchPieces (h : Canon s.mem) {ps} : Canon (s.touchPieces ps).mem := h.foldl (fun ht => .ite ht.touch ht)

theorem Canon.engWrite {o xs bs} (h : Canon s.mem) : Canon (s.engWrite o xs bs).mem := by
  induction xs generalizing s bs with
  | nil => exact h
  | cons x xs ih =>
    have hp : Canon (s.pokeBytes none x.spot.pa ((bs.take x.n).map (·.1))).mem := h.pokeBytes
    exact ih (.ite hp.upd.markDirty hp)

theorem Canon.linkGone (h : Canon s.mem) {i peer va failed} : Canon (s.linkGone i peer va failed).mem := (Canon.ite h.failPeer h).faultOp

theorem Canon.reachPeer {t : State} (h : Canon s.mem) (ht : Canon t.mem) {i ps} : Canon (reachPeer s i ps t).mem := by
  unfold Machine.reachPeer
  split
  · exact ht
  · exact h.linkGone
  · exact h.blockOp

theorem Canon.copyLocal (h : Canon s.mem) {i o c} : Canon (copyLocal s i o c).mem := by
  unfold Machine.copyLocal
  extract_lets x n
  split
  · exact h.blockOp
  · split
    · exact h.faultOp
    · exact h.faultOp
    · exact h.blockOp
    · exact h.blockOp
    · exact h.reachPeer (.ite h.modOp.freeBytes.engWrite.touchPieces.touchPieces.settleWrites.serve.modOp.endOp
        h.modOp.freeBytes.engWrite.touchPieces.touchPieces.settleWrites.serve.modOp)

theorem Canon.copyPacket (h : Canon s.mem) {i c} : Canon (copyPacket s i c).mem := by
  unfold Machine.copyPacket
  extract_lets o x
  split
  · exact h
  · split
    · exact h.faultOp
    · exact h.blockOp
    · split
      · exact h
      · split
        · exact h.linkGone
        · exact h.blockOp
        · split
          · exact h.blockOp
          · extract_lets rs y
            split
            · exact h.faultOp
            · exact h.blockOp
            · exact h.reachPeer (Canon.ite h h.modOp).freeBytes.touchPieces.formPacket.serve.modOp

theorem Canon.copyGranule (h : Canon s.mem) {i o} : Canon (s.copyGranule i o).mem := by
  unfold State.copyGranule
  split
  · exact h
  · split
    · exact h.blockOp
    · split
      · exact h.faultOp
      · exact h.blockOp
      · exact .ite h.copyLocal h.copyPacket.copyPacket

theorem Canon.gathElem (h : Canon s.mem) {o dst src idx sz isz j} : (gathElem s o dst src idx sz isz j).All (Canon ·.1.mem) :=
  Eng.all_andThen (Eng.all_andThen (Eng.all_andThen h.engPut.touchVas))

theorem Canon.execGathGranule (h : Canon s.mem) {op} : InNext (execGathGranule op s) := by
  refine h.granuleOf ?_
  intro o
  split
  · exact h.elemGranule (·.gathElem)
  · exact h

theorem Canon.nmoElem (h : Canon s.mem) {o dst src kind oper t scal j} : (nmoElem s o dst src kind oper t scal j).All (Canon ·.1.mem) := by
  unfold Machine.nmoElem
  extract_lets sz d a
  exact Eng.all_andThen (Eng.all_andThen (Eng.all_andThen (.ite (Eng.all_andThen (Eng.all_andThen (Canon.ite h.engPut h).engPut)) h.engPut.touchVa)))

theorem Canon.execNmoGranule (h : Canon s.mem) {op} : InNext (execNmoGranule op s) := by
  refine h.granuleOf ?_
  intro o
  split
  · exact h.elemGranule (·.nmoElem)
  · exact h

theorem Canon.setRunning (h : Canon s.mem) {i} : Canon (s.setRunning i).mem := h.serve.modOp

theorem Canon.startRed (h : Canon s.mem) {i o blk oper fmt} : Canon (startRed s i o blk oper fmt).mem := by
  unfold Machine.startRed
  split
  · exact h.faultOp
  · exact h.blockOp
  · extract_lets b s1
    have h1 : Canon s1.mem := h.modOp
    split
    · exact h1.faultOp
    · split
      · exact h1.faultOp
      · exact h.blockOp
      · exact h.touchVas.freeBytes.modOp.setRunning

theorem Canon.startColl (h : Canon s.mem) {i o blk kind oper fmt} : Canon (startColl s i o blk kind oper fmt).mem := by
  unfold Machine.startColl
  split
  · exact h.faultOp
  · exact h.blockOp
  · extract_lets b s1 g
    have h1 : Canon s1.mem := h.modOp
    split
    · exact h1.faultOp
    · split
      · exact h1.faultOp
      · exact h.blockOp
      · split
        · exact .ite h1.faultOp (.ite h1.faultOp h.touchVa.freeBytes.modOp.setRunning)
        · exact h1.faultOp

theorem Canon.reopenOperands (h : Canon s.mem) {o} : Canon (s.reopenOperands o).mem := h.foldl (fun ht => .ite ht.modBank ht)

theorem Canon.startMmma (h : Canon s.mem) {i o} : Canon (startMmma s i o).mem := by
  unfold Machine.startMmma
  split
  · exact h.faultOp
  · split
    · exact h.blockOp
    · exact h.reopenOperands.pinOp.setRunning

theorem Canon.startOp (h : Canon s.mem) {i} : Canon (s.startOp i).mem := by
  unfold State.startOp
  extract_lets o
  split
  · split
    · exact h.faultOp
    · exact .ite h.setRunning.endOp h.setRunning
  · split
    · exact h.faultOp
    · exact .ite h.setRunning.endOp h.setRunning
  · exact h.startRed
  · exact h.startColl
  · exact h.startMmma
  · exact .ite h.setRunning.endOp h.setRunning
  · exact h.setRunning
  · exact h.setRunning
  · exact h.setRunning
  · exact h.dueStart
  · exact h.dueStart

theorem Canon.redWrite {i o b sz f xss} {r : Run} (h : Canon r.s.mem) : Canon (redWrite i o b sz f xss r).s.mem := by
  induction xss generalizing r with
  | nil => exact h
  | cons xs rest ih =>
    unfold Machine.redWrite
    extract_lets va
    split
    · exact h
    · exact h
    · exact ih h.modOp.engPut.touchVas

theorem Canon.redGranuleAt (h : Canon s.mem) {i o b oper fmt} : Canon (redGranuleAt s i o b oper fmt).mem := by
  unfold Machine.redGranuleAt
  extract_lets t sz xs r
  have hr : Canon r.s.mem := .redWrite h
  split
  · exact h.blockOp
  · split
    · exact h.blockOp
    · refine .close ?_
      exact hr.freeBytes
    · refine .close ?_
      exact hr.freeBytes

theorem Canon.execRedGranule (h : Canon s.mem) {op} : InNext (execRedGranule op s) := by
  refine h.granuleOf ?_
  intro o
  split
  · exact h.redGranuleAt
  · exact h

theorem Canon.faultAll (h : Canon s.mem) {is cause} : Canon (s.faultAll is cause).mem := h.foldl (fun ht => .ite ht ht.endOp)

theorem Canon.collSend (h : Canon s.mem) {i n dst bytes va} : (collSend s i n dst bytes va).All (Canon ·.mem) := by
  unfold Machine.collSend
  split
  · trivial
  · trivial
  · exact .ite Eng.All.wait (h.inPackets (·.formPacket))

theorem Canon.collAway {i sz xs ns} (h : Canon s.mem) : (collAway i sz xs ns s).All (Canon ·.mem) := by
  induction ns generalizing s with
  | nil => exact h
  | cons n ns ih => exact h.collSend.andThen ih

theorem Canon.giveTo {i bytes ns} (h : Canon s.mem) : (giveTo i bytes ns s).All (Canon ·.mem) := by
  induction ns generalizing s with
  | nil => exact h
  | cons n ns ih => exact h.collSend.andThen ih

theorem Canon.giveOne (h : Canon s.mem) {b i sz e n carries} : (giveOne s b i sz e n carries).All (Canon ·.mem) :=
  .ite h (Eng.all_andThen (h.giveTo.andThen (·.freeBytes.modOp)))

/-- Whether the gift ends or halts, the state it leaves has a canonical memory. -/
theorem Canon.giveAll {b kind sz e n carries ps} (h : Canon s.mem) :
    (∀ {t}, giveAll b kind sz e n carries ps s = .ok t → Canon t.mem) ∧
    ∀ {x t}, giveAll b kind sz e n carries ps s = .error (x, t) → Canon t.mem := by
  induction ps generalizing s with
  | nil => exact ⟨fun he => by cases he; exact h, nofun⟩
  | cons p ps ih =>
    unfold Machine.giveAll
    split
    · exact ih h
    · split
      next he => exact ih (h.giveOne.of_eq he)
      next => exact ⟨nofun, fun he => by
        cases he
        exact h⟩
      next => exact ⟨nofun, fun he => by
        cases he
        exact h⟩

theorem Canon.collPut (h : Canon s.mem) {i sz xs} : (collPut s i sz xs).All (Canon ·.1.mem) :=
  Eng.all_andThen (h.collAway.andThen (·.foldl (·.engPut)))

theorem Canon.collPutAll {stores sz ps} {r r' : State × Table (List (Nat × Nat × Bool))} (h : Canon r.1.mem)
    (e : collPutAll stores sz ps r = .ok r') : Canon r'.1.mem := by
  induction ps generalizing r with
  | nil => cases e; exact h
  | cons p ps ih =>
    unfold Machine.collPutAll at e
    split at e
    next he => exact ih (h.collPut.of_eq he) e
    next => cases e
    next => cases e

theorem Canon.collWrites {stores sz locals xss e} {r : State × Table (List (Nat × Nat × Bool))} (h : Canon r.1.mem) :
    Canon (collWrites stores sz locals xss e r).1.1.mem := by
  induction xss generalizing e r with
  | nil => exact h
  | cons xs rest ih =>
    unfold Machine.collWrites
    split
    next he => exact ih (h.collPutAll he)
    next => exact h

theorem Canon.collClose (h : Canon s.mem) {is ws e count h'} : Canon (collClose s is ws e count h').mem := by
  unfold Machine.collClose
  extract_lets s1 served
  have h1 : Canon s1.mem := h.foldl (·.settleWrites.modOp)
  split
  · exact (h1.foldl (·.serve)).faultOp.faultAll
  · exact h1.foldl (·.blockOp)
  · exact .ite ((h1.foldl (·.serve)).foldl (fun ht => Canon.ite ht.endOp ht)) (h1.foldl (·.serve))

theorem Canon.collGo (h : Canon s.mem) {o b locals remote kind oper fmt} : Canon (collGo s o b locals remote kind oper fmt).mem :=
  .collClose (.collWrites (h.freeBytes.foldl (·.touchVas)))

theorem Canon.collMeet (h : Canon s.mem) {i o b locals remote kind oper fmt} : Canon (collMeet s i o b locals remote kind oper fmt).mem := by
  unfold Machine.collMeet
  extract_lets sz n
  split
  next he => exact (h.giveAll.2 he).faultOp.faultAll
  next he => exact (h.giveAll.2 he).foldl (·.blockOp)
  next he =>
    have h1 := h.giveAll.1 he
    exact .ite h1.blockOp h1.collGo

theorem Canon.collGranule (h : Canon s.mem) {i o b remote kind oper fmt} : Canon (s.collGranule i o b remote kind oper fmt).mem := by
  unfold State.collGranule
  split
  · exact h.blockOp
  · extract_lets is
    split
    · exact h.faultAll
    · split
      · exact (Canon.ite h.failPeer h).faultAll
      · exact h.blockOp
      · exact .ite h.faultAll (.ite h.blockOp h.collMeet)

theorem Canon.execCollGranule (h : Canon s.mem) {op remote} : InNext (execCollGranule op remote s) := by
  refine h.granuleOf ?_
  intro o
  split
  · exact h.collGranule
  · exact h

theorem Canon.trainLocal {o src sz ds} {r : State × List (Nat × Nat × Bool)} (h : Canon r.1.mem) : Canon (trainLocal o src sz ds r).1.mem := by
  induction ds generalizing r with
  | nil => exact h
  | cons d ds ih => exact ih h.engPut.touchVa

theorem Canon.trainPackets {l n sz src i finish fuel ds} (h : Canon s.mem) : Canon (trainPackets l n sz src i finish fuel ds s).mem := by
  induction fuel generalizing s ds with
  | zero => exact h
  | succ fuel ih =>
    unfold Machine.trainPackets
    extract_lets o
    split
    · exact h.blockOp
    · split
      · exact h.formPacket.modOp
      · exact ih h.formPacket.modOp

theorem Canon.trainHere (h : Canon s.mem) {i o src sz tr} : Canon (trainHere s i o src sz tr).mem := by
  have h1 : Canon (Machine.trainLocal o src sz tr (s, [])).1.mem := .trainLocal h
  exact h1.settleWrites.freeBytes.serve.modOp

theorem Canon.trainAway (h : Canon s.mem) {i o src sz d tr} : Canon (trainAway s i o src sz d tr).mem := by
  unfold Machine.trainAway
  split
  · exact (Canon.ite h.failPeer h).faultOp
  · exact h.blockOp
  · exact .ite h.blockOp h.freeBytes.serve.modOp.trainPackets

theorem Canon.rsctTrain (h : Canon s.mem) {i o tab src n sz} : Canon (s.rsctTrain i o tab src n sz).mem := by
  unfold State.rsctTrain
  extract_lets r
  split
  · exact h.blockOp
  · split
    · split
      · exact h.blockOp
      · split
        · exact h.serve.faultOp
        · exact h.endOp
    · extract_lets tr
      exact .ite (.ite h.blockOp (.ite h.trainHere.endOp h.trainHere)) (.ite h.blockOp h.trainAway)

theorem Canon.execRsctTrain (h : Canon s.mem) {op} : InNext (execRsctTrain op s) := by
  refine h.granuleOf ?_
  intro o
  split
  · exact h.rsctTrain
  · exact h

theorem Canon.mmmaStep (h : Canon s.mem) {i o tile wa wb ga gb shape} : Canon (s.mmmaStep i o tile wa wb ga gb shape).mem := by
  unfold State.mmmaStep
  split
  · exact h.serve.endOp
  · split
    · exact h.faultOp
    · split
      · exact h.faultOp
      · exact .ite h.kstep.serve.modOp.endOp h.kstep.serve.modOp

theorem Canon.execMmmaKstep (h : Canon s.mem) {op} : InNext (execMmmaKstep op s) := by
  refine h.granuleOf ?_
  intro o
  split
  · exact h.mmmaStep
  · exact h

theorem Canon.drainAt (h : Canon s.mem) {o tile fmt dst stride cols mask e} : (drainAt s o tile fmt dst stride cols mask e).All (Canon ·.1.mem) :=
  .ite (Eng.all_andThen (Canon.ite h.engPut.modBank h.engPut)) h

theorem Canon.execMdrainGranule (h : Canon s.mem) {op} : InNext (execMdrainGranule op s) := by
  refine h.granuleOf ?_
  intro o
  split
  · exact .ite h.faultOp (h.elemGranule (·.drainAt))
  · exact h

theorem Canon.afterRows (h : Canon s.mem) {bs r} (hr : InNext r) : InNext (afterRows s bs r) := .ite h.waitOn hr

theorem Canon.execXfence (h : Canon s.mem) {p1 p2 _scope} : InNext (execXfence p1 p2 _scope s) := by
  unfold Machine.execXfence
  exact .ite (h.afterRows h.orderPath.retire) h.orderPath.retire

theorem Canon.arriveAt (h : Canon s.mem) {bid} : Canon (s.arriveAt bid).mem := by
  unfold State.arriveAt
  extract_lets t phase s0 s1 s2
  have h2 : Canon s2.mem := h.modLaunch.modSeat
  split
  · exact h
  · exact .ite h2 (h2.foldl (·.setSeat?))

theorem Canon.execFbar (h : Canon s.mem) {bid _scope} : InNext (execFbar bid _scope s) := by
  unfold Machine.execFbar
  split
  · exact h.atDepth0 h.trapSingle
  · split
    · exact h.atDepth0 h.waitOn
    · exact h.atDepth0 (h.afterRows (h.withRelease (.ite h.arriveAt h)))

theorem Canon.execBwait (h : Canon s.mem) {bid} : InNext (execBwait bid s) := by
  unfold Machine.execBwait
  split
  · exact h.atDepth0 h.trapSingle
  · split
    · exact h.atDepth0 h.waitOn
    · exact h.atDepth0 h.orderRows.retire

/-! ### Launches, seats, votes and refresh -/

theorem Canon.awaitRead (h : Canon s.mem) {c t a} : (awaitRead s c t a).All (Canon ·.2.mem) :=
  (Res.all_andThen h.readSpot).andThen fun ht => by
    split <;> exact ht

theorem Canon.awaitAll {c t as} (h : Canon s.mem) : Canon (awaitAll c t as s).1.mem := by
  induction as generalizing s with
  | nil => exact h
  | cons a as ih =>
    unfold Machine.awaitAll
    split
    · exact ih h
    · split
      next he =>
        have hx := h.awaitRead.of_eq he
        refine ih ?_
        split
        · exact hx.modPart
        · exact hx
      next => exact h
      next => exact h

theorem Canon.awaitEnd (h : Canon s.mem) {v} : Canon (s.awaitEnd v).mem := (h.onActive.modPart.foldl (·.shareEcho)).orderPath.retire

theorem Canon.awaitEchoed (h : Canon s.mem) {v log} : Canon (s.awaitEchoed v log).mem := (h.foldl (·.modBank.passEcho)).retire

theorem Canon.execAwait (h : Canon s.mem) {v a} : InNext (execAwait v a s) := by
  unfold Machine.execAwait
  extract_lets as
  split
  · exact h.trapSingle
  · exact h.waitOn
  · split
    · exact h.awaitEchoed
    · exact h.waitOn
    · split
      next he => exact (h.awaitAll.of_fst he).trapSingle
      next he => exact (h.awaitAll.of_fst he).waitOn
      next he => exact InNext.ite (h.awaitAll.of_fst he).awaitEnd (h.awaitAll.of_fst he).waitOn

theorem Canon.endWait (h : Canon s.mem) {core bank ok} : InNext (endWait core bank s ok) := by
  unfold Machine.endWait
  split
  · exact h
  · split
    · exact Canon.ite h.resume h
    · exact h

theorem Canon.clearPosts (h : Canon s.mem) {loops} : Canon (s.clearPosts loops).mem := h

theorem Canon.requeueTs (h : Canon s.mem) : Canon s.requeueTs.mem := h.retryLaunches

theorem Canon.refuseLaunch (h : Canon s.mem) {i event cause va} : Canon (s.refuseLaunch i event cause va).mem :=
  (Canon.ite h h.storeEvent).faultOp.requeueTs

theorem Canon.launchStart (h : Canon s.mem) {i} : Canon (s.launchStart i).mem := by
  unfold State.launchStart
  extract_lets o
  split
  · refine .ite h (.ite h.faultOp.requeueTs ?_)
    split
    · exact h.faultOp.requeueTs
    · exact h.blockOp
    · split
      · exact h.refuseLaunch
      · exact h.blockOp
      · refine .ite h.refuseLaunch ?_
        split
        · exact h
        next =>
          refine .ite h ?_
          extract_lets l s1
          have h1 : Canon s1.mem := .setRunning (.clearPosts (.setLaunch h.withTaskAge))
          exact h1.storeVa.requeueTs
  · exact h

theorem Canon.tspawnStart (h : Canon s.mem) {i} : Canon (s.tspawnStart i).mem := by
  unfold State.tspawnStart
  extract_lets o s1
  have h1 : Canon s1.mem := h
  split
  · refine .ite h (.ite h.faultOp.requeueTs ?_)
    split
    · exact h.faultOp.requeueTs
    · exact h.blockOp
    · extract_lets task
      refine .ite h.faultOp.requeueTs ?_
      split
      · split
        · exact h
        · exact h1.setLaunch.setRunning.requeueTs
      · split
        · exact h.endOp.requeueTs
        · exact h1.setLaunch.setRunning.requeueTs
  · exact h

theorem Canon.wakeFor (h : Canon s.mem) {k} : Canon (s.wakeFor k).mem := h.foldl (·.wakeUnit)

theorem Canon.taskReady (h : Canon s.mem) {n t} : Canon (s.taskReady n t).mem := by
  unfold State.taskReady
  split
  · split
    · split
      · exact h
      · exact h.endTask
      · exact .ite h.endTask (.ite h h.setTask.wakeFor)
    · exact h
  · exact h

theorem Canon.takeStripe (h : Canon s.mem) {core sg} : InPair (s.takeStripe core sg) := .mk h.setPlace

theorem Canon.copyMem (h : Canon s.mem) {dst src n} : Canon (s.copyMem dst src n).mem := Memory.wf_copyMem dst src n h

theorem Canon.stagePage (h : Canon s.mem) {c p} : InPair (s.stagePage c p) := by
  unfold State.stagePage
  split
  · split
    · exact h
    · refine h.takeStripe.bind fun hr => ?_
      split
      · trivial
      · exact hr.copyMem
  · trivial
  · exact h

theorem Canon.stagePages {c ps} (h : Canon s.mem) : InPair (State.stagePages c ps s) := by
  induction ps generalizing s with
  | nil => exact h
  | cons p ps ih => exact h.stagePage.bind fun hr => (ih hr).map id

theorem Canon.snapStripes {core n} (h : Canon s.mem) : InPair (State.snapStripes core n s) := by
  induction n generalizing s with
  | zero => exact h
  | succ n ih => exact (InPair.findSome? fun _ => h.takeStripe).bind fun hr => (ih hr).map id

theorem Canon.buildView (h : Canon s.mem) {c rs grant} : InPair (s.buildView c rs grant) := h.stagePages.bind fun hr => hr.snapStripes.map id

theorem Canon.grantSram {core base bs} (h : Canon s.mem) : Canon (s.grantSram core base bs).mem := by
  induction bs generalizing s with
  | nil => exact h
  | cons b bs ih => exact ih h.freeBytes.setSram

theorem Canon.startReplica (h : Canon s.mem) {core base rs lead view} : Canon (s.startReplica core base rs lead view).mem := h.setSeat?

theorem Canon.formStart (h : Canon s.mem) {l n t k rid lead} : InSome (s.formStart l n t k rid lead) := by
  unfold State.formStart
  extract_lets core base size
  refine .ite .none (.bind ?_)
  intro grant
  extract_lets s1 s2
  have h2 : Canon s2.mem := h.modBanks.grantSram.setSeat?
  exact .ite h2 (h2.buildView.state (·.startReplica))

theorem Canon.fillSram {core base is} (h : Canon s.mem) : Canon (s.fillSram core base is).mem := by
  induction is generalizing s with
  | nil => exact h
  | cons i is ih => exact ih h.writeLinks.setSram

theorem Canon.moveOps (h : Canon s.mem) {old core base n t} : Canon (s.moveOps old core base n t).mem := h.foldl (·.modOp)

theorem Canon.resumeOps (h : Canon s.mem) {core base n t} : Canon (s.resumeOps core base n t).mem := h.foldl (·.modOp.pinOp)

theorem Canon.placeContext (h : Canon s.mem) {n t k c} : InSome (s.placeContext n t k c) := by
  unfold State.placeContext
  extract_lets core base mg
  exact .ite .none (.ite .none (.ite .none (.ite .none h.modBanks.fillSram.modQuad.setSeat?.grantRows.modQuad)))

theorem Canon.formRestore (h : Canon s.mem) {n t k c} : InSome (s.formRestore n t k c) :=
  .ite .none (h.placeContext.after (·.modBanks.moveOps))

theorem Canon.formAll {l n t k least rs} (h : Canon s.mem) : InSome (State.formAll l n t k least rs s) := by
  induction rs generalizing s with
  | nil => exact h
  | cons r rs ih =>
    refine InSome.andThen ?_ ih
    split
    · exact .bind h.formRestore
    · exact h.formStart

theorem Canon.unreserve (h : Canon s.mem) {n t} : Canon (s.unreserve n t).mem := h

theorem Canon.unstage (h : Canon s.mem) {n t} : Canon (s.unstage n t).mem := h

theorem Canon.formTask (h : Canon s.mem) {n t} : InSome (s.formTask n t) := by
  unfold State.formTask
  split
  · refine .ite .none (.bind ?_)
    intro rs
    refine .ite .none (h.formAll.after fun hx => ?_)
    exact Canon.ite hx.unreserve.unstage.modTask hx.unreserve.unstage.modTask.newLeader
  · trivial

theorem Canon.formGang {n ts} (h : Canon s.mem) : InSome (State.formGang n ts s) := by
  induction ts generalizing s with
  | nil => exact h
  | cons t ts ih => exact h.formTask.andThen ih

theorem Canon.dispatch (h : Canon s.mem) {n t} : InSome (s.dispatch n t) := by
  unfold State.dispatch
  extract_lets g
  split
  · exact h.formGang
  · exact h.foldl (·.endTask)

theorem Canon.askSeats (h : Canon s.mem) {ts} : Canon (s.askSeats ts).mem := h.foldl (·.foldl (·.setSeat?))

theorem Canon.reserveFor (h : Canon s.mem) {n t xs} : Canon (s.reserveFor n t xs).mem := h.foldl (·.modCore)

theorem Canon.preemptFor (h : Canon s.mem) {core n t} : Canon (s.preemptFor core n t).mem := by
  unfold State.preemptFor
  split
  · exact h
  · split
    · exact h
    · exact .ite h (.ite h h.reserveFor.askSeats)

theorem Canon.firstFit {es} (h : Canon s.mem) {e t} (he : s.firstFit es = some (e, some t)) : Canon t.mem := by
  induction es with
  | nil => cases he
  | cons x xs ih =>
    unfold State.firstFit at he
    split at he
    next hd =>
      cases he
      exact h.dispatch.of_eq hd
    next =>
      split at he
      · cases he
      · exact ih he

theorem Canon.stage (h : Canon s.mem) {e} : Canon (s.stage e).mem := .ite h h

theorem Canon.setHead (h : Canon s.mem) {core h' skip} : Canon (s.setHead core h' skip).mem := h.modCore

theorem Canon.offer (h : Canon s.mem) {core} : Canon (s.offer core).mem := by
  unfold State.offer
  extract_lets order p
  split
  · exact h.setHead
  · split
    next hf => exact .ite (h.firstFit hf).setHead (h.firstFit hf).setHead.preemptFor
    next => exact .ite h.stage.setHead h.stage.setHead.preemptFor
    next => exact h.setHead.preemptFor

theorem Canon.stageNow (h : Canon s.mem) {n t} : Canon (s.stageNow n t).mem := by
  unfold State.stageNow
  split
  next he => exact (h.dispatch.of_eq he).upd
  · exact .ite h h.unstage

theorem Canon.issueSeat (h : Canon s.mem) {core base} : Canon (s.issueSeat core base).mem := by
  unfold State.issueSeat
  split
  · exact h
  · exact (h.foldl (·.setSram)).orderAll.setSeat?

theorem Canon.leaveBehind (h : Canon s.mem) {n t c} : Canon (s.leaveBehind n t c).mem := (h.dropContext.foldl (·.cancelOp)).modTask

theorem Canon.issueTask (h : Canon s.mem) {n t} : Canon (s.issueTask n t).mem := by
  unfold State.issueTask
  extract_lets s0 s1 s2
  have h1 : Canon s1.mem := (h.foldl (·.leaveBehind)).foldl (fun ht => Canon.ite ht.issueSeat ht)
  have h2 : Canon s2.mem := h1.releaseArea.dropSaves.modTask
  exact (h2.foldl (·.resumeOps)).retryLaunches

theorem Canon.execSeatFormingEnd (h : Canon s.mem) {core bank} : InNext (execSeatFormingEnd core bank s) := by
  unfold Machine.execSeatFormingEnd
  split
  · exact Canon.ite (h.foldl (·.issueTask)) h
  · exact h

theorem Canon.saveBanks {core base panes l t bs} (h : Canon s.mem) : Canon (s.saveBanks core base panes l t bs).2.mem := by
  induction bs generalizing s with
  | nil => exact h
  | cons b bs ih => exact ih h.setBank

theorem Canon.contextOf (h : Canon s.mem) {core base t panes} : Canon (s.contextOf core base t panes).2.mem := h.saveBanks

theorem Canon.vacate (h : Canon s.mem) {core base t} : Canon (s.vacate core base t).mem := by
  unfold State.vacate
  exact h.modBanks.modQuad.releaseRows.releaseSram.dropLinks.setSeat?

theorem Canon.pokeFields (h : Canon s.mem) {pa fs} : Canon (s.pokeFields pa fs).mem := Memory.wf_pokeFields pa fs h

theorem Canon.writeContext (h : Canon s.mem) {pa c t bindVa} : Canon (s.writeContext pa c t bindVa).mem := by
  unfold State.writeContext
  extract_lets f s1 s2
  have h_f : Canon f.2.mem := h.freeWord
  have h1 : Canon s1.mem := h_f.pokeImage.pokeFields
  have h2 : Canon s2.mem := h1.foldl (·.pokeImage)
  exact .ite (h2.foldl (·.pokeImage)) h2

theorem Canon.takeArea (h : Canon s.mem) {n t} : InPair (s.takeArea n t) := by
  unfold State.takeArea
  split
  · exact h
  · exact .mk h.modTask

theorem Canon.writeCoSave (h : Canon s.mem) {t sram} : Canon (s.writeCoSave t sram).mem :=
  h.foldl fun ht => by
    split
    · exact ht
    · exact ht.foldl (fun hu => by
      split
      · exact hu.pokeBytes
      · exact hu)

theorem Canon.saveSeat (h : Canon s.mem) {core base t k area} : Canon (s.saveSeat core base t k area).mem := by
  unfold State.saveSeat
  extract_lets s1 s2 t2 r s3 leads s4
  have h1 : Canon s1.mem := h.flushParts
  have h2 : Canon s2.mem := h1.foldl (·.pauseOp)
  have h_r : Canon r.2.mem := h2.contextOf
  have h3 : Canon s3.mem := h_r.vacate
  have h4 : Canon s4.mem := .ite h3.writeContext.writeCoSave h3
  exact h4.modTask

theorem Canon.makeRoom (h : Canon s.mem) {sill} : InSome (s.makeRoom sill) := by
  unfold State.makeRoom
  split
  · exact h
  · extract_lets ready
    split
    · exact h.modTask
    · trivial

theorem Canon.roomFor (h : Canon s.mem) {k} : InSome (s.roomFor k) := .ite h.makeRoom h

theorem Canon.beginSave (h : Canon s.mem) {core base} : Canon (s.beginSave core base).mem := by
  unfold State.beginSave
  split
  · exact h
  · exact (h.setSeat?.takeArea.state id).getD h.setSeat?

theorem Canon.execSeatSave (h : Canon s.mem) {core bank} : InNext (execSeatSave core bank s) := by
  unfold Machine.execSeatSave
  split
  · exact h
  · split
    · exact h
    · split
      next ha _ =>
        split
        next hk =>
          obtain ⟨k, -, hk⟩ := Option.bind_eq_some_iff.1 hk
          obtain ⟨x, hx, e⟩ := Option.map_eq_some_iff.1 hk
          cases e
          exact ((h.takeArea.of_eq ha).roomFor.of_eq hx).saveSeat
        next => exact h
      next => exact h

theorem Canon.asAgent (h : Canon s.mem) {a f} (hf : ∀ {t}, Canon t.mem → Canon (f t).mem) : Canon (s.asAgent a f).mem := (hf h.upd)

theorem Canon.toBoundary (h : Canon s.mem) {stop} : Canon (s.toBoundary stop).1.mem := by
  unfold State.toBoundary
  split
  · exact h
  · extract_lets mk r
    have k : ∀ t, AllKeep (mk t) := fun _ => .convoyOps
    split
    · exact h
    · have hr : Canon r.1.mem := h.runCut k
      split
      · extract_lets q
        have hq : Canon q.1.mem := h.runCut k
        split
        · exact hq.finishPhase
        · exact hr.finishPhase
      · exact hr.phaseAt.modPart
      · exact h
      all_goals exact hr.finishPhase

theorem Canon.preempt (h : Canon s.mem) {a} : Canon (s.preempt a).mem := by
  unfold State.preempt
  extract_lets t
  exact .ite (Canon.ite h h.setSeat).beginSave.dropLinks h.setSeat.modPart.takeTrap

theorem Canon.execPreemptHandlerTimeout (h : Canon s.mem) {core bank} : InNext (execPreemptHandlerTimeout core bank s) := by
  unfold Machine.execPreemptHandlerTimeout
  split
  · exact Canon.ite h.beginSave.dropLinks h
  · exact h

theorem Canon.rehold (h : Canon s.mem) {h'} : Canon (s.rehold h').mem := .ite h.modOp h

theorem Canon.unclaim (h : Canon s.mem) : Canon s.unclaim.mem := by
  unfold State.unclaim
  extract_lets t banks s1 s2
  have h1 : Canon s1.mem := h.foldl (·.rehold)
  have h2 : Canon s2.mem := h1.foldl (fun ht => Canon.ite ht.detachOp.unhold ht)
  exact h2.modBanks.modSeat

theorem Canon.resumeAt (h : Canon s.mem) {cls} : Canon (s.resumeAt cls).mem := by
  unfold State.resumeAt
  exact .ite h.flushParts.modSeat.beginSave h.flushParts.modSeat

theorem Canon.eretGo (h : Canon s.mem) : Canon s.eretGo.mem := by
  unfold State.eretGo
  extract_lets t
  split
  · exact h.waitOn
  · exact (Canon.ite h.unclaim h).resumeAt

theorem Canon.endSelf (h : Canon s.mem) : Canon s.endSelf.mem := h.endTask

theorem Canon.tendEnd (h : Canon s.mem) : InNext (tendEnd s) := by
  unfold Machine.tendEnd
  extract_lets s1
  have h1 : Canon s1.mem := h.modSeat
  split
  · exact h1.waitOn
  · split
    · exact h1.waitOn
    · exact h1.endSelf

theorem Canon.tendRelease (h : Canon s.mem) : InNext (tendRelease s) := by
  unfold Machine.tendRelease
  split
  · exact h.tendEnd
  · split
    · exact .ite h.waitOn h.tendEnd
    · split
      · exact h.waitOn
      · exact h.holdForVote

theorem Canon.tendSteps (h : Canon s.mem) : InNext (tendSteps s) := by
  unfold Machine.tendSteps
  split
  · exact h.tendEnd
  · split
    · exact h.waitOn
    · split
      · exact h.trapSingle
      · exact h.tendRelease

theorem Canon.execTend (h : Canon s.mem) : InNext (execTend s) := .ite h.retire.modSeat (h.atDepth0 h.tendSteps)

theorem Canon.ownTrap (h : Canon s.mem) : InSome s.ownTrap := by
  unfold State.ownTrap
  extract_lets s1 go due
  have h1 : Canon s1.mem := h.modPart
  have hgo : ∀ {r}, InNext r → InSome (go r) := fun {r} hr => by
    cases r with
    | next t => exact hr
    | fault => trivial
    | refused => trivial
  split
  · exact .ite (hgo h1.execKwait) .none
  · exact .ite (hgo h1.execTend) .none
  · trivial

theorem Canon.execTyield (h : Canon s.mem) : InNext (execTyield s) := by
  unfold Machine.execTyield
  extract_lets t s1
  have h1 : Canon s1.mem := h.retire.dropLinks
  split
  · exact h1
  · split
    · exact h1
    · exact InNext.ite h1 h1.reserveFor.askSeats.beginSave

theorem Canon.dropTlb (h : Canon s.mem) {f} : Canon (s.dropTlb f).mem := h

theorem Canon.execTlbinv (h : Canon s.mem) {a b} : InNext (execTlbinv a b s) := by
  unfold Machine.execTlbinv
  extract_lets x
  exact .ite h.trapSingle (h.foldl (fun ht => Canon.ite ht.dropTlb ht.dropTlb)).retire

theorem Canon.execSchedulerStateError (h : Canon s.mem) {launch task counter} : InNext (execSchedulerStateError launch task counter s) := by
  unfold Machine.execSchedulerStateError
  split
  · extract_lets cause noted
    exact Canon.ite (.ite h.upd.logError.recordFault.stopLaunch h) (.ite h.upd.logError.endTask h)
  · exact h

theorem Canon.modRed (h : Canon s.mem) {v f} : Canon (s.modRed v f).mem := h.setSeat?

theorem Canon.copyBytes (h : Canon s.mem) {dst src mask} : Canon (s.copyBytes dst src mask).mem := h.foldl (fun ht => .ite ht.poke ht)

theorem Canon.copyGranuleBytes (h : Canon s.mem) {dst src mask} : Canon (s.copyGranuleBytes dst src mask).mem := by
  unfold State.copyGranuleBytes
  extract_lets s1
  have h1 : Canon s1.mem := h.copyBytes
  exact .ite h1.setPoison (.ite h1.setPoison h1)

theorem Canon.commit (h : Canon s.mem) {r} : Canon (s.commit r).mem := h.foldl (·.copyGranuleBytes)

theorem Canon.letGoOn (h : Canon s.mem) {vs performer} : Canon (s.letGoOn vs performer).mem := h.foldl (·.modRed.resume)

theorem Canon.agree (h : Canon s.mem) {l t vs p} : Canon (s.agree l t vs p).mem := h.commit.letGoOn.modTask

theorem Canon.restoreShadow (h : Canon s.mem) {r} : Canon (s.restoreShadow r).mem := h.foldl (·.copyGranuleBytes)

theorem Canon.dropOps (h : Canon s.mem) {v age} : Canon (s.dropOps v age).mem := h.foldl (·.cancelOp.modOp)

theorem Canon.rollTo (h : Canon s.mem) {v x} : Canon (s.rollTo v x).mem := by
  unfold State.rollTo
  extract_lets s0 s1 rows s2 s3 s4
  have h0 : Canon s0.mem := h.dropOps.restoreShadow
  have h1 : Canon s1.mem := h0.releaseRows
  have h2 : Canon s2.mem := h1.grantRows.modQuad
  have h3 : Canon s3.mem := h2.modBanks
  have h4 : Canon s4.mem := h3.fillSram
  exact h4.dropLinks.setSeat?

theorem Canon.rollBack (h : Canon s.mem) {v} : Canon (s.rollBack v).mem := by
  unfold State.rollBack
  split
  · exact h
  · exact h.rollTo.modRed

theorem Canon.rollAndGo (h : Canon s.mem) {v} : Canon (s.rollAndGo v).mem := h.rollBack.resume

theorem Canon.startRoll (h : Canon s.mem) {v} : Canon (s.startRoll v).mem := by
  unfold State.startRoll
  split
  · exact h
  · exact h.dropOps.modBanks.releaseRows.setSeat?.modRed

theorem Canon.tryRoll (h : Canon s.mem) {v} : Canon (s.tryRoll v).mem := .ite h.rollAndGo h

theorem Canon.voteRecord (h : Canon s.mem) {l t vs v outcome} : Canon (s.voteRecord l t vs v outcome).mem := h.pokeImage.pokeFields

theorem Canon.noteVote (h : Canon s.mem) {core record} : Canon (s.noteVote core record).mem := h.upd.logError

theorem Canon.mismatch (h : Canon s.mem) {l t vs v late} : Canon (s.mismatch l t vs v late).mem := by
  unfold State.mismatch
  extract_lets s1 log s2
  have h1 : Canon s1.mem := h.voteRecord
  have h2 : Canon s2.mem := h1.withLog.modRed
  exact (h2.foldl (·.modRed)).takeTrap

theorem Canon.disagree (h : Canon s.mem) {l t vs late} : Canon (s.disagree l t vs late).mem := by
  unfold State.disagree
  extract_lets lead runs
  clear_value lead
  split
  · exact h
  · extract_lets s1
    have h1 : Canon s1.mem := h.noteVote.modTask
    exact .ite ((h1.foldl (·.startRoll)).foldl (·.tryRoll)) h1.mismatch

theorem Canon.majority (h : Canon s.mem) {l t vs pair p m late} : Canon (s.majority l t vs pair p m late).mem :=
  h.noteVote.modTask.voteRecord.agree.modRed

theorem Canon.decideVote (h : Canon s.mem) {l t vs late} : Canon (s.decideVote l t vs late).mem := by
  unfold State.decideVote
  split
  · exact h
  · split
    · exact h.agree
    · split
      · exact h.majority
      · exact h.disagree

theorem Canon.copySlot6 (h : Canon s.mem) {src dst} : Canon (s.copySlot6 src dst).mem := h.foldl (·.modBank)

theorem Canon.copyShadows (h : Canon s.mem) {src dst} : Canon (s.copyShadows src dst).mem :=
  h.foldl fun ht => by
    split
    · exact ht.copyMem
    · exact ht

theorem Canon.ownRows (h : Canon s.mem) {src m} : Canon (s.ownRows src m).mem := h.modBanks

theorem Canon.resync (h : Canon s.mem) {src m} : Canon (s.resync src m).mem := by
  unfold State.resync
  split
  · exact h
  · exact h.copySlot6.ownRows.copyShadows.dropOps.modRed.startRoll

theorem Canon.rejoin (h : Canon s.mem) {m} : Canon (s.rejoin m).mem := by
  unfold State.rejoin
  split
  · exact h
  · extract_lets s1 log s2 a
    have h1 : Canon s1.mem := h.rollTo.modRed
    have h2 : Canon s2.mem := h1.withLog
    exact h2.takeTrap

theorem Canon.endRoll (h : Canon s.mem) {v} : Canon (s.endRoll v).mem := .ite h.rejoin h.rollAndGo

theorem Canon.vote (h : Canon s.mem) {l t} : Canon (s.vote l t).mem := by
  unfold State.vote
  extract_lets vs
  split
  · exact h
  · split
    · exact h.endRoll
    · split
      · split
        · exact h.resync
        · exact h
      · exact .ite h.decideVote h

theorem Canon.endTransition (h : Canon s.mem) {core bank sg st} : Canon (s.endTransition core bank sg st).mem := .ite h.setPane h

theorem Canon.forceRefresh (h : Canon s.mem) {core bank sg} : Canon (s.forceRefresh core bank sg).mem := h.modBank

theorem Canon.refreshTick (h : Canon s.mem) {core bank sg} : Canon (s.refreshTick core bank sg).mem := by
  unfold State.refreshTick
  split
  · exact h
  · split
    · exact h.modBank
    · exact .ite h.modBank (.ite h.modBank.forceRefresh h.modBank)

theorem Canon.deadline (h : Canon s.mem) {a x} : Canon (s.deadline a x).mem := h.modPart.takeTrap

theorem Canon.interrupt (h : Canon s.mem) {a stop take} (htake : ∀ {t}, Canon t.mem → Canon (take t).mem) : Canon (s.interrupt a stop take).mem :=
  h.asAgent fun ht => by
    split
    next he => exact ht.ownTrap.of_eq he
    · exact .ite (htake ht.toBoundary) ht.toBoundary

theorem Canon.execRefreshDeadlineTrap (h : Canon s.mem) {core bank stop} : InNext (execRefreshDeadlineTrap core bank stop s) := by
  unfold Machine.execRefreshDeadlineTrap
  split
  · exact h
  · split
    · exact Canon.ite h (h.interrupt (·.deadline))
    · exact h

theorem Canon.execPreemptionTake (h : Canon s.mem) {core bank stop} : InNext (execPreemptionTake core bank stop s) := by
  unfold Machine.execPreemptionTake
  split
  · exact h
  · extract_lets t
    split
    · exact h
    · split
      · exact h.interrupt (·.deadline)
      · exact h.interrupt (·.preempt)

theorem Canon.fillTlb (h : Canon s.mem) {c va} : Canon (s.fillTlb c va).mem := by
  unfold State.fillTlb
  split
  · exact h.modQuad
  · exact h

theorem Canon.execTranslationWalkEnd (h : Canon s.mem) {core bank va} : InNext (execTranslationWalkEnd core bank va s) := by
  unfold Machine.execTranslationWalkEnd
  split
  · exact h
  · exact Canon.ite h h.fillTlb

theorem Canon.dropBank (h : Canon s.mem) {q b} : Canon (s.dropBank q b).mem := h.dropAhead

theorem Canon.sramMode (h : Canon s.mem) {q b mode} : Canon (s.sramMode q b mode).mem := by
  unfold State.sramMode
  extract_lets x
  exact .ite h (.ite h.freeBytes.dropBank.setSram h.dropBank.setSram)

theorem Canon.sramClear (h : Canon s.mem) {q b} : Canon (s.sramClear q b).mem := .ite h.setSram h

theorem Canon.queueMig (h : Canon s.mem) {sill r} : Canon (s.queueMig sill r).mem := .ite h.setMig h

theorem Canon.migrate (h : Canon s.mem) {sill demote pte} : Canon (s.migrate sill demote pte).mem := h.queueMig

theorem Canon.migStart (h : Canon s.mem) {sill} : Canon (s.migStart sill).mem := by
  unfold State.migStart
  extract_lets m
  split
  · exact h
  · split
    · exact .ite h.poke.dropTlb.setMig (.ite h.setMig.setPlace h.setMig)
    · exact h

theorem Canon.moveHomes (h : Canon s.mem) {old new} : Canon (s.moveHomes old new).mem := h

theorem Canon.migFinish (h : Canon s.mem) {sill} : Canon (s.migFinish sill).mem := by
  unfold State.migFinish
  extract_lets m
  split
  · exact h
  · split
    · exact h
    · extract_lets e src s1 s2 s3 s4
      have h1 : Canon s1.mem := h.copyMem.moveHomes
      have h2 : Canon s2.mem := h1.withLinked
      have h3 : Canon s3.mem := h2.poke
      have h4 : Canon s4.mem := (Canon.ite h3.setPlace h3).setMig
      exact h4.bumpEvent

/-! ### Links, power, fleet, boot, and the dispatch of instructions -/

theorem Canon.announce (h : Canon s.mem) {l asked} : Canon (s.announce l asked).mem := by
  unfold State.announce
  extract_lets x
  split
  · exact h.failLink
  · exact .ite h.setLink h.setLink

theorem Canon.regroup (h : Canon s.mem) {l} : Canon (s.regroup l).mem := .ite h.announce h

theorem Canon.switchGroup (h : Canon s.mem) {l} : Canon (s.switchGroup l).mem := by
  unfold State.switchGroup
  extract_lets x
  split
  · exact h
  · exact h.putLink.linkEvent

theorem Canon.settleDown (h : Canon s.mem) {l} : Canon (s.settleDown l).mem := .ite h.putLink.linkEvent.judgePeers h

theorem Canon.acceptPacket (h : Canon s.mem) {l payloads} : Canon (s.acceptPacket l payloads).mem := by
  unfold State.acceptPacket
  split
  · exact h
  · exact h.setLink

theorem Canon.receive (h : Canon s.mem) {ps w} : Canon (s.receive ps w).mem := Memory.wf_receive ps w h

theorem Canon.servePacket (h : Canon s.mem) : InSome s.servePacket := by
  unfold State.servePacket
  split
  · trivial
  · exact .ite .none (h.upd.foldl (·.receive)).modLink

theorem Canon.takePiece (h : Canon s.mem) {l f} : Canon (s.takePiece l f).mem := by
  unfold State.takePiece
  extract_lets x
  split
  · exact .ite h.setLink (.ite h.acceptPacket h.setLink)
  · split
    · split
      · exact .ite h (.ite (.ite h.acceptPacket h.setLink) h.setLink)
      · exact h
    · exact h

theorem Canon.takeRequest (h : Canon s.mem) {l f} : Canon (s.takeRequest l f).mem := by
  unfold State.takeRequest
  extract_lets x dead y
  exact .ite h (.ite h.setLink.announce.linkEvent h.setLink.announce)

theorem Canon.takeFlit (h : Canon s.mem) {l f} : Canon (s.takeFlit l f).mem := by
  unfold State.takeFlit
  extract_lets s1 s2 s3
  have h1 : Canon s1.mem := h.takeAck
  have h3 : Canon s3.mem := h1.setLink
  exact (Canon.ite (Canon.ite h3.putLink h3).takeRequest (Canon.ite h3.putLink h3).takePiece).settleDown

theorem Canon.execStrandDeath (h : Canon s.mem) {link strand} : InNext (execStrandDeath link strand s) := by
  unfold Machine.execStrandDeath
  extract_lets x
  exact Canon.ite h (.ite h.setLink.linkEvent.logError.failLink.sweep h.setLink.linkEvent.logError)

theorem Canon.losePeer (h : Canon s.mem) {n} : Canon (s.losePeer n).mem := h.abandon

theorem Canon.execPeerTimeout (h : Canon s.mem) {op} : InNext (execPeerTimeout op s) := by
  unfold Machine.execPeerTimeout
  split
  · split
    · exact h.abandon.sweep
    · exact h
    · exact h
    · exact h.freeWord.failPeer.losePeer.sweep
  · exact h

theorem Canon.trainingEnd (h : Canon s.mem) {l answered tx rx} : Canon (s.trainingEnd l answered tx rx).mem := by
  unfold State.trainingEnd
  extract_lets x y
  split
  · extract_lets s1
    have h1 : Canon s1.mem := h.putLink.linkEvent
    exact (Canon.ite h1.raiseHealth h1).settleDown
  · exact .ite h.setLink.failLink.modLink.raiseHealth h.setLink.failLink.modLink

theorem Canon.enSet (h : Canon s.mem) {l} : Canon (s.enSet l).mem := .ite h (.ite h.putLink.linkEvent h.setLink)

theorem Canon.enClear (h : Canon s.mem) {l} : Canon (s.enClear l).mem := by
  unfold State.enClear
  extract_lets x
  exact .ite h.setLink.settleDown (.ite h.setLink (.ite h.setLink h.putLink.linkEvent.judgePeers))

theorem Canon.retrain (h : Canon s.mem) {l} : Canon (s.retrain l).mem := by
  unfold State.retrain
  exact .ite h.putLink.linkEvent (.ite h.putLink.linkEvent h)

theorem Canon.parkTo (h : Canon s.mem) {l park nap} : Canon (s.parkTo l park nap).mem := .ite h.setLink.regroup h.setLink.regroup

theorem Canon.parkWrite (h : Canon s.mem) {l park} : Canon (s.parkWrite l park).mem := .ite h.parkTo h

theorem Canon.execWavelengthWakeEnd (h : Canon s.mem) {link} : InNext (execWavelengthWakeEnd link s) := by
  unfold Machine.execWavelengthWakeEnd
  extract_lets x
  split
  · exact h
  · exact h.setLink.regroup.sweep

theorem Canon.clearPeer (h : Canon s.mem) {n} : Canon (s.clearPeer n).mem := h.setPeer

theorem Canon.lqcfg (h : Canon s.mem) {l v} : Canon (s.lqcfg l v).mem := h.putLink

theorem Canon.leaveNap (h : Canon s.mem) {k} : Canon (s.leaveNap k).mem := (h.foldl (·.modCore)).withPower.foldl (·.parkTo)

theorem Canon.endExit (h : Canon s.mem) {core} : Canon (s.endExit core).mem := .ite (Canon.ite h.leaveNap h).modCore h

theorem Canon.wakeNow (h : Canon s.mem) {core} : Canon (s.wakeNow core).mem := .ite h.wakeUnit.endExit h

theorem Canon.setLattol (h : Canon s.mem) {v} : Canon (s.setLattol v).mem := h.upd.foldl (fun ht => .ite ht.wakeUnit ht)

theorem Canon.setPower (h : Canon s.mem) {f} : Canon (s.setPower f).mem := h

theorem Canon.wakeAll (h : Canon s.mem) : Canon s.wakeAll.mem := h.foldl (·.wakeNow)

theorem Canon.noteShutter (h : Canon s.mem) : Canon s.noteShutter.mem := h.logError

theorem Canon.trigger (h : Canon s.mem) {src} : Canon (s.trigger src).mem :=
  .ite h.wakeAll.setPower.noteShutter (.ite h.setPower.noteShutter h)

theorem Canon.askResume (h : Canon s.mem) {discard} : Canon (s.askResume discard).mem := .ite h.setPower (.ite h.setPower h)

theorem Canon.mapSeats (h : Canon s.mem) {f} : Canon (s.mapSeats f).mem := h

theorem Canon.mapBanks (h : Canon s.mem) {f} : Canon (s.mapBanks f).mem := h

theorem Canon.inPhase {t : State} (h : Canon s.mem) (ht : Canon t.mem) {n} : InNext (s.inPhase n t) := Canon.ite ht h

theorem Canon.orphanPackets (h : Canon s.mem) {h'} : Canon (s.orphanPackets h').mem := h

theorem Canon.linkDown (h : Canon s.mem) {l} : Canon (s.linkDown l).mem := h.putLink.linkEvent

theorem Canon.execShutterPhase4 (h : Canon s.mem) : InNext (execShutterPhase4 s) := by
  unfold Machine.execShutterPhase4
  exact h.inPhase (.ite (h.foldl (fun ht => Canon.ite ht.linkDown (.ite ht.setLink ht))).setPower
    (h.foldl (fun ht => Canon.ite ht.linkDown (.ite ht.setLink ht))))

theorem Canon.resumePaused (h : Canon s.mem) {f} : Canon (s.resumePaused f).mem := h.foldl (·.modOp.pinOp)

theorem Canon.relink (h : Canon s.mem) : Canon s.relink.mem := h.foldl (fun ht => .ite ht.setLink.linkEvent ht)

theorem Canon.discardAll (h : Canon s.mem) : Canon s.discardAll.mem := by
  unfold State.discardAll
  extract_lets s1 s2 s3
  have h1 : Canon s1.mem := h.foldl (·.cancelLaunch)
  have h3 : Canon s3.mem := h1.mapBanks.withOps
  exact h3.foldl (·.setSeat?)

theorem Canon.resumeStep (h : Canon s.mem) : Canon s.resumeStep.mem := by
  unfold State.resumeStep
  extract_lets discard
  split
  · exact h.mapBanks.setPower
  · exact .ite h.relink h.setPower
  · exact .ite h.setPower.discardAll h.setPower.resumePaused
  · exact .ite h.setPower h.setPower.mapBanks.resumePaused
  · exact h.mapBanks.setPower.retryLaunches.bumpEvent.noteShutter

theorem Canon.setPcap (h : Canon s.mem) {v mgmt} : Canon (s.setPcap v mgmt).mem := .ite h h.setPower

theorem Canon.setThr (h : Canon s.mem) {v} : Canon (s.setThr v).mem := h.setPower

theorem Canon.answer (h : Canon s.mem) {m} : Canon (s.answer m).mem := h

theorem Canon.postLog (h : Canon s.mem) {v} : Canon (s.postLog v).mem := h.storeReg.logRec

theorem Canon.answerRead (h : Canon s.mem) {pa n} : Canon (s.answerRead pa n).mem := h.answer

theorem Canon.nextRead (h : Canon s.mem) : InSome s.nextRead := by
  unfold State.nextRead
  split
  · trivial
  · exact .ite .none h.upd.answerRead

theorem Canon.judgeQuar (h : Canon s.mem) : Canon s.judgeQuar.mem := by
  unfold State.judgeQuar
  extract_lets all s1
  have h1 : Canon s1.mem := .ite h h.raiseHealth
  exact .ite h1.raiseHealth h1

theorem Canon.setQuar (h : Canon s.mem) {plane core on} : Canon (s.setQuar plane core on).mem := .ite h.modCore.logError.judgeQuar h

theorem Canon.quarWrite (h : Canon s.mem) {word v} : Canon (s.quarWrite word v).mem := h.foldl (fun ht => .ite ht.setQuar ht)

theorem Canon.setBoot (h : Canon s.mem) {f} : Canon (s.setBoot f).mem := h

theorem Canon.bootFails (h : Canon s.mem) {step} : Canon (s.bootFails step).mem := h.setBoot.logError.answer

theorem Canon.bootStep {t : State} (h : Canon s.mem) (ht : Canon t.mem) {step} : InNext (s.bootStep step t) := Canon.ite ht h

theorem Canon.reboot : Canon s.reboot.mem := by
  unfold State.reboot
  extract_lets base log boot fresh
  have h : Canon fresh.mem := Memory.wf_reset
  exact .ite h.logError h

theorem Canon.execPowerOnReset (h : Canon s.mem) : InNext (execPowerOnReset s) := by
  unfold Machine.execPowerOnReset
  extract_lets s1
  have h1 : Canon s1.mem := .ite Canon.reboot h
  exact h1.bootStep (.ite h1.bootFails h1.setBoot)

theorem Canon.startControl (h : Canon s.mem) {m entry} : Canon (s.startControl m entry).mem := by
  unfold State.startControl
  extract_lets c
  split
  · split
    · exact h
    · exact h.setSeat?
    · exact h.setCore
  · exact h.setCore

theorem Canon.execBootOsLoad (h : Canon s.mem) {image} : InNext (execBootOsLoad image s) := by
  unfold Machine.execBootOsLoad
  split
  · exact h.bootStep h.pokeBytes.setBoot.startControl.upd
  · exact h.bootStep h.bootFails

theorem Canon.ccstart (h : Canon s.mem) {mask} : Canon (s.ccstart mask).mem := h.foldl (fun ht => .ite ht.startControl ht)

theorem Canon.ccbootDone (h : Canon s.mem) : Canon s.ccbootDone.mem := h.setBoot

theorem Canon.ccbarCount (h : Canon s.mem) {n count} : Canon (s.ccbarCount n count).mem := h

theorem Canon.endCmd (h : Canon s.mem) {result} : Canon (s.endCmd result).mem := h.upd.bumpEvent

theorem Canon.command (h : Canon s.mem) {n f} (hf : ∀ {x}, Canon (f x).mem) : Canon (s.command n f).mem := by
  unfold State.command
  split
  · exact h
  · split
    · exact h.endCmd
    · exact hf

theorem Canon.pauseLaunch (h : Canon s.mem) {n} : Canon (s.pauseLaunch n).mem := by
  unfold State.pauseLaunch
  exact h.command (.ite h.endCmd (.ite (h.setLaunch.askSeats.foldl (·.restOp)).endCmd (h.setLaunch.askSeats.foldl (·.restOp)).upd))

theorem Canon.resumeLaunch (h : Canon s.mem) {n} : Canon (s.resumeLaunch n).mem := h.command (.ite h.endCmd h.setLaunch.resumePaused.endCmd)

theorem Canon.writeExport (h : Canon s.mem) {pa c} : Canon (s.writeExport pa c).mem := (h.foldl (·.pokeImage)).pokeFields

theorem Canon.exportTask (h : Canon s.mem) {n t} : Canon (s.exportTask n t).mem := by
  refine h.command ?_
  intro l
  refine .ite h.endCmd ?_
  split
  · refine .ite h.endCmd (.ite h.endCmd (.ite h ?_))
    extract_lets cs s1 s2
    have h1 : Canon s1.mem := h.setTask.freeTaskSlots
    have h2 : Canon s2.mem := by
      dsimp only [s2]
      split
      · exact h1.writeExport
      · exact h1
    exact h2.endCmd
  · exact h.endCmd

theorem Canon.retarget (h : Canon s.mem) {n t} : Canon (s.retarget n t).mem := by
  refine h.command ?_
  intro l
  refine .ite h.endCmd ?_
  split
  · refine .ite h.endCmd ?_
    split
    · exact .ite h.endCmd h.setTask.wakeFor.endCmd
    · exact h.endCmd
    · exact h
  · exact h.endCmd

theorem Canon.completeCmd (h : Canon s.mem) : Canon s.completeCmd.mem := by
  unfold State.completeCmd
  split
  · exact h.upd.exportTask
  · exact h.upd.retarget
  · exact .ite h.endCmd h
  · exact h

theorem Canon.ctxPool (h : Canon s.mem) {off v} : Canon (s.ctxPool off v).mem := .ite h (.ite h.upd (.ite h.upd h))

theorem Canon.capWidth (h : Canon s.mem) {v a} : Canon (s.capWidth v a).mem := by
  unfold State.capWidth
  split
  · exact .ite h h.storeReg.regroup.sweep
  · exact h.storeReg

theorem Canon.execRegisterWrite (h : Canon s.mem) {pa v} : InNext (execRegisterWrite pa v s) := by
  unfold Machine.execRegisterWrite
  split
  · exact h.capWidth
  · exact h

/-- The instructions and events. One line closes the element instructions: `elemOpOf` has a rule of its own. -/
theorem Canon.exec (h : Canon s.mem) {i} : InNext (exec i s) := by
  unfold Machine.exec
  have k {f} (hf : elemOpOf i = some f) : InNext (Machine.elemAlone f s) := h.elemAlone fun _ => .elemOpOf hf
  cases i with
  | nop | ifence | echo => exact h.retire
  | brk | trap => exact h.trapSingle
  | tend => exact h.execTend
  | tyield => exact h.execTyield
  | rel => exact h.execRel
  | claim => exact h.execClaim
  | eret => exact .ite (h.afterSlot h.eretGo) h.trapSingle
  | sjoin => exact h.execSjoin
  | j => exact h.transfer id
  | jl => exact h.transfer (·.linkTo)
  | jr => exact h.transferReg id
  | jlr => exact h.transferReg (·.linkTo)
  | bEq | bNe | bLt | bGe | bLtu | bGeu | bany | ball => exact h.branchIf
  | split => exact h.execSplit
  | getc => exact h.execGetc
  | setc => exact h.execSetc
  | rnd => exact (h.echoInto (·.freeWord) h).finishSingle
  | add | sub | mul | mulh | mulhu | div | divu | rem | remu | and | or | xor | andn | sll | srl | sra | rol | ror | slt | sltu | min | max
    | minu | maxu | fsl | fsr | csel | clz | ctz | popc | sextB | sextH | sextW | zextB | zextH | zextW | bswap | addi | andi | ori | xori
    | slli | srli | srai | slti | sltiu | li | lih | amovs | pstat | vlq => exact h.setReg
  | ldB | ldBu | ldH | ldHu | ldW | ldWu | ldD => exact h.load
  | ldAcqW | ldAcqD => exact h.loadAcq
  | stB | stH | stW | stD => exact h.store
  | stRelW | stRelD => exact h.storeRel
  | amoAdd | amoAnd | amoOr | amoXor | amoMin | amoMax | amoMinu | amoMaxu | amoSwap | amoFadd | amoCas => exact h.atomic
  | push | pop => exact h.stackOp
  | faddF32 | fsubF32 | fmulF32 | fdivF32 | fsqrtF32 | fmaF32 | fmsF32 | faddF64 | fsubF64 | fmulF64 | fdivF64 | fsqrtF64 | fmaF64 | fmsF64
    | fcvtF32I64 | fcvtF32N64 | fcvtI64F32 | fcvtN64F32 | fcvtF64I64 | fcvtF64N64 | fcvtI64F64 | fcvtN64F64 | fcvtF32F64 | fcvtBf16F32 =>
    exact h.roundingOp
  | fminF32 | fmaxF32 | feqF32 | fltF32 | fleF32 | fclassF32 | fnegF32 | fabsF32 | fminF64 | fmaxF64 | feqF64 | fltF64 | fleF64 | fclassF64
    | fnegF64 | fabsF64 | fcvtF64F32 | fcvtF32Bf16 => exact h.plainOp
  | amov | aset | aadd | aaddi => exact h.perBank
  | smine => exact h.execSmine
  | act => exact h.rowCommand (h.paneCommand (·.setPane.findErrors.ownRow.touch))
  | actz => exact h.paneCommand (·.setPane)
  | wb => exact h.paneCommand (·.writePane)
  | wbto => exact h.rowCommand (h.paneCommand (·.writePane))
  | pre => exact h.paneCommand (fun ht => .ite ht.setPane ht.setPane)
  | rcopy => exact h.execRcopy
  | rfsh | shut => exact h.paneCommand (·.modBank)
  | reopen => exact h.paneCommand (·.freeBytes.setPane)
  | rshufRot | rshufXor | rshufRev | rshufBcast => exact h.elemAlone fun _ => .rshufOp
  | vadd | vsub | vmul | vfma | vfms | vfnma | vmin | vmax | vabs | vneg | vdiv | vsqrt | vrcp | vrsq | vexp2 | vlog2 | vmulh | vadds
    | vsubs | vand | vor | vxor | vnot | vandn | vsll | vsrl | vsra | vfsl | vfsr | vclz | vpopc | vcmpEq | vcmpNe | vcmpLt | vcmpLe | vcmpGt
    | vcmpGe | mand | mor | mxor | mnot | mpopc | mfirst | vsel | vmov | vbcast | vslideUp | vslideDn | vcompress | vidx | vcvt | vwfma | vdot
    | vqenc | vqdec | vredSum | vredMax | vredMin | vredAnd | vredOr | vgmax | vscan | vld | vlds | vldx | vst | vsts | vstx | vstb | vldl
    | vstc | vspill | vfill => exact k rfl
  | cpy | cpy2d | rsct | coll | red | gath | nmo | tspawn => exact h.perBankOp
  | mmma => exact h.execMmma
  | mdrain => exact h.execMdrain
  | mattach => exact h.execMattach
  | mdetach => exact h.execMdetach
  | mshape => exact h.atDepth0 (.ite h.trapSingle h.modSeat.retire)
  | mzero => exact h.execMzero
  | kwait => exact h.execKwait
  | kwaitNt => exact h.execKwaitNt
  | kpoll | kinfo => exact h.withTokens (h.echoInto id h).finishSingle
  | kcancel => exact h.withTokens (h.foldl (fun ht => (Canon.ite ht ht.killOp).emptyToken)).retire
  | kdetach => exact h.withTokens (h.foldl (·.detachOp.emptyToken)).onActive.retire
  | kadopt => exact h.execKadopt
  | kprio => exact h.withTokens (h.foldl (fun ht => .ite ht ht.modOp)).retire
  | fence => exact h.afterRows h.orderAll.retire
  | xfence => exact h.execXfence
  | fbar => exact h.execFbar
  | bwait => exact h.execBwait
  | ipost => exact h.atDepth0 (.ite h.trapSingle (h.afterRows h.modCore.retire))
  | iwait => exact h.atDepth0 (.ite h.orderRows.retire h.waitOn)
  | await => exact h.execAwait
  | launch => exact h.execLaunch
  | tlbinv => exact h.execTlbinv
  | issueAfterInterlock | kwaitEnd | awaitRecheck | bwaitEnd | fbarArrive | iwaitEnd | tendWaitEnd | mdetachWaitEnd | mzeroWaitEnd
    | xfenceWaitEnd | fifoWaitEnd => exact h.endWait
  | openingEnd | writingEnd => exact h.endTransition
  | closingEnd => exact Canon.ite (.ite h.setPane h) h.endTransition
  | claimEviction => exact Canon.ite h.evictNext h
  | refreshTick => exact Canon.ite h.refreshTick h
  | refreshDeadlineTrap => exact h.execRefreshDeadlineTrap
  | forcedRefresh => exact Canon.ite h.forceRefresh h
  | tempSensorUpdate => exact Canon.ite h.modBank h
  | bondRepair => exact Canon.ite h.modCore.logError h
  | translationWalkEnd => exact h.execTranslationWalkEnd
  | opStart => exact Canon.ite h.startOp.sweep h
  | copyGranule => exact h.granuleOf h.copyGranule
  | rsctTrain => exact h.execRsctTrain
  | collGranule => exact h.execCollGranule
  | redGranule => exact h.execRedGranule
  | gathGranule => exact h.execGathGranule
  | nmoGranule => exact h.execNmoGranule
  | mmmaKstep => exact h.execMmmaKstep
  | mdrainGranule => exact h.execMdrainGranule
  | enginePriorityAging => exact Canon.ite h.modOp h
  | launchStart => exact h.launchStart.sweep
  | tspawnStart => exact h.tspawnStart.sweep
  | taskReady => exact h.taskReady.sweep
  | dispatchOffer => exact Canon.ite h.offer h
  | preemptionTake => exact h.execPreemptionTake
  | preemptHandlerTimeout => exact h.execPreemptHandlerTimeout
  | seatSave => exact h.execSeatSave
  | schedulerStateError => exact h.execSchedulerStateError
  | vote => exact h.vote
  | voteTimeout => exact Canon.ite h.decideVote h
  | sramModeWrite => exact h.sramMode
  | sramFifoClr => exact h.sramClear
  | sramModeChangeEnd => exact Canon.ite h.setSram h
  | migreqPromote | migreqDemote => exact h.migrate
  | migrationStart => exact h.migStart
  | migrationFinish => exact h.migFinish
  | migrationAutoSelect => exact Canon.ite h.setPlace.queueMig h
  | flitTransmit => exact Canon.ite h.putLink.switchGroup h
  | flitReceive => exact Canon.ite (Canon.ite h.freeBool.setLink.setLink h.freeBool.setLink.takeFlit).sweep h
  | ackTimeout => exact Canon.ite h.putLink h
  | strandDeath => exact h.execStrandDeath
  | linkTimeout => exact Canon.ite h.failLink.sweep h
  | peerTimeout => exact h.execPeerTimeout
  | linkTrainingEnd => exact Canon.ite h.trainingEnd.sweep h
  | lnkctlEnSet => exact h.enSet
  | lnkctlEnClear => exact h.enClear
  | lnkctlRetrain => exact h.retrain
  | lnkctlParkWrite => exact h.parkWrite.sweep
  | wavelengthWakeEnd => exact h.execWavelengthWakeEnd
  | peerFailedClear => exact Canon.ite h.clearPeer h
  | lqQuiet => exact Canon.ite h.setLink.bumpEvent h
  | lqcfgWrite => exact Canon.ite h.lqcfg h
  | lattolWrite => exact h.setLattol
  | coreIdleEntry | coreDozeEntry => exact Canon.ite h.modCore h
  | stackNapEntry => exact Canon.ite ((h.foldl (·.modCore)).withPower.foldl (·.parkTo)).sweep h
  | powerWake => exact Canon.ite h.wakeUnit h
  | powerExitEnd => exact Canon.ite h.endExit.sweep h
  | pwrcmdShutter | platformPowerEvent => exact h.trigger.sweep
  | pwrcmdResume | pwrcmdResumeDiscard => exact h.askResume
  | supplyDip => exact h.trigger.setPower.sweep
  | supplyFail | dutyUpdate => exact h.setPower
  | shutterPhase1 => exact h.inPhase h.mapSeats.withLinked.setPower
  | shutterPhase2 => exact h.inPhase (h.foldl (·.pauseOp)).mapBanks.setPower
  | shutterPhase3 => exact h.inPhase (.ite h (h.foldl (·.pauseOp)).setPower)
  | shutterGranuleTimeout => exact h.inPhase (.ite h.orphanPackets.pauseOp.modOp h)
  | shutterPhase4 => exact h.execShutterPhase4
  | shutterLinkTimeout => exact h.inPhase (.ite h.linkDown h)
  | shutterPhase5 => exact h.inPhase h.bumpEvent.setPower
  | resumptionEnd => exact h.inPhase h.resumeStep.sweep
  | autoResume => exact Canon.ite h.askResume h
  | powerFloorTimeout => exact Canon.ite h.setPower.logError.bumpEvent h
  | pcapWrite => exact h.setPcap
  | thrFloorWrite => exact h.setThr
  | mgmtTelemetry | mgmtLogExport => exact h.upd.answer
  | telemetrySnapshot => exact Canon.ite h.answer h
  | mgmtFirmware => exact Canon.ite h.upd.answer h.answer
  | mgmtPowerCap => exact h.setPcap.answer
  | mgmtShutter => exact Canon.ite h.trigger.sweep.answer (.ite h.askResume.answer (.ite h.askResume.answer h.answer))
  | mgmtOff => exact Canon.ite h.setPower.answer h.answer
  | mgmtQuarantine => exact Canon.ite h.setQuar.answer h.answer
  | mgmtMemoryRead => exact Canon.ite h.answer (.ite h.upd h.answerRead)
  | elpostAppend => exact h.postLog
  | quarWrite => exact h.quarWrite
  | powerOnReset => exact h.execPowerOnReset
  | bootFirmwareLoad => exact h.bootStep (.ite h.setBoot h.bootFails)
  | bootSillInit => exact h.bootStep (.ite h.setBoot.withHarvest h.bootFails)
  | bootOsLoad => exact h.execBootOsLoad
  | bootStep5Timeout => exact Canon.ite h.setBoot.logError.answer h
  | ccstart => exact h.ccstart
  | ccbootDone => exact h.ccbootDone
  | ccbarCountWrite => exact Canon.ite h.ccbarCount h
  | ccTimer => exact Canon.ite (h.asAgent (·.toBoundary.takeTrap)) h
  | lcmdPause => exact h.pauseLaunch
  | lcmdResume => exact h.resumeLaunch
  | lcmdCancel => exact (h.command h.cancelLaunch.endCmd).sweep
  | lcmdExport => exact h.exportTask
  | lcmdRetarget => exact h.retarget
  | lcmdComplete => exact h.completeCmd
  | ctxPoolWrite => exact h.ctxPool
  | registerWrite => exact h.execRegisterWrite
  | supplySteady => exact Canon.ite h.setPower h
  | wavelengthDark => exact Canon.ite h h.setLink
  | seatFormingEnd => exact h.execSeatFormingEnd

/-! ### The turn and the step -/

/-- `devReg` is made opaque first: the kernel would compute it of an open address. -/
theorem Canon.runDue (h : Canon s.mem) {d} : Canon (s.runDue d).mem := by
  obtain ⟨reg, hr⟩ : ∃ f, devReg = f := ⟨_, rfl⟩
  unfold State.runDue
  rw [hr]
  cases d with
  | peerLost => exact h.losePeer.sweep
  | launchStart => exact h.launchStart.sweep
  | tspawnStart => exact h.tspawnStart.sweep
  | sramMode => exact h.sramMode
  | sramClr => exact h.sramClear
  | migrate => exact h.migrate
  | linkEn => exact h.enSet
  | linkDis => exact h.enClear
  | retrain => exact h.retrain
  | park => exact h.parkWrite.sweep
  | peerClear => exact h.clearPeer
  | lqcfg => exact h.lqcfg
  | lattol => exact h.setLattol
  | pwrcmd => exact .ite h.trigger.sweep h.askResume
  | pcap => exact h.setPcap
  | thr => exact h.setThr
  | elpost => exact h.postLog
  | quar => exact h.quarWrite
  | ccstart => exact h.ccstart
  | ccboot => exact h.ccbootDone
  | ccbar => exact h.ccbarCount
  | lcmd => exact .ite h.pauseLaunch (.ite h.resumeLaunch (.ite (h.command h.cancelLaunch.endCmd).sweep (.ite h.exportTask h.retarget)))
  | ctxPool => exact h.ctxPool
  | register =>
    dsimp only
    split
    · exact h.capWidth
    · exact h

theorem Canon.nextDue (h : Canon s.mem) : InPair s.nextDue := by
  unfold State.nextDue
  split
  · split
    · exact h
    · trivial
  · trivial

theorem Canon.nextOr (h : Canon s.mem) {r} (hr : InNext r) : Canon (nextOr s r).mem := by
  cases r with
  | next t => exact hr
  | fault => exact h
  | refused => exact h

theorem Canon.settlePane (h : Canon s.mem) {c b n} : Canon (s.settlePane c b n).mem := by
  unfold State.settlePane
  extract_lets p
  split
  · exact h.nextOr (h.exec (i := .openingEnd c b n))
  · exact h.nextOr (h.exec (i := .writingEnd c b n))
  · exact h.nextOr (h.exec (i := .closingEnd c b n))

theorem Canon.asyncDue (h : Canon s.mem) {a} : InSome (s.asyncDue a) := by
  unfold State.asyncDue
  split
  · trivial
  · split
    · exact h.deadline
    · exact InSome.ite h.preempt InSome.none

theorem Canon.boundary (h : Canon s.mem) {a} : InSome (s.boundary a) := by
  unfold State.boundary
  extract_lets t rolling
  refine .ite (.ite h.takeTrap .none) (.ite ?_ ?_)
  · exact (InSome.ite h.asyncDue .none).getD h.vote
  · exact h.asyncDue.andThen fun h1 => .ite (.map h.settlePane) (h.ownTrap.getD h1)

theorem Canon.runConvoy (h : Canon s.mem) : InNext (runConvoy s) := by
  unfold Machine.runConvoy
  split
  · exact h
  · split
    · split
      · exact h.exec
      · exact h
    · exact h.exec
    · exact h.elemPhase fun _ => .convoyOps

theorem Canon.issue (h : Canon s.mem) : InNext (issue s) := by
  have hc : InOpening (Machine.ensureConvoy (s.modPart s.focus fun p => { p with wait := none })) := h.modPart.ensureConvoy
  unfold Machine.issue
  split
  next he =>
    rw [he] at hc
    exact Canon.runConvoy hc
  next he =>
    rw [he] at hc
    exact hc

theorem Canon.turnAwake (h : Canon s.mem) {a} : InNext (turnAwake s a) := by
  unfold Machine.turnAwake
  split
  · exact h
  · split
    next he => exact (InSome.ite h.boundary InSome.none).of_eq he
    · exact h.issue

theorem Canon.turnOf (h : Canon s.mem) {a} : InNext (turnOf s a) := .ite h.upd h.upd.wakeNow.turnAwake

theorem Canon.granuleStep (h : Canon s.mem) {i} : InNext (granuleStep s i) := by
  unfold Machine.granuleStep
  split
  · exact h.granuleOf h.copyGranule
  · exact h.granuleOf h.copyGranule
  · exact h.execRsctTrain
  · exact h.execCollGranule
  · exact h.execRedGranule
  · exact h.execGathGranule
  · exact h.execNmoGranule
  · exact h.execMmmaKstep
  · exact h.execMdrainGranule
  · exact h

theorem Canon.driveRow (h : Canon s.mem) {w} : InSome (s.driveRow w) := by
  cases w with
  | wake => exact .ite .none h.wakeNow
  | claim => exact .ite .none (.ite h.settlePane (.ite h.evictNext .none))
  | sram q b => exact .ite (h.nextOr (h.exec (i := .sramModeChangeEnd q b))) .none
  | _ => trivial

theorem Canon.driveMig (h : Canon s.mem) {k} : InSome (s.driveMig k) := by
  unfold State.driveMig
  split
  · exact h.driveRow
  · exact Canon.ite h.migFinish h.migStart

theorem Canon.driveHeld (h : Canon s.mem) {w} : InSome (s.driveHeld w) := by
  unfold State.driveHeld
  split
  · exact .ite .none (InSome.bind h.driveMig)
  · exact h.driveRow

theorem Canon.driveLaunch (h : Canon s.mem) {n} : Canon (s.driveLaunch n).mem := by
  unfold State.driveLaunch
  split
  · exact h
  · split
    next t k _ =>
      refine .ite (InSome.getD (.bind ?_) (h.foldl (·.wakeNow)).offer) (h.nextOr (h.exec (i := .taskReady n t)))
      intro w
      split
      · exact h.driveHeld
      · trivial
    next => exact h

theorem Canon.driveOp (h : Canon s.mem) {fuel i} : Canon (State.driveOp fuel s i).mem := by
  induction fuel generalizing i with
  | zero => exact h
  | succ fuel ih =>
    -- `split` is too slow on this match of three values
    conv => arg 1; arg 1; whnf
    generalize (s.op i).kind = k, (s.op i).st = st, (s.op i).after = a
    cases st with
    | pending =>
      cases a with
      | some => cases k <;> exact ih
      | none =>
        cases k with
        | launch => exact h.nextOr (h.exec (i := .launchStart i))
        | tspawn => exact h.nextOr (h.exec (i := .tspawnStart i))
        | _ => exact h.nextOr (h.exec (i := .opStart i))
    | running =>
      cases k with
      | launch | tspawn =>
        dsimp only
        split
        · exact h.driveLaunch
        · exact h
      | _ =>
        dsimp only
        split
        · exact h.settlePane
        · exact h.driveHeld.getD (h.nextOr h.granuleStep)
        · exact h.nextOr h.granuleStep
    | _ => cases k <;> exact h

theorem Canon.driveDevices (h : Canon s.mem) : InSome s.driveDevices := by
  unfold State.driveDevices
  split
  · split
    · exact Canon.ite h.completeCmd h.driveLaunch
    · exact (InSome.bind h.driveHeld).getD h.completeCmd
  · exact InSome.bind h.driveMig

theorem Canon.look (h : Canon s.mem) {a} : Canon (s.look a).mem := h

theorem Canon.driveVote (h : Canon s.mem) {l t} : InSome (s.driveVote l t) := by
  unfold State.driveVote
  extract_lets vs
  split
  · exact InSome.map h.look
  · split
    · exact h.driveHeld
    · split
      · exact InSome.map h.look
      · exact .ite h.vote (InSome.map h.look)

theorem Canon.driveWait (h : Canon s.mem) {w} : InSome (s.driveWait w) := by
  unfold State.driveWait
  extract_lets t
  split
  · exact .ite .none h.settlePane
  · exact .ite .none (InSome.map h.driveOp)
  · exact .ite (InSome.map h.driveOp) h.driveRow
  · exact h.driveHeld
  · exact h.driveRow
  · exact h.driveRow
  · exact InSome.map h
  · exact .ite .none h.driveOp
  · exact .ite .none h.driveOp
  · exact .ite .none h.driveOp
  · exact InSome.map h.settlePane
  · exact h.driveVote
  · exact InSome.map h.look
  · exact h.driveDevices
  · trivial

theorem Canon.drivePower (h : Canon s.mem) {r} (e : s.drivePower = some r) : InNext r := by
  have goes {q} (hq : InNext q) (e : (if Machine.nextOr s q = s then none else some q) = some r) : InNext r := by
    obtain ⟨-, e⟩ := Option.ite_none_left_eq_some.1 e
    cases e
    exact hq
  unfold State.drivePower at e
  extract_lets at e
  split at e
  · exact goes (h.exec (i := .shutterPhase1)) e
  · exact goes (h.exec (i := .shutterPhase2)) e
  · split at e
    · exact goes (q := .next _) h.driveOp e
    · exact goes (h.exec (i := .shutterPhase3)) e
  · exact goes (h.exec (i := .shutterPhase4)) e
  · exact goes (h.exec (i := .shutterPhase5)) e
  · exact goes (h.exec (i := .resumptionEnd)) e
  · cases e

theorem Canon.idle (h : Canon s.mem) : Canon s.idle.mem := h

theorem Canon.driveBoot (h : Canon s.mem) : InNext s.driveBoot := by
  unfold State.driveBoot
  split
  · exact h.idle
  · split
    · exact h.execPowerOnReset
    · exact h.exec (i := .bootFirmwareLoad true true)
    · exact h.exec (i := .bootSillInit [] true)
    · exact h.idle

theorem Canon.driveOther_other (h : Canon s.mem) : InNext (State.driveOther.other s) := by
  unfold State.driveOther.other
  split
  · exact h
  · exact h.driveBoot

theorem Canon.driveOther (h : Canon s.mem) : InNext s.driveOther := by
  unfold State.driveOther
  split
  next he => exact h.drivePower he
  next =>
    split
    · split
      · exact h.execSeatFormingEnd
      · split
        · exact h
        · split
          next he => exact (InSome.bind h.driveHeld).of_eq he
          next => exact h.execSeatSave
      · exact h.driveOther_other
    · exact h.driveOther_other

theorem Canon.freeTurn (h : Canon s.mem) : InNext (freeTurn s) := by
  unfold Machine.freeTurn
  split
  next he => exact (InSome.bind h.driveHeld).of_eq he
  · split
    · split
      next he => exact (InSome.bind h.driveWait).of_eq he
      · exact h.turnOf
    · exact h.driveOther

theorem Canon.deny (h : Canon s.mem) {i va} : Canon (s.deny i va).mem := .ite h.endOp.dropMembers.sweep h

theorem Canon.takeAhead (h : Canon s.mem) {core base path pa} : Canon (s.takeAhead core base path pa).mem := .ite h.upd h

theorem Canon.takeTurn (h : Canon s.mem) {t} : InNext (takeTurn s t) := by
  unfold Machine.takeTurn
  split
  · exact h.turnOf
  · exact .ite h.exec h
  · exact h.upd
  · exact h.modCore
  · exact h.modCore
  · exact h.modLink
  · exact h.modCore
  · exact h.setBoot
  · exact h.deny
  · exact h.takeAhead

theorem Canon.offTurn (h : Canon s.mem) : InNext (offTurn s) := by
  unfold Machine.offTurn
  split
  · exact .ite h.upd.exec h
  · exact h.upd.setBoot
  · exact h.upd
  · trivial

theorem Canon.opStep (h : Canon s.mem) {i} : InNext (opStep s i) := by
  unfold Machine.opStep
  split
  · exact h.exec (i := .launchStart i)
  · exact h.exec (i := .tspawnStart i)
  · exact h.exec (i := .opStart i)
  · exact h.granuleStep
  · exact h

theorem Canon.serveWaiter (h : Canon s.mem) {w} : InNext (serveWaiter s w) := by
  unfold Machine.serveWaiter
  split
  · exact h.turnOf
  · exact h.opStep
  · exact Canon.ite (h.performPosted.getD h) h
  · exact h.servePacket.getD h
  · exact Canon.ite h.migFinish h.migStart
  · exact h.vote
  · exact h.execSeatSave
  · exact h.stageNow
  · exact h.nextRead.getD h
  · exact h.completeCmd

theorem Canon.nextStaged (h : Canon s.mem) : InSome s.nextStaged := InSome.map h.stageNow

theorem Canon.noteArrivals {t : State} (h : Canon t.mem) : Canon (s.noteArrivals t).mem := by
  refine h.upd.foldl fun hu => ?_
  split
  · exact hu.wakeUnit
  · exact hu

theorem Canon.nextTurn (h : Canon s.mem) : InNext (nextTurn s) := by
  unfold Machine.nextTurn
  split
  · exact h.offTurn
  · split
    · exact h.upd.serveWaiter
    · split
      next he => exact (h.nextDue.of_eq he).runDue
      next =>
        split
        next he => exact (h.nextPosted.orElse (h.servePacket.orElse (h.nextRead.orElse h.nextStaged))).of_eq he
        next =>
          split
          · exact h.upd.takeTurn
          · exact h.freeTurn

theorem Canon.fullTurn (h : Canon s.mem) : InNext (fullTurn s) := by
  have hn := h.nextTurn
  unfold Machine.fullTurn
  split
  next he =>
    rw [he] at hn
    exact Canon.noteArrivals hn
  next => exact hn

theorem Canon.step (h : Canon s.mem) : InNext (step s) := h.fullTurn

/-- Settles O57: the rule of `step`, which is the chain of the rules of all that a turn does. -/
theorem everyStepKeepsTheMemoryCanonical : Obligations.EveryStepKeepsTheMemoryCanonical := by
  intro s t hs e
  have ht : InNext (step s) := Canon.step hs
  rw [e] at ht
  exact ht

end Sys2Proof.Machine
end

section
/-! Taking a trap (O11): what `takeTrap_enters` leaves to say of the class, of a control core and of a single instruction. -/

namespace Sys2Proof.Machine

-- Proofs elaborated side by side each hold a thread's stack, and the whole text compiles near the memory limit of its check.
set_option Elab.async false

/-- The classes of R348 as numbers. -/
theorem classOf_toNat (cause : BitVec 8) :
    (classOf cause).toNat = if cause = 0x18 then 1 else if cause = 0x21 then 2 else if cause = 0x28 ∨ cause = 0x29 then 3
      else if cause = 0x38 then 4 else if cause = 0x3C then 5 else 0 := by
  simp only [classOf, apply_ite BitVec.toNat]
  rfl

/-- A control core keeps its xidx, whatever the trap asks for (R342, R371). -/
theorem takeTrap_xidx_of_isCC {s : State} (hc : s.fseat.isCC = true) (hv : s.fseat.tvec ≠ 0) (cause : BitVec 8) (tval epc : Word)
    (x : Option Nat) : s.takeTrap s.focus cause tval epc x = s.takeTrap s.focus cause tval epc none := by
  change (s.seat s.focus).isCC = true at hc
  change (s.seat s.focus).tvec ≠ 0 at hv
  simp only [State.takeTrap, hc, hv, if_true, if_false]

/-- A trap of a single instruction of a thread, other than by poison, enters the handler with xidx 0 (R103). -/
theorem trapSingle_enters {s : State} (hs : Settled s) (hh : HasHandler s) (hc : s.fseat.isCC = false) {cause : BitVec 8} (hp : cause ≠ 0x14)
    (tval : Word) : EntersHandler s (s.trapSingle cause tval) cause (classOf cause).toNat tval s.fpart.pc 0 := by
  rw [trapSingle_eq s cause tval hp]
  exact takeTrap_enters hs hh cause tval s.fpart.pc (some 0) (fun h => absurd h (by simp [hc]))

/-- Settles O11: the rule of `takeTrap`; a control core keeps its xidx. -/
theorem trapsEnterTheirHandler : Obligations.TrapsEnterTheirHandler := by
  intro s cause tval epc x hs hh cls
  have hcls : (classOf cause).toNat = cls := classOf_toNat cause
  have hnone := takeTrap_enters hs hh cause tval epc none (fun _ => rfl)
  rw [hcls] at hnone
  refine ⟨?_, hnone, trapSingle_eq s cause tval⟩
  cases hc : s.fseat.isCC with
  | true =>
    rw [takeTrap_xidx_of_isCC hc hh.1]
    exact hnone
  | false =>
    have hsome := takeTrap_enters hs hh cause tval epc (some x) (fun h => absurd h (by simp [hc]))
    rw [hcls] at hsome
    exact hsome

end Sys2Proof.Machine
end

section
/-! Control registers (O16, O17, O18): which accesses trap, what a register reads as, and all that getc and setc do. -/

namespace Sys2Proof.Machine

-- Proofs elaborated side by side each hold a thread's stack, and the whole text compiles near the memory limit of its check.
set_option Elab.async false

/-! ## Which accesses trap (R17, R18, R371) -/

theorem ctlListed_thread (i : Nat) : ctlListed false i = true ↔ i ≤ 0xC ∨ (0x10 ≤ i ∧ i ≤ 0x17) := by
  simp [ctlListed]

theorem ctlListed_any {cc : Bool} {i : Nat} (h : i ∈ [1, 4, 8, 0x10, 0x11, 0x12, 0x13, 0x14, 0x16, 0x17] := by decide) :
    ctlListed cc i = true := by
  revert i
  cases cc <;> decide

theorem ctlListed_of_thread {cc : Bool} (hc : cc = false) {i : Nat} (h : i ≤ 0xC ∨ (0x10 ≤ i ∧ i ≤ 0x17) := by decide) : ctlListed cc i = true :=
  hc ▸ (ctlListed_thread i).2 h

theorem ctlListed_of_control {cc : Bool} (hc : cc = true) {i : Nat} (h : i = 0x18 ∨ i = 0x19 := by decide) : ctlListed cc i = true := by
  subst hc
  rcases h with rfl | rfl <;> rfl

theorem ctlReadOnly_iff (i : Nat) : ctlReadOnly i = true ↔ i = 2 ∨ i = 3 ∨ i = 4 ∨ i = 5 ∨ i = 6 ∨ i = 8 ∨ i = 9 ∨ i = 10 := by
  simp [ctlReadOnly]

theorem ctlTrap_of_unlisted {t : Seat} {i : Nat} (h : ctlListed t.isCC i = false) (write : Bool) : ctlTrap t i write = some 0x01 := by
  simp [ctlTrap, h]

theorem ctlTrap_of_readOnly {t : Seat} {i : Nat} (h : ctlReadOnly i = true) : ctlTrap t i true = some 0x01 := by
  simp [ctlTrap, h]

theorem ctlTrap_of_user {t : Seat} {i : Nat} {write : Bool} (hl : ctlListed t.isCC i = true) (hw : (write && ctlReadOnly i) = false)
    (hi : 0x10 ≤ i) (hu : t.status.lvl = false) : ctlTrap t i write = some 0x04 := by
  simp [ctlTrap, ctlSuper, hl, hw, hi, hu]

theorem ctlTrap_none {t : Seat} {i : Nat} {write : Bool} (hl : ctlListed t.isCC i = true) (hw : (write && ctlReadOnly i) = false)
    (hi : i < 0x10 ∨ t.status.lvl = true) : ctlTrap t i write = none := by
  have hp : (ctlSuper i && !t.status.lvl) = false := by
    rcases hi with h | h
    · simp [ctlSuper, h]
    · simp [h]
  simp [ctlTrap, hl, hw, hp]

theorem getc_traps {s : State} {d : BitVec 5} {idx : BitVec 10} {k : BitVec 8} (h : ctlTrap s.fseat idx.toNat false = some k) :
    exec (.getc d idx) s = .next (s.trapSingle k (BitVec.ofNat 64 idx.toNat)) := by
  change execGetc d idx s = _
  rw [execGetc, h, BitVec.ofNat_toNat]

theorem setc_traps {s : State} {d : BitVec 5} {idx : BitVec 10} {k : BitVec 8} (h : ctlTrap s.fseat idx.toNat true = some k) :
    exec (.setc d idx) s = .next (s.trapSingle k (BitVec.ofNat 64 idx.toNat)) := by
  change execSetc d idx s = _
  rw [execSetc, h, BitVec.ofNat_toNat]

/-- Settles O16: the cause that `ctlTrap` gives, and the entry of a single instruction's trap. -/
theorem controlRegisterAccessIsChecked : Obligations.ControlRegisterAccessIsChecked := by
  intro s d idx hs hc i listed readOnly traps
  have enters (j : Instr) (k : BitVec 8) (hk : k ≠ 0x14 ∧ (classOf k).toNat = 0)
      (e : exec j s = .next (s.trapSingle k (BitVec.ofNat 64 i))) : traps j k := by
    refine ⟨e, fun hh => ?_⟩
    have ht := trapSingle_enters hs hh hc hk.1 (BitVec.ofNat 64 i)
    rwa [hk.2] at ht
  have hl : ctlListed s.fseat.isCC i = true ↔ listed := by
    rw [hc]
    exact ctlListed_thread i
  refine ⟨fun hn => ?_, fun hr => ?_, fun hlo hhi hu => ?_⟩
  · have hf : ctlListed s.fseat.isCC i = false := Bool.eq_false_iff.2 (fun h => hn (hl.1 h))
    exact ⟨enters _ _ (by decide) (getc_traps (ctlTrap_of_unlisted hf _)), enters _ _ (by decide) (setc_traps (ctlTrap_of_unlisted hf _))⟩
  · exact enters _ _ (by decide) (setc_traps (ctlTrap_of_readOnly ((ctlReadOnly_iff i).2 hr)))
  · have ht : ctlListed s.fseat.isCC i = true := hl.2 (.inr ⟨hlo, hhi⟩)
    have hw : ctlReadOnly i = false := Bool.eq_false_iff.2 (fun h => by have := (ctlReadOnly_iff i).1 h; omega)
    exact ⟨enters _ _ (by decide) (getc_traps (ctlTrap_of_user ht rfl hlo hu)),
      enters _ _ (by decide) (setc_traps (ctlTrap_of_user ht hw hlo hu))⟩

/-! ## The words of the registers (R20-R25) -/

theorem word_eq_ofNat (v : Word) : v = BitVec.ofNat 64 v.toNat := by rw [BitVec.ofNat_toNat, BitVec.setWidth_eq]

theorem setWidth_eq_ofNat {n : Nat} (v : BitVec n) : v.setWidth 64 = BitVec.ofNat 64 v.toNat := (BitVec.ofNat_toNat 64 v).symm

/-- A number above the bits of a word is added to it. -/
theorem or_shifted {a i : Nat} (h : a < 2 ^ i) (b : Nat) :
    BitVec.ofNat 64 a ||| BitVec.ofNat 64 (b <<< i) = BitVec.ofNat 64 (a + b * 2 ^ i) := by
  rw [← BitVec.ofNat_or, Nat.lor_comm, ← Nat.shiftLeft_add_eq_or_of_lt h, Nat.shiftLeft_eq, Nat.add_comm]

/-- As `or_shifted`, for a field of the word. -/
theorem or_field {a i : Nat} (h : a < 2 ^ i) (b : Nat) :
    BitVec.ofNat 64 a ||| BitVec.ofNat 64 b <<< i = BitVec.ofNat 64 (a + b * 2 ^ i) := by
  have hb : BitVec.ofNat 64 b <<< i = BitVec.ofNat 64 (b <<< i) := by
    apply BitVec.eq_of_toNat_eq
    simp [BitVec.toNat_shiftLeft, Nat.shiftLeft_eq]
  rw [hb, or_shifted h]

/-- As `or_shifted`, for a bit that a condition sets. -/
theorem or_flag {a i : Nat} (h : a < 2 ^ i) (c : Prop) [Decidable c] :
    (BitVec.ofNat 64 a ||| if c then ((1 <<< i : Nat) : Word) else 0) = BitVec.ofNat 64 (a + if c then 2 ^ i else 0) := by
  by_cases hc : c
  · rw [if_pos hc, if_pos hc, ← Nat.one_mul (2 ^ i)]
    exact or_shifted h 1
  · simp [hc]

/-- fcsr (R21). -/
theorem fcsrOf_eq (p : Part) (b : Bank) : ctlRead.fcsrOf p b =
    BitVec.ofNat 64 (p.rmNow.toNat + b.flags.toNat * 2 ^ 8 + (if b.flags = 0 then 0 else 2 ^ 16)) := by
  have hr : p.rmNow.toNat < 2 ^ 3 := p.rmNow.isLt
  have hf : b.flags.toNat < 2 ^ 5 := b.flags.isLt
  have hb : (if b.flags = 0 then 0 else 0x10000 : Word) = if b.flags ≠ 0 then ((1 <<< 16 : Nat) : Word) else 0 := by
    rw [ite_not]
    rfl
  rw [ctlRead.fcsrOf, ← BitVec.ofNat_toNat 64 p.rmNow, ← BitVec.ofNat_toNat 64 b.flags, hb, or_field (by omega), or_flag (by omega), ite_not]

/-- status (R23). -/
theorem Status.word_eq (x : Status) : x.word =
    BitVec.ofNat 64 ((if x.lvl then 2 ^ 0 else 0) + (if x.plvl then 2 ^ 1 else 0) + (if x.clm then 2 ^ 2 else 0) + (if x.hold then 2 ^ 3 else 0) +
      x.cls.toNat * 2 ^ 4 + (if x.red then 2 ^ 8 else 0) + x.rid.toNat * 2 ^ 9) := by
  have hc : x.cls.toNat < 2 ^ 3 := x.cls.isLt
  have h0 : (if x.lvl then ((1 <<< 0 : Nat) : Word) else 0) = BitVec.ofNat 64 (if x.lvl then 2 ^ 0 else 0) := by
    cases x.lvl <;> rfl
  unfold Status.word
  dsimp only
  rw [h0, ← BitVec.ofNat_toNat 64 x.cls, ← BitVec.ofNat_toNat 64 x.rid, or_flag (by split <;> decide), or_flag (by split_ifs <;> decide),
    or_flag (by split_ifs <;> decide), or_field (by split_ifs <;> decide), or_flag (by split_ifs <;> omega), or_field (by split_ifs <;> omega)]

/-- sashcfg (R22), its fields in range. -/
theorem sashcfgWord_eq {t : Seat} {p : Part} (hs : t.log2s < 8) (hb : t.base < 16) (hd : p.splits.length < 8) :
    sashcfgWord t p = BitVec.ofNat 64 (t.log2s + t.base * 2 ^ 4 + p.splits.length * 2 ^ 8 + p.active.toNat * 2 ^ 16) := by
  have hd' : p.depth < 8 := hd
  rw [sashcfgWord, Nat.mod_eq_of_lt hs, Nat.mod_eq_of_lt hb, Nat.mod_eq_of_lt hd']
  rfl

/-- rdebt (R25): four bits of each debt. -/
theorem Bank.rdebtWord_eq (b : Bank) :
    b.rdebtWord = BitVec.ofNat 64 ((List.range 12).map (fun n => min (b.debtOf n) 15 * 2 ^ (4 * n))).sum := by
  rw [Bank.rdebtWord, List.sum_eq_foldl, List.foldl_map]
  simp only [pow_mul]
  rfl

/-- A priority as a user or the supervisor stores it (R20). -/
theorem prioOf_eq (t : Seat) (v : Word) :
    prioOf t v = if t.status.lvl = true ∨ (v.extractLsb' 0 3).toNat < t.recPrio.toNat then v.extractLsb' 0 3 else t.recPrio := by
  unfold prioOf
  cases t.status.lvl <;> simp

theorem lcapOf_eq (v : Word) : lcapOf v = max 8 (min 12 (v.toNat % 16)) := by
  simp [lcapOf]

/-- The bits of tvec that are stored (R24). -/
theorem tvecBits_eq (v : Word) : v &&& 0xFFFFFFFFFFFFFFC0 = BitVec.ofNat 64 (v.toNat / 64 * 64) := by
  have hm : v.toNat &&& 0xFFFFFFFFFFFFFFC0 = v.toNat >>> 6 <<< 6 := by
    rw [show 0xFFFFFFFFFFFFFFC0 = (2 ^ 58 - 1) <<< 6 from rfl]
    apply Nat.eq_of_testBit_eq
    intro i
    simp only [Nat.testBit_and, Nat.testBit_shiftLeft, Nat.testBit_two_pow_sub_one, Nat.testBit_shiftRight]
    by_cases h6 : 6 ≤ i
    · by_cases h64 : i < 64
      · simp [h6, show i - 6 < 58 by omega]
      · simp [h6, BitVec.testBit_toNat, BitVec.getLsbD_of_ge v i (by omega)]
    · simp [h6]
  apply BitVec.eq_of_toNat_eq
  rw [BitVec.toNat_and, BitVec.toNat_ofNat, Nat.mod_eq_of_lt (by omega)]
  rw [show (0xFFFFFFFFFFFFFFC0 : Word).toNat = 0xFFFFFFFFFFFFFFC0 from rfl, hm, Nat.shiftLeft_eq, Nat.shiftRight_eq_div_pow]

/-! ## The end of a single instruction -/

/-- Banks that a function changes change by every relation that the function meets. -/
theorem onBanks_of {s t : State} {f : Nat → Bank → Bank} {R : Nat → Bank → Bank → Prop}
    (h : ∀ c b, t.bank c b = if c = s.focus.core ∧ b ∈ s.active then f b (s.bank c b) else s.bank c b) (hR : ∀ b x, R b x (f b x)) :
    OnBanks s t R := by
  intro c b
  rw [h c b]
  split
  · exact hR b _
  · rfl

theorem State.onActive_rest (s : State) (f : Nat → Bank → Bank) : { s.onActive f with cores := s.cores } = s := by simp

/-- Without late results retiring only moves the part on (R101). -/
theorem State.retire_of_settled {s : State} (h : Settled s) : s.retire = s.setPart s.focus (s.part s.focus).advance := by
  unfold State.retire
  dsimp only
  rw [show (s.part s.focus).late = [] from h]
  split <;> rfl

/-- An update of the seat that leaves its parts leaves the part in focus. -/
theorem State.part_modSeat {s : State} {a : Agent} {f : Seat → Seat} (h : (f (s.seat a)).parts = (s.seat a).parts) :
    (s.modSeat a f).part a = s.part a := by
  simp only [State.part, State.seat_modSeat, Seat.part?, h]

/-! ## getc -/

/-- An index the seat may read: each active bank's sD is the register as that bank sees it (R132). -/
theorem getc_completes {s : State} {d : BitVec 5} {idx : BitVec 10} (hs : Settled s) (ht : ctlTrap s.fseat idx.toNat false = none) (h8 : idx ≠ 8) :
    CompletesIn (.getc d idx) s (fun b x => RegOnly d (ctlRead s.focus.core s.fseat s.fpart b x idx.toNat) x) := by
  obtain ⟨ha, hp, hb⟩ := retire_onActive hs (fun b x => x.ws d (ctlRead s.focus.core s.fseat s.fpart b x idx.toNat))
  refine ⟨_, ?_, ha, hp, onBanks_of hb fun b x => regOnly_ws d _ x⟩
  change execGetc d idx s = _
  rw [execGetc, ht]
  exact if_neg h8

/-- A register that every bank sees in the same way. -/
theorem getc_writesReg {s : State} {d : BitVec 5} {idx : BitVec 10} {f : Bank → Nat} (hs : Settled s) (ht : ctlTrap s.fseat idx.toNat false = none)
    (h8 : idx ≠ 8) (hf : ∀ b x, ctlRead s.focus.core s.fseat s.fpart b x idx.toNat = BitVec.ofNat 64 (f x)) :
    WritesReg (.getc d idx) s d (fun x => BitVec.ofNat 64 (f x)) := by
  obtain ⟨t, he, ha, hp, hb⟩ := getc_completes (d := d) hs ht h8
  simp only [hf] at hb
  exact ⟨t, he, ha, hp, hb⟩

/-- cycle without redundancy: one free value for all banks (R17; log 6). -/
theorem getc_cycle {s : State} {d : BitVec 5} (hs : Settled s) (hr : s.fseat.red = none) :
    ∃ t, exec (.getc d 0x008) s = .next t ∧ Around s { t with free := s.free } ∧ t.free = s.free + 1 ∧ Proceeds s t ∧
      OnBanks s t (fun _ x => RegOnly d (Config.freeWord s.free) x) := by
  let s1 := s.freeWord.2
  obtain ⟨ha, hp, hb⟩ := retire_onActive (s := s1) hs (fun _ x => x.ws d (Config.freeWord s.free))
  have he : exec (.getc d 0x008) s = .next (s1.onActive (fun _ x => x.ws d (Config.freeWord s.free))).retire := by
    have hn : ctlTrap s.fseat (8 : BitVec 10).toNat false = none := ctlTrap_none ctlListed_any rfl (.inl (by decide))
    change execGetc d 8 s = _
    rw [execGetc, hn, State.echoed, hr]
    rfl
  generalize (s1.onActive (fun _ x => x.ws d (Config.freeWord s.free))).retire = t at he ha hp hb
  refine ⟨t, he, ?_, congrArg State.free ha.rest, hp, onBanks_of (f := fun _ x => x.ws d (Config.freeWord s.free)) hb fun _ x => regOnly_ws d _ x⟩
  exact ⟨congrArg (fun x : State => { x with free := s.free }) ha.rest, ha.byte, ⟨ha.cores.cores, ha.cores.seats⟩,
    ⟨ha.seat.seat, ha.seat.parts, ha.seat.part⟩⟩

/-! ## setc -/

/-- An instruction completes with its seat as u, its part as p before it goes on, and the active banks changed by R; nothing else changes. -/
def SetsControl (s : State) (i : Instr) (u : Seat) (p : Part) (R : Bank → Bank → Prop) : Prop :=
  ∃ t, exec i s = .next t ∧ { t with cores := s.cores } = s ∧ (∀ a, t.peek a 1 = s.peek a 1) ∧ SameCores s t ∧
    { t.seat s.focus with parts := s.fseat.parts } = u ∧ t.part s.focus = p.advance ∧
    (∀ q, q ≠ s.focus.seq → (t.seat s.focus).part? q = s.fseat.part? q) ∧ OnBanks s t (fun _ => R)

@[simp] theorem Part.late_ctlWrite (p : Part) (i : Nat) (v : Word) : (p.ctlWrite i v).late = p.late := by
  unfold Part.ctlWrite
  split <;> rfl

@[simp] theorem Seat.parts_ctlWrite (t : Seat) (i : Nat) (v : Word) : (t.ctlWrite i v).parts = t.parts := by
  unfold Seat.ctlWrite
  split <;> rfl

/-- The state in which setc has written register i from sD and the part has not yet gone on. -/
def State.ctlWritten (s : State) (i : Nat) (d : BitVec 5) : State :=
  ((s.onActive (fun _ b => b.ctlWrite i (b.rs d))).modSeat s.focus (fun t => t.ctlWrite i (s.seqReg d))).modPart s.focus
    (fun p => p.ctlWrite i (s.seqReg d))

@[simp] theorem State.ctlWritten_focus (s : State) (i : Nat) (d : BitVec 5) : (s.ctlWritten i d).focus = s.focus := by
  simp [State.ctlWritten, State.modPart]

theorem State.ctlWritten_rest (s : State) (i : Nat) (d : BitVec 5) : { s.ctlWritten i d with cores := s.cores } = s := s.onActive_rest _

theorem State.seat_ctlWritten (s : State) (i : Nat) (d : BitVec 5) : (s.ctlWritten i d).seat s.focus =
    (s.fseat.ctlWrite i (s.seqReg d)).setPart? s.focus.seq (some ((s.part s.focus).ctlWrite i (s.seqReg d))) := by
  rw [State.ctlWritten, State.modPart, State.seat_setPart, State.part_modSeat (Seat.parts_ctlWrite _ _ _), State.seat_modSeat,
    State.seat_onActive, State.part_onActive, State.fseat]

theorem State.part_ctlWritten (s : State) (i : Nat) (d : BitVec 5) :
    (s.ctlWritten i d).part s.focus = (s.part s.focus).ctlWrite i (s.seqReg d) := by
  rw [State.part, State.seat_ctlWritten, Seat.part?_setPart?, if_pos rfl, Option.getD_some]

theorem State.bank_ctlWritten (s : State) (i : Nat) (d : BitVec 5) (c b : Nat) : (s.ctlWritten i d).bank c b =
    if c = s.focus.core ∧ b ∈ s.active then (s.bank c b).ctlWrite i ((s.bank c b).rs d) else s.bank c b := by
  rw [State.ctlWritten, State.bank_modPart, State.bank_modSeat, State.bank_onActive]

/-- With no late result, setc ends with the part moved on. -/
theorem retire_ctlWritten {s : State} (hs : Settled s) (i : Nat) (d : BitVec 5) : (s.ctlWritten i d).retire =
    (s.ctlWritten i d).setPart s.focus ((s.part s.focus).ctlWrite i (s.seqReg d)).advance := by
  have hl : Settled (s.ctlWritten i d) := by
    rw [Settled, State.ctlWritten_focus, State.part_ctlWritten, Part.late_ctlWrite]
    exact hs
  rw [State.retire_of_settled hl, State.ctlWritten_focus, State.part_ctlWritten]

/-- An index the seat may write: all that setc does (R132). -/
theorem setc_sets {s : State} {d : BitVec 5} {idx : BitVec 10} (hs : Settled s) (ht : ctlTrap s.fseat idx.toNat true = none) :
    SetsControl s (.setc d idx) (s.fseat.ctlWrite idx.toNat (s.seqReg d)) ((s.part s.focus).ctlWrite idx.toNat (s.seqReg d))
      (fun x y => y = x.ctlWrite idx.toNat (x.rs d)) := by
  have he : exec (.setc d idx) s = .next (s.ctlWritten idx.toNat d).retire := by
    change execSetc d idx s = _
    rw [execSetc, ht]
    rfl
  have hr := s.ctlWritten_rest idx.toNat d
  refine ⟨_, he.trans (congrArg _ (retire_ctlWritten hs _ _)), hr,
    fun a => State.peek_congr (congrArg State.mem hr) (congrArg State.quads hr) a 1,
    ((((SameCores.refl s).modBanks _ _ _).setSeat _).setPart _).setPart _, ?_, State.part_setPart .., fun q hq => ?_,
    onBanks_of (fun c b => ?_) fun _ _ => rfl⟩
  · rw [State.seat_setPart, State.seat_ctlWritten, ← Seat.parts_ctlWrite s.fseat idx.toNat (s.seqReg d)]
    rfl
  · rw [State.seat_setPart, State.seat_ctlWritten, Seat.part?_setPart?, if_neg hq, Seat.part?_setPart?, if_neg hq, Seat.part?,
      Seat.parts_ctlWrite]
    rfl
  · rw [State.bank_setPart, State.bank_ctlWritten]

/-- A register that setc writes, as the seat, the part and the banks are then. -/
theorem setc_sets_as {s : State} {d : BitVec 5} {idx : BitVec 10} {u : Seat} {p : Part} {R : Bank → Bank → Prop} (hs : Settled s)
    (ht : ctlTrap s.fseat idx.toNat true = none) (hu : s.fseat.ctlWrite idx.toNat (s.seqReg d) = u)
    (hp : (s.part s.focus).ctlWrite idx.toNat (s.seqReg d) = p) (hR : ∀ x : Bank, R x (x.ctlWrite idx.toNat (x.rs d))) :
    SetsControl s (.setc d idx) u p R := by
  obtain ⟨t, he, hr, hy, hc, hu', hp', hq, hb⟩ := setc_sets (d := d) hs ht
  refine ⟨t, he, hr, hy, hc, hu'.trans hu, hp ▸ hp', hq, fun c b => ?_⟩
  have hcb := hb c b
  split at hcb
  next h =>
    rw [if_pos h, hcb]
    exact hR _
  next h => rwa [if_neg h]

/-- Settles O17: each index is read as `ctlRead` gives it and written as `ctlWrite` says. -/
theorem getcAndSetcAccessTheControlRegister : Obligations.GetcAndSetcAccessTheControlRegister := by
  constructor
  · intro s d hs u p bit reads fcsr status
    have plain {idx : BitVec 10} {f : Bank → Nat} (hl : ctlListed u.isCC idx.toNat = true)
        (hf : ∀ b x, ctlRead s.focus.core u p b x idx.toNat = BitVec.ofNat 64 (f x))
        (hi : idx.toNat < 0x10 ∧ idx ≠ 8 := by decide) : reads idx f :=
      getc_writesReg hs (ctlTrap_none hl rfl (.inl hi.1)) hi.2 hf
    refine ⟨plain ctlListed_any fun _ x => fcsrOf_eq p x,
      plain ctlListed_any fun _ _ => rfl, fun hc => ?_, fun hl => ?_, getc_cycle hs⟩
    · exact ⟨plain (ctlListed_of_thread hc) fun _ _ => rfl,
        fun h1 h2 h3 => plain (ctlListed_of_thread hc) fun _ _ => sashcfgWord_eq h1 h2 h3,
        getc_completes hs (ctlTrap_none (ctlListed_of_thread hc) rfl (.inl (by decide))) (by decide),
        fun h1 h2 => plain (ctlListed_of_thread hc) fun _ _ => by
          rw [← Nat.mod_eq_of_lt h1, ← Nat.mod_eq_of_lt h2]
          rfl,
        plain (ctlListed_of_thread hc) fun _ _ => setWidth_eq_ofNat _,
        plain (ctlListed_of_thread hc) fun _ _ => setWidth_eq_ofNat _,
        plain (ctlListed_of_thread hc) fun _ x => x.rdebtWord_eq,
        plain (ctlListed_of_thread hc) fun _ _ => rfl,
        plain (ctlListed_of_thread hc) fun _ x => word_eq_ofNat _,
        plain (ctlListed_of_thread hc) fun _ _ => rfl⟩
    · have super {idx : BitVec 10} {f : Bank → Nat} (hi : ctlListed u.isCC idx.toNat = true)
          (hf : ∀ b x, ctlRead s.focus.core u p b x idx.toNat = BitVec.ofNat 64 (f x)) (h8 : idx ≠ 8 := by decide) : reads idx f :=
        getc_writesReg hs (ctlTrap_none hi rfl (.inr hl)) h8 hf
      exact ⟨super ctlListed_any fun _ _ => u.status.word_eq,
        super ctlListed_any fun _ _ => setWidth_eq_ofNat _,
        super ctlListed_any fun _ _ => word_eq_ofNat _,
        super ctlListed_any fun _ _ => word_eq_ofNat _,
        super ctlListed_any fun _ _ => word_eq_ofNat _,
        fun hc => super (ctlListed_of_thread hc) fun _ _ => rfl,
        super ctlListed_any fun _ x => word_eq_ofNat _,
        super ctlListed_any fun _ x => word_eq_ofNat _,
        fun hc => ⟨super (ctlListed_of_control hc) fun _ _ => word_eq_ofNat _, super (ctlListed_of_control hc) fun _ _ => word_eq_ofNat _⟩⟩
  · intro s d hs u p v sets same
    have user {idx : BitVec 10} {u' : Seat} {p' : Part} {R : Bank → Bank → Prop} (hl : ctlListed u.isCC idx.toNat = true)
        (hu : u.ctlWrite idx.toNat v = u') (hp : p.ctlWrite idx.toNat v = p') (hR : ∀ x : Bank, R x (x.ctlWrite idx.toNat (x.rs d)))
        (hi : ctlReadOnly idx.toNat = false ∧ idx.toNat < 0x10 := by decide) : sets idx u' p' R :=
      setc_sets_as hs (ctlTrap_none hl hi.1 (.inl hi.2)) hu hp hR
    refine ⟨user ctlListed_any rfl rfl fun _ => rfl, fun hc => ?_, fun hl => ?_⟩
    · exact ⟨user (ctlListed_of_thread hc) rfl rfl fun _ => rfl,
        user (ctlListed_of_thread hc) (congrArg (fun x => { u with prio := x }) (prioOf_eq u v)) rfl fun _ => rfl,
        user (ctlListed_of_thread hc) rfl rfl fun _ => rfl,
        user (ctlListed_of_thread hc) rfl rfl fun _ => rfl⟩
    · have super {idx : BitVec 10} {u' : Seat} {R : Bank → Bank → Prop} (hi : ctlListed u.isCC idx.toNat = true)
          (hu : u.ctlWrite idx.toNat v = u') (hp : p.ctlWrite idx.toNat v = p) (hR : ∀ x : Bank, R x (x.ctlWrite idx.toNat (x.rs d)))
          (hw : ctlReadOnly idx.toNat = false := by decide) : sets idx u' p R :=
        setc_sets_as hs (ctlTrap_none hi hw (.inr hl)) hu hp hR
      exact ⟨super ctlListed_any rfl rfl fun _ => rfl,
        super ctlListed_any rfl rfl fun _ => rfl,
        super ctlListed_any rfl rfl fun _ => rfl,
        super ctlListed_any rfl rfl fun _ => rfl,
        super ctlListed_any (congrArg (fun x => { u with tvec := x }) (tvecBits_eq v)) rfl fun _ => rfl,
        fun hc => super (ctlListed_of_thread hc) (congrArg (fun x => { u with lcap := x }) (lcapOf_eq v)) rfl fun _ => rfl,
        super ctlListed_any rfl rfl fun _ => rfl,
        super ctlListed_any rfl rfl fun _ => rfl,
        fun hc => ⟨super (ctlListed_of_control hc) rfl rfl fun _ => rfl, super (ctlListed_of_control hc) rfl rfl fun _ => rfl⟩⟩

/-! ## What setc limits (R20) -/

/-- vl once a part that has set it has gone on: as it was set, or that of a cut load when the convoy ends (R214). -/
theorem Part.advance_withVl (p : Part) (v : Nat) :
    ({ p with vl := v } : Part).advance.vl = if p.advance.convoy = none then (p.convoy.bind (·.cut)).getD v else v := by
  cases hc : p.convoy with
  | none => simp [Part.advance, hc]
  | some c => cases ht : c.todo.tail <;> simp [Part.advance, Part.endConvoy, hc, ht]

theorem prioOf_toNat (t : Seat) (v : Word) :
    (prioOf t v).toNat = if t.status.lvl then v.toNat % 8 else min (v.toNat % 8) t.recPrio.toNat := by
  have h3 : (v.extractLsb' 0 3).toNat = v.toNat % 8 := by simp
  unfold prioOf
  dsimp only
  split
  · exact h3
  · rw [← h3, apply_ite BitVec.toNat]
    split <;> omega

/-- Settles O18: the rule of setc at four indices. -/
theorem setcStoresLimitedValues : Obligations.SetcStoresLimitedValues := by
  intro s d hs hc v
  have writes {idx : BitVec 10} (hi : idx.toNat ≤ 0xC ∨ (0x10 ≤ idx.toNat ∧ idx.toNat ≤ 0x17)) (hw : ctlReadOnly idx.toNat = false)
      (hp : idx.toNat < 0x10 ∨ s.fseat.status.lvl = true) :=
    setc_sets (d := d) hs (ctlTrap_none (ctlListed_of_thread hc hi) hw hp)
  refine ⟨?_, ?_, ?_, fun hl => ?_⟩
  · obtain ⟨t, he, -, -, -, -, hp, -⟩ := writes (idx := 0x000) (by decide) (by decide) (.inl (by decide))
    exact ⟨t, he, by rw [hp]; exact Part.advance_withVl (s.part s.focus) (min v 0x100000)⟩
  · obtain ⟨t, he, -, -, -, -, hp, -⟩ := writes (idx := 0x00C) (by decide) (by decide) (.inl (by decide))
    exact ⟨t, he, by rw [hp, Part.advance_xidx]; rfl⟩
  · obtain ⟨t, he, -, -, -, hu, -⟩ := writes (idx := 0x007) (by decide) (by decide) (.inl (by decide))
    have hx : (t.seat s.focus).prio = prioOf s.fseat (s.seqReg d) := congrArg Seat.prio hu
    exact ⟨t, he, by rw [hx]; exact prioOf_toNat s.fseat (s.seqReg d)⟩
  · obtain ⟨t, he, -, -, -, hu, -⟩ := writes (idx := 0x015) (by decide) (by decide) (.inr hl)
    have hx : (t.seat s.focus).lcap = lcapOf (s.seqReg d) := congrArg Seat.lcap hu
    refine ⟨t, he, ?_⟩
    rw [hx, lcapOf_eq]
    change max 8 (min 12 (v % 16)) = _
    split_ifs <;> omega

end Sys2Proof.Machine
end

section
/-! Parts of a sash (O15): the checks of a target (R89), the banks that hold a condition (R109), and what split and sjoin leave of a seat. -/

namespace Sys2Proof.Machine

-- Proofs elaborated side by side each hold a thread's stack, and the whole text compiles near the memory limit of its check.
set_option Elab.async false

/-! ## The checks of R89 -/

theorem readLE_lt (t : Table Byte) (a n : Nat) : readLE t a n < 256 ^ n := by
  induction n generalizing a with
  | zero => simp [readLE]
  | succ n ih =>
    have h0 := (look 0 t a).isLt
    have hn := ih (a + 1)
    simp only [readLE, pow_succ]
    omega

theorem SramBank.read_lt (x : SramBank) (a n : Nat) : x.read a n < 256 ^ n := by
  induction n generalizing a with
  | zero => simp [SramBank.read]
  | succ n ih =>
    have h0 := (x.byte a).isLt
    have hn := ih (a + 1)
    simp only [SramBank.read, pow_succ]
    omega

theorem State.peek_lt (s : State) (pa n : Nat) : s.peek pa n < 256 ^ n := by
  unfold State.peek
  split
  · exact SramBank.read_lt _ _ _
  · exact readLE_lt _ _ _

theorem headAddress_iff (a : Word) : HeadAddress a ↔ (a.getLsbD 0 || headNo a == 0) = false := by
  have h0 : a.getLsbD 0 = decide (a.toNat % 2 = 1) := Nat.testBit_zero _
  rw [HeadAddress, h0, Bool.or_eq_false_iff, decide_eq_false_iff_not, beq_eq_false_iff_ne, headNo]
  exact and_congr_left fun _ => by omega

theorem startsConvoy_iff (s : State) (pa : Nat) (a : Word) : StartsConvoy s pa a ↔
    (decide (headNo a ≤ (parcelAt s pa 0).toNat % 32) && (!true || (parcelAt s pa (headNo a)).getLsbD 15)) = true := by
  have hh : (parcelAt s pa 0).toNat % 32 = s.peek pa 2 % 32 := by
    rw [parcelAt, BitVec.toNat_ofNat, Nat.mod_mod_of_dvd _ (by decide)]
    rfl
  have hb : (parcelAt s pa (headNo a)).getLsbD 15 = true ↔ s.peek (pa + 2 * headNo a) 2 / 2 ^ 15 = 1 := by
    have hlt := s.peek_lt (pa + 2 * headNo a) 2
    rw [parcelAt, BitVec.getLsbD_ofNat, Nat.testBit_eq_decide_div_mod_eq]
    simp only [Nat.reduceLT, decide_true, Bool.true_and, decide_eq_true_eq]
    omega
  rw [Bool.and_eq_true, decide_eq_true_eq, hh, Bool.not_true, Bool.false_or, hb]
  rfl

section
variable {s : State} {c : Ctx} {a : Word}

theorem slotCheck_of_not_head (h : ¬HeadAddress a) (cb : Bool) : slotCheck s c cb a = .bad 0 0x03 := by
  have hb : (a.getLsbD 0 || headNo a == 0) = true := by
    rw [headAddress_iff, Bool.not_eq_false] at h
    exact h
  rw [slotCheck, if_pos hb]

theorem slotCheck_of_starts {pa : Nat} (h : HeadAddress a) (hf : fetchPa s c (a.toNat / 64 * 64) = .ok pa) (hp : StartsConvoy s pa a) :
    slotCheck s c true a = .ok () := by
  rw [slotCheck, (headAddress_iff a).1 h, lineOf, hf]
  exact if_pos ((startsConvoy_iff s pa a).1 hp)

theorem slotCheck_of_not_starts {pa : Nat} (h : HeadAddress a) (hf : fetchPa s c (a.toNat / 64 * 64) = .ok pa) (hp : ¬StartsConvoy s pa a) :
    slotCheck s c true a = .bad 0 0x03 := by
  rw [slotCheck, (headAddress_iff a).1 h, lineOf, hf]
  exact if_neg (mt (startsConvoy_iff s pa a).2 hp)

theorem slotCheck_of_wait {w : Wait} (h : HeadAddress a) (hf : fetchPa s c (a.toNat / 64 * 64) = .wait w) (cb : Bool) :
    slotCheck s c cb a = .wait w := by
  rw [slotCheck, (headAddress_iff a).1 h, lineOf, hf]
  rfl

theorem slotCheck_of_unfetched {o : Nat} {k : BitVec 8} (h : HeadAddress a) (hf : fetchPa s c (a.toNat / 64 * 64) = .bad o k) (cb : Bool) :
    slotCheck s c cb a = .ok () := by
  rw [slotCheck, (headAddress_iff a).1 h, lineOf, hf]
  rfl

end

theorem afterSlot_bad {s go : State} {a : Word} (h : slotCheck s s.fctx true a = .bad 0 0x03) :
    afterSlot s true a go = .next (s.trapSingle 0x03 a) := by
  rw [afterSlot, h]

theorem afterSlot_wait {s go : State} {a : Word} {w : Wait} (h : slotCheck s s.fctx true a = .wait w) :
    afterSlot s true a go = .next (s.waitOn w) := by
  rw [afterSlot, h]

theorem afterSlot_ok {s go : State} {a : Word} (h : slotCheck s s.fctx true a = .ok ()) : afterSlot s true a go = .next go := by
  rw [afterSlot, h]

/-- own address + 2 * offset, as a number. -/
theorem relTarget_eq {n : Nat} (s : State) (off : BitVec n) (h : n ≤ 64) :
    relTarget s (off.signExtend 64) = BitVec.ofInt 64 ((s.fpart.pc.toNat : Int) + 2 * off.toInt) := by
  apply BitVec.eq_of_toInt_eq
  rw [relTarget, BitVec.toInt_add, BitVec.toInt_mul, BitVec.toInt_signExtend_of_le h, BitVec.toInt_ofInt]
  rw [BitVec.toInt_eq_toNat_bmod s.fpart.pc]
  simp

/-! ## The banks that hold a condition (R109) -/

theorem condHolds_iff (c : BitVec 3) (a b : Word) : condHolds c a b = true ↔ Cond c a b := by
  unfold condHolds Cond
  generalize c.toNat = n
  match n with
  | 0 => exact beq_iff_eq
  | 1 => exact bne_iff_ne
  | 2 => simp [BitVec.slt]
  | 3 => simp [BitVec.slt]
  | 4 => simp [BitVec.ult]
  | n + 5 => simp [BitVec.ult]

theorem mem_banksOf {x : BitVec 16} {k : Nat} : k ∈ banksOf x ↔ k < 16 ∧ x.getLsbD k = true := by
  simp [banksOf]

theorem getLsbD_foldl_banks {k : Nat} (hk : k < 16) (bs : List Nat) (x : BitVec 16) :
    (bs.foldl (fun x b => x ||| ((1 <<< b : Nat) : BitVec 16)) x).getLsbD k = true ↔ x.getLsbD k = true ∨ k ∈ bs := by
  induction bs generalizing x with
  | nil => simp
  | cons b bs ih =>
    have hb : ((1 <<< b : Nat) : BitVec 16).getLsbD k = decide (b = k) := by
      rw [BitVec.natCast_eq_ofNat, BitVec.getLsbD_ofNat, Nat.one_shiftLeft, Nat.testBit_two_pow, decide_eq_true hk, Bool.true_and]
    rw [List.foldl_cons, ih, List.mem_cons, BitVec.getLsbD_or, hb, Bool.or_eq_true, decide_eq_true_eq, or_assoc, eq_comm (a := b)]

/-- The bits of a set of banks. -/
theorem getLsbD_bankMask {k : Nat} (hk : k < 16) (bs : List Nat) : (bankMask bs).getLsbD k = true ↔ k ∈ bs := by
  refine (getLsbD_foldl_banks hk bs 0).trans (or_iff_right ?_)
  simp

theorem mem_condBanks {s : State} {c : BitVec 3} {a b : BitVec 5} {k : Nat} :
    k ∈ condBanks s c a b ↔ k ∈ s.active ∧ Cond c ((s.fbank k).rs a) ((s.fbank k).rs b) := by
  rw [condBanks, List.mem_filter, Bank.cond, condHolds_iff]

section
variable {s : State} {c : BitVec 3} {a b : BitVec 5} {taken : BitVec 16}
  (h : ∀ k, k < 16 → (taken.getLsbD k = true ↔ s.fpart.active.getLsbD k = true ∧ Cond c ((s.fbank k).rs a) ((s.fbank k).rs b)))
include h

theorem mem_condBanks_iff {k : Nat} : k ∈ condBanks s c a b ↔ k ∈ banksOf taken := by
  rw [mem_condBanks, State.active, mem_banksOf, mem_banksOf, and_assoc]
  exact and_congr_right fun hk => (h k hk).symm

theorem bankMask_condBanks : bankMask (condBanks s c a b) = taken := by
  refine BitVec.eq_of_getLsbD_eq fun k hk => Bool.eq_iff_iff.2 ?_
  rw [getLsbD_bankMask hk, mem_condBanks_iff h, mem_banksOf, and_iff_right hk]

theorem condBanks_isEmpty : (condBanks s c a b).isEmpty = true ↔ taken = 0 := by
  rw [List.isEmpty_iff]
  constructor
  · intro he
    rw [← bankMask_condBanks h, he]
    rfl
  · rintro rfl
    refine List.eq_nil_iff_forall_not_mem.2 fun k hk => ?_
    simpa [mem_banksOf] using (mem_condBanks_iff h).1 hk

end

/-! ## Changes of the parts of a seat -/

/-- Another seat in focus with the same registers, and another focus: the parts and the handler are told apart. -/
theorem aroundParts_setSeat {s : State} {v : Seat} (f : Agent) (h : { v with parts := s.fseat.parts, handler := s.fseat.handler } = s.fseat) :
    AroundParts s { s.setSeat s.focus v with focus := f } where
  rest := rfl
  byte _ := rfl
  cores := ⟨((SameCores.refl s).setSeat v).cores, ((SameCores.refl s).setSeat v).seats⟩
  banks := State.bank_setSeat s s.focus v
  seat := by
    have hv : ({ s.setSeat s.focus v with focus := f } : State).seat s.focus = v := State.seat_setSeat s s.focus v
    rw [hv]
    exact h

theorem Seat.addPart_eq (t : Seat) (p : Part) : ∃ ps, t.addPart p = { t with parts := ps } := by
  unfold Seat.addPart
  split
  · exact ⟨t.parts, rfl⟩
  · exact ⟨_, rfl⟩

/-- A part is put under its lowest bank, if it has one. -/
theorem Seat.part?_addPart (t : Seat) (p : Part) (q : Nat) :
    (t.addPart p).part? q = if p.active ≠ 0 ∧ q = p.seqBank then some p else t.part? q := by
  unfold Seat.addPart
  by_cases hp : p.active = 0
  · rw [if_pos hp, if_neg fun h => h.1 hp]
  · rw [if_neg hp, Seat.part?_setPart?]
    simp only [ne_eq, hp, not_false_eq_true, true_and]

/-- Two sides of a split in the place of the part that splits. -/
def Seat.divided (t : Seat) (q : Nat) (taken rest : Part) : Seat := ((t.setPart? q none).addPart taken).addPart rest

theorem Seat.divided_eq (t : Seat) (q : Nat) (x y : Part) : ∃ ps, t.divided q x y = { t with parts := ps } := by
  obtain ⟨ps, h⟩ := (t.setPart? q none).addPart_eq x
  obtain ⟨qs, h'⟩ := ((t.setPart? q none).addPart x).addPart_eq y
  refine ⟨qs, ?_⟩
  rw [Seat.divided, h', h]
  rfl

theorem Seat.part?_divided (t : Seat) (n : Nat) (x y : Part) (q : Nat) : (t.divided n x y).part? q =
    if y.active ≠ 0 ∧ q = y.seqBank then some y else if x.active ≠ 0 ∧ q = x.seqBank then some x else if q = n then none else t.part? q := by
  rw [Seat.divided, Seat.part?_addPart, Seat.part?_addPart, Seat.part?_setPart?]

/-- Without late results a split only divides the part in the seat. -/
theorem State.divide_eq {s : State} (hs : Settled s) (id : BitVec 3) (taken : BitVec 16) (target : Word) :
    s.divide id taken target = s.setSeat s.focus (s.fseat.divided s.focus.seq (s.fpart.branchOff id taken target)
      (s.fpart.branchOff id (s.fpart.active &&& ~~~taken) s.fpart.nextAddr)) := by
  unfold State.divide
  dsimp only
  rw [show s.fpart.late = [] from hs]
  rfl

/-- All that a division does (R28). -/
theorem divide_parts {s : State} (hs : Settled s) (id : BitVec 3) (taken : BitVec 16) (target : Word) :
    let side (banks : BitVec 16) (pc : Word) : Part := s.fpart.branchOff id banks pc
    let rest := s.fpart.active &&& ~~~taken
    let t := s.divide id taken target
    AroundParts s t ∧ t.focus = s.focus ∧ (t.seat s.focus).handler = s.fseat.handler ∧
      ∀ q, (t.seat s.focus).part? q =
        if rest ≠ 0 ∧ q = (banksOf rest).headD 0 then some (side rest s.fpart.nextAddr)
        else if taken ≠ 0 ∧ q = (banksOf taken).headD 0 then some (side taken target)
        else if q = s.focus.seq then none else s.fseat.part? q := by
  intro side rest t
  obtain ⟨ps, hps⟩ := s.fseat.divided_eq s.focus.seq (side taken target) (side rest s.fpart.nextAddr)
  have ht : t = s.setSeat s.focus (s.fseat.divided s.focus.seq (side taken target) (side rest s.fpart.nextAddr)) := State.divide_eq hs id taken target
  have hu : t.seat s.focus = s.fseat.divided s.focus.seq (side taken target) (side rest s.fpart.nextAddr) := by
    rw [ht, State.seat_setSeat]
  refine ⟨?_, ?_, ?_, fun q => ?_⟩
  · rw [ht]
    refine aroundParts_setSeat s.focus ?_
    rw [hps]
  · rw [ht]
    rfl
  · rw [hu, hps]
  · rw [hu, Seat.part?_divided]
    rfl

/-- A handler that joins banks of its context runs in them too (log 75). -/
def Seat.joined (t : Seat) (p : Part) (banks : BitVec 16) : Seat := if t.handles p then { t with handler := t.handler.map (· ||| banks) } else t

theorem Seat.joined_eq (t : Seat) (p : Part) (banks : BitVec 16) :
    t.joined p banks = { t with handler := t.handler.map (fun h => if p.active &&& ~~~h = 0 then h ||| banks else h) } := by
  have hm : t.handler.map (fun h => if p.active &&& ~~~h = 0 then h ||| banks else h) =
      if t.handles p then t.handler.map (· ||| banks) else t.handler := by
    unfold Seat.handles
    cases t.handler with
    | none => rfl
    | some h => exact (apply_ite some _ _ _).trans (if_congr beq_iff_eq.symm rfl rfl)
  rw [hm, Seat.joined]
  split <;> rfl

/-- A part that goes on after a join: with the parent's banks, one level up, at the place of the part it comes from. -/
def Part.rejoined (p : Part) (banks : BitVec 16) (outer : List Split) : Part :=
  { p.endConvoy with pc := p.nextAddr, active := banks, splits := outer, wait := none, begun := 0 }

/-- The place that the other part of a split leaves. -/
def Seat.without (t : Seat) (other : Option (Nat × Part)) : Seat := match other with | some q => t.setPart? q.1 none | none => t

/-- The part from which a join takes its values (R30). -/
def Part.joinSource (p : Part) (low : Nat) (other : Option (Nat × Part)) : Part :=
  if p.active.getLsbD low then p else (other.map (·.2)).getD p

/-- The seat after a join: the merged part in the place of the two. -/
def Seat.merged (t : Seat) (seq : Nat) (p : Part) (x : Split) (other : Option (Nat × Part)) : Seat :=
  (((t.joined p x.banks).setPart? seq none).without other).setPart? ((banksOf x.banks).headD 0)
    (some ((p.joinSource ((banksOf x.banks).headD 0) other).rejoined x.banks p.splits.tail))

theorem Seat.merged_eq (t : Seat) (seq : Nat) (p : Part) (x : Split) (other : Option (Nat × Part)) : ∃ ps, t.merged seq p x other =
    { t with parts := ps, handler := t.handler.map (fun h => if p.active &&& ~~~h = 0 then h ||| x.banks else h) } := by
  rw [Seat.merged, Seat.joined_eq]
  cases other <;> exact ⟨_, rfl⟩

theorem Seat.part?_merged (t : Seat) (seq : Nat) (p : Part) (x : Split) (other : Option (Nat × Part)) (q : Nat) : (t.merged seq p x other).part? q =
    if q = (banksOf x.banks).headD 0 then some ((p.joinSource ((banksOf x.banks).headD 0) other).rejoined x.banks p.splits.tail)
    else if q = seq ∨ ∃ o ∈ other, q = o.1 then none else t.part? q := by
  have hj : (t.joined p x.banks).part? q = t.part? q := by
    rw [Seat.joined_eq]
    rfl
  rw [Seat.merged, Seat.part?_setPart?]
  congr 1
  cases other with
  | none => simp [Seat.without, hj]
  | some o =>
    simp only [Seat.without, Seat.part?_setPart?, hj, Option.mem_some_iff, exists_eq_left']
    by_cases ho : q = o.1
    · rw [if_pos ho, if_pos (.inr ho)]
    · simp [ho]

/-- Without late results a join only merges the parts in the seat. -/
theorem State.merge_eq {s : State} (hs : Settled s) (x : Split) {other : Option (Nat × Part)} (ho : ∀ o ∈ other, o.2.late = []) :
    s.merge x other = { s.setSeat s.focus (s.fseat.merged s.focus.seq s.fpart x other) with
      focus := ⟨s.focus.core, s.focus.base, (banksOf x.banks).headD 0⟩ } := by
  have hl : (other.map (·.2.late)).getD [] = [] := by
    cases other with
    | none => rfl
    | some o => exact ho o rfl
  unfold State.merge
  dsimp only
  rw [show s.fpart.late = [] from hs, hl]
  rfl

/-- All that a join does (R30). -/
theorem merge_parts {s : State} (hs : Settled s) (x : Split) {other : Option (Nat × Part)} (ho : ∀ o ∈ other, o.2.late = []) :
    let low := (banksOf x.banks).headD 0
    let t := s.merge x other
    AroundParts s t ∧ t.focus = ⟨s.focus.core, s.focus.base, low⟩ ∧
      (t.seat s.focus).handler = s.fseat.handler.map (fun h => if s.fpart.active &&& ~~~h = 0 then h ||| x.banks else h) ∧
      ∀ q, (t.seat s.focus).part? q =
        if q = low then some ((s.fpart.joinSource low other).rejoined x.banks s.fpart.splits.tail)
        else if q = s.focus.seq ∨ ∃ o ∈ other, q = o.1 then none else s.fseat.part? q := by
  intro low t
  have ht : t = { s.setSeat s.focus (s.fseat.merged s.focus.seq s.fpart x other) with focus := ⟨s.focus.core, s.focus.base, low⟩ } :=
    State.merge_eq hs x ho
  have hu : t.seat s.focus = s.fseat.merged s.focus.seq s.fpart x other := by
    rw [ht]
    exact State.seat_setSeat s s.focus _
  obtain ⟨ps, hps⟩ := s.fseat.merged_eq s.focus.seq s.fpart x other
  refine ⟨?_, congrArg State.focus ht, by rw [hu, hps], fun q => by rw [hu, Seat.part?_merged]⟩
  rw [ht]
  refine aroundParts_setSeat _ ?_
  rw [hps]

/-! ## split and sjoin -/

/-- An instruction that waits has done nothing (R347). -/
theorem waits_of {s : State} {i : Instr} {w : Wait} (h : exec i s = .next (s.waitOn w)) : Waits i s w := by
  refine ⟨_, h, around_waitOn s w, fun c b => ?_, State.part_modPart s s.focus _⟩
  have hb : (s.waitOn w).bank c b = s.bank c b := State.bank_modPart s s.focus _ c b
  rw [hb]
  split <;> rfl

/-- split, the banks that hold the condition being `taken` (R131). -/
theorem split_eq {s : State} {id c : BitVec 3} {a b : BitVec 5} {off : BitVec 22} {taken : BitVec 16}
    (h : ∀ k, k < 16 → (taken.getLsbD k = true ↔ s.fpart.active.getLsbD k = true ∧ Cond c ((s.fbank k).rs a) ((s.fbank k).rs b))) :
    let target : Word := BitVec.ofInt 64 ((s.fpart.pc.toNat : Int) + 2 * off.toInt)
    exec (.split id c a b off) s = if s.fpart.splits.length = 4 then .next (s.trapSingle 0x01 4)
      else if taken = 0 then .next (s.divide id 0 target) else afterSlot s true target (s.divide id taken target) := by
  intro target
  change execSplit id c a b off s = _
  rw [execSplit, relTarget_eq s off (by decide), bankMask_condBanks h]
  simp only [condBanks_isEmpty h]
  rfl

theorem sjoin_traps {s : State} {id : BitVec 6} (h : ∀ x ∈ s.fpart.splits.head?, x.id ≠ id) :
    exec (.sjoin id) s = .next (s.trapSingle 0x01 (id.setWidth 64)) := by
  change execSjoin id s = _
  unfold execSjoin
  split
  next => rfl
  next x outer hp => exact if_pos (h x (by rw [hp]; rfl))

section
variable {s : State} {x : Split} {outer : List Split} (hp : s.fpart.splits = x :: outer)
include hp

/-- No bank of the parent is on the other side. -/
theorem sjoin_whole (h : x.banks &&& ~~~s.fpart.active = 0) : exec (.sjoin x.id) s = .next (s.merge x none) := by
  change execSjoin x.id s = _
  rw [execSjoin, hp]
  dsimp only
  rw [if_neg (not_not.2 rfl), if_pos h]

theorem sjoin_alone (h : x.banks &&& ~~~s.fpart.active ≠ 0) (hf : findSibling s.fseat x (x.banks &&& ~~~s.fpart.active) = none) :
    exec (.sjoin x.id) s = .next (s.waitOn (.sjoin x.id)) := by
  change execSjoin x.id s = _
  rw [execSjoin, hp]
  dsimp only
  rw [if_neg (not_not.2 rfl), if_neg h, hf]

theorem sjoin_meets {o : Nat × Part} (h : x.banks &&& ~~~s.fpart.active ≠ 0)
    (hf : findSibling s.fseat x (x.banks &&& ~~~s.fpart.active) = some o) : exec (.sjoin x.id) s = .next (s.merge x (some o)) := by
  change execSjoin x.id s = _
  rw [execSjoin, hp]
  dsimp only
  rw [if_neg (not_not.2 rfl), if_neg h, hf]

end

/-- Settles O15: split divides unless a check of R89 stops it, and sjoin waits or merges as it finds the other side. -/
theorem splitDividesAndSjoinMerges : Obligations.SplitDividesAndSjoinMerges := by
  constructor
  · intro s id c a b off hs hc p target i taken htaken
    have hexec : exec i s = _ := split_eq htaken
    refine ⟨fun h4 => hexec.trans (if_pos h4), fun h4 h0 => ?_, fun h4 hok => ?_⟩
    · rw [if_neg h4, if_neg h0] at hexec
      exact ⟨fun hn => hexec.trans (afterSlot_bad (slotCheck_of_not_head hn true)), fun hh =>
        ⟨fun w hw => waits_of (hexec.trans (afterSlot_wait (slotCheck_of_wait hh hw true))),
          fun pa hf hn => hexec.trans (afterSlot_bad (slotCheck_of_not_starts hh hf hn))⟩⟩
    · refine ⟨_, ?_, divide_parts hs id taken target⟩
      rw [hexec, if_neg h4]
      split
      next h0 => rw [h0]
      next h0 =>
        refine afterSlot_ok ?_
        obtain ⟨hh, ⟨o, k, hf⟩ | ⟨pa, hf, hst⟩⟩ := hok.resolve_left h0
        · exact slotCheck_of_unfetched hh hf true
        · exact slotCheck_of_starts hh hf hst
  · intro s id hs p
    refine ⟨fun hp => sjoin_traps fun x hx => ?_, fun x outer hp => ⟨fun hid => sjoin_traps fun y hy => ?_, ?_⟩⟩
    · change x ∈ p.splits.head? at hx
      simp [hp] at hx
    · change y ∈ p.splits.head? at hy
      rw [hp] at hy
      cases hy
      exact hid
    · rintro rfl low others runs merged
      have joins {other : Option (Nat × Part)} (he : exec (.sjoin x.id) s = .next (s.merge x other)) (ho : ∀ o ∈ other, o.2.late = []) :
          ∃ t, exec (.sjoin x.id) s = .next t ∧ AroundParts s t ∧ t.focus = ⟨s.focus.core, s.focus.base, low⟩ ∧
            (t.seat s.focus).handler = runs ∧ ∀ q, (t.seat s.focus).part? q =
              if q = low then some (merged (p.joinSource low other))
              else if q = s.focus.seq ∨ ∃ o ∈ other, q = o.1 then none else s.fseat.part? q := by
        have hm := merge_parts hs x ho
        rw [hp] at hm
        exact ⟨_, he, hm⟩
      refine ⟨fun h0 => ?_, fun h0 hf => waits_of (sjoin_alone hp h0 hf), fun key sib h0 hf hl => ?_⟩
      · obtain ⟨t, he, ha, hfo, hh, hq⟩ := joins (sjoin_whole hp h0) (by simp)
        refine ⟨t, he, ha, hfo, hh, fun q => (hq q).trans ?_⟩
        simp [Part.joinSource]
      · obtain ⟨t, he, ha, hfo, hh, hq⟩ := joins (sjoin_meets hp h0 hf) (by simp [hl])
        refine ⟨t, he, ha, hfo, hh, fun q => (hq q).trans ?_⟩
        simp [Part.joinSource]

end Sys2Proof.Machine
end

section
/-! Special values (O6): what the exact operations give for NaNs, infinities and zeros (R44, R46, R59), and what is delivered of them. -/

namespace Sys2Proof.Machine

-- Proofs elaborated side by side each hold a thread's stack, and the whole text compiles near the memory limit of its check.
set_option Elab.async false

/-! ## Values by their kind -/

@[simp] theorem FV.isNan_nan (s : Bool) : (FV.nan s).isNan = true := rfl
@[simp] theorem FV.isNan_inf (n : Bool) : (FV.inf n).isNan = false := rfl
@[simp] theorem FV.isNan_num (n : Bool) (m : Nat) (e : Int) : (FV.num n m e).isNan = false := rfl
@[simp] theorem FV.isInf_nan (s : Bool) : (FV.nan s).isInf = false := rfl
@[simp] theorem FV.isInf_inf (n : Bool) : (FV.inf n).isInf = true := rfl
@[simp] theorem FV.isInf_num (n : Bool) (m : Nat) (e : Int) : (FV.num n m e).isInf = false := rfl
@[simp] theorem FV.isZero_nan (s : Bool) : (FV.nan s).isZero = false := rfl
@[simp] theorem FV.isZero_inf (n : Bool) : (FV.inf n).isZero = false := rfl
@[simp] theorem FV.isZero_num (n : Bool) (m : Nat) (e : Int) : (FV.num n m e).isZero = decide (m = 0) := rfl
@[simp] theorem FV.isSig_nan (s : Bool) : (FV.nan s).isSig = s := rfl
@[simp] theorem FV.isSig_inf (n : Bool) : (FV.inf n).isSig = false := rfl
@[simp] theorem FV.isSig_num (n : Bool) (m : Nat) (e : Int) : (FV.num n m e).isSig = false := rfl
@[simp] theorem FV.sign_inf (n : Bool) : (FV.inf n).sign = n := rfl
@[simp] theorem FV.sign_num (n : Bool) (m : Nat) (e : Int) : (FV.num n m e).sign = n := rfl

theorem FV.isNan_iff {x : FV} : x.isNan = true ↔ ∃ s, x = .nan s := by cases x <;> simp

theorem FV.isInf_iff {x : FV} : x.isInf = true ↔ ∃ n, x = .inf n := by cases x <;> simp

theorem FV.isZero_iff {x : FV} : x.isZero = true ↔ ∃ n e, x = .num n 0 e := by cases x <;> simp

/-- Neither a NaN nor an infinity. -/
theorem FV.finite_iff {x : FV} : (!x.isNan && !x.isInf) = true ↔ ∃ n m e, x = .num n m e := by cases x <;> simp

theorem FV.finite_nonzero_iff {x : FV} :
    ((!x.isNan && !x.isInf) = true ∧ x.isZero = false) ↔ ∃ n m e, m ≠ 0 ∧ x = .num n m e := by
  cases x <;> simp

@[simp] theorem FV.isNan_flip (x : FV) : x.flip.isNan = x.isNan := by cases x <;> rfl
@[simp] theorem FV.isSig_flip (x : FV) : x.flip.isSig = x.isSig := by cases x <;> rfl

/-! ## NV for signalling NaNs -/

theorem flagIf_fNV (p : Bool) : flagIf p fNV = if p then 1 else 0 := rfl

theorem flagIf_or_flagIf (p q : Bool) (f : BitVec 5) : flagIf p f ||| flagIf q f = flagIf (p || q) f := by
  cases p <;> cases q <;> simp [flagIf]

theorem fNV_or_flagIf (p : Bool) : fNV ||| flagIf p fNV = fNV := by cases p <;> rfl

@[simp] theorem sigNV_one (x : FV) : sigNV [x] = flagIf x.isSig fNV := by simp [sigNV]
@[simp] theorem sigNV_two (x y : FV) : sigNV [x, y] = flagIf (x.isSig || y.isSig) fNV := by simp [sigNV]
@[simp] theorem sigNV_three (x y z : FV) : sigNV [x, y, z] = flagIf (x.isSig || y.isSig || z.isSig) fNV := by simp [sigNV, Bool.or_assoc]

/-! ## NaN operands (R44, R46) -/

theorem fvMul_of_nan {x y : FV} (h : x.isNan = true ∨ y.isNan = true) : fvMul x y = (.nan false, flagIf (x.isSig || y.isSig) fNV) := by
  simp [fvMul, h]

theorem fvAdd_of_nan (m : RMode) {x y : FV} (h : x.isNan = true ∨ y.isNan = true) :
    fvAdd m x y = (.nan false, flagIf (x.isSig || y.isSig) fNV) := by
  simp [fvAdd, h]

theorem fvDiv_of_nan {x y : FV} (h : x.isNan = true ∨ y.isNan = true) : fvDiv x y = (.nan false, flagIf (x.isSig || y.isSig) fNV) := by
  simp [fvDiv, h]

/-! ## Products -/

theorem FV.not_nan_of_zero_inf {x y : FV} (h : (x.isZero && y.isInf || x.isInf && y.isZero) = true) : x.isNan = false ∧ y.isNan = false := by
  rcases Bool.or_eq_true_iff.1 h with h | h <;> obtain ⟨hx, hy⟩ := Bool.and_eq_true_iff.1 h
  · obtain ⟨n, e, rfl⟩ := FV.isZero_iff.1 hx
    obtain ⟨t, rfl⟩ := FV.isInf_iff.1 hy
    exact ⟨rfl, rfl⟩
  · obtain ⟨s, rfl⟩ := FV.isInf_iff.1 hx
    obtain ⟨t, d, rfl⟩ := FV.isZero_iff.1 hy
    exact ⟨rfl, rfl⟩

theorem fvMul_zero_inf {x y : FV} (h : (x.isZero && y.isInf || x.isInf && y.isZero) = true) : fvMul x y = (.nan false, fNV) := by
  obtain ⟨hx, hy⟩ := FV.not_nan_of_zero_inf h
  rw [Bool.or_comm] at h
  simp only [fvMul, hx, hy, h, Bool.or_false, Bool.false_eq_true, if_false, if_true]

theorem fvMul_inf {x y : FV} (h : x.isInf = true ∨ y.isInf = true) (hx : x.isNan = false) (hy : y.isNan = false)
    (hbad : (x.isZero && y.isInf || x.isInf && y.isZero) = false) : fvMul x y = (.inf (x.sign != y.sign), 0) := by
  rw [← Bool.or_eq_true] at h
  rw [Bool.or_comm] at hbad
  simp only [fvMul, hx, hy, h, hbad, Bool.or_false, Bool.false_eq_true, if_false, if_true]

@[simp] theorem fvMul_num (s t : Bool) (m n : Nat) (e d : Int) : fvMul (.num s m e) (.num t n d) = (.num (s != t) (m * n) (e + d), 0) := by
  simp [fvMul]

/-! ## Sums -/

@[simp] theorem RMode.beq_rdn (m : RMode) : (m == .rdn) = decide (m = .rdn) := by cases m <;> rfl

@[simp] theorem fvAdd_inf_inf (m : RMode) (s t : Bool) :
    fvAdd m (.inf s) (.inf t) = if s = t then (.inf s, 0) else (.nan false, fNV) := by simp [fvAdd]

@[simp] theorem fvAdd_inf_num (m : RMode) (s t : Bool) (n : Nat) (d : Int) : fvAdd m (.inf s) (.num t n d) = (.inf s, 0) := rfl

@[simp] theorem fvAdd_num_inf (m : RMode) (s t : Bool) (n : Nat) (d : Int) : fvAdd m (.num t n d) (.inf s) = (.inf s, 0) := rfl

@[simp] theorem fvAdd_zero_zero (m : RMode) (s t : Bool) (e d : Int) :
    fvAdd m (.num s 0 e) (.num t 0 d) = (.num (if s = t then s else decide (m = .rdn)) 0 0, 0) := by
  simp [fvAdd]


/-! ## Fused forms -/

theorem FV.isSig_of_not_nan {x : FV} (h : x.isNan = false) : x.isSig = false := by
  cases x with
  | nan s => simp at h
  | _ => rfl

/-- The fused form adds to the exact product. -/
theorem fvFma_of_fvMul (m : RMode) {x y p : FV} (z : FV) (hx : x.isNan = false) (hy : y.isNan = false) (hp : p.isNan = false)
    (h : fvMul x y = (p, 0)) : fvFma m x y z = fvAdd m p z := by
  have hsig : sigNV [x, y, z] = flagIf z.isSig fNV := by simp [FV.isSig_of_not_nan hx, FV.isSig_of_not_nan hy]
  rw [fvFma, h, hsig]
  cases hz : z.isNan with
  | true => simp [fvAdd_of_nan m (.inr hz), FV.isSig_of_not_nan hp]
  | false => simp [FV.isSig_of_not_nan hz, flagIf]

/-- 0 times infinity is invalid whatever the addend (R141). -/
theorem fvFma_zero_inf (m : RMode) {x y : FV} (z : FV) (h : (x.isZero && y.isInf || x.isInf && y.isZero) = true) :
    fvFma m x y z = (.nan false, fNV) := by
  rw [fvFma, fvMul_zero_inf h, fvAdd_of_nan m (.inl rfl)]
  simp only [sigNV_three, fNV_or_flagIf]

theorem fvMul_of_valid {x y : FV} (hx : x.isNan = false) (hy : y.isNan = false)
    (hbad : (x.isZero && y.isInf || x.isInf && y.isZero) = false) : (fvMul x y).1.isNan = false ∧ (fvMul x y).2 = 0 := by
  by_cases h : x.isInf = true ∨ y.isInf = true
  · simp [fvMul_inf h hx hy hbad]
  · obtain ⟨hxi, hyi⟩ : x.isInf = false ∧ y.isInf = false := by simpa using h
    obtain ⟨s, k, e, rfl⟩ := FV.finite_iff.1 (show (!x.isNan && !x.isInf) = true by simp [hx, hxi])
    obtain ⟨t, n, d, rfl⟩ := FV.finite_iff.1 (show (!y.isNan && !y.isInf) = true by simp [hy, hyi])
    simp

theorem fvFma_of_nan (m : RMode) {x y z : FV} (h : x.isNan = true ∨ y.isNan = true ∨ z.isNan = true)
    (hbad : (x.isZero && y.isInf || x.isInf && y.isZero) = false) :
    fvFma m x y z = (.nan false, flagIf (x.isSig || y.isSig || z.isSig) fNV) := by
  by_cases hxy : x.isNan = true ∨ y.isNan = true
  · rw [fvFma, fvMul_of_nan hxy, fvAdd_of_nan m (.inl rfl)]
    simp [flagIf_or_flagIf]
  · obtain ⟨hx, hy⟩ : x.isNan = false ∧ y.isNan = false := by simpa using hxy
    obtain ⟨hp, hfl⟩ := fvMul_of_valid hx hy hbad
    have hz : z.isNan = true := by simpa [hx, hy] using h
    rw [fvFma_of_fvMul m z hx hy hp (Prod.ext rfl hfl), fvAdd_of_nan m (.inr hz)]
    simp [FV.isSig_of_not_nan hx, FV.isSig_of_not_nan hy, FV.isSig_of_not_nan hp]

/-- An infinite product (R46). -/
theorem fvFma_inf (m : RMode) {x y z : FV} (h : x.isInf = true ∨ y.isInf = true) (hx : x.isNan = false) (hy : y.isNan = false)
    (hbad : (x.isZero && y.isInf || x.isInf && y.isZero) = false) (hz : z.isNan = false) :
    fvFma m x y z = if z.isInf = true ∧ z.sign ≠ (x.sign != y.sign) then (.nan false, fNV) else (.inf (x.sign != y.sign), 0) := by
  rw [fvFma_of_fvMul m z hx hy rfl (fvMul_inf h hx hy hbad)]
  cases z with
  | nan s => simp at hz
  | inf t => simp [eq_comm]
  | num t n d => simp

/-! ## Quotients -/

@[simp] theorem fvDiv_inf_inf (s t : Bool) : fvDiv (.inf s) (.inf t) = (.nan false, fNV) := rfl

@[simp] theorem fvDiv_inf_num (s t : Bool) (n : Nat) (d : Int) : fvDiv (.inf s) (.num t n d) = (.inf (s != t), 0) := rfl

@[simp] theorem fvDiv_num_inf (s t : Bool) (n : Nat) (d : Int) : fvDiv (.num t n d) (.inf s) = (.num (t != s) 0 0, 0) := rfl

@[simp] theorem fvDiv_num_num (s t : Bool) (m n : Nat) (e d : Int) : fvDiv (.num s m e) (.num t n d) =
    if n = 0 then (if m = 0 then (.nan false, fNV) else (.inf (s != t), fDZ))
    else if m = 0 then (.num (s != t) 0 0, 0) else (ratio (s != t) m e n d, 0) := rfl

/-! ## The unary forms (R59) -/

theorem unary_of_nan {x : FV} (h : x.isNan = true) :
    ∀ r ∈ [fvRcp x, fvRsq x, fvExp2 x, fvLog2 x, fvSqrt x], r = (.nan false, flagIf x.isSig fNV) := by
  obtain ⟨s, rfl⟩ := FV.isNan_iff.1 h
  have hrcp : fvRcp (.nan s) = (.nan false, flagIf s fNV) := by simp [fvRcp, fvDiv_of_nan]
  simp [hrcp, fvRsq, fvExp2, fvLog2, fvSqrt]

/-- The reciprocal root, the logarithm and the root of a number below zero are invalid. -/
theorem roots_of_negative {m : Nat} {e : Int} (hm : m ≠ 0) :
    ∀ r ∈ [fvRsq (.num true m e), fvLog2 (.num true m e), fvSqrt (.num true m e)], r = (.nan false, fNV) := by
  simp [fvRsq, fvLog2, fvSqrt, hm]

/-! ## What is delivered -/

theorem result_of_nan (f : Fmt) (m : RMode) (s : Bool) (fl : BitVec 5) : result f m (.nan s, fl) = (BitVec.ofNat 64 (nanEnc f), fl) := by
  simp [result, deliver]

theorem result_of_inf {f : Fmt} (hf : saturates f false = false) (m : RMode) (n : Bool) (fl : BitVec 5) :
    result f m (.inf n, fl) = (BitVec.ofNat 64 (signed f n (infEnc f)), fl) := by
  simp [result, deliver, hf]

theorem result_of_zero (f : Fmt) (m : RMode) (n : Bool) (e : Int) (fl : BitVec 5) :
    result f m (.num n 0 e, fl) = (BitVec.ofNat 64 (signed f n 0), fl) := by
  simp [result, deliver]

/-- Settles O6: each clause is the rule of its operation; the scalar forms deliver what the exact operations give. -/
theorem floatSpecialValues : Obligations.FloatSpecialValues := by
  refine ⟨fun m x y z => ?_, fun f m a b c hf => ?_⟩
  · refine ⟨fun h => ?_, fvFma_of_nan m, fun h => ⟨fvMul_zero_inf h, fvFma_zero_inf m z h⟩, fun hx hy => ?_, fun hx hy => ?_,
      fun h hx hy hbad => ⟨fvMul_inf h hx hy hbad, fvFma_inf m h hx hy hbad⟩, fun hx hy hz => ?_, fun hx hy h => ?_, fun hx hy => ?_,
      fun hx hx0 hy => ?_, fun hy hy0 hx => ?_, unary_of_nan, fun hx => ?_, fun hx => ?_, fun hx hx0 hs => ?_⟩
    · simp [fvAdd_of_nan m h, fvMul_of_nan h, fvDiv_of_nan h, flagIf_fNV]
    · obtain ⟨s, rfl⟩ := FV.isInf_iff.1 hx
      obtain ⟨t, rfl⟩ := FV.isInf_iff.1 hy
      by_cases h : s = t <;> simp [h, fNV]
    · obtain ⟨s, rfl⟩ := FV.isInf_iff.1 hx
      obtain ⟨t, n, d, rfl⟩ := FV.finite_iff.1 hy
      simp [Bool.xor_comm]
    · obtain ⟨s, k, e, rfl⟩ := FV.finite_iff.1 hx
      obtain ⟨t, n, d, rfl⟩ := FV.finite_iff.1 hy
      obtain ⟨i, rfl⟩ := FV.isInf_iff.1 hz
      simp [fvFma_of_fvMul m _ rfl rfl rfl (fvMul_num s t k n e d)]
    · obtain ⟨s, k, e, rfl⟩ := FV.finite_iff.1 hx
      obtain ⟨t, n, d, rfl⟩ := FV.finite_iff.1 hy
      have hkn : k * n = 0 := by simpa using h
      refine ⟨by simp [hkn], fun hz => ?_⟩
      obtain ⟨i, g, rfl⟩ := FV.isZero_iff.1 hz
      rw [fvFma_of_fvMul m _ rfl rfl rfl (fvMul_num s t k n e d), hkn]
      simp [eq_comm (a := i)]
    · obtain ⟨s, e, rfl⟩ := FV.isZero_iff.1 hx
      obtain ⟨t, d, rfl⟩ := FV.isZero_iff.1 hy
      by_cases h : s = t <;> simp [h, fNV]
    · obtain ⟨s, k, e, hk, rfl⟩ := FV.finite_nonzero_iff.1 ⟨hx, hx0⟩
      obtain ⟨t, d, rfl⟩ := FV.isZero_iff.1 hy
      simp [hk, fDZ]
    · obtain ⟨t, n, d, hn, rfl⟩ := FV.finite_nonzero_iff.1 ⟨hy, hy0⟩
      obtain ⟨s, e, rfl⟩ := FV.isZero_iff.1 hx
      simp [hn]
    · obtain ⟨n, e, rfl⟩ := FV.isZero_iff.1 hx
      simp [fvRcp, fvRsq, fvExp2, fvLog2, fvSqrt, fDZ, FV.rat]
    · obtain ⟨n, rfl⟩ := FV.isInf_iff.1 hx
      simp +contextual [fvRcp, fvRsq, fvExp2, fvLog2, fvSqrt, fNV]
    · obtain ⟨n, k, e, hk, rfl⟩ := FV.finite_nonzero_iff.1 ⟨hx, hx0⟩
      obtain rfl : n = true := hs
      exact roots_of_negative hk
  · have hq : BitVec.ofNat 64 (nanEnc f) = if f = f32Fmt then 0x7FC00000#64 else 0x7FF8000000000000#64 := by
      rcases hf with rfl | rfl <;> decide
    have hsat : saturates f false = false := by rcases hf with rfl | rfl <;> rfl
    refine ⟨fun h => ?_, fun h => ?_, fun hx hy => ⟨?_, fun hne => ?_, fun he => ?_⟩, fun h => ?_, fun hx hy => ?_, fun hn hi h0 hy => ?_,
      fun hn hs h0 => ?_, fun hx => ?_⟩
    · have hflip : (fvIn f a).isNan = true ∨ (fvIn f b).flip.isNan = true := by simpa using h
      simp only [fpAdd, fpSub, fpMul, fpDiv, fvAdd_of_nan m h, fvAdd_of_nan m hflip, fvMul_of_nan h, fvDiv_of_nan h, FV.isSig_flip,
        result_of_nan, hq, flagIf_fNV]
      exact ⟨rfl, rfl, rfl, rfl⟩
    · obtain ⟨s, hs⟩ := FV.isNan_iff.1 h
      simp [fpSqrt, hs, fvSqrt, result_of_nan, hq, flagIf_fNV]
    · obtain ⟨s, hs⟩ := FV.isInf_iff.1 hx
      obtain ⟨t, ht⟩ := FV.isInf_iff.1 hy
      simp [fpDiv, hs, ht, result_of_nan, hq, fNV]
    · obtain ⟨s, hs⟩ := FV.isInf_iff.1 hx
      obtain ⟨t, ht⟩ := FV.isInf_iff.1 hy
      have hst : s ≠ t := by simpa [hs, ht] using hne
      simp [fpAdd, hs, ht, hst, result_of_nan, hq, fNV]
    · obtain ⟨s, hs⟩ := FV.isInf_iff.1 hx
      simp [fpSub, ← he, hs, FV.flip, result_of_nan, hq, fNV]
    · have hbad : ((fvIn f a).isZero && (fvIn f b).isInf || (fvIn f a).isInf && (fvIn f b).isZero) = true := by simpa using h
      simp [fpMul, fpFma, fpFms, fvMul_zero_inf hbad, fvFma_zero_inf m _ hbad, result_of_nan, hq, fNV]
    · obtain ⟨s, e, hs⟩ := FV.isZero_iff.1 hx
      obtain ⟨t, d, ht⟩ := FV.isZero_iff.1 hy
      simp [fpDiv, hs, ht, result_of_nan, hq, fNV]
    · obtain ⟨s, k, e, hk, hs⟩ := FV.finite_nonzero_iff.1 ⟨by simp [hn, hi], h0⟩
      obtain ⟨t, d, ht⟩ := FV.isZero_iff.1 hy
      simp [fpDiv, hs, ht, hk, result_of_inf hsat, fDZ]
    · cases hx : fvIn f a with
      | nan s => simp [hx] at hn
      | inf s =>
        obtain rfl : s = true := by simpa [hx] using hs
        simp [fpSqrt, hx, fvSqrt, result_of_nan, hq, fNV]
      | num s k e =>
        obtain rfl : s = true := by simpa [hx] using hs
        have hk : k ≠ 0 := by simpa [hx] using h0
        simp [fpSqrt, hx, fvSqrt, hk, result_of_nan, hq, fNV]
    · obtain ⟨s, e, hs⟩ := FV.isZero_iff.1 hx
      simp [fpSqrt, hs, fvSqrt, result_of_zero]

end Sys2Proof.Machine
end

section
/-! The values of the formats (R42): encodings as the points of a grid that goes on beyond the largest finite number. -/

namespace Sys2Proof.Machine

-- Proofs elaborated side by side each hold a thread's stack, and the whole text compiles near the memory limit of its check.
set_option Elab.async false

/-! ## The formats -/

/-- The floating formats of R42, and f64. -/
def Fmt.Listed (f : Fmt) : Prop := f ∈ [f32Fmt, bf16Fmt, f16Fmt, e5m2Fmt, e4m3Fmt, f64Fmt]

theorem Fmt.Listed.cases {f : Fmt} (hf : f.Listed) :
    f = f32Fmt ∨ f = bf16Fmt ∨ f = f16Fmt ∨ f = e5m2Fmt ∨ f = e4m3Fmt ∨ f = f64Fmt := by simpa [Fmt.Listed] using hf

section
variable {f : Fmt} (hf : f.Listed)
include hf

theorem Fmt.Listed.bits_eq : f.bits - 1 = f.mbits + f.ebits ∧ f.bits = f.bits - 1 + 1 := by
  rcases hf.cases with rfl | rfl | rfl | rfl | rfl | rfl <;> decide

theorem Fmt.Listed.two_pow_bits : 2 ^ f.bits = 2 * 2 ^ (f.bits - 1) := by
  rw [hf.bits_eq.2, Nat.pow_succ', Nat.add_sub_cancel]

theorem Fmt.Listed.mbits_bounds : 2 ≤ f.mbits ∧ f.mbits ≤ 52 := by
  rcases hf.cases with rfl | rfl | rfl | rfl | rfl | rfl <;> decide

theorem Fmt.Listed.maxEnc_bounds : 2 * 2 ^ f.mbits ≤ maxEnc f ∧ maxEnc f + 1 < 2 ^ (f.bits - 1) := by
  rcases hf.cases with rfl | rfl | rfl | rfl | rfl | rfl <;> decide

theorem Fmt.Listed.infEnc_lt : infEnc f < 2 ^ (f.bits - 1) := by
  rcases hf.cases with rfl | rfl | rfl | rfl | rfl | rfl <;> decide

theorem Fmt.Listed.e4m3_iff : f.e4m3 = true ↔ f = e4m3Fmt := by
  rcases hf.cases with rfl | rfl | rfl | rfl | rfl | rfl <;> decide

theorem Fmt.Listed.infEnc_eq (h : saturates f false = false) : infEnc f = maxEnc f + 1 := by
  revert h
  rcases hf.cases with rfl | rfl | rfl | rfl | rfl | rfl <;> decide

end

/-! ## The grid -/

/-- How many quanta's doublings lie below an encoding: 0 for the subnormals and the least normal numbers. -/
def Fmt.expo (f : Fmt) (n : Nat) : Nat := n / 2 ^ f.mbits - 1

/-- The mantissa of an encoding, with its leading bit. -/
def Fmt.mant (f : Fmt) (n : Nat) : Nat := n - f.expo n * 2 ^ f.mbits

/-- The value of a positive encoding, with no upper end to the exponents (R45: as if the exponent range were unbounded). -/
noncomputable def Fmt.grid (f : Fmt) (n : Nat) : ℝ := f.mant n * (2 : ℝ) ^ (qMin f + f.expo n)

theorem Fmt.expo_mul_add (f : Fmt) {j d : Nat} (hd : d < 2 * 2 ^ f.mbits) (h : j = 0 ∨ 2 ^ f.mbits ≤ d) :
    f.expo (j * 2 ^ f.mbits + d) = j := by
  have hB : 0 < 2 ^ f.mbits := Nat.two_pow_pos _
  rw [Fmt.expo, Nat.mul_comm, Nat.mul_add_div hB]
  rcases Nat.lt_or_ge d (2 ^ f.mbits) with hlt | hge
  · obtain rfl : j = 0 := h.resolve_right (Nat.not_le.2 hlt)
    rw [Nat.div_eq_of_lt hlt]
  · rw [Nat.div_eq_of_lt_le (k := 1) (by omega) (by omega)]
    omega

/-- An encoding put together from exponent and mantissa; a mantissa of 2^(mbits + 1) carries into the exponent. -/
theorem Fmt.grid_mul_add (f : Fmt) {j d : Nat} (hd : d ≤ 2 * 2 ^ f.mbits) (h : j = 0 ∨ 2 ^ f.mbits ≤ d) :
    f.grid (j * 2 ^ f.mbits + d) = d * (2 : ℝ) ^ (qMin f + j) := by
  have hB : 0 < 2 ^ f.mbits := Nat.two_pow_pos _
  rcases hd.lt_or_eq with hlt | rfl
  · rw [Fmt.grid, Fmt.mant, f.expo_mul_add hlt h, Nat.add_sub_cancel_left]
  · have hcarry : j * 2 ^ f.mbits + 2 * 2 ^ f.mbits = (j + 1) * 2 ^ f.mbits + 2 ^ f.mbits := by ring
    rw [hcarry, Fmt.grid, Fmt.mant, f.expo_mul_add (by omega) (.inr le_rfl), Nat.add_sub_cancel_left]
    push_cast
    rw [← add_assoc, zpow_add_one₀ two_ne_zero]
    ring

theorem Fmt.eq_expo_mant (f : Fmt) (n : Nat) :
    n = f.expo n * 2 ^ f.mbits + f.mant n ∧ f.mant n < 2 * 2 ^ f.mbits ∧ (f.expo n = 0 ∨ 2 ^ f.mbits ≤ f.mant n) := by
  have hB : 0 < 2 ^ f.mbits := Nat.two_pow_pos _
  have hdiv := Nat.div_add_mod n (2 ^ f.mbits)
  have hmod := Nat.mod_lt n hB
  rw [Nat.mul_comm] at hdiv
  rw [Fmt.mant, Fmt.expo]
  cases hk : n / 2 ^ f.mbits with
  | zero => simp_all; omega
  | succ k =>
    rw [hk, Nat.succ_mul] at hdiv
    simp only [Nat.add_sub_cancel]
    omega

/-- Neighbouring encodings lie one quantum apart. -/
theorem Fmt.grid_succ (f : Fmt) (n : Nat) : f.grid (n + 1) = f.grid n + (2 : ℝ) ^ (qMin f + f.expo n) := by
  obtain ⟨hn, hlt, hlow⟩ := f.eq_expo_mant n
  have hnext := f.grid_mul_add (j := f.expo n) (d := f.mant n + 1) hlt (hlow.imp_right fun h => h.trans (Nat.le_succ _))
  rw [← Nat.add_assoc, ← hn] at hnext
  rw [hnext, Fmt.grid]
  push_cast
  ring

theorem Fmt.grid_strictMono (f : Fmt) : StrictMono f.grid :=
  strictMono_nat_of_lt_succ fun n => by rw [f.grid_succ]; linarith [zpow_pos (two_pos (α := ℝ)) (qMin f + f.expo n)]

theorem Fmt.grid_nonneg (f : Fmt) (n : Nat) : 0 ≤ f.grid n := mul_nonneg (Nat.cast_nonneg _) (zpow_nonneg two_pos.le _)

@[simp] theorem Fmt.grid_zero (f : Fmt) : f.grid 0 = 0 := by simp [Fmt.grid, Fmt.mant]

/-- The least subnormal number. -/
theorem Fmt.grid_one (f : Fmt) : f.grid 1 = (2 : ℝ) ^ qMin f := by
  simpa using f.grid_mul_add (j := 0) (d := 1) (by have := Nat.two_pow_pos f.mbits; omega) (.inl rfl)

/-- The least normal number. -/
theorem Fmt.grid_normal (f : Fmt) : f.grid (2 ^ f.mbits) = (2 : ℝ) ^ (qMin f + f.mbits) := by
  have h := f.grid_mul_add (j := 0) (d := 2 ^ f.mbits) (by omega) (.inl rfl)
  rw [zpow_add₀ two_ne_zero, mul_comm]
  simpa using h

/-! ## The encodings on the grid (R42) -/

theorem FV.rat_num (n : Bool) (m : Nat) (e : Int) : (((FV.num n m e).rat : ℚ) : ℝ) = (if n then -1 else 1) * ((m : ℝ) * (2 : ℝ) ^ e) := by
  cases n <;> simp [FV.rat]

section
variable {f : Fmt} (hf : f.Listed)
include hf

/-- Below its sign an encoding is exponent field and mantissa field. -/
theorem Fmt.Listed.mod_eq (n : Nat) :
    n % 2 ^ (f.bits - 1) = (n / 2 ^ f.mbits % 2 ^ f.ebits) * 2 ^ f.mbits + n % 2 ^ f.mbits := by
  rw [hf.bits_eq.1, Nat.pow_add, Nat.mod_mul, Nat.add_comm, Nat.mul_comm]

/-- The encodings that stand for no number. -/
theorem Fmt.Listed.maxEnc_lt_iff {ex man : Nat} (hex : ex < 2 ^ f.ebits) (hman : man < 2 ^ f.mbits) :
    maxEnc f < ex * 2 ^ f.mbits + man ↔ (f.e4m3 && ex == 15 && man == 7 || !f.e4m3 && ex == 2 ^ f.ebits - 1) = true := by
  cases he : f.e4m3 with
  | true =>
    obtain rfl := hf.e4m3_iff.1 he
    simp only [e4m3Fmt] at hex hman ⊢
    simp [maxEnc]
    omega
  | false =>
    have hB : 0 < 2 ^ f.mbits := Nat.two_pow_pos _
    have hE : 1 < 2 ^ f.ebits := Nat.one_lt_two_pow (by rcases hf.cases with rfl | rfl | rfl | rfl | rfl | rfl <;> decide)
    have hmax : maxEnc f = (2 ^ f.ebits - 1) * 2 ^ f.mbits - 1 := by simp [maxEnc, he, infEnc]
    have hpos : 0 < (2 ^ f.ebits - 1) * 2 ^ f.mbits := Nat.mul_pos (by omega) hB
    have hdiv : (2 ^ f.ebits - 1) * 2 ^ f.mbits ≤ ex * 2 ^ f.mbits + man ↔ 2 ^ f.ebits - 1 ≤ ex := by
      rw [← Nat.le_div_iff_mul_le hB, Nat.mul_comm, Nat.mul_add_div hB, Nat.div_eq_of_lt hman, Nat.add_zero]
    simp only [Bool.false_and, Bool.false_or, Bool.not_false, Bool.true_and, beq_iff_eq]
    omega

/-- Sign, mantissa and exponent of a finite encoding. -/
theorem unpack_of_le {n : Nat} (h : n % 2 ^ (f.bits - 1) ≤ maxEnc f) :
    unpack f n = .num (n / 2 ^ (f.bits - 1) % 2 == 1) (f.mant (n % 2 ^ (f.bits - 1))) (qMin f + f.expo (n % 2 ^ (f.bits - 1))) := by
  have hman := Nat.mod_lt n (Nat.two_pow_pos f.mbits)
  have hnot := (hf.maxEnc_lt_iff (Nat.mod_lt (n / 2 ^ f.mbits) (Nat.two_pow_pos f.ebits)) hman).not.1
    (by rw [← hf.mod_eq]; exact Nat.not_lt.2 h)
  rw [hf.mod_eq]
  unfold unpack
  generalize n / 2 ^ f.mbits % 2 ^ f.ebits = ex at *
  generalize n % 2 ^ f.mbits = man at *
  obtain ⟨h1, h2⟩ : _ ∧ _ := not_or.1 (Bool.or_eq_true_iff.not.1 hnot)
  simp only [h1, h2, if_false, Bool.false_eq_true]
  rcases Nat.eq_zero_or_pos ex with rfl | hpos
  · have hexpo : f.expo man = 0 := by simpa using f.expo_mul_add (j := 0) (d := man) (by omega) (.inl rfl)
    simp [Fmt.mant, hexpo]
  · obtain ⟨j, rfl⟩ : ∃ j, ex = j + 1 := ⟨ex - 1, by omega⟩
    have henc : (j + 1) * 2 ^ f.mbits + man = j * 2 ^ f.mbits + (man + 2 ^ f.mbits) := by ring
    have hexpo := f.expo_mul_add (j := j) (d := man + 2 ^ f.mbits) (by omega) (.inr (by omega))
    simp [henc, Fmt.mant, hexpo]
    ring

theorem unpack_of_lt {n : Nat} (h : maxEnc f < n % 2 ^ (f.bits - 1)) : (unpack f n).isNan = true ∨ (unpack f n).isInf = true := by
  rw [hf.mod_eq, hf.maxEnc_lt_iff (Nat.mod_lt _ (Nat.two_pow_pos _)) (Nat.mod_lt _ (Nat.two_pow_pos _))] at h
  unfold unpack
  generalize n / 2 ^ f.mbits % 2 ^ f.ebits = ex at *
  generalize n % 2 ^ f.mbits = man at *
  rcases Bool.or_eq_true_iff.1 h with h | h
  · exact .inl (by rw [if_pos h]; rfl)
  · obtain ⟨he, hex⟩ : f.e4m3 = false ∧ ex = 2 ^ f.ebits - 1 := by simpa using h
    by_cases hman : man = 0
    · simp [he, ← hex, hman]
    · simp [he, ← hex, hman]

theorem finEnc_iff {n : Nat} : FinEnc f n ↔ n < 2 ^ f.bits ∧ n % 2 ^ (f.bits - 1) ≤ maxEnc f := by
  refine and_congr_right fun _ => ⟨fun ⟨hn, hi⟩ => ?_, fun h => by simp [unpack_of_le hf h]⟩
  by_contra hlt
  rcases unpack_of_lt hf (Nat.not_le.1 hlt) with h | h
  · simp [h] at hn
  · simp [h] at hi

theorem rat_unpack {n : Nat} (h : n % 2 ^ (f.bits - 1) ≤ maxEnc f) :
    (((unpack f n).rat : ℚ) : ℝ) = (if n / 2 ^ (f.bits - 1) % 2 == 1 then -1 else 1) * f.grid (n % 2 ^ (f.bits - 1)) := by
  rw [unpack_of_le hf h, FV.rat_num, Fmt.grid]

theorem rat_unpack_pos {n : Nat} (h : n ≤ maxEnc f) : (((unpack f n).rat : ℚ) : ℝ) = f.grid n := by
  have hlt : n < 2 ^ (f.bits - 1) := h.trans_lt ((Nat.lt_succ_self _).trans hf.maxEnc_bounds.2)
  have hmod := Nat.mod_eq_of_lt hlt
  have hrat := rat_unpack hf (n := n) (by omega)
  rw [hmod, Nat.div_eq_of_lt hlt] at hrat
  simpa using hrat

/-- The encoding of the other sign. -/
theorem rat_unpack_neg {n : Nat} (h : n ≤ maxEnc f) : (((unpack f (n + 2 ^ (f.bits - 1))).rat : ℚ) : ℝ) = -f.grid n := by
  have hlt : n < 2 ^ (f.bits - 1) := h.trans_lt ((Nat.lt_succ_self _).trans hf.maxEnc_bounds.2)
  have hmod : (n + 2 ^ (f.bits - 1)) % 2 ^ (f.bits - 1) = n := by rw [Nat.add_mod_right, Nat.mod_eq_of_lt hlt]
  have hdiv : (n + 2 ^ (f.bits - 1)) / 2 ^ (f.bits - 1) = 1 := by
    rw [Nat.add_div_right _ (Nat.two_pow_pos _), Nat.div_eq_of_lt hlt]
  have hrat := rat_unpack hf (n := n + 2 ^ (f.bits - 1)) (by omega)
  rw [hmod, hdiv] at hrat
  simpa using hrat

/-- Every finite encoding is a point of the grid with a sign. -/
theorem FinEnc.eq_signed {n : Nat} (h : FinEnc f n) : ∃ neg k, k ≤ maxEnc f ∧ n = signed f neg k := by
  obtain ⟨hlt, hle⟩ := (finEnc_iff hf).1 h
  have hpow := hf.two_pow_bits
  rcases Nat.lt_or_ge n (2 ^ (f.bits - 1)) with hn | hn
  · exact ⟨false, n, by rwa [Nat.mod_eq_of_lt hn] at hle, rfl⟩
  · refine ⟨true, n - 2 ^ (f.bits - 1), ?_, by simp [signed]; omega⟩
    rwa [Nat.mod_eq_sub_mod hn, Nat.mod_eq_of_lt (by omega)] at hle

theorem finEnc_signed (neg : Bool) {k : Nat} (h : k ≤ maxEnc f) : FinEnc f (signed f neg k) := by
  have hmax := hf.maxEnc_bounds.2
  have hpow := hf.two_pow_bits
  rw [finEnc_iff hf]
  cases neg with
  | false =>
    have : k % 2 ^ (f.bits - 1) = k := Nat.mod_eq_of_lt (by omega)
    simp only [signed, Bool.false_eq_true, if_false]
    omega
  | true =>
    have : (k + 2 ^ (f.bits - 1)) % 2 ^ (f.bits - 1) = k := by rw [Nat.add_mod_right, Nat.mod_eq_of_lt (by omega)]
    simp only [signed, if_true]
    omega

theorem rat_unpack_signed (neg : Bool) {k : Nat} (h : k ≤ maxEnc f) :
    (((unpack f (signed f neg k)).rat : ℚ) : ℝ) = (if neg then -f.grid k else f.grid k) := by
  cases neg with
  | false => simpa [signed] using rat_unpack_pos hf h
  | true => simpa [signed] using rat_unpack_neg hf h

end

end Sys2Proof.Machine
end

section
/-! Rounding of a positive real number (R45-R48): the grid point that each mode chooses, and that it alone is what the rules name. -/

namespace Sys2Proof.Machine

-- Proofs elaborated side by side each hold a thread's stack, and the whole text compiles near the memory limit of its check.
set_option Elab.async false

/-! ## Rounding up or down between neighbours (R45) -/

/-- Whether a positive number between two neighbours rounds to the upper one; `odd` says that the lower one's mantissa is odd. -/
def RoundsUp (mode : RMode) (lo hi a : ℝ) (odd : Prop) : Prop :=
  match mode with
  | .rne => hi - a < a - lo ∨ (hi - a = a - lo ∧ odd)
  | .rtz => False
  | .rup => lo < a
  | .rdn => False
  | .rmm => hi - a ≤ a - lo

theorem not_roundsUp_of_le (mode : RMode) {lo hi a : ℝ} (odd : Prop) (hlt : lo < hi) (ha : a ≤ lo) : ¬RoundsUp mode lo hi a odd := by
  cases mode with
  | rne => rintro (h | ⟨h, -⟩) <;> linarith
  | rtz => exact id
  | rup => exact not_lt.2 ha
  | rdn => exact id
  | rmm => intro h; simp only [RoundsUp] at h; linarith

theorem roundsUp_mul (mode : RMode) {lo hi a t : ℝ} (odd : Prop) (ht : 0 < t) :
    RoundsUp mode (lo * t) (hi * t) (a * t) odd ↔ RoundsUp mode lo hi a odd := by
  cases mode <;> simp only [RoundsUp, ← sub_mul, mul_lt_mul_iff_left₀ ht, mul_le_mul_iff_left₀ ht, mul_left_inj' ht.ne']

/-! ## The grid point chosen -/

/-- The greatest encoding whose value is not above a positive number. -/
noncomputable def Fmt.floorEnc (f : Fmt) (a : ℝ) : Nat :=
  let q := max (Int.log 2 a - f.mbits) (qMin f)
  (q - qMin f).toNat * 2 ^ f.mbits + ⌊a / (2 : ℝ) ^ q⌋₊

open Classical in
/-- The encoding a positive number rounds to where the grid has no upper end. -/
noncomputable def Fmt.roundEnc (f : Fmt) (mode : RMode) (a : ℝ) : Nat :=
  f.floorEnc a + if RoundsUp mode (f.grid (f.floorEnc a)) (f.grid (f.floorEnc a + 1)) a (f.floorEnc a % 2 = 1) then 1 else 0

open Classical in
/-- R45 to R48 for a positive number: the encoding and the flags. -/
noncomputable def Fmt.roundPos (f : Fmt) (mode : RMode) (sat : Bool) (a : ℝ) : Nat × BitVec 5 :=
  if maxEnc f < f.roundEnc mode a then (if !saturates f sat && overflowToInf mode false then infEnc f else maxEnc f, fOF ||| fNX)
  else (f.roundEnc mode a, flagIf (decide (Tiny f mode a ∧ f.grid (f.floorEnc a) ≠ a)) fUF ||| flagIf (decide (f.grid (f.floorEnc a) ≠ a)) fNX)

theorem zpow_log_bounds {a : ℝ} (ha : 0 < a) : (2 : ℝ) ^ Int.log 2 a ≤ a ∧ a < (2 : ℝ) ^ (Int.log 2 a + 1) :=
  ⟨by exact_mod_cast Int.zpow_log_le_self one_lt_two ha, by exact_mod_cast Int.lt_zpow_succ_log_self one_lt_two a⟩

/-- The mantissa that a number has at a quantum is at most the format's, with its leading bit where the quantum is the number's own. -/
theorem floor_div_zpow_bounds {a : ℝ} (ha : 0 < a) (p : Nat) {q : Int} (hq : Int.log 2 a - p ≤ q) :
    ⌊a / (2 : ℝ) ^ q⌋₊ < 2 * 2 ^ p ∧ (q = Int.log 2 a - p → 2 ^ p ≤ ⌊a / (2 : ℝ) ^ q⌋₊) := by
  obtain ⟨hle, hlt⟩ := zpow_log_bounds ha
  have hpos : (0 : ℝ) < (2 : ℝ) ^ q := zpow_pos two_pos q
  constructor
  · rw [Nat.floor_lt (by positivity), div_lt_iff₀ hpos]
    refine hlt.trans_le ?_
    push_cast
    rw [← pow_succ', ← zpow_natCast, ← zpow_add₀ two_ne_zero]
    exact zpow_le_zpow_right₀ one_le_two (by push_cast; omega)
  · intro h
    rw [Nat.le_floor_iff (by positivity), le_div_iff₀ hpos]
    refine le_trans ?_ hle
    push_cast
    rw [← zpow_natCast, ← zpow_add₀ two_ne_zero]
    exact zpow_le_zpow_right₀ one_le_two (by omega)

theorem floor_mul_zpow_bounds {a : ℝ} (ha : 0 < a) (q : Int) :
    (⌊a / (2 : ℝ) ^ q⌋₊ : ℝ) * (2 : ℝ) ^ q ≤ a ∧ a < ((⌊a / (2 : ℝ) ^ q⌋₊ : ℝ) + 1) * (2 : ℝ) ^ q := by
  have hpos : (0 : ℝ) < (2 : ℝ) ^ q := zpow_pos two_pos q
  exact ⟨(le_div_iff₀ hpos).1 (Nat.floor_le (by positivity)), (div_lt_iff₀ hpos).1 (Nat.lt_floor_add_one _)⟩

/-- The grid point below a number, its neighbour and its parity, at the quantum of the number. -/
theorem Fmt.grid_floorEnc (f : Fmt) {a : ℝ} (ha : 0 < a) {q : Int} (hq : q = max (Int.log 2 a - f.mbits) (qMin f)) :
    f.grid (f.floorEnc a) = (⌊a / (2 : ℝ) ^ q⌋₊ : ℝ) * (2 : ℝ) ^ q ∧
      f.grid (f.floorEnc a + 1) = ((⌊a / (2 : ℝ) ^ q⌋₊ : ℝ) + 1) * (2 : ℝ) ^ q := by
  have henc : f.floorEnc a = (q - qMin f).toNat * 2 ^ f.mbits + ⌊a / (2 : ℝ) ^ q⌋₊ := by rw [Fmt.floorEnc, hq]
  obtain ⟨hlt, hlow⟩ := floor_div_zpow_bounds ha f.mbits (q := q) (by omega)
  have hj : (q - qMin f).toNat = 0 ∨ 2 ^ f.mbits ≤ ⌊a / (2 : ℝ) ^ q⌋₊ := by
    rcases le_or_gt q (qMin f) with h | h
    · exact .inl (by omega)
    · exact .inr (hlow (by omega))
  have hexp : qMin f + ((q - qMin f).toNat : Int) = q := by omega
  rw [henc, f.grid_mul_add hlt.le hj, Nat.add_assoc, f.grid_mul_add hlt (hj.imp_right fun h => h.trans (Nat.le_succ _)), hexp]
  exact ⟨rfl, by push_cast; rfl⟩

theorem Fmt.grid_floorEnc_le (f : Fmt) {a : ℝ} (ha : 0 < a) : f.grid (f.floorEnc a) ≤ a := by
  rw [(f.grid_floorEnc ha rfl).1]
  exact (floor_mul_zpow_bounds ha _).1

theorem Fmt.lt_grid_floorEnc_succ (f : Fmt) {a : ℝ} (ha : 0 < a) : a < f.grid (f.floorEnc a + 1) := by
  rw [(f.grid_floorEnc ha rfl).2]
  exact (floor_mul_zpow_bounds ha _).2

theorem Fmt.grid_le_iff (f : Fmt) {a : ℝ} (ha : 0 < a) (n : Nat) : f.grid n ≤ a ↔ n ≤ f.floorEnc a := by
  constructor
  · intro h
    have := f.grid_strictMono.lt_iff_lt.1 (h.trans_lt (f.lt_grid_floorEnc_succ ha))
    omega
  · exact fun h => (f.grid_strictMono.monotone h).trans (f.grid_floorEnc_le ha)

/-! ## Overflow and tininess (R46) -/

section
variable {f : Fmt} (hf : f.Listed)
include hf

/-- The quantum below the largest finite number is the one above it. -/
theorem grid_maxEnc_sub_one : f.grid (maxEnc f + 1) - f.grid (maxEnc f) = f.grid (maxEnc f) - f.grid (maxEnc f - 1) := by
  have hpos : 0 < maxEnc f := (Nat.two_pow_pos _).trans_le ((Nat.le_mul_of_pos_left _ two_pos).trans hf.maxEnc_bounds.1)
  have hexpo : f.expo (maxEnc f - 1) = f.expo (maxEnc f) := by
    rcases hf.cases with rfl | rfl | rfl | rfl | rfl | rfl <;> decide
  have hpred := f.grid_succ (maxEnc f - 1)
  rw [Nat.sub_add_cancel hpos, hexpo] at hpred
  rw [f.grid_succ, hpred]
  ring

theorem overflows_iff_roundsUp (mode : RMode) {a : ℝ} (ha : 0 < a) : Overflows f mode a ↔
    f.grid (maxEnc f + 1) ≤ a ∨ RoundsUp mode (f.grid (maxEnc f)) (f.grid (maxEnc f + 1)) a (maxEnc f % 2 = 1) := by
  have hstep := grid_maxEnc_sub_one hf
  have hlt := f.grid_strictMono (Nat.lt_succ_self (maxEnc f))
  simp only [Overflows, rat_unpack_pos hf le_rfl, rat_unpack_pos hf (Nat.sub_le _ 1), abs_of_pos ha, not_lt.2 ha.le, if_false]
  generalize f.grid (maxEnc f + 1) = top at *
  generalize f.grid (maxEnc f) = last at *
  cases mode with
  | rne =>
    simp only [RoundsUp]
    constructor
    · rintro (h | ⟨h, hodd⟩)
      · exact .inr (.inl (by linarith))
      · exact .inr (.inr ⟨by linarith, hodd⟩)
    · rintro (h | h | ⟨h, hodd⟩)
      · exact .inl (by linarith)
      · exact .inl (by linarith)
      · exact .inr ⟨by linarith, hodd⟩
  | rtz =>
    simp only [RoundsUp, or_false]
    constructor <;> intro h <;> linarith
  | rdn =>
    simp only [RoundsUp, or_false]
    constructor <;> intro h <;> linarith
  | rup =>
    simp only [RoundsUp]
    exact ⟨.inr, fun h => h.elim hlt.trans_le id⟩
  | rmm =>
    simp only [RoundsUp]
    constructor
    · exact fun h => .inr (by linarith)
    · rintro (h | h) <;> linarith

/-- Overflow is rounding past the largest finite number. -/
theorem overflows_iff (mode : RMode) {a : ℝ} (ha : 0 < a) : Overflows f mode a ↔ maxEnc f < f.roundEnc mode a := by
  have hle := f.grid_floorEnc_le ha
  have hlt := f.lt_grid_floorEnc_succ ha
  rw [overflows_iff_roundsUp hf mode ha, f.grid_le_iff ha, Fmt.roundEnc]
  rcases Nat.lt_trichotomy (f.floorEnc a) (maxEnc f) with h | h | h
  · have hno := not_roundsUp_of_le mode (maxEnc f % 2 = 1) (f.grid_strictMono (Nat.lt_succ_self (maxEnc f)))
      (hlt.le.trans (f.grid_strictMono.monotone h))
    simp only [hno, or_false]
    split <;> omega
  · rw [h]
    split <;> simp_all
  · simp only [Nat.succ_le_of_lt h, true_or, true_iff]
    omega

theorem tiny_iff_roundsUp (mode : RMode) {a : ℝ} (ha : 0 < a) : Tiny f mode a ↔
    a < f.grid (2 ^ f.mbits) ∧ ¬RoundsUp mode (f.grid (2 ^ f.mbits) - f.grid 1 / 2) (f.grid (2 ^ f.mbits)) a True := by
  have hmax := hf.maxEnc_bounds.1
  have hpow := Nat.two_pow_pos f.mbits
  have hone : 0 < f.grid 1 := by simpa using f.grid_strictMono one_pos
  simp only [Tiny, rat_unpack_pos hf (n := 2 ^ f.mbits) (by omega), rat_unpack_pos hf (n := 1) (by omega), abs_of_pos ha, not_lt.2 ha.le,
    if_false]
  generalize f.grid (2 ^ f.mbits) = low at *
  cases mode with
  | rne =>
    simp only [RoundsUp, and_true, not_or]
    constructor
    · exact fun h => ⟨by linarith, by linarith, by intro; linarith⟩
    · rintro ⟨-, h, hne⟩
      have := lt_of_le_of_ne (not_lt.1 h) (Ne.symm hne)
      linarith
  | rtz => simp [RoundsUp]
  | rdn => simp [RoundsUp]
  | rup =>
    simp only [RoundsUp, not_lt]
    exact ⟨fun h => ⟨by linarith, h⟩, And.right⟩
  | rmm =>
    simp only [RoundsUp, not_le]
    exact ⟨fun h => ⟨by linarith, by linarith⟩, fun ⟨_, h⟩ => by linarith⟩

end

/-! ## The rounding rules -/

/-- R45 as `RoundedSat` words it for a result that does not overflow: no finite encoding serves better. -/
def Best (f : Fmt) (mode : RMode) (x : ℝ) (r : Nat) : Prop :=
  let v (n : Nat) : ℝ := ((unpack f n).rat : ℝ)
  match mode with
  | .rne => ∀ n, FinEnc f n → |v r - x| ≤ |v n - x| ∧ (|v r - x| = |v n - x| → v n = v r ∨ r % 2 = 0)
  | .rmm => ∀ n, FinEnc f n → |v r - x| ≤ |v n - x| ∧ (|v r - x| = |v n - x| → |v n| ≤ |v r|)
  | .rtz => |v r| ≤ |x| ∧ ∀ n, FinEnc f n → |v n| ≤ |x| → |v n| ≤ |v r|
  | .rup => x ≤ v r ∧ ∀ n, FinEnc f n → x ≤ v n → v r ≤ v n
  | .rdn => v r ≤ x ∧ ∀ n, FinEnc f n → v n ≤ x → v n ≤ v r

/-- `RoundedSat` clause by clause, of an encoding and flags. -/
theorem roundedSat_mk {f : Fmt} {mode : RMode} {sat : Bool} {x : ℝ} {r : Nat} {fl : BitVec 5} : RoundedSat f mode sat x (r, fl) ↔
    (r / 2 ^ (f.bits - 1) = 1 ↔ x < 0) ∧ fl.getLsbD 0 = false ∧ fl.getLsbD 1 = false ∧ (fl.getLsbD 2 = true ↔ Overflows f mode x) ∧
    (fl.getLsbD 3 = true ↔ Tiny f mode x ∧ (((unpack f r).rat : ℚ) : ℝ) ≠ x) ∧
    (fl.getLsbD 4 = true ↔ ¬(FinEnc f r ∧ (((unpack f r).rat : ℚ) : ℝ) = x)) ∧
    (Overflows f mode x →
      (saturates f sat = false → ToInfinity mode (x < 0) → r = signed f (decide (x < 0)) (infEnc f)) ∧
      (saturates f sat = true ∨ ¬ToInfinity mode (x < 0) → r = signed f (decide (x < 0)) (maxEnc f))) ∧
    (¬Overflows f mode x → FinEnc f r ∧ Best f mode x r) := Iff.rfl

section
variable {f : Fmt} (hf : f.Listed)
include hf

/-- A finite encoding lies on one side of a positive number's two neighbours. -/
theorem rat_unpack_outside {n : Nat} (h : FinEnc f n) (a : ℝ) :
    |(((unpack f n).rat : ℚ) : ℝ)| ≤ f.grid (f.floorEnc a) ∨ f.grid (f.floorEnc a + 1) ≤ |(((unpack f n).rat : ℚ) : ℝ)| := by
  obtain ⟨neg, k, hk, rfl⟩ := FinEnc.eq_signed hf h
  have habs : |(((unpack f (signed f neg k)).rat : ℚ) : ℝ)| = f.grid k := by
    rw [rat_unpack_signed hf neg hk]
    cases neg <;> simp [abs_of_nonneg (f.grid_nonneg k)]
  rw [habs, f.grid_strictMono.le_iff_le, f.grid_strictMono.le_iff_le]
  omega

/-- The upper neighbour is the best finite encoding where a number rounds up. -/
theorem best_of_roundsUp (mode : RMode) {a : ℝ} (ha : 0 < a) (hD : f.floorEnc a + 1 ≤ maxEnc f)
    (hup : RoundsUp mode (f.grid (f.floorEnc a)) (f.grid (f.floorEnc a + 1)) a (f.floorEnc a % 2 = 1)) :
    Best f mode a (f.floorEnc a + 1) := by
  have hlo := f.grid_nonneg (f.floorEnc a)
  have hle := f.grid_floorEnc_le ha
  have hlt := f.lt_grid_floorEnc_succ ha
  have hout := fun n (hn : FinEnc f n) => rat_unpack_outside hf hn a
  cases mode with
  | rtz => exact hup.elim
  | rdn => exact hup.elim
  | rup =>
    simp only [Best, RoundsUp, rat_unpack_pos hf hD] at hup ⊢
    exact ⟨hlt.le, fun n hn h => by grind⟩
  | rne =>
    simp only [Best, RoundsUp, rat_unpack_pos hf hD] at hup ⊢
    exact fun n hn => by grind
  | rmm =>
    simp only [Best, RoundsUp, rat_unpack_pos hf hD] at hup ⊢
    exact fun n hn => by grind

/-- The lower neighbour is the best finite encoding where a number does not round up. -/
theorem best_of_not_roundsUp (mode : RMode) {a : ℝ} (ha : 0 < a) (hD : f.floorEnc a ≤ maxEnc f)
    (hup : ¬RoundsUp mode (f.grid (f.floorEnc a)) (f.grid (f.floorEnc a + 1)) a (f.floorEnc a % 2 = 1)) :
    Best f mode a (f.floorEnc a) := by
  have hlo := f.grid_nonneg (f.floorEnc a)
  have hle := f.grid_floorEnc_le ha
  have hlt := f.lt_grid_floorEnc_succ ha
  have hout := fun n (hn : FinEnc f n) => rat_unpack_outside hf hn a
  cases mode with
  | rtz =>
    simp only [Best, rat_unpack_pos hf hD]
    exact ⟨by grind, fun n hn h => by grind⟩
  | rdn =>
    simp only [Best, rat_unpack_pos hf hD]
    exact ⟨hle, fun n hn h => by grind⟩
  | rup =>
    simp only [Best, RoundsUp, rat_unpack_pos hf hD] at hup ⊢
    exact ⟨not_lt.1 hup, fun n hn h => hle.trans h⟩
  | rne =>
    simp only [Best, RoundsUp, rat_unpack_pos hf hD] at hup ⊢
    exact fun n hn => by grind
  | rmm =>
    simp only [Best, RoundsUp, rat_unpack_pos hf hD] at hup ⊢
    exact fun n hn => by grind

theorem best_roundEnc (mode : RMode) {a : ℝ} (ha : 0 < a) (hD : f.roundEnc mode a ≤ maxEnc f) : Best f mode a (f.roundEnc mode a) := by
  rw [Fmt.roundEnc] at hD ⊢
  split at hD
  · next hup => rw [if_pos hup]; exact best_of_roundsUp hf mode ha hD hup
  · next hup => rw [if_neg hup]; exact best_of_not_roundsUp hf mode ha hD hup

end

/-- A positive number that is on the grid stays; any other differs from the point it rounds to. -/
theorem Fmt.grid_roundEnc_eq_iff (f : Fmt) (mode : RMode) {a : ℝ} (ha : 0 < a) :
    f.grid (f.roundEnc mode a) = a ↔ f.grid (f.floorEnc a) = a := by
  have hle := f.grid_floorEnc_le ha
  have hlt := f.lt_grid_floorEnc_succ ha
  rw [Fmt.roundEnc]
  split
  · next hup =>
    refine iff_of_false hlt.ne' fun h => ?_
    exact not_roundsUp_of_le mode _ (hle.trans_lt hlt) h.ge hup
  · rfl

theorem flags_low (p q : Bool) {i : Nat} (hi : i < 3) : (flagIf p fUF ||| flagIf q fNX).getLsbD i = false := by
  revert i
  cases p <;> cases q <;> decide

theorem flags_underflow (p q : Bool) : (flagIf p fUF ||| flagIf q fNX).getLsbD 3 = p := by cases p <;> cases q <;> decide

theorem flags_inexact (p q : Bool) : (flagIf p fUF ||| flagIf q fNX).getLsbD 4 = q := by cases p <;> cases q <;> decide

theorem toInfinity_iff (mode : RMode) (neg : Bool) : ToInfinity mode (neg = true) ↔ overflowToInf mode neg = true := by
  cases mode <;> simp [ToInfinity, overflowToInf]

theorem Fmt.le_floorEnc_of_lt_roundEnc {f : Fmt} {mode : RMode} {a : ℝ} {n : Nat} (h : n < f.roundEnc mode a) : n ≤ f.floorEnc a := by
  rw [Fmt.roundEnc] at h
  split at h <;> omega

/-- A number that overflows is not the largest finite number. -/
theorem Fmt.grid_maxEnc_ne (f : Fmt) (mode : RMode) {a : ℝ} (ha : 0 < a) (h : maxEnc f < f.roundEnc mode a) : f.grid (maxEnc f) ≠ a := by
  intro he
  have hE : f.floorEnc a = maxEnc f := by
    refine le_antisymm ?_ (Fmt.le_floorEnc_of_lt_roundEnc h)
    exact f.grid_strictMono.le_iff_le.1 ((f.grid_floorEnc_le ha).trans he.ge)
  have hD := (f.grid_roundEnc_eq_iff mode ha).2 (hE ▸ he)
  exact h.ne (f.grid_strictMono.injective (he.trans hD.symm))

section
variable {f : Fmt} (hf : f.Listed)
include hf

theorem not_tiny_of_normal (mode : RMode) {a : ℝ} (ha : 0 < a) (h : f.grid (2 ^ f.mbits) ≤ a) : ¬Tiny f mode a := by
  rw [tiny_iff_roundsUp hf mode ha]
  exact fun ⟨hlt, _⟩ => absurd h (not_le.2 hlt)

/-- What an overflow delivers is no finite number but the largest. -/
theorem overflow_not_exact (b : Bool) {a : ℝ} (hne : f.grid (maxEnc f) ≠ a) (hinf : b = true → infEnc f = maxEnc f + 1) :
    ¬(FinEnc f (if b then infEnc f else maxEnc f) ∧ (((unpack f (if b then infEnc f else maxEnc f)).rat : ℚ) : ℝ) = a) := by
  rintro ⟨hfin, hval⟩
  cases b with
  | true =>
    have hle := ((finEnc_iff hf).1 hfin).2
    rw [if_pos rfl, Nat.mod_eq_of_lt hf.infEnc_lt, hinf rfl] at hle
    omega
  | false => exact hne ((rat_unpack_pos hf le_rfl).symm.trans hval)

/-- R45 to R48 hold of what `roundPos` gives. -/
theorem roundedSat_roundPos (mode : RMode) (sat : Bool) {a : ℝ} (ha : 0 < a) : RoundedSat f mode sat a (f.roundPos mode sat a) := by
  have hov := overflows_iff hf mode ha
  have hmax := hf.maxEnc_bounds
  by_cases hD : maxEnc f < f.roundEnc mode a
  · have hne := f.grid_maxEnc_ne mode ha hD
    have htiny : ¬Tiny f mode a := not_tiny_of_normal hf mode ha ((f.grid_le_iff ha _).2
      (by have := Fmt.le_floorEnc_of_lt_roundEnc hD; omega))
    have hinf : (!saturates f sat && overflowToInf mode false) = true → infEnc f = maxEnc f + 1 := fun h =>
      hf.infEnc_eq (by simp only [Bool.and_eq_true, Bool.not_eq_true', saturates, Bool.or_eq_false_iff] at h ⊢; simp [h])
    have hexact := overflow_not_exact hf _ hne hinf
    have hto : ToInfinity mode (a < 0) ↔ overflowToInf mode false = true := by rw [← toInfinity_iff]; simp [not_lt.2 ha.le]
    have hlt : (if (!saturates f sat && overflowToInf mode false) = true then infEnc f else maxEnc f) < 2 ^ (f.bits - 1) := by
      split
      · exact hf.infEnc_lt
      · omega
    rw [Fmt.roundPos, if_pos hD, roundedSat_mk]
    refine ⟨?_, by decide, by decide, iff_of_true (by decide) (hov.2 hD), iff_of_false (by decide) fun h => htiny h.1,
      iff_of_true (by decide) hexact, fun _ => ⟨fun hs ht => ?_, fun h => ?_⟩, fun h => absurd (hov.2 hD) h⟩
    · simp only [Nat.div_eq_of_lt hlt, zero_ne_one, not_lt.2 ha.le]
    · simp [hs, hto.1 ht, not_lt.2 ha.le, signed]
    · rw [hto] at h
      rw [if_neg (by grind)]
      simp [not_lt.2 ha.le, signed]
  · have hbest := best_roundEnc hf mode ha (not_lt.1 hD)
    have hfin : FinEnc f (f.roundEnc mode a) := finEnc_signed hf false (not_lt.1 hD)
    have hval := rat_unpack_pos hf (not_lt.1 hD)
    have hgrid := f.grid_roundEnc_eq_iff mode ha
    have hlt : f.roundEnc mode a < 2 ^ (f.bits - 1) := by omega
    rw [Fmt.roundPos, if_neg hD, roundedSat_mk, hval]
    refine ⟨?_, flags_low _ _ (by omega), flags_low _ _ (by omega), ?_, ?_, ?_, fun h => absurd (hov.1 h) hD, fun _ => ⟨hfin, hbest⟩⟩
    · simp [Nat.div_eq_of_lt hlt, ha.le]
    · simp only [flags_low _ _ (i := 2) (by omega), hov, hD, Bool.false_eq_true]
    · simp only [flags_underflow, decide_eq_true_eq, Ne, hgrid]
    · simp only [flags_inexact, decide_eq_true_eq, hgrid, hfin, true_and, Ne]

end

end Sys2Proof.Machine
end

section
/-! Rounding of every number (R45-R48): the rules name one result, they are symmetric in the sign, and `deliver` gives it. -/

namespace Sys2Proof.Machine

-- Proofs elaborated side by side each hold a thread's stack, and the whole text compiles near the memory limit of its check.
set_option Elab.async false

/-! ## One result (R45) -/

section
variable {f : Fmt} (hf : f.Listed)
include hf

/-- Of two even encodings the one between is nearer to their middle. -/
theorem not_nearest_of_even {a : ℝ} {k k' : Nat} (hk' : k' ≤ maxEnc f) (hlt : k < k') (heven : k % 2 = 0) (heven' : k' % 2 = 0)
    (hmid : |f.grid k - a| = |f.grid k' - a|) : ¬∀ n, FinEnc f n → |f.grid k - a| ≤ |(((unpack f n).rat : ℚ) : ℝ) - a| := by
  intro h
  have hbest := h (k + 1) (finEnc_signed hf false (by omega))
  rw [rat_unpack_pos hf (by omega)] at hbest
  have hlow := f.grid_strictMono (Nat.lt_succ_self k)
  have hhigh := f.grid_strictMono (show k + 1 < k' by omega)
  grind

/-- The best finite encoding is one. -/
theorem Best.unique {mode : RMode} {a : ℝ} (ha : 0 < a) {k k' : Nat} (hk : k ≤ maxEnc f) (hk' : k' ≤ maxEnc f) (h : Best f mode a k)
    (h' : Best f mode a k') : k = k' := by
  have hv := rat_unpack_pos hf hk
  have hv' := rat_unpack_pos hf hk'
  have hfin : FinEnc f k := finEnc_signed hf false hk
  have hfin' : FinEnc f k' := finEnc_signed hf false hk'
  have hpos := f.grid_nonneg k
  have hpos' := f.grid_nonneg k'
  cases mode with
  | rne =>
    simp only [Best, hv, hv'] at h h'
    have hmid : |f.grid k - a| = |f.grid k' - a| := by
      have := (h k' hfin').1
      have := (h' k hfin).1
      rw [hv] at this
      grind
    by_contra hne
    have heven : k % 2 = 0 := ((h k' hfin').2 (by rw [hv']; exact hmid)).resolve_left fun he =>
      hne (f.grid_strictMono.injective (hv'.symm.trans he).symm)
    have heven' : k' % 2 = 0 := ((h' k hfin).2 (by rw [hv]; exact hmid.symm)).resolve_left fun he =>
      hne (f.grid_strictMono.injective (hv.symm.trans he))
    rcases Nat.lt_or_gt_of_ne hne with hlt | hlt
    · exact not_nearest_of_even hf hk' hlt heven heven' hmid fun n hn => (h n hn).1
    · exact not_nearest_of_even hf hk hlt heven' heven hmid.symm fun n hn => (h' n hn).1
  | _ =>
    apply f.grid_strictMono.injective
    simp only [Best] at h h'
    grind

/-- A finite encoding without the sign bit. -/
theorem FinEnc.le_maxEnc {n : Nat} (h : FinEnc f n) (hn : n / 2 ^ (f.bits - 1) ≠ 1) : n ≤ maxEnc f := by
  obtain ⟨neg, k, hk, rfl⟩ := FinEnc.eq_signed hf h
  have hmax := hf.maxEnc_bounds.2
  cases neg with
  | false => exact hk
  | true =>
    refine absurd ?_ hn
    rw [signed, if_pos rfl, Nat.add_div_right _ (Nat.two_pow_pos _), Nat.div_eq_of_lt (by omega)]

/-- R45 to R48 name one result for a positive number. -/
theorem RoundedSat.unique_of_pos {mode : RMode} {sat : Bool} {a : ℝ} (ha : 0 < a) {r r' : Nat} {fl fl' : BitVec 5}
    (h : RoundedSat f mode sat a (r, fl)) (h' : RoundedSat f mode sat a (r', fl')) : (r, fl) = (r', fl') := by
  rw [roundedSat_mk] at h h'
  obtain ⟨hs, h0, h1, h2, h3, h4, hov, hfin⟩ := h
  obtain ⟨hs', h0', h1', h2', h3', h4', hov', hfin'⟩ := h'
  have hr : r = r' := by
    by_cases ho : Overflows f mode a
    · by_cases hto : saturates f sat = true ∨ ¬ToInfinity mode (a < 0)
      · rw [(hov ho).2 hto, (hov' ho).2 hto]
      · obtain ⟨hsat, hinf⟩ := not_or.1 hto
        rw [(hov ho).1 (by simpa using hsat) (not_not.1 hinf), (hov' ho).1 (by simpa using hsat) (not_not.1 hinf)]
    · exact Best.unique hf ha (FinEnc.le_maxEnc hf (hfin ho).1 (hs.not.2 (not_lt.2 ha.le)))
        (FinEnc.le_maxEnc hf (hfin' ho).1 (hs'.not.2 (not_lt.2 ha.le))) (hfin ho).2 (hfin' ho).2
  subst hr
  refine Prod.ext rfl (BitVec.eq_of_getLsbD_eq fun i hi => ?_)
  rw [Bool.eq_iff_iff]
  interval_cases i
  · rw [h0, h0']
  · rw [h1, h1']
  · rw [h2, h2']
  · rw [h3, h3']
  · rw [h4, h4']

end

/-! ## Symmetry in the sign (R45, R47) -/

/-- The mode that does to a number what the mode does to its negative. -/
def RMode.mirror : RMode → RMode
  | .rup => .rdn
  | .rdn => .rup
  | m => m

@[simp] theorem RMode.mirror_mirror (m : RMode) : m.mirror.mirror = m := by cases m <;> rfl

theorem overflowToInf_not (m : RMode) (neg : Bool) : overflowToInf m (!neg) = overflowToInf m.mirror neg := by cases m <;> cases neg <;> rfl

theorem toInfinity_mirror (m : RMode) {p : Prop} : ToInfinity m.mirror (¬p) ↔ ToInfinity m p := by
  cases m <;> simp [ToInfinity, RMode.mirror]

theorem overflows_neg (f : Fmt) (m : RMode) {x : ℝ} (hx : x ≠ 0) : Overflows f m.mirror (-x) ↔ Overflows f m x := by
  rcases lt_or_gt_of_ne hx with h | h
  · cases m <;> simp [Overflows, RMode.mirror, abs_of_neg h, abs_of_pos (neg_pos.2 h), h, h.le]
  · cases m <;> simp [Overflows, RMode.mirror, abs_of_pos h, abs_of_neg (neg_lt_zero.2 h), h, h.le]

theorem tiny_neg (f : Fmt) (m : RMode) {x : ℝ} (hx : x ≠ 0) : Tiny f m.mirror (-x) ↔ Tiny f m x := by
  rcases lt_or_gt_of_ne hx with h | h
  · cases m <;> simp [Tiny, RMode.mirror, abs_of_neg h, abs_of_pos (neg_pos.2 h), h, h.le]
  · cases m <;> simp [Tiny, RMode.mirror, abs_of_pos h, abs_of_neg (neg_lt_zero.2 h), h, h.le]

theorem FV.rat_of_not_finite {x : FV} (h : x.isNan = true ∨ x.isInf = true) : x.rat = 0 := by
  cases x with
  | num n m e => simp at h
  | _ => rfl

section
variable {f : Fmt} (hf : f.Listed)
include hf

theorem finEnc_add_sign {k : Nat} (hk : k < 2 ^ (f.bits - 1)) : FinEnc f (k + 2 ^ (f.bits - 1)) ↔ FinEnc f k := by
  have hpow := hf.two_pow_bits
  rw [finEnc_iff hf, finEnc_iff hf, Nat.add_mod_right]
  exact and_congr_left fun _ => by omega

/-- The sign bit negates. -/
theorem rat_unpack_add_sign {k : Nat} (hk : k < 2 ^ (f.bits - 1)) :
    (((unpack f (k + 2 ^ (f.bits - 1))).rat : ℚ) : ℝ) = -(((unpack f k).rat : ℚ) : ℝ) := by
  rcases Nat.lt_or_ge (maxEnc f) k with h | h
  · rw [FV.rat_of_not_finite (unpack_of_lt hf (n := k) (by rwa [Nat.mod_eq_of_lt hk])),
      FV.rat_of_not_finite (unpack_of_lt hf (n := k + 2 ^ (f.bits - 1)) (by rwa [Nat.add_mod_right, Nat.mod_eq_of_lt hk]))]
    simp
  · rw [rat_unpack_neg hf h, rat_unpack_pos hf h]

theorem exists_finEnc_neg {n : Nat} (h : FinEnc f n) :
    ∃ n', FinEnc f n' ∧ (((unpack f n').rat : ℚ) : ℝ) = -(((unpack f n).rat : ℚ) : ℝ) := by
  obtain ⟨neg, k, hk, rfl⟩ := FinEnc.eq_signed hf h
  refine ⟨signed f (!neg) k, finEnc_signed hf _ hk, ?_⟩
  rw [rat_unpack_signed hf _ hk, rat_unpack_signed hf _ hk]
  cases neg <;> simp

/-- The best encoding of the negative under the mirrored mode. -/
theorem Best.neg {m : RMode} {x : ℝ} {r r' : Nat} (h : Best f m x r) (hv : (((unpack f r').rat : ℚ) : ℝ) = -(((unpack f r).rat : ℚ) : ℝ))
    (hpar : r' % 2 = r % 2) : Best f m.mirror (-x) r' := by
  have hneg := fun n (hn : FinEnc f n) => exists_finEnc_neg hf hn
  have habs (y : ℝ) : |-y - -x| = |y - x| := by rw [← abs_neg, neg_sub_neg, neg_sub]
  cases m with
  | rtz =>
    simp only [Best, RMode.mirror, hv, abs_neg] at h ⊢
    exact h
  | rup =>
    simp only [Best, RMode.mirror, hv] at h ⊢
    grind
  | rdn =>
    simp only [Best, RMode.mirror, hv] at h ⊢
    grind
  | rne =>
    simp only [Best, RMode.mirror, hv, hpar] at h ⊢
    intro n hn
    obtain ⟨n', hn', hv'⟩ := hneg n hn
    have := h n' hn'
    grind
  | rmm =>
    simp only [Best, RMode.mirror, hv] at h ⊢
    intro n hn
    obtain ⟨n', hn', hv'⟩ := hneg n hn
    have := h n' hn'
    grind

theorem even_sign : 2 ^ (f.bits - 1) % 2 = 0 := by
  rcases hf.cases with rfl | rfl | rfl | rfl | rfl | rfl <;> decide

theorem best_neg_iff {m : RMode} {x : ℝ} {k : Nat} (hk : k < 2 ^ (f.bits - 1)) :
    Best f m (-x) (k + 2 ^ (f.bits - 1)) ↔ Best f m.mirror x k := by
  have hv := rat_unpack_add_sign hf hk
  have hpar : (k + 2 ^ (f.bits - 1)) % 2 = k % 2 := by have := even_sign hf; omega
  constructor
  · intro h
    simpa using h.neg hf (r' := k) (by rw [hv, neg_neg]) hpar.symm
  · intro h
    simpa using h.neg hf hv hpar

/-- Rounding a negative number. -/
theorem roundedSat_neg_iff {m : RMode} {sat : Bool} {a : ℝ} (ha : 0 < a) {k : Nat} (hk : k < 2 ^ (f.bits - 1)) {fl : BitVec 5} :
    RoundedSat f m sat (-a) (k + 2 ^ (f.bits - 1), fl) ↔ RoundedSat f m.mirror sat a (k, fl) := by
  have hov := overflows_neg f m.mirror ha.ne'
  have htiny := tiny_neg f m.mirror ha.ne'
  have hto := toInfinity_mirror m.mirror (p := a < 0)
  rw [RMode.mirror_mirror] at hov htiny hto
  have hdiv : (k + 2 ^ (f.bits - 1)) / 2 ^ (f.bits - 1) = 1 := by rw [Nat.add_div_right _ (Nat.two_pow_pos _), Nat.div_eq_of_lt hk]
  have hneg : -a < 0 := neg_lt_zero.2 ha
  have hto : ToInfinity m (-a < 0) ↔ ToInfinity m.mirror (a < 0) := by rw [← hto]; simp [hneg, ha.le]
  rw [roundedSat_mk, roundedSat_mk, hov, htiny, hto, finEnc_add_sign hf hk, rat_unpack_add_sign hf hk, best_neg_iff hf hk, hdiv,
    Nat.div_eq_of_lt hk]
  simp [hneg, not_lt.2 ha.le, signed, neg_inj]

/-- R45 to R48 name one result. -/
theorem RoundedSat.unique {m : RMode} {sat : Bool} {x : ℝ} (hx : x ≠ 0) {r r' : Nat × BitVec 5} (h : RoundedSat f m sat x r)
    (h' : RoundedSat f m sat x r') : r = r' := by
  rcases lt_or_gt_of_ne hx with hneg | hpos
  · have hsign {s : Nat × BitVec 5} (hs : RoundedSat f m sat x s) : ∃ k < 2 ^ (f.bits - 1), s = (k + 2 ^ (f.bits - 1), s.2) := by
      have hdiv := hs.1.2 hneg
      have hpow := Nat.two_pow_pos (f.bits - 1)
      have hmul := Nat.div_add_mod s.1 (2 ^ (f.bits - 1))
      rw [hdiv, Nat.mul_one, Nat.add_comm] at hmul
      exact ⟨_, Nat.mod_lt _ hpow, Prod.ext hmul.symm rfl⟩
    obtain ⟨k, hk, hr⟩ := hsign h
    obtain ⟨k', hk', hr'⟩ := hsign h'
    have hx' := neg_neg x
    rw [hr, ← hx', roundedSat_neg_iff hf (neg_pos.2 hneg) hk] at h
    rw [hr', ← hx', roundedSat_neg_iff hf (neg_pos.2 hneg) hk'] at h'
    have he := Prod.ext_iff.1 (RoundedSat.unique_of_pos hf (neg_pos.2 hneg) h h')
    rw [hr, hr', show k = k' from he.1, show r.2 = r'.2 from he.2]
  · exact RoundedSat.unique_of_pos hf hpos h h'

end

/-! ## The rounding of the model -/

/-- A mantissa and an exponent stand for a positive number where p mantissa bits are kept: they are its value, or the odd low bit of the
mantissa says that the number lies between the two even mantissas around it. -/
def StandsFor (p m : Nat) (e : Int) (a : ℝ) : Prop :=
  m ≠ 0 ∧ (a = m * (2 : ℝ) ^ e ∨
    (m % 2 = 1 ∧ p + 2 ≤ Nat.log2 m ∧ ((m : ℝ) - 1) * (2 : ℝ) ^ e < a ∧ a < ((m : ℝ) + 1) * (2 : ℝ) ^ e))

/-- The leading bit. -/
theorem StandsFor.log_eq {p m : Nat} {e : Int} {a : ℝ} (h : StandsFor p m e a) : 0 < a ∧ Int.log 2 a = e + Nat.log2 m := by
  obtain ⟨hm, h⟩ := h
  have hle : 2 ^ Nat.log2 m ≤ m := Nat.log2_self_le hm
  have hlt : m < 2 ^ (Nat.log2 m + 1) := Nat.lt_log2_self
  have hpos : (0 : ℝ) < (2 : ℝ) ^ e := zpow_pos two_pos e
  have key : (2 : ℝ) ^ (e + Nat.log2 m) ≤ a ∧ a < (2 : ℝ) ^ (e + Nat.log2 m + 1) := by
    rw [add_assoc, zpow_add₀ two_ne_zero, zpow_add₀ two_ne_zero, mul_comm, mul_comm ((2 : ℝ) ^ e)]
    rcases h with rfl | ⟨hodd, hlog, hlow, hhigh⟩
    · exact ⟨mul_le_mul_of_nonneg_right (by exact_mod_cast hle) hpos.le, mul_lt_mul_of_pos_right (by exact_mod_cast hlt) hpos⟩
    · have heven : 2 ^ Nat.log2 m % 2 = 0 := by
        rw [show Nat.log2 m = Nat.log2 m - 1 + 1 by omega, Nat.pow_succ, Nat.mul_mod_left]
      have hle' : 2 ^ Nat.log2 m + 1 ≤ m := by omega
      have hlt' : m + 1 ≤ 2 ^ (Nat.log2 m + 1) := hlt
      have hler : (2 : ℝ) ^ (Nat.log2 m : Int) ≤ (m : ℝ) - 1 := le_sub_iff_add_le.2 (by exact_mod_cast hle')
      have hltr : (m : ℝ) + 1 ≤ (2 : ℝ) ^ ((Nat.log2 m : Int) + 1) := by exact_mod_cast hlt'
      exact ⟨(mul_le_mul_of_nonneg_right hler hpos.le).trans hlow.le, hhigh.trans_le (mul_le_mul_of_nonneg_right hltr hpos.le)⟩
  have ha : 0 < a := (zpow_pos two_pos _).trans_le key.1
  refine ⟨ha, le_antisymm (Int.lt_add_one_iff.1 ?_) ?_⟩
  · exact (Int.lt_zpow_iff_log_lt one_lt_two ha).1 (by exact_mod_cast key.2)
  · exact (Int.zpow_le_iff_le_log one_lt_two ha).1 (by exact_mod_cast key.1)

theorem zpow_eq_pow_mul {K : Type} [Field K] [CharZero K] {e d : Int} (h : e ≤ d) : (2 : K) ^ d = (2 : K) ^ (d - e).toNat * (2 : K) ^ e := by
  rw [← zpow_natCast, ← zpow_add₀ two_ne_zero]
  congr 1
  omega

theorem ltPow_iff (m : Nat) (e : Int) (n : Nat) (d : Int) : ltPow m e n d = true ↔ (m : ℝ) * (2 : ℝ) ^ e < (n : ℝ) * (2 : ℝ) ^ d := by
  rw [ltPow]
  split
  · next h =>
    rw [decide_eq_true_iff, zpow_eq_pow_mul h, ← mul_assoc, mul_lt_mul_iff_left₀ (zpow_pos two_pos e)]
    exact_mod_cast Iff.rfl
  · next h =>
    rw [decide_eq_true_iff, zpow_eq_pow_mul (not_le.1 h).le, ← mul_assoc, mul_lt_mul_iff_left₀ (zpow_pos two_pos d)]
    exact_mod_cast Iff.rfl

/-- How the bits shifted out of a mantissa lie against zero and a half, the rest of the number that is stood for does as well. -/
theorem rest_cmp {r half : Nat} {rest : ℝ} (hr : r < 2 * half)
    (h : rest = r ∨ (r % 2 = 1 ∧ half % 2 = 0 ∧ (r : ℝ) - 1 < rest ∧ rest < (r : ℝ) + 1)) :
    0 ≤ rest ∧ rest < 2 * half ∧ (0 < rest ↔ r ≠ 0) ∧ (2 * half - rest < rest ↔ half < r) ∧
      (2 * half - rest = rest ↔ r = half) := by
  have hrr : (r : ℝ) + 1 ≤ 2 * half := by exact_mod_cast hr
  have hr0 : (0 : ℝ) ≤ r := Nat.cast_nonneg r
  rcases h with rfl | ⟨hodd, heven, hlow, hhigh⟩
  · refine ⟨hr0, by linarith, by rw [Nat.cast_pos, Nat.pos_iff_ne_zero], ?_, ?_⟩
    · rw [← Nat.cast_lt (α := ℝ)]
      constructor <;> intro <;> linarith
    · rw [← Nat.cast_inj (R := ℝ)]
      constructor <;> intro <;> linarith
  · have h1 : (1 : ℝ) ≤ r := by exact_mod_cast (by omega : 1 ≤ r)
    refine ⟨by linarith, by linarith, iff_of_true (by linarith) (by omega), ?_⟩
    rcases Nat.lt_or_gt_of_ne (show r ≠ half by omega) with hlt | hgt
    · have : (r : ℝ) + 1 ≤ half := by exact_mod_cast hlt
      exact ⟨iff_of_false (by linarith) (by omega), iff_of_false (fun _ => by linarith) (by omega)⟩
    · have : (half : ℝ) + 1 ≤ r := by exact_mod_cast hgt
      exact ⟨iff_of_true (by linarith) hgt, iff_of_false (fun _ => by linarith) (by omega)⟩

/-- Whether the model rounds a positive mantissa up, from the bits `r` shifted out, their half and the parity of the rest. -/
def shiftsUp (mode : RMode) (odd : Bool) (r half : Nat) : Bool :=
  match mode with
  | .rne => decide (half < r) || (r == half && odd)
  | .rtz => false
  | .rup => r != 0
  | .rdn => false
  | .rmm => decide (half ≤ r)

theorem roundMag_of_shift (mode : RMode) (m : Nat) {e q : Int} {i : Nat} (h : q = e + (i + 1 : Nat)) : roundMag mode false m e q =
    (m / 2 ^ (i + 1) + (if shiftsUp mode (m / 2 ^ (i + 1) % 2 == 1) (m % 2 ^ (i + 1)) (2 ^ i) then 1 else 0), m % 2 ^ (i + 1) != 0) := by
  have hadd (b : Bool) (k : Nat) : (k + if b = true then 1 else 0) = if b = true then k + 1 else k := by cases b <;> rfl
  rw [roundMag, if_neg (by omega), show (q - e).toNat = i + 1 by omega]
  rw [hadd]
  cases mode with
  | rtz => rfl
  | rdn => simp [shiftsUp]
  | rup =>
    simp only [shiftsUp, Bool.not_false, Bool.and_true]
    rfl
  | rne => rfl
  | rmm => rfl

open Classical in
/-- Rounding the shifted mantissa is rounding the number that is stood for, in units of the mantissa's last place. -/
theorem roundMag_shift (mode : RMode) {m sh : Nat} {c : ℝ} (hsh : 1 ≤ sh)
    (hc : c = m ∨ (m % 2 = 1 ∧ 2 ≤ sh ∧ (m : ℝ) - 1 < c ∧ c < (m : ℝ) + 1)) {e q : Int} (hq : q = e + sh)
    {k : Nat} (hk : k = m / 2 ^ sh) :
    (k * (2 : ℝ) ^ sh ≤ c ∧ c < (k + 1) * (2 : ℝ) ^ sh) ∧
      roundMag mode false m e q =
        (k + if RoundsUp mode (k * 2 ^ sh) ((k + 1) * 2 ^ sh) c (k % 2 = 1) then 1 else 0, decide (k * (2 : ℝ) ^ sh ≠ c)) := by
  obtain ⟨i, rfl⟩ : ∃ i, sh = i + 1 := ⟨sh - 1, by omega⟩
  have hmod := Nat.mod_lt m (Nat.two_pow_pos (i + 1))
  have hdiv := Nat.div_add_mod m (2 ^ (i + 1))
  have hS : (2 : ℝ) ^ (i + 1) = 2 * ((2 ^ i : Nat) : ℝ) := by push_cast; ring
  have heven : 2 ≤ i + 1 → 2 ^ i % 2 = 0 := fun h => by
    obtain ⟨j, rfl⟩ : ∃ j, i = j + 1 := ⟨i - 1, by omega⟩
    rw [Nat.pow_succ, Nat.mul_mod_left]
  rw [roundMag_of_shift mode m hq, ← hk]
  rw [← hk] at hdiv
  generalize m % 2 ^ (i + 1) = r at *
  rw [hS]
  rw [Nat.pow_succ] at hmod hdiv
  generalize 2 ^ i = half at *
  have hm : (m : ℝ) = k * (2 * half) + r := by
    rw [← hdiv]
    push_cast
    ring
  obtain ⟨h0, hlt, hpos, hhalf, htie⟩ := rest_cmp (r := r) (half := half) (rest := c - k * (2 * half)) (by omega) (by
    rcases hc with rfl | ⟨hodd, hsh2, hlow, hhigh⟩
    · exact .inl (by linarith)
    · have := heven hsh2
      refine .inr ⟨?_, this, by linarith, by linarith⟩
      rw [← hdiv, Nat.add_mod, Nat.mul_mod, Nat.mul_mod_left] at hodd
      simpa using hodd)
  have hup : shiftsUp mode (k % 2 == 1) r half = true ↔ RoundsUp mode (k * (2 * half)) ((k + 1) * (2 * half)) c (k % 2 = 1) := by
    have hhi : (k + 1 : ℝ) * (2 * half) - c = 2 * half - (c - k * (2 * half)) := by ring
    cases mode with
    | rtz => simp [shiftsUp, RoundsUp]
    | rdn => simp [shiftsUp, RoundsUp]
    | rup => simpa [shiftsUp, RoundsUp] using hpos.symm
    | rne => simp [shiftsUp, RoundsUp, hhi, hhalf, htie]
    | rmm => rw [shiftsUp, decide_eq_true_iff, RoundsUp, hhi, le_iff_lt_or_eq, le_iff_lt_or_eq, hhalf, htie, eq_comm]
  refine ⟨⟨by linarith, by linarith⟩, Prod.ext ?_ ?_⟩
  · simp only [hup]
  · rw [Bool.eq_iff_iff, bne_iff_ne, decide_eq_true_iff, ← hpos, sub_pos]
    exact ⟨ne_of_lt, lt_of_le_of_ne (by linarith)⟩

open Classical in
/-- Rounding to a quantum of the number that is stood for. -/
theorem StandsFor.roundMag_eq {p m : Nat} {e : Int} {a : ℝ} (h : StandsFor p m e a) (mode : RMode) {q : Int} (hq : e + Nat.log2 m - p ≤ q)
    {k : Nat} (hk : k = ⌊a / (2 : ℝ) ^ q⌋₊) : roundMag mode false m e q =
      (k + (if RoundsUp mode (k * (2 : ℝ) ^ q) ((k + 1) * (2 : ℝ) ^ q) a (k % 2 = 1) then 1 else 0), decide (k * (2 : ℝ) ^ q ≠ a)) := by
  have hpos : (0 : ℝ) < (2 : ℝ) ^ e := zpow_pos two_pos e
  have hposq : (0 : ℝ) < (2 : ℝ) ^ q := zpow_pos two_pos q
  obtain ⟨ha, -⟩ := h.log_eq
  obtain ⟨hm, h⟩ := h
  rcases le_or_gt q e with hle | hlt
  · obtain rfl : a = m * (2 : ℝ) ^ e := h.resolve_right fun ⟨_, hlog, _⟩ => by omega
    have hval : (m : ℝ) * (2 : ℝ) ^ e = (m * 2 ^ (e - q).toNat : Nat) * (2 : ℝ) ^ q := by
      rw [zpow_eq_pow_mul hle]
      push_cast
      ring
    have hfloor : k = m * 2 ^ (e - q).toNat := by rw [hk, hval, mul_div_cancel_right₀ _ hposq.ne', Nat.floor_natCast]
    rw [hval, ← hfloor, if_neg (not_roundsUp_of_le mode _ (by linarith) le_rfl), roundMag, if_pos hle, ← hfloor]
    simp
  · have hsplit : (2 : ℝ) ^ q = (2 : ℝ) ^ (q - e).toNat * (2 : ℝ) ^ e := zpow_eq_pow_mul hlt.le
    obtain ⟨c, rfl⟩ : ∃ c, a = c * (2 : ℝ) ^ e := ⟨a / (2 : ℝ) ^ e, (div_mul_cancel₀ a hpos.ne').symm⟩
    simp only [mul_lt_mul_iff_left₀ hpos, mul_left_inj' hpos.ne'] at h
    obtain ⟨⟨hlow, hhigh⟩, hround⟩ := roundMag_shift mode (m := m) (sh := (q - e).toNat) (c := c) (by omega)
      (h.imp_right fun ⟨hodd, hlog, hlow, hhigh⟩ => ⟨hodd, by omega, hlow, hhigh⟩) (e := e) (q := q) (by omega) rfl
    have hkm : k = m / 2 ^ (q - e).toNat := by
      rw [hk, hsplit, mul_div_mul_right _ _ hpos.ne', Nat.floor_eq_iff (div_nonneg (le_trans (by positivity) hlow) (by positivity))]
      exact ⟨(le_div_iff₀ (by positivity)).2 hlow, (div_lt_iff₀ (by positivity)).2 hhigh⟩
    rw [hround, hsplit, ← mul_assoc, ← mul_assoc, roundsUp_mul _ _ hpos, ← hkm]
    simp only [ne_eq, mul_left_inj' hpos.ne']

end Sys2Proof.Machine
end

section
/-! What `deliver` gives is the number that is stood for, rounded by the rules (R45-R48). -/

namespace Sys2Proof.Machine

-- Proofs elaborated side by side each hold a thread's stack, and the whole text compiles near the memory limit of its check.
set_option Elab.async false

theorem two_mul_pow_mul_zpow (p : Nat) (x : Int) : 2 * 2 ^ p * (2 : ℝ) ^ (x - p) = (2 : ℝ) ^ (x + 1) := by
  rw [← pow_succ', ← zpow_natCast, ← zpow_add₀ two_ne_zero]
  congr 1
  push_cast
  ring

section
variable {f : Fmt} (hf : f.Listed)
include hf

/-- The largest finite number, as `roundFin` writes it. -/
theorem grid_maxEnc_eq :
    ((maxEnc f % 2 ^ f.mbits + 2 ^ f.mbits : Nat) : ℝ) * (2 : ℝ) ^ (qMin f + (maxEnc f / 2 ^ f.mbits : Nat) - 1) = f.grid (maxEnc f) := by
  have hB := Nat.two_pow_pos f.mbits
  have hdiv := Nat.div_add_mod (maxEnc f) (2 ^ f.mbits)
  have hpos : 1 ≤ maxEnc f / 2 ^ f.mbits := (Nat.le_div_iff_mul_le hB).2 (by have := hf.maxEnc_bounds.1; omega)
  have hmod := Nat.mod_lt (maxEnc f) hB
  obtain ⟨j, hj⟩ : ∃ j, maxEnc f / 2 ^ f.mbits = j + 1 := ⟨maxEnc f / 2 ^ f.mbits - 1, by omega⟩
  have henc : maxEnc f = j * 2 ^ f.mbits + (maxEnc f % 2 ^ f.mbits + 2 ^ f.mbits) := by
    rw [hj, Nat.mul_succ, Nat.mul_comm] at hdiv
    omega
  conv_rhs => rw [henc, f.grid_mul_add (by omega) (.inr (by omega))]
  rw [hj]
  congr 2
  push_cast
  ring

variable {m : Nat} {e : Int} {a : ℝ} (h : StandsFor f.mbits m e a) (mode : RMode)
include h

/-- The encoding that `roundFin` puts together. -/
theorem roundMag_enc {q : Int} (hq : q = max (e + Nat.log2 m - f.mbits) (qMin f)) :
    (q - qMin f).toNat * 2 ^ f.mbits + (roundMag mode false m e q).1 = f.roundEnc mode a ∧
      ((roundMag mode false m e q).2 = true ↔ f.grid (f.floorEnc a) ≠ a) := by
  obtain ⟨ha, hlog⟩ := h.log_eq
  have hq' : q = max (Int.log 2 a - f.mbits) (qMin f) := by rw [hq, hlog]
  obtain ⟨hlo, hhi⟩ := f.grid_floorEnc ha hq'
  have henc : f.floorEnc a = (q - qMin f).toNat * 2 ^ f.mbits + ⌊a / (2 : ℝ) ^ q⌋₊ := by rw [Fmt.floorEnc, hq']
  have hpar : f.floorEnc a % 2 = ⌊a / (2 : ℝ) ^ q⌋₊ % 2 := by
    rw [henc, show f.mbits = f.mbits - 1 + 1 by have := hf.mbits_bounds; omega, Nat.pow_succ, ← Nat.mul_assoc, Nat.mul_add_mod_self_right]
  rw [h.roundMag_eq mode (q := q) (by omega) rfl, Fmt.roundEnc, hlo, hhi, hpar, henc]
  exact ⟨(Nat.add_assoc ..).symm, decide_eq_true_iff⟩

omit hf in
/-- The mantissa before the format's least quantum counts. -/
theorem roundMag_bounds : 2 ^ f.mbits ≤ (roundMag mode false m e (e + Nat.log2 m - f.mbits)).1 ∧
    (roundMag mode false m e (e + Nat.log2 m - f.mbits)).1 ≤ 2 * 2 ^ f.mbits := by
  obtain ⟨ha, hlog⟩ := h.log_eq
  obtain ⟨hlt, hlow⟩ := floor_div_zpow_bounds ha f.mbits (q := e + Nat.log2 m - f.mbits) (by omega)
  have := hlow (by omega)
  rw [h.roundMag_eq mode le_rfl rfl]
  dsimp only
  split <;> omega

omit hf in
/-- A number below the normal ones in its quantum. -/
theorem subnormal_bounds (hq : e + Nat.log2 m - f.mbits < qMin f) :
    a < 2 * 2 ^ f.mbits * (2 : ℝ) ^ (e + Nat.log2 m - f.mbits) ∧
      2 * 2 ^ f.mbits * (2 : ℝ) ^ (e + Nat.log2 m - f.mbits) ≤ f.grid (2 ^ f.mbits) := by
  obtain ⟨ha, hlog⟩ := h.log_eq
  rw [two_mul_pow_mul_zpow, f.grid_normal, ← hlog]
  exact ⟨(zpow_log_bounds ha).2, zpow_le_zpow_right₀ one_le_two (by omega)⟩

theorem ltPow_maxEnc_iff :
    ltPow (maxEnc f % 2 ^ f.mbits + 2 ^ f.mbits) (qMin f + (maxEnc f : Int) / 2 ^ f.mbits - 1)
      (roundMag mode false m e (e + Nat.log2 m - f.mbits)).1 (e + Nat.log2 m - f.mbits) = true ↔ maxEnc f < f.roundEnc mode a := by
  obtain ⟨hlow, hhigh⟩ := roundMag_bounds h mode
  have hmax := hf.maxEnc_bounds.1
  have hgrid := grid_maxEnc_eq hf
  rw [Int.natCast_div, Int.natCast_pow] at hgrid
  rw [ltPow_iff, ← Nat.cast_ofNat (R := Int), hgrid]
  rcases le_or_gt (qMin f) (e + Nat.log2 m - f.mbits) with hle | hlt
  · obtain ⟨henc, -⟩ := roundMag_enc hf h mode (max_eq_left hle).symm
    have hgrid := f.grid_mul_add (j := (e + Nat.log2 m - f.mbits - qMin f).toNat) hhigh (.inr hlow)
    rw [show qMin f + ((e + Nat.log2 m - f.mbits - qMin f).toNat : Int) = e + Nat.log2 m - f.mbits by omega] at hgrid
    rw [← hgrid, henc, f.grid_strictMono.lt_iff_lt]
  · obtain ⟨ha, -⟩ := h.log_eq
    obtain ⟨hlta, hle⟩ := subnormal_bounds h hlt
    have hmono := f.grid_strictMono.monotone (show 2 ^ f.mbits ≤ maxEnc f by omega)
    have hhighr : ((roundMag mode false m e (e + Nat.log2 m - f.mbits)).1 : ℝ) ≤ 2 * 2 ^ f.mbits := by exact_mod_cast hhigh
    refine iff_of_false (not_lt.2 (le_trans ?_ (hle.trans hmono))) fun hD => ?_
    · exact mul_le_mul_of_nonneg_right hhighr (zpow_nonneg two_pos.le _)
    · have hE := (f.grid_strictMono.monotone (show 2 ^ f.mbits ≤ f.floorEnc a by have := Fmt.le_floorEnc_of_lt_roundEnc hD; omega))
      linarith [f.grid_floorEnc_le ha]

/-- A number whose quantum is half the least one may round up to the least normal number: UF looks at the rounding with unbounded exponent. -/
theorem tiny_iff_of_half_quantum {q : Int} (hq : q = e + Nat.log2 m - f.mbits) (hhalf : q = qMin f - 1) :
    ((roundMag mode false m e q).1 : ℝ) * (2 : ℝ) ^ q < f.grid (2 ^ f.mbits) ↔ Tiny f mode a := by
  obtain ⟨ha, hlog⟩ := h.log_eq
  obtain ⟨hk, hlow⟩ := floor_div_zpow_bounds ha f.mbits (q := q) (by omega)
  obtain ⟨hle, hlt⟩ := floor_mul_zpow_bounds ha q
  have hpos : (0 : ℝ) < (2 : ℝ) ^ q := zpow_pos two_pos q
  have hone : f.grid 1 / 2 = (2 : ℝ) ^ q := by
    rw [f.grid_one, hhalf, zpow_sub_one₀ two_ne_zero]
    ring
  have hnormal : f.grid (2 ^ f.mbits) = ((2 * 2 ^ f.mbits : Nat) : ℝ) * (2 : ℝ) ^ q := by
    rw [f.grid_normal, show qMin f + f.mbits = q + 1 + f.mbits by omega, zpow_add₀ two_ne_zero, zpow_add_one₀ two_ne_zero,
      zpow_natCast]
    push_cast
    ring
  rw [tiny_iff_roundsUp hf mode ha, hone, h.roundMag_eq mode hq.ge rfl, hnormal, mul_lt_mul_iff_left₀ hpos, Nat.cast_lt]
  rcases Nat.lt_or_ge (⌊a / (2 : ℝ) ^ q⌋₊ + 1) (2 * 2 ^ f.mbits) with hlast | hlast
  · have hup : (⌊a / (2 : ℝ) ^ q⌋₊ : ℝ) + 1 ≤ (2 * 2 ^ f.mbits : Nat) - 1 := le_sub_iff_add_le.2 (by exact_mod_cast hlast)
    have hle' : a ≤ ((2 * 2 ^ f.mbits : Nat) : ℝ) * (2 : ℝ) ^ q - (2 : ℝ) ^ q := by
      rw [← sub_one_mul]
      exact hlt.le.trans (mul_le_mul_of_nonneg_right hup hpos.le)
    refine iff_of_true ?_ ⟨by linarith, not_roundsUp_of_le mode True (by linarith) hle'⟩
    split <;> omega
  · have hk1 : ((2 * 2 ^ f.mbits : Nat) : ℝ) = ⌊a / (2 : ℝ) ^ q⌋₊ + 1 := by
      exact_mod_cast (by omega : 2 * 2 ^ f.mbits = ⌊a / (2 : ℝ) ^ q⌋₊ + 1)
    have hodd : ⌊a / (2 : ℝ) ^ q⌋₊ % 2 = 1 := by omega
    rw [eq_true hodd, hk1, add_one_mul, add_sub_cancel_right]
    rw [add_one_mul] at hlt
    split
    · next hup => exact iff_of_false (by omega) fun hno => hno.2 hup
    · next hup => exact iff_of_true (by omega) ⟨hlt, hup⟩

theorem ltPow_tiny_iff :
    ltPow (roundMag mode false m e (e + Nat.log2 m - f.mbits)).1 (e + Nat.log2 m - f.mbits) (2 ^ f.mbits) (qMin f) = true ↔ Tiny f mode a := by
  obtain ⟨hlow, hhigh⟩ := roundMag_bounds h mode
  obtain ⟨ha, hlog⟩ := h.log_eq
  have hnormal : ((2 ^ f.mbits : Nat) : ℝ) * (2 : ℝ) ^ qMin f = f.grid (2 ^ f.mbits) := by
    rw [f.grid_normal, zpow_add₀ two_ne_zero, mul_comm]
    push_cast
    rfl
  rw [ltPow_iff, hnormal]
  rcases lt_trichotomy (e + Nat.log2 m - f.mbits) (qMin f - 1) with hlt | heq | hgt
  · obtain ⟨hlta, -⟩ := subnormal_bounds h (by omega)
    have hhighr : ((roundMag mode false m e (e + Nat.log2 m - f.mbits)).1 : ℝ) ≤ 2 * 2 ^ f.mbits := by exact_mod_cast hhigh
    have hu := mul_le_mul_of_nonneg_right hhighr (zpow_nonneg (two_pos (α := ℝ)).le (e + Nat.log2 m - f.mbits))
    have hfar : 2 * (2 * 2 ^ f.mbits * (2 : ℝ) ^ (e + Nat.log2 m - f.mbits)) ≤ f.grid (2 ^ f.mbits) := by
      rw [two_mul_pow_mul_zpow, f.grid_normal, mul_comm, ← zpow_add_one₀ two_ne_zero]
      exact zpow_le_zpow_right₀ one_le_two (by omega)
    have hone : f.grid 1 ≤ f.grid (2 ^ f.mbits) := f.grid_strictMono.monotone Nat.one_le_two_pow
    refine iff_of_true (by linarith) ((tiny_iff_roundsUp hf mode ha).2 ⟨by linarith, not_roundsUp_of_le mode True ?_ (by linarith)⟩)
    have := f.grid_strictMono (zero_lt_one)
    rw [f.grid_zero] at this
    linarith
  · exact tiny_iff_of_half_quantum hf h mode rfl heq
  · have hle : f.grid (2 ^ f.mbits) ≤ a := by
      rw [f.grid_normal]
      exact (zpow_le_zpow_right₀ one_le_two (by omega)).trans (zpow_log_bounds ha).1
    refine iff_of_false (not_lt.2 ?_) (not_tiny_of_normal hf mode ha hle)
    rw [← hnormal]
    exact mul_le_mul (by exact_mod_cast hlow) (zpow_le_zpow_right₀ one_le_two (by omega)) (zpow_nonneg two_pos.le _) (Nat.cast_nonneg _)

/-- `roundFin` rounds the number that is stood for. -/
theorem roundFin_eq_roundPos (sat : Bool) : roundFin f mode sat false m e = f.roundPos mode sat a := by
  obtain ⟨henc, hinexact⟩ := roundMag_enc hf h mode rfl
  have hmax := ltPow_maxEnc_iff hf h mode
  have htiny := ltPow_tiny_iff hf h mode
  rw [roundFin, Fmt.roundPos]
  refine ite_congr (propext hmax) (fun _ => rfl) fun _ => ?_
  refine Prod.ext henc ?_
  classical
  have hflag : (roundMag mode false m e (max (e + Nat.log2 m - f.mbits) (qMin f))).2 = decide (f.grid (f.floorEnc a) ≠ a) := by
    rw [Bool.eq_iff_iff, decide_eq_true_iff, hinexact]
  have htinyflag : ltPow (roundMag mode false m e (e + Nat.log2 m - f.mbits)).1 (e + Nat.log2 m - f.mbits) (2 ^ f.mbits) (qMin f) =
      decide (Tiny f mode a) := by
    rw [Bool.eq_iff_iff, decide_eq_true_iff, htiny]
  dsimp only
  rw [hflag, htinyflag, Bool.decide_and]

end

theorem roundMag_true (mode : RMode) (m : Nat) (e q : Int) : roundMag mode true m e q = roundMag mode.mirror false m e q := by
  unfold roundMag
  cases mode <;> simp [RMode.mirror]

theorem roundFin_true (f : Fmt) (mode : RMode) (sat : Bool) (m : Nat) (e : Int) : roundFin f mode sat true m e =
    ((roundFin f mode.mirror sat false m e).1 + 2 ^ (f.bits - 1), (roundFin f mode.mirror sat false m e).2) := by
  have hinf := overflowToInf_not mode false
  unfold roundFin
  simp only [roundMag_true, Bool.not_false] at hinf ⊢
  split <;> simp [signed, hinf]

section
variable {f : Fmt} (hf : f.Listed)
include hf

theorem roundPos_lt (mode : RMode) (sat : Bool) (a : ℝ) : (f.roundPos mode sat a).1 < 2 ^ (f.bits - 1) := by
  have hmax := hf.maxEnc_bounds.2
  have hinf := hf.infEnc_lt
  rw [Fmt.roundPos]
  split
  · dsimp only
    split <;> omega
  · dsimp only
    omega

/-- R45 to R48 hold of what is delivered of a number that stands for another. -/
theorem roundedSat_deliver (mode : RMode) (sat neg : Bool) {m : Nat} {e : Int} {a : ℝ} (h : StandsFor f.mbits m e a) :
    RoundedSat f mode sat (if neg then -a else a) (deliver f mode sat (.num neg m e)) := by
  obtain ⟨ha, -⟩ := h.log_eq
  rw [deliver, if_neg h.1]
  cases neg with
  | false =>
    rw [roundFin_eq_roundPos hf h]
    exact roundedSat_roundPos hf mode sat ha
  | true =>
    rw [roundFin_true, roundFin_eq_roundPos hf h, if_pos rfl, roundedSat_neg_iff hf ha (roundPos_lt hf _ _ _)]
    exact roundedSat_roundPos hf mode.mirror sat ha

/-- R45 to R48 hold of what is delivered of an exact number. -/
theorem roundedSat_deliver_num (mode : RMode) (sat n : Bool) {k : Nat} (hk : k ≠ 0) (e : Int) :
    RoundedSat f mode sat (((FV.num n k e).rat : ℚ) : ℝ) (deliver f mode sat (.num n k e)) := by
  have hx : (((FV.num n k e).rat : ℚ) : ℝ) = if n then -((k : ℝ) * (2 : ℝ) ^ e) else (k : ℝ) * (2 : ℝ) ^ e := by
    rw [FV.rat_num]
    cases n <;> simp
  rw [hx]
  exact roundedSat_deliver hf mode sat n ⟨hk, .inl rfl⟩

end

end Sys2Proof.Machine
end

section
/-! Sums, products and fused forms (O4) and conversions (O8): the exact operations give the exact numbers, and those are delivered rounded. -/

namespace Sys2Proof.Machine

-- Proofs elaborated side by side each hold a thread's stack, and the whole text compiles near the memory limit of its check.
set_option Elab.async false

/-! ## Exact numbers (R58) -/

theorem FV.rat_eq_zero_iff (n : Bool) (m : Nat) (e : Int) : (FV.num n m e).rat = 0 ↔ m = 0 := by
  cases n <;> simp [FV.rat, zpow_ne_zero]

theorem toSigned_eq {R : Type} [Ring R] (n : Bool) (m : Nat) : ((toSigned n m : Int) : R) = (if n then -1 else 1) * (m : R) := by
  cases n <;> simp [toSigned]

theorem fvOfInt_of_ne {z : Int} (hz : z ≠ 0) (n : Bool) (e : Int) : fvOfInt n z e = .num (decide (z < 0)) z.natAbs e := if_neg hz

theorem rat_fvOfInt (n : Bool) (z e : Int) : (fvOfInt n z e).rat = z * (2 : ℚ) ^ e := by
  by_cases hz : z = 0
  · simp [fvOfInt, hz, FV.rat]
  · have habs : ((z.natAbs : Nat) : ℚ) = |(z : ℚ)| := by rw [Nat.cast_natAbs, Int.cast_abs]
    rw [fvOfInt_of_ne hz, FV.rat, habs]
    rcases lt_or_gt_of_ne hz with h | h
    · have : (z : ℚ) < 0 := by exact_mod_cast h
      simp [h, abs_of_neg this]
    · have : (0 : ℚ) < z := by exact_mod_cast h
      simp [not_lt.2 h.le, abs_of_pos this]

theorem FV.rat_flip (x : FV) : x.flip.rat = -x.rat := by
  cases x with
  | num n m e => cases n <;> simp [FV.flip, FV.rat]
  | _ => simp [FV.flip, FV.rat]

theorem rat_fvMul (s t : Bool) (m n : Nat) (e d : Int) : (FV.num (s != t) (m * n) (e + d)).rat = (FV.num s m e).rat * (FV.num t n d).rat := by
  simp only [FV.rat, zpow_add₀ (two_ne_zero (α := ℚ))]
  cases s <;> cases t <;> simp <;> ring

/-- The sum of two numbers of which not both are zero (R45). -/
theorem fvAdd_num (mode : RMode) (s t : Bool) {m n : Nat} (e d : Int) (h : ¬(m = 0 ∧ n = 0)) : ∃ z q : Int,
    fvAdd mode (.num s m e) (.num t n d) = (fvOfInt (decide (mode = .rdn)) z q, 0) ∧
      (z : ℚ) * (2 : ℚ) ^ q = (FV.num s m e).rat + (FV.num t n d).rat := by
  refine ⟨_, _, by simp only [fvAdd, FV.isNan_num, h, if_false, RMode.beq_rdn]; rfl, ?_⟩
  rw [Int.cast_add, toSigned_eq, toSigned_eq, FV.rat, FV.rat, zpow_eq_pow_mul (min_le_left e d), zpow_eq_pow_mul (min_le_right e d)]
  push_cast
  ring

/-- The number of a finite encoding. -/
theorem FinEnc.exists_num {f : Fmt} {n : Nat} (h : FinEnc f n) : ∃ s k e, unpack f n = .num s k e := by
  obtain ⟨-, hn, hi⟩ := h
  exact FV.finite_iff.1 (by simp [hn, hi])

/-! ## What is delivered of them (R45 to R48) -/

theorem deliver_zero (f : Fmt) (mode : RMode) (sat n : Bool) (e : Int) : deliver f mode sat (.num n 0 e) = (signed f n 0, 0) := by
  simp [deliver]

theorem Fmt.Listed.nanEnc_eq {f : Fmt} (hf : f.Listed) : nanEnc f =
    [(f32Fmt, 0x7FC00000), (bf16Fmt, 0x7FC0), (f16Fmt, 0x7E00), (e5m2Fmt, 0x7E), (e4m3Fmt, 0x7F)].foldl
      (fun r p => if f = p.1 then p.2 else r) 0x7FF8000000000000 := by
  rcases hf.cases with rfl | rfl | rfl | rfl | rfl | rfl <;> decide

theorem Fmt.Listed.saturates_iff {f : Fmt} (hf : f.Listed) (sat : Bool) :
    saturates f sat = true ↔ f = e4m3Fmt ∨ (f = e5m2Fmt ∧ sat = true) := by
  rcases hf.cases with rfl | rfl | rfl | rfl | rfl | rfl <;> cases sat <;> decide

/-- R48 for an infinity. -/
theorem Fmt.Listed.deliver_inf {f : Fmt} (hf : f.Listed) (mode : RMode) (sat n : Bool) : deliver f mode sat (.inf n) =
    if f = e4m3Fmt ∨ (f = e5m2Fmt ∧ sat = true) then ((if f = e4m3Fmt then 0x7E else 0x7B) + (if n then 0x80 else 0), 0x14)
    else (signed f n (infEnc f), 0) := by
  rw [deliver]
  refine ite_congr (propext (hf.saturates_iff sat)) (fun h => ?_) fun _ => rfl
  rcases h with rfl | ⟨rfl, -⟩ <;> cases n <;> decide

section
variable {f : Fmt} (hf : f.Listed) (mode : RMode)
include hf

theorem rounded_num (n : Bool) {k : Nat} {e : Int} (h : (FV.num n k e).rat ≠ 0) :
    Rounded f mode (((FV.num n k e).rat : ℚ) : ℝ) (deliver f mode false (.num n k e)) :=
  roundedSat_deliver_num hf mode false n ((FV.rat_eq_zero_iff n k e).not.1 h) e

/-- A sum that is exact, with the sign of an exact zero (R45). -/
theorem delivered_fvAdd (s t : Bool) (m n : Nat) (e d : Int) {q : ℚ} (hq : q = (FV.num s m e).rat + (FV.num t n d).rat) :
    (fvAdd mode (.num s m e) (.num t n d)).2 = 0 ∧
      (q ≠ 0 → Rounded f mode (q : ℝ) (deliver f mode false (fvAdd mode (.num s m e) (.num t n d)).1)) ∧
      (q = 0 → (FV.num s m e).rat ≠ 0 →
        deliver f mode false (fvAdd mode (.num s m e) (.num t n d)).1 = (signed f (decide (mode = .rdn)) 0, 0)) := by
  by_cases h0 : m = 0 ∧ n = 0
  · obtain ⟨rfl, rfl⟩ := h0
    simp [hq, FV.rat]
  · obtain ⟨z, g, hadd, hval⟩ := fvAdd_num mode s t e d h0
    rw [hadd, hq, ← hval, ← rat_fvOfInt (decide (mode = .rdn))]
    by_cases hz : z = 0
    · simp [fvOfInt, hz, deliver_zero, FV.rat]
    · rw [fvOfInt_of_ne hz]
      refine ⟨rfl, rounded_num hf mode _, fun h => ?_⟩
      rw [FV.rat_eq_zero_iff, Int.natAbs_eq_zero] at h
      exact absurd h hz

/-- The fused form of numbers is the sum with the exact product. -/
theorem delivered_fvFma (s t i : Bool) (m n l : Nat) (e d g : Int) {q : ℚ}
    (hq : q = (FV.num s m e).rat * (FV.num t n d).rat + (FV.num i l g).rat) :
    (fvFma mode (.num s m e) (.num t n d) (.num i l g)).2 = 0 ∧
      (q ≠ 0 → Rounded f mode (q : ℝ) (deliver f mode false (fvFma mode (.num s m e) (.num t n d) (.num i l g)).1)) ∧
      (q = 0 → (FV.num s m e).rat ≠ 0 → (FV.num t n d).rat ≠ 0 →
        deliver f mode false (fvFma mode (.num s m e) (.num t n d) (.num i l g)).1 = (signed f (decide (mode = .rdn)) 0, 0)) := by
  rw [← rat_fvMul] at hq
  rw [fvFma_of_fvMul mode _ rfl rfl rfl (fvMul_num s t m n e d)]
  obtain ⟨hfl, hround, hzero⟩ := delivered_fvAdd hf mode (s != t) i (m * n) l (e + d) g hq
  exact ⟨hfl, hround, fun h0 hx hy => hzero h0 (by rw [rat_fvMul]; exact mul_ne_zero hx hy)⟩

end

/-- Settles O4: numbers are delivered rounded, and the exact operations give the exact numbers. -/
theorem sumsAndProductsAreCorrectlyRounded : Obligations.SumsAndProductsAreCorrectlyRounded := by
  refine ⟨fun f m sat n k e hf => ⟨fun hk => roundedSat_deliver_num hf m sat n hk e, ?_, fun q => ?_, Fmt.Listed.deliver_inf hf m sat n⟩,
    fun f m a b c hf ha hb hc => ?_, fun f m a b c _ => ⟨rfl, rfl, rfl, rfl, rfl⟩⟩
  · rw [deliver_zero]
    cases n <;> simp [signed]
  · rw [← Fmt.Listed.nanEnc_eq hf]
    rfl
  · have hl : f.Listed := by
      simp only [Fmt.Listed, List.mem_cons] at hf ⊢
      tauto
    obtain ⟨s, k, e, hx⟩ := ha.exists_num
    obtain ⟨t, n, d, hy⟩ := hb.exists_num
    obtain ⟨i, l, g, hz⟩ := hc.exists_num
    rw [hx, hy, hz]
    have hsub (u v : ℚ) (w : FV) (hv : w.rat = v) : u - v = u + w.flip.rat := by rw [FV.rat_flip, hv, sub_eq_add_neg]
    obtain ⟨ha0, ha1, ha2⟩ := delivered_fvAdd hl m s t k n e d rfl
    obtain ⟨hs0, hs1, hs2⟩ := delivered_fvAdd hl m s (!t) k n e d (hsub _ _ (.num t n d) rfl)
    obtain ⟨hp0, hp1, hp2⟩ := delivered_fvFma hl m s t i k n l e d g rfl
    obtain ⟨hm0, hm1, hm2⟩ := delivered_fvFma hl m s t (!i) k n l e d g (hsub _ _ (.num i l g) rfl)
    refine ⟨⟨ha0, ha1, fun h hx _ _ => ha2 h hx⟩, ⟨hs0, hs1, fun h hx _ _ => hs2 h hx⟩, fun h => ?_,
      ⟨hp0, hp1, fun h hx hy _ => hp2 h hx hy⟩, ⟨hm0, hm1, fun h hx hy _ => hm2 h hx hy⟩⟩
    rw [fvMul_num]
    rw [← rat_fvMul] at h ⊢
    exact rounded_num hl m _ h

end Sys2Proof.Machine
end

section
/-! Conversions to and from integers and narrower formats (O8): what a float becomes as an integer is the neighbour its mode names (R49). -/

namespace Sys2Proof.Machine

-- Proofs elaborated side by side each hold a thread's stack, and the whole text compiles near the memory limit of its check.
set_option Elab.async false

/-! ## The integer that a mode names (R45, R49) -/

/-- The integer next to a number that a mode names. -/
def RMode.int (mode : RMode) (x : ℚ) : Int :=
  match mode with
  | .rdn => ⌊x⌋
  | .rup => ⌈x⌉
  | .rtz => if 0 ≤ x then ⌊x⌋ else ⌈x⌉
  | .rne => if x - ⌊x⌋ < 1 / 2 ∨ (x - ⌊x⌋ = 1 / 2 ∧ ⌊x⌋ % 2 = 0) then ⌊x⌋ else ⌊x⌋ + 1
  | .rmm => if x - ⌊x⌋ < 1 / 2 ∨ (x - ⌊x⌋ = 1 / 2 ∧ x < 0) then ⌊x⌋ else ⌊x⌋ + 1

theorem ceil_eq_of_bounds {x : ℚ} {N : Nat} (hle : (N : ℚ) ≤ x) (hlt : x < N + 1) : ⌈x⌉ = if (N : ℚ) < x then (N : Int) + 1 else N := by
  split
  · next h => exact Int.ceil_eq_iff.2 ⟨by push_cast; linarith, by push_cast; linarith⟩
  · next h => exact Int.ceil_eq_iff.2 ⟨by push_cast; linarith, by push_cast; linarith⟩

open Classical in
theorem RMode.int_of_nonneg (mode : RMode) {x : ℚ} {N : Nat} (hle : (N : ℚ) ≤ x) (hlt : x < N + 1) :
    mode.int x = (N + if RoundsUp mode N (N + 1) (x : ℝ) (N % 2 = 1) then 1 else 0 : Nat) := by
  have hfloor : ⌊x⌋ = (N : Int) := Int.floor_eq_iff.2 ⟨by exact_mod_cast hle, by exact_mod_cast hlt⟩
  have hceil := ceil_eq_of_bounds hle hlt
  have hx : 0 ≤ x := (Nat.cast_nonneg N).trans hle
  have hcast : ((N : Int) : ℚ) = N := by push_cast; rfl
  have h1 : ((N : ℝ) + 1 - x < x - N) ↔ (N : ℚ) + 1 - x < x - N := by exact_mod_cast Iff.rfl
  have h2 : ((N : ℝ) + 1 - x = x - N) ↔ (N : ℚ) + 1 - x = x - N := by exact_mod_cast Iff.rfl
  have h3 : ((N : ℝ) + 1 - x ≤ x - N) ↔ (N : ℚ) + 1 - x ≤ x - N := by exact_mod_cast Iff.rfl
  have h4 : (N : ℝ) < x ↔ (N : ℚ) < x := by exact_mod_cast Iff.rfl
  cases mode with
  | rdn => simp [RMode.int, RoundsUp, hfloor]
  | rtz => simp [RMode.int, RoundsUp, hfloor, hx]
  | rup =>
    simp only [RMode.int, RoundsUp, hceil, h4]
    split <;> simp
  | rne =>
    simp only [RMode.int, RoundsUp, hfloor, hcast, h1, h2]
    grind
  | rmm =>
    simp only [RMode.int, RoundsUp, hfloor, hcast, h3]
    grind

theorem RMode.int_neg (mode : RMode) {x : ℚ} {N : Nat} (hx : 0 < x) (hle : (N : ℚ) ≤ x) (hlt : x < N + 1) :
    mode.int (-x) = -mode.mirror.int x := by
  have hfloor : ⌊x⌋ = (N : Int) := Int.floor_eq_iff.2 ⟨by exact_mod_cast hle, by exact_mod_cast hlt⟩
  have hceil := ceil_eq_of_bounds hle hlt
  have hcast : ((N : Int) : ℚ) = N := by push_cast; rfl
  cases mode with
  | rdn => simp [RMode.int, RMode.mirror, Int.floor_neg]
  | rup => simp [RMode.int, RMode.mirror, Int.ceil_neg]
  | rtz => simp [RMode.int, RMode.mirror, Int.ceil_neg, hx, hx.le]
  | rne =>
    simp only [RMode.int, RMode.mirror, Int.floor_neg, hceil, hfloor, hcast]
    split <;> push_cast <;> grind
  | rmm =>
    simp only [RMode.int, RMode.mirror, Int.floor_neg, hceil, hfloor, hcast]
    split <;> push_cast <;> grind

/-- What rounding a positive mantissa to the quantum 1 gives, with whether it differs. -/
theorem roundMag_int (mode : RMode) {k : Nat} (hk : k ≠ 0) {e : Int} {x : ℚ} (hx : x = k * (2 : ℚ) ^ e) :
    (((roundMag mode false k e 0).1 : Nat) : Int) = mode.int x ∧ ((roundMag mode false k e 0).2 = true ↔ (⌊x⌋ : ℚ) ≠ x) ∧
      ((⌊x⌋₊ : ℚ) ≤ x ∧ x < ⌊x⌋₊ + 1) := by
  have hreal : (x : ℝ) = k * (2 : ℝ) ^ e := by rw [hx]; push_cast; rfl
  have hpos : 0 < x := by rw [hx]; exact mul_pos (Nat.cast_pos.2 (Nat.pos_of_ne_zero hk)) (zpow_pos two_pos e)
  have hle : (⌊x⌋₊ : ℚ) ≤ x := Nat.floor_le hpos.le
  have hlt : x < ⌊x⌋₊ + 1 := Nat.lt_floor_add_one x
  have hstands : StandsFor (e + Nat.log2 k).toNat k e x := ⟨hk, .inl hreal⟩
  have hfloor : ⌊x⌋₊ = ⌊(x : ℝ) / (2 : ℝ) ^ (0 : Int)⌋₊ := by
    rw [zpow_zero, div_one]
    exact (Nat.floor_eq_iff (by positivity)).2 ⟨by exact_mod_cast hle, by exact_mod_cast hlt⟩ |>.symm
  rw [hstands.roundMag_eq mode (q := 0) (by omega) hfloor, mode.int_of_nonneg hle hlt, zpow_zero, mul_one, mul_one]
  refine ⟨rfl, ?_, hle, hlt⟩
  rw [decide_eq_true_iff]
  rw [← Int.natCast_floor_eq_floor hpos.le]
  exact_mod_cast Iff.rfl

theorem RMode.int_intCast (mode : RMode) (z : Int) : mode.int z = z := by
  cases mode <;> simp [RMode.int]

theorem RMode.int_eq_iff (mode : RMode) (x : ℚ) : (mode.int x : ℚ) = x ↔ (⌊x⌋ : ℚ) = x := by
  constructor
  · intro h
    rw [← h, Int.floor_intCast]
  · intro h
    rw [← h, mode.int_intCast]

theorem RMode.floor_le_int (mode : RMode) (x : ℚ) : ⌊x⌋ ≤ mode.int x := by
  cases mode with
  | rdn => exact le_rfl
  | rup => exact Int.floor_le_ceil x
  | rtz =>
    rw [RMode.int]
    split
    · exact le_rfl
    · exact Int.floor_le_ceil x
  | rne =>
    rw [RMode.int]
    split <;> omega
  | rmm =>
    rw [RMode.int]
    split <;> omega

theorem roundMag_zero (mode : RMode) (n : Bool) (e q : Int) : roundMag mode n 0 e q = (0, false) := by
  rw [roundMag]
  split
  · simp
  · cases mode <;> simp

theorem rat_true (k : Nat) (e : Int) : (FV.num true k e).rat = -((k : ℚ) * (2 : ℚ) ^ e) := by simp [FV.rat]

theorem rat_false (k : Nat) (e : Int) : (FV.num false k e).rat = (k : ℚ) * (2 : ℚ) ^ e := by simp [FV.rat]

theorem mul_zpow_pos {k : Nat} (hk : k ≠ 0) (e : Int) : 0 < (k : ℚ) * (2 : ℚ) ^ e :=
  mul_pos (Nat.cast_pos.2 (Nat.pos_of_ne_zero hk)) (zpow_pos two_pos e)

/-- The rounded integer and whether it differs from the number. -/
theorem toSigned_roundMag (mode : RMode) (n : Bool) (k : Nat) (e : Int) :
    toSigned n (roundMag mode n k e 0).1 = mode.int (FV.num n k e).rat ∧
      ((roundMag mode n k e 0).2 = true ↔ (mode.int (FV.num n k e).rat : ℚ) ≠ (FV.num n k e).rat) := by
  rcases Nat.eq_zero_or_pos k with rfl | hk
  · have hzero := mode.int_intCast 0
    rw [Int.cast_zero] at hzero
    rw [roundMag_zero, (FV.rat_eq_zero_iff n 0 e).2 rfl, hzero]
    cases n <;> simp [toSigned]
  · have hk := hk.ne'
    cases n with
    | false =>
      obtain ⟨hint, hinexact, -⟩ := roundMag_int mode hk (e := e) rfl
      rw [rat_false, Ne, RMode.int_eq_iff]
      exact ⟨hint, hinexact⟩
    | true =>
      obtain ⟨hint, hinexact, hle, hlt⟩ := roundMag_int mode.mirror hk (e := e) rfl
      rw [roundMag_true, rat_true, mode.int_neg (mul_zpow_pos hk e) hle hlt, hinexact, ← hint]
      refine ⟨rfl, ?_⟩
      rw [hint, Ne, Ne, ← RMode.int_eq_iff mode.mirror, Int.cast_neg, neg_inj]

/-- R49 for a number and a range narrower than the bound at which the model stops to look at the number. -/
theorem toIntIn_num (mode : RMode) {lo hi : Int} (hlo : -(2 ^ 70) < lo) (hhi : hi < 2 ^ 70) (hle : lo ≤ hi) (n : Bool) (k : Nat) (e : Int) :
    toIntIn mode lo hi (.num n k e) =
      let x := (FV.num n k e).rat
      if mode.int x < lo then (lo, fNV) else if hi < mode.int x then (hi, fNV) else (mode.int x, if (mode.int x : ℚ) = x then 0 else fNX) := by
  obtain ⟨hz, hx⟩ := toSigned_roundMag mode n k e
  rw [toIntIn]
  split
  · have hflag : flagIf (roundMag mode n k e 0).2 fNX = if (mode.int (FV.num n k e).rat : ℚ) = (FV.num n k e).rat then 0 else fNX := by
      simp only [flagIf, hx, ite_not, Ne]
    simp only [hz, hflag]
  · next hbig =>
    have hbig : (2 ^ 70 : ℚ) ≤ (k : ℚ) * (2 : ℚ) ^ e := by
      rw [ltPow_iff, not_lt, Nat.cast_one, one_mul] at hbig
      have hcast : ((2 ^ 70 : ℚ) : ℝ) ≤ ((k : ℚ) * (2 : ℚ) ^ e : ℚ) := by
        push_cast
        exact_mod_cast hbig
      exact Rat.cast_le.1 hcast
    have hk : k ≠ 0 := by
      rintro rfl
      norm_num at hbig
    cases n with
    | false =>
      have hint : (2 ^ 70 : Int) ≤ mode.int (FV.num false k e).rat := by
        refine le_trans (Int.le_floor.2 ?_) (mode.floor_le_int _)
        rw [rat_false]
        exact_mod_cast hbig
      simp only [Bool.false_eq_true, if_false]
      rw [if_neg (by omega), if_pos (by omega)]
    | true =>
      obtain ⟨-, -, hfl, hfu⟩ := roundMag_int mode.mirror hk (e := e) rfl
      have hint : (2 ^ 70 : Int) ≤ mode.mirror.int ((k : ℚ) * (2 : ℚ) ^ e) :=
        le_trans (Int.le_floor.2 (by exact_mod_cast hbig)) (mode.mirror.floor_le_int _)
      simp only [if_true]
      rw [rat_true, mode.int_neg (mul_zpow_pos hk e) hfl hfu, if_pos (by omega)]

/-! ## The scalar conversions (R143) -/

theorem fpToInt_eq (f : Fmt) (sgn : Bool) (mode : RMode) (u : Word) : fpToInt f sgn mode u =
    (BitVec.ofInt 64 (toIntIn mode (if sgn then -(2 ^ 63) else 0) (if sgn then 2 ^ 63 - 1 else 2 ^ 64 - 1) (fvIn f u)).1,
      (toIntIn mode (if sgn then -(2 ^ 63) else 0) (if sgn then 2 ^ 63 - 1 else 2 ^ 64 - 1) (fvIn f u)).2) := by
  cases sgn <;> rfl

theorem fpToInt_of_nan {f : Fmt} {u : Word} (h : (fvIn f u).isNan = true) (sgn : Bool) (mode : RMode) : fpToInt f sgn mode u = (0, 1) := by
  obtain ⟨s, hs⟩ := FV.isNan_iff.1 h
  rw [fpToInt_eq, hs]
  rfl

theorem fpToInt_of_inf {f : Fmt} {u : Word} (h : (fvIn f u).isInf = true) (sgn : Bool) (mode : RMode) : fpToInt f sgn mode u =
    (BitVec.ofInt 64 (if (fvIn f u).sign then (if sgn then -(2 ^ 63) else 0) else if sgn then 2 ^ 63 - 1 else 2 ^ 64 - 1), 1) := by
  obtain ⟨n, hn⟩ := FV.isInf_iff.1 h
  rw [fpToInt_eq, hn]
  rfl

theorem fpToInt_of_finite {f : Fmt} {u : Word} (hn : (fvIn f u).isNan = false) (hi : (fvIn f u).isInf = false) (sgn : Bool) (mode : RMode) :
    let lo : Int := if sgn then -(2 ^ 63) else 0
    let hi : Int := if sgn then 2 ^ 63 - 1 else 2 ^ 64 - 1
    let z := mode.int (fvIn f u).rat
    fpToInt f sgn mode u = if z < lo then (BitVec.ofInt 64 lo, 1) else if hi < z then (BitVec.ofInt 64 hi, 1)
      else (BitVec.ofInt 64 z, if (z : ℚ) = (fvIn f u).rat then 0 else 16) := by
  obtain ⟨n, k, e, hx⟩ := FV.finite_iff.1 (show (!(fvIn f u).isNan && !(fvIn f u).isInf) = true by simp [hn, hi])
  intro lo hi z
  have hnum := toIntIn_num mode (lo := lo) (hi := hi) (by simp only [lo]; split <;> omega) (by simp only [hi]; split <;> omega)
    (by simp only [lo, hi]; split <;> omega) n k e
  rw [← hx] at hnum
  rw [fpToInt_eq, hnum]
  dsimp only
  split
  · rfl
  · split <;> rfl

section
variable {f : Fmt} (hf : f.Listed)
include hf

theorem signed_lt (neg : Bool) {k : Nat} (hk : k < 2 ^ (f.bits - 1)) : signed f neg k < 2 ^ f.bits := by
  have hpow := hf.two_pow_bits
  cases neg <;> simp only [signed, Bool.false_eq_true, if_false, if_true] <;> omega

/-- A rounded result fits its format. -/
theorem RoundedSat.lt {mode : RMode} {sat : Bool} {x : ℝ} {r : Nat × BitVec 5} (h : RoundedSat f mode sat x r) : r.1 < 2 ^ f.bits := by
  obtain ⟨-, -, -, -, -, -, hov, hfin⟩ := roundedSat_mk.1 h
  by_cases ho : Overflows f mode x
  · by_cases hto : saturates f sat = true ∨ ¬ToInfinity mode (x < 0)
    · rw [(hov ho).2 hto]
      exact signed_lt hf _ (by have := hf.maxEnc_bounds; omega)
    · obtain ⟨hsat, hinf⟩ := not_or.1 hto
      rw [(hov ho).1 (by simpa using hsat) (not_not.1 hinf)]
      exact signed_lt hf _ hf.infEnc_lt
  · exact (hfin ho).1.1

/-- A rounded number survives the way into the register. -/
theorem rounded_result (hb : f.bits ≤ 64) {mode : RMode} {x : ℝ} {v : FV} (h : Rounded f mode x (deliver f mode false v)) :
    Rounded f mode x ((result f mode (v, 0)).1.toNat, (result f mode (v, 0)).2) := by
  have hlt : (deliver f mode false v).1 < 2 ^ 64 := (RoundedSat.lt hf h).trans_le (Nat.pow_le_pow_right two_pos hb)
  rw [result, BitVec.toNat_ofNat, Nat.mod_eq_of_lt hlt]
  simpa using h

end

/-- Settles O8: the integer is the one that the mode names; a float is delivered of the exact number. -/
theorem conversionsFollowTheirRule : Obligations.ConversionsFollowTheirRule := by
  refine fun m u => ⟨fun f hf sgn => ⟨fun h => fpToInt_of_nan h sgn m, fun h => fpToInt_of_inf h sgn m, fun hn hi => ?_⟩,
    fun f hf sgn => ⟨fun hz => ?_, fun hz => ?_⟩, fun p hp => ?_⟩
  · have h := fpToInt_of_finite hn hi sgn m
    cases m <;> exact h
  · rw [fpOfInt, hz, fvOfInt, if_pos rfl, result_of_zero]
    rfl
  · have hl : f.Listed ∧ f.bits ≤ 64 := by rcases hf with rfl | rfl <;> simp [Fmt.Listed] <;> decide
    have hrat := rat_fvOfInt false (if sgn then u.toInt else (u.toNat : Int)) 0
    rw [zpow_zero, mul_one, fvOfInt_of_ne hz] at hrat
    have hround := rounded_num hl.1 m _ (hrat ▸ Int.cast_ne_zero.2 hz)
    rw [hrat, Rat.cast_intCast, ← fvOfInt_of_ne hz] at hround
    exact rounded_result hl.1 hl.2 hround
  · have hl : p.2.Listed ∧ p.2.bits ≤ 64 ∧ saturates p.2 false = false := by
      simp only [List.mem_cons, List.not_mem_nil, or_false] at hp
      rcases hp with rfl | rfl <;> simp [Fmt.Listed] <;> decide
    refine ⟨fun h => ?_, fun h => ?_, fun h => ?_, fun hn hi h0 => ?_⟩
    · obtain ⟨s, hs⟩ := FV.isNan_iff.1 h
      rw [fpConv, hs, result_of_nan, sigNV_one, flagIf_fNV]
    · obtain ⟨n, hn⟩ := FV.isInf_iff.1 h
      rw [fpConv, hn, result_of_inf hl.2.2, sigNV_one, flagIf_fNV]
      simp
    · obtain ⟨n, e, hz⟩ := FV.isZero_iff.1 h
      rw [fpConv, hz, result_of_zero, sigNV_one, flagIf_fNV]
      simp
    · obtain ⟨n, k, e, hk, hx⟩ := FV.finite_nonzero_iff.1 ⟨by simp [hn, hi], h0⟩
      rw [fpConv, hx, sigNV_one, FV.isSig_num]
      exact rounded_result hl.1 hl.2.1 (rounded_num hl.1 m n ((FV.rat_eq_zero_iff n k e).not.2 hk))

end Sys2Proof.Machine
end

section
/-! Quotients and roots (O5): a quotient or a root with its low bit stands for the exact one (R46, R59). -/

namespace Sys2Proof.Machine

-- Proofs elaborated side by side each hold a thread's stack, and the whole text compiles near the memory limit of its check.
set_option Elab.async false

/-- A truncated number with a low bit that says whether more follows stands for the number. -/
theorem standsFor_sticky {p q s : Nat} {c a : ℝ} {g : Int} (hq : 2 ^ (p + 1) ≤ q) (hle : (q : ℝ) ≤ c) (hlt : c < q + 1)
    (hs : s = 0 ∧ (q : ℝ) = c ∨ s = 1 ∧ (q : ℝ) ≠ c) (ha : a = c * (2 : ℝ) ^ (g + 1)) : StandsFor p (2 * q + s) g a := by
  have hq0 : 0 < q := (Nat.two_pow_pos _).trans_le hq
  have hpos : (0 : ℝ) < (2 : ℝ) ^ g := zpow_pos two_pos g
  rw [zpow_add_one₀ two_ne_zero] at ha
  refine ⟨by omega, ?_⟩
  rcases hs with ⟨rfl, rfl⟩ | ⟨rfl, hne⟩
  · left
    rw [ha]
    push_cast
    ring
  · right
    have hqc : (q : ℝ) < c := lt_of_le_of_ne hle hne
    refine ⟨by omega, (Nat.le_log2 (by omega)).2 (by rw [Nat.pow_succ]; omega), ?_, ?_⟩
    · rw [ha]
      push_cast
      nlinarith
    · rw [ha]
      push_cast
      nlinarith

/-! ## Quotients -/

/-- A quotient of mantissas stands for the quotient of the numbers. -/
theorem ratio_standsFor {p m n : Nat} (hp : p ≤ 52) (hm : m ≠ 0) (hn : n ≠ 0) (hlog : Nat.log2 m ≤ 140) (neg : Bool) (e d : Int) :
    ∃ k g, ratio neg m e n d = .num neg k g ∧ StandsFor p k g ((m : ℝ) * (2 : ℝ) ^ e / (n * (2 : ℝ) ^ d)) := by
  obtain ⟨sh, hsh⟩ : ∃ sh, sh = 140 + Nat.log2 n - Nat.log2 m := ⟨_, rfl⟩
  have hn0 : 0 < n := Nat.pos_of_ne_zero hn
  have hnr : (0 : ℝ) < n := Nat.cast_pos.2 hn0
  have hdiv := Nat.div_add_mod (m * 2 ^ sh) n
  have hmod := Nat.mod_lt (m * 2 ^ sh) hn0
  have hval : ((m * 2 ^ sh : Nat) : ℝ) = n * (m * 2 ^ sh / n : Nat) + (m * 2 ^ sh % n : Nat) := by exact_mod_cast hdiv.symm
  refine ⟨_, _, by rw [ratio, ← hsh], standsFor_sticky (c := ((m * 2 ^ sh : Nat) : ℝ) / n) ?_ ?_ ?_ ?_ ?_⟩
  · rw [Nat.le_div_iff_mul_le hn0]
    calc 2 ^ (p + 1) * n ≤ 2 ^ 139 * 2 ^ (Nat.log2 n + 1) :=
          Nat.mul_le_mul (Nat.pow_le_pow_right two_pos (by omega)) Nat.lt_log2_self.le
      _ = 2 ^ Nat.log2 m * 2 ^ sh := by rw [← Nat.pow_add, ← Nat.pow_add]; congr 1; omega
      _ ≤ m * 2 ^ sh := Nat.mul_le_mul_right _ (Nat.log2_self_le hm)
  · rw [le_div_iff₀ hnr, hval, mul_comm]
    exact le_add_of_nonneg_right (Nat.cast_nonneg _)
  · rw [div_lt_iff₀ hnr, hval, add_one_mul, mul_comm (n : ℝ)]
    exact add_lt_add_right (Nat.cast_lt.2 hmod) _
  · have hexact : ((m * 2 ^ sh / n : Nat) : ℝ) = ((m * 2 ^ sh : Nat) : ℝ) / n ↔ m * 2 ^ sh % n = 0 := by
      rw [eq_div_iff hnr.ne', hval, mul_comm, left_eq_add, Nat.cast_eq_zero]
    split
    · next h => exact .inl ⟨rfl, hexact.2 h⟩
    · next h => exact .inr ⟨rfl, hexact.not.2 h⟩
  · rw [sub_add_cancel, zpow_sub₀ two_ne_zero, zpow_sub₀ two_ne_zero, zpow_natCast]
    push_cast
    field_simp

/-! ## The integer square root -/

theorem isqrtGo_eq (x : Nat) : ∀ n r : Nat, r * r ≤ x → x < (r + 2 ^ n) * (r + 2 ^ n) → isqrtGo x n r = Nat.sqrt x
  | 0, r, hle, hlt => Nat.eq_sqrt.2 ⟨hle, hlt⟩
  | n + 1, r, hle, hlt => by
    rw [isqrtGo]
    split
    · next h =>
      refine isqrtGo_eq x n (r + 2 ^ n) h ?_
      rwa [Nat.add_assoc, ← Nat.mul_two, ← Nat.pow_succ]
    · next h => exact isqrtGo_eq x n r hle (Nat.not_le.1 h)

theorem isqrt_eq_sqrt (x : Nat) : isqrt x = Nat.sqrt x := by
  refine isqrtGo_eq x _ 0 (Nat.zero_le _) ?_
  rw [Nat.zero_add, ← Nat.pow_add]
  exact Nat.lt_log2_self.trans_le (Nat.pow_le_pow_right two_pos (by omega))

/-- The integer square root lies below the root by less than 1, and is it exactly where its square says so. -/
theorem isqrt_bounds {x : Nat} {c : ℝ} (hc : 0 ≤ c) {N n : Nat} (hn : 0 < n) (hx : x = N / n) (hcc : c * c * n = N) :
    (isqrt x : ℝ) ≤ c ∧ c < isqrt x + 1 ∧ ((isqrt x : ℝ) = c ↔ isqrt x * isqrt x * n = N) := by
  have hnr : (0 : ℝ) < n := Nat.cast_pos.2 hn
  obtain ⟨hle, hlt⟩ := Nat.eq_sqrt.1 (isqrt_eq_sqrt x)
  generalize isqrt x = r at *
  rw [hx, Nat.le_div_iff_mul_le hn] at hle
  rw [hx, Nat.div_lt_iff_lt_mul hn] at hlt
  have hler : (r * r * n : ℝ) ≤ c * c * n := by rw [hcc]; exact_mod_cast hle
  have hltr : c * c * n < (r + 1) * (r + 1) * n := by rw [hcc]; exact_mod_cast hlt
  refine ⟨?_, ?_, ?_⟩
  · exact (mul_self_le_mul_self_iff (Nat.cast_nonneg r) hc).2 (le_of_mul_le_mul_right hler hnr)
  · exact (mul_self_lt_mul_self_iff hc (by positivity)).2 (lt_of_mul_lt_mul_right hltr hnr.le)
  · rw [← mul_self_inj (Nat.cast_nonneg r) hc, ← mul_left_inj' hnr.ne', hcc]
    exact_mod_cast Iff.rfl

theorem zpow_two_mul (h : Int) : (2 : ℝ) ^ (2 * h) = (2 : ℝ) ^ h * (2 : ℝ) ^ h := by rw [two_mul, zpow_add₀ two_ne_zero]

/-- The root of a mantissa stands for the root of the number. -/
theorem fvSqrt_standsFor {p m : Nat} (hp : p ≤ 52) (hm : m ≠ 0) (e : Int) :
    ∃ k g, fvSqrt (.num false m e) = (.num false k g, 0) ∧ StandsFor p k g (√((m : ℝ) * (2 : ℝ) ^ e)) := by
  obtain ⟨sh, hsh⟩ : ∃ sh, sh = 280 + (e % 2).toNat := ⟨_, rfl⟩
  obtain ⟨h, hh⟩ : ∃ h : Int, e - sh = 2 * h := ⟨(e - sh) / 2, by omega⟩
  obtain ⟨hle, hlt, hexact⟩ := isqrt_bounds (x := m * 2 ^ sh) (c := √((m * 2 ^ sh : Nat) : ℝ)) (Real.sqrt_nonneg _) one_pos
    (Nat.div_one _).symm (by rw [Real.mul_self_sqrt (Nat.cast_nonneg _), Nat.cast_one, mul_one])
  rw [mul_one] at hexact
  refine ⟨_, _, by simp only [fvSqrt, hm, if_false, Bool.false_eq_true, ← hsh]; rfl, standsFor_sticky ?_ hle hlt ?_ ?_⟩
  · rw [isqrt_eq_sqrt, Nat.le_sqrt, ← Nat.pow_add]
    exact (Nat.pow_le_pow_right two_pos (by omega)).trans (Nat.le_mul_of_pos_left _ (Nat.pos_of_ne_zero hm))
  · split
    · next h => exact .inl ⟨rfl, hexact.2 h⟩
    · next h => exact .inr ⟨rfl, hexact.not.2 h⟩
  · have hval : (m : ℝ) * (2 : ℝ) ^ e = ((m * 2 ^ sh : Nat) : ℝ) * ((2 : ℝ) ^ h * (2 : ℝ) ^ h) := by
      rw [← zpow_two_mul, ← hh, zpow_sub₀ two_ne_zero, zpow_natCast]
      push_cast
      field_simp
    rw [hh, Int.mul_ediv_cancel_left h two_ne_zero, sub_add_cancel, hval, Real.sqrt_mul (Nat.cast_nonneg _),
      Real.sqrt_mul_self (zpow_nonneg two_pos.le h)]

/-- The reciprocal root of a mantissa stands for the reciprocal root of the number. -/
theorem fvRsq_standsFor {p m : Nat} (hp : p ≤ 52) (hm : m ≠ 0) (e : Int) :
    ∃ k g, fvRsq (.num false m e) = (.num false k g, 0) ∧ StandsFor p k g (1 / √((m : ℝ) * (2 : ℝ) ^ e)) := by
  obtain ⟨m', hm'⟩ : ∃ m', m' = if e % 2 = 0 then m else 2 * m := ⟨_, rfl⟩
  obtain ⟨e', he'⟩ : ∃ e', e' = if e % 2 = 0 then e else e - 1 := ⟨_, rfl⟩
  obtain ⟨h, hh⟩ : ∃ h : Int, e' = 2 * h := ⟨e' / 2, by rw [he']; split <;> omega⟩
  obtain ⟨k, hk⟩ : ∃ k, k = 160 + Nat.log2 m' / 2 := ⟨_, rfl⟩
  have hm0 : 0 < m' := by rw [hm']; split <;> omega
  have hmr : (0 : ℝ) < m' := Nat.cast_pos.2 hm0
  have hval : (m : ℝ) * (2 : ℝ) ^ e = m' * ((2 : ℝ) ^ h * (2 : ℝ) ^ h) := by
    rw [← zpow_two_mul, ← hh, hm', he']
    split
    · rfl
    · rw [zpow_sub_one₀ two_ne_zero]
      push_cast
      ring
  obtain ⟨hle, hlt, hexact⟩ := isqrt_bounds (x := 2 ^ (2 * k) / m') (c := √(((2 ^ (2 * k) : Nat) : ℝ) / m')) (Real.sqrt_nonneg _) hm0 rfl
    (by rw [Real.mul_self_sqrt (by positivity), div_mul_cancel₀ _ hmr.ne'])
  refine ⟨_, _, by simp only [fvRsq, hm, if_false, Bool.false_eq_true, ← hm', ← he', ← hk]; rfl, standsFor_sticky ?_ hle hlt ?_ ?_⟩
  · rw [isqrt_eq_sqrt, Nat.le_sqrt, Nat.le_div_iff_mul_le hm0, ← Nat.pow_add]
    calc 2 ^ (p + 1 + (p + 1)) * m' ≤ 2 ^ (p + 1 + (p + 1)) * 2 ^ (Nat.log2 m' + 1) := Nat.mul_le_mul_left _ Nat.lt_log2_self.le
      _ ≤ 2 ^ (2 * k) := by rw [← Nat.pow_add]; exact Nat.pow_le_pow_right two_pos (by omega)
  · split
    · next h => exact .inl ⟨rfl, hexact.2 h⟩
    · next h => exact .inr ⟨rfl, hexact.not.2 h⟩
  · have hroot : √(((2 ^ (2 * k) : Nat) : ℝ) / m') = (2 : ℝ) ^ k / √(m' : ℝ) := by
      rw [Real.sqrt_div (Nat.cast_nonneg _), two_mul k, Nat.pow_add, Nat.cast_mul, Real.sqrt_mul_self (Nat.cast_nonneg _)]
      push_cast
      rfl
    rw [hh, Int.mul_ediv_cancel_left h two_ne_zero, sub_add_cancel, hval, hroot, Real.sqrt_mul hmr.le,
      Real.sqrt_mul_self (zpow_nonneg two_pos.le h), zpow_sub₀ two_ne_zero, zpow_natCast, zpow_neg]
    field_simp

end Sys2Proof.Machine
end

section
/-! The series of vexp2 and vlog2 in fixed point (R59): how far they lie from the exponential and the logarithm. -/

namespace Sys2Proof.Machine

-- Proofs elaborated side by side each hold a thread's stack, and the whole text compiles near the memory limit of its check.
set_option Elab.async false

/-- The unit of the fixed-point numbers, 2^256. -/
noncomputable def fixedOne : ℝ := (2 : ℝ) ^ seriesBits

theorem fixedOne_pos : 0 < fixedOne := by unfold fixedOne; positivity

theorem natCast_pow_seriesBits : ((2 ^ seriesBits : Nat) : ℝ) = fixedOne := by rw [fixedOne]; push_cast; rfl

/-- A truncated quotient. -/
theorem natDiv_bounds (a : Nat) {b : Nat} (hb : 0 < b) : ((a / b : Nat) : ℝ) ≤ (a : ℝ) / b ∧ (a : ℝ) / b < (a / b : Nat) + 1 := by
  refine ⟨Nat.cast_div_le, ?_⟩
  rw [div_lt_iff₀ (Nat.cast_pos.2 hb)]
  exact_mod_cast Nat.lt_mul_of_div_lt (Nat.lt_succ_self _) hb

/-! ## The exponential -/

/-- The terms that `expSeries` truncates. -/
noncomputable def expTerms (x : ℝ) : Nat → Nat → ℝ → ℝ
  | 0, _, _ => 0
  | n + 1, k, u => u + expTerms x n (k + 1) (u * x / k)

theorem expTerms_mul (x : ℝ) : ∀ (n k : Nat) (u c : ℝ), expTerms x n k (c * u) = c * expTerms x n k u
  | 0, _, _, _ => (mul_zero _).symm
  | n + 1, k, u, c => by
    rw [expTerms, expTerms, mul_add, ← expTerms_mul x n (k + 1)]
    congr 2
    ring

theorem expTerms_one_bounds {x : ℝ} (hx : 0 ≤ x) (hx1 : x ≤ 1) : ∀ (n k : Nat), 0 < k → 0 ≤ expTerms x n k 1 ∧ expTerms x n k 1 ≤ n
  | 0, _, _ => by simp [expTerms]
  | n + 1, k, hk => by
    have hk1 : (1 : ℝ) ≤ k := by exact_mod_cast hk
    obtain ⟨h0, h1⟩ := expTerms_one_bounds hx hx1 n (k + 1) (Nat.succ_pos k)
    have hq0 : 0 ≤ 1 * x / k := by positivity
    have hq1 : 1 * x / k ≤ 1 := by rw [one_mul, div_le_one (by positivity)]; linarith
    have hmul : expTerms x n (k + 1) (1 * x / k) = (1 * x / k) * expTerms x n (k + 1) 1 := by rw [← expTerms_mul, mul_one]
    rw [expTerms, hmul]
    push_cast
    constructor
    · positivity
    · nlinarith

theorem expTerms_eq_mul (x : ℝ) (n k : Nat) (u : ℝ) : expTerms x n k u = u * expTerms x n k 1 := by rw [← expTerms_mul, mul_one]

/-- The next term of the fixed-point series. -/
theorem nextTerm_bounds (t term : Nat) {k : Nat} (hk : 0 < k) :
    ((term * t / 2 ^ seriesBits / k : Nat) : ℝ) ≤ term * (t / fixedOne) / k ∧
      term * (t / fixedOne) / k ≤ (term * t / 2 ^ seriesBits / k : Nat) + 2 := by
  have hk1 : (1 : ℝ) ≤ k := by exact_mod_cast hk
  obtain ⟨ha, ha'⟩ := natDiv_bounds (term * t) (Nat.two_pow_pos seriesBits)
  obtain ⟨hb, hb'⟩ := natDiv_bounds (term * t / 2 ^ seriesBits) hk
  rw [natCast_pow_seriesBits, Nat.cast_mul, mul_div_assoc] at ha ha'
  have hlow := div_le_div_of_nonneg_right ha (zero_le_one.trans hk1)
  have hhigh := div_le_div_of_nonneg_right ha'.le (zero_le_one.trans hk1)
  have hone : (1 : ℝ) / k ≤ 1 := by rw [div_le_one (by positivity)]; exact hk1
  rw [add_div] at hhigh
  exact ⟨hb.trans hlow, by linarith⟩

/-- The fixed-point series loses at most 2 units for each later term at each step. -/
theorem expSeries_bounds {t : Nat} (ht : (t : ℝ) ≤ fixedOne) : ∀ (n k term : Nat), 0 < k →
    (expSeries t n k term : ℝ) ≤ expTerms (t / fixedOne) n k term ∧
      expTerms (t / fixedOne) n k term ≤ expSeries t n k term + 2 * (n : ℝ) ^ 2
  | 0, _, _, _ => by simp [expSeries, expTerms]
  | n + 1, k, term, hk => by
    obtain ⟨hlow, hhigh⟩ := nextTerm_bounds t term hk
    obtain ⟨ih, ih'⟩ := expSeries_bounds ht n (k + 1) (term * t / 2 ^ seriesBits / k) (Nat.succ_pos k)
    obtain ⟨h0, hn⟩ := expTerms_one_bounds (x := t / fixedOne) (div_nonneg (Nat.cast_nonneg t) fixedOne_pos.le)
      ((div_le_one fixedOne_pos).2 ht) n (k + 1) (Nat.succ_pos k)
    rw [expTerms_eq_mul] at ih ih'
    rw [expSeries, expTerms, expTerms_eq_mul _ _ _ (_ / _)]
    have hstep := mul_le_mul_of_nonneg_right hlow h0
    have hstep' := mul_le_mul_of_nonneg_right hhigh h0
    rw [add_mul] at hstep'
    push_cast at *
    exact ⟨by linarith, by nlinarith⟩

/-- The terms are those of the exponential's power series. -/
theorem expTerms_eq_sum (x : ℝ) : ∀ n k : Nat,
    expTerms x n (k + 1) (x ^ k / (k.factorial : ℝ)) = ∑ j ∈ Finset.range n, x ^ (k + j) / ((k + j).factorial : ℝ)
  | 0, _ => by simp [expTerms]
  | n + 1, k => by
    have hterm : x ^ k / (k.factorial : ℝ) * x / (k + 1 : Nat) = x ^ (k + 1) / ((k + 1).factorial : ℝ) := by
      rw [Nat.factorial_succ]
      push_cast
      field_simp
      ring
    rw [expTerms, hterm, expTerms_eq_sum x n (k + 1), Finset.sum_range_succ', add_comm]
    simp only [Nat.add_zero, Nat.add_assoc, Nat.add_comm 1]

/-- The terms after the 80th of the exponential of a number of at most 1 are worth less than a unit. -/
theorem expTail_le {x : ℝ} (hx0 : 0 ≤ x) (hx1 : x ≤ 1) :
    fixedOne * (x ^ 80 * ((80 : Nat) + 1) / ((Nat.factorial 80 : Nat) * (80 : Nat))) ≤ 1 := by
  have hfact : 2 ^ seriesBits * 81 ≤ Nat.factorial 80 * 80 := by decide +kernel
  generalize Nat.factorial 80 = N at *
  have hfactr : fixedOne * 81 ≤ (N : ℝ) * (80 : Nat) := by
    rw [← natCast_pow_seriesBits]
    exact_mod_cast hfact
  have hpos : (0 : ℝ) < (N : ℝ) * (80 : Nat) := lt_of_lt_of_le (by linarith [fixedOne_pos]) hfactr
  rw [← mul_div_assoc, div_le_one hpos]
  refine le_trans ?_ hfactr
  have hpow := pow_le_one₀ hx0 hx1 (n := 80)
  have := mul_le_mul_of_nonneg_left hpow fixedOne_pos.le
  push_cast
  linarith

/-- The fixed-point series gives the exponential within 12,801 units. -/
theorem expSeries_exp {t : Nat} (ht : (t : ℝ) ≤ fixedOne) :
    |(expSeries t 80 1 (2 ^ seriesBits) : ℝ) - fixedOne * Real.exp (t / fixedOne)| ≤ 12801 := by
  have hx0 : 0 ≤ t / fixedOne := div_nonneg (Nat.cast_nonneg t) fixedOne_pos.le
  have hx1 : t / fixedOne ≤ 1 := (div_le_one fixedOne_pos).2 ht
  obtain ⟨hlow, hhigh⟩ := expSeries_bounds ht 80 1 (2 ^ seriesBits) one_pos
  have hsum := expTerms_eq_sum (t / fixedOne) 80 0
  simp only [pow_zero, Nat.factorial_zero, Nat.cast_one, div_one, zero_add] at hsum
  rw [natCast_pow_seriesBits, expTerms_eq_mul, hsum] at hlow hhigh
  have hexp := mul_le_mul_of_nonneg_left (Real.exp_bound' hx0 hx1 (n := 80) (by norm_num)) fixedOne_pos.le
  have hexp' := mul_le_mul_of_nonneg_left (Real.sum_le_exp_of_nonneg hx0 80) fixedOne_pos.le
  have htail := expTail_le hx0 hx1
  rw [mul_add] at hexp
  rw [show 2 * ((80 : Nat) : ℝ) ^ 2 = 12800 by norm_num] at hhigh
  rw [abs_le]
  exact ⟨by linarith, by linarith⟩

/-! ## The logarithm -/

/-- The terms that `atanhSeries` truncates. -/
noncomputable def atanhTerms (x : ℝ) : Nat → Nat → ℝ → ℝ
  | 0, _, _ => 0
  | n + 1, k, u => u / k + atanhTerms x n (k + 2) (u * x ^ 2)

theorem atanhTerms_mul (x : ℝ) : ∀ (n k : Nat) (u c : ℝ), atanhTerms x n k (c * u) = c * atanhTerms x n k u
  | 0, _, _, _ => (mul_zero _).symm
  | n + 1, k, u, c => by
    rw [atanhTerms, atanhTerms, mul_add, ← atanhTerms_mul x n (k + 2)]
    congr 2
    · ring
    · ring

theorem atanhTerms_eq_mul (x : ℝ) (n k : Nat) (u : ℝ) : atanhTerms x n k u = u * atanhTerms x n k 1 := by rw [← atanhTerms_mul, mul_one]

theorem atanhTerms_one_bounds {x : ℝ} (hx : 0 ≤ x) (hx1 : x ≤ 1) : ∀ (n k : Nat), 0 < k →
    0 ≤ atanhTerms x n k 1 ∧ atanhTerms x n k 1 ≤ n
  | 0, _, _ => by simp [atanhTerms]
  | n + 1, k, hk => by
    have hk1 : (1 : ℝ) ≤ k := by exact_mod_cast hk
    obtain ⟨h0, h1⟩ := atanhTerms_one_bounds hx hx1 n (k + 2) (Nat.succ_pos _)
    have hq0 : (0 : ℝ) ≤ 1 / k := by positivity
    have hq1 : (1 : ℝ) / k ≤ 1 := by rw [div_le_one (by positivity)]; exact hk1
    have hsq0 : 0 ≤ x ^ 2 := by positivity
    have hsq1 : x ^ 2 ≤ 1 := pow_le_one₀ hx hx1
    rw [atanhTerms, atanhTerms_eq_mul, one_mul]
    push_cast
    constructor
    · positivity
    · nlinarith

/-- The terms are those of the series of the inverse hyperbolic tangent. -/
theorem atanhTerms_eq_sum (x : ℝ) : ∀ n k : Nat,
    atanhTerms x n (2 * k + 1) (x ^ (2 * k + 1)) = ∑ j ∈ Finset.range n, x ^ (2 * (k + j) + 1) / (2 * ((k + j : Nat) : ℝ) + 1)
  | 0, _ => by simp [atanhTerms]
  | n + 1, k => by
    have hterm : x ^ (2 * k + 1) * x ^ 2 = x ^ (2 * (k + 1) + 1) := by rw [← pow_add]; rfl
    rw [atanhTerms, hterm, show 2 * k + 1 + 2 = 2 * (k + 1) + 1 by ring, atanhTerms_eq_sum x n (k + 1), Finset.sum_range_succ', add_comm]
    simp only [Nat.add_zero, Nat.add_assoc, Nat.add_comm 1]
    push_cast
    rfl

/-- The next power of the fixed-point series. -/
theorem nextPower_bounds {z pw : Nat} (hpw : (pw : ℝ) ≤ fixedOne) :
    ((pw * (z * z / 2 ^ seriesBits) / 2 ^ seriesBits : Nat) : ℝ) ≤ pw * (z / fixedOne) ^ 2 ∧
      pw * (z / fixedOne) ^ 2 ≤ (pw * (z * z / 2 ^ seriesBits) / 2 ^ seriesBits : Nat) + 2 := by
  obtain ⟨ha, ha'⟩ := natDiv_bounds (z * z) (Nat.two_pow_pos seriesBits)
  obtain ⟨hb, hb'⟩ := natDiv_bounds (pw * (z * z / 2 ^ seriesBits)) (Nat.two_pow_pos seriesBits)
  have hS := fixedOne_pos
  rw [natCast_pow_seriesBits] at ha ha' hb hb'
  rw [Nat.cast_mul] at ha ha' hb hb'
  have hsq : (z / fixedOne) ^ 2 = z * z / fixedOne / fixedOne := by field_simp
  have hp0 : 0 ≤ pw / fixedOne := div_nonneg (Nat.cast_nonneg pw) hS.le
  have hp1 : pw / fixedOne ≤ 1 := (div_le_one hS).2 hpw
  have hlow := mul_le_mul_of_nonneg_left ha hp0
  have hhigh := mul_le_mul_of_nonneg_left ha'.le hp0
  rw [hsq]
  rw [mul_div_right_comm] at hb hb'
  have heq : (pw : ℝ) * (z * z / fixedOne / fixedOne) = pw / fixedOne * (z * z / fixedOne) := by ring
  rw [heq]
  exact ⟨by linarith, by linarith⟩

/-- The fixed-point series loses at most 2 units for each later term at each step, and one for the term itself. -/
theorem atanhSeries_bounds {z : Nat} (hz : (z : ℝ) ≤ fixedOne) : ∀ (n k pw : Nat), 0 < k → (pw : ℝ) ≤ fixedOne →
    (atanhSeries (z * z / 2 ^ seriesBits) n k pw : ℝ) ≤ atanhTerms (z / fixedOne) n k pw ∧
      atanhTerms (z / fixedOne) n k pw ≤ atanhSeries (z * z / 2 ^ seriesBits) n k pw + 2 * (n : ℝ) ^ 2
  | 0, _, _, _, _ => by simp [atanhSeries, atanhTerms]
  | n + 1, k, pw, hk, hpw => by
    have hx0 : 0 ≤ z / fixedOne := div_nonneg (Nat.cast_nonneg z) fixedOne_pos.le
    have hx1 : z / fixedOne ≤ 1 := (div_le_one fixedOne_pos).2 hz
    obtain ⟨hterm, hterm'⟩ := natDiv_bounds pw hk
    obtain ⟨hlow, hhigh⟩ := nextPower_bounds (z := z) hpw
    have hnext : ((pw * (z * z / 2 ^ seriesBits) / 2 ^ seriesBits : Nat) : ℝ) ≤ fixedOne :=
      hlow.trans ((mul_le_of_le_one_right (Nat.cast_nonneg pw) (pow_le_one₀ hx0 hx1)).trans hpw)
    obtain ⟨ih, ih'⟩ := atanhSeries_bounds hz n (k + 2) _ (Nat.succ_pos _) hnext
    obtain ⟨h0, hn⟩ := atanhTerms_one_bounds hx0 hx1 n (k + 2) (Nat.succ_pos _)
    rw [atanhTerms_eq_mul] at ih ih'
    rw [atanhSeries, atanhTerms, atanhTerms_eq_mul _ _ _ (_ * _)]
    have hstep := mul_le_mul_of_nonneg_right hlow h0
    have hstep' := mul_le_mul_of_nonneg_right hhigh h0
    rw [add_mul] at hstep'
    push_cast at *
    exact ⟨by linarith, by nlinarith⟩

/-- The terms after the 100th of the series are worth less than a unit where the argument is at most 1/3. -/
theorem atanhTail_le {x : ℝ} (hx0 : 0 ≤ x) (hx1 : x ≤ 1 / 3) : fixedOne * (x ^ (2 * 100 + 1) / (1 - x ^ 2)) ≤ 1 := by
  have hpow : x ^ (2 * 100 + 1) ≤ (1 / 3) ^ (2 * 100 + 1) := pow_le_pow_left₀ hx0 hx1 _
  have hsq : x ^ 2 ≤ (1 / 3) ^ 2 := pow_le_pow_left₀ hx0 hx1 _
  have hpos : 0 < 1 - x ^ 2 := by linarith
  have hnum : fixedOne * (1 / 3) ^ (2 * 100 + 1) ≤ 1 - (1 / 3) ^ 2 := by
    rw [fixedOne, seriesBits]
    norm_num
  rw [← mul_div_assoc, div_le_one hpos]
  exact (mul_le_mul_of_nonneg_left hpow fixedOne_pos.le).trans (hnum.trans (sub_le_sub_left hsq 1))

/-- The fixed-point series gives the logarithm of the ratio within 40,003 units. -/
theorem atanhSeries_log {z : Nat} (hz : 3 * (z : ℝ) ≤ fixedOne) :
    |2 * (atanhSeries (z * z / 2 ^ seriesBits) 100 1 z : ℝ) - fixedOne * Real.log ((1 + z / fixedOne) / (1 - z / fixedOne))| ≤ 40003 := by
  have hz0 : (0 : ℝ) ≤ z := Nat.cast_nonneg z
  have hx0 : 0 ≤ z / fixedOne := div_nonneg hz0 fixedOne_pos.le
  have hx1 : z / fixedOne ≤ 1 / 3 := by rw [div_le_iff₀ fixedOne_pos]; linarith
  obtain ⟨hlow, hhigh⟩ := atanhSeries_bounds (z := z) (by linarith) 100 1 z one_pos (by linarith)
  have hsum := atanhTerms_eq_sum (z / fixedOne) 100 0
  simp only [mul_zero, zero_add, pow_one] at hsum
  have hscale : atanhTerms (z / fixedOne) 100 1 z = fixedOne * atanhTerms (z / fixedOne) 100 1 (z / fixedOne) := by
    rw [← atanhTerms_mul, mul_div_cancel₀ _ fixedOne_pos.ne']
  rw [hscale, hsum] at hlow hhigh
  have hlog := mul_le_mul_of_nonneg_left (Real.sum_range_le_log_div hx0 (by linarith) 100) fixedOne_pos.le
  have hlog' := mul_le_mul_of_nonneg_left (Real.log_div_le_sum_range_add hx0 (by linarith) 100) fixedOne_pos.le
  have htail := atanhTail_le hx0 hx1
  rw [mul_add] at hlog'
  rw [show 2 * ((100 : Nat) : ℝ) ^ 2 = 20000 by norm_num] at hhigh
  rw [abs_le]
  exact ⟨by linarith, by linarith⟩

end Sys2Proof.Machine
end

section
/-! 2^x and log2 x (R59): the numbers of the model lie within a relative 2^-200 of the exact ones. -/

namespace Sys2Proof.Machine

-- Proofs elaborated side by side each hold a thread's stack, and the whole text compiles near the memory limit of its check.
set_option Elab.async false

/-! ## Logarithms of ratios -/

/-- A truncated argument moves the logarithm little. -/
theorem log_ratio_close {x y : ℝ} (hx0 : 0 ≤ x) (hxy : x ≤ y) (hy : y ≤ 1 / 3) :
    0 ≤ Real.log ((1 + y) / (1 - y)) - Real.log ((1 + x) / (1 - x)) ∧
      Real.log ((1 + y) / (1 - y)) - Real.log ((1 + x) / (1 - x)) ≤ 3 * (y - x) := by
  have hpx : 0 < 1 - x := by linarith
  have hpy : 0 < 1 - y := by linarith
  have hX : 0 < (1 + x) / (1 - x) := div_pos (by linarith) hpx
  have hY : 0 < (1 + y) / (1 - y) := div_pos (by linarith) hpy
  rw [← Real.log_div hY.ne' hX.ne']
  have hratio : (1 + y) / (1 - y) / ((1 + x) / (1 - x)) = 1 + 2 * (y - x) / ((1 - y) * (1 + x)) := by
    have : 1 + x ≠ 0 := by linarith
    field_simp
    ring
  have hden : 2 / 3 ≤ (1 - y) * (1 + x) := by nlinarith
  have hdiff0 : 0 ≤ 2 * (y - x) / ((1 - y) * (1 + x)) := div_nonneg (by linarith) (by linarith)
  have hdiff : 2 * (y - x) / ((1 - y) * (1 + x)) ≤ 3 * (y - x) := by
    rw [div_le_iff₀ (by linarith)]
    nlinarith
  rw [hratio]
  exact ⟨Real.log_nonneg (by linarith), by linarith [Real.log_le_sub_one_of_pos (show 0 < 1 + 2 * (y - x) / ((1 - y) * (1 + x)) by linarith)]⟩

/-- The series from a truncated quotient gives the logarithm of the ratio within 40,006 units. -/
theorem atanhSeries_ratio {a b z : Nat} (hb : 0 < b) (h : 3 * a ≤ b) (hz : z = a * 2 ^ seriesBits / b) :
    |2 * (atanhSeries (z * z / 2 ^ seriesBits) 100 1 z : ℝ) - fixedOne * Real.log (((b : ℝ) + a) / (b - a))| ≤ 40006 := by
  have hS := fixedOne_pos
  have hbr : (0 : ℝ) < b := Nat.cast_pos.2 hb
  have hab : 3 * (a : ℝ) ≤ b := by exact_mod_cast h
  obtain ⟨hlow, hhigh⟩ := natDiv_bounds (a * 2 ^ seriesBits) hb
  rw [← hz, Nat.cast_mul, natCast_pow_seriesBits, mul_div_right_comm] at hlow hhigh
  have hy : (a : ℝ) / b ≤ 1 / 3 := by rw [div_le_iff₀ hbr]; linarith
  have hxy : z / fixedOne ≤ (a : ℝ) / b := (div_le_iff₀ hS).2 hlow
  have hgap : fixedOne * ((a : ℝ) / b - z / fixedOne) ≤ 1 := by
    rw [mul_sub, mul_div_cancel₀ _ hS.ne']
    linarith
  obtain ⟨h0, h3⟩ := log_ratio_close (div_nonneg (Nat.cast_nonneg z) hS.le) hxy hy
  have hseries := atanhSeries_log (z := z) (by nlinarith)
  have hratio : (1 + (a : ℝ) / b) / (1 - a / b) = ((b : ℝ) + a) / (b - a) := by
    have : (b : ℝ) - a ≠ 0 := by linarith
    field_simp
  rw [hratio] at h0 h3
  have h0' := mul_nonneg hS.le h0
  have h3' := mul_le_mul_of_nonneg_left h3 hS.le
  rw [abs_le] at hseries ⊢
  exact ⟨by nlinarith, by nlinarith⟩

theorem ln2Fixed_series : let z := 1 * 2 ^ seriesBits / 3
    2 * atanhSeries (z * z / 2 ^ seriesBits) 100 1 z ≤ ln2Fixed + 1000 ∧
      ln2Fixed ≤ 2 * atanhSeries (z * z / 2 ^ seriesBits) 100 1 z + 1000 := by
  decide +kernel

/-- The constant of the model is the logarithm of 2. -/
theorem ln2Fixed_close : |(ln2Fixed : ℝ) - fixedOne * Real.log 2| ≤ 41006 := by
  obtain ⟨h1, h2⟩ := ln2Fixed_series
  have h := atanhSeries_ratio (a := 1) (b := 3) (by norm_num) (by norm_num) rfl
  rw [show ((3 : Nat) : ℝ) + (1 : Nat) = 4 by norm_num, show ((3 : Nat) : ℝ) - (1 : Nat) = 2 by norm_num,
    show (4 : ℝ) / 2 = 2 by norm_num] at h
  have h1r : 2 * (atanhSeries (1 * 2 ^ seriesBits / 3 * (1 * 2 ^ seriesBits / 3) / 2 ^ seriesBits) 100 1 (1 * 2 ^ seriesBits / 3) : ℝ) ≤
      ln2Fixed + 1000 := by exact_mod_cast h1
  have h2r : (ln2Fixed : ℝ) ≤
      2 * (atanhSeries (1 * 2 ^ seriesBits / 3 * (1 * 2 ^ seriesBits / 3) / 2 ^ seriesBits) 100 1 (1 * 2 ^ seriesBits / 3) : ℝ) + 1000 := by
    exact_mod_cast h2
  rw [abs_le] at h ⊢
  exact ⟨by linarith, by linarith⟩

end Sys2Proof.Machine
end

section
/-! 2^x (R59): what vexp2 delivers, near the exact number and far outside the range of the formats. -/

namespace Sys2Proof.Machine

-- Proofs elaborated side by side each hold a thread's stack, and the whole text compiles near the memory limit of its check.
set_option Elab.async false

/-! ## The fraction -/

/-- The fixed-point exponential of a fraction of ln 2, in units of the exponential. -/
theorem expSeries_two_rpow {fr t : Nat} (hfr : fr < 2 ^ seriesBits) (ht : t = fr * ln2Fixed / 2 ^ seriesBits) :
    |(expSeries t 80 1 (2 ^ seriesBits) : ℝ) + 1 / 2 - fixedOne * (2 : ℝ) ^ ((fr : ℝ) / fixedOne)| ≤
      100000 * (2 : ℝ) ^ ((fr : ℝ) / fixedOne) := by
  have hS := fixedOne_pos
  have hfr1 : (fr : ℝ) / fixedOne ≤ 1 := by
    rw [div_le_one hS, ← natCast_pow_seriesBits]
    exact_mod_cast hfr.le
  have hfr0 : 0 ≤ (fr : ℝ) / fixedOne := div_nonneg (Nat.cast_nonneg fr) hS.le
  have hln := ln2Fixed_close
  obtain ⟨hlow, hhigh⟩ := natDiv_bounds (fr * ln2Fixed) (Nat.two_pow_pos seriesBits)
  rw [← ht, Nat.cast_mul, natCast_pow_seriesBits, mul_div_right_comm] at hlow hhigh
  have hL : (ln2Fixed : ℝ) ≤ fixedOne := by
    rw [← natCast_pow_seriesBits]
    exact_mod_cast (by decide : ln2Fixed ≤ 2 ^ seriesBits)
  have htS : (t : ℝ) ≤ fixedOne := hlow.trans ((mul_le_of_le_one_left (Nat.cast_nonneg _) hfr1).trans hL)
  have hexp := expSeries_exp htS
  generalize (expSeries t 80 1 (2 ^ seriesBits) : ℝ) = y at *
  have hpow : (2 : ℝ) ^ ((fr : ℝ) / fixedOne) = Real.exp (Real.log 2 * (fr / fixedOne)) := Real.rpow_def_of_pos two_pos _
  have hdiff : |t / fixedOne - Real.log 2 * (fr / fixedOne)| ≤ 41007 / fixedOne := by
    rw [le_div_iff₀ hS, ← abs_of_pos hS, ← abs_mul, abs_of_pos hS, sub_mul, div_mul_cancel₀ _ hS.ne']
    rw [abs_le] at hln ⊢
    constructor <;> nlinarith
  have hS41007 : (41007 : ℝ) ≤ fixedOne := by
    rw [← natCast_pow_seriesBits]
    exact_mod_cast (by decide : 41007 ≤ 2 ^ seriesBits)
  have hfactor := Real.abs_exp_sub_one_le (hdiff.trans ((div_le_one hS).2 hS41007))
  have hone : 1 ≤ Real.exp (Real.log 2 * (fr / fixedOne)) := Real.one_le_exp (mul_nonneg (Real.log_nonneg one_le_two) hfr0)
  have hsplit : Real.exp (t / fixedOne) =
      Real.exp (Real.log 2 * (fr / fixedOne)) * Real.exp (t / fixedOne - Real.log 2 * (fr / fixedOne)) := by
    rw [← Real.exp_add, add_sub_cancel]
  rw [hpow]
  rw [hsplit] at hexp
  generalize Real.exp (t / fixedOne - Real.log 2 * (fr / fixedOne)) = c at *
  generalize Real.exp (Real.log 2 * (fr / fixedOne)) = x at *
  have hc : |fixedOne * (c - 1)| ≤ 82014 := by
    rw [abs_mul, abs_of_pos hS]
    have := mul_le_mul_of_nonneg_left (hfactor.trans (mul_le_mul_of_nonneg_left hdiff two_pos.le)) hS.le
    rwa [mul_left_comm, mul_div_cancel₀ _ hS.ne', show (2 : ℝ) * 41007 = 82014 by norm_num] at this
  rw [abs_le] at hc hexp ⊢
  constructor <;> nlinarith

/-! ## The cases of the model -/

/-- VeryNear a number: within a relative 2^-200. -/
def VeryNear (v y : ℝ) : Prop := |v - y| ≤ |y| * (2 : ℝ) ^ (-200 : Int)

theorem veryNear_self (y : ℝ) : VeryNear y y := by
  rw [VeryNear, sub_self, abs_zero]
  positivity

/-- 2 to the power of a number with whole part `i` and fraction `fr`, as the model gives it. -/
theorem veryNear_two_rpow {fr : Nat} (hfr : fr < 2 ^ seriesBits) {i : Int} {x : ℝ} (hx : x = i + fr / fixedOne) :
    VeryNear (((FV.num false (2 * expSeries (fr * ln2Fixed / 2 ^ seriesBits) 80 1 (2 ^ seriesBits) + 1) (i - seriesBits - 1)).rat : ℚ) : ℝ)
      ((2 : ℝ) ^ x) := by
  have hS := fixedOne_pos
  have hclose := expSeries_two_rpow hfr rfl
  generalize expSeries (fr * ln2Fixed / 2 ^ seriesBits) 80 1 (2 ^ seriesBits) = y at *
  have hi : (0 : ℝ) < (2 : ℝ) ^ i := zpow_pos two_pos i
  have hval : (((FV.num false (2 * y + 1) (i - seriesBits - 1)).rat : ℚ) : ℝ) = (2 : ℝ) ^ i / fixedOne * ((y : ℝ) + 1 / 2) := by
    rw [FV.rat_num, zpow_sub_one₀ two_ne_zero, zpow_sub₀ two_ne_zero, zpow_natCast, ← fixedOne]
    push_cast
    field_simp
  have hpow : (2 : ℝ) ^ x = (2 : ℝ) ^ i / fixedOne * (fixedOne * (2 : ℝ) ^ ((fr : ℝ) / fixedOne)) := by
    rw [hx, Real.rpow_add two_pos, Real.rpow_intCast]
    field_simp
  have hscale : 0 < (2 : ℝ) ^ i / fixedOne := div_pos hi hS
  have hunits : 100000 ≤ fixedOne * (2 : ℝ) ^ (-200 : Int) := by
    rw [fixedOne, seriesBits]
    norm_num
  have hrpow : 0 < (2 : ℝ) ^ ((fr : ℝ) / fixedOne) := Real.rpow_pos_of_pos two_pos _
  rw [VeryNear, hval, hpow, ← mul_sub, abs_mul, abs_mul, abs_of_pos hscale, mul_assoc, abs_of_pos (mul_pos hS hrpow)]
  refine mul_le_mul_of_nonneg_left (hclose.trans ?_) hscale.le
  rw [mul_right_comm]
  exact mul_le_mul_of_nonneg_right hunits hrpow.le

/-- vexp2 of a number below 2^15: whole part and fraction. -/
theorem fvExp2_of_lt {n : Bool} {k : Nat} {e : Int} (hk : k ≠ 0) (he : 0 ≤ e + seriesBits) (hlt : ltPow k e 1 15 = true) :
    ∃ (i : Int) (fr : Nat), fr < 2 ^ seriesBits ∧ (((FV.num n k e).rat : ℚ) : ℝ) = i + fr / fixedOne ∧
      fvExp2 (.num n k e) = if fr = 0 then (.num false 1 i, 0)
        else (.num false (2 * expSeries (fr * ln2Fixed / 2 ^ seriesBits) 80 1 (2 ^ seriesBits) + 1) (i - seriesBits - 1), 0) := by
  obtain ⟨x, hx⟩ : ∃ x, x = toSigned n (k * 2 ^ (e + seriesBits).toNat) := ⟨_, rfl⟩
  have hpos : (0 : Int) < 2 ^ seriesBits := by positivity
  have hmod := Int.emod_nonneg x hpos.ne'
  have hfr : (((x % 2 ^ seriesBits).toNat : Nat) : Int) = x % 2 ^ seriesBits := Int.toNat_of_nonneg hmod
  refine ⟨x / 2 ^ seriesBits, (x % 2 ^ seriesBits).toNat, ?_, ?_, ?_⟩
  · rw [← Int.ofNat_lt, hfr]
    exact_mod_cast Int.emod_lt_of_pos x hpos
  · have hsplit : (x : ℝ) = ((x / 2 ^ seriesBits : Int) : ℝ) * fixedOne + ((x % 2 ^ seriesBits).toNat : ℝ) := by
      rw [← Int.cast_natCast, hfr, ← natCast_pow_seriesBits]
      exact_mod_cast (Int.ediv_mul_add_emod x _).symm
    have hval : (x : ℝ) = (((FV.num n k e).rat : ℚ) : ℝ) * fixedOne := by
      have hexp := zpow_eq_pow_mul (K := ℝ) he
      rw [zpow_add₀ two_ne_zero, zpow_natCast, zpow_zero, mul_one, sub_zero, ← fixedOne] at hexp
      rw [hx, toSigned_eq, FV.rat_num, Nat.cast_mul, Nat.cast_pow, Nat.cast_ofNat, ← hexp]
      ring
    rw [eq_comm, ← mul_left_inj' fixedOne_pos.ne', ← hval, hsplit, add_mul, div_mul_cancel₀ _ fixedOne_pos.ne']
  · rw [fvExp2]
    simp only [hk, if_false, hlt, if_true, he, ← hx]

/-- vexp2 of a number of 2^15 or more: far outside the range of the formats. -/
theorem fvExp2_of_not_lt {n : Bool} {k : Nat} {e : Int} (hk : k ≠ 0) (hlt : ltPow k e 1 15 ≠ true) :
    fvExp2 (.num n k e) = (.num false 1 (if n then -32768 else 32768), 0) ∧
      (if n then (((FV.num n k e).rat : ℚ) : ℝ) ≤ -32768 else 32768 ≤ (((FV.num n k e).rat : ℚ) : ℝ)) := by
  have hbig := hlt
  rw [Ne, ltPow_iff, not_lt] at hbig
  norm_num at hbig
  rw [fvExp2, FV.rat_num]
  cases n <;> simp [hk, hlt, toSigned, hbig]

/-! ## Far outside the range -/

theorem Fmt.roundPos_of_huge (f : Fmt) (mode : RMode) (sat : Bool) {a b : ℝ} (ha : f.grid (maxEnc f + 1) ≤ a) (hb : f.grid (maxEnc f + 1) ≤ b) :
    f.roundPos mode sat a = f.roundPos mode sat b := by
  have hover {c : ℝ} (hc : f.grid (maxEnc f + 1) ≤ c) : maxEnc f < f.roundEnc mode c := by
    have hpos : 0 < c := lt_of_lt_of_le (by simpa using f.grid_strictMono (Nat.succ_pos (maxEnc f))) hc
    have := (f.grid_le_iff hpos _).1 hc
    rw [Fmt.roundEnc]
    omega
  rw [Fmt.roundPos, Fmt.roundPos, if_pos (hover ha), if_pos (hover hb)]

/-- A number below half the least subnormal rounds to zero or up, as the mode alone says. -/
theorem Fmt.roundEnc_of_minute (f : Fmt) (mode : RMode) {a : ℝ} (ha : 0 < a) (h : a < f.grid 1 / 2) :
    f.floorEnc a = 0 ∧ f.roundEnc mode a = if mode = .rup then 1 else 0 := by
  have hE : f.floorEnc a = 0 := by
    have := (f.grid_le_iff ha 1).not.1 (by linarith)
    omega
  refine ⟨hE, ?_⟩
  rw [Fmt.roundEnc, hE, Nat.zero_add, Nat.zero_add, f.grid_zero]
  cases mode with
  | rne => simp [RoundsUp]; linarith
  | rtz => simp [RoundsUp]
  | rup => simp [RoundsUp, ha]
  | rdn => simp [RoundsUp]
  | rmm => simp [RoundsUp]; linarith

section
variable {f : Fmt} (hf : f.Listed)
include hf

theorem tiny_of_minute (mode : RMode) {a : ℝ} (ha : 0 < a) (h : a < f.grid 1 / 2) : Tiny f mode a := by
  have hmono := f.grid_strictMono.monotone (Nat.one_le_two_pow (n := f.mbits))
  have hone : 0 < f.grid 1 := by simpa using f.grid_strictMono one_pos
  exact (tiny_iff_roundsUp hf mode ha).2 ⟨by linarith, not_roundsUp_of_le mode True (by linarith) (by linarith)⟩

theorem roundPos_of_minute (mode : RMode) (sat : Bool) {a b : ℝ} (ha : 0 < a) (ha' : a < f.grid 1 / 2) (hb : 0 < b) (hb' : b < f.grid 1 / 2) :
    f.roundPos mode sat a = f.roundPos mode sat b := by
  obtain ⟨hEa, hDa⟩ := f.roundEnc_of_minute mode ha ha'
  obtain ⟨hEb, hDb⟩ := f.roundEnc_of_minute mode hb hb'
  rw [Fmt.roundPos, Fmt.roundPos, hDa, hDb, hEa, hEb]
  simp [tiny_of_minute hf mode ha ha', tiny_of_minute hf mode hb hb', ha.ne, hb.ne]

end

/-! ## What is delivered -/

/-- The formats of vexp2 and vlog2. -/
def Fmt.OfLanes (f : Fmt) : Prop := f ∈ [f32Fmt, bf16Fmt, f16Fmt]

theorem Fmt.OfLanes.cases {f : Fmt} (hf : f.OfLanes) : f = f32Fmt ∨ f = bf16Fmt ∨ f = f16Fmt := by simpa [Fmt.OfLanes] using hf

theorem Fmt.OfLanes.listed {f : Fmt} (hf : f.OfLanes) : f.Listed := by
  rcases hf.cases with rfl | rfl | rfl <;> simp [Fmt.Listed]

theorem Fmt.OfLanes.mantissa {f : Fmt} (hf : f.OfLanes) : f.mbits ≤ 23 ∧ -149 ≤ qMin f := by
  rcases hf.cases with rfl | rfl | rfl <;> decide

/-- Sign, mantissa and exponent of a finite encoding, with their bounds. -/
theorem FinEnc.exists_num_lt {f : Fmt} (hf : f.Listed) {n : Nat} (h : FinEnc f n) :
    ∃ s k e, unpack f n = .num s k e ∧ k < 2 * 2 ^ f.mbits ∧ qMin f ≤ e :=
  ⟨_, _, _, unpack_of_le hf ((finEnc_iff hf).1 h).2, (f.eq_expo_mant _).2.1, by omega⟩

theorem Fmt.OfLanes.range {f : Fmt} (hf : f.OfLanes) :
    f.grid (maxEnc f + 1) ≤ (2 : ℝ) ^ (32768 : Int) ∧ (2 : ℝ) ^ (-32768 : Int) < f.grid 1 / 2 := by
  constructor
  · have hexp : 1 + (f.mbits : Int) + (qMin f + f.expo (maxEnc f + 1)) ≤ 32768 := by
      rcases hf.cases with rfl | rfl | rfl <;> decide
    have hmant : (f.mant (maxEnc f + 1) : ℝ) ≤ 2 * 2 ^ f.mbits := by exact_mod_cast (f.eq_expo_mant (maxEnc f + 1)).2.1.le
    refine le_trans ?_ (zpow_le_zpow_right₀ one_le_two hexp)
    rw [zpow_add₀ two_ne_zero, zpow_add₀ two_ne_zero (1 : Int), zpow_one, zpow_natCast]
    exact mul_le_mul_of_nonneg_right hmant (zpow_nonneg two_pos.le _)
  · have hq := hf.mantissa.2
    rw [f.grid_one, div_eq_mul_inv, ← zpow_sub_one₀ two_ne_zero]
    exact zpow_lt_zpow_right₀ one_lt_two (by omega)

/-- R59 without its hard points: a result without NV and DZ, delivered as every number within a relative 2^-200 of y is rounded, where
they round alike. -/
def DeliversNear (f : Fmt) (mode : RMode) (y : ℝ) (r : FV × BitVec 5) : Prop :=
  r.2 = 0 ∧ ∀ d, (∀ z : ℝ, VeryNear z y → Rounded f mode z d) → deliver f mode false r.1 = d

section
variable {f : Fmt} (hf : f.Listed) (mode : RMode)
include hf

/-- A near number is delivered as every near one is rounded. -/
theorem deliversNear_of_veryNear {y : ℝ} {n : Bool} {k : Nat} {e : Int} (hk : k ≠ 0)
    (hnear : VeryNear (((FV.num n k e).rat : ℚ) : ℝ) y) : DeliversNear f mode y (.num n k e, 0) := by
  have hne : (FV.num n k e).rat ≠ 0 := (FV.rat_eq_zero_iff n k e).not.2 hk
  exact ⟨rfl, fun d hd => RoundedSat.unique hf (Rat.cast_ne_zero.2 hne) (rounded_num hf mode n hne) (hd _ hnear)⟩

theorem deliver_two_zpow (i : Int) : deliver f mode false (.num false 1 i) = f.roundPos mode false ((2 : ℝ) ^ i) := by
  have hstands : StandsFor f.mbits 1 i ((2 : ℝ) ^ i) := ⟨one_ne_zero, .inl (by rw [Nat.cast_one, one_mul])⟩
  rw [deliver, if_neg one_ne_zero, roundFin_eq_roundPos hf hstands]

end

/-- Far outside the range every power of two is delivered alike. -/
theorem rounded_far {f : Fmt} (hf : f.OfLanes) (mode : RMode) {n : Bool} {x : ℝ} (hx : if n then x ≤ -32768 else 32768 ≤ x) :
    Rounded f mode ((2 : ℝ) ^ x) (deliver f mode false (.num false 1 (if n then -32768 else 32768))) := by
  obtain ⟨htop, hbot⟩ := hf.range
  have hpos : 0 < (2 : ℝ) ^ x := Real.rpow_pos_of_pos two_pos x
  have hround := roundedSat_roundPos hf.listed mode false hpos
  have hle {u v : ℝ} (h : u ≤ v) : (2 : ℝ) ^ u ≤ (2 : ℝ) ^ v := Real.rpow_le_rpow_of_exponent_le one_le_two h
  rw [deliver_two_zpow hf.listed]
  cases n with
  | false =>
    have hbig := hle hx
    rw [show (32768 : ℝ) = ((32768 : Int) : ℝ) by norm_num, Real.rpow_intCast] at hbig
    simp only [Bool.false_eq_true, if_false]
    rwa [f.roundPos_of_huge mode false htop (htop.trans hbig)]
  | true =>
    have hsmall := hle hx
    rw [show (-32768 : ℝ) = ((-32768 : Int) : ℝ) by norm_num, Real.rpow_intCast] at hsmall
    simp only [if_true]
    rwa [roundPos_of_minute hf.listed mode false (zpow_pos two_pos _) hbot hpos (hsmall.trans_lt hbot)]

/-- What vexp2 gives: a power of two, the series of a fraction, or a power far outside the range. -/
theorem fvExp2_cases (n : Bool) (k : Nat) {e : Int} (he : 0 ≤ e + seriesBits) :
    (∃ i : Int, (((FV.num n k e).rat : ℚ) : ℝ) = i ∧ fvExp2 (.num n k e) = (.num false 1 i, 0)) ∨
    (∃ (i : Int) (fr : Nat), fr ≠ 0 ∧ fr < 2 ^ seriesBits ∧ (((FV.num n k e).rat : ℚ) : ℝ) = i + fr / fixedOne ∧ fvExp2 (.num n k e) =
      (.num false (2 * expSeries (fr * ln2Fixed / 2 ^ seriesBits) 80 1 (2 ^ seriesBits) + 1) (i - seriesBits - 1), 0)) ∨
    (fvExp2 (.num n k e) = (.num false 1 (if n then -32768 else 32768), 0) ∧
      (if n then (((FV.num n k e).rat : ℚ) : ℝ) ≤ -32768 else 32768 ≤ (((FV.num n k e).rat : ℚ) : ℝ))) := by
  by_cases hk : k = 0
  · exact .inl ⟨0, by simp [hk, FV.rat], by simp [fvExp2, hk]⟩
  · by_cases hlt : ltPow k e 1 15 = true
    · obtain ⟨i, fr, hfr, hrat, hval⟩ := fvExp2_of_lt (n := n) hk he hlt
      by_cases h0 : fr = 0
      · exact .inl ⟨i, by rw [hrat, h0]; simp, by rw [hval, if_pos h0]⟩
      · exact .inr (.inl ⟨i, fr, h0, hfr, hrat, by rw [hval, if_neg h0]⟩)
    · exact .inr (.inr (fvExp2_of_not_lt hk hlt))

theorem rat_num_one (i : Int) : (((FV.num false 1 i).rat : ℚ) : ℝ) = (2 : ℝ) ^ i := by
  rw [FV.rat_num]
  simp

section
variable {f : Fmt} (hf : f.OfLanes) (mode : RMode) {a : Nat} (ha : FinEnc f a)
include hf ha

theorem FinEnc.exists_num_ofLanes : ∃ n k e, unpack f a = .num n k e ∧ k < 2 ^ 24 ∧ 0 ≤ e + seriesBits := by
  obtain ⟨n, k, e, hx, hk, he⟩ := ha.exists_num_lt hf.listed
  obtain ⟨hm, hq⟩ := hf.mantissa
  have hpow := Nat.pow_le_pow_right two_pos hm
  exact ⟨n, k, e, hx, by omega, by rw [seriesBits]; omega⟩

/-- R59 for 2^x. -/
theorem exp2_near : DeliversNear f mode ((2 : ℝ) ^ (((unpack f a).rat : ℚ) : ℝ)) (fvExp2 (unpack f a)) := by
  obtain ⟨n, k, e, hx, -, he⟩ := FinEnc.exists_num_ofLanes hf ha
  rw [hx]
  rcases fvExp2_cases n k he with ⟨i, hrat, hval⟩ | ⟨i, fr, -, hfr, hrat, hval⟩ | ⟨hval, hfar⟩
  · rw [hval, hrat, Real.rpow_intCast]
    exact deliversNear_of_veryNear hf.listed mode one_ne_zero (rat_num_one i ▸ veryNear_self _)
  · rw [hval]
    exact deliversNear_of_veryNear hf.listed mode (Nat.succ_ne_zero _) (veryNear_two_rpow hfr hrat)
  · rw [hval]
    exact ⟨rfl, fun d hd => RoundedSat.unique hf.listed (Real.rpow_pos_of_pos two_pos _).ne' (rounded_far hf mode hfar)
      (hd _ (veryNear_self _))⟩

/-- R59 for a whole x: exact. -/
theorem exp2_exact {K : Int} (hK : (unpack f a).rat = K) : Rounded f mode ((2 : ℝ) ^ K) (deliver f mode false (fvExp2 (unpack f a)).1) := by
  obtain ⟨n, k, e, hx, -, he⟩ := FinEnc.exists_num_ofLanes hf ha
  rw [hx] at hK ⊢
  have hKr : (((FV.num n k e).rat : ℚ) : ℝ) = K := by rw [hK, Rat.cast_intCast]
  rcases fvExp2_cases n k he with ⟨i, hrat, hval⟩ | ⟨i, fr, h0, hfr, hrat, hval⟩ | ⟨hval, hfar⟩
  · obtain rfl : K = i := by exact_mod_cast hKr.symm.trans hrat
    rw [hval, ← rat_num_one]
    exact rounded_num hf.listed mode false ((FV.rat_eq_zero_iff _ _ _).not.2 one_ne_zero)
  · exfalso
    have hlt : (fr : ℝ) / fixedOne < 1 := by
      rw [div_lt_one fixedOne_pos, ← natCast_pow_seriesBits]
      exact_mod_cast hfr
    have hpos : 0 < (fr : ℝ) / fixedOne := div_pos (Nat.cast_pos.2 (Nat.pos_of_ne_zero h0)) fixedOne_pos
    have hlow : i < K := by exact_mod_cast (show (i : ℝ) < K by linarith)
    have hhigh : K < i + 1 := by exact_mod_cast (show (K : ℝ) < i + 1 by linarith)
    omega
  · rw [hval, ← Real.rpow_intCast]
    exact rounded_far hf mode (hKr ▸ hfar)

end

end Sys2Proof.Machine
end

section
/-! log2 x (R59): what vlog2 delivers, and with it O5. -/

namespace Sys2Proof.Machine

-- Proofs elaborated side by side each hold a thread's stack, and the whole text compiles near the memory limit of its check.
set_option Elab.async false

/-! ## The mantissa -/

theorem log_two_bounds : 1 / 2 ≤ Real.log 2 ∧ Real.log 2 ≤ 1 :=
  ⟨by linarith [Real.log_two_gt_d9], by linarith [Real.log_two_lt_d9]⟩

/-- The quotient of the series by ln 2, in units of the binary logarithm. -/
theorem log2_quotient {s l : Nat} {w : ℝ} (hw0 : 0 ≤ w) (hw1 : w ≤ 1) (hs : |2 * (s : ℝ) - fixedOne * w| ≤ 40006)
    (hl : l = 2 * s * 2 ^ seriesBits / ln2Fixed) : |(l : ℝ) - fixedOne * (w / Real.log 2)| ≤ 324049 := by
  obtain ⟨hln0, hln1⟩ := log_two_bounds
  have hS := fixedOne_pos
  have hln := ln2Fixed_close
  have hL : fixedOne / 2 ≤ ln2Fixed := by
    rw [div_le_iff₀ two_pos, ← natCast_pow_seriesBits]
    exact_mod_cast (by decide : 2 ^ seriesBits ≤ ln2Fixed * 2)
  have hL0 : (0 : ℝ) < ln2Fixed := by linarith
  obtain ⟨hlow, hhigh⟩ := natDiv_bounds (2 * s * 2 ^ seriesBits) (b := ln2Fixed) (by decide)
  rw [← hl, Nat.cast_mul, natCast_pow_seriesBits, Nat.cast_mul, Nat.cast_ofNat] at hlow hhigh
  generalize (ln2Fixed : ℝ) = L at *
  generalize Real.log 2 = c at *
  have hden : fixedOne / 4 ≤ L * c := by nlinarith
  have hquot : 2 * (s : ℝ) * fixedOne / L - fixedOne * (w / c) = fixedOne * ((2 * s - fixedOne * w) * c - (L - fixedOne * c) * w) / (L * c) := by
    have : c ≠ 0 := by linarith
    field_simp
    ring
  have hnum : |(2 * s - fixedOne * w) * c - (L - fixedOne * c) * w| ≤ 81012 := by
    refine (abs_sub _ _).trans ?_
    rw [abs_mul, abs_mul, abs_of_nonneg hw0, abs_of_nonneg (show 0 ≤ c by linarith)]
    have h1 := mul_le_mul hs hln1 (by linarith) (by norm_num)
    have h2 := mul_le_mul hln hw1 hw0 (by norm_num)
    linarith
  have hclose : |2 * (s : ℝ) * fixedOne / L - fixedOne * (w / c)| ≤ 324048 := by
    rw [hquot, abs_div, abs_mul, abs_of_pos hS, abs_of_pos (show 0 < L * c by linarith), div_le_iff₀ (by linarith)]
    nlinarith
  rw [abs_le] at hclose ⊢
  exact ⟨by linarith, by linarith⟩

/-- The binary logarithm of a mantissa, in fixed point. -/
theorem log2_mantissa {k p z l : Nat} (hlow : 2 ^ p ≤ k) (hhigh : k < 2 ^ (p + 1)) (hz : z = (k - 2 ^ p) * 2 ^ seriesBits / (k + 2 ^ p))
    (hl : l = 2 * atanhSeries (z * z / 2 ^ seriesBits) 100 1 z * 2 ^ seriesBits / ln2Fixed) :
    |(l : ℝ) - fixedOne * Real.logb 2 (k / 2 ^ p)| ≤ 324049 := by
  have hp : (0 : ℝ) < 2 ^ p := by positivity
  have hlowr : (2 : ℝ) ^ p ≤ k := by exact_mod_cast hlow
  have hhighr : (k : ℝ) ≤ 2 * 2 ^ p := by
    rw [← pow_succ']
    exact_mod_cast hhigh.le
  have hratio : (((k + 2 ^ p : Nat) : ℝ) + (k - 2 ^ p : Nat)) / ((k + 2 ^ p : Nat) - (k - 2 ^ p : Nat)) = k / 2 ^ p := by
    rw [Nat.cast_sub hlow]
    push_cast
    field_simp
    ring
  have hseries := atanhSeries_ratio (a := k - 2 ^ p) (b := k + 2 ^ p) (by omega) (by rw [Nat.pow_succ] at hhigh; omega) hz
  rw [hratio] at hseries
  have hw0 : 0 ≤ Real.log (k / 2 ^ p) := Real.log_nonneg ((one_le_div hp).2 hlowr)
  have hw1 : Real.log (k / 2 ^ p) ≤ 1 :=
    (Real.log_le_log (div_pos (hp.trans_le hlowr) hp) ((div_le_iff₀ hp).2 hhighr)).trans log_two_bounds.2
  exact log2_quotient hw0 hw1 hseries hl

/-! ## Away from 1 -/

theorem mul_two_zpow_neg (x : ℝ) (j : Nat) : x * (2 : ℝ) ^ (-(j : Int)) = x / 2 ^ j := by rw [zpow_neg, zpow_natCast, div_eq_mul_inv]

/-- Above 1: a whole number, or a quotient by a power of two below its short mantissa. -/
theorem far_above_one {k : Nat} (hk : k ≠ 0) (hlt : k < 2 ^ 24) {e : Int} (h : 1 < (k : ℝ) * (2 : ℝ) ^ e) :
    (2 : ℝ) ^ (-24 : Int) ≤ 1 - ((k : ℝ) * (2 : ℝ) ^ e)⁻¹ := by
  have hkr : (0 : ℝ) < k := Nat.cast_pos.2 (Nat.pos_of_ne_zero hk)
  rcases le_or_gt 0 e with he | he
  · obtain ⟨j, rfl⟩ := Int.eq_ofNat_of_zero_le he
    rw [zpow_natCast] at h ⊢
    have htwo : (2 : ℝ) ≤ k * 2 ^ j := by exact_mod_cast (show 1 < k * 2 ^ j by exact_mod_cast h)
    have := inv_anti₀ two_pos htwo
    norm_num at this ⊢
    linarith
  · obtain ⟨j, rfl⟩ : ∃ j : Nat, e = -(j : Int) := ⟨(-e).toNat, by omega⟩
    have hj : (0 : ℝ) < 2 ^ j := by positivity
    rw [mul_two_zpow_neg] at h ⊢
    rw [one_lt_div hj] at h
    have hsucc : (2 : ℝ) ^ j + 1 ≤ k := by exact_mod_cast (show 2 ^ j < k by exact_mod_cast h)
    have hk24 : (k : ℝ) ≤ 2 ^ 24 := by exact_mod_cast hlt.le
    have hinv := inv_anti₀ hkr hk24
    rw [inv_div, le_sub_iff_add_le]
    calc (2 : ℝ) ^ (-24 : Int) + 2 ^ j / k ≤ (k : ℝ)⁻¹ + 2 ^ j / k := by
          rw [zpow_neg]
          exact add_le_add_left hinv _
      _ = (2 ^ j + 1) / k := by field_simp; ring
      _ ≤ 1 := (div_le_one hkr).2 hsucc

/-- Below 1: a quotient by a power of two above its mantissa. -/
theorem far_below_one {k : Nat} (hk : k ≠ 0) (hlt : k < 2 ^ 24) {e : Int} (h : (k : ℝ) * (2 : ℝ) ^ e < 1) :
    (2 : ℝ) ^ (-24 : Int) ≤ 1 - (k : ℝ) * (2 : ℝ) ^ e := by
  have hkr : (1 : ℝ) ≤ k := by exact_mod_cast Nat.pos_of_ne_zero hk
  have he : e < 0 := by
    by_contra hge
    have := one_le_zpow₀ (one_le_two (α := ℝ)) (not_lt.1 hge)
    nlinarith
  obtain ⟨j, rfl⟩ : ∃ j : Nat, e = -(j : Int) := ⟨(-e).toNat, by omega⟩
  have hj : (0 : ℝ) < 2 ^ j := by positivity
  rw [mul_two_zpow_neg] at h ⊢
  rw [div_lt_one hj] at h
  rw [le_sub_iff_add_le]
  have hnat : k < 2 ^ j := by exact_mod_cast h
  rcases Nat.lt_or_ge 24 j with hbig | hsmall
  · have hpow : 2 * 2 ^ 24 ≤ 2 ^ j := by
      rw [← Nat.pow_succ']
      exact Nat.pow_le_pow_right two_pos hbig
    have hhalf : (k : ℝ) / 2 ^ j ≤ 1 / 2 := by
      rw [div_le_div_iff₀ hj two_pos]
      exact_mod_cast (by omega : k * 2 ≤ 1 * 2 ^ j)
    norm_num at hhalf ⊢
    linarith
  · have hsucc : (k : ℝ) + 1 ≤ 2 ^ j := by exact_mod_cast hnat
    have hinv : (2 : ℝ) ^ (-24 : Int) ≤ 1 / 2 ^ j := by
      rw [one_div, zpow_neg]
      exact inv_anti₀ hj (by exact_mod_cast Nat.pow_le_pow_right two_pos hsmall)
    calc (2 : ℝ) ^ (-24 : Int) + k / 2 ^ j ≤ 1 / 2 ^ j + k / 2 ^ j := add_le_add_left hinv _
      _ = (k + 1) / 2 ^ j := by ring
      _ ≤ 1 := (div_le_one hj).2 hsucc

/-- The logarithm of a number of a short mantissa that is not 1 is that far from 0. -/
theorem logb_far_from_zero {k : Nat} (hk : k ≠ 0) (hlt : k < 2 ^ 24) {e : Int} (hne : (k : ℝ) * (2 : ℝ) ^ e ≠ 1) :
    (2 : ℝ) ^ (-24 : Int) ≤ |Real.logb 2 (k * (2 : ℝ) ^ e)| := by
  have hx : 0 < (k : ℝ) * (2 : ℝ) ^ e := mul_pos (Nat.cast_pos.2 (Nat.pos_of_ne_zero hk)) (zpow_pos two_pos e)
  obtain ⟨hln0, hln1⟩ := log_two_bounds
  have hlog : (2 : ℝ) ^ (-24 : Int) ≤ |Real.log (k * (2 : ℝ) ^ e)| := by
    rcases lt_or_gt_of_ne hne with h | h
    · have := Real.log_le_sub_one_of_pos hx
      have := far_below_one hk hlt h
      rw [abs_of_neg (by linarith)]
      linarith
    · exact (far_above_one hk hlt h).trans ((Real.one_sub_inv_le_log_of_pos hx).trans (le_abs_self _))
  rw [Real.logb, abs_div, abs_of_pos (show 0 < Real.log 2 by linarith)]
  exact hlog.trans (le_div_self (abs_nonneg _) (by linarith) hln1)

/-! ## The cases of the model -/

/-- A power of two. -/
theorem fvLog2_of_pow {k : Nat} {e : Int} (hk : k = 2 ^ Nat.log2 k) : fvLog2 (.num false k e) = (fvOfInt false (e + Nat.log2 k) 0, 0) := by
  have h0 : k ≠ 0 := by rw [hk]; positivity
  simp [fvLog2, h0, ← hk]

/-- A fixed-point number with half a unit, as a value with its sign. -/
def halfUnit (v : Int) : FV :=
  if 0 ≤ v then .num false (2 * v.toNat + 1) (-(seriesBits : Int) - 1) else .num true (2 * (-v).toNat - 1) (-(seriesBits : Int) - 1)

theorem halfUnit_eq (v : Int) : ∃ n m, halfUnit v = .num n m (-(seriesBits : Int) - 1) ∧ m ≠ 0 ∧
    (((halfUnit v).rat : ℚ) : ℝ) = ((v : ℝ) + 1 / 2) / fixedOne := by
  have hexp : (2 : ℝ) ^ (-(seriesBits : Int) - 1) = 1 / fixedOne / 2 := by
    rw [zpow_sub_one₀ two_ne_zero, zpow_neg, zpow_natCast, ← fixedOne, div_eq_mul_inv, one_div]
  rw [halfUnit]
  split
  · next h =>
    refine ⟨_, _, rfl, Nat.succ_ne_zero _, ?_⟩
    obtain ⟨w, rfl⟩ := Int.eq_ofNat_of_zero_le h
    rw [FV.rat_num, hexp]
    push_cast
    simp
    ring
  · next h =>
    obtain ⟨w, rfl⟩ : ∃ w : Nat, v = -(w + 1 : Nat) := ⟨(-v).toNat - 1, by omega⟩
    refine ⟨_, _, rfl, by omega, ?_⟩
    rw [FV.rat_num, hexp, show 2 * (- -((w + 1 : Nat) : Int)).toNat - 1 = 2 * w + 1 by omega]
    push_cast
    simp
    ring

/-- Any other number: the fixed-point logarithm and half a unit. -/
theorem fvLog2_of_not_pow {k : Nat} {e : Int} (h0 : k ≠ 0) (hk : k ≠ 2 ^ Nat.log2 k) : ∃ l : Nat,
    |(l : ℝ) - fixedOne * Real.logb 2 (k / 2 ^ Nat.log2 k)| ≤ 324049 ∧
      fvLog2 (.num false k e) = (halfUnit ((e + Nat.log2 k) * 2 ^ seriesBits + l), 0) := by
  refine ⟨_, log2_mantissa (Nat.log2_self_le h0) (Nat.lt_log2_self (n := k)) rfl rfl, ?_⟩
  simp only [fvLog2, h0, hk, if_false, Bool.false_eq_true, halfUnit, apply_ite (fun x : FV => (x, (0 : BitVec 5)))]

/-! ## What is delivered -/

theorem logb_two_zpow (e : Int) : Real.logb 2 ((2 : ℝ) ^ e) = e := by
  rw [← Real.rpow_intCast, Real.logb_rpow two_pos one_lt_two.ne']

theorem logb_mul_zpow {k : Nat} (hk : k ≠ 0) (e : Int) :
    Real.logb 2 (k * (2 : ℝ) ^ e) = (e + Nat.log2 k : Int) + Real.logb 2 (k / 2 ^ Nat.log2 k) := by
  have hkr : (k : ℝ) ≠ 0 := Nat.cast_ne_zero.2 hk
  rw [Real.logb_mul hkr (zpow_ne_zero _ two_ne_zero), Real.logb_div hkr (pow_ne_zero _ two_ne_zero), logb_two_zpow,
    ← zpow_natCast, logb_two_zpow]
  push_cast
  ring

/-- The binary logarithm as the model gives it. -/
theorem veryNear_logb {k l : Nat} (hk : k ≠ 0) (hlt : k < 2 ^ 24) {e : Int} (hne : (k : ℝ) * (2 : ℝ) ^ e ≠ 1)
    (hl : |(l : ℝ) - fixedOne * Real.logb 2 (k / 2 ^ Nat.log2 k)| ≤ 324049) :
    VeryNear (((halfUnit ((e + Nat.log2 k) * 2 ^ seriesBits + l)).rat : ℚ) : ℝ) (Real.logb 2 (k * (2 : ℝ) ^ e)) := by
  have hS := fixedOne_pos
  obtain ⟨-, -, -, -, hval⟩ := halfUnit_eq ((e + Nat.log2 k) * 2 ^ seriesBits + l)
  have hfar := logb_far_from_zero hk hlt hne
  have hunits : 324050 / fixedOne ≤ (2 : ℝ) ^ (-24 : Int) * (2 : ℝ) ^ (-200 : Int) := by
    rw [fixedOne, seriesBits]
    norm_num
  have hdiff : (((e + Nat.log2 k) * 2 ^ seriesBits + l : Int) + 1 / 2 : ℝ) / fixedOne - Real.logb 2 (k * (2 : ℝ) ^ e) =
      (l - fixedOne * Real.logb 2 (k / 2 ^ Nat.log2 k) + 1 / 2) / fixedOne := by
    rw [logb_mul_zpow hk, fixedOne]
    push_cast
    field_simp
    ring
  rw [VeryNear, hval, hdiff, abs_div, abs_of_pos hS]
  refine le_trans (div_le_div_of_nonneg_right (c := fixedOne) (b := 324050) ?_ hS.le) (hunits.trans ?_)
  · rw [abs_le] at hl ⊢
    constructor <;> linarith
  · exact mul_le_mul_of_nonneg_right hfar (zpow_nonneg two_pos.le _)

/-- A power of two has a power of two as its mantissa, and its exponent is the place of the leading bit. -/
theorem eq_two_pow_log2 {k : Nat} (hk : k ≠ 0) {e K : Int} (h : (k : ℝ) * (2 : ℝ) ^ e = (2 : ℝ) ^ K) :
    k = 2 ^ Nat.log2 k ∧ e + Nat.log2 k = K := by
  have hstands : StandsFor 0 k e ((2 : ℝ) ^ K) := ⟨hk, .inl h.symm⟩
  obtain ⟨-, hlog⟩ := hstands.log_eq
  have hK := Int.log_zpow (R := ℝ) one_lt_two K
  rw [Nat.cast_ofNat, hlog] at hK
  refine ⟨?_, hK⟩
  rw [← hK, zpow_add₀ two_ne_zero, mul_comm, mul_right_inj' (zpow_ne_zero e two_ne_zero), zpow_natCast] at h
  exact_mod_cast h

section
variable {f : Fmt} (hf : f.OfLanes) (mode : RMode) {a : Nat} (ha : FinEnc f a)
include hf ha

/-- A positive finite encoding. -/
theorem FinEnc.exists_pos_num (hpos : 0 < (unpack f a).rat) : ∃ k e, unpack f a = .num false k e ∧ k ≠ 0 ∧ k < 2 ^ 24 := by
  obtain ⟨n, k, e, hx, hk, -⟩ := FinEnc.exists_num_ofLanes hf ha
  rw [hx] at hpos
  have h0 : k ≠ 0 := (FV.rat_eq_zero_iff n k e).not.1 hpos.ne'
  cases n with
  | false => exact ⟨k, e, hx, h0, hk⟩
  | true =>
    rw [rat_true] at hpos
    linarith [mul_zpow_pos h0 e]

/-- R59 for log2 x. -/
theorem log2_near (hpos : 0 < (unpack f a).rat) (hne : (unpack f a).rat ≠ 1) :
    DeliversNear f mode (Real.logb 2 (((unpack f a).rat : ℚ) : ℝ)) (fvLog2 (unpack f a)) := by
  obtain ⟨k, e, hx, hk, hlt⟩ := FinEnc.exists_pos_num hf ha hpos
  have hrat : (((FV.num false k e).rat : ℚ) : ℝ) = (k : ℝ) * (2 : ℝ) ^ e := by rw [rat_false]; push_cast; rfl
  have hne : (k : ℝ) * (2 : ℝ) ^ e ≠ 1 := by
    rw [hx] at hne
    rw [← hrat]
    exact_mod_cast hne
  rw [hx, hrat]
  by_cases hpow : k = 2 ^ Nat.log2 k
  · have hval : (k : ℝ) * (2 : ℝ) ^ e = (2 : ℝ) ^ (e + (Nat.log2 k : Int)) := by
      rw [zpow_add₀ two_ne_zero, mul_comm, zpow_natCast]
      congr 1
      exact_mod_cast hpow
    have hz : e + (Nat.log2 k : Int) ≠ 0 := fun h0 => hne (by rw [hval, h0, zpow_zero])
    have hround := deliversNear_of_veryNear hf.listed mode (n := decide (e + (Nat.log2 k : Int) < 0)) (e := 0) (Int.natAbs_ne_zero.2 hz)
      (y := Real.logb 2 (k * (2 : ℝ) ^ e))
    rw [← fvOfInt_of_ne hz false, rat_fvOfInt, hval, logb_two_zpow] at hround
    rw [fvLog2_of_pow hpow, hval, logb_two_zpow]
    exact hround (by simpa using veryNear_self _)
  · obtain ⟨l, hl, hval⟩ := fvLog2_of_not_pow (e := e) hk hpow
    have hnear := veryNear_logb hk hlt hne hl
    obtain ⟨n, m, heq, hm, -⟩ := halfUnit_eq ((e + Nat.log2 k) * 2 ^ seriesBits + l)
    rw [hval]
    rw [heq] at hnear ⊢
    exact deliversNear_of_veryNear hf.listed mode hm hnear

/-- R59 for a power of two: exact. -/
theorem log2_exact {K : Int} (hK : (unpack f a).rat = (2 : ℚ) ^ K) : fvLog2 (unpack f a) = (fvOfInt false K 0, 0) := by
  obtain ⟨k, e, hx, hk, -⟩ := FinEnc.exists_pos_num hf ha (by rw [hK]; exact zpow_pos two_pos K)
  rw [hx, rat_false] at hK
  have hKr := congrArg (Rat.cast (K := ℝ)) hK
  push_cast at hKr
  obtain ⟨hpow, hsum⟩ := eq_two_pow_log2 hk hKr
  rw [hx, fvLog2_of_pow hpow, hsum]

end

/-! ## Quotients and roots -/

section
variable {f : Fmt} (hf : f.Listed) (mode : RMode)
include hf

theorem log2_le_of_mantissa {k : Nat} (hk : k < 2 * 2 ^ f.mbits) : Nat.log2 k ≤ 140 := by
  have hm := hf.mbits_bounds.2
  rcases Nat.eq_zero_or_pos k with rfl | hpos
  · exact Nat.zero_le _
  · have := (Nat.log2_lt hpos.ne').2 (show k < 2 ^ (f.mbits + 1) by rwa [Nat.pow_succ'])
    omega

/-- A quotient of numbers is delivered rounded. -/
theorem rounded_fvDiv (s t : Bool) {k l : Nat} {e d : Int} (hlt : k < 2 * 2 ^ f.mbits) (hx : (FV.num s k e).rat ≠ 0)
    (hy : (FV.num t l d).rat ≠ 0) : Rounded f mode (((FV.num s k e).rat / (FV.num t l d).rat : ℚ) : ℝ)
      (deliver f mode false (fvDiv (.num s k e) (.num t l d)).1) := by
  have hk := (FV.rat_eq_zero_iff s k e).not.1 hx
  have hl := (FV.rat_eq_zero_iff t l d).not.1 hy
  obtain ⟨m, g, hratio, hstands⟩ :=
    ratio_standsFor (p := f.mbits) hf.mbits_bounds.2 hk hl (log2_le_of_mantissa hf hlt) (s != t) e d
  have hround := roundedSat_deliver hf mode false (s != t) hstands
  rw [fvDiv_num_num, if_neg hl, if_neg hk, hratio]
  rw [Rat.cast_div, FV.rat_num, FV.rat_num]
  cases s <;> cases t <;> simpa [neg_div, div_neg] using hround

/-- The root of a positive number and its reciprocal are delivered rounded. -/
theorem rounded_roots {k : Nat} {e : Int} (hk : k ≠ 0) :
    Rounded f mode (√(((FV.num false k e).rat : ℚ) : ℝ)) (deliver f mode false (fvSqrt (.num false k e)).1) ∧
      Rounded f mode (1 / √(((FV.num false k e).rat : ℚ) : ℝ)) (deliver f mode false (fvRsq (.num false k e)).1) := by
  have hrat : (((FV.num false k e).rat : ℚ) : ℝ) = (k : ℝ) * (2 : ℝ) ^ e := by rw [rat_false]; push_cast; rfl
  obtain ⟨m, g, hsqrt, hstands⟩ := fvSqrt_standsFor (p := f.mbits) hf.mbits_bounds.2 hk e
  obtain ⟨m', g', hrsq, hstands'⟩ := fvRsq_standsFor (p := f.mbits) hf.mbits_bounds.2 hk e
  rw [hrat, hsqrt, hrsq]
  exact ⟨roundedSat_deliver hf mode false false hstands, roundedSat_deliver hf mode false false hstands'⟩

end

/-- Settles O5: quotients and roots stand for the exact numbers; the series of 2^x and log2 x lie near them. -/
theorem quotientsAndRootsAreCorrectlyRounded : Obligations.QuotientsAndRootsAreCorrectlyRounded := by
  refine ⟨fun f m a hf ha => ?_, fun f m a b hf ha hb => ?_, fun f m a b _ => ⟨rfl, rfl⟩⟩
  · have hf : f.OfLanes := hf
    refine ⟨exp2_near hf m ha, fun K hK => exp2_exact hf m ha hK, log2_near hf m ha, fun K hK hK0 => ?_, fun h1 => ?_⟩
    · have hrat := rat_fvOfInt false K 0
      rw [zpow_zero, mul_one] at hrat
      have hround := roundedSat_deliver_num hf.listed m false (decide (K < 0)) (Int.natAbs_ne_zero.2 hK0) 0
      rw [← fvOfInt_of_ne hK0 false, hrat, Rat.cast_intCast] at hround
      rwa [log2_exact hf ha hK]
    · rw [log2_exact hf ha (K := 0) (by rw [h1, zpow_zero])]
      exact ⟨rfl, deliver_zero f m false false 0⟩
  · have hl : f.Listed := by
      simp only [Fmt.Listed, List.mem_cons] at hf ⊢
      tauto
    obtain ⟨s, k, e, hx, hk, -⟩ := ha.exists_num_lt hl
    obtain ⟨t, n, d, hy, -, -⟩ := hb.exists_num_lt hl
    rw [hx, hy]
    intro x y hx0
    have hone : (FV.num false 1 0).rat = 1 := by simp [FV.rat]
    refine ⟨?_, fun hy0 => rounded_fvDiv hl m s t hk hx0 hy0, fun hpos => ?_⟩
    · rw [← hone]
      exact rounded_fvDiv hl m false s (by have := Nat.two_pow_pos f.mbits; omega) (by simp [hone]) hx0
    · have hk0 := (FV.rat_eq_zero_iff s k e).not.1 hx0
      cases s with
      | false => exact rounded_roots hl m hk0
      | true =>
        exfalso
        have hneg := mul_zpow_pos hk0 e
        rw [show x = .num true k e from rfl, rat_true] at hpos
        linarith

end Sys2Proof.Machine
end

section
/-! Ends of waits (O45): a step that ends a wait lets the part go on exactly when the condition of its wait holds. -/

namespace Sys2Proof.Machine

-- As in the files above: the whole text compiles near the memory limit of its check.
set_option Elab.async false

/-! ## Going on -/

/-- A part that is resumed loses its wait and issues next; nothing else changes. -/
theorem resumes_of_exec {i : Instr} {s : State} {a : Agent} (h : exec i s = .next (s.resume a)) : Resumes i s a :=
  ⟨_, h, rfl, s.part_modPart a fun p => { p with wait := none },
    Around.of rfl ((SameCores.refl { s with focus := a }).setPart _) (SameSeat.setPart (s := { s with focus := a }) rfl _ none _ _ _ (.inl rfl)),
    s.bank_modPart a fun p => { p with wait := none }⟩

/-- The state with an agent in focus. -/
def State.focusOn (s : State) (a : Agent) : State := { s with focus := a }

@[simp] theorem State.op_focusOn (s : State) (a : Agent) (i : Nat) : (s.focusOn a).op i = s.op i := rfl
@[simp] theorem State.pane_focusOn (s : State) (a : Agent) (c b n : Nat) : (s.focusOn a).pane c b n = s.pane c b n := rfl
@[simp] theorem State.sram_focusOn (s : State) (a : Agent) (q b : Nat) : (s.focusOn a).sram q b = s.sram q b := rfl
@[simp] theorem State.barrier_focusOn (s : State) (a : Agent) (t : Seat) (bid : Nat) : (s.focusOn a).barrier t bid = s.barrier t bid := rfl
@[simp] theorem State.fseat_focusOn (s : State) (a : Agent) : (s.focusOn a).fseat = s.seat a := rfl
@[simp] theorem State.focus_focusOn (s : State) (a : Agent) : (s.focusOn a).focus = a := rfl

/-- The part goes on where the condition holds; elsewhere nothing changes. -/
def EndsWhen (i : Instr) (s : State) (a : Agent) (on : Prop) : Prop := (on → Resumes i s a) ∧ (¬on → exec i s = .next s)

section
variable {s : State} {c b : Nat} {ok : State → Wait → Bool}

theorem endWait_of_no_agent (ha : s.agentOfBank c b = none) : endWait c b s ok = .next s := by
  simp only [endWait, ha]

variable {a : Agent} (ha : s.agentOfBank c b = some a)
include ha

theorem endWait_of_no_wait (hw : (s.part a).wait = none) : endWait c b s ok = .next s := by
  simp only [endWait, ha, hw]

/-- The condition is asked of the state with the waiting part in focus. -/
theorem endsWhen_of_endWait {i : Instr} {w : Wait} {on : Prop} (hw : (s.part a).wait = some w)
    (hi : exec i s = endWait c b s ok) (h : ok (s.focusOn a) w = true ↔ on) : EndsWhen i s a on := by
  have he : exec i s = .next (if ok (s.focusOn a) w then s.resume a else s) := by
    simp only [hi, endWait, ha, hw]
    rfl
  constructor
  · intro hon
    rw [if_pos (h.mpr hon)] at he
    exact resumes_of_exec he
  · intro hoff
    rw [he, if_neg (mt h.mp hoff)]
end

/-- Each event that ends a wait is an `endWait` with a condition of its own. -/
theorem exists_endWait (s : State) (c b : Nat) : ∀ i ∈ [Instr.issueAfterInterlock c b, .kwaitEnd c b, .awaitRecheck c b, .bwaitEnd c b,
    .fbarArrive c b, .iwaitEnd c b, .tendWaitEnd c b, .mdetachWaitEnd c b, .mzeroWaitEnd c b, .xfenceWaitEnd c b, .fifoWaitEnd c b],
    ∃ ok, exec i s = endWait c b s ok := by
  simp only [List.forall_mem_cons]
  exact ⟨⟨_, show execIssueAfterInterlock c b s = _ from rfl⟩, ⟨_, show execKwaitEnd c b s = _ from rfl⟩,
    ⟨_, show execAwaitRecheck c b s = _ from rfl⟩, ⟨_, show execBwaitEnd c b s = _ from rfl⟩, ⟨_, show execFbarArrive c b s = _ from rfl⟩,
    ⟨_, show execIwaitEnd c b s = _ from rfl⟩, ⟨_, show execTendWaitEnd c b s = _ from rfl⟩, ⟨_, show execMdetachWaitEnd c b s = _ from rfl⟩,
    ⟨_, show execMzeroWaitEnd c b s = _ from rfl⟩, ⟨_, show execXfenceWaitEnd c b s = _ from rfl⟩,
    ⟨_, show execFifoWaitEnd c b s = _ from rfl⟩, List.forall_mem_nil _⟩

/-! ## What the waits wait for -/

/-- No pane of some banks of a core is in a transition. -/
def Calm (s : State) (c : Nat) (l : List Nat) : Prop :=
  ∀ k ∈ l, ∀ n, n < 12 → (s.pane c k n).st ∉ [PaneState.opening, .writing, .closing]

theorem rowsMoving_focusOn (s : State) (a : Agent) (l : List Nat) : rowsMoving (s.focusOn a) l = false ↔ Calm s a.core l := by
  simp [rowsMoving, Calm, and_assoc]

/-- The operation of an entry has ended, or the entry holds none. -/
def OpEnded (s : State) (i : Nat) : Prop := (s.op i).live = false ∨ (s.op i).st ∈ [OpState.done, .faulted, .cancelled]

theorem opOver_focusOn (s : State) (a : Agent) (i : Nat) : opOver (s.focusOn a) i = true ↔ OpEnded s i := by
  cases h : (s.op i).st <;> simp [opOver, OpEnded, h, OpState.terminal]

theorem Pane.settled_iff (p : Pane) : p.settled = true ↔
    p.st ∉ [PaneState.opening, .writing, .closing] ∧ ¬(p.park = true ∧ p.busy = true) := by
  cases h : p.st <;> simp [Pane.settled, h, imp_iff_not_or]

theorem Pane.not_claims_iff (p : Pane) : (!p.claims) = true ↔ (p.st = .closed ∨ p.park = true) ∧ p.busy = false := by
  simp [Pane.claims]

/-- MV is bit 48 of a page-table entry (R375). -/
theorem notMoving_iff (s : State) (pa : Nat) : notMoving s pa = true ↔ s.peek pa 8 / 2 ^ 48 % 2 = 0 := by
  simp only [notMoving, pteMv, BitVec.getLsbD_ofNat, Nat.testBit_eq_decide_div_mod_eq]
  simp

theorem atTend_iff (s : State) : atTend s = true ↔ s.current = some .tend := by
  unfold atTend
  split <;> simp_all

/-! ## The events -/

section
variable {s : State} {c b : Nat} {a : Agent} {w : Wait} (ha : s.agentOfBank c b = some a) (hw : (s.part a).wait = some w)
include ha hw

theorem kwaitEnd_endsWhen : EndsWhen (.kwaitEnd c b) s a (∃ i, w = .op i ∧ OpEnded s i) :=
  endsWhen_of_endWait ha hw (show execKwaitEnd c b s = _ from rfl) (by cases w <;> simp [opOver_focusOn])

theorem awaitRecheck_endsWhen : EndsWhen (.awaitRecheck c b) s a (w = .await) :=
  endsWhen_of_endWait ha hw (show execAwaitRecheck c b s = _ from rfl) beq_iff_eq

theorem bwaitEnd_endsWhen : EndsWhen (.bwaitEnd c b) s a (∃ bid ph, w = .bwait bid ph ∧ (s.barrier (s.seat a) bid).2.2 ≠ ph) :=
  endsWhen_of_endWait ha hw (show execBwaitEnd c b s = _ from rfl) (by cases w <;> simp)

section
variable {now : Option Instr} (hn : (s.focusOn a).current = now)
include hn

/-- An fbar waits for the phase before, then for the row accesses (R160). -/
theorem fbarArrive_endsWhen : EndsWhen (.fbarArrive c b) s a ((∃ u v, now = some (.fbar u v)) ∧
    ((∃ bid ph, w = .fbar bid ph ∧ (s.barrier (s.seat a) bid).2.2 ≠ ph) ∨ (w = .fence ∧ Calm s a.core (s.seat a).banks))) := by
  refine endsWhen_of_endWait ha hw (show execFbarArrive c b s = _ from rfl) ?_
  rw [hn]
  split
  next => simp
  next => simp [rowsMoving_focusOn]
  next hphase hfence =>
    refine iff_of_false Bool.false_ne_true ?_
    rintro ⟨⟨u, v, h⟩, ⟨bid, ph, hw', -⟩ | ⟨hw', -⟩⟩
    · exact hphase u v bid ph h hw'
    · exact hfence u v h hw'

theorem iwaitEnd_endsWhen : EndsWhen (.iwaitEnd c b) s a
    (∃ u v id, now = some (.iwait u v) ∧ w = .iwait id ∧ ((s.focusOn a).seqReg v).toNat ≤ ((s.focusOn a).posted (ringBefore c) id).toNat) := by
  refine endsWhen_of_endWait ha hw (show execIwaitEnd c b s = _ from rfl) ?_
  rw [hn]
  split
  next => simp
  next hne =>
    refine iff_of_false Bool.false_ne_true ?_
    rintro ⟨u, v, id, h, hw', -⟩
    exact hne u v id h hw'

theorem tendWaitEnd_endsWhen : EndsWhen (.tendWaitEnd c b) s a
    ((∃ i, w = .tend i ∧ OpEnded s i) ∨ ∃ i, w = .mx i ∧ now = some .tend ∧ OpEnded s i) :=
  endsWhen_of_endWait ha hw (show execTendWaitEnd c b s = _ from rfl) (by cases w <;> simp [opOver_focusOn, atTend_iff, hn])

theorem mdetachWaitEnd_endsWhen : EndsWhen (.mdetachWaitEnd c b) s a
    (now = some .mdetach ∧ (∃ i, w = .mx i) ∧ (s.focusOn a).matrixOps = []) := by
  refine endsWhen_of_endWait ha hw (show execMdetachWaitEnd c b s = _ from rfl) ?_
  rw [hn]
  split
  next => simp
  next hne =>
    refine iff_of_false Bool.false_ne_true ?_
    rintro ⟨h, ⟨i, hw'⟩, -⟩
    exact hne i h hw'

theorem mzeroWaitEnd_endsWhen : EndsWhen (.mzeroWaitEnd c b) s a
    (∃ d, now = some (.mzero d) ∧ (∃ i, w = .mx i) ∧ ∀ i ∈ (s.focusOn a).matrixOps, (s.op i).kind.tile ≠ some d.toNat) := by
  refine endsWhen_of_endWait ha hw (show execMzeroWaitEnd c b s = _ from rfl) ?_
  rw [hn]
  split
  next => simp
  next hne =>
    refine iff_of_false Bool.false_ne_true ?_
    rintro ⟨d, h, ⟨i, hw'⟩, -⟩
    exact hne d i h hw'

end

theorem xfenceWaitEnd_endsWhen : EndsWhen (.xfenceWaitEnd c b) s a (w = .fence ∧ Calm s a.core (s.focusOn a).active) :=
  endsWhen_of_endWait ha hw (show execXfenceWaitEnd c b s = _ from rfl) (by simp [rowsMoving_focusOn])

theorem fifoWaitEnd_endsWhen : EndsWhen (.fifoWaitEnd c b) s a (∃ q e, w = .fifo q e) :=
  endsWhen_of_endWait ha hw (show execFifoWaitEnd c b s = _ from rfl) (by cases w <;> simp)
end

/-- Settles O45: the rule of each event; the interlocks of R70-R74 are told apart by what the part waits for. -/
theorem waitsEndWhenTheirConditionHolds : Obligations.WaitsEndWhenTheirConditionHolds := by
  intro s c b events
  refine ⟨fun ha i hi => ?_, fun a ha => ⟨fun hw i hi => ?_, ?_⟩⟩
  · obtain ⟨ok, h⟩ := exists_endWait s c b i hi
    exact h.trans (endWait_of_no_agent ha)
  · obtain ⟨ok, h⟩ := exists_endWait s c b i hi
    exact h.trans (endWait_of_no_wait ha hw)
  · intro w hw x now calm ended ends
    have hn : (s.focusOn a).current = now := rfl
    refine ⟨?_, kwaitEnd_endsWhen ha hw, awaitRecheck_endsWhen ha hw, bwaitEnd_endsWhen ha hw, fbarArrive_endsWhen ha hw hn,
      iwaitEnd_endsWhen ha hw hn, tendWaitEnd_endsWhen ha hw hn, mdetachWaitEnd_endsWhen ha hw hn, mzeroWaitEnd_endsWhen ha hw hn,
      xfenceWaitEnd_endsWhen ha hw, fifoWaitEnd_endsWhen ha hw⟩
    refine endsWhen_of_endWait ha hw (show execIssueAfterInterlock c b s = _ from rfl) ?_
    cases w with
    | pane d e n => exact (s.pane d e n).settled_iff
    | pin d e n => exact beq_iff_eq
    | claim d e n => exact (s.pane d e n).not_claims_iff
    | moving pa => exact notMoving_iff (s.focusOn a) pa
    | sram q e => simp
    | wake d => exact beq_iff_eq
    | _ => simp

end Sys2Proof.Machine
end

section
/-! Panes that settle and claims that evict (for O44): what the ends of transitions (R67) and claim evictions (R73) do to one bank. -/

namespace Sys2Proof.Machine

-- As in the files above: the whole text compiles near the memory limit of its check.
set_option Elab.async false

/-! ## One bank -/

theorem State.bank_modCore (s : State) (c d e : Nat) (f : Core → Core) (hf : ∀ x, (f x).banks = x.banks) :
    (s.modCore c f).bank d e = s.bank d e := by
  unfold State.bank
  rw [State.core_modCore]
  split
  · rw [hf]
  · rfl

/-- A change of a bank leaves the rest of every core. -/
theorem State.core_modBank (s : State) (c b d : Nat) (f : Bank → Bank) :
    (s.modBank c b f).core d = { s.core d with banks := ((s.modBank c b f).core d).banks } := by
  unfold State.modBank State.setBank
  rw [State.core_modCore]
  split <;> rfl

/-- Bank b of a core is changed once more. -/
theorem OneBank.modBank {s t : State} {c b : Nat} {R R' : Bank → Bank → Prop} (h : OneBank s t c b R) (f : Bank → Bank)
    (hf : R' (s.bank c b) (f (t.bank c b))) : OneBank s (t.modBank c b f) c b R' := by
  obtain ⟨hrest, hcore, hbank, -⟩ := h
  refine ⟨hrest, fun d => ?_, fun d e hde => ?_, ?_⟩
  · rw [State.core_modBank]
    exact hcore d
  · rw [State.bank_modBank, if_neg hde]
    exact hbank d e hde
  · rwa [State.bank_modBank_same]

theorem oneBank_modBank {s : State} {c b : Nat} {R : Bank → Bank → Prop} {f : Bank → Bank} (hf : R (s.bank c b) (f (s.bank c b))) :
    OneBank s (s.modBank c b f) c b R :=
  OneBank.modBank (R := fun _ _ => True) ⟨rfl, fun _ => rfl, fun _ _ _ => rfl, trivial⟩ f hf

theorem paneOnly_setPane (x : Bank) (n : Nat) (p : Pane) : PaneOnly n p x (x.setPane n p) :=
  ⟨fun k => x.pane_setPane n k p, rfl⟩

theorem oneBank_setPane (s : State) (c b n : Nat) (p : Pane) : OneBank s (s.setPane c b n p) c b (PaneOnly n p) :=
  oneBank_modBank (paneOnly_setPane _ n p)

/-- The eight slots of an sg lie apart from those of another (R76). -/
theorem Bank.slot_setSlot (x : Bank) {k j : Nat} (n g : Nat) (v : Slot) (hk : k < 8) (hj : j < 8) :
    (x.setSlot n k v).slot g j = if g = n ∧ j = k then v else x.slot g j := by
  have hkey : g * 8 + j = n * 8 + k ↔ g = n ∧ j = k := by omega
  simp only [Bank.slot, Bank.setSlot, look_put, hkey]

/-! ## Transitions (R67) -/

/-- What a pane shows when its transition is over. -/
def Pane.ended (p : Pane) : Pane :=
  if p.after = .closed then Pane.empty else { p with st := p.after, img := p.next.getD p.img, next := none }

theorem endTransition_eq (s : State) (c b n : Nat) (st : PaneState) : s.endTransition c b n st =
    if (s.pane c b n).st = st ∧ (s.pane c b n).park = false then s.setPane c b n (s.pane c b n).ended else s := by
  simp [State.endTransition, Pane.ended, Pane.final]

theorem endTransition_of_parked {s : State} {c b n : Nat} (h : (s.pane c b n).park = true) (st : PaneState) : s.endTransition c b n st = s := by
  rw [endTransition_eq, if_neg fun hp => by simp [h] at hp]

/-- Each end of a transition, of a pane that is not parked, is `endTransition` from the state that it ends. -/
theorem exec_transitionEnd {s : State} {c b n : Nat} (hp : (s.pane c b n).park = false) :
    ∀ q ∈ [(Instr.openingEnd c b n, PaneState.opening), (.writingEnd c b n, .writing), (.closingEnd c b n, .closing)],
      exec q.1 s = .next (s.endTransition c b n q.2) := by
  have hclose : execClosingEnd c b n s = .next (s.endTransition c b n .closing) := by
    unfold execClosingEnd
    simp [hp]
  simp only [List.forall_mem_cons]
  exact ⟨rfl, rfl, hclose, List.forall_mem_nil _⟩

/-- CLOSING_END of a parked pane frees its sg (R174). -/
theorem execClosingEnd_of_parked {s : State} {c b n : Nat} (hp : (s.pane c b n).park = true) : execClosingEnd c b n s =
    .next (if (s.pane c b n).busy then s.setPane c b n { s.pane c b n with busy := false } else s) := by
  unfold execClosingEnd
  simp [hp]

/-! ## Claim evictions (R73) -/

theorem claimWaited_iff (s : State) (c b n : Nat) : s.claimWaited c b n = true ↔ ∃ x ∈ s.waits.arrivals, x.1 = (c, b, n) := by
  simp only [State.claimWaited, List.any_eq_true, beq_iff_eq]

/-- Pane n of a bank is in no transition, and not parked and busy. -/
def PaneRests (s : State) (c n e : Nat) : Prop :=
  (s.pane c e n).st ∉ [PaneState.opening, .writing, .closing] ∧ ¬((s.pane c e n).park = true ∧ (s.pane c e n).busy = true)

/-- A single row command on pane n that waits in a part which holds the bank, and can begin there (R178). -/
def CommandWaits (s : State) (c b n : Nat) (a : Agent) : Prop :=
  s.agentOfBank c b = some a ∧ (∃ v, (s.part a).convoy = some v ∧ v.elems = []) ∧
    (∃ e, (s.part a).wait = some (.pane c e n) ∨ (s.part a).wait = some (.pin c e n)) ∧
    if (s.part a).begun ≠ 0 then (s.part a).begun.getLsbD b = false ∧ PaneRests s c n b
    else ∀ e ∈ banksOf (s.part a).active, PaneRests s c n e ∧ (s.pane c e n).pins = 0

theorem commandFirst_eq_some_iff (s : State) (c b n : Nat) (a : Agent) : s.commandFirst c b n = some a ↔ CommandWaits s c b n a := by
  unfold State.commandFirst
  rw [Option.bind_eq_some_iff]
  simp only [Option.ite_none_right_eq_some, Option.some.injEq, exists_eq_right_right]
  refine and_congr_right fun _ => ?_
  generalize s.part a = p
  have hsingle : (p.convoy.map (fun v => v.elems.isEmpty)).getD false = true ↔ ∃ v, p.convoy = some v ∧ v.elems = [] := by
    cases p.convoy <;> simp
  have hmet : (if p.begun != 0 then !p.begun.getLsbD b && (s.pane c b n).settled
      else (banksOf p.active).all (fun e => (s.pane c e n).settled && (s.pane c e n).pins == 0)) = true ↔
      if p.begun ≠ 0 then p.begun.getLsbD b = false ∧ PaneRests s c n b
      else ∀ e ∈ banksOf p.active, PaneRests s c n e ∧ (s.pane c e n).pins = 0 := by
    by_cases hb : p.begun = 0 <;> simp [hb, Pane.settled_iff, PaneRests]
  simp only [Bool.and_eq_true, hsingle, hmet]
  refine and_comm.trans (and_congr_right fun _ => and_congr_left fun _ => ?_)
  split
  next h => simp [h]
  next h => simp [h]
  next hpane hpin =>
    refine iff_of_false Bool.false_ne_true ?_
    rintro ⟨e, h | h⟩
    · exact hpane c e n h
    · exact hpin c e n h

theorem commandFirst_eq_none {s : State} {c b n : Nat} (h : ∀ a, ¬CommandWaits s c b n a) : s.commandFirst c b n = none :=
  Option.eq_none_iff_forall_ne_some.mpr fun a ha => h a ((commandFirst_eq_some_iff s c b n a).mp ha)

/-- A pane that a claim evicts: open, unpinned, not parked. -/
def Evictable (p : Pane) : Prop := p.st ∈ [PaneState.openClean, .openDirty] ∧ p.pins = 0 ∧ p.park = false

theorem evictable_iff (p : Pane) : (p.isOpen && p.st != .writing && p.pins == 0 && !p.park) = true ↔ Evictable p := by
  cases h : p.st <;> simp [Evictable, Pane.isOpen, h]

theorem evict_of_not_evictable {s : State} {c b n : Nat} (h : ¬Evictable (s.pane c b n)) : s.evict c b n = s :=
  if_neg (mt (evictable_iff _).mp h)

theorem evict_of_evictable {s : State} {c b n : Nat} (h : Evictable (s.pane c b n)) : s.evict c b n =
    { (s.modBank c b (fun x => x.parkPane n)).modCore c (fun x => { x with evict := x.evict + 1 }) with
      waits := { s.waits with serving := s.waits.serving ++ (s.waits.arrivals.filter (fun x => x.1 == (c, b, n))).map (·.2) } } :=
  if_pos ((evictable_iff _).mpr h)

/-- Parking: the image goes to slot 5, the pane keeps its content and state under `park` (R73). -/
theorem parkPane_paneOnly (x : Bank) (n : Nat) :
    let p := x.pane n
    let st : PaneState := if p.img.dirty then .openDirty else .openClean
    PaneOnly n { p with st := st, after := st, park := true } { x with slots := (x.parkPane n).slots } (x.parkPane n) :=
  paneOnly_setPane (x.shutImage n 5) n _

theorem slot_parkPane (x : Bank) (n g : Nat) {j : Nat} (hj : j < 8) : (x.parkPane n).slot g j =
    if g = n ∧ j = 5 then ⟨(x.slot n 5).owner, some (x.pane n).img⟩ else x.slot g j :=
  x.slot_setSlot n g _ (by decide) hj

theorem exec_claimEviction_of_waited {s : State} {c b n : Nat} (h : ∃ x ∈ s.waits.arrivals, x.1 = (c, b, n)) :
    exec (.claimEviction c b n) s = .next (s.evictNext c b n) := by
  show execClaimEviction c b n s = _
  rw [execClaimEviction, if_pos ((claimWaited_iff s c b n).mpr h)]

theorem exec_claimEviction_of_not_waited {s : State} {c b n : Nat} (h : ¬∃ x ∈ s.waits.arrivals, x.1 = (c, b, n)) :
    exec (.claimEviction c b n) s = .next s := by
  show execClaimEviction c b n s = _
  rw [execClaimEviction, if_neg (mt (claimWaited_iff s c b n).mp h)]

theorem claimEviction_resumes {s : State} {c b n : Nat} {a : Agent} (h : ∃ x ∈ s.waits.arrivals, x.1 = (c, b, n))
    (ha : CommandWaits s c b n a) : Resumes (.claimEviction c b n) s a := by
  refine resumes_of_exec ?_
  rw [exec_claimEviction_of_waited h, State.evictNext, (commandFirst_eq_some_iff s c b n a).mpr ha]

theorem evictNext_of_no_command {s : State} {c b n : Nat} (h : ∀ a, ¬CommandWaits s c b n a) : s.evictNext c b n = s.evict c b n := by
  rw [State.evictNext, commandFirst_eq_none h]

theorem claimEviction_still {s : State} {c b n : Nat} (h : ∀ a, ¬CommandWaits s c b n a) (he : ¬Evictable (s.pane c b n)) :
    exec (.claimEviction c b n) s = .next s := by
  by_cases hw : ∃ x ∈ s.waits.arrivals, x.1 = (c, b, n)
  · rw [exec_claimEviction_of_waited hw, evictNext_of_no_command h, evict_of_not_evictable he]
  · exact exec_claimEviction_of_not_waited hw

/-- What an eviction leaves: the pane parked, its image in slot 5, one more eviction counted, those that waited to be served (R73). -/
structure Evicts (s t : State) (c b n : Nat) : Prop where
  rest : { t with cores := s.cores, waits := s.waits } = s
  waits : t.waits = { s.waits with serving := s.waits.serving ++ (s.waits.arrivals.filter (fun x => x.1 == (c, b, n))).map (·.2) }
  core : ∀ d, { t.core d with banks := (s.core d).banks, evict := (s.core d).evict } = s.core d
  count : ∀ d, (t.core d).evict = (s.core d).evict + if d = c then 1 else 0
  others : ∀ d e, ¬(d = c ∧ e = b) → t.bank d e = s.bank d e
  parked : t.bank c b = (s.bank c b).parkPane n

theorem evict_evicts {s : State} {c b n : Nat} (h : Evictable (s.pane c b n)) : Evicts s (s.evict c b n) c b n := by
  rw [evict_of_evictable h]
  set u := s.modBank c b (fun x => x.parkPane n) with hu
  set v := u.modCore c (fun x => { x with evict := x.evict + 1 }) with hv
  have hcore : ∀ d, v.core d = { s.core d with banks := (u.core d).banks, evict := (s.core d).evict + if d = c then 1 else 0 } := fun d => by
    rw [hv, State.core_modCore, hu, State.core_modBank]
    split <;> rfl
  have hbank : ∀ d e, v.bank d e = if d = c ∧ e = b then (s.bank d e).parkPane n else s.bank d e := fun d e => by
    rw [hv, State.bank_modCore, hu, State.bank_modBank]
    exact fun _ => rfl
  exact ⟨rfl, rfl, fun d => congrArg (fun x : Core => { x with banks := (s.core d).banks, evict := (s.core d).evict }) (hcore d),
    fun d => congrArg Core.evict (hcore d), fun d e hde => (hbank d e).trans (if_neg hde), (hbank c b).trans (if_pos ⟨rfl, rfl⟩)⟩

theorem claimEviction_evicts {s : State} {c b n : Nat} (hw : ∃ x ∈ s.waits.arrivals, x.1 = (c, b, n)) (h : ∀ a, ¬CommandWaits s c b n a)
    (he : Evictable (s.pane c b n)) : ∃ t, exec (.claimEviction c b n) s = .next t ∧ Evicts s t c b n :=
  ⟨_, (exec_claimEviction_of_waited hw).trans (congrArg _ (evictNext_of_no_command h)), evict_evicts he⟩

end Sys2Proof.Machine
end

section
/-! Refresh (O44): what ticks, forced refreshes and the deadline trap do (R79-R84), with bond repairs (R352) and walks (R289). -/

namespace Sys2Proof.Machine

-- As in the files above: the whole text compiles near the memory limit of its check.
set_option Elab.async false

/-! ## When a core refreshes itself (R83) -/

/-- NAP, or the part is SHUTTERED. -/
def RefreshesItself (s : State) (c : Nat) : Prop := (s.core c).power = .nap ∨ 6 ≤ s.power.depth

theorem selfRefresh_iff (s : State) (c : Nat) : s.selfRefresh c = true ↔ RefreshesItself s c := by
  simp only [State.selfRefresh, RefreshesItself, Bool.or_eq_true, beq_iff_eq, decide_eq_true_eq]

/-- Debts come due to the thread of a bank. -/
def DebtsFall (s : State) (c : Nat) : Prop := ¬RefreshesItself s c ∧ (s.core c).power ≠ .doze

theorem owes_iff (s : State) (c : Nat) : s.owes c = true ↔ DebtsFall s c := by
  simp only [State.owes, DebtsFall, ← selfRefresh_iff, Bool.and_eq_true, Bool.not_eq_true', bne_iff_ne, Bool.not_eq_true]

/-- The sg of a pane is in a transition. -/
def SgMoves (p : Pane) : Prop := p.st ∈ [PaneState.opening, .writing, .closing] ∨ p.busy = true

theorem Pane.moving_iff (p : Pane) : p.moving = true ↔ SgMoves p := by
  cases h : p.st <;> simp [Pane.moving, SgMoves, h]

/-! ## Debts (R79, R82) -/

/-- The debt of sg n becomes f of it; the others stay. -/
def Debts (n : Nat) (f : Nat → Nat) (x y : Bank) : Prop := ∀ g, y.debtOf g = if g = n then f (x.debtOf g) else x.debtOf g

/-- Only the debt of sg n changes, by f. -/
def OwesOnly (n : Nat) (f : Nat → Nat) (x y : Bank) : Prop := Debts n f x y ∧ { y with debt := x.debt } = x

theorem Bank.debtOf_setDebt (x : Bank) (n v g : Nat) : (x.setDebt n v).debtOf g = if g = n then v else x.debtOf g :=
  look_put 0 x.debt n g v

theorem owesOnly_setDebt {x : Bank} {n v : Nat} {f : Nat → Nat} (h : v = f (x.debtOf n)) : OwesOnly n f x (x.setDebt n v) := by
  refine ⟨fun g => ?_, rfl⟩
  rw [x.debtOf_setDebt]
  split
  · next hg => rw [hg, h]
  · rfl

/-- A forced refresh of sg n, whose pane is p: the debt is paid, it counts, an open pane goes to slot 5 (R82). -/
def ForcedOnly (p : Pane) (n : Nat) (x y : Bank) : Prop :=
  Debts n (fun _ => 0) x y ∧ { y with debt := x.debt, forced := x.forced, slots := x.slots } = x ∧ y.forced = x.forced + 1 ∧
    ∀ g j, j < 8 →
      (p.park = false ∧ p.st ∈ [PaneState.openClean, .openDirty] ∧ g = n ∧ j = 5 → y.slot g j = { x.slot n 5 with img := some p.img }) ∧
      (¬(p.park = false ∧ p.st ∈ [PaneState.openClean, .openDirty] ∧ g = n ∧ j = 5) → y.slot g j = x.slot g j)

/-- One bank of a forced refresh. -/
def Bank.refreshed (x : Bank) (n : Nat) : Bank :=
  let y := if (x.pane n).isOpen && !(x.pane n).park then x.shutImage n 5 else x
  { y.setDebt n 0 with forced := y.forced + 1 }

theorem forceRefresh_eq (s : State) (c b n : Nat) : s.forceRefresh c b n = s.modBank c b (fun x => x.refreshed n) := rfl

/-- A refresh is forced in no transition, so a pane that holds content is open. -/
theorem isOpen_iff {p : Pane} (h : ¬SgMoves p) : (p.isOpen && !p.park) = true ↔ p.park = false ∧ p.st ∈ [PaneState.openClean, .openDirty] := by
  cases hst : p.st <;> simp_all [SgMoves, Pane.isOpen]

theorem forcedOnly_refreshed {x : Bank} {n : Nat} (h : ¬SgMoves (x.pane n)) : ForcedOnly (x.pane n) n x (x.refreshed n) := by
  unfold Bank.refreshed
  by_cases ho : ((x.pane n).isOpen && !(x.pane n).park) = true
  · have hopen := (isOpen_iff h).mp ho
    simp only [if_pos ho]
    refine ⟨x.debtOf_setDebt n 0, rfl, rfl, fun g j hj => ?_⟩
    have hslot : (x.shutImage n 5).slot g j = if g = n ∧ j = 5 then { x.slot n 5 with img := some (x.pane n).img } else x.slot g j :=
      x.slot_setSlot n g _ (by decide) hj
    exact ⟨fun ⟨_, _, hg⟩ => hslot.trans (if_pos hg), fun hn => hslot.trans (if_neg fun hg => hn ⟨hopen.1, hopen.2, hg⟩)⟩
  · have hopen := mt (isOpen_iff h).mpr ho
    simp only [if_neg ho]
    exact ⟨x.debtOf_setDebt n 0, rfl, rfl, fun g j _ => ⟨fun ⟨h1, h2, _⟩ => absurd ⟨h1, h2⟩ hopen, fun _ => rfl⟩⟩

/-- The debt that a forced refresh pays may have been another one. -/
theorem ForcedOnly.of_setDebt {x y : Bank} {p : Pane} {n v : Nat} (h : ForcedOnly p n (x.setDebt n v) y) : ForcedOnly p n x y := by
  obtain ⟨hdebt, hrest, hcount, hslot⟩ := h
  refine ⟨fun g => ?_, congrArg (fun z : Bank => { z with debt := x.debt }) hrest, hcount, hslot⟩
  rw [hdebt g]
  split
  · rfl
  · next hg => rw [x.debtOf_setDebt, if_neg hg]

/-! ## Ticks and forced refreshes -/

section
variable {s : State} {c b n : Nat}

theorem oneBank_setDebt {v : Nat} {f : Nat → Nat} (h : v = f ((s.bank c b).debtOf n)) :
    OneBank s (s.modBank c b (fun x => x.setDebt n v)) c b (OwesOnly n f) :=
  oneBank_modBank (owesOnly_setDebt h)

theorem exec_forcedRefresh_of_due (ho : s.seatOfBank c b ≠ none) (hf : DebtsFall s c) (hd : 8 ≤ (s.bank c b).debtOf n)
    (hm : ¬SgMoves (s.pane c b n)) : exec (.forcedRefresh c b n) s = .next (s.forceRefresh c b n) := by
  show execForcedRefresh c b n s = _
  rw [execForcedRefresh, if_pos]
  simp [Option.isSome_iff_ne_none, (owes_iff s c).mpr hf, hd, mt (Pane.moving_iff _).mp hm, ho]

theorem exec_forcedRefresh_of_not_due (h : s.seatOfBank c b = none ∨ ¬DebtsFall s c ∨ (s.bank c b).debtOf n < 8 ∨ SgMoves (s.pane c b n)) :
    exec (.forcedRefresh c b n) s = .next s := by
  show execForcedRefresh c b n s = _
  rw [execForcedRefresh, if_neg]
  rw [← owes_iff, ← Pane.moving_iff] at h
  simp only [Bool.and_eq_true, Option.isSome_iff_ne_none, decide_eq_true_eq, Bool.not_eq_true']
  rintro ⟨⟨⟨ho, hf⟩, hd⟩, hm⟩
  rcases h with h | h | h | h
  · exact ho h
  · exact h hf
  · omega
  · exact absurd h (by simp [hm])

theorem forceRefresh_forces (h : ¬SgMoves (s.pane c b n)) : OneBank s (s.forceRefresh c b n) c b (ForcedOnly (s.pane c b n) n) :=
  oneBank_modBank (forcedOnly_refreshed h)

theorem exec_refreshTick (hc : c < 1536) (hb : b < 16) (hn : n < 12) : exec (.refreshTick c b n) s = .next (s.refreshTick c b n) := by
  show execRefreshTick c b n s = _
  rw [execRefreshTick, if_pos ⟨hc, hb, hn⟩]

theorem refreshTick_of_self (h : RefreshesItself s c) : s.refreshTick c b n = s := by
  rw [State.refreshTick, if_pos ((selfRefresh_iff s c).mpr h)]

/-- The tick that brings a debt to 8 forces a refresh of a thread without a handler, unless the sg is in a transition (R81). -/
theorem tickForces_iff (s : State) (c b n : Nat) (v : Word) :
    let t := s.modBank c b (fun x => x.setDebt n (min 15 (x.debtOf n + 1)))
    (v = 0 && decide (8 ≤ (t.bank c b).debtOf n) && !(t.pane c b n).moving) = true ↔
      v = 0 ∧ 7 ≤ (s.bank c b).debtOf n ∧ ¬SgMoves (s.pane c b n) := by
  intro t
  have hdebt : (t.bank c b).debtOf n = min 15 ((s.bank c b).debtOf n + 1) := by
    rw [State.bank_modBank_same, Bank.debtOf_setDebt, if_pos rfl]
  have hpane : t.pane c b n = s.pane c b n := by
    unfold State.pane
    rw [State.bank_modBank_same]
    rfl
  have h7 : 8 ≤ min 15 ((s.bank c b).debtOf n + 1) ↔ 7 ≤ (s.bank c b).debtOf n := by omega
  rw [hdebt, hpane, ← Pane.moving_iff]
  simp only [Bool.and_eq_true, decide_eq_true_eq, Bool.not_eq_true', Bool.not_eq_true, h7, and_assoc]

variable (hself : ¬RefreshesItself s c)
include hself

theorem refreshTick_of_paid (h : s.seatOfBank c b = none ∨ (s.core c).power = .doze) :
    s.refreshTick c b n = s.modBank c b (fun x => x.setDebt n 0) := by
  rw [State.refreshTick, if_neg (mt (selfRefresh_iff s c).mp hself)]
  split
  · rfl
  · next ho => rw [if_pos (beq_iff_eq.mpr (h.resolve_left (by simp [ho])))]

variable {o : Nat × Seat} (ho : s.seatOfBank c b = some o) (hdoze : (s.core c).power ≠ .doze)
include ho hdoze

/-- A tick that adds to the debt: at 8 a thread without a handler is refreshed by force (R79, R81). -/
theorem refreshTick_of_owed : s.refreshTick c b n =
    let t := s.modBank c b (fun x => x.setDebt n (min 15 (x.debtOf n + 1)))
    if o.2.tvec = 0 && decide (8 ≤ (t.bank c b).debtOf n) && !(t.pane c b n).moving then t.forceRefresh c b n else t := by
  rw [State.refreshTick, if_neg (mt (selfRefresh_iff s c).mp hself)]
  simp only [ho, beq_iff_eq, if_neg hdoze]

theorem tick_adds (h : o.2.tvec ≠ 0 ∨ (s.bank c b).debtOf n < 7 ∨ SgMoves (s.pane c b n)) :
    OneBank s (s.refreshTick c b n) c b (OwesOnly n (fun d => min 15 (d + 1))) := by
  rw [refreshTick_of_owed hself ho hdoze]
  dsimp only
  rw [if_neg]
  · exact oneBank_modBank (owesOnly_setDebt rfl)
  · refine mt (tickForces_iff ..).mp ?_
    rintro ⟨hv, hd, hm⟩
    rcases h with h | h | h
    · exact h hv
    · omega
    · exact hm h

theorem tick_forces (hv : o.2.tvec = 0) (hd : 7 ≤ (s.bank c b).debtOf n) (hm : ¬SgMoves (s.pane c b n)) :
    OneBank s (s.refreshTick c b n) c b (ForcedOnly (s.pane c b n) n) := by
  rw [refreshTick_of_owed hself ho hdoze]
  dsimp only
  rw [if_pos ((tickForces_iff ..).mpr ⟨hv, hd, hm⟩)]
  refine OneBank.modBank (oneBank_setDebt (f := fun d => min 15 (d + 1)) rfl) (fun x => x.refreshed n) ?_
  rw [State.bank_modBank_same]
  exact (forcedOnly_refreshed (x := (s.bank c b).setDebt n _) hm).of_setDebt

end

/-! ## The deadline trap (R81) -/

/-- The first of a rising list that satisfies a condition is the least that does. -/
theorem find?_eq_some_of_least {α : Type} {r : α → α → Prop} {p : α → Bool} {l : List α} {x : α} (hl : l.Pairwise r) (hx : x ∈ l)
    (hp : p x = true) (hmin : ∀ y ∈ l, p y = true → ¬r y x) : l.find? p = some x := by
  induction l with
  | nil => cases hx
  | cons y l ih =>
    rw [List.pairwise_cons] at hl
    rw [List.find?_cons]
    rcases List.mem_cons.mp hx with rfl | hx
    · rw [hp]
    · have hy : p y = false := Bool.eq_false_iff.mpr fun hy => hmin y (.head l) hy (hl.1 x hx)
      rw [hy]
      exact ih hl.2 hx fun z hz => hmin z (.tail y hz)

/-- The lowest bank of a part, and in it the lowest sg, whose debt has reached 8. -/
theorem overdue_eq {s : State} {c b g : Nat} {p : Part} (ho : DebtsFall s c) (hb : b ∈ banksOf p.active) (hg : g < 12)
    (hd : 8 ≤ (s.bank c b).debtOf g)
    (hmin : ∀ k ∈ banksOf p.active, ∀ m, m < 12 → 8 ≤ (s.bank c k).debtOf m → b < k ∨ (b = k ∧ g ≤ m)) :
    s.overdue c p = some (b, g) := by
  have hbanks : (banksOf p.active).Pairwise (· < ·) := List.Pairwise.filter _ List.pairwise_lt_range
  rw [State.overdue, if_neg (by simp [(owes_iff s c).mpr ho])]
  refine find?_eq_some_of_least (r := fun x y : Nat × Nat => x.1 < y.1 ∨ (x.1 = y.1 ∧ x.2 < y.2)) ?_ ?_ (decide_eq_true hd) ?_
  · rw [List.pairwise_flatMap]
    refine ⟨fun k _ => ?_, hbanks.imp fun hlt x hx y hy => ?_⟩
    · rw [List.pairwise_map]
      exact List.pairwise_lt_range.imp fun h => .inr ⟨rfl, h⟩
    · simp only [List.mem_map] at hx hy
      obtain ⟨_, _, rfl⟩ := hx
      obtain ⟨_, _, rfl⟩ := hy
      exact .inl hlt
  · simp only [List.mem_flatMap, List.mem_map, List.mem_range]
    exact ⟨b, hb, g, hg, rfl⟩
  · rintro ⟨k, m⟩ hkm hdue hlt
    simp only [List.mem_flatMap, List.mem_map, List.mem_range] at hkm
    obtain ⟨k', hk, m', hm, h⟩ := hkm
    cases h
    have hleast := hmin k hk m hm (of_decide_eq_true hdue)
    dsimp only at hlt
    omega

theorem overdue_eq_none {s : State} {c : Nat} (h : ¬DebtsFall s c) (p : Part) : s.overdue c p = none := by
  rw [State.overdue, if_pos]
  simpa using mt (owes_iff s c).mp h

theorem deadlineOpen_of {t : Seat} (hcc : t.isCC = false) (hv : t.tvec ≠ 0) (hhold : t.status.hold = false) (hlvl : t.status.lvl = false)
    (hhandler : t.handler = none) (hphase : t.phase = .issuing) : deadlineOpen t = true := by
  simpa [deadlineOpen, hcc, hhold, hlvl, hhandler, hphase] using hv

theorem deadlineOpen_of_hold {t : Seat} (h : t.status.hold = true) : deadlineOpen t = false := by
  simp [deadlineOpen, h]

theorem core_of_agentOfBank {s : State} {c b : Nat} {a : Agent} (h : s.agentOfBank c b = some a) : a.core = c := by
  simp only [State.agentOfBank, Option.bind_eq_some_iff, Option.map_eq_some_iff] at h
  obtain ⟨_, _, _, _, rfl⟩ := h
  rfl

theorem rowsBegun_of_moving {s : State} {a : Agent} (h : ¬Calm s a.core (banksOf (s.part a).active)) : s.rowsBegun a = true := by
  have hmove : rowsMoving (s.focusOn a) (banksOf (s.part a).active) = true :=
    (Bool.not_eq_false _).mp (mt (rowsMoving_focusOn s a _).mp h)
  exact Bool.or_eq_true_iff.mpr (.inr hmove)

theorem rowsBegun_eq_false {s : State} {a : Agent} (h : Calm s a.core (banksOf (s.part a).active))
    (hb : (s.part a).begun = 0 ∨ ∀ d e m, (s.part a).wait ≠ some (.pane d e m)) : s.rowsBegun a = false := by
  have hrow : (s.part a).rowBegun = false := by
    unfold Part.rowBegun
    split
    · next d e m hw => rw [hb.resolve_right fun h => h d e m hw]; rfl
    · exact Bool.and_false _
  exact Bool.or_eq_false_iff.mpr ⟨hrow, (rowsMoving_focusOn s a _).mpr h⟩

section
variable {s : State} {c b stop : Nat} {a : Agent} (ha : s.agentOfBank c b = some a)
include ha

theorem exec_refreshDeadlineTrap_of_due {x : Nat × Nat} (hx : s.deadlineDue a = some x) (hp : s.power.phase = 0) (hr : s.rowsBegun a = false) :
    exec (.refreshDeadlineTrap c b stop) s = .next (s.interrupt a stop (fun s => s.deadline a x)) := by
  show execRefreshDeadlineTrap c b stop s = _
  simp [execRefreshDeadlineTrap, ha, hx, hp, hr]

theorem exec_refreshDeadlineTrap_of_held (h : s.deadlineDue a = none ∨ s.power.phase ≠ 0 ∨ s.rowsBegun a = true) :
    exec (.refreshDeadlineTrap c b stop) s = .next s := by
  show execRefreshDeadlineTrap c b stop s = _
  simp only [execRefreshDeadlineTrap, ha]
  cases hx : s.deadlineDue a with
  | none => rfl
  | some x =>
    rw [hx] at h
    simp [h.resolve_left (by simp)]
end

/-- A part between convoys is at a boundary, and no trap of its own comes due there (R345). -/
theorem interrupt_of_no_convoy {s : State} (h : s.fpart.convoy = none) (stop : Nat) {take : State → State} (ht : (take s).focus = s.focus) :
    s.interrupt s.focus stop take = take s := by
  have hcurrent : s.current = none := by rw [State.current, h]; rfl
  have hown : s.ownTrap = none := by rw [State.ownTrap, hcurrent]
  have hbound : s.toBoundary stop = (s, true) := by rw [State.toBoundary, h]
  have hgo : s.interrupt s.focus stop take = { take s with focus := s.focus } := by
    unfold State.interrupt State.asAgent
    simp only [hown, hbound, if_true]
  rw [hgo, ← ht]

/-- What an asynchronous stop keeps for a part's return (R156, R347, R350). -/
def Part.keptAt (p : Part) : Option Kept :=
  if p.begun = 0 ∧ p.joinId = none ∧ p.stored = [] then none else some ⟨p.pc, p.begun, p.joinId, p.stored⟩

theorem stopped_of_no_convoy {p : Part} (h : p.convoy = none) : p.stopped = { p with kept := p.keptAt } := by
  have hx : p.restartXidx = p.xidx := by rw [Part.restartXidx, h]
  simp [Part.stopped, Part.keptAt, hx, and_assoc]

theorem late_of_no_convoy {p : Part} (h : p.convoy = none) : p.late = [] := by rw [Part.late, h]

theorem deadline_enters {s : State} (hc : s.fpart.convoy = none) (hh : HasHandler s) (x : Nat × Nat) :
    EntersHandler (s.modPart s.focus (fun p => { p with kept := p.keptAt })) (s.deadline s.focus x) 0x18 1 (paneTval x.2 x.1) s.fpart.pc
      s.fpart.xidx := by
  have hstop : s.modPart s.focus Part.stopped = s.modPart s.focus (fun p => { p with kept := p.keptAt }) :=
    congrArg (s.setPart s.focus) (stopped_of_no_convoy hc)
  unfold State.deadline
  rw [hstop]
  set u := s.modPart s.focus (fun p => { p with kept := p.keptAt }) with hu
  have hpart : u.part u.focus = { s.fpart with kept := s.fpart.keptAt } := s.part_modPart s.focus _
  have hseat : u.fseat = s.fseat.setPart? s.focus.seq (some { s.fpart with kept := s.fpart.keptAt }) := s.seat_setPart s.focus _
  have hset : Settled u := by
    unfold Settled
    rw [hpart]
    exact late_of_no_convoy hc
  have henters := takeTrap_enters hset (by rw [HasHandler, hseat]; exact hh) 0x18 (paneTval x.2 x.1) s.fpart.pc none (fun _ => rfl)
  rw [hpart] at henters
  exact henters

/-- The trap is due to the part in focus, which stands between convoys. -/
theorem refreshDeadlineTrap_enters {s : State} {c b stop : Nat} {x : Nat × Nat} (ha : s.agentOfBank c b = some s.focus)
    (hc : s.fpart.convoy = none) (hh : HasHandler s) (hx : s.deadlineDue s.focus = some x) (hp : s.power.phase = 0)
    (hr : s.rowsBegun s.focus = false) : ∃ t, exec (.refreshDeadlineTrap c b stop) s = .next t ∧
      EntersHandler (s.modPart s.focus (fun p => { p with kept := p.keptAt })) t 0x18 1 (paneTval x.2 x.1) s.fpart.pc s.fpart.xidx := by
  have henters := deadline_enters hc hh x
  have hfocus : (s.deadline s.focus x).focus = s.focus := by
    have hrest := congrArg State.focus henters.rest
    exact hrest
  refine ⟨_, ?_, henters⟩
  rw [exec_refreshDeadlineTrap_of_due ha hx hp hr, interrupt_of_no_convoy hc stop hfocus]

/-! ## Temperature (R79) and bond repairs (R352) -/

theorem exec_tempSensorUpdate (s : State) {c b : Nat} (hc : c < 1536) (hb : b < 16) (hot : Bool) :
    exec (.tempSensorUpdate c b hot) s = .next (s.modBank c b (fun x => { x with hot := hot })) := by
  show execTempSensorUpdate c b hot s = _
  rw [execTempSensorUpdate, if_pos ⟨hc, hb⟩]

theorem logError_recorded (s : State) {typ sev : BitVec 8} (hsev : sev.toNat < 2) (plane : BitVec 8) (loc cause : BitVec 32)
    (addr index : Word) :
    { s.logError typ sev plane loc cause addr index with log := s.log } = s ∧
      Recorded s (s.logError typ sev plane loc cause addr index) typ sev := by
  have hlow : ¬2 ≤ sev.toNat := by omega
  unfold State.logError State.logRec
  rw [if_neg hlow]
  exact ⟨rfl, fun _ => rfl, _, by simp [State.raiseHealth, State.appendRec]; rfl, rfl, rfl, rfl, rfl⟩

/-- A repair counts in its core and is recorded; no bank changes. -/
theorem bondRepaired (s : State) (c : Nat) :
    let t := (s.modCore c (fun x => { x with bondrep := x.bondrep + 1 })).logError 0x05 1 planeData (locOf c 0 0) 0 0 0
    { t with cores := s.cores, log := s.log } = s ∧ Recorded s t 0x05 1 ∧ (∀ d e, t.bank d e = s.bank d e) ∧
      ∀ d, t.core d = { s.core d with bondrep := (s.core d).bondrep + if d = c then 1 else 0 } := by
  intro t
  set u := s.modCore c (fun x => { x with bondrep := x.bondrep + 1 }) with hu
  obtain ⟨hrest, hrec⟩ := logError_recorded u (typ := 0x05) (sev := 1) (by decide) planeData (locOf c 0 0) 0 0 0
  have hcore : ∀ d, t.core d = u.core d := fun d => congrArg (look Core.empty · d) (congrArg State.cores hrest :)
  refine ⟨congrArg (fun v : State => { v with cores := s.cores }) hrest, hrec, fun d e => ?_, fun d => ?_⟩
  · unfold State.bank
    rw [hcore, hu]
    exact State.bank_modCore s c d e _ fun _ => rfl
  · rw [hcore, hu, State.core_modCore]
    split <;> rfl

theorem exec_bondRepair (s : State) {c : Nat} (hc : c < 1536) : exec (.bondRepair c) s = .next
    ((s.modCore c (fun x => { x with bondrep := x.bondrep + 1 })).logError 0x05 1 planeData (locOf c 0 0) 0 0 0) := by
  show execBondRepair c s = _
  rw [execBondRepair, if_pos hc]

/-! ## Translation walks (R289) -/

theorem fillTlb_of_ok {s : State} {k : Ctx} {va : Nat} {r : Word × Bool} (h : walkFrom s va 4 0 (ptbrRoot k.ptbr) = .ok r) : s.fillTlb k va =
    s.modQuad (tlbQuad k.core) (fun q => { q with tlb := ((tlbOf k va r) :: q.tlb.filter (fun e => e != tlbOf k va r)).take 4096 }) := by
  rw [State.fillTlb, h]

theorem fillTlb_of_not_ok {s : State} {k : Ctx} {va : Nat} (h : ∀ r, walkFrom s va 4 0 (ptbrRoot k.ptbr) ≠ .ok r) : s.fillTlb k va = s := by
  unfold State.fillTlb
  split
  · next r hr => exact absurd hr (h r)
  · rfl

/-- A walk fills the cache of its quad: its entry first, then others that were there (R289). -/
theorem fillTlb_fills {s : State} {k : Ctx} {va : Nat} {r : Word × Bool} (h : walkFrom s va 4 0 (ptbrRoot k.ptbr) = .ok r) :
    let t := s.fillTlb k va
    let quad := tlbQuad k.core
    { t with quads := s.quads } = s ∧ (∀ q, q ≠ quad → t.quad q = s.quad q) ∧
      { t.quad quad with tlb := (s.quad quad).tlb } = s.quad quad ∧ (t.quad quad).tlb.head? = some (tlbOf k va r) ∧ ∀ e ∈ (t.quad quad).tlb.tail, e ∈ (s.quad quad).tlb := by
  have hquad : ∀ q, (s.fillTlb k va).quad q = if q = tlbQuad k.core then
      { s.quad (tlbQuad k.core) with
        tlb := ((tlbOf k va r) :: (s.quad (tlbQuad k.core)).tlb.filter (fun e => e != tlbOf k va r)).take 4096 } else s.quad q := fun q => by
    rw [fillTlb_of_ok h]
    exact s.quad_setQuad _ q _
  refine ⟨by rw [fillTlb_of_ok h]; rfl, fun q hq => by rw [hquad, if_neg hq], ?_⟩
  rw [hquad, if_pos rfl]
  exact ⟨rfl, rfl, fun e he => List.mem_of_mem_filter (List.mem_of_mem_take he)⟩

section
variable {s : State} {c b : Nat} {va : BitVec 64} {a : Agent} (ha : s.agentOfBank c b = some a)
include ha

theorem exec_translationWalkEnd_of_mapped (hva : va.toNat < directBase) (hcc : (ctxOf s a).isCC = false) :
    exec (.translationWalkEnd c b va) s = .next (s.fillTlb (ctxOf s a) va.toNat) := by
  show execTranslationWalkEnd c b va s = _
  have h56 : va.toNat < 2 ^ 56 := by unfold directBase at hva; omega
  have hwin : ¬windowBase ≤ va.toNat := by unfold directBase at hva; unfold windowBase; omega
  simp only [execTranslationWalkEnd, ha]
  rw [if_neg]
  simpa [hwin, hva, hcc] using h56

theorem exec_translationWalkEnd_of_not_ok (h : ∀ r, walkFrom s va.toNat 4 0 (ptbrRoot (ctxOf s a).ptbr) ≠ .ok r) :
    exec (.translationWalkEnd c b va) s = .next s := by
  show execTranslationWalkEnd c b va s = _
  simp only [execTranslationWalkEnd, ha, fillTlb_of_not_ok h, ite_self]
end

/-- Settles O44: transitions, claim evictions, ticks and forced refreshes, the deadline trap, sensors and repairs, walks, each by its rule above. -/
theorem paneAndRefreshEventsChangeTheirBank : Obligations.PaneAndRefreshEventsChangeTheirBank := by
  intro s c b n p x open_ moving waited settled command owner self_ owing becomes still debts owes forced
  refine ⟨fun q hq => ⟨fun hp hst => ?_, fun hp hst => ?_⟩, fun hp => ⟨?_, ?_, fun hbusy => ?_, fun hbusy => ?_⟩,
    exec_claimEviction_of_not_waited, fun hw a ha => claimEviction_resumes hw ha, claimEviction_still, fun hw hno hopen hpins hpark => ?_,
    fun hc hb hn => ⟨fun hself => ?_, fun hself hpaid => ?_, fun hself o ho hdoze => ⟨fun h => ?_, fun hv hd hm => ?_⟩⟩,
    fun ho hf hd hm => ?_, exec_forcedRefresh_of_not_due, ?_, ?_, ?_, ?_, ?_⟩
  · refine ⟨_, exec_transitionEnd hp q hq, ?_⟩
    rw [endTransition_eq, if_pos ⟨hst, hp⟩]
    exact oneBank_setPane ..
  · refine (exec_transitionEnd hp q hq).trans ?_
    rw [endTransition_eq, if_neg fun h => hst h.1]
  · exact congrArg _ (endTransition_of_parked hp _)
  · exact congrArg _ (endTransition_of_parked hp _)
  · exact (execClosingEnd_of_parked hp).trans (congrArg _ (if_neg (Bool.eq_false_iff.mp hbusy)))
  · exact ⟨_, (execClosingEnd_of_parked hp).trans (congrArg _ (if_pos hbusy)), oneBank_setPane ..⟩
  · obtain ⟨t, ht, hrest, hwaits, hcore, hcount, hothers, hparked⟩ := claimEviction_evicts hw hno ⟨hopen, hpins, hpark⟩
    refine ⟨t, ht, hrest, hwaits, hcore, hcount, hothers, ?_⟩
    rw [hparked]
    exact ⟨parkPane_paneOnly x n, fun g j hj => slot_parkPane x n g hj⟩
  · exact (exec_refreshTick hc hb hn).trans (congrArg _ (refreshTick_of_self hself))
  · refine ⟨_, exec_refreshTick hc hb hn, ?_⟩
    rw [refreshTick_of_paid hself hpaid]
    exact oneBank_setDebt (f := fun _ => 0) rfl
  · exact ⟨_, exec_refreshTick hc hb hn, tick_adds hself ho hdoze h⟩
  · exact ⟨_, exec_refreshTick hc hb hn, tick_forces hself ho hdoze hv hd hm⟩
  · exact ⟨_, exec_forcedRefresh_of_due ho hf hd hm, forceRefresh_forces hm⟩
  · intro stop a g ha hfocus hconvoy hh hcc hhold hlvl hhandler hphase hf hpow hbegun hcalm hg hb hd hmin join kept
    subst hfocus
    have hdue : s.deadlineDue s.focus = some (b, g) := by
      rw [State.deadlineDue, if_pos (deadlineOpen_of hcc hh.1 hhold hlvl hhandler hphase)]
      exact overdue_eq (core_of_agentOfBank ha ▸ hf) hb hg hd hmin
    exact refreshDeadlineTrap_enters ha hconvoy hh hdue hpow (rowsBegun_eq_false hcalm hbegun)
  · rintro stop a ha (hhold | hpow | ⟨hcore, hf⟩ | ⟨k, hk, m, hm, hmove⟩)
    · exact exec_refreshDeadlineTrap_of_held ha (.inl (if_neg (by simp [deadlineOpen_of_hold hhold])))
    · exact exec_refreshDeadlineTrap_of_held ha (.inr (.inl hpow))
    · exact exec_refreshDeadlineTrap_of_held ha (.inl (by rw [State.deadlineDue, overdue_eq_none (hcore ▸ hf), ite_self]))
    · exact exec_refreshDeadlineTrap_of_held ha (.inr (.inr (rowsBegun_of_moving fun h => h k hk m hm hmove)))
  · exact fun hc hb hot => ⟨_, exec_tempSensorUpdate s hc hb hot, oneBank_modBank rfl⟩
  · exact fun hc => ⟨_, exec_bondRepair s hc, bondRepaired s c⟩
  · intro va a ha k quad
    refine ⟨fun r hr hva hcc => ?_, fun hr => exec_translationWalkEnd_of_not_ok ha hr⟩
    exact ⟨_, exec_translationWalkEnd_of_mapped ha hva hcc, fillTlb_fills hr⟩

end Sys2Proof.Machine
end

section
/-! Encodings (O58, O59): the decoder's tables read every encoding, the tail parcels hold the tail bits (R86, R91), and so decoding is the inverse
of encoding. -/

namespace Sys2Proof

-- Proofs elaborated side by side each hold a thread's stack, and the whole text compiles near the memory limit of its check.
set_option Elab.async false

/-! ## The decoder's tables (R105) -/

open Laws.Reads in
/-- The tables of the decoder read every encoding as its instruction, under the tail length of the opcode's form (R92, R105). -/
theorem reads_encode (i : Instr) : Statement i :=
  Instr.rec (motive := Statement)
    nop brk ifence tend tyield rel echo claim eret trap sjoin j jl jr jlr bEq bNe bLt bGe bLtu bGeu bany ball split getc setc rnd add sub
    mul mulh mulhu div divu rem remu and or xor andn sll srl sra rol ror slt sltu min max minu maxu fsl fsr csel clz ctz popc sextB sextH
    sextW zextB zextH zextW bswap addi andi ori xori slli srli srai slti sltiu li lih ldB ldBu ldH ldHu ldW ldWu ldD ldAcqW ldAcqD stB stH
    stW stD stRelW stRelD amoAdd amoAnd amoOr amoXor amoMin amoMax amoMinu amoMaxu amoSwap amoFadd amoCas push pop faddF32 fsubF32 fmulF32
    fdivF32 fsqrtF32 fminF32 fmaxF32 feqF32 fltF32 fleF32 fclassF32 fnegF32 fabsF32 fmaF32 fmsF32 faddF64 fsubF64 fmulF64 fdivF64 fsqrtF64
    fminF64 fmaxF64 feqF64 fltF64 fleF64 fclassF64 fnegF64 fabsF64 fmaF64 fmsF64 fcvtF32I64 fcvtF32N64 fcvtI64F32 fcvtN64F32 fcvtF64I64
    fcvtF64N64 fcvtI64F64 fcvtN64F64 fcvtF64F32 fcvtF32F64 fcvtBf16F32 fcvtF32Bf16 amov aset aadd amovs aaddi smine act actz wb wbto pre
    rcopy rfsh shut reopen pstat rshufRot rshufXor rshufRev rshufBcast vadd vsub vmul vfma vfms vfnma vmin vmax vabs vneg vdiv vsqrt vrcp
    vrsq vexp2 vlog2 vmulh vadds vsubs vand vor vxor vnot vandn vsll vsrl vsra vfsl vfsr vclz vpopc vcmpEq vcmpNe vcmpLt vcmpLe vcmpGt
    vcmpGe mand mor mxor mnot mpopc mfirst vsel vmov vbcast vslideUp vslideDn vcompress vidx vcvt vwfma vdot vqenc vqdec vredSum vredMax
    vredMin vredAnd vredOr vgmax vscan vld vlds vldx vst vsts vstx vstb vldl vstc vspill vfill vlq cpy cpy2d rsct coll red gath nmo mmma
    mdrain mattach mdetach mshape mzero kwait kwaitNt kpoll kcancel kdetach kadopt kprio kinfo fence xfence fbar bwait ipost iwait await
    tspawn launch tlbinv issueAfterInterlock openingEnd writingEnd closingEnd claimEviction refreshTick refreshDeadlineTrap forcedRefresh
    tempSensorUpdate bondRepair translationWalkEnd kwaitEnd awaitRecheck bwaitEnd fbarArrive iwaitEnd tendWaitEnd mdetachWaitEnd
    mzeroWaitEnd xfenceWaitEnd fifoWaitEnd opStart copyGranule rsctTrain collGranule redGranule gathGranule nmoGranule mmmaKstep
    mdrainGranule enginePriorityAging launchStart tspawnStart taskReady dispatchOffer preemptionTake preemptHandlerTimeout seatSave
    schedulerStateError vote voteTimeout sramModeWrite sramFifoClr sramModeChangeEnd migreqPromote migreqDemote migrationStart
    migrationFinish migrationAutoSelect flitTransmit flitReceive ackTimeout strandDeath linkTimeout peerTimeout linkTrainingEnd
    lnkctlEnSet lnkctlEnClear lnkctlRetrain lnkctlParkWrite wavelengthWakeEnd peerFailedClear lqQuiet lqcfgWrite lattolWrite coreIdleEntry
    coreDozeEntry stackNapEntry powerWake powerExitEnd pwrcmdShutter pwrcmdResume pwrcmdResumeDiscard platformPowerEvent supplyDip
    supplyFail shutterPhase1 shutterPhase2 shutterPhase3 shutterGranuleTimeout shutterPhase4 shutterLinkTimeout shutterPhase5
    resumptionEnd autoResume dutyUpdate powerFloorTimeout pcapWrite thrFloorWrite mgmtTelemetry telemetrySnapshot mgmtLogExport
    mgmtFirmware mgmtPowerCap mgmtShutter mgmtOff mgmtQuarantine mgmtMemoryRead elpostAppend quarWrite powerOnReset bootFirmwareLoad
    bootSillInit bootOsLoad bootStep5Timeout ccstart ccbootDone ccbarCountWrite ccTimer lcmdPause lcmdResume lcmdCancel lcmdExport
    lcmdRetarget lcmdComplete ctxPoolWrite registerWrite supplySteady wavelengthDark seatFormingEnd i

/-! ## Tails (R86, R93) -/

/-- The bits from bit k on are zero. -/
def FitsIn {n : Nat} (k : Nat) (x : BitVec n) : Prop := x.toNat < 2 ^ k

theorem toNat_append_eq_add {n m : Nat} (x : BitVec n) (y : BitVec m) : (x ++ y).toNat = x.toNat * 2 ^ m + y.toNat := by
  rw [BitVec.toNat_append, ← Nat.shiftLeft_add_eq_or_of_lt y.isLt, Nat.shiftLeft_eq]

theorem FitsIn.zero {n : Nat} : FitsIn 0 0#n := Nat.one_pos

theorem FitsIn.append {n m k : Nat} {x : BitVec n} {y : BitVec m} (h : FitsIn k x) : FitsIn (k + m) (x ++ y) := by
  have hx : x.toNat + 1 ≤ 2 ^ k := h
  have hy := y.isLt
  rw [FitsIn, toNat_append_eq_add, Nat.pow_add]
  nlinarith

/-- The tail bits above the tail's length are zero (R86). -/
def Enc.TailFits (e : Enc) : Prop := FitsIn (16 * e.tl.toNat) e.y

theorem fits_zero (op : BitVec 7) (x : BitVec 6) : Enc.TailFits ⟨op, x, 0, 0⟩ := Nat.one_pos

theorem fits_three (op : BitVec 7) (x : BitVec 6) (y : BitVec 48) : Enc.TailFits ⟨op, x, 3, y⟩ := y.isLt

theorem fits_packA (op : BitVec 7) (x : BitVec 6) (f : BitVec 6) (a b : BitVec 5) : Enc.TailFits ⟨op, x, 1, packA f a b⟩ :=
  show FitsIn 16 _ from FitsIn.zero.append.append.append

theorem fits_packAC (op : BitVec 7) (x : BitVec 6) (f : BitVec 6) (i : BitVec 10) : Enc.TailFits ⟨op, x, 1, packAC f i⟩ :=
  show FitsIn 16 _ from FitsIn.zero.append.append

theorem fits_packW (op : BitVec 7) (x : BitVec 6) (a : BitVec 3) (s : BitVec 5) (f k : BitVec 4) : Enc.TailFits ⟨op, x, 1, packW a s f k⟩ :=
  show FitsIn 16 _ from FitsIn.zero.append.append.append.append

theorem fits_packB (op : BitVec 7) (x : BitVec 6) (a f : BitVec 5) (i : BitVec 22) : Enc.TailFits ⟨op, x, 2, packB a f i⟩ :=
  show FitsIn 32 _ from FitsIn.zero.append.append.append

theorem fits_packJ (op : BitVec 7) (x : BitVec 6) (a b : BitVec 5) (o : BitVec 22) : Enc.TailFits ⟨op, x, 2, packJ a b o⟩ :=
  show FitsIn 32 _ from FitsIn.zero.append.append.append

theorem fits_packV (op : BitVec 7) (x : BitVec 6) (o : VOps) (f : BitVec 6) : Enc.TailFits ⟨op, x, 2, packV o f⟩ :=
  show FitsIn 32 _ from FitsIn.zero.append.append.append.append.append.append.append.append.append.append

theorem fits_packM (op : BitVec 7) (x : BitVec 6) (o : MOps) (f : BitVec 4) : Enc.TailFits ⟨op, x, 2, packM o f⟩ :=
  show FitsIn 32 _ from FitsIn.zero.append.append.append.append.append.append.append.append

/-- Every form's tail bits fit the form's parcels (R93). -/
theorem encode_fits {i : Instr} {e : Enc} (h : encode i = some e) : e.TailFits := by
  cases i <;> cases h <;>
    simp only [fits_zero, fits_three, fits_packA, fits_packAC, fits_packW, fits_packB, fits_packJ, fits_packV, fits_packM]

/-- The tail parcels of the bits y, the lowest first (R86). -/
def parcels (y : BitVec 48) : List (BitVec 16) := [y.extractLsb' 0 16, y.extractLsb' 16 16, y.extractLsb' 32 16]

theorem append_three_parcels (y : BitVec 48) : y.extractLsb' 32 16 ++ y.extractLsb' 16 16 ++ y.extractLsb' 0 16 = y := by
  apply BitVec.eq_of_toNat_eq
  rw [toNat_append_eq_add, toNat_append_eq_add]
  simp only [BitVec.extractLsb'_toNat, Nat.shiftRight_eq_div_pow]
  omega

theorem extractLsb'_of_fitsIn {n lo : Nat} {y : BitVec n} (h : FitsIn lo y) (w : Nat) : y.extractLsb' lo w = 0#w := by
  apply BitVec.eq_of_toNat_eq
  rw [BitVec.extractLsb'_toNat, Nat.shiftRight_eq_div_pow, Nat.div_eq_of_lt h, Nat.zero_mod, BitVec.toNat_ofNat, Nat.zero_mod]

theorem append_two_parcels {y : BitVec 48} (h : FitsIn 32 y) : 0#16 ++ y.extractLsb' 16 16 ++ y.extractLsb' 0 16 = y := by
  rw [← extractLsb'_of_fitsIn h 16, append_three_parcels]

theorem append_one_parcel {y : BitVec 48} (h : FitsIn 16 y) : 0#32 ++ y.extractLsb' 0 16 = y := by
  have htwo := append_two_parcels (lt_trans h (by norm_num))
  rwa [extractLsb'_of_fitsIn h 16] at htwo

/-! ## Heads (R91) -/

theorem encOfHead_headOf (cb : Bool) (e : Enc) (y : BitVec 48) : encOfHead (headOf cb e) y = { e with y := y } := by
  unfold encOfHead headOf
  congr 1
  · rw [ext_hi _ _ _ _ (by omega), ext_lo _ _ _ _ (by omega), ext_all]
  · rw [ext_lo _ _ _ _ (by omega), ext_all]
  · rw [ext_hi _ _ _ _ (by omega), ext_hi _ _ _ _ (by omega), ext_lo _ _ _ _ (by omega), ext_all]

@[simp] theorem headTl_headOf (cb : Bool) (e : Enc) : headTl (headOf cb e) = e.tl.toNat :=
  congrArg (fun d : Enc => d.tl.toNat) (encOfHead_headOf cb e 0)

@[simp] theorem headCb_headOf (cb : Bool) (e : Enc) : headCb (headOf cb e) = cb := by
  simp only [headCb, headOf, BitVec.getLsbD_append]
  cases cb <;> rfl

/-! ## Words -/

theorem encodeWords_eq {i : Instr} {e : Enc} (h : encode i = some e) (cb : Bool) :
    encodeWords cb i = headOf cb e :: (parcels e.y).take e.tl.toNat := by
  rw [encodeWords, h]
  rfl

theorem length_take_parcels (tl : BitVec 2) (y : BitVec 48) : ((parcels y).take tl.toNat).length = tl.toNat := by
  rw [List.length_take]
  exact min_eq_left (Nat.le_of_lt_succ tl.isLt)

theorem tailLength_cases (tl : BitVec 2) : tl = 0 ∨ tl = 1 ∨ tl = 2 ∨ tl = 3 := by
  revert tl
  decide

/-- The head and as many parcels as TL says are read back as the encoding (R86). -/
theorem decodeWords_encoded (cb : Bool) {e : Enc} (h : e.TailFits) :
    decodeWords (headOf cb e :: (parcels e.y).take e.tl.toNat) = decodeEnc e := by
  obtain ⟨op, x, tl, y⟩ := e
  have htl := headTl_headOf cb ⟨op, x, tl, y⟩
  have henc := encOfHead_headOf cb ⟨op, x, tl, y⟩
  obtain rfl | rfl | rfl | rfl := tailLength_cases tl
  · obtain rfl : y = 0 := BitVec.eq_of_toNat_eq (Nat.lt_one_iff.mp h)
    exact (if_pos htl).trans (congrArg _ (henc _))
  · exact (if_pos htl).trans (congrArg _ ((henc _).trans (congrArg _ (append_one_parcel h))))
  · exact (if_pos htl).trans (congrArg _ ((henc _).trans (congrArg _ (append_two_parcels h))))
  · exact (if_pos htl).trans (congrArg _ ((henc _).trans (congrArg _ (append_three_parcels y))))

/-- R92-R94: what `decodeEnc` accepts is the encoding of an instruction whose fields are in range. -/
theorem decodeEnc_ok_iff {e : Enc} {i : Instr} : decodeEnc e = .ok i ↔ encode i = some e ∧ i.formOk = true := by
  constructor
  · intro h
    unfold decodeEnc at h
    iterate 4
      split at h
      · cases h
    rename_i henc
    split at h
    case isTrue hform =>
      cases h
      exact ⟨by simpa using henc, hform⟩
    case isFalse => cases h
  · rintro ⟨henc, hform⟩
    obtain ⟨htl, hparse⟩ := reads_encode i e henc
    simp [decodeEnc, htl, hparse, henc, hform]

/-- Settles O58: `decodeEnc` is the inverse of `encode` on the fields in range, and the words hold the encoding. -/
theorem decodeOfEncodeIsTheInstruction : Obligations.DecodeOfEncodeIsTheInstruction := by
  refine ⟨fun i e cb henc hform => ?_, fun e i h => decodeEnc_ok_iff.mp h, fun i j e hi hj henc henc' => ?_⟩
  · have hdec : decodeEnc e = .ok i := decodeEnc_ok_iff.mpr ⟨henc, hform⟩
    rw [encodeWords_eq henc, decodeWords_encoded cb (encode_fits henc), List.length_cons, length_take_parcels, Nat.add_comm]
    exact ⟨hdec, hdec, rfl, congrArg some (headCb_headOf cb e)⟩
  · have hdec := decodeEnc_ok_iff.mpr ⟨henc, hi⟩
    rw [decodeEnc_ok_iff.mpr ⟨henc', hj⟩] at hdec
    cases hdec
    rfl

/-- Settles O59: each word runs through the decoder. -/
theorem wordsOfTheSpecDecode : Obligations.WordsOfTheSpecDecode := by
  unfold Obligations.WordsOfTheSpecDecode
  decide +kernel

end Sys2Proof
end

section
/-! The step of a part that issues (O56): its turn, the opening of its convoy, the checks of R95 on a head, and a line read from memory. -/

namespace Sys2Proof.Machine

-- Proofs elaborated side by side each hold a thread's stack, and the whole text compiles near the memory limit of its check.
set_option Elab.async false

/-! ## Setting what is there already -/

theorem put_of_look {α : Type} {d : α} {t : Table α} {k : Nat} (h : look d t k ≠ d) : put t k (look d t k) = t := by
  induction t with
  | nil => exact absurd rfl h
  | cons x t ih =>
    obtain ⟨j, v⟩ := x
    unfold look at h ⊢
    unfold put
    split_ifs at h ⊢ with hj hlt
    · rw [hj]
    · exact absurd rfl h
    · rw [ih h]

theorem put_of_look_some {α : Type} {t : Table (Option α)} {k : Nat} {v : α} (h : look none t k = some v) : put t k (some v) = t := by
  have hput := put_of_look (d := none) (t := t) (k := k) (by rw [h]; nofun)
  rwa [h] at hput

theorem seat?_of_mayIssue {s : State} {a : Agent} (h : s.mayIssue a = true) :
    ∃ t p, s.seat? a.core a.base = some t ∧ t.part? a.seq = some p := by
  unfold State.mayIssue at h
  split at h
  case h_1 => cases h
  case h_2 t ht =>
    simp only [Bool.and_eq_true] at h
    obtain ⟨⟨hpart, -⟩, -⟩ := h
    obtain ⟨p, hp⟩ := Option.isSome_iff_exists.mp hpart
    exact ⟨t, p, ht, hp⟩

theorem setPart_part {s : State} {a : Agent} (h : s.mayIssue a = true) : s.setPart a (s.part a) = s := by
  obtain ⟨t, p, ht, hp⟩ := seat?_of_mayIssue h
  have hseat : s.seat a = t := congrArg (Option.getD · Seat.empty) ht
  have hpart : s.part a = p := by rw [State.part, hseat, hp]; rfl
  have hcore : s.core a.core ≠ Core.empty := by
    intro hc
    rw [State.seat?, hc] at ht
    cases ht
  have hparts : t.setPart? a.seq (some p) = t := by rw [Seat.setPart?, put_of_look_some hp]
  have hseats : put (s.core a.core).seats a.base (some t) = (s.core a.core).seats := put_of_look_some ht
  have hcores : put s.cores a.core (s.core a.core) = s.cores := put_of_look hcore
  rw [State.setPart, State.modSeat, hseat, hpart, hparts, State.setSeat, State.setSeat?, State.modCore, hseats, State.setCore, hcores]

/-! ## The turn of a part that issues -/

/-- Nothing is due, and the part in focus may issue: it waits for nothing, on a core that runs. -/
def ReadyToIssue (s : State) : Prop :=
  (s.power.off = false ∧ s.due = [] ∧ s.rxq = [] ∧ s.agenda = [] ∧ s.waits.serving = [] ∧ s.waits.posted = [] ∧
    s.waits.staging = [] ∧ s.waits.reads = []) ∧
  s.mayIssue s.focus = true ∧ (s.core s.focus.core).power = .run ∧ s.fpart.wait = none

theorem ReadyToIssue.wait_none {s : State} (h : ReadyToIssue s) : s.fpart.wait = none := by
  obtain ⟨-, -, -, hwait⟩ := h
  exact hwait

/-- The outcome of a step whose turn ends in r: who waits is brought up to date. -/
def State.noted (s : State) (r : Host.Outcome State Fault Refusal) : Host.Outcome State Fault Refusal :=
  match r with
  | .next t => .next (s.noteArrivals t)
  | r => r

theorem step_eq_noted (s : State) : step s = s.noted (nextTurn s) := rfl

theorem nextTurn_of_ready {s : State} (h : ReadyToIssue s) : nextTurn s = turnOf s s.focus := by
  obtain ⟨⟨hoff, hdue, hrxq, hagenda, hserving, hposted, hstaging, hreads⟩, hissue, hpower, hwait⟩ := h
  have hown : s.ownWait = none := by simp [State.ownWait, packetWait, readWait, hposted, hrxq, hreads]
  have hfree : freeTurn s = turnOf s s.focus := by simp [freeTurn, hown, hissue, hwait]
  simp [nextTurn, State.nextDue, State.nextPosted, State.servePacket, State.nextRead, State.nextStaged, *]

theorem turnOf_of_ready {s : State} (h : ReadyToIssue s) (hb : s.fpart.convoy = none → s.boundary s.focus = none) : turnOf s s.focus = issue s := by
  obtain ⟨-, hissue, hpower, hwait⟩ := h
  have hwake : s.wakeNow s.focus.core = s := by simp [State.wakeNow, hpower]
  have hbound : (if (s.part s.focus).convoy.isNone || (s.part s.focus).wait.isSome then s.boundary s.focus else none) = none := by
    rw [show (s.part s.focus).wait = none from hwait]
    split
    case isTrue hnone => exact hb (Option.isNone_iff_eq_none.mp ((Bool.or_false _).symm.trans hnone))
    case isFalse => rfl
  have hawake : turnAwake s s.focus = issue s := by
    simp only [turnAwake, hissue, hbound]
    rfl
  unfold turnOf
  change (if ((s.core s.focus.core).power != _ && _ && _) = true then _ else turnAwake (s.wakeNow s.focus.core) s.focus) = _
  rw [hpower, hwake, hawake]
  rfl

theorem modPart_wait_none {s : State} (h : ReadyToIssue s) : s.modPart s.focus (fun p => { p with wait := none }) = s := by
  obtain ⟨-, hissue, -, hwait⟩ := h
  have hpart : { s.part s.focus with wait := none } = s.part s.focus := congrArg (fun w => { s.part s.focus with wait := w }) hwait.symm
  exact (congrArg (s.setPart s.focus) hpart).trans (setPart_part hissue)

section
variable {s t : State} (h : ReadyToIssue s) (hb : s.fpart.convoy = none → s.boundary s.focus = none)
include h hb

theorem step_eq_noted_issue : step s = s.noted (issue s) := by
  rw [step_eq_noted, nextTurn_of_ready h, turnOf_of_ready h hb]

theorem step_of_opened (ho : ensureConvoy s = .opened t) : step s = s.noted (runConvoy t) := by
  rw [step_eq_noted_issue h hb, issue, modPart_wait_none h, ho]

theorem step_of_ended (ho : ensureConvoy s = .ended t) : step s = s.noted (.next t) := by
  rw [step_eq_noted_issue h hb, issue, modPart_wait_none h, ho]

end

/-! ## The pieces of a convoy (R101) -/

theorem ensureConvoy_of_open {s : State} {c : Convoy} (h : s.fpart.convoy = some c) : ensureConvoy s = .opened s := by
  simp [ensureConvoy, h]

theorem ensureConvoy_of_none {s : State} (h : s.fpart.convoy = none) : ensureConvoy s = openConvoy s := by
  simp [ensureConvoy, h]

theorem runConvoy_of_element {s : State} {c : Convoy} {x : Word × Instr} (h : s.fpart.convoy = some c) (he : c.elems = [x]) :
    runConvoy s = exec x.2 s := by
  simp only [runConvoy, h, he]

theorem runConvoy_of_single {s : State} {c : Convoy} {x : Word × Instr} (h : s.fpart.convoy = some c) (he : c.elems = [])
    (ht : c.todo.head? = some x) : runConvoy s = exec x.2 s := by
  obtain ⟨xs, hxs⟩ := List.head?_eq_some_iff.mp ht
  simp only [runConvoy, h, he, hxs]

theorem runConvoy_of_next {s : State} {c : Convoy} {x : Word × Instr} (h : s.fpart.convoy = some c)
    (hx : c.elems = [x] ∨ (c.elems = [] ∧ c.todo.head? = some x)) : runConvoy s = exec x.2 s :=
  hx.elim (runConvoy_of_element h) fun hx => runConvoy_of_single h hx.1 hx.2

/-! ## Opening a convoy (R97-R100) -/

theorem fetched_keeps (s : State) (hs : List Head) : (s.fetched hs).cores = s.cores ∧ (s.fetched hs).focus = s.focus := by
  unfold State.fetched
  refine List.foldlRecOn _ _ (motive := fun x : State => x.cores = s.cores ∧ x.focus = s.focus) ⟨rfl, rfl⟩ fun x hx l _ => ?_
  split
  · exact ⟨(x.touch_cores _).trans hx.1, (x.touch_focus _).trans hx.2⟩
  · exact hx

theorem part_fetched (s : State) (hs : List Head) (a : Agent) : (s.fetched hs).part a = s.part a := by
  simp only [State.part, State.seat, State.seatAt, State.seat?, State.core, (fetched_keeps s hs).1]

/-- The convoy of one instruction. -/
noncomputable def oneConvoy (s : State) (h : Head) (i : Instr) (next : Word) : Convoy :=
  let p := s.fpart
  let elems := if isElement i then [(h.addr, i)] else []
  { first := p.pc, elems := elems, todo := if isElement i then [] else [(h.addr, i)], next := next, vl := p.vl, xidx := p.xidx, rm := p.rm
    mask0 := (s.fbank s.seqBank).m, whole := headCb h.head, echo := (!headCb h.head && enclosingEcho s p.pc) || i == .echo, late := [], cut := none
    done := if headCb h.head then phaseTo (convoyOps s elems) else 0 }

theorem convoyOf_one {s : State} {h : Head} {i : Instr} (next : Word) (hcb : headCb h.head = false → isElement i = false) :
    convoyOf s (headCb h.head) (!headCb h.head && enclosingEcho s s.fpart.pc) [(h.addr, i)] s.fpart.pc next = oneConvoy s h i next := by
  have helems : [(h.addr, i)].filter (fun x => isElement x.2) = if isElement i then [(h.addr, i)] else [] := by
    cases hi : isElement i <;> simp [hi]
  have htodo : [(h.addr, i)].filter (fun x => !isElement x.2) = if isElement i then [] else [(h.addr, i)] := by
    cases hi : isElement i <;> simp [hi]
  unfold convoyOf oneConvoy
  simp only [helems, htodo, List.any_cons, List.any_nil, Bool.or_false, State.maskTable]
  cases hc : headCb h.head with
  | true => rfl
  | false => rw [hcb hc]; rfl

theorem withConvoy_one {s : State} (h : Head) (i : Instr) (next : Word) (hwait : s.fpart.wait = none) :
    s.fpart.withConvoy (oneConvoy s h i next) =
      { s.fpart with pc := if isElement i then s.fpart.pc else h.addr, entry := false, convoy := some (oneConvoy s h i next) } := by
  unfold Part.withConvoy
  rw [← hwait]
  cases hi : isElement i <;> simp [oneConvoy, hi]

/-- The state in which the convoy of one instruction is open. -/
noncomputable def oneOpened (s : State) (h : Head) (i : Instr) (next : Word) : State :=
  (s.fetched [h]).setPart s.focus
    { s.fpart with pc := if isElement i then s.fpart.pc else h.addr, entry := false, convoy := some (oneConvoy s h i next) }

theorem openConvoy_one {s : State} {h : Head} {i : Instr} {next : Word} (hwait : s.fpart.wait = none)
    (hg : gatherAt s s.fctx s.fpart.pc s.fpart.entry = .ok [h] next) (hc : checkHead s h = .ok i)
    (hcb : headCb h.head = false → isElement i = false) : openConvoy s = .opened (oneOpened s h i next) := by
  have hcheck : checkHeads s [h] = .ok [(h.addr, i)] := by simp only [checkHeads, hc]
  have hbreach : firstBreach [] [(h.addr, i)] = none := rfl
  unfold openConvoy oneOpened
  simp only [hg, hcheck, hbreach]
  rw [← withConvoy_one h i next hwait, ← convoyOf_one next hcb, State.modPart, part_fetched]
  rfl

theorem fpart_oneOpened (s : State) (h : Head) (i : Instr) (next : Word) :
    (oneOpened s h i next).fpart.convoy = some (oneConvoy s h i next) := by
  have hf : (oneOpened s h i next).focus = s.focus := (fetched_keeps s [h]).2
  rw [State.fpart, hf, oneOpened, State.part_setPart]

theorem oneConvoy_next (s : State) (h : Head) (i : Instr) (next : Word) :
    (oneConvoy s h i next).elems = [(h.addr, i)] ∨
      ((oneConvoy s h i next).elems = [] ∧ (oneConvoy s h i next).todo.head? = some (h.addr, i)) := by
  cases hi : isElement i <;> simp [oneConvoy, hi]

/-! ## Traps at decode (R97, R100) -/

theorem openConvoy_of_gatherTrap {s : State} {k : BitVec 8} {v : Word} (hg : gatherAt s s.fctx s.fpart.pc s.fpart.entry = .trap k v) :
    openConvoy s = .ended (s.trapDecode k v) := by
  simp only [openConvoy, hg]

theorem openConvoy_of_checkError {s : State} {hs : List Head} {next : Word} {k : BitVec 8} {v : Word}
    (hg : gatherAt s s.fctx s.fpart.pc s.fpart.entry = .ok hs next) (hc : checkHeads s hs = .error (k, v)) :
    openConvoy s = .ended (s.trapDecode k v) := by
  simp only [openConvoy, hg, hc]

theorem openConvoy_of_breach {s : State} {hs : List Head} {next a : Word} {is : List (Word × Instr)}
    (hg : gatherAt s s.fctx s.fpart.pc s.fpart.entry = .ok hs next) (hc : checkHeads s hs = .ok is) (hb : firstBreach [] is = some a) :
    openConvoy s = .ended (s.trapDecode 0x02 a) := by
  simp only [openConvoy, hg, hc, hb]

theorem SameCores.trans_of_focus {s t u : State} (h : SameCores s t) (hf : t.focus = s.focus) (h' : SameCores t u) : SameCores s u where
  cores c := by
    have hu := congrArg (fun x : Core => { x with banks := (s.core c).banks, seats := (s.core c).seats }) (h'.cores c)
    exact hu.trans (h.cores c)
  seats c b hn := (h'.seats c b (hf ▸ hn)).trans (h.seats c b hn)

/-- Entering a handler says no more of the part than of the same part at its entry or not. -/
theorem EntersHandler.of_entry_cleared {s t : State} {k : BitVec 8} {cls : Nat} {v pc : Word} {x : Nat}
    (h : EntersHandler (s.modPart s.focus (fun p => { p with entry := false })) t k cls v pc x) : EntersHandler s t k cls v pc x := by
  set u := s.modPart s.focus (fun p => { p with entry := false })
  have hseat : u.seat s.focus = (s.seat s.focus).setPart? s.focus.seq (some { s.part s.focus with entry := false }) := s.seat_setPart s.focus _
  have hpart : u.part s.focus = { s.part s.focus with entry := false } := s.part_setPart s.focus _
  have hcores : SameCores s u := (SameCores.refl s).setPart _
  obtain ⟨rest, byte, links, cores, banks, seat, parts, part⟩ := h
  refine ⟨congrArg (fun x : State => { x with cores := s.cores }) rest, byte, ?_, hcores.trans_of_focus rfl cores,
    fun c b => (banks c b).trans (s.bank_setPart _ _ c b), ?_, fun q hq => (parts q hq).trans ?_, ?_⟩
  · exact links.trans (by rw [show u.fseat = _ from hseat]; rfl)
  · refine seat.trans ?_
    rw [show u.seat u.focus = _ from hseat, show u.part u.focus = _ from hpart]
    rfl
  · rw [show u.seat u.focus = _ from hseat, Seat.part?_setPart?, if_neg hq]
  · refine part.trans ?_
    rw [show u.seat u.focus = _ from hseat, show u.part u.focus = _ from hpart]
    rfl

/-- The handler is entered with the convoy's first head as epc, xidx as it was (R97, R100). -/
theorem trapDecode_enters {s : State} (hc : s.fpart.convoy = none) (hv : s.fseat.tvec ≠ 0)
    (hl : s.fseat.status.lvl = false) (k : BitVec 8) (v : Word) :
    EntersHandler s (s.trapDecode k v) k (classOf k).toNat v s.fpart.pc s.fpart.xidx := by
  set u := s.modPart s.focus (fun p => { p with entry := false })
  have hpart : u.part u.focus = { s.fpart with entry := false } := s.part_modPart s.focus _
  have hseat : u.fseat = s.fseat.setPart? s.focus.seq (some { s.fpart with entry := false }) := s.seat_setPart s.focus _
  have hset : Settled u := by
    rw [Settled, hpart]
    exact late_of_no_convoy hc
  have henters := takeTrap_enters hset (by rw [HasHandler, hseat]; exact ⟨hv, .inr hl⟩) k v s.fpart.pc none (fun _ => rfl)
  rw [hpart] at henters
  exact henters.of_entry_cleared

/-! ## The checks of one head (R95) -/

theorem and_not_of_eq {x y : Bool} (h : x = false ∨ y = true) : (x && !y) = false := by
  rcases h with rfl | rfl
  · exact Bool.false_and _
  · exact Bool.and_false _

theorem checkHead_of_decodeError {s : State} {h : Head} {e : DecodeError} (hd : decodeEnc (encOfHead h.head h.y) = .error e) :
    checkHead s h = .error (0x01, h.y ++ h.head) := by
  simp only [checkHead, hd]
  rfl

section
variable {s : State} {h : Head} {i : Instr} (hd : decodeEnc (encOfHead h.head h.y) = .ok i)
include hd

theorem checkHead_of_control (hcc : s.fseat.isCC = true) (hr : controlRuns (h.head.extractLsb' 6 7) i = false) :
    checkHead s h = .error (0x01, h.y ++ h.head) := by
  simp only [checkHead, hd, hcc, hr]
  rfl

variable (hr : s.fseat.isCC = false ∨ controlRuns (h.head.extractLsb' 6 7) i = true)
include hr

theorem checkHead_of_format {f : BitVec 4} (ht : i.tCode = some f) (hf : 12 < f.toNat) : checkHead s h = .error (0x01, f.setWidth 64) := by
  have hrun := and_not_of_eq hr
  simp [checkHead, hd, hrun, ht, hf]

theorem checkHead_eq_checkRest (hf : ∀ f, i.tCode = some f → f.toNat ≤ 12) : checkHead s h = checkHead.checkRest s (h.y ++ h.head) i := by
  have hrun := and_not_of_eq hr
  cases ht : i.tCode with
  | none => simp [checkHead, hd, hrun, ht, illegalTval]
  | some f => simp [checkHead, hd, hrun, ht, illegalTval, Nat.not_lt.mpr (hf f ht)]

end

section
variable {s : State} {ill : Word} {i : Instr}

theorem checkRest_of_operands {r : BitVec 8 × Word}
    (h : (vinfo i).bind (fun v => v.check s.fseat (rmField i) s.fpart.rm s.fcsrTval ill (vstcBad i)) = some r) :
    checkHead.checkRest s ill i = .error r := by
  simp only [checkHead.checkRest, h]

variable (h : (vinfo i).bind (fun v => v.check s.fseat (rmField i) s.fpart.rm s.fcsrTval ill (vstcBad i)) = none)
include h

theorem checkRest_of_privilege {r : BitVec 8 × Word} (hp : privilegeCheck s.fseat i = some r) : checkHead.checkRest s ill i = .error r := by
  simp only [checkHead.checkRest, h, hp]

theorem checkRest_of_unclaimed (hp : privilegeCheck s.fseat i = none) (hu : unclaimed s.fseat s.fpart = true) (hb : beforeClaim i = false) :
    checkHead.checkRest s ill i = .error (0x01, ill) := by
  simp [checkHead.checkRest, h, hp, hu, hb]

theorem checkRest_ok (hp : privilegeCheck s.fseat i = none) (hu : unclaimed s.fseat s.fpart = false ∨ beforeClaim i = true) :
    checkHead.checkRest s ill i = .ok i := by
  have hrun := and_not_of_eq hu
  simp [checkHead.checkRest, h, hp, hrun]

end

/-! ## Privilege and what a handler may run before claim (R77, R95, R343) -/

theorem privilegeCheck_of_supervisor {t : Seat} (h : t.status.lvl = true) (i : Instr) : privilegeCheck t i = none := by
  simp [privilegeCheck, h]

section
variable {t : Seat} (h : t.status.lvl = false)
include h

theorem privilegeCheck_of_supervisorOnly {i : Instr} (hi : i = .claim ∨ i = .eret ∨ (∃ o, i = .launch o) ∨ ∃ a b, i = .tlbinv a b) :
    privilegeCheck t i = some (0x04, 0) := by
  obtain rfl | rfl | ⟨o, rfl⟩ | ⟨a, b, rfl⟩ := hi <;> simp [privilegeCheck, h, privileged]

theorem privilegeCheck_of_systemSlot {i : Instr} {n k : BitVec 4} (hi : i = .shut n k ∨ i = .reopen n k) (hk : 5 ≤ k.toNat) :
    privilegeCheck t i = some (0x04, k.setWidth 64) := by
  obtain rfl | rfl := hi <;> simp [privilegeCheck, h, privileged, hk]

theorem privilegeCheck_of_register {i : Instr} {d : BitVec 5} {x : BitVec 10} (hi : i = .getc d x ∨ i = .setc d x)
    (hl : ctlListed t.isCC x.toNat = true) (hs : ctlSuper x.toNat = true) (hr : ∀ d, i = .setc d x → ctlReadOnly x.toNat = false) :
    privilegeCheck t i = some (0x04, x.setWidth 64) := by
  have hx : 0x10 ≤ x.toNat := of_decide_eq_true hs
  obtain rfl | rfl := hi
  · simp [privilegeCheck, h, ctlTrap_of_user hl (Bool.false_and _) hx h]
  · simp [privilegeCheck, h, ctlTrap_of_user hl (write := true) (hr d rfl) hx h]

end

/-- No element instruction is of class SC or CF, and those of class VM have the operands of a vector instruction. -/
theorem beforeClaim_of_element {i : Instr} (h : isElement i = true) : beforeClaim i = false := by
  unfold isElement elemOpOf at h
  split at h
  case h_78 => cases h -- no element instruction
  all_goals rfl

/-- Of the engine's instructions only those of a token (OP 0x5C) run before claim. -/
theorem beforeClaim_of_engine {i : Instr} {e : Enc} (he : encode i = some e) (hu : unitClass i = some .en) (hop : e.op ≠ 0x5C) :
    beforeClaim i = false := by
  unfold beforeClaim
  split
  case h_14 => rw [hu] -- decided by its class
  case h_1 | h_2 | h_3 | h_4 | h_5 => cases hu
  case h_6 | h_7 | h_8 | h_9 | h_10 | h_11 | h_12 | h_13 =>
    cases he
    cases hop rfl

/-! ## After a step (R73, R157) -/

/-- Those that wait for a claimed sg, in the order in which they came. -/
def State.claimants (t : State) : List ((Nat × Nat × Nat) × Waiter) :=
  let cs := claimsIn t.waiters
  let old := t.waits.arrivals.filter (fun x => cs.contains x)
  old ++ cs.filter (fun x => !old.contains x)

theorem noteArrivals_of_no_wake (s : State) {t : State} (h : ∀ w ∈ t.waiters, ∀ c, w.1 ≠ .wake c) : s.noteArrivals t =
    { t with waits := { t.waits with arrivals := t.claimants }, lastAmo := if t.lastAmo = s.lastAmo then none else t.lastAmo } := by
  unfold State.noteArrivals
  refine List.foldlRecOn _ _ (motive := fun x : State => x = _) rfl fun x hx w hw => ?_
  split
  next c hc => exact absurd hc (h w hw c)
  next => exact hx

/-! ## A line of one instruction (R85-R88) -/

theorem extractLsb'_of_fits {e : Enc} (h : e.TailFits) {k : Nat} (hk : e.tl.toNat ≤ k) : e.y.extractLsb' (16 * k) 16 = 0 :=
  extractLsb'_of_fitsIn (lt_of_lt_of_le h (Nat.pow_le_pow_right (by norm_num) (by omega))) 16

theorem getD_lineParcels (s : State) (pa : Nat) {j : Nat} (hj : j < 32) : (lineParcels s pa).getD j 0 = parcelAt s pa j := by
  simp [lineParcels, List.getD_eq_getElem?_getD, hj]

/-- Bits whose parcels stand at their places in the line are read back (R86). -/
theorem tailBits_eq {p : List (BitVec 16)} {e : Enc} {start : Nat} (hfit : e.TailFits)
    (h : ∀ k, k < e.tl.toNat → p.getD (start + k) 0 = e.y.extractLsb' (16 * k) 16) : tailBits p start e.tl.toNat = e.y := by
  have hq (k : Nat) : (if k < e.tl.toNat then p.getD (start + k) 0 else 0) = e.y.extractLsb' (16 * k) 16 := by
    split
    case isTrue hk => exact h k hk
    case isFalse hk => exact (extractLsb'_of_fits hfit (Nat.le_of_not_lt hk)).symm
  simp only [tailBits, hq]
  exact append_three_parcels e.y

theorem tailBits_zero (p : List (BitVec 16)) (start : Nat) : tailBits p start 0 = 0 := by
  simp only [tailBits, Nat.not_lt_zero, if_false]
  rfl

theorem headCb_nop : headCb 0x8000 = true := by decide

theorem headTl_nop : headTl 0x8000 = 0 := rfl

theorem lineHeads_of_one {line : Nat} {p : List (BitVec 16)} {e : Enc} (hfit : e.TailFits) (h0 : p.getD 0 0 = 2)
    (h1 : p.getD 1 0 = headOf true e) (h2 : p.getD 2 0 = 0x8000)
    (htail : ∀ k, k < e.tl.toNat → p.getD (32 - e.tl.toNat + k) 0 = e.y.extractLsb' (16 * k) 16)
    (hzero : ∀ j, 3 ≤ j → j < 32 - e.tl.toNat → p.getD j 0 = 0) :
    lineHeads line p = some [⟨BitVec.ofNat 64 (line + 2), headOf true e, e.y⟩, ⟨BitVec.ofNat 64 (line + 4), 0x8000, 0⟩] := by
  have htl : e.tl.toNat ≤ 3 := Nat.le_of_lt_succ e.tl.isLt
  have htails : ((List.range 2).map (fun j => headTl (p.getD (j + 1) 0))).foldl (· + ·) 0 = e.tl.toNat := by
    simp only [List.range_succ, List.range_zero, List.nil_append, List.map_append, List.map_cons, List.map_nil, List.foldl_append, List.foldl_cons,
      List.foldl_nil, Nat.zero_add, h1, h2, headTl_headOf, headTl_nop, Nat.add_zero]
  have hgap : ((p.drop (2 + 1)).take (31 - 2 - e.tl.toNat)).any (· != 0) = false := by
    rw [List.any_eq_false]
    intro x hx
    obtain ⟨k, hk, rfl⟩ := List.mem_iff_getElem.mp hx
    simp only [List.length_take, List.length_drop] at hk
    have hz := hzero (3 + k) (by omega) (by omega)
    rw [List.getD_eq_getElem _ _ (by omega)] at hz
    simp [hz]
  unfold lineHeads
  rw [h0, show (2 : BitVec 16).toNat = 2 from rfl]
  simp only [htails, hgap]
  rw [if_neg (by simp; omega), if_neg (by simp)]
  simp only [headsFrom, h1, h2, headTl_headOf, headTl_nop, tailBits_eq hfit htail, tailBits_zero]

theorem drop_encodeWords {i : Instr} {e : Enc} (h : encode i = some e) (cb : Bool) :
    (encodeWords cb i).drop 1 = (parcels e.y).take e.tl.toNat := by
  rw [encodeWords_eq h, List.drop_one, List.tail_cons]

theorem getElem?_take_parcels {tl : BitVec 2} (y : BitVec 48) {k : Nat} (hk : k < tl.toNat) :
    ((parcels y).take tl.toNat)[k]? = some (y.extractLsb' (16 * k) 16) := by
  rw [List.getElem?_take_of_lt hk]
  match k, lt_of_lt_of_le hk (Nat.le_of_lt_succ tl.isLt) with
  | 0, _ => rfl
  | 1, _ => rfl
  | 2, _ => rfl

/-- R85-R88: a line that holds the head and the tail of an instruction with CB, and a nop with CB. -/
theorem readLine_of_one {s : State} {e : Enc} {line pa : Nat} (hfit : e.TailFits) (hpa : fetchPa s s.fctx line = .ok pa) (h0 : s.peek pa 2 = 2)
    (h1 : s.peek (pa + 2) 2 = (headOf true e).toNat) (h2 : s.peek (pa + 4) 2 = 0x8000)
    (htail : ∀ k, k < e.tl.toNat → s.peek (pa + 64 - 2 * e.tl.toNat + 2 * k) 2 = (e.y.extractLsb' (16 * k) 16).toNat)
    (hzero : ∀ j, 3 ≤ j → j < 32 - e.tl.toNat → s.peek (pa + 2 * j) 2 = 0) :
    readLine s s.fctx line =
      .heads [⟨BitVec.ofNat 64 (line + 2), headOf true e, e.y⟩, ⟨BitVec.ofNat 64 (line + 4), 0x8000, 0⟩] := by
  have htl : e.tl.toNat ≤ 3 := Nat.le_of_lt_succ e.tl.isLt
  have hparcel {j v : Nat} (hj : j < 32) (h : s.peek (pa + 2 * j) 2 = v) : (lineParcels s pa).getD j 0 = BitVec.ofNat 16 v := by
    rw [getD_lineParcels s pa hj, parcelAt, h]
  have hheads : lineHeads line (lineParcels s pa) = _ := lineHeads_of_one hfit (hparcel (by norm_num) h0)
    ((hparcel (by norm_num) h1).trans (BitVec.ofNat_toNat ..)) (hparcel (by norm_num) h2) (fun k hk => ?_)
    fun j hj hlt => hparcel (by omega) (hzero j hj hlt)
  · simp only [readLine, hpa, hheads]
  · have hplace : pa + 2 * (32 - e.tl.toNat + k) = pa + 64 - 2 * e.tl.toNat + 2 * k := by omega
    exact (hparcel (by omega) (hplace ▸ htail k hk)).trans (BitVec.ofNat_toNat ..)

theorem convoySpan_of_cb {h : Head} (hcb : headCb h.head = true) (hs : List Head) : convoySpan (h :: hs) = ([], h :: hs) := by
  simp [convoySpan, hcb]

/-- R97: the first head of a line is a convoy by itself when the second begins one. -/
theorem gatherAt_of_two {s : State} {line : Nat} {h n : Head} (entry : Bool) (halign : line % 64 = 0) (hline : line < 2 ^ 56)
    (hread : readLine s s.fctx line = .heads [h, n]) (hcb : headCb h.head = true) (hncb : headCb n.head = true) :
    gatherAt s s.fctx (BitVec.ofNat 64 (line + 2)) entry = .ok [h] n.addr := by
  have hpc : (BitVec.ofNat 64 (line + 2)).toNat = line + 2 := by
    rw [BitVec.toNat_ofNat]
    omega
  have heven : (BitVec.ofNat 64 (line + 2)).getLsbD 0 = false := by
    rw [BitVec.getLsbD, hpc, Nat.testBit_zero]
    exact decide_eq_false (by omega)
  have hlineOf : lineOf (BitVec.ofNat 64 (line + 2)) = line := by
    rw [lineOf, hpc]
    omega
  have hhead : headNo (BitVec.ofNat 64 (line + 2)) = 1 := by
    rw [headNo, hpc]
    omega
  rw [gatherAt, heven, hlineOf, hread]
  simp [hhead, hcb, convoySpan_of_cb hncb]

/-- What decoding gives passes the checks that the premises name (R95, R343). -/
theorem checkHead_ok {s : State} {i : Instr} {e : Enc} (a : Word) (cb : Bool) (henc : encode i = some e) (hform : i.formOk = true)
    (hrun : s.fseat.isCC = false ∨ controlRuns e.op i = true) (hfmt : ∀ t, i.tCode = some t → t.toNat ≤ 12)
    (hops : (vinfo i).bind (fun v => v.check s.fseat (rmField i) s.fpart.rm s.fcsrTval (e.y ++ headOf cb e) (vstcBad i)) = none)
    (hpriv : privilegeCheck s.fseat i = none) (hclaim : unclaimed s.fseat s.fpart = false ∨ beforeClaim i = true) :
    checkHead s ⟨a, headOf cb e, e.y⟩ = .ok i := by
  have henc' : encOfHead (headOf cb e) e.y = e := encOfHead_headOf cb e e.y
  have hop : (headOf cb e).extractLsb' 6 7 = e.op := congrArg Enc.op henc'
  have hd : decodeEnc (encOfHead (headOf cb e) e.y) = .ok i := by
    rw [henc']
    exact decodeEnc_ok_iff.mpr ⟨henc, hform⟩
  have hrun' : s.fseat.isCC = false ∨ controlRuns ((headOf cb e).extractLsb' 6 7) i = true := hop.symm ▸ hrun
  exact (checkHead_eq_checkRest (h := ⟨a, headOf cb e, e.y⟩) hd hrun' hfmt).trans (checkRest_ok hops hpriv hclaim)

/-- Settles O56: the turn of the part in focus, the opening of its convoy, and the checks of its heads, each by its rule above. -/
theorem stepRunsTheDecodedInstruction : Obligations.StepRunsTheDecodedInstruction := by
  unfold Obligations.StepRunsTheDecodedInstruction
  intro quiet ready around
  refine ⟨?_, ?_, ?_, ?_, ?_, ?_, ?_⟩
  · intro s h next i p c hr hb hn hg hc hcb
    have hopen : ensureConvoy s = .opened (oneOpened s h i next) :=
      (ensureConvoy_of_none hn).trans (openConvoy_one (ReadyToIssue.wait_none hr) hg hc hcb)
    rw [step_of_opened hr (fun _ => hb) hopen, runConvoy_of_next (fpart_oneOpened s h i next) (oneConvoy_next s h i next)]
    rfl
  · intro s c x hr hcv hx
    rw [step_of_opened hr (fun hn => by rw [hn] at hcv; cases hcv) (ensureConvoy_of_open hcv), runConvoy_of_next hcv hx]
    rfl
  · intro s k v hr hb hn p stops
    have hstops (k : BitVec 8) (v : Word) (ho : openConvoy s = .ended (s.trapDecode k v)) : stops k v :=
      ⟨_, step_of_ended hr (fun _ => hb) ((ensureConvoy_of_none hn).trans ho), fun _ hv hl => trapDecode_enters hn hv hl k v⟩
    exact ⟨fun hg => hstops k v (openConvoy_of_gatherTrap hg), fun hs next hg => ⟨fun hc => hstops k v (openConvoy_of_checkError hg hc),
      fun is a hc hbr => hstops 0x02 a (openConvoy_of_breach hg hc hbr)⟩⟩
  · intro s h i t ill user stops
    refine ⟨fun e he => checkHead_of_decodeError he, fun hd => ⟨fun hcc hrun => checkHead_of_control hd hcc hrun, fun hrun =>
      ⟨fun f hf hlt => checkHead_of_format hd hrun hf hlt, fun hfmt => ?_⟩⟩⟩
    have hrest := checkHead_eq_checkRest hd hrun hfmt
    intro checks
    refine ⟨fun k v hck => hrest.trans (checkRest_of_operands hck),
      fun hck hu hi => hrest.trans (checkRest_of_privilege hck (privilegeCheck_of_supervisorOnly hu hi)),
      fun hck hu n k hi hk => hrest.trans (checkRest_of_privilege hck (privilegeCheck_of_systemSlot hu hi hk)),
      fun hck hu d x hi hl hs hro => hrest.trans (checkRest_of_privilege hck (privilegeCheck_of_register hu hi hl hs hro)),
      fun hck hsup hcc hh hclm hi => hrest.trans (checkRest_of_unclaimed hck (privilegeCheck_of_supervisor hsup i) ?_ ?_)⟩
    · rw [unclaimed, hcc, hh, hclm]
      rfl
    · obtain ⟨henc, -⟩ := decodeEnc_ok_iff.mp hd
      obtain hi | ⟨hcls, hop⟩ | ⟨n, a, rfl⟩ | ⟨n, rfl⟩ | ⟨n, rfl⟩ := hi
      · exact beforeClaim_of_element hi
      · exact beforeClaim_of_engine henc hcls hop
      all_goals rfl
  · exact fun s t h => ⟨_, noteArrivals_of_no_wake s h⟩
  · intro s i e line pa p pc ws halign hline hpc henc hform hpa h0 h1 h2 htail hzero
    have hread := readLine_of_one (encode_fits henc) hpa h0 h1 h2 (fun k hk => ?_) hzero
    · rw [hpc, show pc + 2 = BitVec.ofNat 64 (line + 4) from (BitVec.ofNat_add (line + 2) 2).symm]
      exact gatherAt_of_two p.entry halign hline hread (headCb_headOf true e) headCb_nop
    · rw [htail k hk, drop_encodeWords henc, getElem?_take_parcels _ hk]
      rfl
  · intro s i e a cb henc hform hrun hfmt hops hpriv hclaim
    refine checkHead_ok a cb henc hform ?_ hfmt ?_ hpriv hclaim
    · cases hcc : s.fseat.isCC with
      | true => exact .inr (hrun hcc)
      | false => exact .inl rfl
    · cases hv : vinfo i with
      | none => rfl
      | some v => exact hops v hv

end Sys2Proof.Machine
end

section
/-! Scalar integers (O1, O2): the results of R134 to R139 as numbers, shifts of double words and counts of bits. -/

namespace Sys2Proof.Machine

-- Proofs elaborated side by side each hold a thread's stack, and the whole text compiles near the memory limit of its check.
set_option Elab.async false

/-- As `writesReg_of`, the value being written in another way. -/
theorem writesReg_as {s : State} (hs : Settled s) {i : Instr} {d : BitVec 5} {f g : Bank → Word} (hi : exec i s = s.setReg d f)
    (h : ∀ x, f x = g x) : WritesReg i s d g := by
  obtain rfl : f = g := funext h
  exact writesReg_of hs hi

theorem shiftCount_eq (x : Word) : shiftCount x = x.toNat % 64 := by
  simp [shiftCount]

theorem shiftCount_lt (x : Word) : shiftCount x < 64 := by
  rw [shiftCount_eq]
  omega

theorem ofInt_toInt (a : Word) : BitVec.ofInt 64 a.toInt = a := BitVec.ofInt_toInt

/-! ## Sums, products and quotients (R134, R135) -/

theorem sub_eq_ofInt (a b : Word) : a - b = BitVec.ofInt 64 (a.toInt - b.toInt) := by
  apply BitVec.eq_of_toInt_eq
  rw [BitVec.toInt_sub, BitVec.toInt_ofInt]

theorem divSigned_eq (a b : Word) : divSigned a b =
    if b = 0 then (if 0 ≤ a.toInt then 0x7FFFFFFFFFFFFFFF else 0x8000000000000000)
    else if a.toInt = -(2 ^ 63) ∧ b.toInt = -1 then 0x7FFFFFFFFFFFFFFF else BitVec.ofInt 64 (Int.tdiv a.toInt b.toInt) := by
  have ha : a = 0x8000000000000000 ↔ a.toInt = -(2 ^ 63) := (BitVec.toInt_inj (x := a) (y := 0x8000000000000000)).symm
  have hb : b = BitVec.allOnes 64 ↔ b.toInt = -1 := (BitVec.toInt_inj (x := b) (y := BitVec.allOnes 64)).symm
  simp only [divSigned, ha, hb]
  by_cases h0 : a.toInt < 0
  · simp only [if_pos h0, if_neg (not_le.2 h0)]
  · simp only [if_neg h0, if_pos (not_lt.1 h0)]

/-! ## Shifts (R134, R136, R138) -/

theorem shiftLeft_eq_ofNat (a : Word) (c : Nat) : a <<< c = BitVec.ofNat 64 (a.toNat * 2 ^ c) := by
  apply BitVec.eq_of_toNat_eq
  rw [BitVec.toNat_shiftLeft, Nat.shiftLeft_eq, BitVec.toNat_ofNat]

theorem ushiftRight_eq_ofNat (a : Word) (c : Nat) : a >>> c = BitVec.ofNat 64 (a.toNat / 2 ^ c) := by
  rw [← Nat.shiftRight_eq_div_pow, ← BitVec.toNat_ushiftRight, BitVec.ofNat_toNat, BitVec.setWidth_eq]

theorem sshiftRight_eq_ofInt (a : Word) (c : Nat) : a.sshiftRight c = BitVec.ofInt 64 (a.toInt / 2 ^ c) := by
  rw [BitVec.sshiftRight, Int.shiftRight_eq_div_pow]
  norm_cast

theorem funnelLeft_eq (a b : Word) {c : Nat} (h : c < 64) : funnelLeft a b c = ((a ++ b) <<< c).extractLsb' 64 64 := by
  apply BitVec.eq_of_getLsbD_eq
  intro i hi
  unfold funnelLeft
  split
  next h0 => simp only [h0, BitVec.shiftLeft_zero, BitVec.getLsbD_extractLsb', BitVec.getLsbD_append, hi]; simp
  next h0 =>
    simp only [BitVec.getLsbD_or, BitVec.getLsbD_shiftLeft, BitVec.getLsbD_ushiftRight, BitVec.getLsbD_extractLsb', BitVec.getLsbD_append, hi]
    by_cases hc : i < c
    · simp [hc, show ¬ 64 + i < c by omega, show 64 + i < 128 by omega, show 64 + i - c < 64 by omega, show 64 - c + i = 64 + i - c by omega]
    · simp [hc, show ¬ 64 + i < c by omega, show 64 + i < 128 by omega, show ¬ 64 + i - c < 64 by omega, show 64 + i - c - 64 = i - c by omega,
        BitVec.getLsbD_of_ge b (64 - c + i) (by omega)]

theorem funnelRight_eq (a b : Word) {c : Nat} (h : c < 64) : funnelRight a b c = ((a ++ b) >>> c).extractLsb' 0 64 := by
  apply BitVec.eq_of_getLsbD_eq
  intro i hi
  unfold funnelRight
  split
  next h0 => simp only [h0, BitVec.ushiftRight_zero, BitVec.getLsbD_extractLsb', BitVec.getLsbD_append, hi]; simp [hi]
  next h0 =>
    simp only [BitVec.getLsbD_or, BitVec.getLsbD_shiftLeft, BitVec.getLsbD_ushiftRight, BitVec.getLsbD_extractLsb', BitVec.getLsbD_append, hi]
    by_cases hc : c + i < 64
    · simp [hc, show i < 64 - c by omega]
    · simp [hc, show ¬ i < 64 - c by omega, show i - (64 - c) = c + i - 64 by omega, BitVec.getLsbD_of_ge b (c + i) (by omega)]

theorem rotateLeft_eq_funnelLeft (a : Word) {c : Nat} (h : c < 64) : a.rotateLeft c = funnelLeft a a c := by
  rw [BitVec.rotateLeft_eq_rotateLeftAux_of_lt h, BitVec.rotateLeftAux, funnelLeft]
  split
  next h0 => simp [h0, BitVec.ushiftRight_eq_zero]
  next => rfl

theorem rotateRight_eq_funnelRight (a : Word) {c : Nat} (h : c < 64) : a.rotateRight c = funnelRight a a c := by
  rw [BitVec.rotateRight_eq_rotateRightAux_of_lt h, BitVec.rotateRightAux, funnelRight]
  split
  next h0 => simp [h0]
  next => rfl

/-! ## Comparisons (R134) -/

theorem ofBool_decide (p : Prop) [Decidable p] : ofBool (decide p) = if p then 1 else 0 := by
  simp [ofBool]

theorem min_signed (a b : Word) : (if a.slt b then a else b) = BitVec.ofInt 64 (min a.toInt b.toInt) := by
  rw [min_def, apply_ite (BitVec.ofInt 64), ofInt_toInt, ofInt_toInt, BitVec.slt]
  by_cases h : a.toInt < b.toInt
  · simp [h, h.le]
  · rcases (not_lt.1 h).eq_or_lt with h' | h'
    · simp [BitVec.toInt_inj.1 h']
    · simp [h, not_le.2 h']

theorem max_signed (a b : Word) : (if a.slt b then b else a) = BitVec.ofInt 64 (max a.toInt b.toInt) := by
  rw [max_def, apply_ite (BitVec.ofInt 64), ofInt_toInt, ofInt_toInt, BitVec.slt]
  by_cases h : a.toInt < b.toInt
  · simp [h, h.le]
  · rcases (not_lt.1 h).eq_or_lt with h' | h'
    · simp [BitVec.toInt_inj.1 h']
    · simp [h, not_le.2 h']

theorem min_unsigned (a b : Word) : (if a.ult b then a else b) = BitVec.ofNat 64 (min a.toNat b.toNat) := by
  apply BitVec.eq_of_toNat_eq
  rw [apply_ite BitVec.toNat, BitVec.ult, BitVec.toNat_ofNat, Nat.mod_eq_of_lt (by omega)]
  simp only [decide_eq_true_eq]
  split <;> omega

theorem max_unsigned (a b : Word) : (if a.ult b then b else a) = BitVec.ofNat 64 (max a.toNat b.toNat) := by
  apply BitVec.eq_of_toNat_eq
  rw [apply_ite BitVec.toNat, BitVec.ult, BitVec.toNat_ofNat, Nat.mod_eq_of_lt (by omega)]
  simp only [decide_eq_true_eq]
  split <;> omega

/-- Settles O1: each instruction writes its function of the operands in every active bank; the functions are those of R134 to R136. -/
theorem integerResults : Obligations.IntegerResults := by
  intro s d a b hs
  exact ⟨writesReg_as hs rfl fun x => by simp [BitVec.ofNat_add],
    writesReg_as hs rfl fun x => sub_eq_ofInt _ _,
    writesReg_as hs rfl fun x => by simp [BitVec.ofInt_mul],
    writesReg_of hs rfl, writesReg_of hs rfl,
    writesReg_as hs rfl fun x => divSigned_eq _ _,
    writesReg_of hs rfl, writesReg_of hs rfl, writesReg_of hs rfl,
    writesReg_of hs rfl, writesReg_of hs rfl, writesReg_of hs rfl, writesReg_of hs rfl,
    writesReg_as hs rfl fun x => by rw [shiftLeft_eq_ofNat, shiftCount_eq],
    writesReg_as hs rfl fun x => by rw [ushiftRight_eq_ofNat, shiftCount_eq],
    writesReg_as hs rfl fun x => by rw [sshiftRight_eq_ofInt, shiftCount_eq],
    writesReg_as hs rfl fun x => by rw [rotateLeft_eq_funnelLeft _ (shiftCount_lt _), funnelLeft_eq _ _ (shiftCount_lt _), shiftCount_eq],
    writesReg_as hs rfl fun x => by rw [rotateRight_eq_funnelRight _ (shiftCount_lt _), funnelRight_eq _ _ (shiftCount_lt _), shiftCount_eq],
    writesReg_as hs rfl fun x => ofBool_decide _,
    writesReg_as hs rfl fun x => ofBool_decide _,
    writesReg_as hs rfl fun x => min_signed _ _,
    writesReg_as hs rfl fun x => max_signed _ _,
    writesReg_as hs rfl fun x => min_unsigned _ _,
    writesReg_as hs rfl fun x => max_unsigned _ _,
    writesReg_as hs rfl fun x => by rw [funnelLeft_eq _ _ (shiftCount_lt _), shiftCount_eq],
    writesReg_as hs rfl fun x => by rw [funnelRight_eq _ _ (shiftCount_lt _), shiftCount_eq],
    writesReg_of hs rfl⟩

/-! ## Counts of bits (R137) -/

theorem leadingZeros_le (n : Nat) : leadingZeros 64 n ≤ 64 := by
  unfold leadingZeros
  split <;> omega

/-- The bits of a word above its leading one are 0 and that one is 1. -/
theorem leadingZeros_bits (v : Word) :
    (∀ i, 64 ≤ i + leadingZeros 64 v.toNat → v.getLsbD i = false) ∧
      (leadingZeros 64 v.toNat < 64 → v.getLsbD (63 - leadingZeros 64 v.toNat) = true) := by
  unfold leadingZeros
  split
  next h0 =>
    obtain rfl : v = 0 := BitVec.eq_of_toNat_eq h0
    simp
  next h0 =>
    have hlog : Nat.log2 v.toNat < 64 := (Nat.log2_lt h0).2 v.isLt
    refine ⟨fun i hi => ?_, fun _ => ?_⟩
    · exact Nat.testBit_lt_two_pow (Nat.lt_of_lt_of_le Nat.lt_log2_self (Nat.pow_le_pow_right (by decide) (by omega)))
    · rw [show 63 - (64 - 1 - Nat.log2 v.toNat) = Nat.log2 v.toNat by omega]
      exact Nat.testBit_log2 h0

theorem trailingZeros_le (w n : Nat) : trailingZeros w n ≤ w := by
  induction w generalizing n with
  | zero => simp [trailingZeros]
  | succ w ih =>
    have := ih (n / 2)
    unfold trailingZeros
    split <;> omega

/-- The bits of a number below its lowest one are 0 and that one is 1. -/
theorem trailingZeros_bits (w n : Nat) :
    (∀ i, i < trailingZeros w n → n.testBit i = false) ∧ (trailingZeros w n < w → n.testBit (trailingZeros w n) = true) := by
  induction w generalizing n with
  | zero => simp [trailingZeros]
  | succ w ih =>
    obtain ⟨below, at0⟩ := ih (n / 2)
    unfold trailingZeros
    split
    next h1 => simp [Nat.testBit_zero, h1]
    next h1 =>
      refine ⟨fun i hi => ?_, fun hw => ?_⟩
      · cases i with
        | zero => simp [Nat.testBit_zero, h1]
        | succ i =>
          rw [Nat.testBit_succ]
          exact below i (by omega)
      · rw [Nat.add_comm, Nat.testBit_succ]
        exact at0 (by omega)

theorem ones_eq (w n : Nat) : ones w n = ((List.range w).filter (fun i => n.testBit i)).length := by
  induction w generalizing n with
  | zero => rfl
  | succ w ih =>
    have hmap : (List.range w).filter ((fun i => n.testBit i) ∘ Nat.succ) = (List.range w).filter (fun i => (n / 2).testBit i) :=
      List.filter_congr fun i _ => Nat.testBit_succ n i
    rw [ones, ih, List.range_succ_eq_map, List.filter_cons, List.filter_map, hmap, Nat.testBit_zero]
    split
    next h1 => 
      rw [List.length_cons, List.length_map, of_decide_eq_true h1, Nat.add_comm]
    next h1 =>
      rw [List.length_map, show n % 2 = 0 by simpa using h1, Nat.zero_add]

theorem setWidth_zext (a : Word) (n : Nat) : (a.extractLsb' 0 n).setWidth 64 = BitVec.ofNat 64 (a.toNat % 2 ^ n) := by
  rw [setWidth_eq_ofNat, BitVec.extractLsb'_toNat, Nat.shiftRight_zero]

theorem extractLsb'_byteSwap (v : Word) {k : Nat} (h : k < 8) : (byteSwap v).extractLsb' (8 * k) 8 = v.extractLsb' (8 * (7 - k)) 8 := by
  change BitVec.extractLsb' (n := 8 + 8 + 8 + 8 + 8 + 8 + 8 + 8) (8 * k) 8
    (v.extractLsb' 0 8 ++ v.extractLsb' 8 8 ++ v.extractLsb' 16 8 ++ v.extractLsb' 24 8 ++ v.extractLsb' 32 8 ++
      v.extractLsb' 40 8 ++ v.extractLsb' 48 8 ++ v.extractLsb' 56 8) = _
  interval_cases k <;> simp (disch := omega) only [BitVec.extractLsb'_append_eq_of_le, BitVec.extractLsb'_append_eq_of_add_le] <;>
    exact BitVec.extractLsb'_eq_self

theorem toNat_ofNat_of_le {n : Nat} (h : n ≤ 64) : (BitVec.ofNat 64 n).toNat = n := by
  rw [BitVec.toNat_ofNat, Nat.mod_eq_of_lt (by omega)]

/-! ## Immediates (R138, R139) -/

theorem immB_toInt (i : BitVec 22) : (immB i).toInt = i.toInt := BitVec.toInt_signExtend_of_le (by decide)

theorem shiftImm_formOk {d a : BitVec 5} {i : BitVec 22} (h : 63 < i.toNat) :
    (Instr.slli d a i).formOk = false ∧ (Instr.srli d a i).formOk = false ∧ (Instr.srai d a i).formOk = false := by
  have : decide (i.toNat ≤ 63) = false := decide_eq_false (by omega)
  exact ⟨this, this, this⟩

/-- Settles O2: a count is given by what it counts, and each immediate instruction is a function of its operand. -/
theorem unaryAndImmediateResults : Obligations.UnaryAndImmediateResults := by
  refine ⟨fun s d a hs => ?_, fun s d a i v hs => ?_⟩
  · refine ⟨⟨fun v => BitVec.ofNat 64 (leadingZeros 64 v.toNat), writesReg_of hs rfl, fun v => ?_⟩,
      ⟨fun v => BitVec.ofNat 64 (trailingZeros 64 v.toNat), writesReg_of hs rfl, fun v => ?_⟩,
      writesReg_as hs rfl fun x => by rw [ones_eq]; rfl,
      writesReg_of hs rfl,
      writesReg_of hs rfl, writesReg_of hs rfl,
      writesReg_as hs rfl fun x => setWidth_zext _ 8, writesReg_as hs rfl fun x => setWidth_zext _ 16, writesReg_as hs rfl fun x => setWidth_zext _ 32,
      ⟨byteSwap, writesReg_of hs rfl, fun v k hk => extractLsb'_byteSwap v hk⟩⟩
    · simp only [toNat_ofNat_of_le (leadingZeros_le v.toNat)]
      exact ⟨leadingZeros_le v.toNat, leadingZeros_bits v⟩
    · simp only [toNat_ofNat_of_le (trailingZeros_le 64 v.toNat)]
      exact ⟨trailingZeros_le 64 v.toNat, trailingZeros_bits 64 v.toNat⟩
  · exact ⟨writesReg_as hs rfl fun x => by rw [← immB_toInt, BitVec.ofInt_add, ofInt_toInt, ofInt_toInt],
      writesReg_of hs rfl, writesReg_of hs rfl, writesReg_of hs rfl,
      fun _ => ⟨writesReg_as hs rfl fun x => shiftLeft_eq_ofNat _ _, writesReg_as hs rfl fun x => ushiftRight_eq_ofNat _ _,
        writesReg_as hs rfl fun x => sshiftRight_eq_ofInt _ _⟩,
      shiftImm_formOk,
      writesReg_as hs rfl fun x => by rw [← immB_toInt]; exact ofBool_decide _,
      writesReg_as hs rfl fun x => ofBool_decide _,
      writesReg_of hs rfl, writesReg_of hs rfl⟩

end Sys2Proof.Machine
end

section
/-! Scalar floats that round (O3): one list of the forms and their results. -/

namespace Sys2Proof.Machine

-- Proofs elaborated side by side each hold a thread's stack, and the whole text compiles near the memory limit of its check.
set_option Elab.async false

/-- sD := the result, its flags accrued, in every active bank. -/
theorem writesFloat_of {s : State} (hs : Settled s) {i : Instr} {d : BitVec 5} {f : Bank → Word × BitVec 5} (hi : exec i s = plainOp s d f) :
    WritesFloat i s d f := by
  obtain ⟨t, ht, ha, hp, hb⟩ := perBank_next hs (fun x => (x.ws d (f x).1).accrue (f x).2)
  exact ⟨t, hi.trans ht, ha, hp, onBanks_of hb fun _ x => regAndFlags_ws d (f x) x⟩

/-- In a mode below 5 a rounding instruction writes what it gives in that mode (R21). -/
theorem writesFloat_of_rounding {s : State} (hs : Settled s) {i : Instr} {d : BitVec 5} {f : RMode → Bank → Word × BitVec 5}
    (hm : s.fpart.rmNow.toNat < 5) (hi : exec i s = roundingOp s d f) : WritesFloat i s d (f (rmodeOf s.fpart.rmNow)) :=
  writesFloat_of hs (hi.trans (if_neg (not_le.2 hm)))

theorem roundingOp_traps {s : State} (hm : 5 ≤ s.fpart.rmNow.toNat) (d : BitVec 5) (f : RMode → Bank → Word × BitVec 5) :
    roundingOp s d f = .next (s.trapSingle 0x01 (fcsrWord s.fpart.rmNow (s.fbank s.seqBank).flags)) := if_pos hm

/-- The scalar float instructions that round, each with its result (R140, R141, R143). -/
def roundingForms (d a b : BitVec 5) : List (Instr × (RMode → Bank → Word × BitVec 5)) :=
  [(.faddF32 d a b, fun m x => fpAdd f32Fmt m (x.rs a) (x.rs b)),
    (.fsubF32 d a b, fun m x => fpSub f32Fmt m (x.rs a) (x.rs b)),
    (.fmulF32 d a b, fun m x => fpMul f32Fmt m (x.rs a) (x.rs b)),
    (.fdivF32 d a b, fun m x => fpDiv f32Fmt m (x.rs a) (x.rs b)),
    (.fsqrtF32 d a, fun m x => fpSqrt f32Fmt m (x.rs a)),
    (.fmaF32 d a b, fun m x => fpFma f32Fmt m (x.rs a) (x.rs b) (x.rs d)),
    (.fmsF32 d a b, fun m x => fpFms f32Fmt m (x.rs a) (x.rs b) (x.rs d)),
    (.faddF64 d a b, fun m x => fpAdd f64Fmt m (x.rs a) (x.rs b)),
    (.fsubF64 d a b, fun m x => fpSub f64Fmt m (x.rs a) (x.rs b)),
    (.fmulF64 d a b, fun m x => fpMul f64Fmt m (x.rs a) (x.rs b)),
    (.fdivF64 d a b, fun m x => fpDiv f64Fmt m (x.rs a) (x.rs b)),
    (.fsqrtF64 d a, fun m x => fpSqrt f64Fmt m (x.rs a)),
    (.fmaF64 d a b, fun m x => fpFma f64Fmt m (x.rs a) (x.rs b) (x.rs d)),
    (.fmsF64 d a b, fun m x => fpFms f64Fmt m (x.rs a) (x.rs b) (x.rs d)),
    (.fcvtF32I64 d a, fun m x => fpOfInt f32Fmt true m (x.rs a)),
    (.fcvtF32N64 d a, fun m x => fpOfInt f32Fmt false m (x.rs a)),
    (.fcvtF64I64 d a, fun m x => fpOfInt f64Fmt true m (x.rs a)),
    (.fcvtF64N64 d a, fun m x => fpOfInt f64Fmt false m (x.rs a)),
    (.fcvtI64F32 d a, fun m x => fpToInt f32Fmt true m (x.rs a)),
    (.fcvtN64F32 d a, fun m x => fpToInt f32Fmt false m (x.rs a)),
    (.fcvtI64F64 d a, fun m x => fpToInt f64Fmt true m (x.rs a)),
    (.fcvtN64F64 d a, fun m x => fpToInt f64Fmt false m (x.rs a)),
    (.fcvtF32F64 d a, fun m x => fpConv f64Fmt f32Fmt m (x.rs a)),
    (.fcvtBf16F32 d a, fun m x => fpConv f32Fmt bf16Fmt m (x.rs a))]

theorem exec_roundingForms (s : State) (d a b : BitVec 5) : ∀ p ∈ roundingForms d a b, exec p.1 s = roundingOp s d p.2 := by
  simp only [roundingForms, List.forall_mem_cons]
  exact ⟨rfl, rfl, rfl, rfl, rfl, rfl, rfl, rfl, rfl, rfl, rfl, rfl, rfl, rfl, rfl, rfl, rfl, rfl, rfl, rfl, rfl, rfl, rfl, rfl, List.forall_mem_nil _⟩

/-- Settles O3: each form is `roundingOp` of its result, which checks the mode. -/
theorem floatRoundingResults : Obligations.FloatRoundingResults := by
  intro s d a b hs m
  refine ⟨fun hm => ?_, fun hm => ?_⟩
  · have writes : ∀ p ∈ roundingForms d a b, WritesFloat p.1 s d (p.2 m) := fun p hp => writesFloat_of_rounding hs hm (exec_roundingForms s d a b p hp)
    simpa only [roundingForms, List.forall_mem_cons, List.not_mem_nil, false_imp_iff, implies_true, and_true] using writes
  · have traps : ∀ i ∈ (roundingForms d a b).map Prod.fst,
        exec i s = .next (s.trapSingle 0x01 (fcsrWord s.fpart.rmNow (s.fbank s.seqBank).flags)) :=
      List.forall_mem_map.2 fun p hp => (exec_roundingForms s d a b p hp).trans (roundingOp_traps hm d p.2)
    exact traps

end Sys2Proof.Machine
end

section
/-! Order, comparison and minimum of the scalar floats (O7). -/

namespace Sys2Proof.Machine

-- Proofs elaborated side by side each hold a thread's stack, and the whole text compiles near the memory limit of its check.
set_option Elab.async false

/-! ## Order (R50, R142) -/

/-- Below, for two values that are no NaNs, zeros of both signs being equal. -/
def FV.Below (x y : FV) : Prop :=
  match x, y with
  | .inf n, .inf k => n = true ∧ k = false
  | .inf n, _ => n = true
  | _, .inf k => k = false
  | x, y => x.rat < y.rat

theorem ltPow_iff_rat (m : Nat) (e : Int) (n : Nat) (d : Int) : ltPow m e n d = true ↔ (m : ℚ) * (2 : ℚ) ^ e < (n : ℚ) * (2 : ℚ) ^ d := by
  rw [ltPow_iff, ← Rat.cast_lt (K := ℝ)]
  push_cast
  rfl

theorem mul_zpow_nonneg (k : Nat) (e : Int) : 0 ≤ (k : ℚ) * (2 : ℚ) ^ e := mul_nonneg (Nat.cast_nonneg k) (zpow_nonneg two_pos.le e)

theorem fvLt_num_iff (s t : Bool) (m n : Nat) (e d : Int) : fvLt (.num s m e) (.num t n d) = true ↔ (FV.num s m e).rat < (FV.num t n d).rat := by
  have hm := mul_zpow_nonneg m e
  have hn := mul_zpow_nonneg n d
  cases s with
  | false =>
    cases t with
    | false => simp only [fvLt, ltPow_iff_rat, rat_false]
    | true =>
      simp only [fvLt, rat_false, rat_true, Bool.false_eq_true, false_iff, not_lt]
      linarith
  | true =>
    cases t with
    | false =>
      have hpos : (FV.num true m e).rat < (FV.num false n d).rat ↔ m ≠ 0 ∨ n ≠ 0 := by
        rw [rat_true, rat_false]
        refine ⟨fun h => ?_, fun h => ?_⟩
        · by_contra h0
          obtain ⟨rfl, rfl⟩ : m = 0 ∧ n = 0 := by simpa using h0
          simp at h
        · rcases h with h | h
          · linarith [mul_zpow_pos h e]
          · linarith [mul_zpow_pos h d]
      simp [fvLt, hpos]
    | true => simp only [fvLt, ltPow_iff_rat, rat_true, neg_lt_neg_iff]

theorem fvLt_iff {x y : FV} (hx : x.isNan = false) (hy : y.isNan = false) : fvLt x y = true ↔ x.Below y := by
  cases x with
  | nan s => simp at hx
  | inf n =>
    cases y with
    | nan s => simp at hy
    | inf k => simp [fvLt, FV.Below]
    | num t n d => simp [fvLt, FV.Below]
  | num s m e =>
    cases y with
    | nan s => simp at hy
    | inf k => simp [fvLt, FV.Below]
    | num t n d => exact fvLt_num_iff s t m n e d

theorem fvLess_iff {x y : FV} (hx : x.isNan = false) (hy : y.isNan = false) :
    fvLess x y = true ↔ x.Below y ∨ (x.isZero = true ∧ y.isZero = true ∧ x.sign = true ∧ y.sign = false) := by
  simp [fvLess, fvLt_iff hx hy, and_assoc]

theorem FV.Below.asymm {x y : FV} (h : x.Below y) : ¬y.Below x := by
  cases x <;> cases y <;> simp_all [FV.Below] <;> exact h.le

/-! ## Minimum and maximum (R50) -/

section
variable (f : Fmt) (isMax : Bool) {u v : Word}

theorem fpMinMax_of_nans (hx : (fvIn f u).isNan = true) (hy : (fvIn f v).isNan = true) :
    fpMinMax f isMax u v = (BitVec.ofNat 64 (nanEnc f), flagIf ((fvIn f u).isSig || (fvIn f v).isSig) fNV) := by
  unfold fvIn at hx hy ⊢
  simp [fpMinMax, minMaxEnc, hx, hy]

theorem fpMinMax_of_left_nan (hx : (fvIn f u).isNan = true) (hy : (fvIn f v).isNan = false) :
    fpMinMax f isMax u v = (BitVec.ofNat 64 (encIn f v), flagIf ((fvIn f u).isSig || (fvIn f v).isSig) fNV) := by
  unfold fvIn at hx hy ⊢
  simp [fpMinMax, minMaxEnc, hx, hy]

theorem fpMinMax_of_right_nan (hx : (fvIn f u).isNan = false) (hy : (fvIn f v).isNan = true) :
    fpMinMax f isMax u v = (BitVec.ofNat 64 (encIn f u), flagIf ((fvIn f u).isSig || (fvIn f v).isSig) fNV) := by
  unfold fvIn at hx hy ⊢
  simp [fpMinMax, minMaxEnc, hx, hy]

theorem fpMinMax_of_numbers (hx : (fvIn f u).isNan = false) (hy : (fvIn f v).isNan = false) :
    fpMinMax f isMax u v = (BitVec.ofNat 64 (if fvLess (fvIn f u) (fvIn f v) = isMax then encIn f v else encIn f u), 0) := by
  have hs := FV.isSig_of_not_nan hx
  have ht := FV.isSig_of_not_nan hy
  unfold fvIn at hx hy hs ht ⊢
  cases isMax <;> cases hl : fvLess (unpack f (encIn f u)) (unpack f (encIn f v)) <;> simp [fpMinMax, minMaxEnc, hx, hy, hs, ht, hl, flagIf]

end

/-! ## Comparisons (R142) -/

section
variable (f : Fmt) {u v : Word}

theorem compare_of_nan (h : (fvIn f u).isNan = true ∨ (fvIn f v).isNan = true) :
    fpEq f u v = (0, flagIf ((fvIn f u).isSig || (fvIn f v).isSig) fNV) ∧ fpLt f u v = (0, 1) ∧ fpLe f u v = (0, 1) := by
  rcases h with h | h <;> simp [fpEq, fvEq, fpLt, fpLe, anyNV, h] <;> rfl

open Classical in
theorem compare_of_numbers (hx : (fvIn f u).isNan = false) (hy : (fvIn f v).isNan = false) :
    fpEq f u v = (if ¬(fvIn f u).Below (fvIn f v) ∧ ¬(fvIn f v).Below (fvIn f u) then 1 else 0, 0) ∧
      fpLt f u v = (if (fvIn f u).Below (fvIn f v) then 1 else 0, 0) ∧ fpLe f u v = (if (fvIn f v).Below (fvIn f u) then 0 else 1, 0) := by
  have hs := FV.isSig_of_not_nan hx
  have ht := FV.isSig_of_not_nan hy
  rw [← fvLt_iff hx hy, ← fvLt_iff hy hx]
  cases hl : fvLt (fvIn f u) (fvIn f v) <;> cases hg : fvLt (fvIn f v) (fvIn f u) <;> simp [fpEq, fvEq, fpLt, fpLe, anyNV, hx, hy, hs, ht, hl, hg, flagIf]

end

end Sys2Proof.Machine
end

section
/-! The scalar floating forms that do not round (O7): class, sign and the widening conversions. -/

namespace Sys2Proof.Machine

-- Proofs elaborated side by side each hold a thread's stack, and the whole text compiles near the memory limit of its check.
set_option Elab.async false

/-! ## Encodings taken apart (R42, R43) -/

theorem unpack_sign {f : Fmt} {n : Nat} (h : (unpack f n).isNan = false) : (unpack f n).sign = (n / 2 ^ (f.bits - 1) % 2 == 1) := by
  dsimp only [unpack] at h ⊢
  split_ifs at h ⊢
  · simp at h
  · rfl
  · simp at h
  · rfl
  · rfl

section
variable {f : Fmt} (hf : f.Listed)
include hf

/-- A number comes from a finite encoding. -/
theorem le_maxEnc_of_num {n : Nat} {s : Bool} {m : Nat} {e : Int} (h : unpack f n = .num s m e) : n % 2 ^ (f.bits - 1) ≤ maxEnc f := by
  by_contra hlt
  rcases unpack_of_lt hf (not_le.1 hlt) with h' | h' <;> simp [h] at h'

theorem num_bounds {n : Nat} {s : Bool} {m : Nat} {e : Int} (h : unpack f n = .num s m e) :
    m < 2 * 2 ^ f.mbits ∧ qMin f ≤ e ∧ e < qMin f + 2 ^ f.ebits ∧ (m : ℝ) * (2 : ℝ) ^ e = f.grid (n % 2 ^ (f.bits - 1)) := by
  have hle := le_maxEnc_of_num hf h
  obtain ⟨-, rfl, rfl⟩ : _ ∧ _ ∧ _ := FV.num.inj ((unpack_of_le hf hle).symm.trans h)
  have hexpo : ((f.expo (n % 2 ^ (f.bits - 1)) : Nat) : Int) < 2 ^ f.ebits := by
    norm_cast
    refine (Nat.sub_le _ 1).trans_lt (Nat.div_lt_of_lt_mul ?_)
    rw [← Nat.pow_add, ← hf.bits_eq.1]
    exact Nat.mod_lt _ (Nat.two_pow_pos _)
  exact ⟨(f.eq_expo_mant _).2.1, by omega, by omega, rfl⟩

theorem mod_of_inf {n : Nat} {s : Bool} (h : unpack f n = .inf s) : n % 2 ^ (f.bits - 1) = infEnc f := by
  rw [hf.mod_eq]
  dsimp only [unpack] at h
  split_ifs at h with h1 h2 h3
  · simp only [Bool.and_eq_true, beq_iff_eq] at h2 h3
    rw [h2.2, h3, infEnc, Nat.add_zero]

end

/-! ## The class word (R142) -/

/-- The kind of a value and the exponent of its leading bit. -/
def FV.classOf (f : Fmt) : FV → Nat × Int
  | .nan s => (if s then 5 else 4, 0)
  | .inf _ => (3, 0)
  | .num _ m e => if m = 0 then (0, 0) else (if m < 2 ^ f.mbits then 1 else 2, e + Nat.log2 m)

theorem classWord_eq (f : Fmt) (n : Nat) : classWord f n =
    BitVec.ofNat 64 (((unpack f n).classOf f).1 + 8 * (n / 2 ^ (f.bits - 1) % 2)) |||
      (BitVec.ofInt 16 ((unpack f n).classOf f).2).setWidth 64 <<< 16 := by
  unfold classWord
  cases unpack f n <;> rfl

theorem FV.classOf_lt (f : Fmt) (x : FV) : (x.classOf f).1 < 8 := by
  cases x with
  | nan s => cases s <;> simp [FV.classOf]
  | inf s => simp [FV.classOf]
  | num s m e =>
    simp only [FV.classOf]
    split_ifs <;> omega

/-- The fields of a word of kind, sign and exponent. -/
theorem class_fields {kind neg : Nat} (hk : kind < 8) (hn : neg < 2) (x : BitVec 16) :
    let w := BitVec.ofNat 64 (kind + 8 * neg) ||| x.setWidth 64 <<< 16
    w.toNat % 2 ^ 3 = kind ∧ w.getLsbD 3 = decide (neg = 1) ∧ w.extractLsb' 4 12 = 0 ∧ w.extractLsb' 16 16 = x ∧ w.extractLsb' 32 32 = 0 := by
  intro w
  have hw : w.toNat = kind + 8 * neg + x.toNat * 2 ^ 16 := by
    simp only [w]
    rw [setWidth_eq_ofNat, or_field (show kind + 8 * neg < 2 ^ 16 by omega)]
    exact Nat.mod_eq_of_lt (by omega)
  refine ⟨by omega, ?_, ?_, ?_, ?_⟩
  · rw [← BitVec.testBit_toNat, Nat.testBit_eq_decide_div_mod_eq, hw]
    exact decide_eq_decide.2 (by omega)
  all_goals
    apply BitVec.eq_of_toNat_eq
    simp only [BitVec.extractLsb'_toNat, Nat.shiftRight_eq_div_pow, hw, BitVec.toNat_ofNat, BitVec.ofNat_eq_ofNat]
    omega

theorem getLsbD_encIn (f : Fmt) (hf : f.Listed) (u : Word) : u.getLsbD (f.bits - 1) = decide (encIn f u / 2 ^ (f.bits - 1) % 2 = 1) := by
  have hb := hf.bits_eq.2
  rw [← Nat.testBit_eq_decide_div_mod_eq, encIn, Nat.testBit_mod_two_pow, BitVec.testBit_toNat, decide_eq_true (by omega), Bool.true_and]

theorem class_exponent {f : Fmt} (hf : f.Listed) {n : Nat} {s : Bool} {m : Nat} {e : Int} (h : unpack f n = .num s m e) (hm : m ≠ 0) :
    let k := (BitVec.ofInt 16 (e + Nat.log2 m)).toInt
    (2 : ℚ) ^ k ≤ |(FV.num s m e).rat| ∧ |(FV.num s m e).rat| < 2 ^ (k + 1) := by
  obtain ⟨hlt, hlow, hhigh, -⟩ := num_bounds hf h
  have hlog : Nat.log2 m < f.mbits + 1 := (Nat.log2_lt hm).2 (by rw [Nat.pow_succ']; exact hlt)
  have hrange : -2000 < qMin f ∧ qMin f + 2 ^ f.ebits < 2000 ∧ f.mbits < 60 := by
    rcases hf.cases with rfl | rfl | rfl | rfl | rfl | rfl <;> decide
  have hk : (BitVec.ofInt 16 (e + Nat.log2 m)).toInt = e + Nat.log2 m := BitVec.toInt_ofInt_eq_self (by decide) (by omega) (by omega)
  have habs : |(FV.num s m e).rat| = (m : ℚ) * (2 : ℚ) ^ e := by
    cases s <;> simp only [rat_true, rat_false, abs_neg, abs_of_pos (mul_zpow_pos hm e)]
  have hpos : (0 : ℚ) < (2 : ℚ) ^ e := zpow_pos two_pos e
  intro k
  rw [show k = _ from hk, habs, add_assoc, zpow_add₀ two_ne_zero, zpow_add₀ two_ne_zero, mul_comm, mul_comm ((2 : ℚ) ^ e)]
  refine ⟨mul_le_mul_of_nonneg_right ?_ hpos.le, mul_lt_mul_of_pos_right ?_ hpos⟩
  · exact_mod_cast Nat.log2_self_le hm
  · exact_mod_cast Nat.lt_log2_self

/-! ## The sign of an encoding (R141) -/

/-- A bit that is not in a word is put in and taken out. -/
theorem top_bit {x p : Word} (h : x &&& p = 0) :
    x ^^^ p = x ||| p ∧ (x ||| p) ^^^ p = x ∧ x &&& ~~~p = x ∧ (x ||| p) &&& ~~~p = x := by
  have hb (i : Nat) : (x.getLsbD i && p.getLsbD i) = false := by rw [← BitVec.getLsbD_and, h]; exact BitVec.getLsbD_zero
  refine ⟨?_, ?_, ?_, ?_⟩ <;> refine BitVec.eq_of_getLsbD_eq fun i hi => ?_
  all_goals
    have := hb i
    revert this
    simp only [BitVec.getLsbD_xor, BitVec.getLsbD_or, BitVec.getLsbD_and, BitVec.getLsbD_not, hi, decide_true, Bool.true_and]
    cases x.getLsbD i <;> cases p.getLsbD i <;> decide

theorem ofNat_and_top {lo b : Nat} (h : lo < 2 ^ b) : BitVec.ofNat 64 lo &&& (1 : Word) <<< b = 0 := by
  refine BitVec.eq_of_getLsbD_eq fun i hi => ?_
  by_cases hib : i < b
  · simp [hib]
  · have : lo.testBit i = false := Nat.testBit_lt_two_pow (h.trans_le (Nat.pow_le_pow_right (by decide) (by omega)))
    simp [BitVec.getLsbD_ofNat, this]

theorem signOp_of_not_nan {f : Fmt} (neg : Bool → Bool) {n : Nat} (h : (unpack f n).isNan = false) :
    signOp f neg n = (signed f (neg (n / 2 ^ (f.bits - 1) % 2 == 1)) (n % 2 ^ (f.bits - 1)), 0) := by
  rw [← unpack_sign h]
  unfold signOp
  cases hx : unpack f n with
  | nan s => simp [hx] at h
  | inf s => rfl
  | num s m e => rfl

theorem signed_flip {f : Fmt} (hf : f.Listed) {n : Nat} (hn : n < 2 ^ f.bits) :
    BitVec.ofNat 64 (signed f (!(n / 2 ^ (f.bits - 1) % 2 == 1)) (n % 2 ^ (f.bits - 1))) = BitVec.ofNat 64 n ^^^ (1 : Word) <<< (f.bits - 1) ∧
      BitVec.ofNat 64 (signed f false (n % 2 ^ (f.bits - 1))) = BitVec.ofNat 64 n &&& ~~~((1 : Word) <<< (f.bits - 1)) := by
  have hpow := hf.two_pow_bits
  have hlo := Nat.mod_lt n (Nat.two_pow_pos (f.bits - 1))
  have hdiv := Nat.div_add_mod n (2 ^ (f.bits - 1))
  have hhi : n / 2 ^ (f.bits - 1) < 2 := Nat.div_lt_of_lt_mul (by omega)
  have htop := or_field hlo 1
  rw [one_mul] at htop
  obtain ⟨hput, htake, hclear, hclear'⟩ := top_bit (ofNat_and_top hlo)
  generalize n / 2 ^ (f.bits - 1) = hi at *
  generalize n % 2 ^ (f.bits - 1) = lo at *
  rcases (by omega : hi = 0 ∨ hi = 1) with rfl | rfl
  · obtain rfl : lo = n := by omega
    rw [hput, hclear]
    exact ⟨htop.symm, rfl⟩
  · obtain rfl : lo + 2 ^ (f.bits - 1) = n := by omega
    rw [← htop]
    exact ⟨htake.symm, hclear'.symm⟩

/-! ## Exact results -/

section
variable {f : Fmt} (hf : f.Listed)

/-- A point of the grid rounds to itself. -/
theorem roundPos_grid (mode : RMode) (sat : Bool) {k : Nat} (hpos : 0 < k) (hk : k ≤ maxEnc f) : f.roundPos mode sat (f.grid k) = (k, 0) := by
  have ha : 0 < f.grid k := by simpa using f.grid_strictMono hpos
  have hfloor : f.floorEnc (f.grid k) = k :=
    le_antisymm (f.grid_strictMono.le_iff_le.1 (f.grid_floorEnc_le ha)) ((f.grid_le_iff ha k).1 le_rfl)
  have hround : f.roundEnc mode (f.grid k) = k := by
    rw [Fmt.roundEnc, hfloor, if_neg (not_roundsUp_of_le mode _ (f.grid_strictMono (Nat.lt_succ_self k)) le_rfl), Nat.add_zero]
  rw [Fmt.roundPos, hround, if_neg (not_lt.2 hk), hfloor]
  simp [flagIf]

include hf

/-- A number that a format holds is delivered as it is. -/
theorem deliver_grid (mode : RMode) (sat s : Bool) {m : Nat} {e : Int} {k : Nat} (hk : k ≤ maxEnc f) (h : f.grid k = m * (2 : ℝ) ^ e) :
    deliver f mode sat (.num s m e) = (signed f s k, 0) := by
  rcases Nat.eq_zero_or_pos m with rfl | hm
  · obtain rfl : k = 0 := f.grid_strictMono.injective (by simpa using h)
    exact deliver_zero f mode sat s e
  · have hpos : 0 < k := by
      rw [← f.grid_strictMono.lt_iff_lt, f.grid_zero, h]
      exact mul_pos (Nat.cast_pos.2 hm) (zpow_pos two_pos e)
    have hround (mode : RMode) : roundFin f mode sat false m e = (k, 0) := by
      rw [roundFin_eq_roundPos hf ⟨hm.ne', .inl h⟩, roundPos_grid mode sat hpos hk]
    rw [deliver, if_neg hm.ne']
    cases s with
    | false => exact hround mode
    | true => rw [roundFin_true, hround]; rfl

end

theorem result_of_grid {f : Fmt} (hf : f.Listed) (mode : RMode) (s : Bool) {m : Nat} {e : Int} {k : Nat} (hk : k ≤ maxEnc f)
    (h : f.grid k = m * (2 : ℝ) ^ e) : result f mode (.num s m e, 0) = (BitVec.ofNat 64 (signed f s k), 0) := by
  simp [result, deliver_grid hf mode false s hk h]

/-! ## The widening conversions (R143) -/

theorem f32_listed : f32Fmt.Listed := by simp [Fmt.Listed]
theorem f64_listed : f64Fmt.Listed := by simp [Fmt.Listed]
theorem bf16_listed : bf16Fmt.Listed := by simp [Fmt.Listed]

/-- f64 holds every number of f32. -/
theorem exists_f64_grid {m : Nat} {e : Int} (hm : m < 2 ^ 24) (hlow : -149 ≤ e) (hhigh : e < 107) :
    ∃ k ≤ maxEnc f64Fmt, f64Fmt.grid k = m * (2 : ℝ) ^ e := by
  rcases eq_or_ne m 0 with rfl | h0
  · exact ⟨0, Nat.zero_le _, by simp⟩
  have hlog : Nat.log2 m < 24 := (Nat.log2_lt h0).2 hm
  obtain ⟨i, hi⟩ : ∃ i, Nat.log2 m + i = 52 := ⟨52 - Nat.log2 m, by omega⟩
  obtain ⟨j, hj⟩ : ∃ j : Nat, (j : Int) = e - i + 1074 := ⟨(e - i + 1074).toNat, by omega⟩
  have hge : 2 ^ 52 ≤ m * 2 ^ i := by
    rw [← hi, Nat.pow_add]
    exact Nat.mul_le_mul_right _ (Nat.log2_self_le h0)
  have hlt : m * 2 ^ i < 2 ^ 53 := by
    rw [show (53 : Nat) = Nat.log2 m + 1 + i by omega, Nat.pow_add]
    exact Nat.mul_lt_mul_of_pos_right Nat.lt_log2_self (Nat.two_pow_pos i)
  have hmax : maxEnc f64Fmt = 2047 * 2 ^ 52 - 1 := by decide
  have hmbits : f64Fmt.mbits = 52 := rfl
  have hqmin : qMin f64Fmt = -1074 := rfl
  refine ⟨j * 2 ^ 52 + m * 2 ^ i, by omega, ?_⟩
  have h := f64Fmt.grid_mul_add (j := j) (d := m * 2 ^ i) (by rw [hmbits]; omega) (.inr hge)
  rw [hmbits] at h
  rw [h, hqmin, hj, show -1074 + (e - i + 1074) = e - (i : Int) by ring, Nat.cast_mul, Nat.cast_pow, Nat.cast_ofNat, mul_assoc, ← zpow_natCast,
    ← zpow_add₀ two_ne_zero, show (i : Int) + (e - i) = e by ring]

theorem bf16_grid (n : Nat) : f32Fmt.grid (n * 2 ^ 16) = bf16Fmt.grid n := by
  obtain ⟨hn, hlt, hlow⟩ := bf16Fmt.eq_expo_mant n
  generalize hx : bf16Fmt.expo n = x at *
  generalize hy : bf16Fmt.mant n = y at *
  have hb : bf16Fmt.mbits = 7 := rfl
  have hf : f32Fmt.mbits = 23 := rfl
  rw [hb] at hn hlt hlow
  have h := f32Fmt.grid_mul_add (j := x) (d := y * 2 ^ 16) (by rw [hf]; omega) (by rw [hf]; omega)
  rw [hf] at h
  rw [show n * 2 ^ 16 = x * 2 ^ 23 + y * 2 ^ 16 by omega, h, Fmt.grid, hx, hy, show qMin f32Fmt = -149 from rfl, show qMin bf16Fmt = -133 from rfl,
    show (-133 : Int) + x = 16 + (-149 + x) by ring, zpow_add₀ two_ne_zero (16 : Int)]
  push_cast
  ring

/-! ## The forms that do not round (O7) -/

theorem FV.classOf_exponent_zero (f : Fmt) {x : FV} (h : x.isNan = true ∨ x.isInf = true ∨ x.isZero = true) : (x.classOf f).2 = 0 := by
  cases x with
  | nan s => rfl
  | inf s => rfl
  | num s m e => simp [FV.classOf, show m = 0 by simpa using h]

theorem classWord_encIn {f : Fmt} (hf : f.Listed) (u : Word) :
    let w := classWord f (encIn f u)
    w.toNat % 2 ^ 3 = ((fvIn f u).classOf f).1 ∧ w.getLsbD 3 = u.getLsbD (f.bits - 1) ∧ w.extractLsb' 4 12 = 0 ∧
      w.extractLsb' 16 16 = BitVec.ofInt 16 ((fvIn f u).classOf f).2 ∧ w.extractLsb' 32 32 = 0 := by
  rw [classWord_eq, getLsbD_encIn f hf]
  exact class_fields (FV.classOf_lt f _) (Nat.mod_lt _ two_pos) _

theorem encIn_lt (f : Fmt) (u : Word) : encIn f u < 2 ^ f.bits := Nat.mod_lt _ (Nat.two_pow_pos _)

section
variable {f : Fmt} (hf : f.Listed) {u : Word}

theorem signOp_of_nan (h : (fvIn f u).isNan = true) :
    fpNeg f u = (BitVec.ofNat 64 (nanEnc f), flagIf ((fvIn f u).isSig) fNV) ∧
      fpAbs f u = (BitVec.ofNat 64 (nanEnc f), flagIf ((fvIn f u).isSig) fNV) := by
  obtain ⟨s, hs⟩ := FV.isNan_iff.1 h
  have hu : unpack f (encIn f u) = .nan s := hs
  simp [fpNeg, fpAbs, signOp, fvIn, hu]

include hf

theorem signOp_of_number (h : (fvIn f u).isNan = false) :
    fpNeg f u = (BitVec.ofNat 64 (encIn f u) ^^^ (1 : Word) <<< (f.bits - 1), 0) ∧
      fpAbs f u = (BitVec.ofNat 64 (encIn f u) &&& ~~~((1 : Word) <<< (f.bits - 1)), 0) := by
  obtain ⟨hneg, habs⟩ := signed_flip hf (encIn_lt f u)
  rw [← hneg, ← habs, fpNeg, fpAbs, signOp_of_not_nan _ h, signOp_of_not_nan _ h]
  exact ⟨rfl, rfl⟩

end

theorem fpConv_of_nan (src dst : Fmt) (m : RMode) {u : Word} (h : (fvIn src u).isNan = true) :
    fpConv src dst m u = (BitVec.ofNat 64 (nanEnc dst), if (fvIn src u).isSig then 1 else 0) := by
  obtain ⟨s, hs⟩ := FV.isNan_iff.1 h
  rw [fpConv, hs, result_of_nan, sigNV_one]
  rfl

theorem fpConv_of_not_nan (src dst : Fmt) (m : RMode) {u : Word} (h : (fvIn src u).isNan = false) :
    fpConv src dst m u = result dst m (fvIn src u, 0) := by
  rw [fpConv, sigNV_one, FV.isSig_of_not_nan h]
  rfl

/-- An encoding that fits its format is read back. -/
theorem fvIn_ofNat {f : Fmt} (hf : f.Listed) {n : Nat} (h : n < 2 ^ f.bits) : fvIn f (BitVec.ofNat 64 n) = unpack f n := by
  have hb : f.bits ≤ 64 := by rcases hf.cases with rfl | rfl | rfl | rfl | rfl | rfl <;> decide
  rw [fvIn, encIn, BitVec.toNat_ofNat, Nat.mod_eq_of_lt (h.trans_le (Nat.pow_le_pow_right two_pos hb)), Nat.mod_eq_of_lt h]

theorem unpack_f64_inf (s : Bool) : unpack f64Fmt (signed f64Fmt s (infEnc f64Fmt)) = .inf s := by cases s <;> decide

theorem sign_signed {f : Fmt} (hf : f.Listed) (s : Bool) {k : Nat} (h : k ≤ maxEnc f) :
    unpack f (signed f s k) = .num s (f.mant k) (qMin f + f.expo k) := by
  have hlt := hf.maxEnc_bounds.2
  have hdiv : signed f s k / 2 ^ (f.bits - 1) % 2 = s.toNat ∧ signed f s k % 2 ^ (f.bits - 1) = k := by
    cases s with
    | false => simp [signed, Nat.div_eq_of_lt, Nat.mod_eq_of_lt, show k < 2 ^ (f.bits - 1) by omega]
    | true => simp [signed, Nat.add_div_right _ (Nat.two_pow_pos _), Nat.div_eq_of_lt, Nat.mod_eq_of_lt, show k < 2 ^ (f.bits - 1) by omega]
  rw [unpack_of_le hf (by omega), hdiv.1, hdiv.2]
  cases s <;> rfl

/-- A number of f32 as f64 holds it. -/
theorem exists_result_f64 {u : Word} {s : Bool} {m : Nat} {e : Int} (hx : fvIn f32Fmt u = .num s m e) :
    ∃ k ≤ maxEnc f64Fmt, f64Fmt.grid k = m * (2 : ℝ) ^ e ∧ result f64Fmt .rne (.num s m e, 0) = (BitVec.ofNat 64 (signed f64Fmt s k), 0) := by
  obtain ⟨hm, hlow, hhigh, -⟩ := num_bounds f32_listed hx
  rw [show qMin f32Fmt = -149 from rfl] at hlow hhigh
  rw [show f32Fmt.mbits = 23 from rfl] at hm
  rw [show f32Fmt.ebits = 8 from rfl] at hhigh
  obtain ⟨k, hk, hgrid⟩ := exists_f64_grid (by omega) hlow (by omega)
  exact ⟨k, hk, hgrid, result_of_grid f64_listed .rne s hk hgrid⟩

/-- fcvt.f64.f32 is exact. -/
theorem wide_exact {u : Word} (h : (fvIn f32Fmt u).isNan = false) :
    let r := fpConv f32Fmt f64Fmt .rne u
    r.2 = 0 ∧ (fvIn f64Fmt r.1).rat = (fvIn f32Fmt u).rat ∧ (fvIn f64Fmt r.1).isInf = (fvIn f32Fmt u).isInf ∧
      (fvIn f64Fmt r.1).sign = (fvIn f32Fmt u).sign := by
  rw [fpConv_of_not_nan f32Fmt f64Fmt .rne h]
  cases hx : fvIn f32Fmt u with
  | nan s => simp [hx] at h
  | inf s =>
    rw [result_of_inf rfl]
    simp only [fvIn_ofNat f64_listed (signed_lt f64_listed s f64_listed.infEnc_lt), unpack_f64_inf, and_self]
  | num s m e =>
    obtain ⟨k, hk, hgrid, hr⟩ := exists_result_f64 hx
    have hlt : k < 2 ^ (f64Fmt.bits - 1) := hk.trans_lt ((Nat.lt_succ_self _).trans f64_listed.maxEnc_bounds.2)
    have hrat : (FV.num s (f64Fmt.mant k) (qMin f64Fmt + f64Fmt.expo k)).rat = (FV.num s m e).rat := by
      rw [← Rat.cast_inj (α := ℝ), FV.rat_num, FV.rat_num, ← hgrid, Fmt.grid]
    rw [hr]
    simp only [fvIn_ofNat f64_listed (signed_lt f64_listed s hlt), sign_signed f64_listed s hk, hrat, FV.isInf_num, FV.sign_num, and_self]

theorem bf16_split (u : Word) : u.toNat % 2 ^ 16 = (encIn bf16Fmt u) / 2 ^ 15 % 2 * 2 ^ 15 + encIn bf16Fmt u % 2 ^ 15 := by
  rw [show encIn bf16Fmt u = u.toNat % 2 ^ 16 from rfl]
  omega

/-- fcvt.f32.bf16 puts sixteen zeros below the encoding. -/
theorem half_exact {u : Word} (h : (fvIn bf16Fmt u).isNan = false) :
    fpConv bf16Fmt f32Fmt .rne u = (BitVec.ofNat 64 (u.toNat % 2 ^ 16 * 2 ^ 16), 0) := by
  have hsign : (fvIn bf16Fmt u).sign = (encIn bf16Fmt u / 2 ^ 15 % 2 == 1) := unpack_sign h
  have key {k : Nat} (hk : k = encIn bf16Fmt u % 2 ^ 15) : signed f32Fmt (fvIn bf16Fmt u).sign (k * 2 ^ 16) = u.toNat % 2 ^ 16 * 2 ^ 16 := by
    rw [bf16_split, hsign, hk, signed, show f32Fmt.bits - 1 = 31 from rfl]
    rcases Nat.mod_two_eq_zero_or_one (encIn bf16Fmt u / 2 ^ 15) with h0 | h0
    · rw [h0, zero_mul, zero_add]
      exact if_neg (by decide)
    · rw [h0, one_mul]
      exact (if_pos (by decide)).trans (by omega)
  rw [fpConv_of_not_nan bf16Fmt f32Fmt .rne h, ← key rfl]
  cases hx : fvIn bf16Fmt u with
  | nan s => simp [hx] at h
  | inf s =>
    rw [result_of_inf rfl, show encIn bf16Fmt u % 2 ^ 15 = infEnc bf16Fmt from mod_of_inf bf16_listed hx]
    rfl
  | num s m e =>
    obtain ⟨-, -, -, hgrid⟩ := num_bounds bf16_listed hx
    have hle : encIn bf16Fmt u % 2 ^ 15 ≤ 2 ^ 15 - 2 ^ 7 - 1 := le_maxEnc_of_num bf16_listed hx
    exact result_of_grid f32_listed .rne s (le_trans (by omega) (show 2 ^ 31 - 2 ^ 23 - 2 ^ 16 ≤ maxEnc f32Fmt by decide))
      ((bf16_grid _).trans hgrid.symm)

/-- Settles O7: NaNs, order, kind and sign give each result, and a widening conversion finds its value on the wider grid. -/
theorem plainFloatResults : Obligations.PlainFloatResults := by
  intro s d a b hs
  refine ⟨fun p hp => ?_, fpConv f32Fmt f64Fmt .rne, fpConv bf16Fmt f32Fmt .rne, writesFloat_of hs rfl, writesFloat_of hs rfl,
    fun u => ⟨fpConv_of_nan f32Fmt f64Fmt .rne, fpConv_of_nan bf16Fmt f32Fmt .rne, wide_exact, half_exact⟩⟩
  simp only [List.mem_cons, List.not_mem_nil, or_false] at hp
  intro f qnan enc sigs anys below
  obtain ⟨hf, hq, hmn, hmx, heq, hlt, hle, hcl, hng, hab⟩ : f.Listed ∧ BitVec.ofNat 64 (nanEnc f) = qnan ∧
      exec p.2.2.1 s = plainOp s d (fun x => fpMinMax f false (x.rs a) (x.rs b)) ∧
      exec p.2.2.2.1 s = plainOp s d (fun x => fpMinMax f true (x.rs a) (x.rs b)) ∧
      exec p.2.2.2.2.1 s = plainOp s d (fun x => fpEq f (x.rs a) (x.rs b)) ∧
      exec p.2.2.2.2.2.1 s = plainOp s d (fun x => fpLt f (x.rs a) (x.rs b)) ∧
      exec p.2.2.2.2.2.2.1 s = plainOp s d (fun x => fpLe f (x.rs a) (x.rs b)) ∧
      exec p.2.2.2.2.2.2.2.1 s = plainOp s d (fun x => (classWord f (encIn f (x.rs a)), 0)) ∧
      exec p.2.2.2.2.2.2.2.2.1 s = plainOp s d (fun x => fpNeg f (x.rs a)) ∧
      exec p.2.2.2.2.2.2.2.2.2 s = plainOp s d (fun x => fpAbs f (x.rs a)) := by
    rcases hp with rfl | rfl
    · exact ⟨f32_listed, (by decide : BitVec.ofNat 64 (nanEnc f32Fmt) = 0x7FC00000#64), rfl, rfl, rfl, rfl, rfl, rfl, rfl, rfl⟩
    · exact ⟨f64_listed, (by decide : BitVec.ofNat 64 (nanEnc f64Fmt) = 0x7FF8000000000000#64), rfl, rfl, rfl, rfl, rfl, rfl, rfl, rfl⟩
  refine ⟨fpMinMax f false, fpMinMax f true, fpEq f, fpLt f, fpLe f, fun u _ => (classWord f (encIn f u), 0), fun u _ => fpNeg f u,
    fun u _ => fpAbs f u, writesFloat_of hs hmn, writesFloat_of hs hmx, writesFloat_of hs heq, writesFloat_of hs hlt, writesFloat_of hs hle,
    writesFloat_of hs hcl, writesFloat_of hs hng, writesFloat_of hs hab, fun u v => ?_⟩
  intro x y first
  obtain ⟨hkind, hsign, hlow, hexp, hhigh⟩ := classWord_encIn hf u
  refine ⟨fun hx hy => ?_, fun hx hy => ?_, fun hx hy => ?_, fun hx hy h => ?_, fun hx hy h => ?_, fun h => ?_, fun hx hy => ?_, rfl, ?_,
    hsign, hlow, hhigh, fun n m e hx hm => ?_, fun h => ?_, fun h => ?_, fun h => ?_⟩
  · exact ⟨(fpMinMax_of_nans f false hx hy).trans (Prod.ext hq rfl), (fpMinMax_of_nans f true hx hy).trans (Prod.ext hq rfl)⟩
  · exact ⟨fpMinMax_of_left_nan f false hx hy, fpMinMax_of_left_nan f true hx hy⟩
  · exact ⟨fpMinMax_of_right_nan f false hx hy, fpMinMax_of_right_nan f true hx hy⟩
  · have hless : fvLess x y = true := (fvLess_iff hx hy).2 h
    rw [fpMinMax_of_numbers f false hx hy, fpMinMax_of_numbers f true hx hy, hless]
    exact ⟨rfl, rfl⟩
  · have hless : fvLess x y = false := Bool.eq_false_iff.2 (mt (fvLess_iff hx hy).1 h)
    rw [fpMinMax_of_numbers f false hx hy, fpMinMax_of_numbers f true hx hy, hless]
    exact ⟨rfl, rfl⟩
  · obtain ⟨heq, hlt, hle⟩ := compare_of_nan f h
    have hany : anys x y = 1 := if_pos (by simpa using h)
    exact ⟨heq, hany ▸ hlt, hany ▸ hle⟩
  · obtain ⟨heq, hlt, hle⟩ := compare_of_numbers f hx hy
    rw [heq, hlt, hle]
    refine ⟨fun h => ?_, fun h => ?_, fun h h' => ?_⟩
    · have h1 : (fvIn f u).Below (fvIn f v) := h
      simp [h1, h1.asymm]
    · have h1 : (fvIn f v).Below (fvIn f u) := h
      simp [h1, h1.asymm]
    · have h1 : ¬(fvIn f u).Below (fvIn f v) := h
      have h2 : ¬(fvIn f v).Below (fvIn f u) := h'
      simp [h1, h2]
  · refine hkind.trans ?_
    cases hx : fvIn f u with
    | nan sg => simp only [x, hx, FV.classOf]
    | inf n => simp only [x, hx, FV.classOf]
    | num n m e =>
      simp only [x, hx, FV.classOf]
      split <;> rfl
  · have hexp' : (classWord f (encIn f u)).extractLsb' 16 16 = BitVec.ofInt 16 (e + Nat.log2 m) := by
      rw [hexp, show fvIn f u = .num n m e from hx, FV.classOf, if_neg hm]
    simp only [hexp', hx]
    exact class_exponent hf hx hm
  · exact hexp.trans (by rw [FV.classOf_exponent_zero f h]; rfl)
  · obtain ⟨hneg, habs⟩ := signOp_of_nan h
    have hfl : flagIf (fvIn f u).isSig fNV = sigs x x := by rw [← Bool.or_self (fvIn f u).isSig]; rfl
    exact ⟨hneg.trans (Prod.ext hq hfl), habs.trans (Prod.ext hq hfl)⟩
  · exact signOp_of_number hf h

end Sys2Proof.Machine
end

section
/-! brk and trap (O12), jumps and branches (O10): one check of every target. -/

namespace Sys2Proof.Machine

-- Proofs elaborated side by side each hold a thread's stack, and the whole text compiles near the memory limit of its check.
set_option Elab.async false

/-! ## brk and trap (R122) -/

theorem nextTval_eq (s : State) : nextTval s = BitVec.ofNat 64 (s.fpart.nextAddr.toNat % 2 ^ 56) := setWidth_zext s.fpart.nextAddr 56

/-- An instruction that traps enters the handler of its cause, its address saved and xidx 0 (R103, R342). -/
theorem trapSingle_entersHandler {s : State} (hs : Settled s) (hh : HasHandler s) {cause : BitVec 8} (hc : cause ≠ 0x14) (tval : Word) :
    EntersHandler s (s.trapSingle cause tval) cause (if cause = 0x18 then 1 else if cause = 0x21 then 2 else if cause = 0x28 ∨ cause = 0x29 then 3
      else if cause = 0x38 then 4 else if cause = 0x3C then 5 else 0) tval s.fpart.pc (if s.fseat.isCC then s.fpart.xidx else 0) := by
  obtain ⟨henter, -, hsingle⟩ := trapsEnterTheirHandler s cause tval s.fpart.pc 0 hs hh
  rw [hsingle hc]
  exact henter

/-- Settles O12: both trap at the instruction, with the address of the next one and the number n as fields of tval. -/
theorem breakAndTrapEnterTheirHandler : Obligations.BreakAndTrapEnterTheirHandler := by
  intro s n hs hh
  refine ⟨⟨_, rfl, ?_⟩, _, rfl, ?_⟩
  · rw [nextTval_eq]
    exact trapSingle_entersHandler hs hh (by decide) _
  · have hlt : s.fpart.nextAddr.toNat % 2 ^ 56 < 2 ^ 58 := (Nat.mod_lt _ (Nat.two_pow_pos 56)).trans (by decide)
    rw [nextTval_eq, setWidth_eq_ofNat, or_field hlt]
    exact trapSingle_entersHandler hs hh (by decide) _

/-! ## The part in focus goes on, nothing else changing -/

theorem around_setPart (s : State) (pc : Word) (w : Option Wait) (cv : Option Convoy) (g : BitVec 16) {v : Nat}
    (hv : v = (s.part s.focus).vl ∨ (s.part s.focus).convoy.bind (·.cut) = some v) :
    Around s (s.setPart s.focus { s.part s.focus with pc := pc, wait := w, convoy := cv, begun := g, vl := v }) :=
  Around.of rfl ((SameCores.refl s).setPart _) (SameSeat.setPart rfl pc w cv g v hv)

theorem onBanks_refl {s t : State} (h : ∀ c b, t.bank c b = s.bank c b) : OnBanks s t (fun _ x y => y = x) := by
  intro c b
  rw [h c b]
  split <;> rfl

/-- An instruction that only ends. -/
theorem onlyProceeds_of {s : State} (hs : Settled s) {i : Instr} (h : exec i s = .next s.retire) : OnlyProceeds i s := by
  obtain ⟨pc, cv, v, hp, hv⟩ := Part.advance_eq (s.part s.focus)
  refine ⟨_, h, ?_, ?_, onBanks_refl fun c b => ?_⟩
  · rw [State.retire_of_settled hs, hp]
    exact around_setPart s pc none cv 0 hv
  · rw [State.retire_of_settled hs, Proceeds, State.part_setPart]
  · rw [State.retire_of_settled hs, State.bank_setPart]

/-! ## Transfers (R88, R89) -/

theorem State.jumpTo_of_settled {s : State} (h : Settled s) (target : Word) :
    s.jumpTo target = s.setPart s.focus { (s.part s.focus).endConvoy with pc := target, wait := none, begun := 0 } := by
  unfold State.jumpTo
  dsimp only
  rw [show (s.part s.focus).late = [] from h]
  rfl

theorem goesTo_of {s : State} (hs : Settled s) {i : Instr} {target : Word} (h : exec i s = .next (s.jumpTo target)) :
    GoesTo i s target (fun x y => y = x) := by
  rw [State.jumpTo_of_settled hs] at h
  exact ⟨_, h, around_setPart s target none none 0 (s.part s.focus).endConvoy_vl, onBanks_refl fun c b => State.bank_setPart s _ _ c b,
    State.part_setPart s _ _⟩

/-- A jump that links. -/
theorem goesTo_of_link {s : State} (hs : Settled s) {i : Instr} {d : BitVec 5} {target : Word} (h : exec i s = .next ((linkTo d s).jumpTo target)) :
    GoesTo i s target (fun x y => RegOnly d s.fpart.nextAddr x y) := by
  obtain ⟨ha, hp, hb⟩ := jumpTo_onActive hs (fun _ b => b.ws d s.fpart.nextAddr) target
  exact ⟨_, h, ha, onBanks_of (f := fun _ b => b.ws d s.fpart.nextAddr) hb fun _ x => regOnly_ws d _ x, hp⟩

/-- Every transfer is checked in one way (R89). -/
theorem transfersTo_of {s : State} {i : Instr} {target : Word} {link : State → State} {R : Bank → Bank → Prop}
    (h : exec i s = transfer s target link) (hgo : exec i s = .next ((link s).jumpTo target) → GoesTo i s target R) : TransfersTo i s target R :=
  ⟨fun hn => h.trans (afterSlot_bad (slotCheck_of_not_head hn true)), fun hh =>
    ⟨fun _ hf => ⟨fun hst => hgo (h.trans (afterSlot_ok (slotCheck_of_starts hh hf hst))),
        fun hn => h.trans (afterSlot_bad (slotCheck_of_not_starts hh hf hn))⟩,
      fun _ hw => waits_of (h.trans (afterSlot_wait (slotCheck_of_wait hh hw true))),
      fun _ _ hf => hgo (h.trans (afterSlot_ok (slotCheck_of_unfetched hh hf true)))⟩⟩

/-- The bits above an address (R128). -/
theorem highBits_iff (v : Word) : v.extractLsb' 56 8 = 0 ↔ v.toNat < 2 ^ 56 := by
  rw [← BitVec.toNat_inj, BitVec.extractLsb'_toNat, Nat.shiftRight_eq_div_pow]
  simp only [BitVec.ofNat_eq_ofNat, BitVec.toNat_ofNat]
  have := v.isLt
  omega

theorem transferReg_of_address {s : State} {a : BitVec 5} {link : State → State} (h : ((s.fbank s.seqBank).rs a).toNat < 2 ^ 56) :
    transferReg s a link = transfer s ((s.fbank s.seqBank).rs a) link :=
  if_neg (not_not.2 ((highBits_iff _).2 h))

theorem transferReg_of_high {s : State} {a : BitVec 5} {link : State → State} (h : 2 ^ 56 ≤ ((s.fbank s.seqBank).rs a).toNat) :
    transferReg s a link = .next (s.trapSingle 0x03 ((s.fbank s.seqBank).rs a)) :=
  if_pos (mt (highBits_iff _).1 (Nat.not_lt.2 h))

/-- A branch goes to its checked target where it is taken, else it ends. -/
theorem branch_of {s : State} (hs : Settled s) {i : Instr} {taken : Bool} {off : BitVec 22} (h : exec i s = branchIf s taken off) {p : Prop}
    (hp : taken = true ↔ p) :
    (p → TransfersTo i s (BitVec.ofInt 64 ((s.fpart.pc.toNat : Int) + 2 * off.toInt)) (fun x y => y = x)) ∧ (¬p → OnlyProceeds i s) := by
  refine ⟨fun ht => transfersTo_of (link := id) ?_ (goesTo_of hs), fun hn => onlyProceeds_of hs ?_⟩
  · rw [h, branchIf, if_pos (hp.2 ht), relTarget_eq s off (by decide)]
  · rw [h, branchIf, if_neg (mt hp.1 hn)]

theorem seqCond_iff (s : State) (c : BitVec 3) (a b : BitVec 5) :
    seqCond s c a b = true ↔ Cond c ((s.fbank s.seqBank).rs a) ((s.fbank s.seqBank).rs b) := condHolds_iff c _ _

/-- Settles O10: every transfer passes one check; what is taken, and to which target, is read off the instruction. -/
theorem jumpsAndBranchesTransferControl : Obligations.JumpsAndBranchesTransferControl := by
  refine ⟨fun s d a imm hs => ?_, fun s a b c off hs hc => ?_⟩
  · have hrel := relTarget_eq s imm (by decide)
    exact ⟨transfersTo_of (congrArg (transfer s · id) hrel) (goesTo_of hs),
      transfersTo_of (congrArg (transfer s · (linkTo d)) hrel) (goesTo_of_link hs),
      fun h => ⟨transfersTo_of (transferReg_of_address h) (goesTo_of hs), transfersTo_of (transferReg_of_address h) (goesTo_of_link hs)⟩,
      fun h => ⟨transferReg_of_high h, transferReg_of_high h⟩⟩
  · refine ⟨branch_of hs rfl (seqCond_iff s 0 a b), branch_of hs rfl (seqCond_iff s 1 a b), branch_of hs rfl (seqCond_iff s 2 a b),
      branch_of hs rfl (seqCond_iff s 3 a b), branch_of hs rfl (seqCond_iff s 4 a b), branch_of hs rfl (seqCond_iff s 5 a b),
      branch_of hs rfl (List.any_eq_true.trans ?_), branch_of hs rfl (List.all_eq_true.trans ?_)⟩
    · exact exists_congr fun k => and_congr_right' (condHolds_iff c _ _)
    · exact forall₂_congr fun k _ => condHolds_iff c _ _

end Sys2Proof.Machine
end

section
/-! claim (O14): panes shut to slot 7, masks, tokens and the state of every part saved. -/

namespace Sys2Proof.Machine

-- Proofs elaborated side by side each hold a thread's stack, and the whole text compiles near the memory limit of its check.
set_option Elab.async false

/-! ## Banks and parts of a seat -/

theorem upFrom_eq (a n : Nat) : upFrom a n = List.range' a n := by
  induction n generalizing a with
  | zero => rfl
  | succ n ih => rw [upFrom, ih, List.range'_succ]

theorem Seat.banks_nodup (u : Seat) : u.banks.Nodup := by
  rw [Seat.banks, upFrom_eq]
  exact List.nodup_range'

theorem look_map {α β : Type} (f : Option α → Option β) (hf : f none = none) (t : Table (Option α)) (k : Nat) :
    look none (t.map (fun p => (p.1, f p.2))) k = f (look none t k) := by
  induction t with
  | nil => exact hf.symm
  | cons p t ih =>
    simp only [List.map_cons, look, ih]
    split_ifs
    · rfl
    · exact hf.symm
    · rfl

@[simp] theorem Seat.part?_mapParts (u : Seat) (f : Part → Part) (q : Nat) : (u.mapParts f).part? q = (u.part? q).map f :=
  look_map (·.map f) rfl u.parts q

/-! ## Panes shut to slot 7 (R124) -/

/-- claim shuts this pane. -/
def Bank.shuts (b : Bank) (n : Nat) : Bool := (b.pane n).isOpen && !(b.pane n).park

/-- The bank after claim has shut a pane. -/
def Bank.shut7 (b : Bank) (n : Nat) : Bank := (b.shutImage n 7).closePane n

theorem Bank.pane_shut7 (b : Bank) (n k : Nat) : (b.shut7 n).pane k = if k = n then Pane.empty else b.pane k := Bank.pane_setPane _ n k _

theorem Bank.slot_shut7 (b : Bank) (n k : Nat) {j : Nat} (hj : j < 8) :
    (b.shut7 n).slot k j = if k = n ∧ j = 7 then { b.slot n 7 with img := some (b.pane n).img } else b.slot k j :=
  Bank.slot_setSlot b n k _ (by decide) hj

theorem Bank.claimPanes_cons (b : Bank) (n : Nat) (ns : List Nat) : b.claimPanes (n :: ns) =
    if b.shuts n = true then (((b.shut7 n).claimPanes ns).1, n :: ((b.shut7 n).claimPanes ns).2)
    else if (b.pane n).park = true then ((b.claimPanes ns).1, (16 + n) :: (b.claimPanes ns).2) else b.claimPanes ns := rfl

/-- claim leaves every other field of the bank. -/
theorem Bank.claimPanes_rest (b : Bank) (ns : List Nat) : { (b.claimPanes ns).1 with panes := b.panes, slots := b.slots } = b := by
  induction ns generalizing b with
  | nil => rfl
  | cons n ns ih =>
    rw [Bank.claimPanes_cons]
    split_ifs
    · exact congrArg (fun x : Bank => { x with panes := b.panes, slots := b.slots }) (ih (b.shut7 n))
    · exact ih b
    · exact ih b

/-- What claim does to a pane and its slot 7, and what it records. -/
theorem Bank.claimPanes_spec (b : Bank) {ns : List Nat} (hns : ns.Nodup) :
    (∀ k, (b.claimPanes ns).1.pane k = if k ∈ ns ∧ b.shuts k = true then Pane.empty else b.pane k) ∧
      (∀ k j, j < 8 → (b.claimPanes ns).1.slot k j =
        if (k ∈ ns ∧ b.shuts k = true) ∧ j = 7 then { b.slot k 7 with img := some (b.pane k).img } else b.slot k j) ∧
      ∀ i, i ∈ (b.claimPanes ns).2 ↔ (i ∈ ns ∧ b.shuts i = true) ∨ ∃ n ∈ ns, (b.pane n).park = true ∧ i = 16 + n := by
  induction ns generalizing b with
  | nil => simp [Bank.claimPanes]
  | cons n ns ih =>
    obtain ⟨hn, hns⟩ := List.nodup_cons.1 hns
    rw [Bank.claimPanes_cons]
    by_cases hs : b.shuts n = true
    · obtain ⟨hpane, hslot, hmem⟩ := ih (b.shut7 n) hns
      have hother {k : Nat} (hk : k ∈ ns) : (b.shut7 n).pane k = b.pane k := by
        rw [Bank.pane_shut7, if_neg fun h : k = n => hn (h ▸ hk)]
      have hshuts (k : Nat) : (k ∈ ns ∧ (b.shut7 n).shuts k = true) ↔ (k ∈ ns ∧ b.shuts k = true) :=
        and_congr_right fun hk => by rw [Bank.shuts, hother hk, Bank.shuts]
      have hpark : (b.pane n).park = false := by
        simp only [Bank.shuts, Bool.and_eq_true, Bool.not_eq_true'] at hs
        exact hs.2
      rw [if_pos hs]
      refine ⟨fun k => ?_, fun k j hj => ?_, fun i => ?_⟩
      · rw [hpane]
        simp only [hshuts, Bank.pane_shut7, List.mem_cons]
        by_cases hk : k = n
        · simp [hk, hs]
        · simp [hk]
      · rw [hslot k j hj]
        simp only [hshuts, Bank.slot_shut7 b n k hj, Bank.slot_shut7 b n k (show 7 < 8 by decide), Bank.pane_shut7, List.mem_cons]
        by_cases hk : k = n
        · simp [hk, hs, hn]
        · simp [hk]
      · have hparks : (∃ m ∈ ns, ((b.shut7 n).pane m).park = true ∧ i = 16 + m) ↔ ∃ m ∈ ns, (b.pane m).park = true ∧ i = 16 + m :=
          exists_congr fun m => and_congr_right fun hm => by rw [hother hm]
        rw [List.mem_cons, hmem, hshuts, hparks, List.exists_mem_cons_iff, hpark, List.mem_cons]
        by_cases hi : i = n
        · simp [hi, hs]
        · simp [hi]
    · obtain ⟨hpane, hslot, hmem⟩ := ih b hns
      have hshuts (k : Nat) : (k ∈ ns ∧ b.shuts k = true) ↔ (k ∈ n :: ns ∧ b.shuts k = true) := by
        rw [List.mem_cons]
        refine ⟨fun h => ⟨.inr h.1, h.2⟩, fun h => ⟨h.1.resolve_left ?_, h.2⟩⟩
        rintro rfl
        exact hs h.2
      rw [if_neg hs]
      simp only [hshuts] at hpane hslot hmem
      by_cases hp : (b.pane n).park = true
      · rw [if_pos hp]
        refine ⟨hpane, hslot, fun i => ?_⟩
        rw [List.mem_cons, hmem, List.exists_mem_cons_iff, hp]
        simp only [true_and]
        exact or_left_comm
      · rw [if_neg hp]
        refine ⟨hpane, hslot, fun i => (hmem i).trans ?_⟩
        simp only [List.exists_mem_cons_iff, hp, Bool.false_eq_true, false_and, false_or]

/-! ## claim (R124) -/

theorem Bank.claimed_rest (b : Bank) : { b.claimed with m := b.m, panes := b.panes, slots := b.slots, claim := b.claim } = b :=
  congrArg (fun x : Bank => { x with m := b.m, claim := b.claim }) (b.claimPanes_rest (List.range 12))

theorem Bank.slot_claimed (b : Bank) (k : Nat) {j : Nat} (hj : j < 8) (h7 : j ≠ 7) : b.claimed.slot k j = b.slot k j :=
  ((b.claimPanes_spec List.nodup_range).2.1 k j hj).trans (if_neg fun h => h7 h.2)

/-- What claim saves in a bank, and what becomes of each pane. -/
theorem Bank.claimed_saves (b : Bank) : ∃ c, b.claimed.claim = some c ∧ c.m = b.m ∧ c.k = b.k ∧
    ∀ k, k < 12 →
      let p := b.pane k
      (p.isOpen = true → p.park = false → k ∈ c.panes ∧ b.claimed.pane k = Pane.empty ∧ (b.claimed.slot k 7).img = some p.img) ∧
      (p.park = true → 16 + k ∈ c.panes ∧ b.claimed.pane k = p) ∧
      (p.isOpen = false → p.park = false → k ∉ c.panes ∧ 16 + k ∉ c.panes ∧ b.claimed.pane k = p) := by
  obtain ⟨hpane, hslot, hmem⟩ := b.claimPanes_spec (ns := List.range 12) List.nodup_range
  refine ⟨_, rfl, rfl, rfl, fun k hk => ?_⟩
  have hin : k ∈ List.range 12 := List.mem_range.2 hk
  have hout (i : Nat) : 16 + i ∉ List.range 12 := fun h => by have := List.mem_range.1 h; omega
  refine ⟨fun ho hp => ?_, fun hp => ?_, fun ho hp => ?_⟩
  · have hs : b.shuts k = true := by simp [Bank.shuts, ho, hp]
    exact ⟨(hmem k).2 (.inl ⟨hin, hs⟩), (hpane k).trans (if_pos ⟨hin, hs⟩),
      congrArg Slot.img ((hslot k 7 (by decide)).trans (if_pos ⟨⟨hin, hs⟩, rfl⟩))⟩
  · have hs : ¬b.shuts k = true := by simp [Bank.shuts, hp]
    exact ⟨(hmem (16 + k)).2 (.inr ⟨k, hin, hp, rfl⟩), (hpane k).trans (if_neg fun h => hs h.2)⟩
  · have hs : ¬b.shuts k = true := by simp [Bank.shuts, ho]
    refine ⟨fun h => ?_, fun h => ?_, (hpane k).trans (if_neg fun h => hs h.2)⟩
    · rcases (hmem k).1 h with h | ⟨n, -, -, h⟩
      · exact hs h.2
      · omega
    · rcases (hmem (16 + k)).1 h with h | ⟨n, -, hn, h⟩
      · exact hout k h.1
      · obtain rfl : k = n := by omega
        exact absurd hn (by simp [hp])

theorem Part.late_claimed (p : Part) : p.claimed.late = p.late := by
  cases h : p.convoy <;> simp [Part.late, Part.claimed, Part.uncut, h]

theorem Part.endConvoy_vl_eq (p : Part) : p.endConvoy.vl = (p.convoy.bind (·.cut)).getD p.vl := rfl

/-- The state in which claim has saved everything, its part still to go on. -/
def State.claimAll (s : State) : State :=
  ((s.modBanks s.focus.core (fun _ b => b.claimed) s.fseat.banks).dropLinks s.focus.core s.fseat.banks).modSeat s.focus
    (fun x => { x.mapParts Part.claimed with status := { x.status with clm := true } })

section
variable (s : State)

@[simp] theorem State.claimAll_focus : s.claimAll.focus = s.focus := State.modBanks_focus s _ _ _

theorem State.claimAll_rest : { s.claimAll with cores := s.cores, linked := s.linked } = s := by
  change { s.modBanks s.focus.core (fun _ b => b.claimed) s.fseat.banks with cores := s.cores, linked := s.linked } = s
  simp

theorem State.claimAll_linked :
    s.claimAll.linked = s.linked.filter (fun l => !(l.core == s.focus.core && s.fseat.banks.contains l.bank)) :=
  congrArg (List.filter _) (State.modBanks_linked s _ _ _)

theorem State.claimAll_cores : SameCores s s.claimAll :=
  have h := (SameCores.refl s).modBanks s.focus.core (fun _ b => b.claimed) s.fseat.banks
  have hlinks : SameCores s ((s.modBanks s.focus.core (fun _ b => b.claimed) s.fseat.banks).dropLinks s.focus.core s.fseat.banks) :=
    ⟨h.cores, h.seats⟩
  hlinks.setSeat _

theorem State.claimAll_seat :
    s.claimAll.seat s.focus = { s.fseat.mapParts Part.claimed with status := { s.fseat.status with clm := true } } := by
  rw [State.claimAll, State.seat_modSeat, show ((s.modBanks s.focus.core (fun _ b => b.claimed) s.fseat.banks).dropLinks s.focus.core
    s.fseat.banks).seat s.focus = s.fseat from State.seat_modBanks s _ _ _ _]

theorem State.claimAll_part? (q : Nat) : (s.claimAll.seat s.focus).part? q = (s.fseat.part? q).map Part.claimed := by
  rw [State.claimAll_seat]
  exact Seat.part?_mapParts s.fseat Part.claimed q

theorem State.claimAll_bank (c b : Nat) : s.claimAll.bank c b = if c = s.focus.core ∧ b ∈ s.fseat.banks then (s.bank c b).claimed else s.bank c b :=
  (State.bank_modSeat _ _ _ c b).trans (State.bank_modBanks s s.focus.core (fun _ b => b.claimed) s.fseat.banks c b s.fseat.banks_nodup)

theorem settled_claimAll (hs : Settled s) : Settled s.claimAll := by
  have h : s.claimAll.part s.claimAll.focus = ((s.fseat.part? s.focus.seq).map Part.claimed).getD Part.empty := by
    rw [State.part, State.claimAll_focus, State.claimAll_part?]
  have hs' : ((s.fseat.part? s.focus.seq).getD Part.empty).late = [] := hs
  rw [Settled, h]
  cases hq : s.fseat.part? s.focus.seq with
  | none => rfl
  | some p =>
    rw [hq] at hs'
    exact (Part.late_claimed p).trans hs'

end

theorem claim_next {s : State} (hl : s.fseat.status.lvl = true) (hc : s.fseat.status.clm = false)
    (hw : claimWait s s.focus.core s.fseat.banks = none) : exec .claim s = .next s.claimAll.retire := by
  change execClaim s = _
  simp only [execClaim, hl, hc, hw]
  rfl

/-- Settles O14: every bank and every part of the seat is saved in one way. -/
theorem claimParksTheVectorState : Obligations.ClaimParksTheVectorState := by
  intro s hs u claimed
  refine ⟨fun hl => ?_, fun hl hc => ?_, fun hl hc => ⟨fun w hw => waits_of ?_, fun hw => ⟨_, claim_next hl hc hw, ?_⟩⟩⟩
  · change execClaim s = _
    simp only [execClaim, show s.fseat.status.lvl = false from hl]
    rfl
  · change execClaim s = _
    simp only [execClaim, show s.fseat.status.lvl = true from hl, show s.fseat.status.clm = true from hc]
    rfl
  · change execClaim s = _
    simp only [execClaim, show s.fseat.status.lvl = true from hl, show s.fseat.status.clm = false from hc, show claimWait s s.focus.core s.fseat.banks = _ from hw]
    rfl
  have hret := State.retire_of_settled (settled_claimAll s hs)
  rw [State.claimAll_focus] at hret
  rw [hret]
  have hpeek (a : Nat) : s.claimAll.peek a 1 = s.peek a 1 := by
    have h := congrArg (fun t : State => t.peek a 1) s.claimAll_rest
    exact h
  have hbank := s.claimAll_bank
  refine ⟨s.claimAll_rest, s.claimAll_cores.setPart _, hpeek, s.claimAll_linked, ?_, ?_, fun p hp => ?_, fun q hq => ?_, fun c b hb => ?_, fun b hb => ?_⟩
  · rw [State.seat_setPart, State.claimAll_seat]
    rfl
  · rw [State.seat_setPart, State.claimAll_seat]
    rfl
  · rw [State.part_setPart, State.part, State.claimAll_part?, show s.fseat.part? s.focus.seq = some p from hp]
    rfl
  · rw [State.seat_setPart, Seat.part?_setPart?, if_neg hq, State.claimAll_part?]
    rfl
  · rw [State.bank_setPart, hbank, if_neg hb]
  · have hb' : (s.claimAll.setPart s.focus (s.claimAll.part s.focus).advance).fbank b = (s.fbank b).claimed := by
      rw [State.fbank, State.bank_setPart, show (s.claimAll.setPart s.focus (s.claimAll.part s.focus).advance).focus = s.focus from s.claimAll_focus,
        hbank, if_pos ⟨rfl, hb⟩]
      rfl
    rw [hb']
    exact ⟨Bank.claimed_rest _, fun _ => rfl, fun k j hj h7 => Bank.slot_claimed _ k hj h7, Bank.claimed_saves _⟩

end Sys2Proof.Machine
end

section
/-! Address registers and smine (O25): size code and address as numbers, pointers advanced one by one. -/

namespace Sys2Proof.Machine

-- Proofs elaborated side by side each hold a thread's stack, and the whole text compiles near the memory limit of its check.
set_option Elab.async false

/-! ## The word of an address register (R14) -/

/-- Size code and address, the bits between them zero. -/
def addrWord (esz va : Nat) : Word := BitVec.ofNat 64 (esz * 2 ^ 61 + va % 2 ^ 56)

theorem append_eq_addrWord (z : BitVec 3) (v : BitVec 56) : z ++ 0#5 ++ v = addrWord z.toNat v.toNat := by
  apply BitVec.eq_of_toNat_eq
  have h5 : (0#5).toNat = 0 := rfl
  rw [BitVec.toNat_append, BitVec.toNat_append, ← Nat.shiftLeft_add_eq_or_of_lt v.isLt, h5, Nat.or_zero, addrWord, BitVec.toNat_ofNat]
  simp only [Nat.shiftLeft_eq]
  omega

theorem esz_lt (v : Word) : v.toNat / 2 ^ 61 < 2 ^ 3 := by
  have := v.isLt
  omega

theorem aMask_getLsbD {i : Nat} (h : i < 64) : (0xE0FFFFFFFFFFFFFF : Word).getLsbD i = (decide (i < 56) || decide (61 ≤ i)) := by
  revert i
  decide

theorem aMask_eq (v : Word) : aMask v = addrWord (v.toNat / 2 ^ 61) v.toNat := by
  have happ : aMask v = v.extractLsb' 61 3 ++ 0#5 ++ v.extractLsb' 0 56 := by
    refine BitVec.eq_of_getLsbD_eq fun i hi => ?_
    rw [aMask, BitVec.getLsbD_and, aMask_getLsbD hi]
    simp only [BitVec.getLsbD_append, BitVec.getLsbD_extractLsb', BitVec.getLsbD_zero]
    split_ifs with h1 h2
    · simp [h1]
    · simp [h1, show ¬61 ≤ i by omega]
    · rw [show 61 + (i - 56 - 5) = i by omega]
      simp [show 61 ≤ i by omega, show i - 56 - 5 < 3 by omega]
  rw [happ, append_eq_addrWord, addrWord, addrWord, BitVec.extractLsb'_toNat, BitVec.extractLsb'_toNat, Nat.shiftRight_eq_div_pow, Nat.shiftRight_zero,
    Nat.mod_mod, Nat.mod_eq_of_lt (esz_lt v)]

theorem aMask_addrWord {esz : Nat} (h : esz < 8) (va : Nat) : aMask (addrWord esz va) = addrWord esz va := by
  have hv : (addrWord esz va).toNat = esz * 2 ^ 61 + va % 2 ^ 56 := by
    rw [addrWord, BitVec.toNat_ofNat, Nat.mod_eq_of_lt (by omega)]
  rw [aMask_eq, hv, addrWord, addrWord]
  exact congrArg (BitVec.ofNat 64) (by omega)

theorem addrWord_mod (esz va : Nat) : addrWord esz (va % 2 ^ 56) = addrWord esz va := by rw [addrWord, Nat.mod_mod, addrWord]

theorem aEsz_eq (v : Word) : aEsz v = v.toNat / 2 ^ 61 := by
  rw [aEsz, BitVec.extractLsb'_toNat, Nat.shiftRight_eq_div_pow, Nat.mod_eq_of_lt (esz_lt v)]

theorem aMove_eq (v off : Word) : aMove v off = addrWord (v.toNat / 2 ^ 61) (v.toNat % 2 ^ 56 + off.toNat) := by
  rw [aMove, append_eq_addrWord, show (v.extractLsb' 61 3).toNat = v.toNat / 2 ^ 61 from aEsz_eq v, BitVec.extractLsb'_toNat, Nat.shiftRight_zero,
    BitVec.toNat_add, addrWord, addrWord]
  exact congrArg (BitVec.ofNat 64) (by omega)

theorem aMask_aMove (v off : Word) : aMask (aMove v off) = aMove v off := by rw [aMove_eq, aMask_addrWord (esz_lt v)]

/-- aD := f, in every active bank. -/
theorem writesAddr_of {s : State} (hs : Settled s) {i : Instr} {d : BitVec 3} {f g : Bank → Word} (hi : exec i s = s.perBank (fun x => x.wa d (f x)))
    (hf : ∀ x, aMask (f x) = g x) : WritesAddr i s d g := by
  obtain ⟨t, ht, ha, hp, hb⟩ := perBank_next hs (fun x => x.wa d (f x))
  refine ⟨t, hi.trans ht, ha, hp, onBanks_of (f := fun _ x => x.wa d (f x)) hb fun _ x => ?_⟩
  rw [← hf x]
  exact addrOnly_wa d (f x) x

theorem aset_word (v : Word) {z : BitVec 5} (hz : z.toNat ≤ 5) :
    aMask (z.setWidth 3 ++ 0#5 ++ v.extractLsb' 0 56) = addrWord z.toNat v.toNat := by
  rw [append_eq_addrWord, BitVec.toNat_setWidth, BitVec.extractLsb'_toNat, Nat.shiftRight_zero, Nat.mod_eq_of_lt (by omega),
    aMask_addrWord (by omega), addrWord, Nat.mod_mod]
  rfl

/-- An address moved by an immediate. -/
theorem aaddi_word (v : Word) (imm : BitVec 22) :
    aMask (aMove v (imm.signExtend 64)) = addrWord (v.toNat / 2 ^ 61) (((v.toNat % 2 ^ 56 : Nat) : Int) + imm.toInt + 2 ^ 56).toNat := by
  have hlow := BitVec.le_two_mul_toInt (x := imm)
  have hhigh := BitVec.two_mul_toInt_lt (x := imm)
  have hext : ((imm.signExtend 64).toNat : Int) = imm.toInt % 2 ^ 64 := by
    have h := BitVec.toInt_signExtend_of_le (x := imm) (v := 64) (by decide)
    have := BitVec.toInt_eq_toNat_cond (imm.signExtend 64)
    rw [h] at this
    split at this <;> omega
  rw [aMask_aMove, aMove_eq, addrWord, addrWord]
  exact congrArg (BitVec.ofNat 64) (by omega)

/-! ## smine (R147) -/

theorem Bank.rs_wa (b : Bank) (p : BitVec 3) (v : Word) (n : BitVec 5) : (b.wa p v).rs n = b.rs n := rfl

/-- The address a pointer has after a strip of g elements. -/
def stripped (v : Word) (g : Nat) : Word := addrWord (v.toNat / 2 ^ 61) (v.toNat % 2 ^ 56 + strideOf (v.toNat / 2 ^ 61) g)

theorem aMove_stride (v : Word) (g : Nat) : aMove v (BitVec.ofNat 64 (strideOf (aEsz v) g)) = stripped v g := by
  rw [aMove_eq, aEsz_eq, stripped, addrWord, addrWord, BitVec.toNat_ofNat]
  exact congrArg (BitVec.ofNat 64) (by omega)

theorem Bank.advancePtrs_spec (b : Bank) (g : Nat) {ps : List (BitVec 3)} (h : ps.Nodup) :
    (∀ p, (b.advancePtrs g ps).ra p = if p ∈ ps then stripped (b.ra p) g else b.ra p) ∧ { b.advancePtrs g ps with a := b.a } = b := by
  induction ps generalizing b with
  | nil => exact ⟨fun p => (if_neg List.not_mem_nil).symm, rfl⟩
  | cons q ps ih =>
    obtain ⟨hq, hps⟩ := List.nodup_cons.1 h
    obtain ⟨hra, hrest⟩ := ih (b.wa q (aMove (b.ra q) (BitVec.ofNat 64 (strideOf (aEsz (b.ra q)) g)))) hps
    refine ⟨fun p => ?_, congrArg (fun x : Bank => { x with a := b.a }) hrest⟩
    rw [Bank.advancePtrs, hra, Bank.ra_wa, aMask_aMove, aMove_stride]
    by_cases hp : p = q
    · subst hp
      simp [hq]
    · simp [hp]

theorem Bank.rs_advancePtrs (b : Bank) (g : Nat) {ps : List (BitVec 3)} (h : ps.Nodup) (n : BitVec 5) : (b.advancePtrs g ps).rs n = b.rs n := by
  have hrest := congrArg (fun x : Bank => x.rs n) (b.advancePtrs_spec g h).2
  exact hrest

theorem remaining_eq (c : Word) (g : Nat) : remaining c g = BitVec.ofNat 64 (c.toNat - g) := by
  have hc := c.isLt
  apply BitVec.eq_of_toNat_eq
  unfold remaining
  split
  next h => 
    rw [BitVec.toNat_sub, BitVec.toNat_ofNat, BitVec.toNat_ofNat]
    omega
  next h => simp [show c.toNat - g = 0 by omega]

theorem stripLen_eq (c : Word) (g m : Nat) : stripLen c g m = min (c.toNat - g) m := by
  have hc := c.isLt
  rw [stripLen, remaining_eq, BitVec.toNat_ofNat, Nat.mod_eq_of_lt (by omega)]

theorem badPtr_of_first {s : State} {ps before after pre post : List _} {b : Nat} {p : BitVec 3} (ha : s.active = before ++ b :: after)
    (hbefore : ∀ c ∈ before, ∀ q ∈ ps, aEsz ((s.fbank c).ra q) < 6) (hps : ps = pre ++ p :: post)
    (hpre : ∀ q ∈ pre, aEsz ((s.fbank b).ra q) < 6) (hp : 6 ≤ aEsz ((s.fbank b).ra p)) : badPtr s ps = some p := by
  have hnone : before.flatMap (fun c => ps.filter (fun q => decide (6 ≤ aEsz ((s.fbank c).ra q)))) = [] :=
    List.flatMap_eq_nil_iff.2 fun c hc => List.filter_eq_nil_iff.2 fun q hq => by simpa using hbefore c hc q hq
  have hpre' : pre.filter (fun q => decide (6 ≤ aEsz ((s.fbank b).ra q))) = [] :=
    List.filter_eq_nil_iff.2 fun q hq => by simpa using hpre q hq
  rw [badPtr, ha, List.flatMap_append, hnone, List.nil_append, List.flatMap_cons, hps, List.filter_append, hpre', List.nil_append,
    List.filter_cons_of_pos (by simpa using hp)]
  rfl

theorem badPtr_none {s : State} {ps : List (BitVec 3)} (h : ∀ b ∈ s.active, ∀ p ∈ ps, aEsz ((s.fbank b).ra p) < 6) : badPtr s ps = none := by
  rw [badPtr, List.flatMap_eq_nil_iff.2 fun b hb => List.filter_eq_nil_iff.2 fun p hp => by simpa using h b hb p hp]
  rfl

/-- A change of the active banks and of the part in focus, and the end of the instruction. -/
theorem retire_onActive_modPart {s : State} (h : Settled s) (f : Nat → Bank → Bank) {g : Part → Part} (hg : (g (s.part s.focus)).late = (s.part s.focus).late) :
    let t := ((s.onActive f).modPart s.focus g).retire
    AroundPart s t ∧ t.part s.focus = (g (s.part s.focus)).advance ∧
      ∀ c b, t.bank c b = if c = s.focus.core ∧ b ∈ s.active then f b (s.bank c b) else s.bank c b := by
  intro t
  have hpart : ((s.onActive f).modPart s.focus g).part s.focus = g (s.part s.focus) := by rw [State.part_modPart, State.part_onActive]
  have hfocus : ((s.onActive f).modPart s.focus g).focus = s.focus := State.onActive_focus s f
  have hset : Settled ((s.onActive f).modPart s.focus g) := by
    rw [Settled, hfocus, hpart, hg]
    exact h
  have ht : t = ((s.onActive f).modPart s.focus g).setPart s.focus (g (s.part s.focus)).advance := by
    have := State.retire_of_settled hset
    rw [hfocus, hpart] at this
    exact this
  have hrest : { t with cores := s.cores } = s := by
    rw [ht]
    exact State.onActive_rest s f
  rw [ht] at hrest ⊢
  have hbyte (a : Nat) := congrArg (fun x : State => x.peek a 1) hrest
  refine ⟨⟨hrest, hbyte, ?_, ?_, fun q hq => ?_⟩, State.part_setPart _ _ _, fun c b => ?_⟩
  · exact (((SameCores.refl s).modBanks s.focus.core f s.active).setPart _).setPart _
  · rw [State.seat_setPart, State.modPart, State.seat_setPart, State.seat_onActive]
    rfl
  · rw [State.seat_setPart, Seat.part?_setPart?, if_neg hq, State.modPart, State.seat_setPart, Seat.part?_setPart?, if_neg hq, State.seat_onActive]
  · rw [State.bank_setPart, State.bank_modPart, State.bank_onActive]

theorem smineBank_spec {o : SmineOps} (hc : o.c ≠ 0) (hps : (sminePtrs o).Nodup) (g m : Nat) (x : Bank) :
    (∀ n, (smineBank o g m x).rs n = if n = o.d ∧ o.d ≠ 0 then BitVec.ofNat 64 (min ((x.rs o.c).toNat - g) m)
      else if n = o.c then BitVec.ofNat 64 ((x.rs o.c).toNat - g) else x.rs n) ∧
      (∀ p, (smineBank o g m x).ra p = if p ∈ sminePtrs o then stripped (x.ra p) g else x.ra p) ∧
      { smineBank o g m x with s := x.s, a := x.a } = x := by
  obtain ⟨hra, hrest⟩ := x.advancePtrs_spec g hps
  have hws (b : Bank) (n : BitVec 5) (v : Word) : { b.ws n v with s := x.s, a := x.a } = { b with s := x.s, a := x.a } ∧ ∀ p, (b.ws n v).ra p = b.ra p := by
    unfold Bank.ws
    split <;> exact ⟨rfl, fun _ => rfl⟩
  refine ⟨fun n => ?_, fun p => ?_, ?_⟩
  · rw [smineBank, Bank.rs_ws, Bank.rs_ws, Bank.rs_advancePtrs x g hps, stripLen_eq, remaining_eq]
    simp only [hc, ne_eq, not_false_eq_true, and_true]
  · rw [smineBank, (hws _ _ _).2, (hws _ _ _).2, hra]
  · rw [smineBank, (hws _ _ _).1, (hws _ _ _).1]
    exact congrArg (fun b : Bank => { b with s := x.s }) hrest

theorem vlMax_eq (u : Seat) (t : BitVec 4) (g : BitVec 2) :
    u.vlMax (fmtBits t) (groupSize g) = u.size * (2 ^ g.toNat * (2 ^ u.lcap * 8 / fmtBits t)) := by
  rw [Seat.vlMax, Seat.local_, Seat.perPane, Seat.paneSize, groupSize, Nat.mul_comm 8]

/-- Settles O25: an address is moved within its field; smine looks for a bad pointer, then changes every bank and the strip length. -/
theorem addressRegistersAndSmine : Obligations.AddressRegistersAndSmine := by
  refine ⟨fun s d a r b z imm hs => ?_, fun s o hs hc hn ht => ?_⟩
  · exact ⟨writesAddr_of hs rfl fun x => (aMask_eq _).trans (addrWord_mod _ _).symm, fun hz => writesAddr_of hs rfl fun x => aset_word _ hz,
      writesAddr_of hs rfl fun x => (aMask_aMove _ _).trans (aMove_eq _ _), writesAddr_of hs rfl fun x => aaddi_word _ imm, writesReg_of hs rfl⟩
  · intro ps hps size g left vlmax new
    have hsize (b : Nat) (p : BitVec 3) : aEsz ((s.fbank b).ra p) = size b p := aEsz_eq _
    refine ⟨fun before b after ha hbefore pre p post hp hpre hbad => ?_, fun hok => ?_⟩
    · have hfirst : badPtr s (sminePtrs o) = some p :=
        badPtr_of_first ha (fun c hc q hq => (hsize c q).trans_lt (hbefore c hc q hq)) hp (fun q hq => (hsize b q).trans_lt (hpre q hq))
          (hbad.trans_eq (hsize b p).symm)
      change execSmine o s = _
      rw [execSmine, hfirst, ← setWidth_eq_ofNat]
    · have hnone : badPtr s (sminePtrs o) = none := badPtr_none fun b hb p hp => (hsize b p).trans_lt (hok b hb p hp)
      have hnew : stripLen (s.seqReg o.c) g (s.fseat.vlMax (fmtBits o.t) (groupSize o.g)) = new s.seqBank := by
        rw [stripLen_eq, vlMax_eq]
        rfl
      obtain ⟨ha, hp, hb⟩ := retire_onActive_modPart hs (fun _ b => smineBank o g vlmax b) (g := fun p => { p with vl := new s.seqBank }) rfl
      refine ⟨_, ?_, ha, hp, fun c b => ?_⟩
      · change execSmine o s = _
        rw [execSmine, hnone, ← hnew, show vlmax = s.fseat.vlMax (fmtBits o.t) (groupSize o.g) from (vlMax_eq _ _ _).symm]
      · rw [hb c b]
        split
        next h =>
          obtain ⟨rfl, -⟩ := h
          exact smineBank_spec hc hps g vlmax (s.fbank b)
        next h => rfl

end Sys2Proof.Machine
end

section
/-! Release points of a replica (O9): what a snapshot does to panes and slots, and the state past it. -/

namespace Sys2Proof.Machine

-- Proofs elaborated side by side each hold a thread's stack, and the whole text compiles near the memory limit of its check.
set_option Elab.async false

/-! ## The end of an instruction that has changed other things than registers -/

/-- The part in focus goes on from a state that an instruction has left, its late results being none. -/
theorem retire_after {s t : State} (hs : Settled s) (hf : t.focus = s.focus) (hp : t.part s.focus = s.part s.focus) :
    t.retire = t.setPart s.focus (s.part s.focus).advance := by
  have ht : Settled t := by
    rw [Settled, hf, hp]
    exact hs
  rw [State.retire_of_settled ht, hf, hp]

theorem around_advance {s t : State} (hr : { t with cores := s.cores } = s) (hc : SameCores s t) (ht : t.seat s.focus = s.seat s.focus) :
    Around s (t.setPart s.focus (s.part s.focus).advance) := by
  obtain ⟨pc, cv, v, hp, hv⟩ := Part.advance_eq (s.part s.focus)
  rw [hp]
  exact Around.of hr (hc.setPart _) (SameSeat.setPart ht pc none cv 0 v hv)

/-! ## Snapshots (R337) -/

/-- A snapshot reopens a parked pane. -/
def Bank.unparked (b : Bank) (n : Nat) : Bank := if (b.pane n).park then b.unparkPane n else b

/-- The bank after a snapshot has kept one pane. -/
def Bank.snap1 (b : Bank) (n : Nat) : Bank := if ((b.unparked n).pane n).holds then (b.unparked n).keepImage n 6 else b.unparked n

theorem Bank.snapPanes_cons (b : Bank) (n : Nat) (ns : List Nat) : b.snapPanes (n :: ns) = (b.snap1 n).snapPanes ns := rfl

theorem Bank.unparked_rest (b : Bank) (n : Nat) : { b.unparked n with panes := b.panes } = b := by
  unfold Bank.unparked
  split <;> rfl

theorem Bank.snap1_rest (b : Bank) (n : Nat) : { b.snap1 n with panes := b.panes, slots := b.slots } = b := by
  have h := congrArg (fun x : Bank => { x with slots := b.slots }) (b.unparked_rest n)
  unfold Bank.snap1
  split
  · exact h
  · exact h

theorem Bank.slot_unparked (b : Bank) (n k j : Nat) : (b.unparked n).slot k j = b.slot k j := by
  unfold Bank.unparked
  split <;> rfl

theorem Bank.pane_unparked_of_ne (b : Bank) {n k : Nat} (h : k ≠ n) : (b.unparked n).pane k = b.pane k := by
  unfold Bank.unparked
  split
  · exact (Bank.pane_setPane b n k _).trans (if_neg h)
  · rfl

theorem Bank.pane_unparked (b : Bank) (n : Nat) :
    ((b.pane n).park = false → (b.unparked n).pane n = b.pane n) ∧
      ((b.pane n).park = true → ((b.unparked n).pane n).park = false ∧ ∀ img, (b.slot n 5).img = some img → ((b.unparked n).pane n).img = img) := by
  unfold Bank.unparked
  refine ⟨fun h => by rw [h]; rfl, fun h => ?_⟩
  rw [if_pos h, Bank.unparkPane, Bank.pane_setPane, if_pos rfl]
  exact ⟨rfl, fun img hi => by rw [hi]; rfl⟩

theorem Bank.pane_snap1 (b : Bank) (n k : Nat) : (b.snap1 n).pane k = (b.unparked n).pane k := by
  unfold Bank.snap1
  split <;> rfl

theorem Bank.slot_snap1 (b : Bank) (n k : Nat) {j : Nat} (hj : j < 8) : (b.snap1 n).slot k j =
    if k = n ∧ j = 6 ∧ ((b.unparked n).pane n).holds = true then { b.slot n 6 with img := some ((b.unparked n).pane n).final } else b.slot k j := by
  unfold Bank.snap1
  split
  next h => 
    rw [Bank.keepImage, Bank.slot_setSlot _ n k _ (by decide) hj]
    simp only [Bank.slot_unparked, h, and_true]
  next h => 
    rw [if_neg fun hk => h hk.2.2, Bank.slot_unparked]

theorem Bank.snapPanes_rest (b : Bank) (ns : List Nat) : { b.snapPanes ns with panes := b.panes, slots := b.slots } = b := by
  induction ns generalizing b with
  | nil => rfl
  | cons n ns ih =>
    have h := congrArg (fun x : Bank => { x with panes := b.panes, slots := b.slots }) (ih (b.snap1 n))
    exact h.trans (b.snap1_rest n)

/-- A pane that is not in the list keeps itself and its slots. -/
theorem Bank.snapPanes_other (b : Bank) {ns : List Nat} {k : Nat} (hk : k ∉ ns) :
    (b.snapPanes ns).pane k = b.pane k ∧ ∀ j, j < 8 → (b.snapPanes ns).slot k j = b.slot k j := by
  induction ns generalizing b with
  | nil => exact ⟨rfl, fun _ _ => rfl⟩
  | cons n ns ih =>
    obtain ⟨hn, hns⟩ := not_or.1 (mt List.mem_cons.2 hk)
    obtain ⟨hpane, hslot⟩ := ih (b.snap1 n) hns
    refine ⟨hpane.trans ((b.pane_snap1 n k).trans (b.pane_unparked_of_ne hn)), fun j hj => (hslot j hj).trans ?_⟩
    rw [Bank.slot_snap1 b n k hj, if_neg fun h => hn h.1]

/-- Each pane of the list is kept once. -/
theorem Bank.snapPanes_mem (b : Bank) {ns : List Nat} (hns : ns.Nodup) {k : Nat} (hk : k ∈ ns) :
    (b.snapPanes ns).pane k = (b.unparked k).pane k ∧
      (((b.unparked k).pane k).holds = true → ((b.snapPanes ns).slot k 6).img = some ((b.unparked k).pane k).final) := by
  induction ns generalizing b with
  | nil => exact absurd hk List.not_mem_nil
  | cons n ns ih =>
    obtain ⟨hn, hns⟩ := List.nodup_cons.1 hns
    rw [Bank.snapPanes_cons]
    by_cases hkn : k = n
    · subst hkn
      obtain ⟨hpane, hslot⟩ := (b.snap1 k).snapPanes_other hn
      refine ⟨hpane.trans (b.pane_snap1 k k), fun hh => ?_⟩
      rw [hslot 6 (by decide), Bank.slot_snap1 b k k (by decide), if_pos ⟨rfl, rfl, hh⟩]
    · have hp : (b.snap1 n).pane k = b.pane k := (b.pane_snap1 n k).trans (b.pane_unparked_of_ne hkn)
      have h5 : (b.snap1 n).slot k 5 = b.slot k 5 := (b.slot_snap1 n k (by decide)).trans (if_neg fun h => hkn h.1)
      have hu : ((b.snap1 n).unparked k).pane k = (b.unparked k).pane k := by
        unfold Bank.unparked
        rw [hp]
        split
        · rw [Bank.unparkPane, Bank.unparkPane, Bank.pane_setPane, Bank.pane_setPane, if_pos rfl, if_pos rfl, hp, h5]
        · exact hp
      have := ih (b.snap1 n) hns ((List.mem_cons.1 hk).resolve_left hkn)
      rwa [hu] at this

theorem Pane.holds_of_mem {p : Pane} (h : p.st ∈ [PaneState.opening, .openClean, .openDirty, .writing]) : p.holds = true := by
  simp only [List.mem_cons, List.not_mem_nil, or_false] at h
  rcases h with h | h | h | h <;> simp [Pane.holds, Pane.isOpen, h]

theorem State.flushParts_quads (s : State) (core : Nat) (ps : List (Nat × Option Part)) :
    (s.flushParts core ps).quads = s.quads ∧ (s.flushParts core ps).opAge = s.opAge := by
  induction ps generalizing s with
  | nil => exact ⟨rfl, rfl⟩
  | cons p ps ih =>
    obtain ⟨q, x⟩ := p
    cases x with
    | none => exact ih s
    | some x =>
      obtain ⟨hq, ho⟩ := ih (s.flushLate core x.late)
      exact ⟨hq.trans (State.flushLate_quads s _ _), ho.trans (State.flushLate_opAge s _ _)⟩

/-! ## rel (R333, R337) -/

section
variable {s : State} {r : Replica}

theorem rel_of_task (h : s.fseat.red = none) : exec .rel s = .next s.retire := by
  change withRelease s 1 [] (fun _ => (s, .ok)) = _
  rw [withRelease, h]
  rfl

theorem rel_of_localOp (h : s.fseat.red = some r) (hr : r.released = false) {i : Nat} (hi : s.localOp = some i) :
    exec .rel s = .next (s.waitOn (.op i)) := by
  change withRelease s 1 [] (fun _ => (s, .ok)) = _
  simp only [withRelease, h, hr, hi]
  rfl

theorem rel_of_holds (h : s.fseat.red = some r) (hr : r.released = false) (hi : s.localOp = none) :
    exec .rel s = .next (s.holdForVote r 1 []) := by
  change withRelease s 1 [] (fun _ => (s, .ok)) = _
  simp only [withRelease, h, hr, hi]
  rfl

theorem rel_of_released (h : s.fseat.red = some r) (hr : r.released = true) :
    exec .rel s = if s.awaitsPerformer r then .next (s.waitOn .vote) else .next s.retire.afterRelease := by
  change withRelease s 1 [] (fun _ => (s, .ok)) = _
  simp only [withRelease, h, hr]
  rfl

theorem awaitsPerformer_iff : s.awaitsPerformer r = true ↔ r.performer = false ∧ ∃ q, s.performing s.fseat.launch s.fseat.task = some q := by
  simp [State.awaitsPerformer, Option.isSome_iff_exists]

/-- The replica past its release point. -/
def State.pastRelease (s : State) (r : Replica) : Seat → Seat :=
  let s1 := s.modBanks s.focus.core (fun _ b => b.snapPanes (List.range 12)) s.fseat.banks
  fun x => { x with red := some { r with
    dirty := [], echoLog := r.echoLog.drop r.echoPos, echoPos := 0, hold := none, released := false, performer := false
    snap := some (takeSnapshot s1 s.focus.core x) } }

theorem afterRelease_eq {x : Seat} (hx : s.fseat = x) (h : x.red = some r) : s.afterRelease =
    (s.modBanks s.focus.core (fun _ b => b.snapPanes (List.range 12)) x.banks).setSeat s.focus (s.pastRelease r x) := by
  subst hx
  have hseat : (s.modBanks s.focus.core (fun _ b => b.snapPanes (List.range 12)) s.fseat.banks).seat s.focus = s.fseat := State.seat_modBanks s _ _ _ _
  simp only [State.afterRelease, h, State.modSeat, hseat, State.pastRelease]
  rfl

end

/-! ## Past a release point (R337) -/

theorem takeSnapshot_fields (s : State) (core : Nat) (t : Seat) :
    let z := takeSnapshot s core t
    (z.parts, z.status, z.cause, z.epc, z.tval, z.tvec, z.handler, z.prio, z.lcap, z.bars, z.mg, z.shape, z.opAge) =
      (t.parts, t.status, t.cause, t.epc, t.tval, t.tvec, t.handler, t.prio, t.lcap, t.bars, t.rows.length, t.shape, s.opAge) ∧
    z.sram = t.sram.map (fun b => ⟨b, s.sram (core / 4) b⟩) := by
  obtain ⟨hq, ho⟩ := s.flushParts_quads core t.parts
  refine ⟨?_, ?_⟩
  · simp only [takeSnapshot, ho]
  · simp only [takeSnapshot, State.sram, State.quad, hq]

/-- What the panes and slots of a bank are after a snapshot. -/
theorem Bank.snapPanes_spec (x : Bank) {k : Nat} (hk : k < 12) :
    ((x.pane k).park = false → (x.snapPanes (List.range 12)).pane k = x.pane k ∧
      ((x.pane k).st ∈ [PaneState.opening, .openClean, .openDirty, .writing] →
        ((x.snapPanes (List.range 12)).slot k 6).img = some ((x.pane k).next.getD (x.pane k).img))) ∧
    ((x.pane k).park = true → ((x.snapPanes (List.range 12)).pane k).park = false ∧
      ∀ img, (x.slot k 5).img = some img → ((x.snapPanes (List.range 12)).pane k).img = img) := by
  obtain ⟨hpane, hslot⟩ := x.snapPanes_mem List.nodup_range (List.mem_range.2 hk)
  obtain ⟨hopen, hparked⟩ := x.pane_unparked k
  rw [hpane]
  refine ⟨fun hp => ?_, hparked⟩
  rw [hopen hp] at hslot ⊢
  exact ⟨rfl, fun hst => hslot (Pane.holds_of_mem hst)⟩

section
variable {s : State} {r : Replica}

theorem rel_passes (hs : Settled s) (h : s.fseat.red = some r) :
    ∃ z, { s.retire.afterRelease with cores := s.cores } = s ∧
      SameCores s s.retire.afterRelease ∧ Proceeds s s.retire.afterRelease ∧
      (s.retire.afterRelease.seat s.focus).red = some { r with
        dirty := [], echoLog := r.echoLog.drop r.echoPos, echoPos := 0, hold := none, released := false, performer := false, snap := some z } ∧
      (z.parts, z.status, z.cause, z.epc, z.tval, z.tvec, z.handler, z.prio, z.lcap, z.bars, z.mg, z.shape, z.opAge) =
        ((s.retire.afterRelease.seat s.focus).parts, s.fseat.status, s.fseat.cause, s.fseat.epc, s.fseat.tval, s.fseat.tvec, s.fseat.handler,
          s.fseat.prio, s.fseat.lcap, s.fseat.bars, s.fseat.rows.length, s.fseat.shape, s.opAge) ∧
      z.sram = s.fseat.sram.map (fun b => ⟨b, s.sram (s.focus.core / 4) b⟩) ∧
      ∀ c b, s.retire.afterRelease.bank c b =
        if c = s.focus.core ∧ b ∈ s.fseat.banks then (s.bank c b).snapPanes (List.range 12) else s.bank c b := by
  let u : Seat := s.fseat.setPart? s.focus.seq (some (s.part s.focus).advance)
  let t0 : State := s.setPart s.focus (s.part s.focus).advance
  have ht0 : s.retire = t0 := State.retire_of_settled hs
  have hu : t0.fseat = u := State.seat_setPart s s.focus _
  have hafter := afterRelease_eq (r := r) hu h
  let t1 : State := t0.modBanks s.focus.core (fun _ b => b.snapPanes (List.range 12)) u.banks
  have hpast : t0.pastRelease r u = { u with red := some { r with
      dirty := [], echoLog := r.echoLog.drop r.echoPos, echoPos := 0, hold := none, released := false, performer := false
      snap := some (takeSnapshot t1 s.focus.core u) } } := by
    rw [State.pastRelease, hu]
    rfl
  have hseat : s.retire.afterRelease.seat s.focus = t0.pastRelease r u := by
    rw [ht0, hafter]
    exact State.seat_setSeat _ _ _
  have hrest1 : { t1 with cores := s.cores } = s := by
    have h1 : { t1 with cores := t0.cores } = t0 := by simp [t1]
    exact congrArg (fun x : State => { x with cores := s.cores }) h1
  obtain ⟨hz, hsram⟩ := takeSnapshot_fields t1 s.focus.core u
  refine ⟨takeSnapshot t1 s.focus.core u, ?_, ?_, ?_, ?_, ?_, ?_, fun c b => ?_⟩
  · rw [ht0, hafter]
    exact hrest1
  · rw [ht0, hafter]
    exact (((SameCores.refl s).setPart _).modBanks _ _ _).setSeat _
  · rw [Proceeds, State.part, hseat, hpast]
    exact congrArg (·.getD Part.empty) ((Seat.part?_setPart? s.fseat s.focus.seq s.focus.seq _).trans (if_pos rfl))
  · rw [hseat, hpast]
  · have hage := congrArg State.opAge hrest1
    rw [hz, hseat, hpast, show t1.opAge = s.opAge from hage]
    rfl
  · rw [hsram]
    refine List.map_congr_left fun b _ => ?_
    have := congrArg (fun x : State => x.sram (s.focus.core / 4) b) hrest1
    exact congrArg _ this
  · rw [ht0, hafter]
    refine (State.bank_setSeat _ _ _ c b).trans ((State.bank_modBanks t0 s.focus.core _ u.banks c b (Seat.banks_nodup u)).trans ?_)
    rw [State.bank_setPart]
    rfl

/-- A replica sends its signature and holds. -/
theorem holdForVote_spec :
    let keys := ((s.task? s.fseat.launch s.fseat.task).map (·.keys)).getD 0
    ∃ t, s.holdForVote r 1 [] = t ∧ { t with cores := s.cores } = s ∧ SameCores s t ∧ (∀ c b, t.bank c b = s.bank c b) ∧
      { t.seat s.focus with parts := s.fseat.parts } =
        { s.fseat with red := some { r with hold := some ⟨1, signature s r keys 1 [], s.fpart.pc⟩ } } ∧
      t.part s.focus = { s.fpart with wait := some .vote } ∧ ∀ q, q ≠ s.focus.seq → (t.seat s.focus).part? q = s.fseat.part? q := by
  intro keys
  let v : Replica := { r with hold := some ⟨1, signature s r keys 1 [], s.fpart.pc⟩ }
  let t0 : State := s.modSeat s.focus (fun x => { x with red := some v })
  have hpart : t0.part s.focus = s.fpart := State.part_modSeat rfl
  have hseat : t0.seat s.focus = { s.fseat with red := some v } := State.seat_modSeat s s.focus _
  refine ⟨t0.setPart s.focus { s.fpart with wait := some .vote }, ?_, rfl, ((SameCores.refl s).setSeat _).setPart _, fun c b => ?_, ?_,
    State.part_setPart _ _ _, fun q hq => ?_⟩
  · rw [← hpart]
    rfl
  · rw [State.bank_setPart, State.bank_modSeat]
  · rw [State.seat_setPart, hseat]
    rfl
  · rw [State.seat_setPart, hseat, Seat.part?_setPart?, if_neg hq]
    rfl

end

end Sys2Proof.Machine
end

section
/-! Values per bank (O9): free words, the echo log, what the leader appends; nop, ifence, echo, rel and rnd. -/

namespace Sys2Proof.Machine

-- Proofs elaborated side by side each hold a thread's stack, and the whole text compiles near the memory limit of its check.
set_option Elab.async false

/-! ## Values per bank (R133, R339) -/

/-- Without redundancy each bank gets a free word of its own. -/
theorem echoInto_free {s : State} (h : s.fseat.red = none) (s0 : State) (d : BitVec 5) {bs : List Nat} (hbs : bs.Nodup) :
    ∃ t, echoInto s0 d (fun _ s => s.freeWord) bs s = (t, .ok) ∧ { t with cores := s.cores, free := s.free } = s ∧ t.free = s.free + bs.length ∧
      SameCores s t ∧ (∀ a, t.seat a = s.seat a) ∧
      ∀ c b, t.bank c b = if c = s.focus.core ∧ b ∈ bs then (s.bank c b).ws d (Config.freeWord (s.free + bs.idxOf b)) else s.bank c b := by
  induction bs generalizing s with
  | nil => exact ⟨s, rfl, rfl, rfl, SameCores.refl s, fun _ => rfl, fun c b => (if_neg fun h => List.not_mem_nil h.2).symm⟩
  | cons b bs ih =>
    obtain ⟨hb, hbs⟩ := List.nodup_cons.1 hbs
    let s' : State := ({ s with free := s.free + 1 } : State).modBank s.focus.core b (fun y => y.ws d (Config.freeWord s.free))
    have hseat (a : Agent) : s'.seat a = s.seat a := State.seat_modBank _ _ _ _ _
    obtain ⟨t, ht, hrest, hfree, hcores, hseats, hbank⟩ := ih (s := s') ((congrArg Seat.red (hseat s.focus)).trans h) hbs
    have hfree' : SameCores s { s with free := s.free + 1 } := ⟨fun _ => rfl, fun _ _ _ => rfl⟩
    have hcores' : SameCores s s' := hfree'.modBank _ _ _
    refine ⟨t, ?_, congrArg (fun x : State => { x with cores := s.cores, free := s.free }) hrest, ?_,
      ⟨fun c => ?_, fun c k hk => (hcores.seats c k hk).trans (hcores'.seats c k hk)⟩, fun a => (hseats a).trans (hseat a), fun c k => ?_⟩
    · rw [echoInto, State.echoed, h]
      exact ht
    · rw [hfree, List.length_cons]
      change s.free + 1 + _ = _
      omega
    · have h1 := congrArg (fun x : Core => { x with banks := (s.core c).banks, seats := (s.core c).seats }) (hcores.cores c)
      exact h1.trans (hcores'.cores c)
    · have hs' : s'.bank c k = if c = s.focus.core ∧ k = b then (s.bank c k).ws d (Config.freeWord s.free) else s.bank c k :=
        State.bank_modBank _ _ _ _ _ _
      rw [hbank, hs']
      by_cases hk : k = b
      · subst hk
        simp [hb]
      · simp only [hk, and_false, if_false, List.mem_cons, false_or, List.idxOf_cons_ne bs (Ne.symm hk)]
        rw [show s'.free = s.free + 1 from rfl, show s.free + 1 + List.idxOf k bs = s.free + (List.idxOf k bs + 1) by omega]
        rfl

/-- A replica takes its values from its echo log. -/
theorem echoInto_log {s : State} {r : Replica} (h : s.fseat.red = some r) (s0 : State) (d : BitVec 5) (mk : Nat → State → Word × State)
    {bs : List Nat} (hbs : bs.Nodup) (hlen : r.echoPos + bs.length ≤ r.echoLog.length) :
    ∃ t, echoInto s0 d mk bs s = (t, .ok) ∧ { t with cores := s.cores } = s ∧ SameCores s t ∧
      t.seat s.focus = { s.fseat with red := some { r with echoPos := r.echoPos + bs.length } } ∧
      ∀ c b, t.bank c b =
        if c = s.focus.core ∧ b ∈ bs then (s.bank c b).ws d (r.echoLog.getD (r.echoPos + bs.idxOf b) 0) else s.bank c b := by
  induction bs generalizing s r with
  | nil => exact ⟨s, rfl, rfl, SameCores.refl s, by rw [List.length_nil, Nat.add_zero, ← h]; rfl, fun c b => (if_neg fun h => List.not_mem_nil h.2).symm⟩
  | cons b bs ih =>
    obtain ⟨hb, hbs⟩ := List.nodup_cons.1 hbs
    rw [List.length_cons] at hlen
    have hlt : r.echoPos < r.echoLog.length := by omega
    let s1 : State := s.passEcho
    let s' : State := s1.modBank s.focus.core b (fun y => y.ws d r.echoLog[r.echoPos])
    have hseat : s'.seat s.focus = { s.fseat with red := some { r with echoPos := r.echoPos + 1 } } := by
      refine (State.seat_modBank _ _ _ _ _).trans ((State.seat_modSeat _ _ _).trans ?_)
      rw [show (s.seat s.focus).red = some r from h]
      rfl
    obtain ⟨t, ht, hrest, hcores, hseats, hbank⟩ := ih (s := s') (r := { r with echoPos := r.echoPos + 1 }) (congrArg Seat.red hseat) hbs
      (show r.echoPos + 1 + bs.length ≤ r.echoLog.length by omega)
    have hcores' : SameCores s s' := ((SameCores.refl s).setSeat _).modBank _ _ _
    refine ⟨t, ?_, congrArg (fun x : State => { x with cores := s.cores }) hrest,
      ⟨fun c => ?_, fun c k hk => (hcores.seats c k hk).trans (hcores'.seats c k hk)⟩, ?_, fun c k => ?_⟩
    · rw [echoInto, State.echoed, h]
      simp only [List.drop_eq_getElem_cons hlt]
      exact ht
    · have h1 := congrArg (fun x : Core => { x with banks := (s.core c).banks, seats := (s.core c).seats }) (hcores.cores c)
      exact h1.trans (hcores'.cores c)
    · refine hseats.trans ?_
      rw [show s'.fseat = _ from hseat, List.length_cons, show r.echoPos + (bs.length + 1) = r.echoPos + 1 + bs.length by omega]
    · have hs' : s'.bank c k = if c = s.focus.core ∧ k = b then (s.bank c k).ws d r.echoLog[r.echoPos] else s.bank c k := by
        rw [State.bank_modBank, show s1.bank c k = s.bank c k from State.bank_modSeat _ _ _ _ _]
      rw [hbank, hs']
      by_cases hk : k = b
      · subst hk
        simp [hb, hlt]
      · simp only [hk, and_false, if_false, List.mem_cons, false_or, List.idxOf_cons_ne bs (Ne.symm hk)]
        rw [show r.echoPos + 1 + List.idxOf k bs = r.echoPos + (List.idxOf k bs + 1) by omega]
        rfl

/-- A follower whose log is at its end waits, and has done nothing. -/
theorem echoInto_waits {s : State} {r : Replica} (h : s.fseat.red = some r) (hend : r.echoLog.length ≤ r.echoPos) (hl : r.leads = false)
    (s0 : State) (d : BitVec 5) (mk : Nat → State → Word × State) {bs : List Nat} (hbs : bs ≠ []) : echoInto s0 d mk bs s = (s0, .wait .echo) := by
  cases bs with
  | nil => exact absurd rfl hbs
  | cons b bs =>
    rw [echoInto, State.echoed, h]
    simp only [List.drop_eq_nil_of_le hend, hl]
    rfl

/-! ## The echo log of every replica (R339) -/

/-- A replica's seat with a value appended to its echo log. -/
def Seat.hear (v : Word) (x : Seat) : Seat := { x with red := x.red.map (fun r => { r with echoLog := r.echoLog ++ [v] }) }

/-- `appendEcho` over a list of seats. -/
def State.hearAll (v : Word) (l : List (Nat × Nat)) (s : State) : State :=
  l.foldl (fun s p =>
    match s.seat? p.1 p.2 with
    | some x => s.setSeat? p.1 p.2 (some (x.hear v))
    | none => s) s

theorem State.appendEcho_eq (s : State) (l t : Nat) (v : Word) : s.appendEcho l t v = s.hearAll v (s.seatsOf l t) := rfl

theorem State.hearAll_spec (v : Word) {l : List (Nat × Nat)} (hl : l.Nodup) (s : State) :
    { s.hearAll v l with cores := s.cores } = s ∧ (∀ c b, (s.hearAll v l).bank c b = s.bank c b) ∧
      ∀ c b, (s.hearAll v l).seat? c b = if (c, b) ∈ l then (s.seat? c b).map (Seat.hear v) else s.seat? c b := by
  induction l generalizing s with
  | nil => exact ⟨rfl, fun _ _ => rfl, fun c b => (if_neg List.not_mem_nil).symm⟩
  | cons q l ih =>
    obtain ⟨hq, hl⟩ := List.nodup_cons.1 hl
    have hstep : s.hearAll v (q :: l) = State.hearAll v l (match s.seat? q.1 q.2 with
        | some x => s.setSeat? q.1 q.2 (some (x.hear v))
        | none => s) := rfl
    rw [hstep]
    cases hx : s.seat? q.1 q.2 with
    | none =>
      obtain ⟨hrest, hbank, hseat⟩ := ih hl s
      refine ⟨hrest, hbank, fun c b => (hseat c b).trans ?_⟩
      by_cases hcb : (c, b) = q
      · subst hcb
        simp [hq, hx]
      · simp [hcb]
    | some x =>
      obtain ⟨hrest, hbank, hseat⟩ := ih hl (s.setSeat? q.1 q.2 (some (x.hear v)))
      refine ⟨congrArg (fun t : State => { t with cores := s.cores }) hrest, fun c b => (hbank c b).trans (State.bank_setSeat? s _ _ c b _),
        fun c b => (hseat c b).trans ?_⟩
      rw [State.seat?_setSeat?]
      by_cases hcb : (c, b) = q
      · subst hcb
        simp [hq, hx]
      · have hne : ¬(c = q.1 ∧ b = q.2) := fun h => hcb (Prod.ext h.1 h.2)
        simp [hcb, hne]

/-- What the replicas hear changes no part. -/
theorem State.part_hearAll (v : Word) {l : List (Nat × Nat)} (hl : l.Nodup) (s : State) (a : Agent) : (s.hearAll v l).part a = s.part a := by
  obtain ⟨-, -, hseat⟩ := s.hearAll_spec v hl
  rw [State.part, State.seat, State.seatAt, hseat, State.part, State.seat, State.seatAt]
  split
  · cases s.seat? a.core a.base <;> rfl
  · rfl

theorem focus_of_rest {s t : State} (h : { t with cores := s.cores, free := s.free } = s) : t.focus = s.focus := by
  have hf := congrArg State.focus h
  exact hf

theorem State.seat?_setPart (s : State) (a : Agent) (p : Part) (c b : Nat) :
    (s.setPart a p).seat? c b = if c = a.core ∧ b = a.base then some ((s.seat a).setPart? a.seq (some p)) else s.seat? c b :=
  State.seat?_setSeat? s _ _ c b _

theorem State.seat?_modSeat (s : State) (a : Agent) (f : Seat → Seat) (c b : Nat) :
    (s.modSeat a f).seat? c b = if c = a.core ∧ b = a.base then some (f (s.seat a)) else s.seat? c b :=
  State.seat?_setSeat? s _ _ c b _

/-! ## rnd (R133, R339) -/

section
variable {s : State} {r : Replica}

theorem exec_rnd {t : State} {d : BitVec 5} {x : Done} (h : echoInto s d (fun _ s => s.freeWord) s.active s = (t, x)) :
    exec (.rnd d) s = finishSingle (t, x) := by
  change finishSingle (echoInto s d (fun _ s => s.freeWord) s.active s) = _
  rw [h]

/-- rnd of a task without redundancy. -/
theorem rnd_of_task (hs : Settled s) (h : s.fseat.red = none) (d : BitVec 5) :
    ∃ t, exec (.rnd d) s = .next t ∧ Around s { t with free := s.free } ∧ t.free = s.free + s.active.length ∧ Proceeds s t ∧
      OnBanks s t (fun b x => RegOnly d (Config.freeWord (s.free + s.active.idxOf b)) x) := by
  obtain ⟨t, ht, hrest, hfree, hcores, hseat, hbank⟩ := echoInto_free h s d s.active_nodup
  have hfocus : t.focus = s.focus := focus_of_rest hrest
  have hpart : t.part s.focus = s.part s.focus := by rw [State.part, hseat, State.part]
  refine ⟨t.setPart s.focus (s.part s.focus).advance, ?_, ?_, hfree, State.part_setPart t _ _, ?_⟩
  · rw [exec_rnd ht, ← retire_after hs hfocus hpart]
    rfl
  · exact around_advance (t := { t with free := s.free }) hrest ⟨hcores.cores, hcores.seats⟩ (hseat s.focus)
  · exact onBanks_of (f := fun b x => x.ws d (Config.freeWord (s.free + s.active.idxOf b))) (fun c b => (State.bank_setPart t _ _ c b).trans (hbank c b))
      fun b x => regOnly_ws d _ x

/-- rnd of a replica whose echo log holds the values. -/
theorem rnd_of_log (hs : Settled s) (h : s.fseat.red = some r) (d : BitVec 5) (hlen : r.echoPos + s.active.length ≤ r.echoLog.length) :
    ∃ t, exec (.rnd d) s = .next t ∧ { t with cores := s.cores } = s ∧ SameCores s t ∧ Proceeds s t ∧
      { t.seat s.focus with parts := s.fseat.parts } = { s.fseat with red := some { r with echoPos := r.echoPos + s.active.length } } ∧
      OnBanks s t (fun b x => RegOnly d (r.echoLog.getD (r.echoPos + s.active.idxOf b) 0) x) := by
  obtain ⟨t, ht, hrest, hcores, hseat, hbank⟩ := echoInto_log h s d (fun _ s => s.freeWord) s.active_nodup hlen
  have hfocus : t.focus = s.focus := focus_of_rest (congrArg (fun x : State => { x with free := s.free }) hrest)
  have hpart : t.part s.focus = s.part s.focus := by rw [State.part, hseat]; rfl
  refine ⟨t.setPart s.focus (s.part s.focus).advance, ?_, hrest, hcores.setPart _, State.part_setPart t _ _, ?_, ?_⟩
  · rw [exec_rnd ht, ← retire_after hs hfocus hpart]
    rfl
  · rw [State.seat_setPart, hseat]
    rfl
  · exact onBanks_of (f := fun b x => x.ws d (r.echoLog.getD (r.echoPos + s.active.idxOf b) 0)) (fun c b => (State.bank_setPart t _ _ c b).trans (hbank c b))
      fun b x => regOnly_ws d _ x

/-- rnd of the leader in a part of one bank. -/
theorem rnd_of_leader (hs : Settled s) (h : s.fseat.red = some r) (d : BitVec 5) (hend : r.echoLog.length = r.echoPos) (hl : r.leads = true)
    {b : Nat} (hb : s.active = [b]) (hnodup : (s.seatsOf s.fseat.launch s.fseat.task).Nodup) :
    ∃ t, exec (.rnd d) s = .next t ∧ t.free = s.free + 1 ∧ Proceeds s t ∧ OnBanks s t (fun _ x => RegOnly d (Config.freeWord s.free) x) ∧
      ∀ q ∈ s.seatsOf s.fseat.launch s.fseat.task, ∀ u, s.seat? q.1 q.2 = some u →
        ((t.seat? q.1 q.2).bind (·.red)) = u.red.map (fun x => { x with
          echoLog := x.echoLog ++ [Config.freeWord s.free], echoPos := if q = (s.focus.core, s.focus.base) then x.echoPos + 1 else x.echoPos }) := by
  let v := Config.freeWord s.free
  let l := s.seatsOf s.fseat.launch s.fseat.task
  let s1 : State := { s with free := s.free + 1 }
  obtain ⟨hrest, hbank, hseat⟩ := s1.hearAll_spec v hnodup
  let t1 : State := s1.hearAll v l
  let t : State := (t1.modSeat s.focus (fun x => { x with red := x.red.map (fun r => { r with echoPos := r.echoPos + 1 }) })).modBank
    s.focus.core b (fun y => y.ws d v)
  have hfocus1 : t1.focus = s.focus := focus_of_rest (congrArg (fun x : State => { x with free := s.free }) hrest)
  have hfree : t1.free = s.free + 1 := by
    have hf := congrArg State.free hrest
    exact hf
  have hecho : echoInto s d (fun _ s => s.freeWord) s.active s = (t, .ok) := by
    have hpass : t1.passEcho = t1.modSeat s.focus (fun x => { x with red := x.red.map (fun r => { r with echoPos := r.echoPos + 1 }) }) := by
      rw [State.passEcho, hfocus1]
    rw [hb, echoInto, State.echoed, h]
    simp only [List.drop_eq_nil_of_le hend.le, hl, if_true]
    change echoInto s d _ [] (t1.passEcho.modBank s.focus.core b (fun y => y.ws d v)) = _
    rw [hpass]
    rfl
  have hpart : t.part s.focus = s.part s.focus := by
    rw [State.part_modBank, State.part_modSeat rfl]
    exact State.part_hearAll v hnodup s1 s.focus
  refine ⟨t.setPart s.focus (s.part s.focus).advance, ?_, hfree, State.part_setPart t _ _, ?_, fun q hq u hu => ?_⟩
  · rw [exec_rnd hecho, ← retire_after hs (show t.focus = s.focus from hfocus1) hpart]
    rfl
  · refine onBanks_of (f := fun _ x => x.ws d v) (fun c k => ?_) fun _ x => regOnly_ws d v x
    rw [State.bank_setPart, State.bank_modBank, State.bank_modSeat, show t1.bank c k = s.bank c k from hbank c k, hb]
    simp only [List.mem_singleton]
  · have hu1 : t1.seat? q.1 q.2 = some (u.hear v) := by
      rw [hseat, if_pos hq, show s1.seat? q.1 q.2 = some u from hu]
      rfl
    have hred : (u.hear v).red = u.red.map (fun x => { x with echoLog := x.echoLog ++ [v] }) := rfl
    rw [State.seat?_setPart]
    by_cases hqf : q = (s.focus.core, s.focus.base)
    · subst hqf
      have ht1 : t1.seat s.focus = u.hear v := by rw [State.seat, State.seatAt, hu1]; rfl
      rw [if_pos ⟨rfl, rfl⟩, Option.bind_some]
      change (t.seat s.focus).red = _
      rw [State.seat_modBank, State.seat_modSeat, ht1]
      simp only [hred, Option.map_map, if_true]
      rfl
    · have hne : ¬(q.1 = s.focus.core ∧ q.2 = s.focus.base) := fun h => hqf (Prod.ext h.1 h.2)
      rw [if_neg hne, State.seat?_modBank, State.seat?_modSeat, if_neg hne, hu1, Option.bind_some, hred]
      simp only [hqf, if_false]
      rfl

end

/-- Settles O9: without redundancy these only end or take free words; a replica's rel and rnd go by its release and its echo log. -/
theorem noOperationsAdvanceAndRndIsFree : Obligations.NoOperationsAdvanceAndRndIsFree := by
  refine ⟨fun s hs => ⟨onlyProceeds_of hs rfl, onlyProceeds_of hs rfl, onlyProceeds_of hs rfl, fun h => onlyProceeds_of hs (rel_of_task h),
      fun c hc => ⟨fun x hx => ?_, fun x y rest hx => ?_⟩⟩, fun s d hs h => rnd_of_task hs h d, fun s r hs h => ?_, fun s d r hs h => ?_⟩
  · simp only [Part.advance, hc, hx, List.tail_cons, Part.endConvoy, Option.bind_some]
  · simp only [Part.advance, hc, hx, List.tail_cons]
  · intro keys behindPerformer
    refine ⟨fun hr i hi => waits_of (rel_of_localOp h hr hi), fun hr hi => ?_, fun hr hb => waits_of ?_, fun hr hb => ?_⟩
    · obtain ⟨t, ht, hrest⟩ := holdForVote_spec (s := s) (r := r)
      exact ⟨t, ht ▸ rel_of_holds h hr hi, hrest⟩
    · rw [rel_of_released h hr, if_pos (awaitsPerformer_iff.2 hb)]
    · obtain ⟨z, hrest, hcores, hpart, hred, hz, hsram, hbank⟩ := rel_passes hs h
      have hfocus : s.retire.afterRelease.focus = s.focus := focus_of_rest (congrArg (fun x : State => { x with free := s.free }) hrest)
      refine ⟨_, z, ?_, hrest, hcores, hpart, hred, hz, hsram, fun c b hcb => (hbank c b).trans (if_neg hcb), fun b hb => ?_⟩
      · rw [rel_of_released h hr, if_neg (mt awaitsPerformer_iff.1 hb)]
      · have hb' : s.retire.afterRelease.fbank b = (s.fbank b).snapPanes (List.range 12) := by
          rw [State.fbank, hfocus, hbank, if_pos ⟨rfl, hb⟩]
          rfl
        rw [hb']
        exact ⟨Bank.snapPanes_rest _ _, fun k hk => Bank.snapPanes_spec _ hk⟩
  · refine ⟨rnd_of_log hs h d, fun hend hl hn => waits_of ?_, fun hend hl hn hnodup => ?_⟩
    · exact exec_rnd (echoInto_waits h hend hl s d _ (List.ne_nil_of_length_pos (Nat.pos_of_ne_zero hn)))
    · obtain ⟨b, hb⟩ := List.length_eq_one_iff.1 hn
      obtain ⟨t, ht, hfree, hpart, hbanks, hlogs⟩ := rnd_of_leader hs h d hend hl hb hnodup
      refine ⟨t, ht, by rw [hfree, hn], hpart, fun c k => ?_, ?_⟩
      · have hk := hbanks c k
        split at hk
        next hc =>
          have hidx : s.active.idxOf k = 0 := by
            have := hc.2
            rw [hb, List.mem_singleton] at this
            rw [hb, this]
            exact List.idxOf_cons_self
          rw [if_pos hc]
          change RegOnly d (Config.freeWord (s.free + s.active.idxOf k)) _ _
          rw [hidx]
          exact hk
        next hc =>
          rw [if_neg hc]
          exact hk
      · rw [hn]
        exact hlogs

end Sys2Proof.Machine
end

section
/-! Operations that a handler left in token registers (O13): detached, and nothing else of the machine changes. -/

namespace Sys2Proof.Machine

-- Proofs elaborated side by side each hold a thread's stack, and the whole text compiles near the memory limit of its check.
set_option Elab.async false

/-! ## What detaching an operation leaves alone -/

/-- The machine's cores and focus are as they were: so is every bank, seat and part. -/
def SameMachine (s t : State) : Prop := t.cores = s.cores ∧ t.focus = s.focus

theorem SameMachine.refl (s : State) : SameMachine s s := ⟨rfl, rfl⟩

theorem SameMachine.trans {s t v : State} (h : SameMachine s t) (h' : SameMachine t v) : SameMachine s v := ⟨h'.1.trans h.1, h'.2.trans h.2⟩

theorem State.keepPosted_spec (s : State) (p : Posted) : SameMachine s (s.keepPosted p) ∧ (s.keepPosted p).ops = s.ops := ⟨⟨rfl, rfl⟩, rfl⟩

theorem State.poke_spec (s : State) (w : Option (Nat × Nat)) (pa v n : Nat) : SameMachine s (s.poke w pa v n) ∧ (s.poke w pa v n).ops = s.ops := by
  unfold State.poke
  dsimp only
  split <;> exact ⟨⟨rfl, rfl⟩, rfl⟩

/-- A store of the machine's own reaches memory or waits. -/
theorem State.storeVa_spec (s : State) (c : Ctx) (va v n : Nat) : SameMachine s (s.storeVa c va v n) ∧ (s.storeVa c va v n).ops = s.ops := by
  unfold State.storeVa State.post
  split
  · exact s.keepPosted_spec _
  · unfold State.tryPosted
    dsimp only
    split
    · exact s.keepPosted_spec _
    · exact s.poke_spec _ _ _ _
    · exact ⟨SameMachine.refl s, rfl⟩

theorem State.modLaunch_spec (s : State) (n : Nat) (f : Launch → Launch) : SameMachine s (s.modLaunch n f) ∧ (s.modLaunch n f).ops = s.ops := by
  unfold State.modLaunch
  split <;> exact ⟨⟨rfl, rfl⟩, rfl⟩

theorem sameMachine_step {s t v : State} (h : SameMachine s t ∧ t.ops = s.ops) (h' : SameMachine t v ∧ v.ops = t.ops) : SameMachine s v ∧ v.ops = s.ops :=
  ⟨h.1.trans h'.1, h'.2.trans h.2⟩

theorem State.recordFault_spec (s : State) (ln : Nat) (cause : BitVec 8) (kind task : Nat) (addr : Word) (index : Nat) :
    SameMachine s (s.recordFault ln cause kind task addr index) ∧ (s.recordFault ln cause kind task addr index).ops = s.ops := by
  unfold State.recordFault
  split
  · exact ⟨SameMachine.refl s, rfl⟩
  · extract_lets c at0 s1 s2
    have h1 : SameMachine s s1 ∧ s1.ops = s.ops := by
      unfold s1
      split
      · exact sameMachine_step (sameMachine_step (sameMachine_step (State.storeVa_spec s _ _ _ _) (State.storeVa_spec _ _ _ _ _)) (State.storeVa_spec _ _ _ _ _))
          (State.storeVa_spec _ _ _ _ _)
      · exact ⟨SameMachine.refl s, rfl⟩
    have h2 : SameMachine s s2 ∧ s2.ops = s.ops := by
      unfold s2
      split
      · exact h1
      · exact sameMachine_step h1 (State.storeVa_spec _ _ _ _ _)
    exact sameMachine_step h2 (State.modLaunch_spec _ _ _)

/-! ## Token registers of a handler (R125, R344) -/

/-- Operations keep their generation, and each is live as it was or is detached. -/
def OnlyDetached (s t : State) : Prop :=
  ∀ i, (t.op i).gen = (s.op i).gen ∧ ((s.op i).detached = true → (t.op i).detached = true) ∧ ((t.op i).live = (s.op i).live ∨ (t.op i).detached = true)

theorem OnlyDetached.of_ops {s t : State} (h : t.ops = s.ops) : OnlyDetached s t := by
  intro i
  have ho : t.op i = s.op i := by rw [State.op, h, State.op]
  rw [ho]
  exact ⟨rfl, id, .inl rfl⟩

theorem OnlyDetached.trans {s t v : State} (h : OnlyDetached s t) (h' : OnlyDetached t v) : OnlyDetached s v := fun i =>
  ⟨(h' i).1.trans (h i).1, fun hd => (h' i).2.1 ((h i).2.1 hd),
    (h' i).2.2.elim (fun he => (h i).2.2.imp (he.trans ·) (h' i).2.1) .inr⟩

theorem OnlyDetached.setOp (s : State) (i : Nat) {v : ChildOp} (hg : v.gen = (s.op i).gen) (hd : (s.op i).detached = true → v.detached = true)
    (hl : v.live = (s.op i).live ∨ v.detached = true) : OnlyDetached s (s.setOp i v) := by
  intro j
  rw [State.op_setOp]
  split
  next h => 
    subst h
    exact ⟨hg, hd, hl⟩
  next h => exact ⟨rfl, id, .inl rfl⟩

theorem ChildOp.settle_fields (o : ChildOp) : o.settle.gen = o.gen ∧ o.settle.detached = o.detached := by
  unfold ChildOp.settle
  split_ifs <;> exact ⟨rfl, rfl⟩

theorem State.rehold_spec (s : State) (h : BitVec 32) : SameMachine s (s.rehold h) ∧ OnlyDetached s (s.rehold h) := by
  unfold State.rehold
  split
  · refine ⟨⟨rfl, rfl⟩, ?_⟩
    cases hm : s.mirrorsOp (s.op (entryOf h)) with
    | true => exact OnlyDetached.setOp s _ (by simp only [hm, if_true]) (fun hd => by simpa only [hm, if_true] using hd) (.inl (by simp only [hm, if_true]))
    | false =>
      exact OnlyDetached.setOp s _ (by simp [hm]) (fun hd => by simpa [hm] using hd) (.inl (by simp [hm]))
  · exact ⟨SameMachine.refl s, .of_ops rfl⟩

/-- Detach an operation that a handler left in a register, and let its handle go. -/
def State.letLeft (s : State) (h : BitVec 32) : State := if s.liveHandle h then (s.detachOp h).unhold h 1 else s

theorem State.detachOp_spec (s : State) (h : BitVec 32) :
    SameMachine s (s.detachOp h) ∧ OnlyDetached s (s.detachOp h) ∧
      (s.fseat.red = none → ((s.detachOp h).op (entryOf h)).detached = true) := by
  unfold State.detachOp
  extract_lets o told s1
  split
  next hm =>
    refine ⟨SameMachine.refl s, .of_ops rfl, fun hr => ?_⟩
    simp only [State.mirrorsOp, hr] at hm
    exact absurd hm (by decide)
  next hm =>
    have h1 : OnlyDetached s s1 := OnlyDetached.setOp s _ rfl (fun _ => rfl) (.inl rfl)
    have hd : (s1.op (entryOf h)).detached = true := by
      simp only [s1, State.modOp, State.op_setOp, if_true]
    split
    · obtain ⟨hm, ho⟩ := s1.recordFault_spec o.launch o.cause 1 o.task (h.setWidth 64) o.findex
      exact ⟨SameMachine.trans ⟨rfl, rfl⟩ hm, h1.trans (.of_ops ho), fun _ => by rw [State.op, ho]; exact hd⟩
    · exact ⟨⟨rfl, rfl⟩, h1, fun _ => hd⟩

/-- Counting the holders of a detached operation down leaves it detached. -/
theorem State.unhold_spec (s : State) (h : BitVec 32) (n : Nat) :
    SameMachine s (s.unhold h n) ∧ ((s.op (entryOf h)).detached = true → OnlyDetached s (s.unhold h n)) := by
  refine ⟨⟨rfl, rfl⟩, fun hd => ?_⟩
  unfold State.unhold State.putOp
  extract_lets o
  have hfields : (if s.mirrorsOp o then { o with mirrors := o.mirrors - n } else { o with holders := o.holders - n }).gen = o.gen ∧
      (if s.mirrorsOp o then { o with mirrors := o.mirrors - n } else { o with holders := o.holders - n }).detached = o.detached := by
    split <;> exact ⟨rfl, rfl⟩
  have hdet := (ChildOp.settle_fields _).2.trans hfields.2
  exact OnlyDetached.setOp s _ ((ChildOp.settle_fields _).1.trans hfields.1) (fun _ => hdet.trans hd) (.inr (hdet.trans hd))

theorem State.letLeft_same (s : State) (h : BitVec 32) : SameMachine s (s.letLeft h) := by
  unfold State.letLeft
  split
  · exact (s.detachOp_spec h).1.trans (State.unhold_spec _ h 1).1
  · exact SameMachine.refl s

theorem State.letLeft_spec (s : State) (hr : s.fseat.red = none) (h : BitVec 32) :
    OnlyDetached s (s.letLeft h) ∧ (s.liveHandle h = true → ((s.letLeft h).op (entryOf h)).detached = true) := by
  unfold State.letLeft
  split
  next hl =>
    obtain ⟨-, ho, hd⟩ := s.detachOp_spec h
    have hu := (State.unhold_spec (s.detachOp h) h 1).2 (hd hr)
    exact ⟨ho.trans hu, fun _ => (hu _).2.1 (hd hr)⟩
  next hl => exact ⟨.of_ops rfl, fun h => absurd h hl⟩

theorem SameMachine.fseat {s t : State} (h : SameMachine s t) : t.fseat = s.fseat := by
  rw [State.fseat, State.seat, State.seatAt, State.seat?, State.core, h.1, h.2]
  rfl

theorem SameMachine.bank {s t : State} (h : SameMachine s t) (c b : Nat) : t.bank c b = s.bank c b := by
  rw [State.bank, State.core, h.1]
  rfl

theorem SameMachine.sameCores {s t : State} (h : SameMachine s t) : SameCores s t :=
  ⟨fun c => by rw [State.core, h.1]; rfl, fun c b _ => by rw [State.seat?, State.core, h.1]; rfl⟩

theorem foldl_rehold (hs : List (BitVec 32)) (s : State) : SameMachine s (hs.foldl State.rehold s) ∧ OnlyDetached s (hs.foldl State.rehold s) := by
  induction hs generalizing s with
  | nil => exact ⟨SameMachine.refl s, .of_ops rfl⟩
  | cons h hs ih =>
    obtain ⟨hm, ho⟩ := s.rehold_spec h
    obtain ⟨hm', ho'⟩ := ih (s.rehold h)
    exact ⟨hm.trans hm', ho.trans ho'⟩

theorem foldl_letLeft_same (hs : List (BitVec 32)) (s : State) : SameMachine s (hs.foldl State.letLeft s) := by
  induction hs generalizing s with
  | nil => exact SameMachine.refl s
  | cons h hs ih => exact (s.letLeft_same h).trans (ih _)

/-- A live handle that a handler left ends up detached, also where it is freed on the way. -/
theorem foldl_letLeft_detached (hs : List (BitVec 32)) (s : State) (hr : s.fseat.red = none) : OnlyDetached s (hs.foldl State.letLeft s) ∧
    ∀ h ∈ hs, s.liveHandle h = true → ((hs.foldl State.letLeft s).op (entryOf h)).detached = true := by
  induction hs generalizing s with
  | nil => exact ⟨.of_ops rfl, fun h hh => absurd hh List.not_mem_nil⟩
  | cons g hs ih =>
    obtain ⟨ho, hd⟩ := s.letLeft_spec hr g
    obtain ⟨ho', hd'⟩ := ih (s.letLeft g) ((congrArg Seat.red (s.letLeft_same g).fseat).trans hr)
    refine ⟨ho.trans ho', fun h hh hl => ?_⟩
    rcases List.mem_cons.1 hh with rfl | hh
    · exact (ho' _).2.1 (hd hl)
    · obtain ⟨hgen, -, hlive | hdet⟩ := ho (entryOf h)
      · refine hd' h hh ?_
        rw [State.liveHandle, hlive, hgen]
        exact hl
      · exact (ho' _).2.1 hdet

end Sys2Proof.Machine
end

section
/-! eret (O13): what claim saved given back, every part put where it goes on. -/

namespace Sys2Proof.Machine

-- Proofs elaborated side by side each hold a thread's stack, and the whole text compiles near the memory limit of its check.
set_option Elab.async false

/-! ## Banks after eret (R125) -/

/-- A pane of a claimed bank as eret leaves it; `was` is what claim recorded. -/
def Bank.unclaimPane (b : Bank) (was : List Nat) (n : Nat) : Pane :=
  if was.contains n then .opening (((b.slot n 7).img).getD PaneImage.empty)
  else if was.contains (16 + n) && (b.pane n).park then b.pane n else Pane.empty

/-- The bank after eret has given one pane back. -/
def Bank.unclaim1 (b : Bank) (was : List Nat) (n : Nat) : Bank :=
  if was.contains n then b.setPane n (.opening (((b.slot n 7).img).getD PaneImage.empty))
  else if was.contains (16 + n) && (b.pane n).park then b else b.closePane n

theorem Bank.unclaimPanes_cons (b : Bank) (was : List Nat) (n : Nat) (ns : List Nat) :
    b.unclaimPanes was (n :: ns) = (b.unclaim1 was n).unclaimPanes was ns := rfl

theorem Bank.unclaim1_rest (b : Bank) (was : List Nat) (n : Nat) : { b.unclaim1 was n with panes := b.panes } = b := by
  unfold Bank.unclaim1
  split_ifs <;> rfl

theorem Bank.pane_unclaim1 (b : Bank) (was : List Nat) (n k : Nat) :
    (b.unclaim1 was n).pane k = if k = n then b.unclaimPane was n else b.pane k := by
  unfold Bank.unclaim1 Bank.unclaimPane
  by_cases h : k = n
  · subst h
    rw [if_pos rfl]
    split_ifs
    · exact (Bank.pane_setPane b k k _).trans (if_pos rfl)
    · rfl
    · exact (Bank.pane_setPane b k k _).trans (if_pos rfl)
  · rw [if_neg h]
    split_ifs
    · exact (Bank.pane_setPane b n k _).trans (if_neg h)
    · rfl
    · exact (Bank.pane_setPane b n k _).trans (if_neg h)

theorem Bank.unclaimPanes_rest (b : Bank) (was ns : List Nat) : { b.unclaimPanes was ns with panes := b.panes } = b := by
  induction ns generalizing b with
  | nil => rfl
  | cons n ns ih =>
    have h := congrArg (fun x : Bank => { x with panes := b.panes }) (ih (b.unclaim1 was n))
    exact h.trans (b.unclaim1_rest was n)

theorem Bank.pane_unclaimPanes (b : Bank) (was : List Nat) {ns : List Nat} (hns : ns.Nodup) (k : Nat) :
    (b.unclaimPanes was ns).pane k = if k ∈ ns then b.unclaimPane was k else b.pane k := by
  induction ns generalizing b with
  | nil => exact (if_neg List.not_mem_nil).symm
  | cons n ns ih =>
    obtain ⟨hn, hns⟩ := List.nodup_cons.1 hns
    have hslot : (b.unclaim1 was n).slot k 7 = b.slot k 7 := by
      have h := congrArg (fun x : Bank => x.slot k 7) (b.unclaim1_rest was n)
      exact h
    rw [Bank.unclaimPanes_cons, ih _ hns, Bank.pane_unclaim1, Bank.unclaimPane, hslot, Bank.pane_unclaim1]
    by_cases hk : k = n
    · subst hk
      simp [hn]
    · simp only [hk, if_false, List.mem_cons, false_or]
      rfl

theorem Bank.unclaimed_of_some {x : Bank} {c : ClaimSave} (h : x.claim = some c) :
    x.unclaimed = { x.unclaimPanes c.panes (List.range 12) with m := c.m, k := c.k, claim := none } := by
  rw [Bank.unclaimed, h]

/-- What eret gives back in a claimed bank. -/
theorem Bank.unclaimed_spec {x : Bank} {c : ClaimSave} (h : x.claim = some c) :
    { x.unclaimed with m := x.m, k := x.k, claim := some c, panes := x.panes } = x ∧ x.unclaimed.m = c.m ∧ x.unclaimed.k = c.k ∧ x.unclaimed.claim = none ∧
      ∀ k, k < 12 →
        (k ∈ c.panes → ∀ img, (x.slot k 7).img = some img →
          x.unclaimed.pane k = ⟨.opening, if img.dirty then .openDirty else .openClean, PaneImage.empty, 0, false, false, false, some img⟩) ∧
        (k ∉ c.panes → 16 + k ∈ c.panes → (x.pane k).park = true → x.unclaimed.pane k = x.pane k) ∧
        (k ∉ c.panes → (16 + k ∉ c.panes ∨ (x.pane k).park = false) → x.unclaimed.pane k = Pane.empty) := by
  rw [Bank.unclaimed_of_some h]
  refine ⟨?_, rfl, rfl, rfl, fun k hk => ?_⟩
  · have hrest := congrArg (fun y : Bank => { y with m := x.m, k := x.k, claim := some c }) (x.unclaimPanes_rest c.panes (List.range 12))
    refine hrest.trans ?_
    rw [← h]
  · have hpane : (x.unclaimPanes c.panes (List.range 12)).pane k = x.unclaimPane c.panes k :=
      (x.pane_unclaimPanes c.panes List.nodup_range k).trans (if_pos (List.mem_range.2 hk))
    change (_ → ∀ img, _ → (x.unclaimPanes c.panes (List.range 12)).pane k = _) ∧ (_ → _ → _ → (x.unclaimPanes c.panes (List.range 12)).pane k = _) ∧
      (_ → _ → (x.unclaimPanes c.panes (List.range 12)).pane k = _)
    rw [hpane, Bank.unclaimPane]
    refine ⟨fun hin img himg => ?_, fun hin hpark hp => ?_, fun hin hno => ?_⟩
    · rw [if_pos (List.contains_iff_mem.2 hin), himg]
      rfl
    · rw [if_neg (mt List.contains_iff_mem.1 hin), if_pos (by simp [hpark, hp])]
    · rw [if_neg (mt List.contains_iff_mem.1 hin), if_neg (by rcases hno with h | h <;> simp [h])]

/-! ## What eret restores of claim (R344) -/

/-- A part with what claim saved of it. -/
def Part.unclaimed (p : Part) : Part :=
  match p.claim with
  | some c => { p.uncut with vl := c.1, xidx := c.2.1, rm := c.2.2, claim := none }
  | none => p

section
variable (s : State)

/-- The state in which the handles of the handler's registers are let go. -/
def State.tokensBack : State :=
  ((s.fseat.banks.map (fun b => s.fbank b)).flatMap Bank.leftTokens).foldl State.letLeft
    (((s.fseat.banks.map (fun b => s.fbank b)).flatMap Bank.lostTokens).foldl State.rehold s)

theorem State.unclaim_eq : s.unclaim =
    (s.tokensBack.modBanks s.focus.core (fun _ b => b.unclaimed) s.fseat.banks).modSeat s.focus (fun x => x.mapParts Part.unclaimed) := rfl

theorem State.tokensBack_same : SameMachine s s.tokensBack := (foldl_rehold _ s).1.trans (foldl_letLeft_same _ _)

theorem State.tokensBack_of_none (h : ∀ b ∈ s.fseat.banks, (s.fbank b).leftTokens = [] ∧ (s.fbank b).lostTokens = []) : s.tokensBack = s := by
  have hlost : (s.fseat.banks.map (fun b => s.fbank b)).flatMap Bank.lostTokens = [] :=
    List.flatMap_eq_nil_iff.2 (List.forall_mem_map.2 fun b hb => (h b hb).2)
  have hleft : (s.fseat.banks.map (fun b => s.fbank b)).flatMap Bank.leftTokens = [] :=
    List.flatMap_eq_nil_iff.2 (List.forall_mem_map.2 fun b hb => (h b hb).1)
  rw [State.tokensBack, hlost, hleft]
  rfl

theorem State.tokensBack_detached (hr : s.fseat.red = none) {b : Nat} (hb : b ∈ s.fseat.banks) {h : BitVec 32} (hh : h ∈ (s.fbank b).leftTokens)
    (hl : s.liveHandle h = true) : (s.tokensBack.op (entryOf h)).detached = true := by
  obtain ⟨hm, ho⟩ := foldl_rehold ((s.fseat.banks.map (fun b => s.fbank b)).flatMap Bank.lostTokens) s
  obtain ⟨ho', hd⟩ := foldl_letLeft_detached ((s.fseat.banks.map (fun b => s.fbank b)).flatMap Bank.leftTokens) _ ((congrArg Seat.red hm.fseat).trans hr)
  obtain ⟨hgen, -, hlive | hdet⟩ := ho (entryOf h)
  · refine hd h (List.mem_flatMap.2 ⟨_, List.mem_map_of_mem hb, hh⟩) ?_
    rw [State.liveHandle, hlive, hgen]
    exact hl
  · exact (ho' _).2.1 hdet

theorem State.unclaim_focus : s.unclaim.focus = s.focus := by
  rw [State.unclaim_eq]
  exact (State.modBanks_focus _ _ _ _).trans s.tokensBack_same.2

theorem State.unclaim_cores : SameCores s s.unclaim := by
  rw [State.unclaim_eq]
  exact (s.tokensBack_same.sameCores.modBanks _ _ _).setSeat _

theorem State.unclaim_seat : s.unclaim.seat s.focus = s.fseat.mapParts Part.unclaimed := by
  have hseat : (s.tokensBack.modBanks s.focus.core (fun _ b => b.unclaimed) s.fseat.banks).seat s.focus = s.fseat := by
    have h := s.tokensBack_same.fseat
    rw [State.fseat, s.tokensBack_same.2] at h
    exact (State.seat_modBanks _ _ _ _ _).trans h
  rw [State.unclaim_eq, State.seat_modSeat, hseat]

theorem State.unclaim_bank (c b : Nat) : s.unclaim.bank c b = if c = s.focus.core ∧ b ∈ s.fseat.banks then (s.bank c b).unclaimed else s.bank c b := by
  rw [State.unclaim_eq, State.bank_modSeat, State.bank_modBanks _ _ _ _ _ _ s.fseat.banks_nodup, s.tokensBack_same.bank]

theorem State.unclaim_ops : s.unclaim.ops = s.tokensBack.ops := by
  rw [State.unclaim_eq]
  exact State.modBanks_ops _ _ _ _

theorem State.unclaim_rest : { s.unclaim with cores := s.tokensBack.cores } = s.tokensBack := by
  rw [State.unclaim_eq]
  change { s.tokensBack.modBanks s.focus.core (fun _ b => b.unclaimed) s.fseat.banks with cores := s.tokensBack.cores } = s.tokensBack
  simp

end

/-! ## The parts after eret (R125, R347) -/

/-- The part that resumes, before its place is set: what claim saved where the handler had claimed, and the vl of a cut phase. -/
def Part.regained (p : Part) (clm : Bool) : Part :=
  if clm then
    { p with
      claim := none, vl := (p.claim.map (·.1)).getD p.endConvoy.vl, xidx := (p.claim.map (·.2.1)).getD p.xidx, rm := (p.claim.map (·.2.2)).getD p.rm }
  else { p with vl := p.endConvoy.vl }

theorem Part.resumed_handler (p : Part) (epc : Word) : p.resumed true epc =
    (let k := p.kept.filter (fun k => k.pc == epc)
    { p with
      vl := p.endConvoy.vl, pc := epc, wait := (k.bind (·.join)).map .sjoin, convoy := none, begun := (k.map (·.begun)).getD 0
      stored := (k.map (·.stored)).getD [], kept := none, picked := [], loaded := false, recs := [], entry := false }) := rfl

theorem Part.resumed_other (p : Part) (epc : Word) : p.resumed false epc =
    { p with
      vl := p.endConvoy.vl, wait := p.joinId.map .sjoin, convoy := none, picked := [], loaded := false, recs := [], xidx := p.restartXidx } := rfl

theorem Part.map_joinId (p : Part) : p.joinId.map Wait.sjoin = match p.wait with | some (.sjoin id) => some (.sjoin id) | _ => none := by
  unfold Part.joinId
  generalize p.wait = w
  cases w with
  | none => rfl
  | some w => cases w <;> rfl

/-- A claimed part's regained registers are those of the part that claim saved. -/
theorem Part.unclaimed_fields (p : Part) : { p.unclaimed with vl := p.unclaimed.endConvoy.vl, convoy := p.convoy } = p.regained true ∧
    p.unclaimed.restartXidx = match p.convoy with
      | some c => if c.elems.isEmpty && c.whole && c.first == p.pc && c.done != 0 then c.done else (p.regained true).xidx
      | none => (p.regained true).xidx := by
  cases hc : p.claim with
  | none =>
    have hp : p.unclaimed = p := by rw [Part.unclaimed, hc]
    have hr : p.regained true = { p with vl := p.endConvoy.vl } := by
      rw [Part.regained, if_pos rfl, hc]
      rfl
    rw [hp, hr]
    exact ⟨rfl, rfl⟩
  | some c =>
    have hp : p.unclaimed = { p.uncut with vl := c.1, xidx := c.2.1, rm := c.2.2, claim := none } := by rw [Part.unclaimed, hc]
    have hr : p.regained true = { p with claim := none, vl := c.1, xidx := c.2.1, rm := c.2.2 } := by
      rw [Part.regained, hc]
      rfl
    rw [hp, hr]
    cases hv : p.convoy with
    | none => exact ⟨by simp [Part.uncut, Part.endConvoy, hv], by simp [Part.uncut, Part.restartXidx, hv]⟩
    | some v => exact ⟨by simp [Part.uncut, Part.endConvoy, hv], by simp [Part.uncut, Part.restartXidx, hv]⟩

theorem Seat.handles_iff (u : Seat) (p : Part) : u.handles p = true ↔ ∃ h, u.handler = some h ∧ p.active &&& ~~~h = 0 := by
  unfold Seat.handles
  cases u.handler <;> simp

/-- Where a part goes on after eret, its registers being `r`. -/
def Part.goneOn (p r : Part) (handles : Bool) (epc : Word) : Part :=
  if handles then
    let k := p.kept.filter (fun k => k.pc == epc)
    { r with
      pc := epc, wait := (k.bind (·.join)).map .sjoin, convoy := none, begun := (k.map (·.begun)).getD 0, stored := (k.map (·.stored)).getD []
      kept := none, picked := [], loaded := false, recs := [], entry := false }
  else
    { r with
      wait := (match p.wait with | some (.sjoin id) => some (.sjoin id) | _ => none), convoy := none, picked := [], loaded := false, recs := []
      xidx := match p.convoy with
        | some c => if c.elems.isEmpty && c.whole && c.first == p.pc && c.done != 0 then c.done else r.xidx
        | none => r.xidx }

theorem Part.unclaimed_wait (p : Part) : p.unclaimed.wait = p.wait ∧ p.unclaimed.kept = p.kept ∧ p.unclaimed.active = p.active ∧ p.unclaimed.late = p.late := by
  unfold Part.unclaimed
  split
  · refine ⟨rfl, rfl, rfl, ?_⟩
    unfold Part.late Part.uncut
    cases p.convoy <;> rfl
  · exact ⟨rfl, rfl, rfl, rfl⟩

theorem Part.resumed_eq (p : Part) (handles : Bool) (epc : Word) : p.resumed handles epc = p.goneOn (p.regained false) handles epc := by
  cases handles with
  | true => rfl
  | false =>
    rw [Part.resumed_other, Part.map_joinId]
    rfl

theorem Part.resumed_unclaimed (p : Part) (handles : Bool) (epc : Word) : p.unclaimed.resumed handles epc = p.goneOn (p.regained true) handles epc := by
  obtain ⟨hfields, hxidx⟩ := p.unclaimed_fields
  obtain ⟨hwait, hkept, -, -⟩ := p.unclaimed_wait
  cases handles with
  | true =>
    rw [Part.resumed_handler, hkept, Part.goneOn, ← hfields]
    rfl
  | false =>
    rw [Part.resumed_other, Part.map_joinId, hwait, hxidx, Part.goneOn, ← hfields]
    rfl

/-! ## The state after eret -/

theorem State.flushParts_of_none {ps : List (Nat × Option Part)} (h : ∀ x ∈ ps, ∀ p, x.2 = some p → p.late = []) (s : State) (core : Nat) :
    s.flushParts core ps = s := by
  induction ps with
  | nil => rfl
  | cons x ps ih =>
    obtain ⟨q, y⟩ := x
    have hrest := ih fun z hz => h z (List.mem_cons_of_mem _ hz)
    cases y with
    | none => exact hrest
    | some p =>
      have hp : p.late = [] := h _ List.mem_cons_self p rfl
      change (s.flushLate core p.late).flushParts core ps = s
      rw [hp]
      exact hrest

theorem SameCores.trans {s t v : State} (hf : t.focus = s.focus) (h : SameCores s t) (h' : SameCores t v) : SameCores s v := by
  refine ⟨fun c => ?_, fun c b hb => (h'.seats c b (hf ▸ hb)).trans (h.seats c b hb)⟩
  have hc := congrArg (fun x : Core => { x with banks := (s.core c).banks, seats := (s.core c).seats }) (h'.cores c)
  exact hc.trans (h.cores c)

theorem State.takeArea_spec (s : State) (n k : Nat) :
    { ((s.takeArea n k).map (·.2)).getD s with launches := s.launches, lctl := s.lctl } = s := by
  have hmod (f : Task → Task) : { s.modTask n k f with launches := s.launches } = s := by
    unfold State.modTask State.setTask State.modLaunch
    split
    · split <;> rfl
    · rfl
  unfold State.takeArea
  split
  · rfl
  · cases s.freeAreas.head? with
    | none => rfl
    | some i => exact congrArg (fun x : State => { x with lctl := s.lctl }) (hmod _)

/-- The seat after eret. -/
def Seat.resumed (t : Seat) : Seat :=
  { t.mapParts (fun p => p.resumed (t.handles p) t.epc) with
    status := { t.status with lvl := t.status.plvl, hold := false, cls := 0, clm := false }, handler := none }

/-- The seat after an eret from class 4: its context is to be saved. -/
def Seat.toSave (t : Seat) : Seat := { t with phase := .saving, preempt := false }

section
variable {k : State} (hlate : ∀ x ∈ k.fseat.parts, ∀ p, x.2 = some p → p.late = [])
include hlate

theorem State.resumeAt_eq (cls : BitVec 3) : k.resumeAt cls =
    if cls = 4 ∧ k.fseat.isCC = false then (k.setSeat k.focus k.fseat.resumed).beginSave k.focus.core k.focus.base else k.setSeat k.focus k.fseat.resumed := by
  unfold State.resumeAt
  simp only [State.flushParts_of_none hlate, Bool.and_eq_true, decide_eq_true_eq, Bool.not_eq_true']
  rfl

/-- What eret does beside giving back what claim saved. -/
theorem State.resumeAt_spec (cls : BitVec 3) :
    (¬(cls = 4 ∧ k.fseat.isCC = false) → { k.resumeAt cls with cores := k.cores } = k) ∧
      { k.resumeAt cls with cores := k.cores, launches := k.launches, lctl := k.lctl } = k ∧ SameCores k (k.resumeAt cls) ∧
      (∀ c b, (k.resumeAt cls).bank c b = k.bank c b) ∧
      (k.resumeAt cls).seat k.focus = if cls = 4 ∧ k.fseat.isCC = false then k.fseat.resumed.toSave else k.fseat.resumed := by
  rw [State.resumeAt_eq hlate]
  split
  next hsave =>
    let s1 := k.setSeat k.focus k.fseat.resumed
    let s2 := s1.setSeat? k.focus.core k.focus.base (some k.fseat.resumed.toSave)
    let t := ((s2.takeArea k.fseat.resumed.toSave.launch k.fseat.resumed.toSave.task).map (·.2)).getD s2
    have hseat? : s1.seat? k.focus.core k.focus.base = some k.fseat.resumed :=
      (State.seat?_setSeat? k _ _ _ _ _).trans (if_pos ⟨rfl, rfl⟩)
    have ht : s1.beginSave k.focus.core k.focus.base = t := by
      rw [State.beginSave, hseat?]
      rfl
    have harea : { t with launches := s2.launches, lctl := s2.lctl } = s2 := s2.takeArea_spec _ _
    have hcores : SameCores k s2 := ((SameCores.refl k).setSeat k.fseat.resumed).setSeat k.fseat.resumed.toSave
    rw [ht]
    have hcores2 : t.cores = s2.cores := by
      have h := congrArg State.cores harea
      exact h
    have hm : SameMachine s2 t := ⟨hcores2, by have h := congrArg State.focus harea; exact h⟩
    refine ⟨fun h => absurd hsave h, ?_, ?_, fun c b => ?_, ?_⟩
    · exact congrArg (fun x : State => { x with cores := k.cores }) harea
    · exact SameCores.trans (t := s2) rfl hcores hm.sameCores
    · exact (hm.bank c b).trans ((State.bank_setSeat? _ _ _ c b _).trans (State.bank_setSeat _ _ _ c b))
    · have h := hm.fseat
      rw [State.fseat, hm.2] at h
      exact h.trans (State.seat_setSeat s1 k.focus k.fseat.resumed.toSave)
  next hsave =>
    exact ⟨fun _ => rfl, rfl, (SameCores.refl k).setSeat _, fun c b => State.bank_setSeat _ _ _ c b, State.seat_setSeat _ _ _⟩

end

/-! ## The address that eret returns to (R89, R125) -/

section
variable {s : State} {a : Word} {pa : Nat}

/-- Without CB the head's number alone counts. -/
theorem slotCheck_of_ok (h : HeadAddress a) (hf : fetchPa s s.fctx (a.toNat / 64 * 64) = .ok pa) :
    slotCheck s s.fctx false a = if a.toNat % 64 / 2 ≤ s.peek pa 2 % 32 then .ok () else .bad 0 0x03 := by
  have hh : (parcelAt s pa 0).toNat % 32 = s.peek pa 2 % 32 := by
    rw [parcelAt, BitVec.toNat_ofNat, Nat.mod_mod_of_dvd _ (by decide)]
    rfl
  rw [slotCheck, (headAddress_iff a).1 h, lineOf, hf]
  simp only [hh, Bool.not_false, Bool.true_or, Bool.and_true, decide_eq_true_eq]
  rfl

end

section
variable {s : State}

theorem eret_of_user (h : s.fseat.status.lvl = false) : exec .eret s = .next (s.trapSingle 0x04 0) := by
  change execEret s = _
  rw [execEret, h]
  rfl

theorem eret_of_super (h : s.fseat.status.lvl = true) : exec .eret s = afterSlot s false s.fseat.epc s.eretGo := by
  change execEret s = _
  rw [execEret, h]
  rfl

theorem eret_bad (h : s.fseat.status.lvl = true) (hc : slotCheck s s.fctx false s.fseat.epc = .bad 0 0x03) :
    exec .eret s = .next (s.trapSingle 0x03 s.fseat.epc) := by
  rw [eret_of_super h, afterSlot, hc]

theorem eret_wait (h : s.fseat.status.lvl = true) {w : Wait} (hc : slotCheck s s.fctx false s.fseat.epc = .wait w) : Waits .eret s w :=
  waits_of (by rw [eret_of_super h, afterSlot, hc])

theorem eret_ok (h : s.fseat.status.lvl = true) (hc : slotCheck s s.fctx false s.fseat.epc = .ok ()) : exec .eret s = .next s.eretGo := by
  rw [eret_of_super h, afterSlot, hc]

end

/-! ## eret (R125, R344, R346) -/

/-- The state with what claim saved given back. -/
def State.regained (s : State) : State := if s.fseat.status.clm then s.unclaim else s

section
variable (s : State)

theorem State.regained_focus : s.regained.focus = s.focus := by
  unfold State.regained
  split
  · exact s.unclaim_focus
  · rfl

theorem State.regained_cores : SameCores s s.regained := by
  unfold State.regained
  split
  · exact s.unclaim_cores
  · exact SameCores.refl s

/-- The parts that eret resumes. -/
def Part.given (p : Part) (clm : Bool) : Part := if clm then p.unclaimed else p

theorem State.regained_fseat : s.regained.fseat = s.fseat.mapParts (fun p => p.given s.fseat.status.clm) ∨ s.fseat.status.clm = false ∧ s.regained.fseat = s.fseat := by
  unfold State.regained
  split
  next h =>
    rw [State.fseat, s.unclaim_focus, s.unclaim_seat, h]
    exact .inl rfl
  next h => exact .inr ⟨by simpa using h, rfl⟩

theorem State.regained_part? (q : Nat) : s.regained.fseat.part? q = (s.fseat.part? q).map (fun p => p.given s.fseat.status.clm) := by
  rcases s.regained_fseat with h | ⟨hc, h⟩
  · rw [h, Seat.part?_mapParts]
  · rw [h, hc]
    exact Option.map_id'.symm

theorem State.regained_seat : s.regained.fseat = { s.fseat with parts := s.regained.fseat.parts } := by
  rcases s.regained_fseat with h | ⟨-, h⟩
  · rw [h]
    rfl
  · rw [h]

theorem Part.late_given (p : Part) (clm : Bool) : (p.given clm).late = p.late := by
  cases clm with
  | false => rfl
  | true => exact p.unclaimed_wait.2.2.2

theorem State.regained_late (h : ∀ x ∈ s.fseat.parts, ∀ p, x.2 = some p → p.late = []) :
    ∀ x ∈ s.regained.fseat.parts, ∀ p, x.2 = some p → p.late = [] := by
  rcases s.regained_fseat with hk | ⟨-, hk⟩
  · rw [hk]
    refine List.forall_mem_map.2 fun x hx p hp => ?_
    obtain ⟨y, hy, rfl⟩ := Option.map_eq_some_iff.1 hp
    rw [Part.late_given]
    exact h x hx y hy
  · rw [hk]
    exact h

/-- A part after eret, in one formula. -/
theorem Part.resumed_given (u : Seat) (p : Part) (epc : Word) :
    (p.given u.status.clm).resumed (u.handles (p.given u.status.clm)) epc = p.goneOn (p.regained u.status.clm) (u.handles p) epc := by
  cases u.status.clm with
  | false => exact p.resumed_eq _ epc
  | true =>
    have h : u.handles p.unclaimed = u.handles p := by rw [Seat.handles, p.unclaimed_wait.2.2.1, Seat.handles]
    rw [show p.given true = p.unclaimed from rfl, h]
    exact p.resumed_unclaimed _ epc

theorem State.regained_bank (c b : Nat) : s.regained.bank c b =
    if s.fseat.status.clm = true ∧ c = s.focus.core ∧ b ∈ s.fseat.banks then (s.bank c b).unclaimed else s.bank c b := by
  unfold State.regained
  split
  next h =>
    rw [s.unclaim_bank]
    simp only [h, true_and]
  next h => rw [if_neg fun hx => h hx.1]

/-- eret changes level and handler of the seat, and its parts. -/
theorem Seat.resumed_of_parts {u v : Seat} (hv : v = { u with parts := v.parts }) : v.resumed =
    { u with
      parts := v.resumed.parts, handler := none
      status := { u.status with lvl := u.status.plvl, hold := false, cls := 0, clm := false } } := by
  generalize v.parts = ps at hv
  subst hv
  rfl

theorem Seat.part?_resumed (v : Seat) (q : Nat) : v.resumed.part? q = (v.part? q).map (fun p => p.resumed (v.handles p) v.epc) :=
  Seat.part?_mapParts v (fun p => p.resumed (v.handles p) v.epc) q

/-- Every part after eret. -/
theorem State.regained_resumed_part? (q : Nat) : s.regained.fseat.resumed.part? q =
    (s.fseat.part? q).map (fun p => p.goneOn (p.regained s.fseat.status.clm) (s.fseat.handles p) s.fseat.epc) := by
  have hseat := s.regained_seat
  have hhandler : s.regained.fseat.handler = s.fseat.handler := (congrArg Seat.handler hseat :)
  have hepc : s.regained.fseat.epc = s.fseat.epc := (congrArg Seat.epc hseat :)
  rw [Seat.part?_resumed, s.regained_part?, Option.map_map, hepc]
  refine congrArg (Option.map · _) (funext fun p => ?_)
  rw [← Part.resumed_given, Function.comp_apply, Seat.handles, hhandler, Seat.handles]

end

theorem eretGo_wait {s : State} {w : Wait} (h : (if s.fseat.status.clm then claimWait s s.focus.core s.fseat.banks else none) = some w) :
    s.eretGo = s.waitOn w := by
  rw [State.eretGo]
  simp only [h]

theorem eretGo_resumes {s : State} (h : (if s.fseat.status.clm then claimWait s s.focus.core s.fseat.banks else none) = none) :
    s.eretGo = s.regained.resumeAt s.fseat.status.cls := by
  rw [State.eretGo]
  simp only [h]
  rfl

/-- Settles O13: what claim saved is given back, then every part is put where it goes on. -/
theorem eretReturnsFromATrap : Obligations.EretReturnsFromATrap := by
  intro s hs hlate u n line wait
  refine ⟨eret_of_user, fun hl hn => eret_bad hl (slotCheck_of_not_head hn false), fun hl hh => ⟨fun w hw => eret_wait hl (slotCheck_of_wait hh hw false),
    fun pa hf hlt => eret_bad hl ((slotCheck_of_ok hh hf).trans (if_neg (Nat.not_le.2 hlt))), fun hok => ?_⟩⟩
  have hgo : exec .eret s = .next s.eretGo := by
    refine eret_ok hl ?_
    rcases hok with ⟨o, k, hf⟩ | ⟨pa, hf, hle⟩
    · exact slotCheck_of_unfetched hh hf false
    · exact (slotCheck_of_ok hh hf).trans (if_pos hle)
  refine ⟨fun w hw => waits_of (hgo.trans (congrArg _ (eretGo_wait hw))), fun hw => ⟨s.regained.resumeAt u.status.cls, hgo.trans (congrArg _ (eretGo_resumes hw)), ?_⟩⟩
  obtain ⟨hstays, hrest, hcores, hbank, hseat⟩ := State.resumeAt_spec (s.regained_late hlate) u.status.cls
  have hcc : s.regained.fseat.isCC = u.isCC := (congrArg Seat.isCC s.regained_seat :)
  rw [s.regained_focus, hcc] at hseat
  rw [hcc] at hstays
  have hparts (q : Nat) : ((s.regained.resumeAt u.status.cls).seat s.focus).part? q = s.regained.fseat.resumed.part? q := by
    rw [hseat]
    split <;> rfl
  refine ⟨SameCores.trans s.regained_focus s.regained_cores hcores, fun c b hb => ?_, ⟨?_, fun hns hc => ?_⟩, fun q => ?_, fun hc => ?_, fun hc => ⟨fun hnone => ?_,
    fun hr b hb h hh hl => ?_, fun b hb c hclaim => ?_⟩⟩
  · rw [hbank, s.regained_bank, if_neg fun h => hb h.2]
  · rw [hseat]
    split
    · rw [Seat.resumed_of_parts s.regained_seat]
      rfl
    · exact Seat.resumed_of_parts s.regained_seat
  · have hk : s.regained = s := if_neg (by rw [show s.fseat.status.clm = false from hc]; decide)
    have h := hstays hns
    rw [hk] at h ⊢
    exact h
  · rw [hparts, s.regained_resumed_part?]
    refine congrArg (Option.map · _) (funext fun p => ?_)
    dsimp only
    split
    next hx =>
      rw [(Seat.handles_iff s.fseat p).2 hx]
      rfl
    next hx =>
      rw [Bool.eq_false_iff.2 (mt (Seat.handles_iff s.fseat p).1 hx)]
      rfl
  · have hk : s.regained = s := if_neg (by rw [show s.fseat.status.clm = false from hc]; decide)
    rw [hk] at hbank hrest ⊢
    exact ⟨hbank, hrest⟩
  all_goals have hk : s.regained = s.unclaim := if_pos hc
  · have htokens := s.tokensBack_of_none hnone
    have hunclaim := s.unclaim_rest
    rw [htokens] at hunclaim
    rw [hk] at hrest ⊢
    exact (congrArg (fun x : State => { x with cores := s.cores, launches := s.launches, lctl := s.lctl }) hrest :).trans
      (congrArg (fun x : State => { x with launches := s.launches, lctl := s.lctl }) hunclaim :)
  · rw [hk] at hrest ⊢
    have hops : (s.unclaim.resumeAt u.status.cls).ops = s.tokensBack.ops := (congrArg State.ops hrest :).trans s.unclaim_ops
    rw [State.op, hops]
    exact s.tokensBack_detached hr hb hh hl
  · rw [hk] at hrest hbank ⊢
    have hfocus : (s.unclaim.resumeAt u.status.cls).focus = s.focus := (congrArg State.focus hrest :).trans s.unclaim_focus
    have hb' : (s.unclaim.resumeAt u.status.cls).fbank b = (s.fbank b).unclaimed := by
      rw [State.fbank, hfocus, hbank, s.unclaim_bank, if_pos ⟨rfl, hb⟩]
      rfl
    rw [hb']
    exact Bank.unclaimed_spec hclaim

end Sys2Proof.Machine
end

section
/-! The checks of a scalar access over the banks of a part (O23): which failure is taken, and what plain memory passes (R148, R149). -/

namespace Sys2Proof.Machine

-- Proofs elaborated side by side each hold a thread's stack, and the whole text compiles near the memory limit of its check.
set_option Elab.async false

/-! ## The banks of a part, lowest first -/

theorem banksOf_sorted (x : BitVec 16) : (banksOf x).Pairwise (· < ·) := List.Pairwise.filter _ List.pairwise_lt_range

theorem State.active_sorted (s : State) : s.active.Pairwise (· < ·) := banksOf_sorted _

theorem State.lt_of_mem_active {s : State} {b : Nat} (h : b ∈ s.active) : b < 16 := (mem_banksOf.1 h).1

/-- A bank among the active ones: those before it are lower, those behind it higher. -/
theorem State.active_split {s : State} {b : Nat} (h : b ∈ s.active) :
    ∃ xs ys, s.active = xs ++ b :: ys ∧ (∀ c ∈ xs, c ∈ s.active ∧ c < b) ∧ ∀ c ∈ ys, c ∈ s.active ∧ b < c := by
  obtain ⟨xs, ys, he⟩ := List.append_of_mem h
  have hs := s.active_sorted
  rw [he, List.pairwise_append, List.pairwise_cons] at hs
  obtain ⟨-, ⟨hys, -⟩, hxs⟩ := hs
  exact ⟨xs, ys, he, fun c hc => ⟨by rw [he]; exact List.mem_append_left _ hc, hxs c hc b List.mem_cons_self⟩,
    fun c hc => ⟨by rw [he]; exact List.mem_append_right _ (List.mem_cons_of_mem _ hc), hys c hc⟩⟩

/-- At the start of its instruction no bank of the part has performed it (R150). -/
theorem State.restBanks_of_fresh {s : State} (h : Fresh s) : s.restBanks = s.active := by
  unfold State.restBanks State.active
  rw [show (s.part s.focus).begun = 0 from h]
  exact congrArg banksOf BitVec.and_allOnes

theorem State.fctx_view {s : State} (h : s.fseat.red = none) : s.fctx.view = [] := by
  unfold State.fctx ctxOf
  dsimp only
  rw [show (s.seat s.focus).red = none from h]
  rfl

theorem viewOf_of_task {s : State} (h : s.fseat.red = none) (va : Nat) : viewOf s.fctx va = none := by
  rw [viewOf, State.fctx_view h]
  rfl

/-! ## tval (R148) -/

theorem addrTval_eq (va : Nat) {bank : Nat} (h : bank < 16) : addrTval va bank = BitVec.ofNat 64 (va % 2 ^ 56 + bank * 2 ^ 56) := by
  rw [addrTval, Nat.mod_eq_of_lt h]

theorem addrTval_of_lt {va bank : Nat} (hv : va < 2 ^ 56) (h : bank < 16) : addrTval va bank = BitVec.ofNat 64 (va + bank * 2 ^ 56) := by
  rw [addrTval_eq va h, Nat.mod_eq_of_lt hv]

/-! ## Which failure is taken (R149) -/

section
variable {s : State} {c : Ctx} {t : Seat} {x : Access}

theorem checkAll_ok {as : List BankAccess} (h : ∀ a ∈ as, ∃ p, checkAccess s c t x a.va = .ok p) (f : Option (Nat × BitVec 8 × Word))
    (w : Option Wait) : checkAll s c t x as f w = (f, w) := by
  induction as with
  | nil => rfl
  | cons a as ih =>
    obtain ⟨p, hp⟩ := h a List.mem_cons_self
    rw [checkAll, hp]
    exact ih fun b hb => h b (List.mem_cons_of_mem _ hb)

/-- A failure noted stays, when none of the rest is of an earlier check. -/
theorem checkAll_keeps {as : List BankAccess} {o : Nat} (h : ∀ a ∈ as, ∀ o' k', checkAccess s c t x a.va = .bad o' k' → o ≤ o') (k : BitVec 8)
    (v : Word) (w : Option Wait) : (checkAll s c t x as (some (o, k, v)) w).1 = some (o, k, v) := by
  induction as generalizing w with
  | nil => rfl
  | cons a as ih =>
    have hrest := ih fun b hb => h b (List.mem_cons_of_mem _ hb)
    rw [checkAll]
    split
    next => exact hrest w
    next o' k' hc =>
      rw [worst, if_neg (Nat.not_lt.2 (h a List.mem_cons_self o' k' hc))]
      exact hrest w
    next w' _ => exact hrest (some w')

/-- The failure of the earliest check is taken, among its banks the lowest (R149). -/
theorem checkAll_bad {xs ys : List BankAccess} {a : BankAccess} {o : Nat} {k : BitVec 8} (ha : checkAccess s c t x a.va = .bad o k)
    (hxs : ∀ b ∈ xs, ∀ o' k', checkAccess s c t x b.va = .bad o' k' → o < o')
    (hys : ∀ b ∈ ys, ∀ o' k', checkAccess s c t x b.va = .bad o' k' → o ≤ o') {f : Option (Nat × BitVec 8 × Word)}
    (hf : ∀ y ∈ f, o < y.1) (w : Option Wait) :
    (checkAll s c t x (xs ++ a :: ys) f w).1 = some (o, k, addrTval a.va a.bank) := by
  induction xs generalizing f w with
  | nil =>
    have hw : worst f o k (addrTval a.va a.bank) = some (o, k, addrTval a.va a.bank) := by
      cases f with
      | none => rfl
      | some y => exact if_pos (hf y rfl)
    rw [List.nil_append, checkAll, ha]
    dsimp only
    rw [hw]
    exact checkAll_keeps hys _ _ _
  | cons b xs ih =>
    have hrest {f' : Option (Nat × BitVec 8 × Word)} (hf' : ∀ y ∈ f', o < y.1) (w') := ih (fun e he => hxs e (List.mem_cons_of_mem _ he)) hf' w'
    rw [List.cons_append, checkAll]
    split
    next => exact hrest hf w
    next o' k' hb =>
      have hlt := hxs b List.mem_cons_self o' k' hb
      refine hrest (fun y hy => ?_) w
      cases f with
      | none =>
        cases hy
        exact hlt
      | some z =>
        rw [Option.mem_def, show worst (some z) o' k' (addrTval b.va b.bank) = _ from apply_ite some _ _ _ |>.symm] at hy
        obtain rfl := Option.some.inj hy
        split
        · exact hlt
        · exact hf z rfl
    next w' _ => exact hrest hf (some w')

end

theorem scalarAccess_trap {s : State} {c : Ctx} {t : Seat} {x : Access} {as : List BankAccess} {o : Nat} {k : BitVec 8} {v : Word}
    (h : (checkAll s c t x as none none).1 = some (o, k, v)) (act : State → Spot → BankAccess → Res State) :
    scalarAccess s c t x as act = (s, .trap k v) := by
  unfold scalarAccess
  generalize checkAll s c t x as none none = r at h
  obtain ⟨f, w⟩ := r
  cases h
  rfl

theorem scalarAccess_performs {s : State} {c : Ctx} {t : Seat} {x : Access} {as : List BankAccess}
    (h : ∀ a ∈ as, ∃ p, checkAccess s c t x a.va = .ok p) (act : State → Spot → BankAccess → Res State) :
    scalarAccess s c t x as act = s.accessAll c t x act as := by
  unfold scalarAccess
  rw [checkAll_ok h]

/-- The same over the banks of a part: the failure of bank b is taken, with its address in tval. -/
theorem scalarAccess_bad {s : State} {c : Ctx} {t : Seat} {x : Access} {f : Nat → BankAccess} (hf : ∀ b, (f b).bank = b) {b o : Nat} {k : BitVec 8}
    (hb : b ∈ s.active) (ha : checkAccess s c t x (f b).va = .bad o k)
    (hfirst : ∀ e ∈ s.active, ∀ o' k', checkAccess s c t x (f e).va = .bad o' k' → o < o' ∨ (o = o' ∧ b ≤ e))
    (act : State → Spot → BankAccess → Res State) :
    scalarAccess s c t x (s.active.map f) act = (s, .trap k (BitVec.ofNat 64 ((f b).va % 2 ^ 56 + b * 2 ^ 56))) := by
  obtain ⟨xs, ys, he, hxs, hys⟩ := State.active_split hb
  rw [← addrTval_eq _ (State.lt_of_mem_active hb)]
  refine scalarAccess_trap (o := o) ?_ act
  rw [he, List.map_append, List.map_cons]
  refine (checkAll_bad ha ?_ ?_ (fun y hy => by cases hy) none).trans (by rw [hf])
  · intro y hy o' k' hbad
    obtain ⟨e, hm, rfl⟩ := List.mem_map.1 hy
    obtain ⟨hact, hlt⟩ := hxs e hm
    have := hfirst e hact o' k' hbad
    omega
  · intro y hy o' k' hbad
    obtain ⟨e, hm, rfl⟩ := List.mem_map.1 hy
    have := hfirst e (hys e hm).1 o' k' hbad
    omega

end Sys2Proof.Machine
end

section
/-! What the accesses of a part leave as it was for those that follow (R149, R150), and memory read back after a store. -/

namespace Sys2Proof.Machine

-- Proofs elaborated side by side each hold a thread's stack, and the whole text compiles near the memory limit of its check.
set_option Elab.async false

/-! ## Reading memory back -/

theorem SramBank.byte_of_data (x : SramBank) (d : Table Byte) (off : Nat) :
    ({ x with data := d } : SramBank).byte off = look (Config.freeByte x.undef off) d off := rfl

theorem look_sramWrite_other {t : Table Byte} (z : Byte) (off v n j : Nat) (hj : j < off ∨ off + n ≤ j) :
    look z (sramWrite t off v n) j = look z t j := by
  induction n generalizing t off v with
  | zero => rfl
  | succ n ih =>
    rw [sramWrite, ih (off + 1) (v / 256) (by omega)]
    exact look_put_other z t off j _ (by omega)

/-- A store to an SRAM bank leaves the bytes outside it. -/
theorem SramBank.read_write_apart (x : SramBank) {off v n a m : Nat} (h : a + m ≤ off ∨ off + n ≤ a) :
    ({ x with data := sramWrite x.data off v n } : SramBank).read a m = x.read a m := by
  induction m generalizing a with
  | zero => rfl
  | succ m ih =>
    rw [SramBank.read, SramBank.read, ih (by omega), SramBank.byte_of_data, look_sramWrite_other _ off v n a (by omega)]
    rfl

theorem SramBank.read_write_same (x : SramBank) (off v n : Nat) :
    ({ x with data := sramWrite x.data off v n } : SramBank).read off n = v % 256 ^ n := by
  induction n generalizing x off v with
  | zero => simp [SramBank.read, Nat.mod_one]
  | succ n ih =>
    have hrest := ih { x with data := put x.data off (BitVec.ofNat 8 v) } (off + 1) (v / 256)
    rw [SramBank.read, SramBank.byte_of_data, sramWrite, look_sramWrite_other _ (off + 1) (v / 256) n off (by omega), look_put_same]
    rw [show ({ x with data := sramWrite (put x.data off (BitVec.ofNat 8 v)) (off + 1) (v / 256) n } : SramBank).read (off + 1) n = _ from hrest]
    rw [BitVec.toNat_ofNat, show 256 ^ (n + 1) = 256 * 256 ^ n by rw [Nat.pow_succ, Nat.mul_comm], Nat.mod_mul]

theorem readLE_writeLE_apart {t : Table Byte} (h : bytesWf t = true) {pa v n a m : Nat} (ha : a + m ≤ pa ∨ pa + n ≤ a) :
    readLE (writeLE t pa v n) a m = readLE t a m := by
  induction m generalizing a with
  | zero => rfl
  | succ m ih => rw [readLE, readLE, ih (by omega), look_writeLE_other pa v n a h (by omega)]

theorem State.sram_setSram (s : State) (q b r c : Nat) (v : SramBank) :
    (s.setSram q b v).sram r c = if r = q ∧ c = b then v else s.sram r c := by
  unfold State.sram State.setSram State.modQuad
  rw [State.quad_setQuad]
  by_cases hr : r = q
  · subst hr
    simp [look_put]
  · simp [hr]

theorem State.poke_sram (s : State) (w : Option (Nat × Nat)) {pa : Nat} (hr : regionOf pa = .sram) (v n q b : Nat) :
    (s.poke w pa v n).sram q b = if q = sramQuad pa ∧ b = sramBankNo pa then
      { s.sram q b with data := sramWrite (s.sram q b).data (pa % 0x40000) v n } else s.sram q b := by
  unfold State.poke
  rw [if_pos hr]
  refine (State.sram_setSram s _ _ q b _).trans ?_
  split
  next h => rw [h.1, h.2]
  next => rfl

/-- A store to memory reads back. -/
theorem State.peek_poke {s : State} (h : Memory.wf s = true) (w : Option (Nat × Nat)) (pa v n : Nat) : (s.poke w pa v n).peek pa n = v % 256 ^ n := by
  by_cases hr : regionOf pa = .sram
  · rw [State.peek, if_pos hr, State.poke_sram s w hr, if_pos ⟨rfl, rfl⟩]
    exact SramBank.read_write_same _ _ _ _
  · exact State.peek_poke_same w pa v n hr h

/-- Two places of one SRAM bank lie as far apart as their offsets. -/
theorem sram_offsets {a b : Nat} (ha : regionOf a = .sram) (hb : regionOf b = .sram) (hq : sramQuad a = sramQuad b) (hn : sramBankNo a = sramBankNo b) :
    a + b % 0x40000 = b + a % 0x40000 := by
  have base {x : Nat} (hx : regionOf x = .sram) : sramBase ≤ x := by
    unfold regionOf at hx
    split_ifs at hx with h1 h2 h3 h4 h5
    exact h4.1
  have ha' := base ha
  have hb' := base hb
  unfold sramQuad sramBankNo at *
  unfold sramBase at *
  omega

/-- A store leaves what lies outside its bytes. -/
theorem State.peek_poke_apart {s : State} (h : Memory.wf s = true) (w : Option (Nat × Nat)) {pa v n a m : Nat} (ha : a + m ≤ pa ∨ pa + n ≤ a) :
    (s.poke w pa v n).peek a m = s.peek a m := by
  by_cases hr : regionOf pa = .sram
  · unfold State.peek
    rw [State.poke_mem, if_pos hr, State.poke_sram s w hr]
    split
    next hsr =>
      split
      next hsame =>
        have := sram_offsets hsr hr hsame.1 hsame.2
        exact SramBank.read_write_apart _ (by omega)
      next => rfl
    next => rfl
  · have hq : ∀ q b, (s.poke w pa v n).sram q b = s.sram q b := fun q b => by
      unfold State.sram State.quad
      rw [State.poke_quad w pa v n hr]
    unfold State.peek
    rw [hq, State.poke_mem, if_neg hr, readLE_writeLE_apart h ha]

/-! ## What accesses leave as it was -/

/-- A bank is as it was but for its scalar registers, hsp and flags. -/
def Bank.Kept (x y : Bank) : Prop := { y with s := x.s, flags := x.flags, hsp := x.hsp } = x

@[refl] theorem Bank.Kept.refl (x : Bank) : Bank.Kept x x := rfl

theorem Bank.Kept.trans {x y z : Bank} (h : Bank.Kept x y) (h' : Bank.Kept y z) : Bank.Kept x z :=
  (congrArg (fun w : Bank => { w with s := x.s, flags := x.flags, hsp := x.hsp }) h' :).trans h

theorem Bank.kept_ws (x : Bank) (d : BitVec 5) (v : Word) : Bank.Kept x (x.ws d v) := by
  unfold Bank.ws
  split <;> rfl

theorem Bank.kept_accrue (x : Bank) (f : BitVec 5) : Bank.Kept x (x.accrue f) := rfl

/-- What the accesses of the part in focus leave as it was for later ones of it: everything but bytes of memory and of SRAM banks, links, what migrators
count and paths have taken ahead, the note of an atomic, its scalar registers, hsp and flags, and the seat's redundancy state. -/
structure Accessed (s t : State) : Prop where
  rest : { t with
    cores := s.cores, mem := s.mem, quads := s.quads, linked := s.linked, migs := s.migs, ahead := s.ahead, lastAmo := s.lastAmo, free := s.free } = s
  traces : Traces s t
  quads : ∀ q, { t.quad q with sram := (s.quad q).sram } = s.quad q
  sram : ∀ q b, { t.sram q b with data := (s.sram q b).data } = s.sram q b
  cores : SameCores s t
  regs : ∀ c b, Bank.Kept (s.bank c b) (t.bank c b)
  seat : { t.seat s.focus with red := (s.seat s.focus).red } = s.seat s.focus
  wf : Memory.wf s = true → Memory.wf t = true

namespace Accessed

theorem refl (s : State) : Accessed s s :=
  ⟨rfl, ⟨fun _ => rfl, fun _ h => h⟩, fun _ => rfl, fun _ _ => rfl, SameCores.refl s, fun _ _ => rfl, rfl, id⟩

variable {s t u : State}

theorem focus (h : Accessed s t) : t.focus = s.focus := by
  have hf := congrArg State.focus h.rest
  exact hf

theorem power (h : Accessed s t) : t.power = s.power := by
  have hf := congrArg State.power h.rest
  exact hf

theorem poison (h : Accessed s t) : t.poison = s.poison := by
  have hf := congrArg State.poison h.rest
  exact hf

theorem trans (h : Accessed s t) (h' : Accessed t u) : Accessed s u where
  rest := (congrArg (fun x : State => { x with
    cores := s.cores, mem := s.mem, quads := s.quads, linked := s.linked, migs := s.migs, ahead := s.ahead, lastAmo := s.lastAmo, free := s.free }) h'.rest :).trans h.rest
  traces := ⟨fun k => (congrArg (fun x : Migrator => { x with heat := (s.mig k).heat }) (h'.traces.1 k) :).trans (h.traces.1 k),
    fun x hx => h.traces.2 x (h'.traces.2 x hx)⟩
  quads q := (congrArg (fun x : Quad => { x with sram := (s.quad q).sram }) (h'.quads q) :).trans (h.quads q)
  sram q b := (congrArg (fun x : SramBank => { x with data := (s.sram q b).data }) (h'.sram q b) :).trans (h.sram q b)
  cores := SameCores.trans h.focus h.cores h'.cores
  regs c b := (h.regs c b).trans (h'.regs c b)
  seat := by
    have hs := h'.seat
    rw [h.focus] at hs
    exact (congrArg (fun x : Seat => { x with red := (s.seat s.focus).red }) hs :).trans h.seat
  wf hs := h'.wf (h.wf hs)

theorem core_power (h : Accessed s t) (c : Nat) : (t.core c).power = (s.core c).power := by
  have hc := congrArg Core.power (h.cores.cores c)
  exact hc

theorem pane (h : Accessed s t) (c b n : Nat) : t.pane c b n = s.pane c b n := by
  have hp := congrArg (fun x : Bank => x.pane n) (h.regs c b)
  exact hp

theorem claimOf (h : Accessed s t) (pa : Nat) : claimOf t pa = claimOf s pa := by
  unfold Machine.claimOf
  rw [h.core_power, h.pane]

theorem modeAt (h : Accessed s t) (pa : Nat) : modeAt t pa = modeAt s pa := by
  have hm := congrArg SramBank.mode (h.sram (sramQuad pa) (sramBankNo pa))
  exact hm

theorem poisoned (h : Accessed s t) (pa n : Nat) : t.poisoned pa n = s.poisoned pa n := by
  unfold State.poisoned State.poisonAt
  rw [h.poison]

theorem part (h : Accessed s t) : t.part s.focus = s.part s.focus := by
  have hp := congrArg (fun x : Seat => (x.part? s.focus.seq).getD Part.empty) h.seat
  exact hp

theorem isCC (h : Accessed s t) : t.fseat.isCC = s.fseat.isCC := by
  have hc := congrArg Seat.isCC h.seat
  rw [State.fseat, h.focus]
  exact hc

theorem fpart (h : Accessed s t) : t.fpart = s.fpart := by
  rw [State.fpart, h.focus]
  exact h.part

end Accessed

/-! ## The updates that accesses make -/

theorem accessed_modBank (s : State) (c b : Nat) {f : Bank → Bank} (hf : ∀ x, Bank.Kept x (f x)) :
    Accessed s (s.modBank c b f) where
  rest := rfl
  traces := ⟨fun _ => rfl, fun _ h => h⟩
  quads _ := rfl
  sram _ _ := rfl
  cores := (SameCores.refl s).modBank c b f
  regs d e := by
    rw [State.bank_modBank]
    split
    · exact hf _
    · rfl
  seat := by rw [State.seat_modBank]
  wf := id

theorem accessed_onActive (s : State) {f : Nat → Bank → Bank} (hf : ∀ b x, Bank.Kept x (f b x)) : Accessed s (s.onActive f) := by
  have hfold (bs : List Nat) (t : State) : Accessed t (t.modBanks s.focus.core f bs) := by
    induction bs generalizing t with
    | nil => exact Accessed.refl t
    | cons b bs ih => exact (accessed_modBank t s.focus.core b (hf b)).trans (ih _)
  exact hfold s.active s

/-- The redundancy state of the seat in focus is set. -/
theorem accessed_setRed {s : State} {v : Seat} (h : { v with red := s.fseat.red } = s.fseat) : Accessed s (s.setSeat s.focus v) where
  rest := rfl
  traces := ⟨fun _ => rfl, fun _ h => h⟩
  quads _ := rfl
  sram _ _ := rfl
  cores := (SameCores.refl s).setSeat v
  regs d e := by rw [State.bank_setSeat]
  seat := by
    rw [State.seat_setSeat]
    exact h
  wf := id

theorem accessed_dropAhead (s : State) (f : Ahead → Bool) : Accessed s (s.dropAhead f) :=
  ⟨rfl, ⟨fun _ => rfl, fun _ hx => (State.mem_dropAhead.1 hx).1⟩, fun _ => rfl, fun _ _ => rfl, ⟨fun _ => rfl, fun _ _ _ => rfl⟩, fun _ _ => rfl, rfl, id⟩

theorem accessed_orderPath (s : State) (core base : Nat) (p : BitVec 4) : Accessed s (s.orderPath core base p) := accessed_dropAhead s _

theorem accessed_orderByte (s : State) (core base : Nat) (p : BitVec 4) (pa n : Nat) : Accessed s (s.orderByte core base p pa n) := accessed_dropAhead s _

/-- An atomic is noted, free values are taken. -/
theorem accessed_note (s : State) (a : Option AmoNote) (n : Nat) : Accessed s { s with lastAmo := a, free := n } :=
  ⟨rfl, ⟨fun _ => rfl, fun _ h => h⟩, fun _ => rfl, fun _ _ => rfl, ⟨fun _ => rfl, fun _ _ _ => rfl⟩, fun _ _ => rfl, rfl, id⟩

theorem look_map_values {α β : Type} (f : α → β) (d : α) (t : Table α) (k : Nat) : look (f d) (t.map (fun p => (p.1, f p.2))) k = f (look d t k) := by
  induction t with
  | nil => rfl
  | cons p t ih =>
    obtain ⟨k', v⟩ := p
    rw [List.map_cons, look, look, apply_ite f, apply_ite f, ih]

theorem Migrator.touch_rest (m : Migrator) (ns pa : Nat) : { m.touch ns pa with heat := m.heat } = m := by
  unfold Migrator.touch
  split <;> rfl

/-- An access counted by the migrators changes nothing else (R295). -/
theorem touch_eq (s : State) (pa : Nat) : ∃ ms, s.touch pa = { s with migs := ms } := by
  unfold State.touch
  split
  · exact ⟨_, rfl⟩
  · exact ⟨s.migs, rfl⟩

theorem mig_touch (s : State) (pa k : Nat) : { (s.touch pa).mig k with heat := (s.mig k).heat } = s.mig k := by
  unfold State.touch
  split
  · have hm : look Migrator.empty (s.migs.map (fun m => (m.1, m.2.touch s.ns pa))) k = (s.mig k).touch s.ns pa :=
      look_map_values (fun m : Migrator => m.touch s.ns pa) Migrator.empty s.migs k
    exact (congrArg (fun m : Migrator => { m with heat := (s.mig k).heat }) hm :).trans (Migrator.touch_rest _ _ _)
  · rfl

theorem accessed_touch (s : State) (pa : Nat) : Accessed s (s.touch pa) := by
  have hm := mig_touch s pa
  obtain ⟨ms, h⟩ := touch_eq s pa
  rw [h] at hm ⊢
  exact ⟨rfl, ⟨hm, fun _ h => h⟩, fun _ => rfl, fun _ _ => rfl, ⟨fun _ => rfl, fun _ _ _ => rfl⟩, fun _ _ => rfl, rfl, id⟩

@[simp] theorem State.peek_touch (s : State) (pa a n : Nat) : (s.touch pa).peek a n = s.peek a n := by
  obtain ⟨ms, h⟩ := touch_eq s pa
  rw [h]
  rfl

/-- A store changes bytes, links and what was taken ahead, and nothing else. -/
theorem poke_eq (s : State) (w : Option (Nat × Nat)) (pa v n : Nat) :
    s.poke w pa v n = { s with
      mem := (s.poke w pa v n).mem, quads := (s.poke w pa v n).quads, linked := s.linked.filter (keepLink w pa n), ahead := s.ahead.filter (keepAhead w pa n) } := by
  unfold State.poke
  split <;> rfl

theorem accessed_poke (s : State) (w : Option (Nat × Nat)) (pa v n : Nat) : Accessed s (s.poke w pa v n) := by
  have hq (q : Nat) : { (s.poke w pa v n).quad q with sram := (s.quad q).sram } = s.quad q := by
    by_cases hr : regionOf pa = .sram
    · unfold State.poke
      rw [if_pos hr]
      refine (congrArg (fun x : Quad => { x with sram := (s.quad q).sram }) (State.quad_setQuad s _ q _) :).trans ?_
      split
      next h => rw [h]
      next => rfl
    · rw [State.quad, State.poke_quad w pa v n hr]
      rfl
  have hs (q b : Nat) : { (s.poke w pa v n).sram q b with data := (s.sram q b).data } = s.sram q b := by
    by_cases hr : regionOf pa = .sram
    · rw [State.poke_sram s w hr]
      split <;> rfl
    · rw [State.sram, State.quad, State.poke_quad w pa v n hr]
      rfl
  have hw : Memory.wf s = true → Memory.wf (s.poke w pa v n) = true := Memory.wf_poke w pa v n
  rw [poke_eq] at hq hs hw ⊢
  exact ⟨rfl, ⟨fun _ => rfl, fun _ hx => (List.mem_filter.1 hx).1⟩, hq, hs, ⟨fun _ => rfl, fun _ _ _ => rfl⟩, fun _ _ => rfl, rfl, hw⟩

end Sys2Proof.Machine
end

section
/-! The accesses of a part one after another (R149, R150): what plain memory gives and takes, and the end of an instruction whose accesses have performed. -/

namespace Sys2Proof.Machine

-- Proofs elaborated side by side each hold a thread's stack, and the whole text compiles near the memory limit of its check.
set_option Elab.async false

/-! ## One access after another -/

section
variable {s0 : State} {c : Ctx} {t : Seat} {x : Access} {act : State → Spot → BankAccess → Res State}

/-- Accesses that each keep P of those performed: P of all of them, and the rest goes on from there. -/
theorem performAll_prefix {P : List BankAccess → State → Prop} {s : State} (h0 : P [] s) {as : List BankAccess}
    (hstep : ∀ done a rest u, done ++ a :: rest = as → P done u →
      ∃ p v, checkAccess s0 c t x a.va = .ok p ∧ act u p a = .ok v ∧ P (done ++ [a]) v) (ys : List BankAccess) (m : BitVec 16) :
    ∃ u n, performAll s0 c t x act (as ++ ys) m s = performAll s0 c t x act ys n u ∧ P as u := by
  induction as using List.reverseRecOn generalizing ys with
  | nil => exact ⟨s, m, rfl, h0⟩
  | append_singleton as a ih =>
    obtain ⟨u, n, hu, hP⟩ := ih (fun done b rest v he => hstep done b (rest ++ [a]) v (by rw [← he]; simp)) (a :: ys)
    obtain ⟨p, v, hp, hv, hP'⟩ := hstep as a [] u rfl hP
    refine ⟨v, n ||| bankMask [a.bank], ?_, hP'⟩
    rw [List.append_assoc, List.singleton_append, hu, performAll, accessOne, hp]
    simp only [Res.andThen, hv]

theorem performAll_all {P : List BankAccess → State → Prop} {s : State} (h0 : P [] s) {as : List BankAccess}
    (hstep : ∀ done a rest u, done ++ a :: rest = as → P done u →
      ∃ p v, checkAccess s0 c t x a.va = .ok p ∧ act u p a = .ok v ∧ P (done ++ [a]) v) (m : BitVec 16) :
    ∃ u, performAll s0 c t x act as m s = (u, .ok) ∧ P as u := by
  obtain ⟨u, n, hu, hP⟩ := performAll_prefix (s0 := s0) (c := c) (t := t) (x := x) (act := act) h0 hstep [] m
  rw [List.append_nil] at hu
  exact ⟨u, hu, hP⟩

theorem performAll_bad {u : State} {a : BankAccess} {p : Spot} {o : Nat} {k : BitVec 8} (hr : t.red = none)
    (hp : checkAccess s0 c t x a.va = .ok p) (ha : act u p a = .bad o k) (as : List BankAccess) (m : BitVec 16) :
    performAll s0 c t x act (a :: as) m u = (u, .trap k (addrTval a.va a.bank)) := by
  rw [performAll, accessOne, hp]
  simp only [Res.andThen, ha, hr]
  rfl

theorem performAll_wait {u : State} {a : BankAccess} {p : Spot} {w : Wait} (hp : checkAccess s0 c t x a.va = .ok p)
    (ha : act u p a = .wait w) (as : List BankAccess) (m : BitVec 16) :
    performAll s0 c t x act (a :: as) m u = (u.noteBegun m, .wait w) := by
  rw [performAll, accessOne, hp]
  simp only [Res.andThen, ha]

end

/-! ## Banks changed by one access after another -/

/-- A bank after accesses that each change their bank by g. -/
def bankAfter (g : BankAccess → Bank → Bank) (done : List BankAccess) (b : Nat) (x : Bank) : Bank :=
  done.foldl (fun y a => if a.bank = b then g a y else y) x

theorem bankAfter_concat (g : BankAccess → Bank → Bank) (done : List BankAccess) (a : BankAccess) (b : Nat) (x : Bank) :
    bankAfter g (done ++ [a]) b x = if b = a.bank then g a (bankAfter g done b x) else bankAfter g done b x := by
  unfold bankAfter
  rw [List.foldl_append, List.foldl_cons, List.foldl_nil]
  simp only [eq_comm]

theorem bankAfter_append (g : BankAccess → Bank → Bank) (xs ys : List BankAccess) (b : Nat) (x : Bank) :
    bankAfter g (xs ++ ys) b x = bankAfter g ys b (bankAfter g xs b x) := List.foldl_append

theorem bankAfter_of_not_mem {g : BankAccess → Bank → Bank} {done : List BankAccess} {b : Nat} (h : ∀ a ∈ done, a.bank ≠ b) (x : Bank) :
    bankAfter g done b x = x := by
  induction done generalizing x with
  | nil => rfl
  | cons a as ih =>
    rw [bankAfter, List.foldl_cons, if_neg (h a List.mem_cons_self)]
    exact ih (fun e he => h e (List.mem_cons_of_mem _ he)) x

/-- Accesses of the banks of a list, each with a list of its own. -/
theorem bankAfter_flatMap {g : BankAccess → Bank → Bank} {F : Nat → List BankAccess} (hF : ∀ k, ∀ y ∈ F k, y.bank = k) {bs : List Nat}
    (h : bs.Nodup) (b : Nat) (x : Bank) : bankAfter g (bs.flatMap F) b x = if b ∈ bs then bankAfter g (F b) b x else x := by
  have hother {ks : List Nat} (hb : b ∉ ks) (y : Bank) : bankAfter g (ks.flatMap F) b y = y := by
    refine bankAfter_of_not_mem (fun z hz => ?_) y
    obtain ⟨k, hk, hz⟩ := List.mem_flatMap.1 hz
    rw [hF k z hz]
    rintro rfl
    exact hb hk
  split
  next hb =>
    obtain ⟨xs, ys, rfl⟩ := List.append_of_mem hb
    obtain ⟨-, hys, hxs⟩ := List.nodup_append.1 h
    rw [List.flatMap_append, List.flatMap_cons, bankAfter_append, bankAfter_append, hother (fun hm => hxs b hm b List.mem_cons_self rfl),
      hother (List.nodup_cons.1 hys).1]
  next hb => exact hother hb x

/-- One access of each bank of a list. -/
theorem bankAfter_map {g : BankAccess → Bank → Bank} {f : Nat → BankAccess} (hf : ∀ b, (f b).bank = b) {bs : List Nat} (h : bs.Nodup) (b : Nat) (x : Bank) :
    bankAfter g (bs.map f) b x = if b ∈ bs then g (f b) x else x := by
  rw [List.map_eq_flatMap, bankAfter_flatMap (fun k y hy => by rw [List.mem_singleton.1 hy, hf]) h, bankAfter, List.foldl_cons, if_pos (hf b)]
  rfl

/-! ## Plain memory (R148) -/

/-- A physical address in plain memory: no claim, no device, no FIFO. -/
structure PlainAt (s : State) (pa : Nat) : Prop where
  free : claimOf s pa = none
  memory : regionOf pa = .dram ∨ regionOf pa = .cap ∨ regionOf pa = .sram ∧ modeAt s pa = 1

theorem Plain.plainAt {s : State} {need : Need} {n va pa : Nat} (h : Plain s need n va pa) : PlainAt s pa :=
  ⟨h.free, h.memory.imp_right (Or.imp_right fun hs => ⟨hs.1, hs.2.2⟩)⟩

theorem PlainAt.of_accessed {s t : State} {pa : Nat} (h : PlainAt s pa) (ha : Accessed s t) : PlainAt t pa :=
  ⟨(ha.claimOf pa).trans h.free, h.memory.imp_right (Or.imp_right fun hs => ⟨hs.1, (ha.modeAt pa).trans hs.2⟩)⟩

/-- What passes checks 1 to 6 of R148 for an instruction passes them as this access, unless the discipline of a replica or the seat's own grant is asked
for besides. -/
theorem checkAccess_plain {s : State} {x : Access} {va pa : Nat} (h : Plain s (if x.write then .write else .read) x.n va pa)
    (hd : (x.write && x.disc && undisciplined s.fseat s.focus.core va pa x.n) = false)
    (hown : x.stack = true → ownSram s.fseat s.focus.core pa = true) :
    ∃ p, checkAccess s s.fctx s.fseat x va = .ok p ∧ p.pa = pa := by
  obtain ⟨p, hp, rfl, hpeer⟩ := h.spot
  refine ⟨p, ?_, rfl⟩
  rw [checkAccess, if_neg (Nat.not_le.2 h.canonical), if_neg (not_not.2 h.aligned), hp]
  simp only [Res.andThen]
  rw [show s.fctx.core = s.focus.core from rfl, hd, if_neg Bool.false_ne_true, if_neg (not_not.2 hpeer), h.awake, if_neg Bool.false_ne_true]
  rcases h.memory with hr | hr | ⟨hr, hbusy, hmode⟩
  · rw [hr]; rfl
  · rw [hr]; rfl
  · have hm : modeAt s p.pa = 1 := hmode
    rw [if_pos hr, hbusy, if_neg Bool.false_ne_true, hm, if_neg]
    cases hs : x.stack with
    | false => simp
    | true => simp [hown hs]

/-- A device register passes the checks of every access that is neither an atomic's nor a lane instruction's. -/
theorem checkAccess_device {s : State} {x : Access} {va : Nat} {q : Spot} (ht : translate s s.fctx (if x.write then .write else .read) va = .ok q)
    (hv : va < 2 ^ 56) (hn : va % x.n = 0) (hd : (x.write && x.disc && undisciplined s.fseat s.focus.core va q.pa x.n) = false) (hp : q.peer = 0)
    (hr : regionOf q.pa = .dev) (hx : (x.amo || x.vec) = false) : checkAccess s s.fctx s.fseat x va = .ok q := by
  rw [checkAccess, if_neg (Nat.not_le.2 hv), if_neg (not_not.2 hn), ht]
  simp only [Res.andThen]
  rw [show s.fctx.core = s.focus.core from rfl, hd, if_neg Bool.false_ne_true, if_neg (not_not.2 hp), hx]
  simp [asleep, hr]

/-- What a read of plain memory leaves: the agent's ROW path has nothing of it taken ahead, and the migrators have counted (R302, R295). -/
def State.afterRead (s : State) (pa n : Nat) : State :=
  if regionOf pa = .sram then s else (s.orderByte s.focus.core s.focus.base 1 pa n).touch pa

theorem readSpot_plain {s : State} {p : Spot} (h : PlainAt s p.pa) (n : Nat) :
    readSpot s p n = if s.poisoned p.pa n then .bad 8 0x14 else .ok (s.lsSees p.pa n, s.afterRead p.pa n) := by
  unfold readSpot State.afterRead
  rw [h.free]
  rcases h.memory with hr | hr | ⟨hr, hm⟩
  · simp only [hr]; rfl
  · simp only [hr]; rfl
  · simp only [hr, hm]
    rfl

/-- What a write of plain memory leaves. -/
def State.afterWrite (s : State) (w : Who) (va pa v n : Nat) : State :=
  if regionOf pa = .sram then s.poke w.thread pa v n else ((s.poke w.thread pa v n).markDirty w.core w.base va n).touch pa

theorem writeSpot_plain {s : State} {p : Spot} (h : PlainAt s p.pa) (w : Who) (va v n : Nat) :
    writeSpot s w va p v n = .ok (s.afterWrite w va p.pa v n) := by
  unfold writeSpot State.afterWrite
  rw [h.free]
  rcases h.memory with hr | hr | ⟨hr, hm⟩
  · simp only [hr]; rfl
  · simp only [hr]; rfl
  · simp only [hr, hm]
    rfl

/-- A claimed sg is waited for (R72, R151). -/
theorem readSpot_claimed {s : State} {p : Spot} {w : Wait} (h : claimOf s p.pa = some w) (n : Nat) : readSpot s p n = .wait w := by
  rw [readSpot, h]

theorem writeSpot_claimed {s : State} {p : Spot} {w : Wait} (h : claimOf s p.pa = some w) (who : Who) (va v n : Nat) :
    writeSpot s who va p v n = .wait w := by
  rw [writeSpot, h]

/-! ## Instructions that only read memory -/

/-- What accesses that only read memory leave as it was for later ones. -/
structure OnlyRead (s t : State) : Prop where
  accessed : Accessed s t
  rest : { t with cores := s.cores, migs := s.migs, ahead := s.ahead } = s
  seat : t.seat s.focus = s.seat s.focus
  sees : ∀ pa n, t.lsSees pa n = s.lsSees pa n

namespace OnlyRead

theorem refl (s : State) : OnlyRead s s := ⟨Accessed.refl s, rfl, rfl, fun _ _ => rfl⟩

theorem trans {s t u : State} (h : OnlyRead s t) (h' : OnlyRead t u) : OnlyRead s u where
  accessed := h.accessed.trans h'.accessed
  rest := (congrArg (fun x : State => { x with cores := s.cores, migs := s.migs, ahead := s.ahead }) h'.rest :).trans h.rest
  seat := by
    have hs := h'.seat
    rw [h.accessed.focus] at hs
    exact hs.trans h.seat
  sees pa n := (h'.sees pa n).trans (h.sees pa n)

variable {s t : State}

theorem fseat (h : OnlyRead s t) : t.fseat = s.fseat := by
  rw [State.fseat, h.accessed.focus]
  exact h.seat

theorem echoLoad (h : OnlyRead s t) : t.echoLoad = s.echoLoad := by
  rw [State.echoLoad, h.accessed.fpart, h.fseat]
  rfl

end OnlyRead

theorem onlyRead_modBank (s : State) (c b : Nat) {f : Bank → Bank} (hf : ∀ x, Bank.Kept x (f x)) :
    OnlyRead s (s.modBank c b f) :=
  ⟨accessed_modBank s c b hf, rfl, State.seat_modBank s c b _ f, fun _ _ => rfl⟩

theorem onlyRead_onActive (s : State) {f : Nat → Bank → Bank} (hf : ∀ b x, Bank.Kept x (f b x)) : OnlyRead s (s.onActive f) := by
  have hfold (bs : List Nat) (t : State) : OnlyRead t (t.modBanks s.focus.core f bs) := by
    induction bs generalizing t with
    | nil => exact OnlyRead.refl t
    | cons b bs ih => exact (onlyRead_modBank t s.focus.core b (hf b)).trans (ih _)
  exact hfold s.active s

/-- What LS takes from a granule ahead is told by what stays ahead on LS. -/
theorem lsSees_dropAhead (s : State) {f : Ahead → Bool} (hf : ∀ x, x.path = 0 → f x = false) (pa n : Nat) : (s.dropAhead f).lsSees pa n = s.lsSees pa n := by
  have hfind (core base g : Nat) (xs : List Ahead) : (xs.filter (fun x => !f x)).find? (fun x => x.core == core && x.base == base && x.path == 0 && x.gran == g) =
      xs.find? (fun x => x.core == core && x.base == base && x.path == 0 && x.gran == g) := by
    rw [List.find?_filter]
    congr 1
    funext x
    by_cases hp : x.path = 0
    · rw [hf x hp]
      simp only [Bool.not_false, true_and, Bool.decide_eq_true]
    · rw [beq_eq_false_iff_ne.2 hp]
      simp only [Bool.and_false, Bool.false_and, Bool.false_eq_true, and_false, decide_false]
  unfold State.lsSees State.sees State.aheadAt State.dropAhead
  dsimp only
  rw [hfind]
  rfl

theorem onlyRead_dropAhead (s : State) {f : Ahead → Bool} (hf : ∀ x, x.path = 0 → f x = false) : OnlyRead s (s.dropAhead f) :=
  ⟨accessed_dropAhead s f, rfl, rfl, lsSees_dropAhead s hf⟩

theorem onlyRead_orderRow (s : State) (core base : Nat) : OnlyRead s (s.orderPath core base 1) :=
  onlyRead_dropAhead s fun x hx => by simp [hx]

theorem onlyRead_touch (s : State) (pa : Nat) : OnlyRead s (s.touch pa) := by
  have ha := accessed_touch s pa
  obtain ⟨ms, h⟩ := touch_eq s pa
  rw [h] at ha ⊢
  exact ⟨ha, rfl, rfl, fun _ _ => rfl⟩

theorem onlyRead_afterRead (s : State) (pa n : Nat) : OnlyRead s (s.afterRead pa n) := by
  unfold State.afterRead
  split
  · exact OnlyRead.refl s
  · exact (onlyRead_dropAhead s fun x hx => by simp [hx]).trans (onlyRead_touch _ pa)

@[simp] theorem State.bank_orderPath (s : State) (core base : Nat) (p : BitVec 4) (c b : Nat) : (s.orderPath core base p).bank c b = s.bank c b := rfl

@[simp] theorem State.bank_touch (s : State) (pa c b : Nat) : (s.touch pa).bank c b = s.bank c b := by
  obtain ⟨ms, h⟩ := touch_eq s pa
  rw [h]
  rfl

@[simp] theorem State.bank_afterRead (s : State) (pa n c b : Nat) : (s.afterRead pa n).bank c b = s.bank c b := by
  unfold State.afterRead
  split
  · rfl
  · rw [State.bank_touch]
    rfl

/-- At its spot an access only reads, changes its bank by g and leaves Q. -/
def ReadsAt (s : State) (act : State → Spot → BankAccess → Res State) (p : Spot) (a : BankAccess) (g : Bank → Bank) (Q : State → Prop) : Prop :=
  ∀ u, OnlyRead s u → ∃ v, act u p a = .ok v ∧ OnlyRead s v ∧ Q v ∧
    ∀ c b, v.bank c b = if c = s.focus.core ∧ b = a.bank then g (u.bank c b) else u.bank c b

/-- What accesses that only read have left, each changing its bank by g and leaving Q. -/
structure ReadSoFar (s : State) (g : BankAccess → Bank → Bank) (Q : State → Prop) (done : List BankAccess) (u : State) : Prop where
  onlyRead : OnlyRead s u
  leaves : done ≠ [] → Q u
  bank : ∀ c b, u.bank c b = if c = s.focus.core then bankAfter g done b (s.bank c b) else s.bank c b

theorem performAll_reads {s : State} {x : Access} {act : State → Spot → BankAccess → Res State} {g : BankAccess → Bank → Bank} {Q : State → Prop}
    {as : List BankAccess} (h : ∀ a ∈ as, ∃ p, checkAccess s s.fctx s.fseat x a.va = .ok p ∧ ReadsAt s act p a (g a) Q) (ys : List BankAccess)
    (m : BitVec 16) :
    ∃ u n, performAll s s.fctx s.fseat x act (as ++ ys) m s = performAll s s.fctx s.fseat x act ys n u ∧ ReadSoFar s g Q as u := by
  refine performAll_prefix ⟨OnlyRead.refl s, fun h => absurd rfl h, fun _ _ => (ite_self _).symm⟩ (fun done a rest u he hu => ?_) ys m
  obtain ⟨p, hp, hread⟩ := h a (by rw [← he]; exact List.mem_append_right _ List.mem_cons_self)
  obtain ⟨v, hv, hvr, hvq, hvb⟩ := hread u hu.onlyRead
  refine ⟨p, v, hp, hv, hvr, fun _ => hvq, fun c b => ?_⟩
  rw [hvb c b, hu.bank c b, bankAfter_concat]
  by_cases hc : c = s.focus.core <;> simp [hc]

/-! ## The end of an instruction whose accesses have performed -/

/-- The part goes on from where its accesses have left the machine. -/
theorem Accessed.retire {s t : State} (h : Accessed s t) (hs : Settled s) : t.retire = t.setPart s.focus (s.part s.focus).advance :=
  retire_after hs h.focus h.part

theorem Accessed.sameSeat {s t : State} (h : t.seat s.focus = s.seat s.focus) : SameSeat s (t.setPart s.focus (s.part s.focus).advance) := by
  obtain ⟨pc, cv, v, hp, hv⟩ := Part.advance_eq (s.part s.focus)
  rw [hp]
  exact SameSeat.setPart h pc none cv 0 v hv

/-- Accesses that only read, and the end of their instruction. -/
theorem readsIn_of {s t : State} (hs : Settled s) {i : Instr} (h : OnlyRead s t) (he : exec i s = .next t.retire) {R : Nat → Bank → Bank → Prop}
    (hR : OnBanks s t R) : ReadsIn i s R := by
  rw [h.accessed.retire hs] at he
  have hc := h.accessed.cores.setPart (s.part s.focus).advance
  have hseat := Accessed.sameSeat h.seat
  refine ⟨_, he, Around.of h.rest ⟨hc.cores, hc.seats⟩ ⟨hseat.seat, hseat.parts, hseat.part⟩, h.accessed.traces, ?_, fun c b => ?_⟩
  · exact State.part_setPart _ _ _
  · rw [State.bank_setPart]
    exact hR c b

/-- Accesses of the active banks, one of each. -/
theorem onBanks_of_bankAfter {s u : State} {g : BankAccess → Bank → Bank} {f : Nat → BankAccess} (hf : ∀ b, (f b).bank = b)
    (h : ∀ c b, u.bank c b = if c = s.focus.core then bankAfter g (s.active.map f) b (s.bank c b) else s.bank c b) {R : Nat → Bank → Bank → Prop}
    (hR : ∀ b ∈ s.active, R b (s.bank s.focus.core b) (g (f b) (s.bank s.focus.core b))) : OnBanks s u R := by
  intro c b
  rw [h c b]
  by_cases hc : c = s.focus.core
  · subst hc
    rw [if_pos rfl, bankAfter_map hf s.active_nodup]
    by_cases hb : b ∈ s.active
    · rw [if_pos ⟨rfl, hb⟩, if_pos hb]
      exact hR b hb
    · rw [if_neg fun h => hb h.2, if_neg hb]
  · rw [if_neg fun h => hc h.1, if_neg hc]

/-- The part waits at its instruction, in which no bank has performed. -/
theorem waits_at_start {s : State} {i : Instr} {w : Wait} (h : exec i s = .next ((s.noteBegun (s.part s.focus).begun).waitOn w)) :
    Waits i s w := by
  refine ⟨_, h, ?_, fun c b => ?_, ?_⟩
  · refine Around.of rfl (((SameCores.refl s).setPart _).setPart _) ?_
    have hp : (s.noteBegun (s.part s.focus).begun).part s.focus = s.part s.focus := State.part_modPart s s.focus _
    unfold State.waitOn State.modPart
    rw [show (s.noteBegun (s.part s.focus).begun).focus = s.focus from rfl, hp]
    have hq (q : Nat) : ((s.noteBegun (s.part s.focus).begun).seat s.focus).part? q =
        if q = s.focus.seq then some (s.part s.focus) else (s.seat s.focus).part? q := by
      rw [State.noteBegun, State.modPart, State.seat_setPart, Seat.part?_setPart?]
    refine ⟨?_, fun q hne => ?_, (s.part s.focus).pc, some w, (s.part s.focus).convoy, (s.part s.focus).begun, (s.part s.focus).vl, ?_, .inl rfl⟩
    · rw [State.seat_setPart, State.noteBegun, State.modPart, State.seat_setPart]
      rfl
    · rw [State.seat_setPart, Seat.part?_setPart?, if_neg hne, hq, if_neg hne]
    · rw [State.part_setPart]
  · have hb : ((s.noteBegun (s.part s.focus).begun).waitOn w).bank c b = s.bank c b :=
      (State.bank_modPart _ _ _ c b).trans (State.bank_modPart s s.focus _ c b)
    rw [hb]
    split <;> rfl
  · refine (State.part_modPart _ s.focus _).trans ?_
    rw [show (s.noteBegun (s.part s.focus).begun).part s.focus = s.part s.focus from State.part_modPart s s.focus _]

end Sys2Proof.Machine
end

section
/-! The checks of scalar loads and stores (O23): every form's failures are those of R148, and a claimed sg is waited for. -/

namespace Sys2Proof.Machine

-- Proofs elaborated side by side each hold a thread's stack, and the whole text compiles near the memory limit of its check.
set_option Elab.async false

/-! ## Addresses (R152) -/

theorem add_immB (v : Word) (imm : BitVec 22) : v + immB imm = BitVec.ofInt 64 ((v.toNat : Int) + imm.toInt) := by
  rw [BitVec.ofInt_add, BitVec.ofInt_natCast, BitVec.ofNat_toNat, BitVec.setWidth_eq]
  rfl

/-- The address of a bank's access at sA + imm. -/
def State.vaAt (s : State) (a : BitVec 5) (imm : BitVec 22) (b : Nat) : Nat := (BitVec.ofInt 64 ((((s.fbank b).rs a).toNat : Int) + imm.toInt)).toNat

/-- A bank's access at sA + imm, with the value of its sD. -/
def State.accessAt (s : State) (d a : BitVec 5) (imm : BitVec 22) (b : Nat) : BankAccess := ⟨b, s.vaAt a imm b, ((s.fbank b).rs d).toNat⟩

theorem accessesAt_of_fresh {s : State} (h : Fresh s) (d a : BitVec 5) (imm : BitVec 22) : accessesAt s d a imm = s.active.map (s.accessAt d a imm) := by
  unfold accessesAt State.accessAt State.vaAt
  rw [State.restBanks_of_fresh h]
  simp only [add_immB]

/-! ## Which check fails (R148) -/

/-- The first check that a load or a store of n bytes fails, and its cause. -/
def ScalarFails (s : State) (need : Need) (n va o : Nat) (k : BitVec 8) : Prop :=
  if 2 ^ 56 ≤ va then o = 1 ∧ k = 0x10
  else if va % n ≠ 0 then o = 2 ∧ k = 0x12
  else
    match translate s s.fctx need va with
    | .bad o' k' => o = o' ∧ k = k'
    | .wait _ => False
    | .ok q =>
      if q.peer ≠ 0 then o = 5 ∧ k = 0x16
      else asleep s q.pa = false ∧ regionOf q.pa = .sram ∧ (s.sram (sramQuad q.pa) (sramBankNo q.pa)).busy = false ∧
        (s.sram (sramQuad q.pa) (sramBankNo q.pa)).mode = 0 ∧ o = 6 ∧ k = 0x13

/-- What a plain load or store of n bytes asks of its page, and as which access it is checked. -/
def ScalarForm (x : Access) (need : Need) (n : Nat) : Prop := x = loadAccess n ∧ need = .read ∨ x = storeAccess n ∧ need = .write

theorem undisciplined_of_task {t : Seat} (h : t.red = none) (core va pa n : Nat) : undisciplined t core va pa n = false := by
  rw [undisciplined, h]

section
variable {s : State} {x : Access} {need : Need} {n : Nat} (hx : ScalarForm x need n) (hr : s.fseat.red = none)
include hx hr

/-- The checks of a task's load or store, the discipline of replicas left out. -/
theorem checkAccess_scalar (va : Nat) : checkAccess s s.fctx s.fseat x va =
    if 2 ^ 56 ≤ va then .bad 1 0x10
    else if va % n ≠ 0 then .bad 2 0x12
    else (translate s s.fctx need va).andThen fun p =>
      if p.peer ≠ 0 then .bad 5 0x16
      else if asleep s p.pa then .wait .power
      else if regionOf p.pa = .sram then
        if (s.sram (sramQuad p.pa) (sramBankNo p.pa)).busy then .wait (.sram (sramQuad p.pa) (sramBankNo p.pa))
        else if modeAt s p.pa = 0 then .bad 6 0x13 else .ok p
      else .ok p := by
  unfold checkAccess
  simp only [undisciplined_of_task hr, Bool.and_false, Bool.false_eq_true, if_false]
  rcases hx with ⟨rfl, rfl⟩ | ⟨rfl, rfl⟩ <;> simp [loadAccess, storeAccess]

theorem checkAccess_bad_iff (va o : Nat) (k : BitVec 8) : checkAccess s s.fctx s.fseat x va = .bad o k ↔ ScalarFails s need n va o k := by
  rw [checkAccess_scalar hx hr, ScalarFails]
  have hbad {o' : Nat} {k' : BitVec 8} : (Res.bad o' k' : Res Spot) = .bad o k ↔ o = o' ∧ k = k' := by
    rw [Res.bad.injEq]
    exact ⟨fun h => ⟨h.1.symm, h.2.symm⟩, fun h => ⟨h.1.symm, h.2.symm⟩⟩
  by_cases h56 : 2 ^ 56 ≤ va
  · rw [if_pos h56, if_pos h56, hbad]
  rw [if_neg h56, if_neg h56]
  by_cases hn : va % n ≠ 0
  · rw [if_pos hn, if_pos hn, hbad]
  rw [if_neg hn, if_neg hn]
  cases translate s s.fctx need va with
  | bad o' k' => exact hbad
  | wait w => simp [Res.andThen]
  | ok q =>
    dsimp only [Res.andThen]
    by_cases hp : q.peer ≠ 0
    · rw [if_pos hp, if_pos hp, hbad]
    rw [if_neg hp, if_neg hp]
    unfold modeAt
    split_ifs <;> simp_all

theorem checkAccess_memory {va : Nat} {q : Spot} (ht : translate s s.fctx need va = .ok q) (hv : va < 2 ^ 56) (hn : va % n = 0) (hp : q.peer = 0)
    (ha : asleep s q.pa = false) (hm : regionOf q.pa ≠ .sram) : checkAccess s s.fctx s.fseat x va = .ok q := by
  rw [checkAccess_scalar hx hr, if_neg (Nat.not_le.2 hv), if_neg (not_not.2 hn), ht]
  simp [Res.andThen, hp, ha, hm]

end

/-! ## The forms of plain loads and stores -/

/-- A bank's load; with acquire it comes before later ROW accesses of the agent (R153). -/
def loadStep (acq : Bool) (d : BitVec 5) (sgn : Bool) (n : Nat) (s : State) (p : Spot) (a : BankAccess) : Res State :=
  (loadAct d sgn n s p a).andThen (fun x => .ok (if acq then x.orderPath s.focus.core s.focus.base 1 else x))

theorem loadStep_plain (d : BitVec 5) (sgn : Bool) (n : Nat) : loadStep false d sgn n = loadAct d sgn n := by
  funext s p a
  unfold loadStep
  cases loadAct d sgn n s p a <;> rfl

/-- A scalar access of every active bank at sA + imm. -/
def scalarOp (s : State) (x : Access) (d a : BitVec 5) (imm : BitVec 22) (act : State → Spot → BankAccess → Res State) : Host.Outcome State Fault Refusal :=
  finishSingle (scalarAccess s s.fctx s.fseat x (accessesAt s d a imm) act)

/-- The word that n loaded bytes give, sign- or zero-extended (R152). -/
def loadedWord (sgn : Bool) (n x : Nat) : Word := if sgn then BitVec.ofInt 64 (BitVec.ofNat (8 * n) x).toInt else BitVec.ofNat 64 x

theorem extendBytes_signed {n v : Nat} (hn : 0 < n) (h : v < 256 ^ n) : extendBytes true n v = loadedWord true n v := by
  have hv : v < 2 ^ (8 * n) := by
    rw [pow_mul]
    exact h
  have hp : 2 ^ (8 * n) = 2 * 2 ^ (8 * n - 1) := by rw [← pow_succ', Nat.sub_add_cancel (by omega)]
  rw [extendBytes, loadedWord, if_pos rfl, toIntW, BitVec.toInt_eq_toNat_cond, BitVec.toNat_ofNat, Nat.mod_eq_of_lt hv]
  congr 1
  by_cases hc : 2 ^ (8 * n - 1) ≤ v
  · rw [if_pos (by simpa using hc), if_neg (by omega)]
    norm_cast
  · rw [if_neg (by simpa using hc), if_pos (by omega)]

theorem extendBytes_unsigned (n v : Nat) : extendBytes false n v = loadedWord false n v := by
  simp [extendBytes, loadedWord, toIntW]

theorem loadedWord_eight (v : Nat) : loadedWord false 8 v = loadedWord true 8 v := (BitVec.ofInt_toInt (x := BitVec.ofNat 64 v)).symm

/-- The nine loads: each is one access of n bytes in every active bank. -/
theorem exec_loads {s : State} {d a : BitVec 5} {imm : BitVec 22} {p : Instr × Nat × Bool}
    (hp : p ∈ [(Instr.ldB d a imm, 1, true), (.ldBu d a imm, 1, false), (.ldH d a imm, 2, true), (.ldHu d a imm, 2, false),
      (.ldW d a imm, 4, true), (.ldWu d a imm, 4, false), (.ldD d a imm, 8, true), (.ldAcqW d a imm, 4, false), (.ldAcqD d a imm, 8, false)]) :
    ∃ acq sgn, exec p.1 s = scalarOp s (loadAccess p.2.1) d a imm (loadStep acq d sgn p.2.1) ∧
      (∀ v, v < 256 ^ p.2.1 → extendBytes sgn p.2.1 v = loadedWord p.2.2 p.2.1 v) ∧ (p.1 = .ldAcqW d a imm ∨ p.1 = .ldAcqD d a imm → acq = true) := by
  simp only [List.mem_cons, List.not_mem_nil, or_false] at hp
  rcases hp with rfl | rfl | rfl | rfl | rfl | rfl | rfl | rfl | rfl
  · exact ⟨false, true, by rw [loadStep_plain]; rfl, fun v h => extendBytes_signed (Nat.succ_pos _) h, nofun⟩
  · exact ⟨false, false, by rw [loadStep_plain]; rfl, fun v _ => extendBytes_unsigned 1 v, nofun⟩
  · exact ⟨false, true, by rw [loadStep_plain]; rfl, fun v h => extendBytes_signed (Nat.succ_pos _) h, nofun⟩
  · exact ⟨false, false, by rw [loadStep_plain]; rfl, fun v _ => extendBytes_unsigned 2 v, nofun⟩
  · exact ⟨false, true, by rw [loadStep_plain]; rfl, fun v h => extendBytes_signed (Nat.succ_pos _) h, nofun⟩
  · exact ⟨false, false, by rw [loadStep_plain]; rfl, fun v _ => extendBytes_unsigned 4 v, nofun⟩
  · exact ⟨false, false, by rw [loadStep_plain]; rfl, fun v _ => (extendBytes_unsigned 8 v).trans (loadedWord_eight v), nofun⟩
  · exact ⟨true, false, rfl, fun v _ => extendBytes_unsigned 4 v, fun _ => rfl⟩
  · exact ⟨true, false, rfl, fun v _ => extendBytes_unsigned 8 v, fun _ => rfl⟩

/-- The four stores. -/
theorem exec_stores {s : State} {d a : BitVec 5} {imm : BitVec 22} {p : Instr × Nat}
    (hp : p ∈ [(Instr.stB d a imm, 1), (.stH d a imm, 2), (.stW d a imm, 4), (.stD d a imm, 8)]) :
    exec p.1 s = scalarOp s (storeAccess p.2) d a imm (storeAct p.2) := by
  simp only [List.mem_cons, List.not_mem_nil, or_false] at hp
  rcases hp with rfl | rfl | rfl | rfl <;> rfl

theorem loadStep_wait {s : State} {q : Spot} {n : Nat} {w : Wait} (h : readMarked s q n = .wait w) (acq : Bool) (d : BitVec 5) (sgn : Bool) (a : BankAccess) :
    loadStep acq d sgn n s q a = .wait w := by
  rw [loadStep, loadAct, h]
  rfl

theorem echoLoad_of_task {s : State} (h : s.fseat.red = none) : s.echoLoad = false := by
  rw [State.echoLoad, h]
  exact Bool.and_false _

theorem readMarked_of_unmarked {s : State} (h : s.echoLoad = false) (p : Spot) (n : Nat) : readMarked s p n = readSpot s p n := by
  rw [readMarked, h]
  rfl

/-- The thirteen plain loads and stores. -/
theorem exec_scalarForm {s : State} (hr : s.fseat.red = none) {d a : BitVec 5} {imm : BitVec 22} {p : Instr × Nat × Need}
    (hp : p ∈ [(Instr.ldB d a imm, 1, Need.read), (.ldBu d a imm, 1, .read), (.ldH d a imm, 2, .read), (.ldHu d a imm, 2, .read),
        (.ldW d a imm, 4, .read), (.ldWu d a imm, 4, .read), (.ldD d a imm, 8, .read), (.ldAcqW d a imm, 4, .read), (.ldAcqD d a imm, 8, .read),
        (.stB d a imm, 1, .write), (.stH d a imm, 2, .write), (.stW d a imm, 4, .write), (.stD d a imm, 8, .write)]) :
    ∃ x act, exec p.1 s = scalarOp s x d a imm act ∧ ScalarForm x p.2.2 p.2.1 ∧
      ∀ q w, claimOf s q.pa = some w → ∀ b, act s q b = .wait w := by
  have load {i : Instr} {n : Nat} {sgn : Bool} (h : (i, n, sgn) ∈ [(Instr.ldB d a imm, 1, true), (.ldBu d a imm, 1, false), (.ldH d a imm, 2, true),
      (.ldHu d a imm, 2, false), (.ldW d a imm, 4, true), (.ldWu d a imm, 4, false), (.ldD d a imm, 8, true), (.ldAcqW d a imm, 4, false),
      (.ldAcqD d a imm, 8, false)]) : ∃ x act, exec i s = scalarOp s x d a imm act ∧ ScalarForm x .read n ∧
      ∀ q w, claimOf s q.pa = some w → ∀ b, act s q b = .wait w := by
    obtain ⟨acq, sgn', he, -, -⟩ := exec_loads (s := s) h
    exact ⟨_, _, he, .inl ⟨rfl, rfl⟩, fun q w hw b =>
      loadStep_wait ((readMarked_of_unmarked (echoLoad_of_task hr) q n).trans (readSpot_claimed hw n)) acq d sgn' b⟩
  have store {i : Instr} {n : Nat} (h : (i, n) ∈ [(Instr.stB d a imm, 1), (.stH d a imm, 2), (.stW d a imm, 4), (.stD d a imm, 8)]) :
      ∃ x act, exec i s = scalarOp s x d a imm act ∧ ScalarForm x .write n ∧ ∀ q w, claimOf s q.pa = some w → ∀ b, act s q b = .wait w :=
    ⟨_, _, exec_stores h, .inr ⟨rfl, rfl⟩, fun q w hw b => writeSpot_claimed hw _ _ _ _⟩
  simp only [List.mem_cons, List.not_mem_nil, or_false] at hp
  rcases hp with rfl | rfl | rfl | rfl | rfl | rfl | rfl | rfl | rfl | rfl | rfl | rfl | rfl
  · exact load (sgn := true) (by simp)
  · exact load (sgn := false) (by simp)
  · exact load (sgn := true) (by simp)
  · exact load (sgn := false) (by simp)
  · exact load (sgn := true) (by simp)
  · exact load (sgn := false) (by simp)
  · exact load (sgn := true) (by simp)
  · exact load (sgn := false) (by simp)
  · exact load (sgn := false) (by simp)
  all_goals exact store (by simp)

/-- Settles O23: the failure that `checkAll` takes; with none, the first access meets the claim. -/
theorem scalarAccessesTrapInCheckOrder : Obligations.ScalarAccessesTrapInCheckOrder := by
  intro s d a imm _ hf hr va p hp n fails
  obtain ⟨x, act, he, hx, hclaim⟩ := exec_scalarForm hr hp
  rw [scalarOp, accessesAt_of_fresh hf] at he
  have hfails (b o : Nat) (k : BitVec 8) : checkAccess s s.fctx s.fseat x (s.accessAt d a imm b).va = .bad o k ↔ fails b o k :=
    checkAccess_bad_iff hx hr (va b) o k
  refine ⟨fun b hb o k hbad hfirst => ?_, fun b hb hok q w hq hw => ?_⟩
  · rw [he, scalarAccess_bad (f := s.accessAt d a imm) (fun _ => rfl) hb ((hfails b o k).2 hbad) fun e hm o' k' h =>
      hfirst e hm o' k' ((hfails e o' k').1 h)]
    rfl
  · have hcheck (e : Nat) (hm : e ∈ s.active) : ∃ q, translate s s.fctx p.2.2 (va e) = .ok q ∧ checkAccess s s.fctx s.fseat x (va e) = .ok q := by
      obtain ⟨q, ht, hv, ha, hpeer, hawake, hreg⟩ := hok e hm
      refine ⟨q, ht, checkAccess_memory hx hr ht hv ha hpeer hawake ?_⟩
      rcases hreg with h | h <;> rw [h] <;> decide
    have hall : ∀ y ∈ s.active.map (s.accessAt d a imm), ∃ q, checkAccess s s.fctx s.fseat x y.va = .ok q := by
      intro y hy
      obtain ⟨e, hm, rfl⟩ := List.mem_map.1 hy
      exact (hcheck e hm).imp fun _ h => h.2
    obtain ⟨bs, hbs⟩ := List.head?_eq_some_iff.1 hb
    obtain ⟨q', ht, hc⟩ := hcheck b (by rw [hbs]; exact List.mem_cons_self)
    obtain rfl : q' = q := Res.ok.inj (ht.symm.trans hq)
    refine waits_at_start (he.trans ?_)
    rw [scalarAccess_performs hall, State.accessAll, hbs, List.map_cons, performAll_wait (p := q') hc (hclaim q' w hw _)]
    rfl

end Sys2Proof.Machine
end

section
/-! Scalar loads (O19): plain memory, poison, device registers and the values of the echo log. -/

namespace Sys2Proof.Machine

-- Proofs elaborated side by side each hold a thread's stack, and the whole text compiles near the memory limit of its check.
set_option Elab.async false

/-! ## Values -/

theorem State.lsSees_lt (s : State) (pa n : Nat) : s.lsSees pa n < 256 ^ n := by
  unfold State.lsSees State.sees
  split
  · exact Nat.mod_lt _ (Nat.pow_pos (by decide))
  · exact s.peek_lt pa n

/-- A device register reads the same while accesses only read (R313). -/
theorem OnlyRead.devWord {s u : State} (h : OnlyRead s u) (r : DevReg) : devWord u r = devWord s r := by
  have hcore (c : Nat) := h.accessed.cores.cores c
  have hforced (c b : Nat) : (u.bank c b).forced = (s.bank c b).forced := by
    have hb := congrArg Bank.forced (h.accessed.regs c b)
    exact hb
  have hmig (k w : Nat) : migWord (u.mig k) w = migWord (s.mig k) w := by
    have hm := congrArg (fun m => migWord m w) (h.accessed.traces.1 k)
    exact hm
  have hcounter (c k : Nat) : coreCounter u c k = coreCounter s c k := by
    have hk (f : Core → Nat) (hf : ∀ (x : Core) banks seats, f { x with banks := banks, seats := seats } = f x) : f (u.core c) = f (s.core c) :=
      (hf (u.core c) _ _).symm.trans (congrArg f (hcore c))
    unfold coreCounter
    dsimp only
    rw [hk Core.evict fun _ _ _ => rfl, hk Core.silmis fun _ _ _ => rfl, hk Core.laneret fun _ _ _ => rfl, hk Core.poisonCt fun _ _ _ => rfl,
      hk Core.bondrep fun _ _ _ => rfl, hforced]
  have hquar (k : Nat) : quarWord u k = quarWord s k := by
    have hq (c : Nat) : (u.core c).quar = (s.core c).quar := by
      have hc := congrArg Core.quar (hcore c)
      exact hc
    simp only [quarWord, hq]
  have hrest : u = { s with cores := u.cores, migs := u.migs, ahead := u.ahead } :=
    (congrArg (fun x : State => { x with cores := u.cores, migs := u.migs, ahead := u.ahead }) h.rest :)
  cases r with
  | mig k w => exact hmig k w
  | quar k => exact hquar k
  | core c k => exact hcounter c k
  | _ => rw [hrest]; rfl

/-! ## The load of one bank -/

section
variable {s : State} (hecho : s.echoLoad = false) {acq : Bool} {d : BitVec 5} {sgn : Bool} {n : Nat} {p : Spot} {a : BankAccess}
include hecho

/-- A value that is read and has left the rest alone goes to sD. -/
theorem loadStep_readsAt {v : Nat} (hread : ∀ u, OnlyRead s u → ∃ w, readSpot u p n = .ok (v, w) ∧ OnlyRead s w ∧ ∀ c b, w.bank c b = u.bank c b) :
    ReadsAt s (loadStep acq d sgn n) p a (fun y => y.ws d (extendBytes sgn n v)) (fun t => acq = true → ∀ x ∈ t.ahead, ¬s.onPath 1 x) := by
  intro u hu
  obtain ⟨w, hr, hw, hb⟩ := hread u hu
  have hm : readMarked u p n = .ok (v, w) := (readMarked_of_unmarked (hu.echoLoad.trans hecho) p n).trans hr
  let w' : State := w.modBank u.focus.core a.bank (fun y => y.ws d (extendBytes sgn n v))
  have hw' : OnlyRead s w' := hw.trans (onlyRead_modBank w _ _ fun x => Bank.kept_ws x d _)
  have hb' (c b : Nat) : w'.bank c b = if c = s.focus.core ∧ b = a.bank then (u.bank c b).ws d (extendBytes sgn n v) else u.bank c b := by
    rw [State.bank_modBank, hb, hu.accessed.focus]
  have hstep : loadStep acq d sgn n u p a = .ok (if acq then w'.orderPath u.focus.core u.focus.base 1 else w') := by
    rw [loadStep, loadAct, hm]
    rfl
  cases acq with
  | false => exact ⟨w', hstep, hw', nofun, hb'⟩
  | true =>
    refine ⟨_, hstep, hw'.trans (onlyRead_orderRow w' _ _), fun _ x hx hon => ?_, hb'⟩
    obtain ⟨-, hf⟩ := State.mem_dropAhead.1 hx
    rw [hu.accessed.focus] at hf
    obtain ⟨h1, h2, h3⟩ : x.core = s.focus.core ∧ x.base = s.focus.base ∧ x.path = 1 := hon
    simp [h1, h2, h3] at hf

theorem loadStep_plainAt (h : PlainAt s p.pa) (hp : s.poisoned p.pa n = false) :
    ReadsAt s (loadStep acq d sgn n) p a (fun y => y.ws d (extendBytes sgn n (s.lsSees p.pa n))) (fun t => acq = true → ∀ x ∈ t.ahead, ¬s.onPath 1 x) := by
  refine loadStep_readsAt hecho fun u hu => ⟨u.afterRead p.pa n, ?_, hu.trans (onlyRead_afterRead u _ _), fun c b => u.bank_afterRead _ _ c b⟩
  rw [readSpot_plain (h.of_accessed hu.accessed), hu.accessed.poisoned, hp, hu.sees]
  rfl

/-- Poisoned bytes are not delivered (R148, R350). -/
theorem loadStep_poisoned (h : PlainAt s p.pa) (hp : s.poisoned p.pa n = true) {u : State} (hu : OnlyRead s u) :
    loadStep acq d sgn n u p a = .bad 8 0x14 := by
  rw [loadStep, loadAct, readMarked_of_unmarked (hu.echoLoad.trans hecho), readSpot_plain (h.of_accessed hu.accessed), hu.accessed.poisoned, hp]
  rfl

theorem loadStep_device (h : regionOf p.pa = .dev) :
    ReadsAt s (loadStep acq d sgn n) p a (fun y => y.ws d (extendBytes sgn n (devDword s p.pa / 256 ^ (p.pa % 8) % 256 ^ n)))
      (fun t => acq = true → ∀ x ∈ t.ahead, ¬s.onPath 1 x) := by
  refine loadStep_readsAt hecho fun u hu => ⟨u, ?_, hu, fun _ _ => rfl⟩
  have hc : claimOf u p.pa = none := by
    rw [claimOf, if_neg]
    rw [h]
    decide
  have hw : Machine.devWord u = Machine.devWord s := funext hu.devWord
  rw [readSpot, hc, h]
  simp only [devRead, devDword, hw]

end

/-! ## Loads of all banks -/

theorem onBanks_regOnly {s u : State} {d : BitVec 5} {x : Nat → Word} {f : Nat → BankAccess} (hf : ∀ b, (f b).bank = b)
    (h : ∀ c b, u.bank c b = if c = s.focus.core then bankAfter (fun a y => y.ws d (x a.bank)) (s.active.map f) b (s.bank c b) else s.bank c b) :
    OnBanks s u (fun b => RegOnly d (x b)) :=
  onBanks_of_bankAfter hf h fun b _ => by
    rw [hf]
    exact regOnly_ws d (x b) _

section
variable {s : State} (hs : Settled s) (hf : Fresh s) (hecho : s.echoLoad = false) {d a : BitVec 5} {imm : BitVec 22} {i : Instr} {acq sgn : Bool} {n : Nat}
  (he : exec i s = scalarOp s (loadAccess n) d a imm (loadStep acq d sgn n))
include hs hf he

/-- A load whose banks all read. -/
theorem load_reads {val : Nat → Nat} {word : Nat → Word} (hword : ∀ b, extendBytes sgn n (val b) = word b)
    (h : ∀ b ∈ s.active, ∃ p, checkAccess s s.fctx s.fseat (loadAccess n) (s.vaAt a imm b) = .ok p ∧
      ReadsAt s (loadStep acq d sgn n) p (s.accessAt d a imm b) (fun y => y.ws d (extendBytes sgn n (val b)))
        (fun t => acq = true → ∀ x ∈ t.ahead, ¬s.onPath 1 x)) :
    ReadsIn i s (fun b => RegOnly d (word b)) ∧
      (acq = true → s.active ≠ [] → ∃ t, exec i s = .next t ∧ ∀ x ∈ t.ahead, ¬s.onPath 1 x) := by
  have hall : ∀ y ∈ s.active.map (s.accessAt d a imm), ∃ p, checkAccess s s.fctx s.fseat (loadAccess n) y.va = .ok p ∧
      ReadsAt s (loadStep acq d sgn n) p y (fun z => z.ws d (extendBytes sgn n (val y.bank))) (fun t => acq = true → ∀ x ∈ t.ahead, ¬s.onPath 1 x) := by
    intro y hy
    obtain ⟨b, hb, rfl⟩ := List.mem_map.1 hy
    exact h b hb
  obtain ⟨u, m, hu, hread⟩ := performAll_reads (g := fun y z => z.ws d (extendBytes sgn n (val y.bank))) hall [] (s.part s.focus).begun
  rw [List.append_nil] at hu
  rw [scalarOp, accessesAt_of_fresh hf, scalarAccess_performs fun y hy => (hall y hy).imp fun _ h => h.1, State.accessAll, hu] at he
  have hend : exec i s = .next u.retire := he
  have hbank := hread.bank
  simp only [hword] at hbank
  refine ⟨readsIn_of hs hread.onlyRead hend (onBanks_regOnly (x := word) (fun _ => rfl) hbank), fun ha hne => ?_⟩
  refine ⟨_, hend, ?_⟩
  rw [hread.onlyRead.accessed.retire hs]
  exact hread.leaves (by simpa using hne) ha

include hecho

omit hs in
/-- Poison in a bank: the lower banks have loaded (R149). -/
theorem load_poisoned (hr : s.fseat.red = none) {pa : Nat → Nat} (hplain : ∀ b ∈ s.active, Plain s .read n (s.vaAt a imm b) (pa b)) {b : Nat}
    (hb : b ∈ s.active) (hbad : s.poisoned (pa b) n = true) (hlow : ∀ c ∈ s.active, c < b → s.poisoned (pa c) n = false) :
    ∃ u, exec i s = .next (u.trapSingle 0x14 (BitVec.ofNat 64 (s.vaAt a imm b % 2 ^ 56 + b * 2 ^ 56))) ∧
      Around s { u with migs := s.migs, ahead := s.ahead } ∧ Traces s u ∧ u.part s.focus = s.part s.focus ∧
      OnBanks s u (fun c x y => if c < b then RegOnly d (extendBytes sgn n (s.lsSees (pa c) n)) x y else y = x) := by
  have hcheck (c : Nat) (hc : c ∈ s.active) : ∃ p, checkAccess s s.fctx s.fseat (loadAccess n) (s.vaAt a imm c) = .ok p ∧ p.pa = pa c :=
    checkAccess_plain (x := loadAccess n) (hplain c hc) rfl nofun
  obtain ⟨xs, ys, hact, hxs, hys⟩ := State.active_split hb
  have hperf : ∀ y ∈ xs.map (s.accessAt d a imm), ∃ p, checkAccess s s.fctx s.fseat (loadAccess n) y.va = .ok p ∧
      ReadsAt s (loadStep acq d sgn n) p y (fun z => z.ws d (extendBytes sgn n (s.lsSees (pa y.bank) n))) (fun t => acq = true → ∀ x ∈ t.ahead, ¬s.onPath 1 x) := by
    intro y hy
    obtain ⟨c, hc, rfl⟩ := List.mem_map.1 hy
    obtain ⟨hm, hlt⟩ := hxs c hc
    obtain ⟨p, hp, hpa⟩ := hcheck c hm
    refine ⟨p, hp, ?_⟩
    have hread := loadStep_plainAt (acq := acq) (d := d) (sgn := sgn) (a := s.accessAt d a imm c) hecho (p := p) (n := n)
      (hpa ▸ (hplain c hm).plainAt) (hpa ▸ hlow c hm hlt)
    rwa [hpa] at hread
  obtain ⟨u, m, hu, hread⟩ := performAll_reads (g := fun y z => z.ws d (extendBytes sgn n (s.lsSees (pa y.bank) n))) hperf
    (s.accessAt d a imm b :: ys.map (s.accessAt d a imm)) (s.part s.focus).begun
  obtain ⟨p, hp, hpa⟩ := hcheck b hb
  have hstop : loadStep acq d sgn n u p (s.accessAt d a imm b) = .bad 8 0x14 :=
    loadStep_poisoned hecho (hpa ▸ (hplain b hb).plainAt) (hpa ▸ hbad) hread.onlyRead
  have hall : ∀ y ∈ s.active.map (s.accessAt d a imm), ∃ p, checkAccess s s.fctx s.fseat (loadAccess n) y.va = .ok p := by
    intro y hy
    obtain ⟨c, hc, rfl⟩ := List.mem_map.1 hy
    exact (hcheck c hc).imp fun _ h => h.1
  rw [scalarOp, accessesAt_of_fresh hf, scalarAccess_performs hall, State.accessAll, hact, List.map_append, List.map_cons, hu,
    performAll_bad hr hp hstop] at he
  refine ⟨u, ?_, ?_, hread.onlyRead.accessed.traces, hread.onlyRead.accessed.part, fun c k => ?_⟩
  · rw [← addrTval_eq _ (State.lt_of_mem_active hb)]
    exact he
  · have hc := hread.onlyRead.accessed.cores
    have hseat := hread.onlyRead.seat
    refine Around.of hread.onlyRead.rest ⟨hc.cores, hc.seats⟩ ⟨?_, fun q _ => congrArg (Seat.part? · q) hseat, (s.part s.focus).pc, (s.part s.focus).wait,
      (s.part s.focus).convoy, (s.part s.focus).begun, (s.part s.focus).vl, hread.onlyRead.accessed.part, .inl rfl⟩
    exact congrArg (fun x : Seat => { x with parts := (s.seat s.focus).parts }) hseat
  · have hnd : xs.Nodup := (List.nodup_append.1 (hact ▸ s.active_nodup)).1
    have hmem : k ∈ s.active → (k ∈ xs ↔ k < b) := by
      refine fun hk => ⟨fun h => (hxs k h).2, fun h => ?_⟩
      rw [hact, List.mem_append, List.mem_cons] at hk
      rcases hk with hk | rfl | hk
      · exact hk
      · exact absurd h (Nat.lt_irrefl _)
      · exact absurd h (Nat.lt_asymm (hys k hk).2)
    rw [hread.bank c k]
    by_cases hc : c = s.focus.core
    · subst hc
      rw [if_pos rfl, bankAfter_map (fun _ => rfl) hnd]
      by_cases hk : k ∈ s.active
      · rw [if_pos ⟨rfl, hk⟩]
        beta_reduce
        by_cases hlt : k < b
        · rw [if_pos ((hmem hk).2 hlt), if_pos hlt]
          exact regOnly_ws d _ _
        · rw [if_neg fun h => hlt ((hmem hk).1 h), if_neg hlt]
      · rw [if_neg fun h => hk h.2, if_neg fun h => hk (hxs k h).1]
    · rw [if_neg fun h => hc h.1, if_neg hc]

end

/-! ## Values of the echo log (R121, R339) -/

/-- What loads leave that took the values of the echo log, from their place in it on. -/
structure EchoSoFar (s : State) (r : Replica) (g : BankAccess → Bank → Bank) (done : List BankAccess) (u : State) : Prop where
  accessed : Accessed s u
  rest : { u with cores := s.cores, ahead := s.ahead } = s
  seat : u.seat s.focus = { s.fseat with red := some { r with echoPos := r.echoPos + done.length } }
  bank : ∀ c b, u.bank c b = if c = s.focus.core then bankAfter g done b (s.bank c b) else s.bank c b

theorem passEcho_seat {s u : State} {r : Replica} (hf : u.focus = s.focus) (h : u.seat s.focus = { s.fseat with red := some r }) :
    u.passEcho.seat s.focus = { s.fseat with red := some { r with echoPos := r.echoPos + 1 } } := by
  rw [State.passEcho, hf, State.seat_modSeat, h]
  rfl

theorem accessed_passEcho (u : State) : Accessed u u.passEcho := accessed_setRed rfl

section
variable {s : State} {r : Replica} (hr : s.fseat.red = some r) (hmark : ∃ c, s.fpart.convoy = some c ∧ c.echo = true)

theorem EchoSoFar.red {u : State} {g : BankAccess → Bank → Bank} {done : List BankAccess} (h : EchoSoFar s r g done u) :
    u.fseat.red = some { r with echoPos := r.echoPos + done.length } := by
  rw [State.fseat, h.accessed.focus, h.seat]

include hmark in
theorem EchoSoFar.echoLoad {u : State} {g : BankAccess → Bank → Bank} {done : List BankAccess} (h : EchoSoFar s r g done u) : u.echoLoad = true := by
  obtain ⟨c, hc, he⟩ := hmark
  rw [State.echoLoad, h.accessed.fpart, hc, h.red]
  simp [he]

include hr in
theorem echoSoFar_nil (g : BankAccess → Bank → Bank) : EchoSoFar s r g [] s where
  accessed := Accessed.refl s
  rest := rfl
  seat := by
    rw [List.length_nil, Nat.add_zero, ← hr]
    rfl
  bank _ _ := (ite_self _).symm

include hmark in
/-- One bank takes the next value of the log. -/
theorem loadStep_echo {u : State} {g : BankAccess → Bank → Bank} {done : List BankAccess} (h : EchoSoFar s r g done u) {acq : Bool} {d : BitVec 5}
    {sgn : Bool} {n : Nat} {a : BankAccess} (hlt : r.echoPos + done.length < r.echoLog.length)
    (hg : g a = fun y => y.ws d (extendBytes sgn n (r.echoLog.getD (r.echoPos + done.length) 0).toNat)) (p : Spot) :
    ∃ v, loadStep acq d sgn n u p a = .ok v ∧ EchoSoFar s r g (done ++ [a]) v := by
  have hval : r.echoLog[r.echoPos + done.length] = r.echoLog.getD (r.echoPos + done.length) 0 := by
    rw [List.getD_eq_getElem?_getD, List.getElem?_eq_getElem hlt, Option.getD_some]
  have hm : readMarked u p n = .ok ((r.echoLog.getD (r.echoPos + done.length) 0).toNat, u.passEcho) := by
    rw [readMarked, if_pos (h.echoLoad hmark), echoedRead, h.red]
    simp only [List.drop_eq_getElem_cons hlt, hval]
  let w : State := u.passEcho.modBank u.focus.core a.bank (g a)
  have hw : Accessed u w := (accessed_passEcho u).trans (accessed_modBank _ _ _ fun x => by rw [hg]; exact Bank.kept_ws x d _)
  have hsofar : EchoSoFar s r g (done ++ [a]) w := by
    refine ⟨h.accessed.trans hw, (congrArg (fun x : State => { x with cores := s.cores, ahead := s.ahead }) h.rest :), ?_, fun c b => ?_⟩
    · rw [State.seat_modBank, passEcho_seat h.accessed.focus h.seat, List.length_append, List.length_singleton, Nat.add_assoc]
    · rw [State.bank_modBank, State.passEcho, State.bank_modSeat, h.accessed.focus, h.bank c b, bankAfter_concat]
      by_cases hc : c = s.focus.core <;> simp [hc]
  have hstep : loadStep acq d sgn n u p a = .ok (if acq then w.orderPath w.focus.core w.focus.base 1 else w) := by
    rw [loadStep, loadAct, hm]
    simp only [Res.andThen, w, hg]
    rfl
  cases acq with
  | false => exact ⟨w, hstep, hsofar⟩
  | true => exact ⟨_, hstep, ⟨hsofar.accessed.trans (accessed_orderPath w _ _ _), hsofar.rest, hsofar.seat, hsofar.bank⟩⟩

end

section
variable {s : State} (hs : Settled s) (hf : Fresh s) {r : Replica} (hr : s.fseat.red = some r) (hmark : ∃ c, s.fpart.convoy = some c ∧ c.echo = true)
  {d a : BitVec 5} {imm : BitVec 22} {i : Instr} {acq sgn : Bool} {n : Nat} (he : exec i s = scalarOp s (loadAccess n) d a imm (loadStep acq d sgn n))
  {pa : Nat → Nat} (hplain : ∀ b ∈ s.active, Plain s .read n (s.vaAt a imm b) (pa b))
include hf hr hmark he hplain

theorem load_echoed (hs : Settled s) {word : Nat → Word}
    (hword : ∀ b, extendBytes sgn n (r.echoLog.getD (r.echoPos + s.active.idxOf b) 0).toNat = word b) (hlen : r.echoPos + s.active.length ≤ r.echoLog.length) :
    ∃ t, exec i s = .next t ∧ { t with cores := s.cores, ahead := s.ahead } = s ∧ NoneAhead s t ∧ SameCores s t ∧ Proceeds s t ∧
      { t.seat s.focus with parts := s.fseat.parts } = { s.fseat with red := some { r with echoPos := r.echoPos + s.active.length } } ∧
      OnBanks s t (fun b => RegOnly d (word b)) := by
  have hcheck : ∀ y ∈ s.active.map (s.accessAt d a imm), ∃ p, checkAccess s s.fctx s.fseat (loadAccess n) y.va = .ok p := by
    intro y hy
    obtain ⟨c, hc, rfl⟩ := List.mem_map.1 hy
    exact (checkAccess_plain (x := loadAccess n) (hplain c hc) rfl nofun).imp fun _ h => h.1
  obtain ⟨u, hu, hend⟩ := performAll_all (s0 := s) (c := s.fctx) (t := s.fseat) (x := loadAccess n) (act := loadStep acq d sgn n)
    (P := EchoSoFar s r (fun y z => z.ws d (word y.bank))) (s := s) (echoSoFar_nil hr _)
    (as := s.active.map (s.accessAt d a imm)) (fun done y rest u hsplit hP => by
      obtain ⟨p, hp⟩ := hcheck y (by rw [← hsplit]; exact List.mem_append_right _ List.mem_cons_self)
      have hidx : s.active.idxOf y.bank = done.length := by
        have hbanks := congrArg (List.map BankAccess.bank) hsplit
        rw [List.map_map, show BankAccess.bank ∘ s.accessAt d a imm = id from rfl, List.map_id, List.map_append, List.map_cons] at hbanks
        have hnot : y.bank ∉ done.map BankAccess.bank := fun hm =>
          (List.nodup_append.1 (hbanks ▸ s.active_nodup)).2.2 _ hm _ List.mem_cons_self rfl
        rw [← hbanks, List.idxOf_append_of_notMem hnot, List.idxOf_cons_self, Nat.add_zero, List.length_map]
      have hlt : r.echoPos + done.length < r.echoLog.length := by
        have hl := congrArg List.length hsplit
        rw [List.length_append, List.length_cons, List.length_map] at hl
        omega
      obtain ⟨v, hv, hP'⟩ := loadStep_echo hmark hP (acq := acq) (d := d) (sgn := sgn) (n := n) (a := y) hlt
        (by rw [← hword, hidx]) p
      exact ⟨p, v, hp, hv, hP'⟩) (s.part s.focus).begun
  rw [scalarOp, accessesAt_of_fresh hf, scalarAccess_performs hcheck, State.accessAll, hu] at he
  have hret : exec i s = .next (u.setPart s.focus (s.part s.focus).advance) := he.trans (congrArg _ (hend.accessed.retire hs))
  have hbank := onBanks_regOnly (x := word) (fun _ => rfl) hend.bank
  refine ⟨_, hret, hend.rest, hend.accessed.traces.2, hend.accessed.cores.setPart _, State.part_setPart _ _ _, ?_, fun c b => ?_⟩
  · rw [State.seat_setPart, hend.seat, List.length_map]
    rfl
  · rw [State.bank_setPart]
    exact hbank c b

/-- A replica that does not lead waits for the value (R339). -/
theorem load_awaits_echo (hend : r.echoLog.length ≤ r.echoPos) (hl : r.leads = false) (hne : s.active ≠ []) : Waits i s .echo := by
  have hcheck (c : Nat) (hc : c ∈ s.active) : ∃ p, checkAccess s s.fctx s.fseat (loadAccess n) (s.vaAt a imm c) = .ok p :=
    (checkAccess_plain (x := loadAccess n) (hplain c hc) rfl nofun).imp fun _ h => h.1
  have hall : ∀ y ∈ s.active.map (s.accessAt d a imm), ∃ p, checkAccess s s.fctx s.fseat (loadAccess n) y.va = .ok p := by
    intro y hy
    obtain ⟨c, hc, rfl⟩ := List.mem_map.1 hy
    exact hcheck c hc
  obtain ⟨b, bs, hact⟩ := List.exists_cons_of_ne_nil hne
  obtain ⟨p, hp⟩ := hcheck b (by rw [hact]; exact List.mem_cons_self)
  have hm : readMarked s p n = .wait .echo := by
    rw [readMarked, if_pos ((echoSoFar_nil hr fun _ y => y).echoLoad hmark), echoedRead, hr]
    simp only [List.drop_eq_nil_of_le hend, hl]
    rfl
  refine waits_at_start (he.trans ?_)
  rw [scalarOp, accessesAt_of_fresh hf, scalarAccess_performs hall, State.accessAll, hact, List.map_cons,
    performAll_wait (p := p) hp (loadStep_wait hm acq d sgn _)]
  rfl

end

theorem echoLoad_of_unmarked {s : State} (h : s.fseat.red = none ∨ ¬∃ c, (s.part s.focus).convoy = some c ∧ c.echo = true) : s.echoLoad = false := by
  rcases h with hr | hm
  · exact echoLoad_of_task hr
  · unfold State.echoLoad State.fpart
    cases hc : (s.part s.focus).convoy with
    | none => rfl
    | some c =>
      have he : c.echo = false := Bool.eq_false_iff.2 fun h => hm ⟨c, hc, h⟩
      simp [he]

/-- Settles O19: each load is `loadStep` in every active bank, after the checks. -/
theorem loadsReadMemory : Obligations.LoadsReadMemory := by
  intro s d a imm pa hs hf va marked p hp n extended
  obtain ⟨acq, sgn, he, hext, hacq⟩ := exec_loads (s := s) hp
  have hcheck (hplain : ∀ b ∈ s.active, Plain s .read n (va b) (pa b)) (b : Nat) (hb : b ∈ s.active) :
      ∃ q, checkAccess s s.fctx s.fseat (loadAccess n) (va b) = .ok q ∧ q.pa = pa b :=
    checkAccess_plain (x := loadAccess n) (hplain b hb) rfl nofun
  have hsees (b : Nat) : extendBytes sgn n (s.lsSees (pa b) n) = extended (s.lsSees (pa b) n) := hext _ (s.lsSees_lt _ _)
  have hload (hecho : s.echoLoad = false) (hplain : ∀ b ∈ s.active, Plain s .read n (va b) (pa b) ∧ s.poisoned (pa b) n = false) :=
    load_reads hs hf he hsees fun b hb => by
      obtain ⟨q, hq, hpa⟩ := hcheck (fun c hc => (hplain c hc).1) b hb
      refine ⟨q, hq, ?_⟩
      have hread := loadStep_plainAt (acq := acq) (d := d) (sgn := sgn) (a := s.accessAt d a imm b) hecho (p := q) (n := n)
        (hpa ▸ (hplain b hb).1.plainAt) (hpa ▸ (hplain b hb).2)
      rwa [hpa] at hread
  refine ⟨fun hm hplain => ?_, fun hi hr hne hplain => (hload (echoLoad_of_task hr) hplain).2 (hacq hi) hne, fun hr hplain b hb hbad hlow => ?_,
    fun hm hdev => ?_, fun r hr hm hlog hplain => ⟨fun hlen => ?_, load_awaits_echo hf hr hm he hplain⟩⟩
  · exact (hload (echoLoad_of_unmarked hm) hplain).1
  · simp only [← hsees]
    exact load_poisoned hf (echoLoad_of_task hr) he hr hplain hb hbad hlow
  · refine (load_reads hs hf he (val := fun b => devDword s (pa b) / 256 ^ (pa b % 8) % 256 ^ n)
      (fun b => hext _ (Nat.mod_lt _ (Nat.pow_pos (by decide)))) fun b hb => ?_).1
    obtain ⟨q, hv, ha, ht, hpa, hpeer, hreg⟩ := hdev b hb
    refine ⟨q, checkAccess_device (x := loadAccess n) ht hv ha rfl hpeer (hpa ▸ hreg) rfl, ?_⟩
    have hstep := loadStep_device (acq := acq) (d := d) (sgn := sgn) (n := n) (a := s.accessAt d a imm b) (echoLoad_of_unmarked hm) (p := q) (hpa ▸ hreg)
    rwa [hpa] at hstep
  · have hlt (b : Nat) : (r.echoLog.getD (r.echoPos + s.active.idxOf b) 0).toNat < 256 ^ n := by
      rw [List.getD_eq_getElem?_getD]
      cases hv : r.echoLog[r.echoPos + s.active.idxOf b]? with
      | none => exact Nat.pow_pos (by decide)
      | some v => exact hlog v (List.mem_of_getElem? hv)
    exact load_echoed hf hr hm he hplain hs (fun b => hext _ (hlt b)) hlen

end Sys2Proof.Machine
end

section
/-! Stores to plain memory (O20): the bytes that stand after stores one after another, the links they break, and what a replica notes. -/

namespace Sys2Proof.Machine

-- Proofs elaborated side by side each hold a thread's stack, and the whole text compiles near the memory limit of its check.
set_option Elab.async false

/-! ## One store -/

theorem seat?_of_red {u : State} {r : Replica} (h : u.fseat.red = some r) : u.seat? u.focus.core u.focus.base = some u.fseat := by
  unfold State.fseat State.seat State.seatAt at *
  cases hs : u.seat? u.focus.core u.focus.base with
  | some t => rfl
  | none =>
    rw [hs] at h
    cases h

/-- A task without redundancy notes nothing. -/
theorem markDirty_of_task {u : State} (h : u.fseat.red = none) (va n : Nat) : u.markDirty u.focus.core u.focus.base va n = u := by
  unfold State.markDirty
  cases hs : u.seat? u.focus.core u.focus.base with
  | none => rfl
  | some t =>
    have ht : t = u.fseat := by
      rw [State.fseat, State.seat, State.seatAt, hs]
      rfl
    subst ht
    simp only [h]

/-- Bytes of an address that lies on a shadow page of the view (R331). -/
def Replica.shadows (r : Replica) (va : Nat) : Prop := ∃ v ∈ r.view, v.page = va / 2 ^ 16 ∧ v.role ≠ 1

open Classical in
/-- A replica notes what lies on a shadow page (R331). -/
theorem markDirty_of_replica {u : State} {r : Replica} (h : u.fseat.red = some r) (va n : Nat) : u.markDirty u.focus.core u.focus.base va n =
    if r.shadows va then u.setSeat u.focus { u.fseat with red := some { r with dirty := dirtyBytes r.dirty va n } } else u := by
  have hiff : (r.view.find? (fun v => v.page == va / 2 ^ 16 && v.role != 1)).isSome = true ↔ r.shadows va := by
    rw [List.find?_isSome]
    simp [Replica.shadows]
  unfold State.markDirty
  rw [seat?_of_red h]
  simp only [h]
  by_cases hv : r.shadows va
  · rw [if_pos hv, if_pos (hiff.2 hv)]
    rfl
  · rw [if_neg hv, if_neg (mt hiff.1 hv)]

theorem markDirty_cases (u : State) (va n : Nat) : u.markDirty u.focus.core u.focus.base va n = u ∨
    ∃ x, { x with red := u.fseat.red } = u.fseat ∧ u.markDirty u.focus.core u.focus.base va n = u.setSeat u.focus x := by
  cases h : u.fseat.red with
  | none => exact .inl (markDirty_of_task h va n)
  | some r =>
    rw [markDirty_of_replica h]
    split
    · refine .inr ⟨_, ?_, rfl⟩
      rw [← h]
    · exact .inl rfl

/-- One store of the n low bytes of an access's value at pa: all that it does beside what a replica notes. -/
structure WritesOne (u v : State) (a : BankAccess) (pa n : Nat) : Prop where
  accessed : Accessed u v
  peek : ∀ x m, v.peek x m = (u.poke (some (u.focus.core, a.bank)) pa (a.v % 256 ^ n) n).peek x m
  bank : ∀ c b, v.bank c b = u.bank c b
  linked : v.linked = u.linked.filter (keepLink (some (u.focus.core, a.bank)) pa n)
  note : v.lastAmo = u.lastAmo ∧ v.free = u.free

theorem bank_poke (u : State) (w : Option (Nat × Nat)) (pa v n c b : Nat) : (u.poke w pa v n).bank c b = u.bank c b := by
  rw [poke_eq]
  rfl

theorem writesOne_afterWrite (u : State) (a : BankAccess) (pa n : Nat) : WritesOne u (u.afterWrite (u.who a.bank) a.va pa (a.v % 256 ^ n) n) a pa n := by
  let x : State := u.poke (some (u.focus.core, a.bank)) pa (a.v % 256 ^ n) n
  have hx : WritesOne u x a pa n :=
    ⟨accessed_poke u _ _ _ _, fun _ _ => rfl, fun c b => bank_poke u _ _ _ _ c b, by simp only [x]; rw [poke_eq], by simp only [x]; rw [poke_eq]; exact ⟨rfl, rfl⟩⟩
  have hf : x.focus = u.focus := hx.accessed.focus
  have hmark : WritesOne u (x.markDirty u.focus.core u.focus.base a.va n) a pa n := by
    rw [← hf]
    rcases markDirty_cases x a.va n with h | ⟨y, hy, h⟩
    · rw [h]
      exact hx
    · rw [h]
      exact ⟨hx.accessed.trans (accessed_setRed hy), hx.peek, fun c b => (State.bank_setSeat x _ y c b).trans (hx.bank c b), hx.linked, hx.note⟩
  unfold State.afterWrite
  split
  · exact hx
  · have ht := accessed_touch (x.markDirty u.focus.core u.focus.base a.va n) pa
    obtain ⟨ms, he⟩ := touch_eq (x.markDirty u.focus.core u.focus.base a.va n) pa
    change WritesOne u ((x.markDirty u.focus.core u.focus.base a.va n).touch pa) a pa n
    rw [he] at ht ⊢
    exact ⟨hmark.accessed.trans ht, hmark.peek, hmark.bank, hmark.linked, hmark.note⟩

theorem WritesOne.orderPath {u v : State} {a : BankAccess} {pa n : Nat} (h : WritesOne u v a pa n) (core base : Nat) (p : BitVec 4) :
    WritesOne u (v.orderPath core base p) a pa n :=
  ⟨h.accessed.trans (accessed_orderPath v core base p), h.peek, h.bank, h.linked, h.note⟩

/-- A task's seat is as it was after a store. -/
theorem seat_afterWrite_of_task {u : State} (h : u.fseat.red = none) (bank va pa v n : Nat) :
    (u.afterWrite (u.who bank) va pa v n).seat u.focus = u.seat u.focus := by
  let x : State := u.poke (some (u.focus.core, bank)) pa v n
  have hx : x.focus = u.focus ∧ x.seat u.focus = u.seat u.focus := by
    simp only [x]
    rw [poke_eq]
    exact ⟨rfl, rfl⟩
  have hr : x.fseat.red = none := by
    rw [State.fseat, hx.1, hx.2]
    exact h
  have hm : x.markDirty u.focus.core u.focus.base va n = x := by
    rw [← hx.1]
    exact markDirty_of_task hr va n
  unfold State.afterWrite
  split
  · exact hx.2
  · change ((x.markDirty u.focus.core u.focus.base va n).touch pa).seat u.focus = _
    rw [hm]
    obtain ⟨ms, he⟩ := touch_eq x pa
    rw [he]
    exact hx.2

/-! ## Stores one after another -/

/-- Where an access of a bank leads, when its checks pass. -/
def spotPa (s : State) (x : Access) (va : Nat) : Nat := match checkAccess s s.fctx s.fseat x va with | .ok p => p.pa | _ => 0

theorem spotPa_of_ok {s : State} {x : Access} {va : Nat} {p : Spot} (h : checkAccess s s.fctx s.fseat x va = .ok p) : spotPa s x va = p.pa := by
  rw [spotPa, h]

/-- An access as an entry of the stores of `Stored`: bank, physical address, value. -/
def storeEntry (s : State) (x : Access) (a : BankAccess) : Nat × Nat × Nat := (a.bank, spotPa s x a.va, a.v)

theorem Stored.nil (s : State) (n : Nat) : Stored s s n [] := ⟨fun _ _ => rfl, fun before _ _ h => by cases before <;> cases h⟩

/-- One more store, the last (R150). -/
theorem Stored.concat {s u v : State} {n : Nat} {st : List (Nat × Nat × Nat)} (h : Stored s u n st) (hw : Memory.wf u = true) (e : Nat × Nat × Nat)
    (w : Option (Nat × Nat)) (hv : ∀ x m, v.peek x m = (u.poke w e.2.1 (e.2.2 % 256 ^ n) n).peek x m) : Stored s v n (st ++ [e]) := by
  obtain ⟨hother, hlast⟩ := h
  refine ⟨fun a ha => ?_, fun before x after he hafter => ?_⟩
  · rw [hv, State.peek_poke_apart hw w (by have := ha e (by simp); omega)]
    exact hother a fun y hy => ha y (List.mem_append_left _ hy)
  · rw [hv]
    rcases List.eq_nil_or_concat' after with rfl | ⟨after', z, rfl⟩
    · obtain ⟨rfl, hx⟩ := List.append_inj' he rfl
      obtain rfl := List.head_eq_of_cons_eq hx
      rw [State.peek_poke hw, Nat.mod_mod]
    · have he' : st ++ [e] = (before ++ x :: after') ++ [z] := by rw [he]; simp
      obtain ⟨hst, hz⟩ := List.append_inj' he' rfl
      obtain rfl := List.head_eq_of_cons_eq hz
      have hapart := hafter e (by simp)
      rw [State.peek_poke_apart hw w (by omega)]
      exact hlast before x after' hst fun y hy => hafter y (List.mem_append_left _ hy)

theorem keepLink_thread (core bank pa n : Nat) (l : LinkEntry) :
    keepLink (some (core, bank)) pa n l = ((l.core == core && l.bank == bank) || !overlaps l.pa l.size pa n) := by
  unfold keepLink
  congr 1
  rw [Bool.eq_iff_iff, beq_iff_eq, Bool.and_eq_true, beq_iff_eq, beq_iff_eq, Option.some.injEq, Prod.mk.injEq]
  exact and_congr eq_comm eq_comm

theorem linksAfter_concat (s : State) (n : Nat) (st : List (Nat × Nat × Nat)) (e : Nat × Nat × Nat) :
    linksAfter s n (st ++ [e]) = (linksAfter s n st).filter (keepLink (some (s.focus.core, e.1)) e.2.1 n) := by
  unfold linksAfter
  rw [List.filter_filter]
  refine List.filter_congr fun l _ => ?_
  rw [List.all_append, keepLink_thread, Bool.and_comm]
  simp

/-- What stores leave as it was, and where their bytes stand. -/
structure StoredSoFar (s : State) (x : Access) (done : List BankAccess) (u : State) : Prop where
  accessed : Accessed s u
  bank : ∀ c b, u.bank c b = s.bank c b
  stored : Stored s u x.n (done.map (storeEntry s x))
  linked : u.linked = linksAfter s x.n (done.map (storeEntry s x))
  note : u.lastAmo = s.lastAmo ∧ u.free = s.free

theorem storedSoFar_nil (s : State) (x : Access) : StoredSoFar s x [] s :=
  ⟨Accessed.refl s, fun _ _ => rfl, Stored.nil s x.n, by simp [linksAfter], rfl, rfl⟩

theorem StoredSoFar.step {s u v : State} {x : Access} {done : List BankAccess} {a : BankAccess} {p : Spot} (h : StoredSoFar s x done u)
    (hwf : Memory.wf s = true) (hp : checkAccess s s.fctx s.fseat x a.va = .ok p) (hv : WritesOne u v a p.pa x.n) : StoredSoFar s x (done ++ [a]) v := by
  have he : storeEntry s x a = (a.bank, p.pa, a.v) := by rw [storeEntry, spotPa_of_ok hp]
  refine ⟨h.accessed.trans hv.accessed, fun c b => (hv.bank c b).trans (h.bank c b), ?_, ?_, hv.note.1.trans h.note.1, hv.note.2.trans h.note.2⟩
  · rw [List.map_append, List.map_singleton, he]
    exact h.stored.concat (h.accessed.wf hwf) _ _ hv.peek
  · rw [List.map_append, List.map_singleton, he, linksAfter_concat, ← h.linked, hv.linked, h.accessed.focus]

/-- At its spot an access of a task stores, and leaves Q. -/
def StoresAt (s : State) (x : Access) (act : State → Spot → BankAccess → Res State) (p : Spot) (a : BankAccess) (Q : State → Prop) : Prop :=
  ∀ u, Accessed s u → u.seat s.focus = s.seat s.focus →
    ∃ v, act u p a = .ok v ∧ WritesOne u v a p.pa x.n ∧ v.seat s.focus = s.seat s.focus ∧ Q v

theorem performAll_stores {s : State} (hwf : Memory.wf s = true) {x : Access} {act : State → Spot → BankAccess → Res State} {Q : State → Prop}
    {as : List BankAccess} (h : ∀ a ∈ as, ∃ p, checkAccess s s.fctx s.fseat x a.va = .ok p ∧ StoresAt s x act p a Q) (m : BitVec 16) :
    ∃ u, performAll s s.fctx s.fseat x act as m s = (u, .ok) ∧ StoredSoFar s x as u ∧ u.seat s.focus = s.seat s.focus ∧ (as ≠ [] → Q u) := by
  refine performAll_all (P := fun done u => StoredSoFar s x done u ∧ u.seat s.focus = s.seat s.focus ∧ (done ≠ [] → Q u))
    ⟨storedSoFar_nil s x, rfl, fun h => absurd rfl h⟩ (fun done a rest u he hu => ?_) m
  obtain ⟨hsofar, hseat, -⟩ := hu
  obtain ⟨p, hp, hstore⟩ := h a (by rw [← he]; exact List.mem_append_right _ List.mem_cons_self)
  obtain ⟨v, hv, hw, hvs, hq⟩ := hstore u hsofar.accessed hseat
  exact ⟨p, v, hp, hv, hsofar.step hwf hp hw, hvs, fun _ => hq⟩

theorem fseat_of_accessed {s u : State} (h : Accessed s u) (hseat : u.seat s.focus = s.seat s.focus) : u.fseat = s.fseat := by
  rw [State.fseat, h.focus]
  exact hseat

theorem seat_of_store {s u : State} (hr : s.fseat.red = none) (hu : Accessed s u) (hseat : u.seat s.focus = s.seat s.focus) (bank va pa v n : Nat) :
    (u.afterWrite (u.who bank) va pa v n).seat s.focus = s.seat s.focus := by
  have h := seat_afterWrite_of_task (u := u) (by rw [fseat_of_accessed hu hseat]; exact hr) bank va pa v n
  rw [hu.focus] at h
  exact h.trans hseat

theorem storeAct_storesAt {s : State} (hr : s.fseat.red = none) {x : Access} {p : Spot} (h : PlainAt s p.pa) (a : BankAccess) :
    StoresAt s x (storeAct x.n) p a (fun _ => True) := fun u hu hseat =>
  ⟨_, writeSpot_plain (h.of_accessed hu) _ _ _ _, writesOne_afterWrite u a p.pa x.n, seat_of_store hr hu hseat _ _ _ _ _, trivial⟩

/-- A task's release access is a store of its own place, ordered before every later LS access (R153). -/
theorem storeRelAct_storesAt {s : State} (hr : s.fseat.red = none) {x : Access} {p : Spot} (h : PlainAt s p.pa) (a : BankAccess) :
    StoresAt s x (storeRelAct true x.n) p a (fun t => ∀ y ∈ t.ahead, y.path ≠ 0) := by
  intro u hu hseat
  have hview : viewOf u.fctx a.va = none := viewOf_of_task (by rw [fseat_of_accessed hu hseat]; exact hr) a.va
  have hstep : storeRelAct true x.n u p a = .ok ((u.afterWrite (u.who a.bank) a.va p.pa (a.v % 256 ^ x.n) x.n).orderPath u.focus.core u.focus.base 0) := by
    rw [storeRelAct, if_pos rfl, writeHome, hview, writeSpot_plain (h.of_accessed hu)]
    rfl
  refine ⟨_, hstep, (writesOne_afterWrite u a p.pa x.n).orderPath _ _ _, seat_of_store hr hu hseat _ _ _ _ _, fun y hy hpath => ?_⟩
  obtain ⟨-, hf⟩ := State.mem_dropAhead.1 hy
  simp [hpath] at hf

/-! ## The end of an instruction whose accesses have stored -/

theorem aroundStores_of {s t : State} (hs : Settled s) (h : Accessed s t) (hseat : t.seat s.focus = s.seat s.focus) :
    AroundStores s { t.retire with lastAmo := s.lastAmo, free := s.free } := by
  rw [h.retire hs]
  have hc := h.cores.setPart (s.part s.focus).advance
  have hss := Accessed.sameSeat hseat
  exact ⟨h.rest, h.traces, h.quads, h.sram, ⟨hc.cores, hc.seats⟩, ⟨hss.seat, hss.parts, hss.part⟩, h.wf⟩

theorem storesTo_of {s t : State} (hs : Settled s) {i : Instr} (he : exec i s = .next t.retire) (h : Accessed s t) (hseat : t.seat s.focus = s.seat s.focus)
    (hnote : t.lastAmo = s.lastAmo ∧ t.free = s.free) {n : Nat} {st : List (Nat × Nat × Nat)} (hstored : Stored s t n st)
    (hlinked : t.linked = linksAfter s n st) {R : Nat → Bank → Bank → Prop} (hR : OnBanks s t R) : StoresTo i s n st R := by
  have ha := aroundStores_of hs h hseat
  rw [h.retire hs] at he ha
  rw [← hnote.1, ← hnote.2] at ha
  refine ⟨_, he, ha, State.part_setPart _ _ _, fun c b => ?_, hstored, hlinked⟩
  rw [State.bank_setPart]
  exact hR c b

/-! ## The stores of a task -/

section
variable {s : State} (hs : Settled s) (hf : Fresh s) (hr : s.fseat.red = none) (hwf : Memory.wf s = true) {d a : BitVec 5} {imm : BitVec 22} {n : Nat}
  {pa : Nat → Nat} (hplain : ∀ b ∈ s.active, Plain s .write n (s.vaAt a imm b) (pa b))
include hr hplain

theorem check_store (b : Nat) (hb : b ∈ s.active) : ∃ p, checkAccess s s.fctx s.fseat (storeAccess n) (s.vaAt a imm b) = .ok p ∧ p.pa = pa b := by
  refine checkAccess_plain (x := storeAccess n) (hplain b hb) ?_ nofun
  rw [undisciplined_of_task hr]
  rfl

theorem map_storeEntry : (s.active.map (s.accessAt d a imm)).map (storeEntry s (storeAccess n)) = s.active.map (fun b => (b, pa b, ((s.fbank b).rs d).toNat)) := by
  rw [List.map_map]
  refine List.map_congr_left fun b hb => ?_
  obtain ⟨p, hp, hpa⟩ := check_store hr hplain b hb
  rw [Function.comp_apply, storeEntry, show (s.accessAt d a imm b).va = s.vaAt a imm b from rfl, spotPa_of_ok hp, hpa]
  rfl

include hs hf hwf

/-- Stores of every active bank, with what each leaves besides. -/
theorem store_stores {i : Instr} {act : State → Spot → BankAccess → Res State} {Q : State → Prop}
    (he : exec i s = finishSingle (s.accessAll s.fctx s.fseat (storeAccess n) act (accessesAt s d a imm)))
    (hact : ∀ p b, PlainAt s p.pa → StoresAt s (storeAccess n) act p b Q) :
    StoresTo i s n (s.active.map (fun b => (b, pa b, ((s.fbank b).rs d).toNat))) (fun _ x y => y = x) ∧
      (s.active ≠ [] → ∃ t u, exec i s = .next t ∧ Q u ∧ t.ahead = u.ahead) := by
  rw [accessesAt_of_fresh hf] at he
  obtain ⟨u, hu, hsofar, hseat, hq⟩ := performAll_stores hwf (x := storeAccess n) (act := act) (Q := Q) (as := s.active.map (s.accessAt d a imm))
    (fun y hy => by
      obtain ⟨b, hb, rfl⟩ := List.mem_map.1 hy
      obtain ⟨p, hp, hpa⟩ := check_store hr hplain b hb
      exact ⟨p, hp, hact p _ (hpa ▸ (hplain b hb).plainAt)⟩) (s.part s.focus).begun
  rw [State.accessAll, hu] at he
  have hend : exec i s = .next u.retire := he
  have hstored := hsofar.stored
  have hlinked := hsofar.linked
  rw [map_storeEntry hr hplain] at hstored hlinked
  refine ⟨storesTo_of hs hend hsofar.accessed hseat hsofar.note hstored hlinked fun c b => ?_, fun hne => ⟨_, u, hend, hq (by simpa using hne), ?_⟩⟩
  · rw [hsofar.bank]
    split <;> rfl
  · rw [hsofar.accessed.retire hs]
    rfl

end

/-! ## st.rel waits for the panes of the part (R153; log 52) -/

theorem rowWait_eq (s : State) : rowWait s = if rowsMoving s s.active then some .fence else none := rfl

theorem rowsMoving_iff (s : State) (bs : List Nat) : rowsMoving s bs = true ↔
    ∃ b ∈ bs, ∃ k, k < 12 ∧ ((s.fbank b).pane k).st ∈ [PaneState.opening, .writing, .closing] := by
  unfold rowsMoving
  simp only [List.any_eq_true, List.mem_range, Bool.or_eq_true, beq_iff_eq, List.mem_cons, List.not_mem_nil, or_false]
  simp only [or_assoc]
  rfl

/-- The two stores with release. -/
theorem exec_releases {s : State} {d a : BitVec 5} {imm : BitVec 22} {p : Instr × Nat} (hp : p ∈ [(Instr.stRelW d a imm, 4), (.stRelD d a imm, 8)]) :
    ∃ f, exec p.1 s = storeRel s d a imm f p.2 := by
  simp only [List.mem_cons, List.not_mem_nil, or_false] at hp
  rcases hp with rfl | rfl
  · exact ⟨4, rfl⟩
  · exact ⟨5, rfl⟩

theorem storeRel_of_moving {s : State} (h : rowsMoving s s.active = true) (d a : BitVec 5) (imm : BitVec 22) (f n : Nat) :
    storeRel s d a imm f n = .next (s.waitOn .fence) := by
  unfold storeRel
  rw [rowWait_eq, if_pos h]

theorem storeRel_of_task {s : State} (hm : ¬rowsMoving s s.active = true) (hr : s.fseat.red = none) {d a : BitVec 5} {imm : BitVec 22} {n : Nat}
    (h : ∀ y ∈ accessesAt s d a imm, ∃ p, checkAccess s s.fctx s.fseat (storeAccess n) y.va = .ok p) (f : Nat) :
    storeRel s d a imm f n = finishSingle (s.accessAll s.fctx s.fseat (storeAccess n) (storeRelAct true n) (accessesAt s d a imm)) := by
  unfold storeRel
  rw [rowWait_eq, if_neg hm]
  dsimp only
  rw [checkAll_ok h]
  dsimp only
  rw [withRelease, hr]

end Sys2Proof.Machine
end

section
/-! Stores of a replica and stores to device registers, and with them O20: what a replica notes (R330, R331), what a register's write sets off (R313). -/

namespace Sys2Proof.Machine

-- Proofs elaborated side by side each hold a thread's stack, and the whole text compiles near the memory limit of its check.
set_option Elab.async false

/-! ## The dirty bytes of a replica (R331) -/

/-- A byte is noted in a table of dirty bytes. -/
def Marked (t : Table (BitVec 64)) (x : Nat) : Prop := (look 0 t (x / 64)).getLsbD (x % 64) = true

theorem marked_put (t : Table (BitVec 64)) (va x : Nat) :
    Marked (put t (va / 64) (look 0 t (va / 64) ||| (1 <<< (va % 64)))) x ↔ Marked t x ∨ x = va := by
  unfold Marked
  rw [look_put]
  by_cases hk : x / 64 = va / 64
  · have hone : ((1 <<< (va % 64) : Nat) : BitVec 64).getLsbD (x % 64) = decide (va % 64 = x % 64) := by
      rw [BitVec.natCast_eq_ofNat, BitVec.getLsbD_ofNat, Nat.one_shiftLeft, Nat.testBit_two_pow, decide_eq_true (Nat.mod_lt x (by decide : 0 < 64)), Bool.true_and]
    rw [if_pos hk, BitVec.getLsbD_or, hone, Bool.or_eq_true, decide_eq_true_eq, hk]
    exact or_congr_right ⟨fun h => by omega, fun h => by rw [h]⟩
  · rw [if_neg hk]
    exact ⟨.inl, fun h => h.resolve_right fun he => hk (by rw [he])⟩

theorem marked_dirtyBytes (t : Table (BitVec 64)) (va n x : Nat) : Marked (dirtyBytes t va n) x ↔ Marked t x ∨ va ≤ x ∧ x < va + n := by
  induction n generalizing t va with
  | zero => exact ⟨.inl, fun h => h.resolve_right (by omega)⟩
  | succ n ih =>
    rw [dirtyBytes, ih, marked_put, or_assoc]
    exact or_congr_right ⟨fun h => by omega, fun h => by omega⟩

theorem declaredAll_iff (r : Replica) (va n : Nat) : declaredAll r va n = true ↔ ∀ i, i < n → declaredOut r (va + i) = true := by
  induction n generalizing va with
  | zero => exact ⟨fun _ i h => absurd h (Nat.not_lt_zero i), fun _ => rfl⟩
  | succ n ih =>
    rw [declaredAll, Bool.and_eq_true, ih]
    refine ⟨fun h i hi => ?_, fun h => ⟨h 0 (Nat.succ_pos n), fun i hi => ?_⟩⟩
    · cases i with
      | zero => exact h.1
      | succ i =>
        rw [show va + (i + 1) = va + 1 + i by omega]
        exact h.2 i (by omega)
    · rw [show va + 1 + i = va + (i + 1) by omega]
      exact h (i + 1) (by omega)

/-- Bytes that a replica may write: in its own SRAM, or all declared outputs (R330). -/
def CoveredBy (s : State) (r : Replica) (va pa n : Nat) : Prop := ownSram s.fseat s.focus.core pa = true ∨ ∀ i, i < n → declaredOut r (va + i) = true

theorem undisciplined_iff {s : State} {r : Replica} (h : s.fseat.red = some r) (va pa n : Nat) :
    undisciplined s.fseat s.focus.core va pa n = false ↔ CoveredBy s r va pa n := by
  unfold undisciplined CoveredBy
  rw [h, ← declaredAll_iff]
  cases ownSram s.fseat s.focus.core pa <;> simp

/-- Check 4 of a replica's store (R330). -/
theorem checkAccess_undisciplined {s : State} {n va pa : Nat} (h : Plain s .write n va pa) (hd : undisciplined s.fseat s.focus.core va pa n = true) :
    checkAccess s s.fctx s.fseat (storeAccess n) va = .bad 4 0x2A := by
  obtain ⟨p, hp, rfl, -⟩ := h.spot
  have hp' : translate s s.fctx (if (storeAccess n).write then .write else .read) va = .ok p := hp
  rw [checkAccess, if_neg (Nat.not_le.2 h.canonical), if_neg (show ¬va % (storeAccess n).n ≠ 0 from not_not.2 h.aligned), hp']
  simp only [Res.andThen]
  rw [show undisciplined s.fseat s.fctx.core va p.pa (storeAccess n).n = true from hd]
  rfl

/-! ## The stores of a replica (R330, R331) -/

/-- The seat of a replica after stores: the bytes they put on shadow pages are noted. -/
def NotedSoFar (s : State) (r : Replica) (x : Access) (done : List BankAccess) (u : State) : Prop :=
  ∃ r', u.seat s.focus = { s.fseat with red := some r' } ∧ { r' with dirty := r.dirty } = r ∧
    ∀ y, Marked r'.dirty y ↔ Marked r.dirty y ∨ ∃ a ∈ done, a.va ≤ y ∧ y < a.va + x.n ∧ regionOf (spotPa s x a.va) ≠ .sram ∧ r.shadows a.va

theorem notedSoFar_nil {s : State} {r : Replica} (h : s.fseat.red = some r) (x : Access) : NotedSoFar s r x [] s :=
  ⟨r, by rw [← h]; rfl, rfl, fun y => ⟨.inl, fun hm => hm.resolve_right fun ⟨_, ha, _⟩ => List.not_mem_nil ha⟩⟩

/-- The seat after one store. -/
theorem seat_afterWrite_of_replica {u : State} {r : Replica} (h : u.fseat.red = some r) (bank va pa v n : Nat) :
    ∃ r', (u.afterWrite (u.who bank) va pa v n).seat u.focus = { u.fseat with red := some r' } ∧ { r' with dirty := r.dirty } = r ∧
      ∀ y, Marked r'.dirty y ↔ Marked r.dirty y ∨ va ≤ y ∧ y < va + n ∧ regionOf pa ≠ .sram ∧ r.shadows va := by
  let x : State := u.poke (some (u.focus.core, bank)) pa v n
  have hx : x.focus = u.focus ∧ x.seat u.focus = u.fseat := by
    simp only [x]
    rw [poke_eq]
    exact ⟨rfl, rfl⟩
  have hxs : x.fseat = u.fseat := by
    rw [State.fseat, hx.1]
    exact hx.2
  have hsame : u.fseat = { u.fseat with red := some r } := by rw [← h]
  unfold State.afterWrite
  by_cases hr : regionOf pa = .sram
  · rw [if_pos hr]
    exact ⟨r, hx.2.trans hsame, rfl, fun y => ⟨.inl, fun hm => hm.resolve_right fun hn => hn.2.2.1 hr⟩⟩
  · rw [if_neg hr]
    have hm := markDirty_of_replica (u := x) (r := r) (by rw [hxs]; exact h) va n
    rw [hx.1, hxs] at hm
    change ∃ r', ((x.markDirty u.focus.core u.focus.base va n).touch pa).seat u.focus = _ ∧ _
    obtain ⟨ms, he⟩ := touch_eq (x.markDirty u.focus.core u.focus.base va n) pa
    rw [he, hm]
    by_cases hv : r.shadows va
    · rw [if_pos hv]
      refine ⟨{ r with dirty := dirtyBytes r.dirty va n }, State.seat_setSeat x u.focus _, rfl, fun y => ?_⟩
      rw [marked_dirtyBytes]
      exact or_congr_right ⟨fun hy => ⟨hy.1, hy.2, hr, hv⟩, fun hy => ⟨hy.1, hy.2.1⟩⟩
    · rw [if_neg hv]
      exact ⟨r, hx.2.trans hsame, rfl, fun y => ⟨.inl, fun hn => hn.resolve_right fun hn => hv hn.2.2.2⟩⟩

theorem NotedSoFar.step {s u : State} {r : Replica} {x : Access} {done : List BankAccess} {a : BankAccess} {p : Spot} (h : NotedSoFar s r x done u)
    (hu : Accessed s u) (hp : checkAccess s s.fctx s.fseat x a.va = .ok p) (v : Nat) :
    NotedSoFar s r x (done ++ [a]) (u.afterWrite (u.who a.bank) a.va p.pa v x.n) := by
  obtain ⟨r1, hseat, hr1, hmark⟩ := h
  have hfseat : u.fseat = { s.fseat with red := some r1 } := by
    rw [State.fseat, hu.focus]
    exact hseat
  obtain ⟨r2, hseat2, hr2, hmark2⟩ := seat_afterWrite_of_replica (u := u) (r := r1) (by rw [hfseat]) a.bank a.va p.pa v x.n
  have hview : r1.shadows a.va ↔ r.shadows a.va := by
    have hv := congrArg Replica.view hr1
    rw [Replica.shadows, Replica.shadows, ← show r1.view = r.view from hv]
  refine ⟨r2, ?_, (congrArg (fun z : Replica => { z with dirty := r.dirty }) hr2 :).trans hr1, fun y => ?_⟩
  · rw [hu.focus, hfseat] at hseat2
    exact hseat2
  · rw [hmark2, hmark, hview, or_assoc]
    refine or_congr_right ⟨?_, ?_⟩
    · rintro (⟨b, hb, hrest⟩ | hrest)
      · exact ⟨b, List.mem_append_left _ hb, hrest⟩
      · exact ⟨a, by simp, by rw [spotPa_of_ok hp]; exact hrest⟩
    · rintro ⟨b, hb, hrest⟩
      rcases List.mem_append.1 hb with hb | hb
      · exact .inl ⟨b, hb, hrest⟩
      · rw [List.mem_singleton.1 hb, spotPa_of_ok hp] at hrest
        exact .inr hrest

section
variable {s : State} (hs : Settled s) (hf : Fresh s) {r : Replica} (hr : s.fseat.red = some r) (hwf : Memory.wf s = true) {d a : BitVec 5}
  {imm : BitVec 22} {n : Nat} {i : Instr} (he : exec i s = scalarOp s (storeAccess n) d a imm (storeAct n)) {pa : Nat → Nat}
  (hplain : ∀ b ∈ s.active, Plain s .write n (s.vaAt a imm b) (pa b))
include hf hr he hplain

omit hf he in
theorem check_replica_store {b : Nat} (hb : b ∈ s.active) (hc : CoveredBy s r (s.vaAt a imm b) (pa b) n) :
    ∃ p, checkAccess s s.fctx s.fseat (storeAccess n) (s.vaAt a imm b) = .ok p ∧ p.pa = pa b := by
  refine checkAccess_plain (x := storeAccess n) (hplain b hb) ?_ nofun
  rw [show (storeAccess n).n = n from rfl, (undisciplined_iff hr _ _ _).2 hc, Bool.and_false]

/-- A store of a replica to what it may write (R330, R331). -/
theorem replica_stores (hs : Settled s) (hwf : Memory.wf s = true) (hcov : ∀ b ∈ s.active, CoveredBy s r (s.vaAt a imm b) (pa b) n) :
    ∃ t r', exec i s = .next t ∧
      { t with cores := s.cores, mem := s.mem, quads := s.quads, linked := s.linked, migs := s.migs, ahead := s.ahead } = s ∧ NoneAhead s t ∧ SameCores s t ∧ Proceeds s t ∧ OnBanks s t (fun _ x y => y = x) ∧ Stored s t n (s.active.map (fun b => (b, pa b, ((s.fbank b).rs d).toNat))) ∧
      { t.seat s.focus with parts := s.fseat.parts } = { s.fseat with red := some r' } ∧ { r' with dirty := r.dirty } = r ∧
      ∀ y, Marked r'.dirty y ↔ Marked r.dirty y ∨
        ∃ b ∈ s.active, s.vaAt a imm b ≤ y ∧ y < s.vaAt a imm b + n ∧ regionOf (pa b) ≠ .sram ∧ r.shadows (s.vaAt a imm b) := by
  have hcheck (b : Nat) (hb : b ∈ s.active) := check_replica_store hr hplain hb (hcov b hb)
  have hall : ∀ y ∈ s.active.map (s.accessAt d a imm), ∃ p, checkAccess s s.fctx s.fseat (storeAccess n) y.va = .ok p ∧ PlainAt s p.pa := by
    intro y hy
    obtain ⟨b, hb, rfl⟩ := List.mem_map.1 hy
    obtain ⟨p, hp, hpa⟩ := hcheck b hb
    exact ⟨p, hp, hpa ▸ (hplain b hb).plainAt⟩
  have hspot (b : Nat) (hb : b ∈ s.active) : spotPa s (storeAccess n) (s.accessAt d a imm b).va = pa b := by
    obtain ⟨p, hp, hpa⟩ := hcheck b hb
    exact (spotPa_of_ok hp).trans hpa
  obtain ⟨u, hu, hsofar, r', hseat, hr', hmark⟩ := performAll_all (s0 := s) (c := s.fctx) (t := s.fseat) (x := storeAccess n) (act := storeAct n)
    (P := fun done u => StoredSoFar s (storeAccess n) done u ∧ NotedSoFar s r (storeAccess n) done u) (s := s) ⟨storedSoFar_nil s _, notedSoFar_nil hr _⟩
    (as := s.active.map (s.accessAt d a imm)) (fun done y rest u hsplit hP => by
      obtain ⟨p, hp, hpl⟩ := hall y (by rw [← hsplit]; exact List.mem_append_right _ List.mem_cons_self)
      exact ⟨p, _, hp, writeSpot_plain (hpl.of_accessed hP.1.accessed) _ _ _ _,
        hP.1.step hwf hp (writesOne_afterWrite u y p.pa n), hP.2.step hP.1.accessed hp _⟩)
    (s.part s.focus).begun
  rw [scalarOp, accessesAt_of_fresh hf, scalarAccess_performs fun y hy => (hall y hy).imp fun _ h => h.1, State.accessAll, hu] at he
  have hret : exec i s = .next (u.setPart s.focus (s.part s.focus).advance) := he.trans (congrArg _ (hsofar.accessed.retire hs))
  have hstored := hsofar.stored
  have hentries : (s.active.map (s.accessAt d a imm)).map (storeEntry s (storeAccess n)) = s.active.map (fun b => (b, pa b, ((s.fbank b).rs d).toNat)) := by
    rw [List.map_map]
    refine List.map_congr_left fun b hb => ?_
    rw [Function.comp_apply, storeEntry, hspot b hb]
    rfl
  rw [hentries] at hstored
  have hrest := hsofar.accessed.rest
  rw [← hsofar.note.1, ← hsofar.note.2] at hrest
  refine ⟨_, r', hret, hrest, hsofar.accessed.traces.2, hsofar.accessed.cores.setPart _, State.part_setPart _ _ _, fun c b => ?_, hstored, ?_, hr', fun y => ?_⟩
  · rw [State.bank_setPart, hsofar.bank]
    split <;> rfl
  · rw [State.seat_setPart, hseat]
    rfl
  · rw [hmark]
    refine or_congr_right ⟨?_, ?_⟩
    · rintro ⟨y', hy, h⟩
      obtain ⟨b, hb, rfl⟩ := List.mem_map.1 hy
      rw [hspot b hb] at h
      exact ⟨b, hb, h⟩
    · rintro ⟨b, hb, h⟩
      exact ⟨_, List.mem_map.2 ⟨b, hb, rfl⟩, by rw [hspot b hb]; exact h⟩

/-- A store of a replica to what it may not write traps (R330). -/
theorem replica_store_traps {b : Nat} (hb : b ∈ s.active) (hbad : ¬CoveredBy s r (s.vaAt a imm b) (pa b) n)
    (hlow : ∀ c ∈ s.active, c < b → CoveredBy s r (s.vaAt a imm c) (pa c) n) :
    exec i s = .next (s.trapSingle 0x2A (BitVec.ofNat 64 (s.vaAt a imm b % 2 ^ 56 + b * 2 ^ 56))) := by
  have hfails (c : Nat) (hc : c ∈ s.active) (hn : ¬CoveredBy s r (s.vaAt a imm c) (pa c) n) :=
    checkAccess_undisciplined (hplain c hc) (Bool.eq_true_of_not_eq_false (mt (undisciplined_iff hr _ _ _).1 hn))
  rw [he, scalarOp, accessesAt_of_fresh hf, scalarAccess_bad (f := s.accessAt d a imm) (fun _ => rfl) hb (hfails b hb hbad) fun c hc o' k' h => ?_]
  · rfl
  · change checkAccess s s.fctx s.fseat (storeAccess n) (s.vaAt a imm c) = .bad o' k' at h
    by_cases hcov : CoveredBy s r (s.vaAt a imm c) (pa c) n
    · obtain ⟨p, hp, -⟩ := check_replica_store hr hplain hc hcov
      rw [hp] at h
      cases h
    · rw [hfails c hc hcov] at h
      cases h
      exact .inr ⟨rfl, Nat.le_of_not_lt fun hlt => hcov (hlow c hc hlt)⟩

end

/-! ## Stores to device registers (R291, R313) -/

/-- The word that a narrow store merges with: what the register keeps, and 0 for the bit of a peer entry that a 1 clears (log 43). -/
def DevReg.around (r : DevReg) (old : Nat) : Word := BitVec.ofNat 64 old &&& (match r with | .peer _ 0 => 0xFFFFFFFFFFFFFFFD | _ => 0xFFFFFFFFFFFFFFFF)

theorem getLsbD_byte (v : Word) {j : Nat} : v.getLsbD j = (v.extractLsb' (8 * (j / 8)) 8).getLsbD (j % 8) := by
  rw [BitVec.getLsbD_extractLsb', Nat.div_add_mod]
  simp [Nat.mod_lt]

theorem mergeWrite_getLsbD (r : DevReg) (old pa v n : Nat) {j : Nat} (hj : j < 64) : (mergeWrite r old pa v n).getLsbD j =
    if 8 * (pa % 8) ≤ j ∧ j < 8 * (pa % 8) + 8 * n then v.testBit (j - 8 * (pa % 8)) else (r.around old).getLsbD j := by
  have hbase : (match r with | .peer _ 0 => (BitVec.ofNat 64 old) &&& ~~~(2#64) | _ => BitVec.ofNat 64 old) = r.around old := by
    unfold DevReg.around
    split
    · rfl
    · exact (BitVec.and_allOnes (x := BitVec.ofNat 64 old)).symm
  have hpow (k : Nat) : 256 ^ k = 2 ^ (8 * k) := (pow_mul 2 8 k).symm
  have hmask : (BitVec.ofNat 64 ((256 ^ n - 1) * 256 ^ (pa % 8))).getLsbD j = decide (8 * (pa % 8) ≤ j ∧ j < 8 * (pa % 8) + 8 * n) := by
    rw [BitVec.getLsbD_ofNat, hpow, hpow, ← Nat.shiftLeft_eq, Nat.testBit_shiftLeft, Nat.testBit_two_pow_sub_one, Bool.eq_iff_iff]
    simp only [hj, decide_true, Bool.true_and, Bool.and_eq_true, decide_eq_true_eq]
    omega
  have hval : (BitVec.ofNat 64 (v % 256 ^ n * 256 ^ (pa % 8))).getLsbD j =
      (decide (8 * (pa % 8) ≤ j ∧ j < 8 * (pa % 8) + 8 * n) && v.testBit (j - 8 * (pa % 8))) := by
    rw [BitVec.getLsbD_ofNat, hpow, hpow, ← Nat.shiftLeft_eq, Nat.testBit_shiftLeft, Nat.testBit_mod_two_pow, Bool.eq_iff_iff]
    simp only [hj, decide_true, Bool.true_and, Bool.and_eq_true, decide_eq_true_eq]
    exact ⟨fun ⟨h1, h2, h3⟩ => ⟨⟨h1, by omega⟩, h3⟩, fun ⟨⟨h1, h2⟩, h3⟩ => ⟨h1, by omega, h3⟩⟩
  rw [show mergeWrite r old pa v n = _ from congrArg (fun w : Word =>
      (w &&& ~~~BitVec.ofNat 64 ((256 ^ n - 1) * 256 ^ (pa % 8))) ||| BitVec.ofNat 64 (v % 256 ^ n * 256 ^ (pa % 8))) hbase,
    BitVec.getLsbD_or, BitVec.getLsbD_and, BitVec.getLsbD_not, hmask, hval]
  by_cases h : 8 * (pa % 8) ≤ j ∧ j < 8 * (pa % 8) + 8 * n <;> simp [h, hj]

/-- The word that a narrow store stores, byte by byte (R313; log 43). -/
theorem mergeWrite_eq {r : DevReg} {old pa n : Nat} {v x : Word} (h : ∀ i, i < 8 → x.extractLsb' (8 * i) 8 =
    if pa % 8 ≤ i ∧ i < pa % 8 + n then v.extractLsb' (8 * (i - pa % 8)) 8 else (r.around old).extractLsb' (8 * i) 8) :
    mergeWrite r old pa (v.toNat % 256 ^ n) n = x := by
  refine BitVec.eq_of_getLsbD_eq fun j hj => ?_
  rw [mergeWrite_getLsbD r old pa _ n hj, getLsbD_byte x, h (j / 8) (by omega)]
  by_cases hc : pa % 8 ≤ j / 8 ∧ j / 8 < pa % 8 + n
  · have hmod : (v.toNat % 256 ^ n).testBit (j - 8 * (pa % 8)) = v.toNat.testBit (j - 8 * (pa % 8)) := by
      rw [show 256 ^ n = 2 ^ (8 * n) from (pow_mul 2 8 n).symm, Nat.testBit_mod_two_pow, decide_eq_true (by omega), Bool.true_and]
    rw [if_pos hc, if_pos (by omega), hmod, BitVec.getLsbD_extractLsb', BitVec.testBit_toNat,
      show 8 * (j / 8 - pa % 8) + j % 8 = j - 8 * (pa % 8) by omega]
    simp [Nat.mod_lt]
  · rw [if_neg hc, if_neg (by omega), ← getLsbD_byte]

/-- A write of a register (R313). `devWrite` is unfolded as a function: where it is applied, the kernel would compute `devReg` of an open address. -/
theorem devWrite_reg {s : State} {w : Option Who} {pa n : Nat} {r : DevReg} {v x : Word} (hreg : devReg (pa / 8 * 8) = some r)
    (hx : mergeWrite r (keptWord s r) pa (v.toNat % 256 ^ n) n = x) : devWrite s w pa (v.toNat % 256 ^ n) n =
      if devDenied s w r then .bad 7 0x11 else if devHeld s r x || !s.due.isEmpty then .wait .device
      else .ok { s with due := s.due ++ devDue s r (pa / 8 * 8) x } := by
  generalize e : @devWrite = f
  delta devWrite at e
  subst e
  beta_reduce
  subst hx
  split
  · rename_i hn
    cases hreg.symm.trans hn
  · rename_i r' hr'
    cases hreg.symm.trans hr'
    rfl

/-- A write of an address that no chapter lists (R284). -/
theorem devWrite_none {s : State} {w : Option Who} {pa v n : Nat} (hreg : devReg (pa / 8 * 8) = none) : devWrite s w pa v n = .ok s := by
  generalize e : @devWrite = f
  delta devWrite at e
  subst e
  beta_reduce
  split
  · rfl
  · rename_i r' hr'
    cases hreg.symm.trans hr'

/-- A store of a part of one bank to a device register is the write of that register. -/
theorem device_store {s : State} (hf : Fresh s) (hr : s.fseat.red = none) {d a : BitVec 5} {imm : BitVec 22} {n b : Nat} {q : Spot} {i : Instr}
    (he : exec i s = scalarOp s (storeAccess n) d a imm (storeAct n)) (hact : s.active = [b]) (hv : s.vaAt a imm b < 2 ^ 56)
    (hn : s.vaAt a imm b % n = 0) (ht : translate s s.fctx .write (s.vaAt a imm b) = .ok q) (hp : q.peer = 0) (hreg : regionOf q.pa = .dev) :
    exec i s = finishSingle
      (match devWrite s (some ⟨s.focus.core, s.focus.base, b⟩) q.pa (((s.fbank b).rs d).toNat % 256 ^ n) n with
      | .ok u => (u, .ok)
      | .wait w => (s.noteBegun (s.part s.focus).begun, .wait w)
      | .bad _ k => (s, .trap k (BitVec.ofNat 64 (s.vaAt a imm b + b * 2 ^ 56)))) := by
  have hcheck : checkAccess s s.fctx s.fseat (storeAccess n) (s.vaAt a imm b) = .ok q := by
    refine checkAccess_device (x := storeAccess n) ht hv hn ?_ hp hreg rfl
    rw [undisciplined_of_task hr, Bool.and_false]
  have hclaim : claimOf s q.pa = none := by
    rw [claimOf, if_neg]
    rw [hreg]
    decide
  have hstep : storeAct n s q (s.accessAt d a imm b) = devWrite s (some ⟨s.focus.core, s.focus.base, b⟩) q.pa (((s.fbank b).rs d).toNat % 256 ^ n) n := by
    rw [storeAct, writeSpot, hclaim]
    simp only [hreg]
    rfl
  have hall : ∀ y ∈ [s.accessAt d a imm b], ∃ p, checkAccess s s.fctx s.fseat (storeAccess n) y.va = .ok p := by
    intro y hy
    obtain rfl := List.mem_singleton.1 hy
    exact ⟨q, hcheck⟩
  rw [he, scalarOp, accessesAt_of_fresh hf, hact, List.map_singleton, scalarAccess_performs hall, State.accessAll, performAll, accessOne,
    show (s.accessAt d a imm b).va = s.vaAt a imm b from rfl, hcheck]
  simp only [Res.andThen, hstep, hr]
  rw [← addrTval_of_lt hv (State.lt_of_mem_active (by rw [hact]; exact List.mem_cons_self))]
  cases devWrite s (some ⟨s.focus.core, s.focus.base, b⟩) q.pa (((s.fbank b).rs d).toNat % 256 ^ n) n <;> rfl

/-- Nothing changed but what a register's write has set off. -/
theorem around_due {s : State} (hs : Settled s) (ds : List Due) :
    Around s { ({ s with due := ds } : State).retire with due := s.due } ∧ ({ s with due := ds } : State).retire.due = ds ∧
      Proceeds s ({ s with due := ds } : State).retire ∧ OnBanks s ({ s with due := ds } : State).retire (fun _ x y => y = x) := by
  rw [retire_after (t := { s with due := ds }) hs rfl rfl]
  have ha := around_advance (s := s) (t := s) rfl (SameCores.refl s) rfl
  refine ⟨⟨rfl, fun _ => rfl, ⟨ha.cores.cores, ha.cores.seats⟩, ⟨ha.seat.seat, ha.seat.parts, ha.seat.part⟩⟩, rfl, State.part_setPart _ _ _, fun c b => ?_⟩
  rw [State.bank_setPart]
  split <;> rfl

/-- A store of a part of one bank to a register that a chapter lists. -/
theorem device_stores {s : State} (hs : Settled s) (hf : Fresh s) (hr : s.fseat.red = none) {d a : BitVec 5} {imm : BitVec 22} {n b : Nat} {q : Spot}
    {i : Instr} (he : exec i s = scalarOp s (storeAccess n) d a imm (storeAct n)) (hact : s.active = [b]) (hv : s.vaAt a imm b < 2 ^ 56)
    (hn : s.vaAt a imm b % n = 0) (ht : translate s s.fctx .write (s.vaAt a imm b) = .ok q) (hp : q.peer = 0) (hreg : regionOf q.pa = .dev) {r : DevReg}
    (hsome : devReg (q.pa / 8 * 8) = some r) {x : Word} (hx : ∀ i, i < 8 → x.extractLsb' (8 * i) 8 =
      if q.pa % 8 ≤ i ∧ i < q.pa % 8 + n then ((s.fbank b).rs d).extractLsb' (8 * (i - q.pa % 8)) 8 else (r.around (keptWord s r)).extractLsb' (8 * i) 8) :
    (devDenied s (some ⟨s.focus.core, s.focus.base, b⟩) r = true →
      exec i s = .next (s.trapSingle 0x11 (BitVec.ofNat 64 (s.vaAt a imm b + b * 2 ^ 56)))) ∧
    (devDenied s (some ⟨s.focus.core, s.focus.base, b⟩) r = false → devHeld s r x = true ∨ s.due ≠ [] → Waits i s .device) ∧
    (devDenied s (some ⟨s.focus.core, s.focus.base, b⟩) r = false → devHeld s r x = false → s.due = [] →
      ∃ t, exec i s = .next t ∧ Around s { t with due := s.due } ∧ t.due = devDue s r (q.pa / 8 * 8) x ∧ Proceeds s t ∧
        OnBanks s t (fun _ y z => z = y)) := by
  have hstore := device_store hf hr he hact hv hn ht hp hreg
  rw [devWrite_reg hsome (mergeWrite_eq hx)] at hstore
  refine ⟨fun hd => ?_, fun hd hheld => ?_, fun hd hfree hdue => ?_⟩
  · rw [if_pos hd] at hstore
    exact hstore
  · rw [if_neg (by rw [hd]; decide), if_pos (by rw [Bool.or_eq_true, Bool.not_eq_true', List.isEmpty_eq_false_iff]; exact hheld)] at hstore
    exact waits_at_start hstore
  · rw [if_neg (by rw [hd]; decide), if_neg (by rw [hfree, hdue]; decide), hdue, List.nil_append] at hstore
    exact ⟨_, hstore, around_due hs _⟩

/-- Settles O20: stores one after another leave the bytes of each; those of a replica are noted; that of a register is its write. -/
theorem storesWriteMemory : Obligations.StoresWriteMemory := by
  refine ⟨?_, ?_, ?_⟩
  · intro s d a imm pa hs hf hr hwf va stored moving
    refine ⟨fun p hp hplain => ?_, fun p hp => ?_⟩
    · have he := exec_stores (s := s) hp
      rw [scalarOp, accessesAt_of_fresh hf, scalarAccess_performs fun y hy => ?_, ← accessesAt_of_fresh hf] at he
      · exact (store_stores hs hf hr hwf hplain he fun q b h => storeAct_storesAt hr h b).1
      · obtain ⟨b, hb, rfl⟩ := List.mem_map.1 hy
        exact (check_store hr hplain b hb).imp fun _ h => h.1
    · obtain ⟨f, he⟩ := exec_releases (s := s) hp
      refine ⟨fun hm => waits_of (he.trans (storeRel_of_moving ((rowsMoving_iff s _).2 hm) _ _ _ _ _)), fun hm hplain => ?_⟩
      have he' := he.trans (storeRel_of_task (mt (rowsMoving_iff s _).1 hm) hr (fun y hy => by
        rw [accessesAt_of_fresh hf] at hy
        obtain ⟨b, hb, rfl⟩ := List.mem_map.1 hy
        exact (check_store hr hplain b hb).imp fun _ h => h.1) f)
      obtain ⟨hstores, hahead⟩ := store_stores hs hf hr hwf hplain he' fun q b h => storeRelAct_storesAt hr h b
      refine ⟨hstores, fun hne => ?_⟩
      obtain ⟨t, u, het, hq, hta⟩ := hahead hne
      exact ⟨t, het, fun y hy => hq y (hta ▸ hy)⟩
  · intro s d a imm pa r hs hf hr hwf hseat va marks covered p hp hplain
    have he := exec_stores (s := s) hp
    exact ⟨fun hcov => replica_stores hf hr he hplain hs hwf hcov, fun b hb hbad hlow => replica_store_traps hf hr he hplain hb hbad hlow⟩
  · intro s d a imm b q r x hs hf hr hact va at0 v kept who p hp hv ha hpa ht hpeer hreg
    have he := exec_stores (s := s) hp
    refine ⟨fun hnone => ?_, fun hsome hx => device_stores hs hf hr he hact hv ha ht hpeer hreg hsome hx⟩
    have hstore := device_store hf hr he hact hv ha ht hpeer hreg
    rw [devWrite_none hnone] at hstore
    exact onlyProceeds_of hs hstore

end Sys2Proof.Machine
end

section
/-! Atomics (O21): one read and one write of an aligned doubleword by each bank in turn (R150, R155). -/

namespace Sys2Proof.Machine

-- Proofs elaborated side by side each hold a thread's stack, and the whole text compiles near the memory limit of its check.
set_option Elab.async false

/-! ## Aligned doublewords -/

/-- A task's address and the place it leads to agree modulo 8 (R286-R288). -/
theorem translate_aligned {s : State} {c : Ctx} {need : Need} {va : Nat} {p : Spot} (hview : c.view = []) (h : translate s c need va = .ok p)
    (hva : va % 8 = 0) : p.pa % 8 = 0 := by
  unfold translate at h
  rw [if_neg (show ¬2 ^ 56 ≤ va from fun hc => by rw [if_pos hc] at h; cases h)] at h
  split at h
  · -- the SRAM window (R288)
    split at h
    · cases h
    · dsimp only at h
      split at h
      · cases h
      · obtain rfl := Res.ok.inj h
        rename_i hw _ _
        change (sramPa (c.core / 4) 0 + (va - windowBase)) % 8 = 0
        unfold windowBase at hw
        unfold sramPa sramBase windowBase
        omega
  split at h
  · -- the direct window
    split at h
    · cases h
    split at h
    · cases h
    · obtain rfl := Res.ok.inj h
      rename_i hd _ _
      change (va - directBase) % 8 = 0
      unfold directBase at hd
      unfold directBase
      omega
  split at h
  · -- a control core without translation (R373)
    split at h
    · cases h
    · cases h
      exact hva
  · cases hl : findLeaf s c va with
    | bad o k => rw [hl] at h; cases h
    | wait w => rw [hl] at h; cases h
    | ok r =>
      have hnone : viewOf c va = none := by rw [viewOf, hview]; rfl
      rw [hl] at h
      simp only [Res.andThen, hnone, ite_self] at h
      split at h
      · cases h
      · cases h
        simp only [ptePpn]
        split <;> omega

theorem Plain.pa_aligned {s : State} {need : Need} {va pa : Nat} (hr : s.fseat.red = none) (h : Plain s need 8 va pa) : pa % 8 = 0 := by
  obtain ⟨p, hp, rfl, -⟩ := h.spot
  exact translate_aligned (State.fctx_view hr) hp h.aligned

/-- With nothing of them taken ahead, LS reads the bytes that memory holds (R156). -/
theorem lsSees_orderByte (s : State) (pa : Nat) {n : Nat} (hn : 0 < n) :
    (s.orderByte s.focus.core s.focus.base 0 pa n).lsSees pa n = s.peek pa n := by
  refine State.sees_peek n ?_
  unfold State.aheadAt
  rw [Option.map_eq_none_iff, List.find?_eq_none]
  intro x hx hkey
  obtain ⟨-, hf⟩ := State.mem_dropAhead.1 hx
  simp only [Bool.and_eq_true, beq_iff_eq] at hkey
  obtain ⟨⟨⟨hcore, hbase⟩, hpath⟩, hgran⟩ := hkey
  have hcore' : x.core = s.focus.core := hcore
  have hbase' : x.base = s.focus.base := hbase
  have hmeets : x.meets pa n = true := by
    unfold Ahead.meets overlaps
    simp only [Bool.and_eq_true, decide_eq_true_eq]
    omega
  simp [hcore', hbase', hpath, hmeets] at hf

/-! ## One atomic -/

/-- What one atomic of a task does: its doubleword holds the new value, and its bank changes by f. -/
structure UpdatesOne (u v : State) (bank pa : Nat) (new : Word) (f : Bank → Bank) : Prop where
  accessed : Accessed u v
  same : v.peek pa 8 = new.toNat
  apart : ∀ x m, x + m ≤ pa ∨ pa + 8 ≤ x → v.peek x m = u.peek x m
  bank : ∀ c b, v.bank c b = if c = u.focus.core ∧ b = bank then f (u.bank c b) else u.bank c b
  seat : v.seat u.focus = u.seat u.focus
  note : ∀ n, v.lastAmo = some n → n.isCC = u.fseat.isCC

theorem amoFinds_of_noRace {s : State} {cc : Bool} {p : Spot} (h : ∀ n, s.lastAmo = some n → n.isCC = cc ∨ n.pa ≠ p.pa) (old : Word) :
    s.amoFinds cc p old = (old, true, s) := by
  have hnone : s.amoRace cc p = none := by
    unfold State.amoRace
    rw [Option.filter_eq_none_iff]
    intro n hn
    rcases h n hn with h | h <;> simp [h]
  rw [State.amoFinds, hnone]

/-- What the read of an atomic leaves: nothing of its doubleword is taken ahead on LS. -/
def State.afterAmoRead (s : State) (pa : Nat) : State := (s.orderByte s.focus.core s.focus.base 0 pa 8).afterRead pa 8

/-- The read takes what memory holds, and leaves memory, the seat and the banks. -/
structure AmoReads (u w : State) : Prop where
  accessed : Accessed u w
  peek : ∀ x m, w.peek x m = u.peek x m
  bank : ∀ c b, w.bank c b = u.bank c b
  seat : w.seat u.focus = u.seat u.focus
  note : w.lastAmo = u.lastAmo

theorem amoReads_afterAmoRead (u : State) (pa : Nat) : AmoReads u (u.afterAmoRead pa) := by
  have hread : OnlyRead (u.orderByte u.focus.core u.focus.base 0 pa 8) (u.afterAmoRead pa) := onlyRead_afterRead _ pa 8
  have hmem := congrArg State.mem hread.rest
  have hquads := congrArg State.quads hread.rest
  have hlast := congrArg State.lastAmo hread.rest
  exact ⟨(accessed_orderByte u _ _ _ _ _).trans hread.accessed, State.peek_congr hmem hquads, State.bank_afterRead _ pa 8, hread.seat, hlast⟩

theorem readSpot_amo {u : State} {p : Spot} (hp : PlainAt u p.pa) (hpois : u.poisoned p.pa 8 = false) :
    readSpot (u.orderByte u.focus.core u.focus.base 0 p.pa 8) p 8 = .ok (u.peek p.pa 8, u.afterAmoRead p.pa) := by
  have hu := accessed_orderByte u u.focus.core u.focus.base 0 p.pa 8
  rw [readSpot_plain (hp.of_accessed hu), hu.poisoned, hpois, if_neg Bool.false_ne_true, lsSees_orderByte u p.pa (by decide)]
  rfl

/-- The write of a doubleword by a task at plain memory. -/
theorem writeHome_of_task {u : State} (hr : u.fseat.red = none) {p : Spot} (hp : PlainAt u p.pa) (bank va : Nat) (v : Word) :
    writeHome u (u.who bank) va p v.toNat 8 = .ok (u.afterWrite (u.who bank) va p.pa v.toNat 8) ∧
      WritesOne u (u.afterWrite (u.who bank) va p.pa v.toNat 8) ⟨bank, va, v.toNat⟩ p.pa 8 := by
  have hw := writesOne_afterWrite u ⟨bank, va, v.toNat⟩ p.pa 8
  rw [show v.toNat % 256 ^ 8 = v.toNat from Nat.mod_eq_of_lt v.isLt] at hw
  rw [writeHome, viewOf_of_task hr]
  exact ⟨writeSpot_plain hp _ _ _ _, hw⟩

/-- An atomic of a task at plain, unpoisoned memory that no atomic of the other side has just changed (R155-R157). -/
theorem amoAct_updates {u : State} (hwf : Memory.wf u = true) (hr : u.fseat.red = none) {p : Spot} (hp : PlainAt u p.pa) (hpois : u.poisoned p.pa 8 = false)
    (hrace : ∀ n, u.lastAmo = some n → n.isCC = u.fseat.isCC ∨ n.pa ≠ p.pa) (op : AmoOp) (d b : BitVec 5) (a : BankAccess) {old : Word}
    (hold : BitVec.ofNat 64 (u.peek p.pa 8) = old) {new : Word × BitVec 5} (hnew : amoNew op old ((u.fbank a.bank).rs b) ((u.fbank a.bank).rs d) = new) :
    ∃ v, amoAct op d b true u p a = .ok v ∧ UpdatesOne u v a.bank p.pa new.1 (fun y => (y.ws d old).accrue new.2) := by
  obtain ⟨hw, hpeek, hbank, hseat, hnote⟩ := amoReads_afterAmoRead u p.pa
  generalize hread : u.afterAmoRead p.pa = w at hw hpeek hbank hseat hnote
  have hrw : w.fseat.red = none := by rw [fseat_of_accessed hw hseat]; exact hr
  obtain ⟨hwrite, hone⟩ := writeHome_of_task hrw (hp.of_accessed hw) a.bank a.va new.1
  have hxseat := seat_of_store hr hw hseat a.bank a.va p.pa new.1.toNat 8
  generalize w.afterWrite (w.who a.bank) a.va p.pa new.1.toNat 8 = x at hwrite hone hxseat
  let y : State := x.modBank u.focus.core a.bank (fun y => (y.ws d old).accrue new.2)
  have hy : Accessed u y := (hw.trans hone.accessed).trans (accessed_modBank x _ _ fun z => (Bank.kept_ws z d old).trans (Bank.kept_accrue _ _))
  have hyseat : y.seat u.focus = u.seat u.focus := (State.seat_modBank x _ _ _ _).trans hxseat
  have hecho : y.shareEcho old = y := by
    rw [State.shareEcho, fseat_of_accessed hy hyseat, hr]
    rfl
  have hmod : new.1.toNat % 256 ^ 8 = new.1.toNat := Nat.mod_eq_of_lt new.1.isLt
  refine ⟨y.noteAmo u.fseat.isCC p old new.1, ?_, hy.trans (accessed_note y _ _), ?_, fun z m hz => ?_, fun c k => ?_, hyseat, fun n hn => ?_⟩
  · have hwho : u.who a.bank = w.who a.bank := by rw [State.who, State.who, hw.focus]
    rw [amoAct, if_pos rfl]
    dsimp only
    rw [homeSpot, viewOf_of_task hr]
    dsimp only
    rw [readSpot_amo hp hpois, hread]
    dsimp only [Res.andThen]
    rw [amoFinds_of_noRace (by rw [hnote]; exact hrace)]
    dsimp only
    rw [hold, hnew, if_pos rfl, hwho, hwrite]
    dsimp only [Res.andThen]
    rw [hecho]
  · change x.peek p.pa 8 = _
    rw [hone.peek, State.peek_poke (hw.wf hwf), Nat.mod_mod]
    exact hmod
  · change x.peek z m = _
    rw [hone.peek, State.peek_poke_apart (hw.wf hwf) _ hz, hpeek]
  · change y.bank c k = _
    rw [State.bank_modBank, hone.bank, hbank]
  · cases hn
    rfl

/-! ## Atomics one after another (R150) -/

/-- What the atomics of the banks xs have left: `old k` is what bank k found. -/
structure UpdatedSoFar (s : State) (d : BitVec 5) (pa : Nat → Nat) (upd : Nat → Word → Word × BitVec 5) (old : Nat → Word) (xs : List Nat) (u : State) :
    Prop where
  accessed : Accessed s u
  seat : u.seat s.focus = s.seat s.focus
  note : ∀ n, u.lastAmo = some n → n.isCC = s.fseat.isCC ∨ s.lastAmo = some n
  bank : ∀ c b, u.bank c b = if c = s.focus.core ∧ b ∈ xs then ((s.bank c b).ws d (old b)).accrue (upd b (old b)).2 else s.bank c b
  first : ∀ b ∈ xs, (∀ c ∈ xs, c < b → pa c ≠ pa b) → old b = BitVec.ofNat 64 (s.peek (pa b) 8)
  next : ∀ c ∈ xs, ∀ b ∈ xs, c < b → pa c = pa b → (∀ e ∈ xs, c < e → e < b → pa e ≠ pa b) → old b = (upd c (old c)).1
  last : ∀ b ∈ xs, (∀ c ∈ xs, b < c → pa c ≠ pa b) → u.peek (pa b) 8 = (upd b (old b)).1.toNat
  apart : ∀ a m, (∀ b ∈ xs, a + m ≤ pa b ∨ pa b + 8 ≤ a) → u.peek a m = s.peek a m

theorem updatedSoFar_nil (s : State) (d : BitVec 5) (pa : Nat → Nat) (upd : Nat → Word → Word × BitVec 5) : UpdatedSoFar s d pa upd (fun _ => 0) [] s where
  accessed := Accessed.refl s
  seat := rfl
  note _ h := .inr h
  bank c b := by rw [if_neg fun h => List.not_mem_nil h.2]
  first := nofun
  next := nofun
  last := nofun
  apart _ _ _ := rfl

/-- The atomic of one more bank, higher than those before: it finds what memory holds. -/
theorem UpdatedSoFar.step {s u v : State} {d : BitVec 5} {pa : Nat → Nat} {upd : Nat → Word → Word × BitVec 5} {old : Nat → Word} {xs : List Nat} {k : Nat}
    (h : UpdatedSoFar s d pa upd old xs u) (hk : ∀ b ∈ xs, b < k) (hpa : ∀ b ∈ xs ++ [k], pa b % 8 = 0)
    (hv : UpdatesOne u v k (pa k) (upd k (BitVec.ofNat 64 (u.peek (pa k) 8))).1
      (fun y => (y.ws d (BitVec.ofNat 64 (u.peek (pa k) 8))).accrue (upd k (BitVec.ofNat 64 (u.peek (pa k) 8))).2)) :
    UpdatedSoFar s d pa upd (Function.update old k (BitVec.ofNat 64 (u.peek (pa k) 8))) (xs ++ [k]) v := by
  generalize hw : BitVec.ofNat 64 (u.peek (pa k) 8) = w at hv
  have hkk : k ∈ xs ++ [k] := by simp
  have hmem {b : Nat} (hb : b ∈ xs) : b ∈ xs ++ [k] := List.mem_append_left _ hb
  have hcases {b : Nat} (hb : b ∈ xs ++ [k]) : b ∈ xs ∨ b = k := by simpa using hb
  have hold : Function.update old k w k = w := Function.update_self k w old
  have hold' {b : Nat} (hb : b ∈ xs) : Function.update old k w b = old b := Function.update_of_ne (hk b hb).ne w old
  have hapart {b : Nat} (hb : b ∈ xs) (hne : pa b ≠ pa k) : pa b + 8 ≤ pa k ∨ pa k + 8 ≤ pa b := by
    have h1 := hpa b (hmem hb)
    have h2 := hpa k hkk
    omega
  refine ⟨h.accessed.trans hv.accessed, ?_, fun n hn => ?_, fun c b => ?_, fun b hb hall => ?_,
    fun c hc b hb hlt he hno => ?_, fun b hb hall => ?_, fun a m ha => ?_⟩
  · have hs := hv.seat
    rw [h.accessed.focus] at hs
    exact hs.trans h.seat
  · exact .inl ((hv.note n hn).trans h.accessed.isCC)
  · rw [hv.bank, h.bank, h.accessed.focus]
    by_cases hc : c = s.focus.core
    · rcases eq_or_ne b k with rfl | hne
      · have hnot : b ∉ xs := fun hb => (hk b hb).false
        rw [if_pos ⟨hc, rfl⟩, if_neg fun h => hnot h.2, if_pos ⟨hc, hkk⟩, hold]
      · rw [if_neg fun h => hne h.2, Function.update_of_ne hne]
        simp [hne]
    · rw [if_neg fun h => hc h.1, if_neg fun h => hc h.1, if_neg fun h => hc h.1]
  · rcases hcases hb with hb | rfl
    · rw [hold' hb]
      exact h.first b hb fun c hc => hall c (hmem hc)
    · rw [hold, ← hw, h.apart (pa b) 8 fun c hc => ?_]
      have := hapart hc (hall c (hmem hc) (hk c hc))
      omega
  · rcases hcases hb with hbx | rfl
    · rcases hcases hc with hcx | rfl
      · rw [hold' hbx, hold' hcx]
        exact h.next c hcx b hbx hlt he fun e hem => hno e (hmem hem)
      · exact absurd hlt (hk b hbx).not_gt
    · rcases hcases hc with hc | rfl
      · rw [hold, hold' hc, ← hw, ← he, h.last c hc fun e hem hce => ?_, BitVec.ofNat_toNat, BitVec.setWidth_eq]
        rw [he]
        exact hno e (hmem hem) hce (hk e hem)
      · exact absurd hlt (lt_irrefl _)
  · rcases hcases hb with hb | rfl
    · rw [hold' hb, hv.apart _ _ (hapart hb fun he => hall k hkk (hk b hb) he.symm)]
      exact h.last b hb fun c hc => hall c (hmem hc)
    · rw [hold]
      exact hv.same
  · rw [hv.apart a m (ha k hkk)]
    exact h.apart a m fun b hb => ha b (hmem hb)

/-! ## The atomics of a task -/

theorem amoNew_add (old b e : Word) : amoNew .add old b e = (BitVec.ofNat 64 (old.toNat + b.toNat), 0) := by
  rw [amoNew, BitVec.ofNat_add, BitVec.ofNat_toNat, BitVec.ofNat_toNat, BitVec.setWidth_eq, BitVec.setWidth_eq]

theorem amoNew_min (old b e : Word) : amoNew .min old b e = (BitVec.ofInt 64 (min old.toInt b.toInt), 0) := by
  rw [amoNew, BitVec.slt_eq_decide, min_def]
  by_cases h : old.toInt < b.toInt
  · rw [if_pos (decide_eq_true h), if_pos h.le, BitVec.ofInt_toInt]
  · rw [if_neg (by simpa using h)]
    split
    · rw [le_antisymm ‹_› (not_lt.1 h), BitVec.ofInt_toInt]
    · rw [BitVec.ofInt_toInt]

theorem amoNew_max (old b e : Word) : amoNew .max old b e = (BitVec.ofInt 64 (max old.toInt b.toInt), 0) := by
  rw [amoNew, BitVec.slt_eq_decide, max_def]
  by_cases h : old.toInt < b.toInt
  · rw [if_pos (decide_eq_true h), if_pos h.le, BitVec.ofInt_toInt]
  · rw [if_neg (by simpa using h)]
    split
    · rw [← le_antisymm ‹_› (not_lt.1 h), BitVec.ofInt_toInt]
    · rw [BitVec.ofInt_toInt]

theorem amoNew_minu (old b e : Word) : amoNew .minu old b e = (BitVec.ofNat 64 (min old.toNat b.toNat), 0) := by
  rw [amoNew, BitVec.ult_eq_decide, min_def]
  by_cases h : old.toNat < b.toNat
  · rw [if_pos (decide_eq_true h), if_pos h.le, BitVec.ofNat_toNat, BitVec.setWidth_eq]
  · rw [if_neg (by simpa using h)]
    split
    · rw [le_antisymm ‹_› (not_lt.1 h), BitVec.ofNat_toNat, BitVec.setWidth_eq]
    · rw [BitVec.ofNat_toNat, BitVec.setWidth_eq]

theorem amoNew_maxu (old b e : Word) : amoNew .maxu old b e = (BitVec.ofNat 64 (max old.toNat b.toNat), 0) := by
  rw [amoNew, BitVec.ult_eq_decide, max_def]
  by_cases h : old.toNat < b.toNat
  · rw [if_pos (decide_eq_true h), if_pos h.le, BitVec.ofNat_toNat, BitVec.setWidth_eq]
  · rw [if_neg (by simpa using h)]
    split
    · rw [← le_antisymm ‹_› (not_lt.1 h), BitVec.ofNat_toNat, BitVec.setWidth_eq]
    · rw [BitVec.ofNat_toNat, BitVec.setWidth_eq]

/-- A bank's atomic as an access. -/
def State.amoAccessAt (s : State) (a : BitVec 5) (k : Nat) : BankAccess := ⟨k, ((s.fbank k).rs a).toNat, 0⟩

section
variable {s : State} (hs : Settled s) (hf : Fresh s) (hr : s.fseat.red = none) (hwf : Memory.wf s = true) {d a b : BitVec 5} {pa : Nat → Nat}
  (hlast : ∀ n, s.lastAmo = some n → n.isCC = s.fseat.isCC ∨ ∀ k ∈ s.active, n.pa ≠ pa k)
  (hplain : ∀ k ∈ s.active, Plain s .write 8 ((s.fbank k).rs a).toNat (pa k) ∧ s.poisoned (pa k) 8 = false)
include hr hplain

omit hr in
theorem check_amo {k : Nat} (hk : k ∈ s.active) : ∃ p, checkAccess s s.fctx s.fseat amoAccess (s.amoAccessAt a k).va = .ok p ∧ p.pa = pa k :=
  checkAccess_plain (x := amoAccess) (hplain k hk).1 rfl nofun

include hs hf hwf hlast

omit hs hf in
/-- The atomic of the next bank. -/
theorem amo_step (op : AmoOp) {upd : Nat → Word → Word × BitVec 5}
    (hupd : ∀ k old, amoNew op old ((s.fbank k).rs b) ((s.fbank k).rs d) = upd k old) {xs ys : List Nat} {k : Nat} (hact : xs ++ k :: ys = s.active)
    {old : Nat → Word} {u : State} (h : UpdatedSoFar s d pa upd old xs u) :
    ∃ p v, checkAccess s s.fctx s.fseat amoAccess (s.amoAccessAt a k).va = .ok p ∧ amoAct op d b true u p (s.amoAccessAt a k) = .ok v ∧
      ∃ old', UpdatedSoFar s d pa upd old' (xs ++ [k]) v := by
  have hsorted := s.active_sorted
  rw [← hact, List.pairwise_append] at hsorted
  have hlt : ∀ c ∈ xs, c < k := fun c hc => hsorted.2.2 c hc k List.mem_cons_self
  have hmem {c : Nat} (hc : c ∈ xs ++ [k]) : c ∈ s.active := by
    rw [← hact, List.append_cons]
    exact List.mem_append_left _ hc
  have hk : k ∈ s.active := hmem (by simp)
  obtain ⟨hplaink, hpois⟩ := hplain k hk
  obtain ⟨p, hp, hpa⟩ := check_amo hplain hk
  have hfseat : u.fseat = s.fseat := fseat_of_accessed h.accessed h.seat
  have hbank : u.fbank k = s.fbank k := by
    rw [State.fbank, h.accessed.focus, h.bank, if_neg fun h => (hlt k h.2).false]
    rfl
  have hrace : ∀ n, u.lastAmo = some n → n.isCC = u.fseat.isCC ∨ n.pa ≠ p.pa := fun n hn => by
    rw [hfseat, hpa]
    rcases h.note n hn with h | h
    · exact .inl h
    · exact (hlast n h).imp_right fun h => h k hk
  obtain ⟨v, hv, hone⟩ := amoAct_updates (h.accessed.wf hwf) (by rw [hfseat]; exact hr) ((hpa ▸ hplaink.plainAt : PlainAt s p.pa).of_accessed h.accessed)
    (by rw [h.accessed.poisoned, hpa]; exact hpois) hrace op d b (s.amoAccessAt a k) rfl rfl
  rw [show (s.amoAccessAt a k).bank = k from rfl, hbank, hpa, hupd] at hone
  exact ⟨p, v, hp, hv, _, h.step hlt (fun c hc => (hplain c (hmem hc)).1.pa_aligned hr) hone⟩

/-- What an atomic does, from the new value that its operation gives. -/
theorem atomic_updates (op : AmoOp) {i : Instr} (he : exec i s = atomic s op d a b) {f : Word → Word → Word → Word × BitVec 5}
    (hop : ∀ old x e, amoNew op old x e = f old x e) : Updates i s d pa (fun k old => f old ((s.fbank k).rs b) ((s.fbank k).rs d)) := by
  let upd : Nat → Word → Word × BitVec 5 := fun k old => f old ((s.fbank k).rs b) ((s.fbank k).rs d)
  have hinj : Function.Injective (s.amoAccessAt a) := fun m n hmn => congrArg BankAccess.bank hmn
  obtain ⟨u, hu, xs, old, hxs, hsofar⟩ := performAll_all (s0 := s) (c := s.fctx) (t := s.fseat) (x := amoAccess) (act := amoAct op d b true)
    (P := fun done u => ∃ xs old, done = xs.map (s.amoAccessAt a) ∧ UpdatedSoFar s d pa upd old xs u) (s := s)
    ⟨[], _, rfl, updatedSoFar_nil s d pa upd⟩ (as := s.active.map (s.amoAccessAt a)) (fun done y rest u hsplit hP => by
      obtain ⟨xs, old, rfl, hsofar⟩ := hP
      obtain ⟨xs', ys', hact, hxs', hys'⟩ := List.map_eq_append_iff.1 hsplit.symm
      obtain ⟨k, zs, rfl, rfl, -⟩ := List.map_eq_cons_iff.1 hys'
      obtain rfl := List.map_injective_iff.2 hinj hxs'
      obtain ⟨p, v, hp, hv, old', hsofar'⟩ := amo_step hr hwf hlast hplain op (fun _ _ => hop _ _ _) hact.symm hsofar
      exact ⟨p, v, hp, hv, xs' ++ [k], old', by rw [List.map_append, List.map_singleton], hsofar'⟩) (s.part s.focus).begun
  obtain rfl := List.map_injective_iff.2 hinj hxs
  have has : amoAccesses s a = s.active.map (s.amoAccessAt a) := by
    rw [amoAccesses, State.restBanks_of_fresh hf]
    rfl
  have hend : exec i s = .next u.retire := by
    rw [he, atomic, has, checkAll_ok fun y hy => by
      obtain ⟨k, hk, rfl⟩ := List.mem_map.1 hy
      exact (check_amo hplain hk).imp fun _ h => h.1]
    dsimp only
    rw [withRelease, hr]
    dsimp only
    rw [State.accessAll, hu]
    rfl
  have ha := aroundStores_of hs hsofar.accessed hsofar.seat
  rw [hsofar.accessed.retire hs] at hend ha
  refine ⟨_, old, hend, ha, State.part_setPart _ _ _, fun c k => ?_, hsofar.first, hsofar.next, hsofar.last,
    fun x hx => hsofar.apart x 1 fun k hk => by have := hx k hk; omega⟩
  rw [State.bank_setPart, hsofar.bank]
  split
  · exact regAndFlags_ws d (old k, (upd k (old k)).2) _
  · rfl

end

/-- Settles O21: the banks' atomics one after another, each finding what memory holds. -/
theorem atomicsReadAndWriteOnce : Obligations.AtomicsReadAndWriteOnce := by
  intro s d a b pa hs hf hr hwf hlast hplain does plain
  have h (op : AmoOp) {i : Instr} (he : exec i s = atomic s op d a b) {f : Word → Word → Word → Word × BitVec 5}
      (hop : ∀ old x e, amoNew op old x e = f old x e) : does i f := atomic_updates hs hf hr hwf hlast hplain op he hop
  exact ⟨h .add rfl amoNew_add, h .and rfl fun _ _ _ => rfl, h .or rfl fun _ _ _ => rfl, h .xor rfl fun _ _ _ => rfl, h .min rfl amoNew_min,
    h .max rfl amoNew_max, h .minu rfl amoNew_minu, h .maxu rfl amoNew_maxu, h .swap rfl fun _ _ _ => rfl, h .fadd rfl fun _ _ _ => rfl,
    h .cas rfl fun _ _ _ => rfl⟩

end Sys2Proof.Machine
end

section
/-! push and pop (O22): the slots of every bank, their checks, and the accesses one slot after another (R154). -/

namespace Sys2Proof.Machine

-- Proofs elaborated side by side each hold a thread's stack, and the whole text compiles near the memory limit of its check.
set_option Elab.async false

/-! ## Slots -/

/-- The address of slot i above a base. -/
def slotVa (base : Word) (i : Nat) : Nat := (BitVec.ofNat 64 (base.toNat + 8 * i)).toNat

/-- A slot of the range of n registers lies outside the quad scratch window (R288). -/
def OutsideWindow (base : Word) (n : Nat) : Prop := ∃ i, i < n ∧ (slotVa base i < windowBase ∨ 2 ^ 56 ≤ slotVa base i)

theorem add_slot (base : Word) (i : Nat) : (base + BitVec.ofNat 64 (8 * i)).toNat = slotVa base i := by
  rw [slotVa, BitVec.ofNat_add, BitVec.ofNat_toNat, BitVec.setWidth_eq]

theorem slotsInWindow_iff (base : Word) (n : Nat) : slotsInWindow base n = true ↔ ¬OutsideWindow base n := by
  unfold slotsInWindow OutsideWindow
  simp only [add_slot, List.all_eq_true, List.mem_range, Bool.and_eq_true, decide_eq_true_eq, not_exists, not_and, not_or, Nat.not_lt, Nat.not_le]

/-- Slots inside the window do not wrap. -/
theorem slotVa_inside {base : Word} {n i : Nat} (h : ¬OutsideWindow base n) (hi : i < n) (hn : n ≤ 32) : slotVa base i = base.toNat + 8 * i := by
  have h0 : base.toNat < 2 ^ 56 := by
    by_contra hc
    refine h ⟨0, by omega, .inr ?_⟩
    rw [slotVa, Nat.mul_zero, Nat.add_zero, BitVec.ofNat_toNat, BitVec.setWidth_eq]
    exact Nat.not_lt.1 hc
  rw [slotVa, BitVec.toNat_ofNat, Nat.mod_eq_of_lt (by omega)]

theorem sub_slots (base : Word) (n : Nat) : base - BitVec.ofNat 64 (8 * n) = BitVec.ofInt 64 ((base.toNat : Int) - 8 * n) := by
  rw [show (8 * n : Int) = (8 * n : Nat) by push_cast; rfl, Int.sub_eq_add_neg, BitVec.ofInt_add, BitVec.ofInt_neg,
    BitVec.ofInt_natCast, BitVec.ofInt_natCast, BitVec.ofNat_toNat, BitVec.setWidth_eq, BitVec.sub_eq_add_neg]

theorem add_eq_ofNat (x : Word) (m : Nat) : x + BitVec.ofNat 64 m = BitVec.ofNat 64 (x.toNat + m) := by
  rw [BitVec.ofNat_add, BitVec.ofNat_toNat, BitVec.setWidth_eq]

/-- The access of register A + i of bank k. -/
def State.slotAt (s : State) (isPush : Bool) (a n k i : Nat) : BankAccess :=
  ⟨k, slotVa (stackBase isPush n (s.fbank k)) i, ((s.fbank k).rs (BitVec.ofNat 5 (a + i))).toNat⟩

/-- The accesses of all slots: bank after bank, slot after slot. -/
def State.slots (s : State) (isPush : Bool) (a n : Nat) : List BankAccess := s.active.flatMap (fun k => (List.range n).map (s.slotAt isPush a n k))

theorem mem_slots {s : State} {isPush : Bool} {a n : Nat} {y : BankAccess} :
    y ∈ s.slots isPush a n ↔ ∃ k ∈ s.active, ∃ i, i < n ∧ s.slotAt isPush a n k i = y := by
  simp [State.slots]

/-! ## The cases of push and pop -/

theorem firstBank_lowest {s : State} {f : Bank → Bool} {k : Nat} (hk : k ∈ s.active) (h : f (s.fbank k) = true)
    (hlow : ∀ j ∈ s.active, j < k → f (s.fbank j) = false) :
    firstBank s f = some (s.fbank k) := by
  obtain ⟨xs, ys, he, hxs, -⟩ := State.active_split hk
  rw [firstBank, he, List.map_append, List.map_cons, List.find?_eq_some_iff_append]
  refine ⟨h, _, _, rfl, fun y hy => ?_⟩
  obtain ⟨j, hj, rfl⟩ := List.mem_map.1 hy
  rw [hlow j (hxs j hj).1 (hxs j hj).2]
  rfl

theorem firstBank_none {s : State} {f : Bank → Bool} (h : ∀ j ∈ s.active, f (s.fbank j) = false) : firstBank s f = none := by
  rw [firstBank, List.find?_eq_none]
  intro y hy
  obtain ⟨j, hj, rfl⟩ := List.mem_map.1 hy
  rw [h j hj]
  exact Bool.false_ne_true

/-- How push and pop end after their accesses (R154): complete, hsp moves; a trap leaves all as it was. -/
def stackEnd (s : State) (isPush : Bool) (n : Nat) (r : State × Done) : Host.Outcome State Fault Refusal :=
  match r.2 with
  | .ok => .next ((r.1.onActive (fun k x => { x with hsp := hspAfter isPush n (s.fbank k) })).retire)
  | .trap c v => .next (s.trapSingle c v)
  | .wait w => .next (r.1.waitOn w)

section
variable {s : State} {isPush : Bool} {a b : BitVec 5} {k : Nat}

/-- hsp is no multiple of 8 in some bank. -/
theorem stackOp_odd (hk : k ∈ s.active) (hodd : (s.fbank k).hsp.toNat % 8 ≠ 0) (hlow : ∀ j ∈ s.active, j < k → ¬(s.fbank j).hsp.toNat % 8 ≠ 0) :
    stackOp s isPush a b = .next (s.trapSingle 0x12 (s.fbank k).hsp) := by
  unfold stackOp
  rw [firstBank_lowest hk (by simpa using hodd) fun j hj hlt => by simpa using hlow j hj hlt]

variable (heven : ∀ j ∈ s.active, ¬(s.fbank j).hsp.toNat % 8 ≠ 0)
include heven

/-- A slot of some bank lies outside the window. -/
theorem stackOp_outside (hk : k ∈ s.active) (hout : OutsideWindow (stackBase isPush (b.toNat - a.toNat + 1) (s.fbank k)) (b.toNat - a.toNat + 1))
    (hlow : ∀ j ∈ s.active, j < k → ¬OutsideWindow (stackBase isPush (b.toNat - a.toNat + 1) (s.fbank j)) (b.toNat - a.toNat + 1)) :
    stackOp s isPush a b = .next (s.trapSingle 0x13 (s.fbank k).hsp) := by
  unfold stackOp
  rw [firstBank_none fun j hj => by simpa using heven j hj]
  dsimp only
  rw [firstBank_lowest (f := fun x => !slotsInWindow (stackBase isPush (b.toNat - a.toNat + 1) x) (b.toNat - a.toNat + 1)) hk]
  · rw [Bool.not_eq_true', ← Bool.not_eq_true, slotsInWindow_iff, not_not]
    exact hout
  · intro j hj hlt
    rw [Bool.not_eq_false', slotsInWindow_iff]
    exact hlow j hj hlt

theorem stackOp_inside (hin : ∀ j ∈ s.active, ¬OutsideWindow (stackBase isPush (b.toNat - a.toNat + 1) (s.fbank j)) (b.toNat - a.toNat + 1)) :
    stackOp s isPush a b = stackEnd s isPush (b.toNat - a.toNat + 1)
      (if isPush then scalarAccess s s.fctx s.fseat pushAccess (s.slots isPush a.toNat (b.toNat - a.toNat + 1)) (storeAct 8)
      else scalarAccess s s.fctx s.fseat popAccess (s.slots isPush a.toNat (b.toNat - a.toNat + 1)) (popAct s a.toNat)) := by
  have hslots : s.active.flatMap (fun k => stackSlots (s.fbank k) k (stackBase isPush (b.toNat - a.toNat + 1) (s.fbank k)) a.toNat (b.toNat - a.toNat + 1)) =
      s.slots isPush a.toNat (b.toNat - a.toNat + 1) := by
    unfold State.slots stackSlots State.slotAt
    simp only [add_slot]
  unfold stackOp
  rw [firstBank_none fun j hj => by simpa using heven j hj]
  dsimp only
  rw [firstBank_none (f := fun x => !slotsInWindow (stackBase isPush (b.toNat - a.toNat + 1) x) (b.toNat - a.toNat + 1)) fun j hj => by
    rw [Bool.not_eq_false', slotsInWindow_iff]
    exact hin j hj]
  dsimp only
  rw [hslots]
  rfl

end

/-! ## Slots in a bank that is not the seat's own (R154) -/

/-- What a stack access asks of its page. -/
def StackForm (x : Access) (need : Need) : Prop := x = pushAccess ∧ need = .write ∨ x = popAccess ∧ need = .read

section
variable {s : State} (hr : s.fseat.red = none) {x : Access} {need : Need} (hx : StackForm x need) {va pa : Nat} (h : Plain s need 8 va pa)
include hr hx h

theorem checkAccess_stack (hown : ownSram s.fseat s.focus.core pa = true) : ∃ p, checkAccess s s.fctx s.fseat x va = .ok p ∧ p.pa = pa := by
  rcases hx with ⟨rfl, rfl⟩ | ⟨rfl, rfl⟩
  · refine checkAccess_plain (x := pushAccess) h ?_ fun _ => hown
    rw [undisciplined_of_task hr]
    rfl
  · exact checkAccess_plain (x := popAccess) h rfl fun _ => hown

/-- Check 6 of a stack access. -/
theorem checkAccess_stray (hsram : regionOf pa = .sram) (hown : ¬ownSram s.fseat s.focus.core pa = true) : checkAccess s s.fctx s.fseat x va = .bad 6 0x13 := by
  obtain ⟨p, hp, rfl, hpeer⟩ := h.spot
  have hbusy : (s.sram (sramQuad p.pa) (sramBankNo p.pa)).busy = false := by
    rcases h.memory with hm | hm | hm
    · rw [hm] at hsram; cases hsram
    · rw [hm] at hsram; cases hsram
    · exact hm.2.1
  have hn : x.n = 8 ∧ x.stack = true ∧ (if x.write then Need.write else .read) = need := by
    rcases hx with ⟨rfl, rfl⟩ | ⟨rfl, rfl⟩ <;> exact ⟨rfl, rfl, rfl⟩
  obtain ⟨hn, hstack, hneed⟩ := hn
  rw [checkAccess, if_neg (Nat.not_le.2 h.canonical), hn, if_neg (not_not.2 h.aligned), hneed, hp]
  simp only [Res.andThen]
  rw [undisciplined_of_task hr, Bool.and_false, if_neg Bool.false_ne_true, if_neg (not_not.2 hpeer), h.awake, if_neg Bool.false_ne_true, if_pos hsram, hbusy,
    if_neg Bool.false_ne_true, if_pos]
  rw [hstack, show ownSram s.fseat s.fctx.core p.pa = false from Bool.eq_false_iff.2 hown]
  simp

end

/-- The first slot that is not in a bank of the seat's own decides. -/
theorem stack_strays {s : State} (hr : s.fseat.red = none) {x : Access} {need : Need} (hx : StackForm x need) {isPush : Bool} {a n : Nat} {pa : Nat → Nat → Nat}
    (h : ∀ k ∈ s.active, ∀ i, i < n → Plain s need 8 (slotVa (stackBase isPush n (s.fbank k)) i) (pa k i) ∧ regionOf (pa k i) = .sram) {k i : Nat}
    (hk : k ∈ s.active) (hlow : ∀ j ∈ s.active, j < k → ¬∃ x, x < n ∧ ¬ownSram s.fseat s.focus.core (pa j x) = true) (hi : i < n)
    (hstray : ¬ownSram s.fseat s.focus.core (pa k i) = true) (hbefore : ∀ j, j < i → ownSram s.fseat s.focus.core (pa k j) = true)
    (act : State → Spot → BankAccess → Res State) :
    scalarAccess s s.fctx s.fseat x (s.slots isPush a n) act =
      (s, .trap 0x13 (BitVec.ofNat 64 (slotVa (stackBase isPush n (s.fbank k)) i + k * 2 ^ 56))) := by
  have hbad {j m : Nat} (hj : j ∈ s.active) (hm : m < n) {o : Nat} {c : BitVec 8} (hb : checkAccess s s.fctx s.fseat x (s.slotAt isPush a n j m).va = .bad o c) :
      ¬ownSram s.fseat s.focus.core (pa j m) = true ∧ 6 ≤ o := by
    obtain ⟨hplain, hsram⟩ := h j hj m hm
    by_cases hown : ownSram s.fseat s.focus.core (pa j m) = true
    · obtain ⟨p, hp, -⟩ := checkAccess_stack hr hx hplain hown
      cases hp.symm.trans hb
    · cases (checkAccess_stray hr hx hplain hsram hown).symm.trans hb
      exact ⟨hown, le_rfl⟩
  obtain ⟨xs, ys, hact, hxs, hys⟩ := State.active_split hk
  have hrange : List.range n = List.range i ++ i :: (List.range (n - i - 1)).map (i + 1 + ·) := by
    conv_lhs => rw [show n = i + 1 + (n - i - 1) by omega, List.range_add, List.range_succ, List.append_assoc]
    rfl
  rw [← addrTval_of_lt (h k hk i hi).1.canonical (State.lt_of_mem_active hk)]
  refine scalarAccess_trap (o := 6) ?_ act
  have hsplit : s.slots isPush a n = (xs.flatMap (fun j => (List.range n).map (s.slotAt isPush a n j)) ++ (List.range i).map (s.slotAt isPush a n k)) ++
      s.slotAt isPush a n k i :: (((List.range (n - i - 1)).map (i + 1 + ·)).map (s.slotAt isPush a n k) ++
        ys.flatMap (fun j => (List.range n).map (s.slotAt isPush a n j))) := by
    rw [State.slots, hact, List.flatMap_append, List.flatMap_cons]
    conv_lhs => rw [show (List.range n).map (s.slotAt isPush a n k) = _ from congrArg (List.map (s.slotAt isPush a n k)) hrange]
    simp only [List.map_append, List.map_cons, List.append_assoc, List.cons_append]
  rw [hsplit]
  refine checkAll_bad (checkAccess_stray hr hx (h k hk i hi).1 (h k hk i hi).2 hstray) ?_ ?_ (fun y hy => by cases hy) none
  · intro y hy o' c hb
    exfalso
    rcases List.mem_append.1 hy with hy | hy
    · obtain ⟨j, hj, hy⟩ := List.mem_flatMap.1 hy
      obtain ⟨m, hm, rfl⟩ := List.mem_map.1 hy
      exact hlow j (hxs j hj).1 (hxs j hj).2 ⟨m, List.mem_range.1 hm, (hbad (hxs j hj).1 (List.mem_range.1 hm) hb).1⟩
    · obtain ⟨m, hm, rfl⟩ := List.mem_map.1 hy
      have hm' := List.mem_range.1 hm
      exact (hbad hk (hm'.trans hi) hb).1 (hbefore m hm')
  · intro y hy o' c hb
    have hmem : y ∈ s.slots isPush a n := by
      rw [hsplit]
      exact List.mem_append_right _ (List.mem_cons_of_mem _ hy)
    obtain ⟨j, hj, m, hm, rfl⟩ := mem_slots.1 hmem
    exact (hbad hj hm hb).2

/-! ## The accesses -/

theorem Accessed.active {s t : State} (h : Accessed s t) : t.active = s.active := by
  have hp : (t.part t.focus).active = (s.part s.focus).active := congrArg Part.active h.fpart
  unfold State.active
  rw [hp]

/-- A pushed bank's hsp moves when all its slots are stored (R154). -/
theorem push_stores {s : State} (hs : Settled s) (hr : s.fseat.red = none) (hwf : Memory.wf s = true) {i : Instr} {a n : Nat} {pa : Nat → Nat → Nat}
    (he : exec i s = stackEnd s true n (scalarAccess s s.fctx s.fseat pushAccess (s.slots true a n) (storeAct 8)))
    (h : ∀ k ∈ s.active, ∀ j, j < n → Plain s .write 8 (slotVa (stackBase true n (s.fbank k)) j) (pa k j) ∧ ownSram s.fseat s.focus.core (pa k j) = true) :
    StoresTo i s 8 (s.active.flatMap (fun k => (List.range n).map (fun j => (k, pa k j, ((s.fbank k).rs (BitVec.ofNat 5 (a + j))).toNat))))
      (fun k x y => y = { x with hsp := hspAfter true n (s.fbank k) }) := by
  have hall : ∀ y ∈ s.slots true a n, ∃ p, checkAccess s s.fctx s.fseat pushAccess y.va = .ok p ∧
      StoresAt s pushAccess (storeAct 8) p y (fun _ => True) := by
    intro y hy
    obtain ⟨k, hk, j, hj, rfl⟩ := mem_slots.1 hy
    obtain ⟨hplain, hown⟩ := h k hk j hj
    obtain ⟨p, hp, hpa⟩ := checkAccess_stack hr (.inl ⟨rfl, rfl⟩) hplain hown
    exact ⟨p, hp, storeAct_storesAt (x := pushAccess) hr (hpa ▸ hplain.plainAt) _⟩
  obtain ⟨u, hu, hsofar, hseat, -⟩ := performAll_stores hwf hall (s.part s.focus).begun
  let f : Nat → Bank → Bank := fun k x => { x with hsp := hspAfter true n (s.fbank k) }
  let t : State := u.onActive f
  rw [scalarAccess_performs fun y hy => (hall y hy).imp fun _ h => h.1, State.accessAll, hu] at he
  have hend : exec i s = .next t.retire := he
  have ht : Accessed s t := hsofar.accessed.trans (accessed_onActive u fun _ _ => rfl)
  have hentries : (s.slots true a n).map (storeEntry s pushAccess) =
      s.active.flatMap (fun k => (List.range n).map (fun j => (k, pa k j, ((s.fbank k).rs (BitVec.ofNat 5 (a + j))).toNat))) := by
    rw [State.slots, List.map_flatMap]
    refine List.flatMap_congr fun k hk => ?_
    rw [List.map_map]
    refine List.map_congr_left fun j hj => ?_
    obtain ⟨hplain, hown⟩ := h k hk j (List.mem_range.1 hj)
    obtain ⟨p, hp, hpa⟩ := checkAccess_stack hr (.inl ⟨rfl, rfl⟩) hplain hown
    rw [Function.comp_apply, storeEntry, show (s.slotAt true a n k j).va = slotVa (stackBase true n (s.fbank k)) j from rfl, spotPa_of_ok hp, hpa]
    rfl
  have hpeek (x m : Nat) : t.peek x m = u.peek x m := State.peek_congr (u.onActive_mem f) (u.onActive_quads f) x m
  obtain ⟨hother, hstored⟩ := hsofar.stored
  have hlinked := hsofar.linked
  rw [hentries] at hother hstored hlinked
  refine storesTo_of hs hend ht ((u.seat_onActive f s.focus).trans hseat) ⟨(u.onActive_lastAmo f).trans hsofar.note.1, (u.onActive_free f).trans hsofar.note.2⟩
    ⟨fun x hx => (hpeek x 1).trans (hother x hx), fun before x after hsplit hx => (hpeek _ _).trans (hstored before x after hsplit hx)⟩
    ((u.onActive_linked f).trans hlinked) (onBanks_of (f := f) (fun c b => ?_) fun _ _ => rfl)
  rw [State.bank_onActive, hsofar.accessed.active, hsofar.accessed.focus, hsofar.bank]

/-! ## The registers that a pop loads -/

/-- Registers A and up of a bank take the words w, one after another; the others stay. -/
theorem bankAfter_registers {g : BankAccess → Bank → Bank} {f : Nat → BankAccess} {k a n : Nat} (hf : ∀ i, (f i).bank = k) (ha : 1 ≤ a) (hn : a + n ≤ 32)
    {w : Nat → Word} (hg : ∀ i, i < n → ∀ y, g (f i) y = y.ws (BitVec.ofNat 5 (a + i)) (w i)) (x : Bank) :
    (∀ i, i < n → (bankAfter g ((List.range n).map f) k x).rs (BitVec.ofNat 5 (a + i)) = w i) ∧
      (∀ r : BitVec 5, (∀ i, i < n → r ≠ BitVec.ofNat 5 (a + i)) → (bankAfter g ((List.range n).map f) k x).rs r = x.rs r) ∧
      { bankAfter g ((List.range n).map f) k x with s := x.s } = x := by
  induction n with
  | zero => exact ⟨nofun, fun _ _ => rfl, rfl⟩
  | succ n ih =>
    obtain ⟨hreg, hother, hrest⟩ := ih (by omega) fun i hi => hg i (by omega)
    have hinj {i j : Nat} (hi : i ≤ n) (hj : j ≤ n) (he : BitVec.ofNat 5 (a + i) = BitVec.ofNat 5 (a + j)) : i = j := by
      have := congrArg BitVec.toNat he
      rw [BitVec.toNat_ofNat, BitVec.toNat_ofNat, Nat.mod_eq_of_lt (by omega), Nat.mod_eq_of_lt (by omega)] at this
      omega
    have hne : BitVec.ofNat 5 (a + n) ≠ 0 := fun he => by
      have := congrArg BitVec.toNat he
      rw [BitVec.toNat_ofNat, Nat.mod_eq_of_lt (by omega)] at this
      simp at this
      omega
    have hstep : bankAfter g ((List.range (n + 1)).map f) k x = (bankAfter g ((List.range n).map f) k x).ws (BitVec.ofNat 5 (a + n)) (w n) := by
      rw [List.range_succ, List.map_append, List.map_singleton, bankAfter_concat, if_pos (hf n).symm, hg n (Nat.lt_succ_self n)]
    rw [hstep]
    refine ⟨fun i hi => ?_, fun r hr => ?_, ?_⟩
    · rw [Bank.rs_ws]
      rcases Nat.lt_succ_iff_lt_or_eq.1 hi with hlt | rfl
      · rw [if_neg fun h => hlt.ne (hinj hlt.le le_rfl h.1), hreg i hlt]
      · rw [if_pos ⟨rfl, hne⟩]
    · rw [Bank.rs_ws, if_neg fun h => hr n (Nat.lt_succ_self n) h.1, hother r fun i hi => hr i (by omega)]
    · rw [Bank.ws, if_neg hne]
      exact hrest

/-- A slot's register takes the bytes that LS sees. -/
theorem popAct_readsAt {s : State} (hr : s.fseat.red = none) {a : Nat} {p : Spot} {y : BankAccess} (h : PlainAt s p.pa) (hp : s.poisoned p.pa 8 = false) :
    ReadsAt s (popAct s a) p y
      (fun z => z.ws (BitVec.ofNat 5 (a + (y.va - (s.fbank y.bank).hsp.toNat) / 8)) (BitVec.ofNat 64 (s.lsSees p.pa 8))) (fun _ => True) := by
  intro u hu
  have hread : readMarked u p 8 = .ok (s.lsSees p.pa 8, u.afterRead p.pa 8) := by
    rw [readMarked_of_unmarked (hu.echoLoad.trans (echoLoad_of_task hr)), readSpot_plain (h.of_accessed hu.accessed), hu.accessed.poisoned, hp, hu.sees]
    rfl
  refine ⟨_, by rw [popAct, hread]; rfl, (hu.trans (onlyRead_afterRead u p.pa 8)).trans (onlyRead_modBank _ _ _ fun x => Bank.kept_ws x _ _),
    trivial, fun c b => ?_⟩
  rw [State.bank_modBank, State.bank_afterRead, hu.accessed.focus]

/-- A popped bank's hsp moves when all its slots are loaded (R154). -/
theorem pop_reads {s : State} (hs : Settled s) (hr : s.fseat.red = none) {i : Instr} {a n : Nat} {pa : Nat → Nat → Nat} (ha : 1 ≤ a) (hn : a + n ≤ 32)
    (he : exec i s = stackEnd s false n (scalarAccess s s.fctx s.fseat popAccess (s.slots false a n) (popAct s a)))
    (hin : ∀ k ∈ s.active, ¬OutsideWindow (s.fbank k).hsp n)
    (h : ∀ k ∈ s.active, ∀ j, j < n → Plain s .read 8 (slotVa (s.fbank k).hsp j) (pa k j) ∧ ownSram s.fseat s.focus.core (pa k j) = true ∧
      s.poisoned (pa k j) 8 = false) :
    ReadsIn i s (fun k x y => (∀ j, j < n → y.rs (BitVec.ofNat 5 (a + j)) = BitVec.ofNat 64 (s.lsSees (pa k j) 8)) ∧
      (∀ r : BitVec 5, (∀ j, j < n → r ≠ BitVec.ofNat 5 (a + j)) → y.rs r = x.rs r) ∧
      y.hsp = hspAfter false n (s.fbank k) ∧ { y with s := x.s, hsp := x.hsp } = x) := by
  let g : BankAccess → Bank → Bank := fun y z =>
    z.ws (BitVec.ofNat 5 (a + (y.va - (s.fbank y.bank).hsp.toNat) / 8)) (BitVec.ofNat 64 (s.lsSees (spotPa s popAccess y.va) 8))
  have hcheck {k j : Nat} (hk : k ∈ s.active) (hj : j < n) :
      ∃ p, checkAccess s s.fctx s.fseat popAccess (s.slotAt false a n k j).va = .ok p ∧ p.pa = pa k j :=
    checkAccess_stack hr (.inr ⟨rfl, rfl⟩) (h k hk j hj).1 (h k hk j hj).2.1
  have hall : ∀ y ∈ s.slots false a n, ∃ p, checkAccess s s.fctx s.fseat popAccess y.va = .ok p ∧ ReadsAt s (popAct s a) p y (g y) (fun _ => True) := by
    intro y hy
    obtain ⟨k, hk, j, hj, rfl⟩ := mem_slots.1 hy
    obtain ⟨p, hp, hpa⟩ := hcheck hk hj
    obtain ⟨hplain, -, hpois⟩ := h k hk j hj
    have hread := popAct_readsAt (a := a) (y := s.slotAt false a n k j) hr (hpa ▸ hplain.plainAt) (by rw [hpa]; exact hpois)
    rw [← spotPa_of_ok hp] at hread
    exact ⟨p, hp, hread⟩
  obtain ⟨u, m, hu, hread⟩ := performAll_reads hall [] (s.part s.focus).begun
  rw [List.append_nil] at hu
  let f : Nat → Bank → Bank := fun k x => { x with hsp := hspAfter false n (s.fbank k) }
  rw [scalarAccess_performs fun y hy => (hall y hy).imp fun _ h => h.1, State.accessAll, hu] at he
  refine readsIn_of hs (hread.onlyRead.trans (onlyRead_onActive u (f := f) fun _ _ => rfl)) he fun c b => ?_
  rw [State.bank_onActive, hread.onlyRead.accessed.active, hread.onlyRead.accessed.focus, hread.bank]
  by_cases hc : c = s.focus.core
  · rw [if_pos hc, State.slots, bankAfter_flatMap (fun k y hy => by obtain ⟨j, -, rfl⟩ := List.mem_map.1 hy; rfl) s.active_nodup]
    by_cases hb : b ∈ s.active
    · rw [if_pos ⟨hc, hb⟩, if_pos ⟨hc, hb⟩, if_pos hb]
      obtain ⟨hreg, hother, hrest⟩ := bankAfter_registers (g := g) (f := s.slotAt false a n b) (k := b) (fun _ => rfl) ha hn
        (w := fun j => BitVec.ofNat 64 (s.lsSees (pa b j) 8)) (fun j hj y => by
          obtain ⟨p, hp, hpa⟩ := hcheck hb hj
          have hva : (s.slotAt false a n b j).va = (s.fbank b).hsp.toNat + 8 * j := slotVa_inside (hin b hb) hj (by omega)
          simp only [g]
          rw [spotPa_of_ok hp, hpa, hva, show (s.slotAt false a n b j).bank = b from rfl, Nat.add_sub_cancel_left,
            Nat.mul_div_cancel_left j (by decide)]) (s.bank c b)
      exact ⟨hreg, hother, rfl, (congrArg (fun z : Bank => { z with hsp := (s.bank c b).hsp }) hrest :)⟩
    · rw [if_neg fun h => hb h.2, if_neg fun h => hb h.2, if_neg hb]
  · rw [if_neg fun h => hc h.1, if_neg fun h => hc h.1, if_neg hc]

/-- Settles O22: the traps in their order, then the accesses of all slots and the move of hsp. -/
theorem pushAndPopMoveTheStack : Obligations.PushAndPopMoveTheStack := by
  intro s a b pa hs hf hr hwf ha hab n hsp down slot outside reg lowest odd own strays
  have hbase (k : Nat) : stackBase true n (s.fbank k) = down k := sub_slots _ _
  have hn : a.toNat + n ≤ 32 := by
    have := b.isLt
    omega
  refine ⟨fun k ⟨hk, hodd, hlow⟩ => ⟨stackOp_odd hk hodd hlow, stackOp_odd hk hodd hlow⟩, fun heven => ?_⟩
  have hpush (h : ∀ k ∈ s.active, ¬outside (down k)) : exec (.push a b) s =
      stackEnd s true n (scalarAccess s s.fctx s.fseat pushAccess (s.slots true a.toNat n) (storeAct 8)) :=
    stackOp_inside (isPush := true) heven fun k hk => by
      rw [hbase]
      exact h k hk
  have hpop (h : ∀ k ∈ s.active, ¬outside (hsp k)) : exec (.pop a b) s =
      stackEnd s false n (scalarAccess s s.fctx s.fseat popAccess (s.slots false a.toNat n) (popAct s a.toNat)) :=
    stackOp_inside (isPush := false) heven h
  refine ⟨fun k ⟨hk, hout, hlow⟩ => ?_, fun k ⟨hk, hout, hlow⟩ => stackOp_outside heven hk hout hlow,
    fun hin h k i ⟨hk, _, hlow⟩ hi hstray hbefore => ?_, fun hin h k i ⟨hk, _, hlow⟩ hi hstray hbefore => ?_, fun h hin => ?_, fun h hin => ?_⟩
  · refine stackOp_outside heven hk ?_ fun j hj hlt => ?_
    · rw [hbase]
      exact hout
    · rw [hbase]
      exact hlow j hj hlt
  · have hp := hpush hin
    rw [stack_strays hr (.inl ⟨rfl, rfl⟩) (pa := pa) (fun j hj m hm => by rw [hbase]; exact h j hj m hm) hk hlow hi hstray hbefore, hbase] at hp
    exact hp
  · have hp := hpop hin
    rw [stack_strays hr (.inr ⟨rfl, rfl⟩) (pa := pa) h hk hlow hi hstray hbefore] at hp
    exact hp
  · have hp := push_stores hs hr hwf (hpush hin) fun k hk j hj => by
      rw [hbase]
      exact h k hk j hj
    simp only [show ∀ k, hspAfter true n (s.fbank k) = down k from hbase] at hp
    exact hp
  · have hp := pop_reads hs hr ha hn (hpop hin) hin h
    simp only [show ∀ k, hspAfter false n (s.fbank k) = BitVec.ofNat 64 ((hsp k).toNat + 8 * n) from fun k => add_eq_ofNat _ _] at hp
    exact hp

end Sys2Proof.Machine
end

section
/-! Synchronisation (O43): what tend leaves of a task whose launch stands twice in the table of launches. -/

namespace Sys2Proof.Machine

-- Proofs elaborated side by side each hold a thread's stack, and the whole text compiles near the memory limit of its check.
set_option Elab.async false

/-! ## A launch that is listed twice -/

/-- A task of a launch, in seat 0 of core 0. -/
def endingTask (st : TaskState) : Task where
  record := ⟨2, 0, 0, 1, 0, 1, 0, 0, 0, 0, List.replicate 8 0, [], []⟩
  st := st
  cause := 0
  dep := 0
  age := 0
  prio := 1
  pa := 0
  core := 0
  ctx := []
  area := none
  isExported := false
  op := none
  keys := 0
  runs := 0
  replicas := [0]
  left := []

/-- A launch with these tasks. -/
def endingLaunch (tasks : Table (Option Task)) : Launch where
  sill := 0
  ptbr := 0
  sup := true
  event := 0
  frec := 0
  fcap := 0
  fcountVa := 0
  fcount := 0
  hbase := 0x1000
  save := 0
  loops := 0
  bars := []
  arrived := []
  phases := []
  tasks := tasks
  nextTask := 2
  paused := false
  cancelled := false
  op := none

/-- The seat that runs task 0 of launch 0. -/
def endingSeat : Seat := { Seat.empty with tvec := 0x1000, prio := 1, recPrio := 3, parts := [(0, some { Part.empty with pc := 2, active := 1, vl := 4 })] }

/-- Task 0 of launch 0 runs, task 1 has not ended; behind that entry the table lists launch 0 again, without tasks. -/
def launchListedTwice : State :=
  { State.reset with
    cores := [(0, { Core.empty with banks := [(0, Bank.empty)], seats := [(0, some endingSeat)] })]
    focus := ⟨0, 0, 0⟩
    launches := [(0, some (endingLaunch [(0, some (endingTask .running)), (1, some (endingTask .waiting))])), (0, some (endingLaunch []))] }

/-- The state of task 0 of launch 0 after a step. -/
def endedTask (r : Host.Outcome State Fault Refusal) : Option TaskState :=
  match r with
  | .next t => (t.task? 0 0).map (·.st)
  | _ => none

theorem endedTask_listedTwice : endedTask (exec .tend launchListedTwice) = none := by decide +kernel

theorem banks_listedTwice : ∀ k ∈ launchListedTwice.fseat.banks, (∀ r ∈ (launchListedTwice.fbank k).k, r.2 = none) ∧ ∀ n, n < 12 →
    ((launchListedTwice.fbank k).pane n).st ∈ [PaneState.closed, .openClean, .openDirty] ∧ ((launchListedTwice.fbank k).pane n).pins = 0 := by decide +kernel

/-- Refutes O43, in its clause on tend: the sweep of ended launches finds the second entry of launch 0, which has no tasks left, and with it ends launch 0,
whose task 1 has not ended; the ended task 0 is then no longer there. A launch stands once in the tables that the machine builds; the statement has no
premise that says so. -/
theorem not_synchronisationInstructionsWaitOrPass : ¬Obligations.SynchronisationInstructionsWaitOrPass := by
  intro h
  obtain ⟨-, -, -, -, -, -, -, -, htend, -⟩ := h launchListedTwice 0 0 0 0 0 0 rfl rfl
  obtain ⟨t, ht, -, -, hdone⟩ := htend rfl rfl rfl rfl rfl banks_listedTwice
  obtain ⟨y, hy, hst⟩ := hdone ⟨1, _, by decide, rfl, rfl⟩ _ rfl
  have hended := endedTask_listedTwice
  rw [ht] at hended
  have hsome : endedTask (.next t) = some y.st := congrArg (Option.map Task.st) hy
  rw [hsome] at hended
  cases hended

end Sys2Proof.Machine
end
